-- ==== Sys2Proof/Word.lean ====
section
/-! DEFINITION. The word types of the FNE1680: registers and memory words of 64 bits (R7), bytes, and the angle and
time types, which the manual compares and adds as whole numbers (R3, R5). -/

namespace Sys2Proof

/-- A register or memory word (R7). -/
abbrev W64 := BitVec 64
/-- Half of a register. -/
abbrev W32 := BitVec 32
/-- A byte of memory, of a frame or of a two-wire transaction. -/
abbrev Byte := BitVec 8
/-- DTIME or a duration in ns (R5). -/
abbrev Ns := Nat
/-- An absolute cycle angle in units of 2^-22 °CA (R3). -/
abbrev Angle := Nat

end Sys2Proof
end

