-- ==== Sys2Proof/Syntax.lean ====
section
/-! DEFINITION. The commands of the FNE1680: one constructor for each row of spec/opcode_table.json. The first operand
`t` of every command is the DTIME in ns at which it takes place (assumption 1). Indices of instances are `Fin`, so that
an instance the device does not have cannot be named. Samples of the outside world (edges, levels, codes, frames,
bytes) travel with the command that takes them. -/

namespace Sys2Proof

/-- The register access contexts of R34 and R353. -/
inductive Path where
  | twp | can0 | can1 | can2 | can3 | rope | loader
  deriving DecidableEq, Repr, Inhabited

/-- One transition at a wheel input (R36 to R39). Input 0 is CRK_0, 1 CRK_1, 2 to 5 CAM_0 to CAM_3. -/
structure WheelEdge where
  input   : Fin 6
  /-- DTIME of the transition, corrected for the capture latency (R39). -/
  stamp   : Ns
  /-- New level is high (Hall), or the zero crossing rises (VR). -/
  rising  : Bool
  /-- Consecutive 4 ns samples for which the new level stays (R39). -/
  samples : Nat
  /-- Peak amplitude in mV of the half-wave before the crossing (R37); not used in Hall mode. -/
  peakMv  : Nat
  deriving DecidableEq, Repr, Inhabited

/-- The three frame formats of R305. -/
inductive CanFormat where
  | classical | fd | xl
  deriving DecidableEq, Repr, Inhabited

/-- A CAN frame (R305). -/
structure CanFrame where
  format : CanFormat
  ide    : Bool
  id     : BitVec 29
  remote : Bool
  brs    : Bool
  sdt    : Byte
  vcid   : Byte
  af     : W32
  data   : List Byte
  /-- DTIME of the start of frame (R314). -/
  sof    : Ns
  /-- Error state indicator of an FD frame (R305). -/
  esi    : Bool := false
  /-- Start and end of the data phase of an XL frame on the bus (R305). -/
  phase  : Ns × Ns := (0, 0)
  deriving DecidableEq, Repr, Inhabited

/-- A rope frame as received (R324). -/
structure RopeFrame where
  /-- No coding or CRC error. -/
  ok     : Bool
  w0     : W64
  posw   : W64
  tags   : W64
  values : List W64
  tunnel : W32
  /-- DTIME of the arrival of the K28.5 symbol (R326). -/
  arrive : Ns
  deriving DecidableEq, Repr, Inhabited

/-- Stored bits of one SRAM byte that flipped: bits 7 to 0 data, bits 12 to 8 check bits (R32, R404). -/
structure Upset where
  bank  : Fin 17
  word  : Nat
  byte  : Fin 16
  flips : BitVec 13
  deriving DecidableEq, Repr, Inhabited

/-- A section of a flash image as read: section ID, payload words, CRC-32 (R348). -/
structure FlashSection where
  id      : Nat
  payload : List W64
  crc     : W32
  deriving DecidableEq, Repr, Inhabited

/-- A whole slot of the flash as read: boot header, image header, present sections in order (R344 to R348). -/
structure FlashSlot where
  boot     : List Byte
  header   : List Byte
  sections : List FlashSection
  deriving DecidableEq, Repr, Inhabited

/-- What a completed bridge operation brings back from the flash (R362). -/
inductive BridgeResult where
  | none
  | bytes (l : List Byte)
  | slot (f : FlashSlot)
  deriving DecidableEq, Repr, Inhabited

/-- The internal sources of input 14 (R254) as they stand outside: the die temperature in 1/1000 °C, the rest in µV before
any divider. -/
structure IntSources where
  dieMilliC : Int := 25000
  vsup  : Nat := 0
  vioA  : Nat := 0
  vioB  : Nat := 0
  vioM  : Nat := 0
  vgd   : Nat := 0
  bstVs : Nat := 0
  vbatS : Nat := 0
  vcore : Nat := 0
  deriving DecidableEq, Repr, Inhabited

/-- What a conversion brings: the filter's code before the trim (R251), and the internal sources, of which input 14 converts
the selected one (R254). -/
structure Conversion where
  code : BitVec 24
  src  : IntSources := {}
  deriving DecidableEq, Repr, Inhabited

/-- The switch that a VDS fault names (R197). -/
inductive VdsSwitch where
  | ls  (k : Fin 4) (j : Fin 4)
  | hsb (k : Fin 4)
  | hsv (k : Fin 4)
  | pfi (n : Fin 16)
  deriving DecidableEq, Repr, Inhabited

/-- A VDS fault: its switch, since when it has been present, the monitored node and V(VBAT_S) in mV (R197). -/
structure VdsTrip where
  sw     : VdsSwitch
  since  : Ns
  nodeMv : Nat
  vbatMv : Nat
  deriving DecidableEq, Repr, Inhabited

/-- The object of an off-state test (R198, R199). -/
inductive OffTest where
  | bank (k : Fin 4)
  | pfi (n : Fin 16)
  deriving DecidableEq, Repr, Inhabited

/-- What falls due at an EDGE_ISSUE: an edge of a box (R95) or of a basecamp template (R371). -/
inductive EdgeSource where
  | box (b : Fin 128)
  | template (i : Fin 64)
  deriving DecidableEq, Repr, Inhabited

/-- What writes its result: a box (R144) or a descriptor that a flush put into ENDING (R148). -/
inductive ResultSource where
  | box (b : Fin 128)
  | descriptor (i : Fin 2048)
  deriving DecidableEq, Repr, Inhabited

/-- The two units that a lockstep checker watches (R23). -/
inductive LockstepUnit where
  | pos | adm
  deriving DecidableEq, Repr, Inhabited

/-- The wake sources of R381. -/
inductive WakeSource where
  | can | timer | wakeIn (rising : Bool) | keyIn
  deriving DecidableEq, Repr, Inhabited

/-- The last-error codes of CAN_STAT.LEC (R330). -/
inductive CanError where
  | stuff | form | ack | bit1 | bit0 | crc
  deriving DecidableEq, Repr, Inhabited

/-- An error of a received frame, flagged by this receiver, and the conditions for which ISO 11898-1 counts 8 more: a dominant
bit first after the error flag, a bit error in it, and each eight dominant bits that follow (R306). -/
structure RxError where
  kind : CanError
  more : Nat
  deriving DecidableEq, Repr, Inhabited

/-- A repeat of the attention pulse: its DTIME, and whether SCL falls within the pulse (R338). -/
structure AttnPulse where
  t       : Ns
  sclFell : Bool
  deriving DecidableEq, Repr, Inhabited

/-- How an attempt to send a frame ended (R317): an error is offered again as a lost arbitration is. ISO 11898-1 counts an
error once, and 8 more for each further condition it names (`more`); a stuff error in the arbitration field at a recessive
bit seen dominant is not counted (R306). `phase`: as in a `CanFrame`. -/
inductive TxOutcome where
  | sent (phase : Ns × Ns) | lost | error (e : CanError) (more : Nat) | stuffLost
  deriving DecidableEq, Repr, Inhabited

/-- The commands. The docstring of a constructor names its rule. -/
inductive Instr where
  /-- R373 -/ | powerOnReset (t : Ns)
  /-- R383 -/ | brownOutReset (t : Ns)
  /-- R373 -/ | pinReset (t : Ns)
  /-- R370: the straps sampled, and the boot header of slot A read by the probe (R343). -/
  | resetRelease (t : Ns) (ropeRole asel0 asel1 : Bool) (boot : List Byte)
  /-- R370; `posFlagged` and `admFlagged`: the checker flagged the injected mismatch (R402). -/
  | hardwareFillEnd (t : Ns) (lockUs : BitVec 16) (extClk posFlagged admFlagged : Bool)
  /-- R349 -/ | sectionLoaded (t : Ns) (sec : FlashSection)
  /-- R350 -/ | signatureVerified (t : Ns)
  /-- R353 -/ | initRecordDelay (t : Ns)
  /-- R359 -/ | finalisation (t : Ns)
  /-- R384 -/ | borWarning (t : Ns)
  /-- R384 -/ | vsupRecovery (t : Ns)
  /-- R421 -/ | vgdUndervoltage (t : Ns)
  /-- R421 -/ | vgdRecovery (t : Ns)
  /-- R392 -/ | clkXtalLost (t : Ns)
  /-- R392 -/ | clkPllLost (t : Ns)
  /-- R402 -/ | lockstepMismatch (t : Ns) (unit : LockstepUnit)
  /-- R393 -/ | supVcore (t : Ns)
  /-- R48 -/ | crankEdge (t : Ns) (e : WheelEdge)
  /-- R41: leading and trailing edge of a pulse on input CRK_0, CRK_1 or a cam. -/
  | directionPulse (t : Ns) (input : Fin 6) (lead trail : Ns)
  /-- R382 -/ | syntheticEdge (t : Ns)
  /-- R45 -/ | camEdge (t : Ns) (e : WheelEdge)
  /-- R49 -/ | toothTimeout (t : Ns)
  /-- R62 -/ | stall (t : Ns)
  /-- R95 -/ | edgeIssue (t : Ns) (src : EdgeSource)
  /-- R144 -/ | resultWrite (t : Ns) (src : ResultSource)
  /-- R109 -/ | admNetSubmit (t : Ns) (p : Path)
  /-- R112 -/ | standingSubmission (t : Ns)
  /-- R114 -/ | admissionDecision (t : Ns)
  /-- R156 -/ | psqDrive (t : Ns) (k : Fin 4)
  /-- R177 -/ | untilAbove (t : Ns) (k : Fin 4)
  /-- R177 -/ | untilBelow (t : Ns) (k : Fin 4)
  /-- R178 -/ | wait (t : Ns) (k : Fin 4)
  /-- R182 -/ | chop (t : Ns) (k : Fin 4)
  /-- R182 -/ | chopToEnd (t : Ns) (k : Fin 4)
  /-- R183: the filtered comparator outputs at the start of the step. -/
  | branch (t : Ns) (k : Fin 4) (cmpHi cmpLo : Bool)
  /-- R184 -/ | loop (t : Ns) (k : Fin 4)
  /-- R176 -/ | psqSample (t : Ns) (k : Fin 4)
  /-- R176 -/ | mark (t : Ns) (k : Fin 4)
  /-- R187 -/ | psqEnd (t : Ns) (k : Fin 4)
  /-- R180 -/ | waitConditionMet (t : Ns) (k : Fin 4)
  /-- R177 -/ | waitTimeout (t : Ns) (k : Fin 4)
  /-- R182 -/ | chopSwitch (t : Ns) (k : Fin 4)
  /-- R186 -/ | commandedEnd (t : Ns) (k : Fin 4)
  /-- R161 -/ | bankRelease (t : Ns) (k : Fin 4)
  /-- R163 -/ | endTimeout (t : Ns) (k : Fin 4)
  /-- R159: shunt voltage in nV. -/
  | bankSample (t : Ns) (k : Fin 4) (shuntNv : Nat)
  /-- R197 -/ | vdsFault (t : Ns) (x : VdsTrip)
  /-- R198 -/ | diOffStateTest (t : Ns) (k : Fin 4)
  /-- R199 -/ | pfiOffStateTest (t : Ns) (n : Fin 16)
  /-- R198: voltage read at the node and V(VBAT_S), in mV. -/
  | offTestRead (t : Ns) (o : OffTest) (nodeMv vbatMv : Nat)
  /-- R170 -/ | drainDelayMeasured (t : Ns) (n : Fin 16) (isOn : Bool)
  /-- R170 -/ | drainDelaySaturated (t : Ns) (n : Fin 16) (isOn : Bool)
  /-- R209 -/ | softShutdownEnd (t : Ns) (n : Fin 16)
  /-- R214 -/ | maxDwellGuard (t : Ns) (n : Fin 16)
  /-- R165: V(BST_VS) in µV. -/
  | bstVoltUpdate (t : Ns) (vsUv : Nat)
  /-- R164 -/ | bstCsPeak (t : Ns)
  /-- R164 -/ | tOnMax (t : Ns)
  /-- R164 -/ | tOffEnd (t : Ns)
  /-- R168 -/ | boostOverVoltage (t : Ns)
  /-- R168 -/ | boostUnderVoltage (t : Ns)
  /-- R244 -/ | runStart (t : Ns) (k : Fin 8)
  /-- R244: trigger `i` of the engine, 0 the running or oldest one. -/
  | overrun (t : Ns) (k : Fin 8) (i : Fin 17)
  /-- R227 -/ | ceEnd (t : Ns) (k : Fin 8)
  /-- R233 -/ | mov (t : Ns) (k : Fin 8)
  /-- R233 -/ | add (t : Ns) (k : Fin 8)
  /-- R233 -/ | sub (t : Ns) (k : Fin 8)
  /-- R233 -/ | mul (t : Ns) (k : Fin 8)
  /-- R230 -/ | div (t : Ns) (k : Fin 8)
  /-- R233 -/ | mac (t : Ns) (k : Fin 8)
  /-- R233 -/ | min (t : Ns) (k : Fin 8)
  /-- R233 -/ | max (t : Ns) (k : Fin 8)
  /-- R233 -/ | clamp (t : Ns) (k : Fin 8)
  /-- R233 -/ | abs (t : Ns) (k : Fin 8)
  /-- R233 -/ | neg (t : Ns) (k : Fin 8)
  /-- R233 -/ | and (t : Ns) (k : Fin 8)
  /-- R233 -/ | or (t : Ns) (k : Fin 8)
  /-- R233 -/ | xor (t : Ns) (k : Fin 8)
  /-- R233 -/ | shl (t : Ns) (k : Fin 8)
  /-- R233 -/ | shr (t : Ns) (k : Fin 8)
  /-- R232 -/ | cmp (t : Ns) (k : Fin 8)
  /-- R233 -/ | sel (t : Ns) (k : Fin 8)
  /-- R240 -/ | lut1 (t : Ns) (k : Fin 8)
  /-- R240 -/ | lut2 (t : Ns) (k : Fin 8)
  /-- R240 -/ | lut3 (t : Ns) (k : Fin 8)
  /-- R233 -/ | lag (t : Ns) (k : Fin 8)
  /-- R233 -/ | rate (t : Ns) (k : Fin 8)
  /-- R233 -/ | integ (t : Ns) (k : Fin 8)
  /-- R234 -/ | pi (t : Ns) (k : Fin 8)
  /-- R235 -/ | angt (t : Ns) (k : Fin 8)
  /-- R235 -/ | tang (t : Ns) (k : Fin 8)
  /-- R237 -/ | req (t : Ns) (k : Fin 8)
  /-- R237 -/ | reqResult (t : Ns) (k : Fin 8)
  /-- R232 -/ | jmpf (t : Ns) (k : Fin 8)
  /-- R238 -/ | emitCanSignal (t : Ns) (k : Fin 8)
  /-- R293 -/ | emitTimerBuffer (t : Ns) (k : Fin 8)
  /-- R238 -/ | emitPioQueue (t : Ns) (k : Fin 8)
  /-- R238 -/ | emitNote (t : Ns) (k : Fin 8)
  /-- R258 -/ | emitUrgent (t : Ns) (k : Fin 8)
  /-- R247 -/ | halt (t : Ns) (p : Path) (k : Fin 8)
  /-- R247 -/ | step (t : Ns) (p : Path) (k : Fin 8)
  /-- R247 -/ | resume (t : Ns) (p : Path) (k : Fin 8)
  /-- R247 -/ | slotValWrite (t : Ns) (p : Path) (v : W64)
  /-- R256: DTIME of the last modulator sample, what the conversion brings, over-range. -/
  | scanResult (t : Ns) (c : Fin 2) (sample : Ns) (x : Conversion) (ovr : Bool)
  /-- R257 -/ | cnvScanWrite (t : Ns) (p : Path) (c : Fin 2) (v : W64)
  /-- R259: t is the modulator clock at which the conversion starts. -/
  | urgentStart (t : Ns) (c : Fin 2)
  /-- R259: as SCAN_RESULT -/
  | urgentResult (t : Ns) (c : Fin 2) (sample : Ns) (x : Conversion) (ovr : Bool)
  /-- R255 -/ | refOk (t : Ns)
  /-- R268 -/ | recordWrite (t : Ns)
  /-- R277 -/ | streamMaxWait (t : Ns) (i : Fin 2)
  /-- R277 -/ | streamFrameTransmitted (t : Ns) (i : Fin 2)
  /-- R275 -/ | clrLost (t : Ns) (p : Path)
  /-- R282 -/ | discard (t : Ns) (p : Path)
  /-- R279: polarity, and the 4 ns samples for which the level stays. -/
  | snapInEdge (t : Ns) (rising : Bool) (samples : Nat)
  /-- R279 -/ | snapCmdTrig (t : Ns) (p : Path)
  /-- R281 -/ | mergeWindowClose (t : Ns)
  /-- R280 -/ | snapOutEnd (t : Ns)
  /-- R283: one tick of the prescaled reference, or one edge of the source, arrives at unit u. -/
  | tmuTick (t : Ns) (u : Fin 8)
  /-- R290: a filtered edge of the capture source; DTIME of its first equal sample. -/
  | captureEdge (t : Ns) (u : Fin 8) (c : Fin 4) (rising : Bool) (first : Ns)
  /-- R285 -/ | tmuStart (t : Ns) (p : Path) (v : W64)
  /-- R289 -/ | compareValueWrite (t : Ns) (p : Path) (v : W64)
  /-- R290 -/ | captureRead (t : Ns) (p : Path)
  /-- R298: levels of the 16 PIO pins as driven from outside, after the synchroniser. -/
  | hold (t : Ns) (m : Fin 8) (levels : BitVec 16)
  /-- R298 -/ | pioHoldEnd (t : Ns) (m : Fin 8) (levels : BitVec 16)
  /-- R297 -/ | pioDrive (t : Ns) (m : Fin 8)
  /-- R297 -/ | pioSample (t : Ns) (m : Fin 8) (levels : BitVec 16)
  /-- R297 -/ | shift (t : Ns) (m : Fin 8)
  /-- R300 -/ | take (t : Ns) (m : Fin 8)
  /-- R300 -/ | give (t : Ns) (m : Fin 8)
  /-- R300 -/ | pioBlockEnd (t : Ns) (m : Fin 8)
  /-- R297 -/ | count (t : Ns) (m : Fin 8)
  /-- R297 -/ | go (t : Ns) (m : Fin 8) (levels : BitVec 16)
  /-- R298 -/ | stamp (t : Ns) (m : Fin 8)
  /-- R299 -/ | raise (t : Ns) (m : Fin 8)
  /-- R297 -/ | load (t : Ns) (m : Fin 8)
  /-- R295 -/ | pause (t : Ns) (m : Fin 8)
  /-- R295 -/ | pioPauseEnd (t : Ns) (m : Fin 8)
  /-- R302 -/ | pioInject (t : Ns) (p : Path) (v : W64)
  /-- R295 -/ | pioRun (t : Ns) (p : Path) (run : Bool)
  /-- R303 -/ | pioRestart (t : Ns) (p : Path)
  /-- R300 -/ | pioTxqWrite (t : Ns) (p : Path) (v : W64)
  /-- R300 -/ | pioRxqRead (t : Ns) (p : Path)
  /-- R299 -/ | pioFlagSet (t : Ns) (p : Path) (v : W64)
  /-- R301 -/ | pioSlotStale (t : Ns) (m : Fin 8)
  /-- R313 -/ | canFrameReceived (t : Ns) (k : Fin 4) (f : CanFrame)
  /-- R318: the request at the head of controller k's service queue. -/
  | readLo (t : Ns) (k : Fin 4)
  /-- R318 -/ | readHi (t : Ns) (k : Fin 4)
  /-- R318 -/ | svcRead (t : Ns) (k : Fin 4)
  /-- R318 -/ | writeLo (t : Ns) (k : Fin 4)
  /-- R318 -/ | writeHi (t : Ns) (k : Fin 4)
  /-- R318 -/ | svcWrite (t : Ns) (k : Fin 4)
  /-- R320 -/ | challenge (t : Ns) (k : Fin 4)
  /-- R320 -/ | auth (t : Ns) (k : Fin 4)
  /-- R320 -/ | close (t : Ns) (k : Fin 4)
  /-- R320 -/ | sessionTimeout (t : Ns) (k : Fin 4)
  /-- R320 -/ | lockoutEnd (t : Ns) (k : Fin 4)
  /-- R315 -/ | receiveStale (t : Ns) (k : Fin 4) (obj : Fin 128)
  /-- R316 -/ | transmitPeriod (t : Ns) (k : Fin 4) (obj : Fin 128)
  /-- R316 -/ | transmitOnChange (t : Ns) (k : Fin 4) (obj : Fin 128)
  /-- R317: the frame that the queue offered at `sof`, and how its sending ended. -/
  | canFrameTransmitted (t : Ns) (k : Fin 4) (sof : Ns) (r : TxOutcome)
  /-- R306 -/ | busOff (t : Ns) (k : Fin 4)
  /-- R306 -/ | busOffRecovery (t : Ns) (k : Fin 4)
  /-- R306 -/ | recover (t : Ns) (p : Path) (k : Fin 4)
  /-- R308 -/ | canWakeMatch (t : Ns) (k : Fin 4) (ide : Bool) (id : BitVec 29)
  /-- R324 -/ | ropeFrameSend (t : Ns)
  /-- R324 -/ | ropeFrameReceived (t : Ns) (f : RopeFrame)
  /-- R329 -/ | ropeLost (t : Ns)
  /-- R329 -/ | mirrorDefault (t : Ns)
  /-- R334 -/ | twpProbe (t : Ns) (adr : BitVec 7)
  /-- R335: the bytes after the address byte; `stop` false: a repeated START follows. -/
  | twpRegisterWrite (t : Ns) (adr : BitVec 7) (bytes : List Byte) (stop : Bool)
  /-- R336: bytes clocked out. -/
  | twpRegisterRead (t : Ns) (adr : BitVec 7) (n : Nat) (stop : Bool)
  /-- R278 -/ | twpLogRead (t : Ns) (adr : BitVec 7) (n : Nat)
  /-- R337 -/ | twpLogWrite (t : Ns) (adr : BitVec 7) (bytes : List Byte)
  /-- R339 -/ | twpTimeout (t : Ns)
  /-- R338 -/ | attentionRequest (t : Ns) (sclFell : Bool)
  /-- R338 -/ | attnRepeat (a : AttnPulse)
  /-- R362 -/ | bridgeRead (t : Ns) (p : Path) (len : BitVec 9) (addr : BitVec 21)
  /-- R362 -/ | program (t : Ns) (p : Path) (len : BitVec 9) (addr : BitVec 21)
  /-- R362 -/ | erase4k (t : Ns) (p : Path) (addr : BitVec 21)
  /-- R362 -/ | erase64k (t : Ns) (p : Path) (addr : BitVec 21)
  /-- R362 -/ | verify (t : Ns) (p : Path) (addr : BitVec 21)
  /-- R361 -/ | bridgeStatusPoll (t : Ns) (busy : Bool)
  /-- R362 -/ | bridgeOperationDone (t : Ns) (r : BridgeResult)
  /-- R362 -/ | bridgeTimeout (t : Ns)
  /-- R362: `w` none reads the buffer word, some v writes it. -/
  | nviBrDataAccess (t : Ns) (p : Path) (w : Option W64)
  /-- R373 -/ | softwareReset (t : Ns) (p : Path) (key : Byte)
  /-- R373; the checkers' answers to the injected mismatches (R402). -/
  | restart (t : Ns) (p : Path) (key : Byte) (posFlagged admFlagged : Bool)
  /-- R382 -/ | enterService (t : Ns) (p : Path) (key : Byte)
  /-- R379 -/ | endAfterrun (t : Ns) (p : Path) (key : Byte)
  /-- R368 -/ | keyOff (t : Ns)
  /-- R380 -/ | keyOn (t : Ns)
  /-- R379 -/ | afterrunEnd (t : Ns)
  /-- R379 -/ | arMax (t : Ns)
  /-- R381 -/ | wake (t : Ns) (sources : List WakeSource)
  /-- R382 -/ | stop1s (t : Ns)
  /-- R399 -/ | aliveToggle (t : Ns)
  /-- R401 -/ | fltForceKey (t : Ns) (p : Path) (v : W64)
  /-- R401 -/ | fltForce (t : Ns) (p : Path) (v : W64)
  /-- R401 -/ | forceDisarm (t : Ns) (p : Path)
  /-- R398 -/ | firstFaultClear (t : Ns) (p : Path)
  /-- R389 -/ | fltDisClear (t : Ns) (p : Path) (v : W64)
  /-- R204 -/ | diagDisabledClear (t : Ns) (p : Path) (v : W64)
  /-- R406: stored bits that flipped in any bank since the last step. -/
  | scrubStep (t : Ns) (upsets : List Upset)
  /-- R409 -/ | memTestWriteCoded (t : Ns) (p : Path) (word : Fin 16) (flipAp : Bool)
  /-- R409 -/ | memTestWriteRaw (t : Ns) (p : Path) (word : Fin 16) (flipAp : Bool)
  /-- R409 -/ | memTestRead (t : Ns) (p : Path) (word : Fin 16) (flipAp : Bool)
  /-- R413 -/ | pageWrite (t : Ns) (p : Path) (v : W64)
  /-- R100 -/ | posResidClr (t : Ns) (p : Path)
  /-- R436 -/ | registerWrite (t : Ns) (p : Path) (addr : BitVec 16) (v : W64)
  /-- R306 -/ | canBusError (t : Ns) (k : Fin 4) (e : RxError)
  /-- R346: boot header (used when the probe of this slot has not been made yet, R343) and image header. -/
  | imageHeaderRead (t : Ns) (boot header : List Byte)
  deriving DecidableEq, Repr

end Sys2Proof
end

