-- ==== Sys2Proof/Config.lean ====
section
/-! DEFINITION. Free values: what the manual names without fixing. Every constant here is opaque, so no proof can
see its value and every claim holds for all values. -/

namespace Sys2Proof.Config

/-- SHA-256 of a string of bytes (R349, R360), 32 bytes in the order of the standard. Free function (assumption 7). -/
opaque sha256 : List Byte → List Byte

/-- ECDSA verification on P-256 with SHA-256 over a message: public key, r and s, message (R350). Free function
(assumption 7). -/
opaque ecdsaVerify : (key sig msg : List Byte) → Bool

/-- HMAC-SHA-256 of a message under a key (R320), in the order of the standard. Free function (assumption 7). -/
opaque hmac : (key msg : List Byte) → List Byte

/-- Draws of the physical random source (R320), one per count. Free value (assumption 9). -/
opaque nonce : Nat → W64

/-- DATA of a service response that returns nothing (R318). Free value (assumption 9). -/
opaque svcData : Nat → W64

/-- Bit rate switching of service responses in FD, which R318 does not state. Free value (assumption 9). -/
opaque svcBrs : Bool

/-- Which column of the byte code's check matrix, of those that are left, each information bit has (R32, R404). Free value
(assumption 8). -/
opaque eccPick : Nat → Nat

/-- Whether the trim of a result adds OFFSET before it multiplies by GAIN, and whether it rounds up (R251 states neither).
By OFFSET, GAIN and the code before the trim. Free values (assumption 39). -/
opaque trimOffsetFirst : Bool
opaque trimUp : (offset gain code : BitVec 24) → Bool

/-- Whether an internal source's voltage between two codes gives the upper one (R254). By the voltage as a fraction in µV.
Free value (assumption 39). -/
opaque sourceUp : (num : Int) → (den : Nat) → Bool

/-- Words of system memory that hold the PIO programs, eight instructions each, area 0 first (R294 gives no address). Free
value (assumption 64). -/
opaque pioWordAt : Nat → Fin 6144

/-- Where ISO 11898-1 lets the receive error counter go, 119 to 127, when an error-passive receiver takes a frame (R306).
Free value (assumption 9). -/
opaque canRec : Nat → Fin 9

/-- Which of the free descriptors admission takes (R135), as a number taken modulo their count. Free value
(assumption 13). -/
opaque loftPick : Nat → Nat

/-- A word of a FREE descriptor that has held an event (R136 fixes its DSTATE alone). Free value (assumption 9). -/
opaque spentWord : Nat → W64

/-- The input slots that the image assigns to the wheel measurements (R70, R72): 0 to 3 the angle, 4 to 7 the deviation
and 8 to 11 the average of a cam, 16 + c the segment time of
cylinder c, 32 the speed. No section of the manual says where the image names them, so they are a free function of its
header, which holds the digests of all its sections. Free value (assumption 40). -/
opaque measSlot : (header : List Byte) → Nat → Option (Fin 16384)

/-- DETAIL where R352 gives none: a SEC_CHECK on PROFILES that is none of R189's checks, and a check that spans
sections, which has no word of its own in the section reported. By section and by the place at which the check fails.
Free value (assumption 9). -/
opaque loadDetail : Nat → Nat → W32

end Sys2Proof.Config
end

