-- ==== Sys2Proof/Machine/Bits.lean ====
section
/-! DEFINITION. Bit fields, saturation, wrapping counters and little-endian bytes (R7, R8). -/

namespace Sys2Proof

/-- The `n`-bit field of a register that starts at bit `lo`, as a number. -/
def fld (w : W64) (lo n : Nat) : Nat := (w.toNat >>> lo) % 2 ^ n

/-- Bit `i` of a register. -/
def bit (w : W64) (i : Nat) : Bool := w.getLsbD i

/-- The mask of `n` ones from bit `lo`. -/
def mask64 (lo n : Nat) : W64 := BitVec.ofNat 64 ((2 ^ n - 1) * 2 ^ lo)

/-- `x` placed as the `n`-bit field that starts at bit `lo` of an otherwise zero register. -/
def put (lo n x : Nat) : W64 := BitVec.ofNat 64 ((x % 2 ^ n) * 2 ^ lo)

/-- A flag placed at bit `i`. -/
def putB (i : Nat) (b : Bool) : W64 := if b then BitVec.ofNat 64 (2 ^ i) else 0

/-- A signed number placed as an `n`-bit two's complement field. -/
def putI (lo n : Nat) (x : Int) : W64 := put lo n (x % (2 ^ n : Nat)).toNat

/-- The bits of `new` under `m`, the bits of `old` elsewhere. -/
def merge (m old new : W64) : W64 := (old &&& ~~~m) ||| (new &&& m)

/-- An `n`-bit two's complement number. -/
def signed (n x : Nat) : Int := if x % 2 ^ n < 2 ^ (n - 1) then (x % 2 ^ n : Nat) else (x % 2 ^ n : Nat) - (2 ^ n : Nat)

/-- `x` limited to the range `lo` to `hi`. -/
def clampI (lo hi x : Int) : Int := if x < lo then lo else if hi < x then hi else x

/-- `x` limited to `hi`. -/
def satN (hi x : Nat) : Nat := if hi < x then hi else x

/-- A quotient rounded to the nearest whole number, half up; `b` is positive. -/
def divRound (a : Int) (b : Nat) : Int := (2 * a + b) / (2 * b)

/-- The same for non-negative numbers. -/
def divRoundN (a b : Nat) : Nat := (2 * a + b) / (2 * b)

/-- The little-endian bytes of the `n` lowest bytes of `x`. -/
def leBytes : Nat → Nat → List Byte
  | 0, _ => []
  | n + 1, x => BitVec.ofNat 8 x :: leBytes n (x / 256)

/-- The number that little-endian bytes spell. -/
def leNat : List Byte → Nat
  | [] => 0
  | b :: l => b.toNat + 256 * leNat l

/-- The bytes of a word in memory order (R7). -/
def wordBytes (w : W64) : List Byte := leBytes 8 w.toNat

/-- The bytes of words in memory order. -/
def wordsBytes (l : List W64) : List Byte := l.flatMap wordBytes

/-- Words from bytes, eight at a time; the last one is padded with zeros. `n` bounds the number of words. -/
def bytesWords : Nat → List Byte → List W64
  | 0, _ => []
  | _, [] => []
  | n + 1, l => BitVec.ofNat 64 (leNat (l.take 8)) :: bytesWords n (l.drop 8)

/-- One step of the reflected CRC-32 of IEEE 802.3 (R348). -/
def crcBit (c : W32) : W32 := if c.getLsbD 0 then (c >>> 1) ^^^ 0xEDB88320#32 else c >>> 1

/-- One byte of the CRC-32. -/
def crcByte (c : W32) (b : Byte) : W32 :=
  let x := c ^^^ b.setWidth 32
  crcBit (crcBit (crcBit (crcBit (crcBit (crcBit (crcBit (crcBit x)))))))

/-- CRC-32 over bytes, initial value and final exclusive-or of 0xFFFF_FFFF (R348). -/
def crc32 (l : List Byte) : W32 := l.foldl crcByte 0xFFFFFFFF#32 ^^^ 0xFFFFFFFF#32

/-- 1 °CA in angle units (R3). -/
def degree : Nat := 4194304

/-- The entry of a fixed-size table changed in place. -/
def upd {α : Type} {n : Nat} (v : Vector α n) (i : Fin n) (f : α → α) : Vector α n := v.set i (f v[i])

/-- The entry of a list changed in place; nothing happens past its end. -/
def updL {α : Type} (l : List α) (i : Nat) (f : α → α) : List α := l.modify i f

end Sys2Proof
end

