-- ==== Sys2Proof/Machine/State.lean ====
section
/-! DEFINITION. The state of the FNE1680, as plain data. The default value of every field is its value after a
power-on reset and the hardware fill (R9, R370); `State.reset` is made of those defaults. A register that software
reads and writes whole is a `W64` and its fields are read with `fld` and `bit`; state that lives only inside the
device has a type of its own. -/

namespace Sys2Proof.Machine

/-! ### Names -/

/-- The modes of R365. -/
inductive Mode where
  | reset | fill | basecamp | waitSync | crank | run | limp | afterrun | bivouac | service | safe | locked
  deriving DecidableEq, Repr, Inhabited

/-- The sync states of R51. -/
inductive SyncState where
  | stopped | counting | gapFound | full | half
  deriving DecidableEq, Repr, Inhabited

/-- The event types of R102. -/
inductive EvType where
  | di | pfi | ign | gate | sample | calc | capt | pio
  deriving DecidableEq, Repr, Inhabited

/-- The results of R129. -/
inductive EvResult where
  | done | doneLate | diag | endedSync | endedFault | endedMode | cancelled
  deriving DecidableEq, Repr, Inhabited

/-- The switch states of R155. -/
inductive SwState where
  | decay | boost | batt | free
  deriving DecidableEq, Repr, Inhabited

/-- The box states of R141. -/
inductive BoxState where
  | free | armed | committed | active | closing
  deriving DecidableEq, Repr, Inhabited

/-- The descriptor states of R136 but FREE, which is absence from the loft. -/
inductive DState where
  | waiting | inBox | ending
  deriving DecidableEq, Repr, Inhabited

/-! ### Factory fuses and memory -/

/-- The fuse map (R370). No command changes it (R2). Its values are this die's; see assumption 5. -/
structure Fuses where
  step     : BitVec 4 := 1
  sigReq   : Bool := false
  keyHash  : Option (List Byte) := none
  svcKey0  : Option (List Byte) := none
  svcKey1  : Option (List Byte) := none
  serial   : W32 := 0
  trimA    : W64 := 0
  trimB    : W64 := 0
  /-- Spare rows and columns in use, per bank of R403. -/
  spares   : List (Nat × Nat) := []
  /-- CAN_SVC of CAN_0 (R321, R330): the factory-fused identifiers. -/
  svcRxId  : BitVec 29 := 0
  svcTxId  : BitVec 29 := 0
  deriving DecidableEq, Repr, Inhabited

/-- Tag, class and writer code of a slot (R222 to R226). -/
structure SlotAttr where
  tag    : Byte := 0
  cls    : BitVec 2 := 0
  writer : BitVec 4 := 15
  deriving DecidableEq, Repr, Inhabited

/-- The memories that more than one unit reads: list, slot, map, profile and message memory at the internal byte
addresses of R31, and the tag array beside slot memory (R222). Both lists are in canonical form: keys strictly rising,
nothing listed that equals what an unlisted key reads as. -/
structure Mems where
  sram  : List Host.Cell := []
  attrs : List (Nat × SlotAttr) := []
  /-- The permit slot of the learning while a revolution is watched, and whether it has permitted at every moment (R78). -/
  watch : Option (Nat × Bool) := none
  deriving DecidableEq, Repr, Inhabited

/-- A write that a command makes to the memories. It takes effect at the end of the command (R228). -/
inductive MemOp where
  /-- Value and tag of a slot in one clock (R222). -/
  | slot (i : Nat) (v : W64) (tag : Byte)
  /-- Tag alone (R262, R315, R329, R407). -/
  | tag (i : Nat) (tag : Byte)
  /-- STALE set and VALID clear in a slot's tag (R226). -/
  | stale (i : Nat)
  /-- Bytes at an internal address. -/
  | bytes (a : Nat) (l : List Byte)
  /-- Zero data from one internal address to another (R405). -/
  | fill (lo hi : Nat)
  /-- Tags, classes and writers back to R223's values. -/
  | clearAttrs
  /-- A revolution of the learning begins: its permit slot is watched from here on (R78). -/
  | watch (x : Option Nat)
  /-- Class and writer of a slot, by the loader (R354). -/
  | attr (i : Nat) (a : SlotAttr)
  deriving DecidableEq, Repr, Inhabited

/-! ### Access paths -/

/-- What each access path keeps for itself (R34): PAGE, the select and index registers, the staged request of R134,
and the force arming of R401. -/
structure PathCtx where
  page      : Byte := 0
  inSel     : W64 := 0
  corrIdx   : W64 := 0
  yardSel   : W64 := 0
  stdSel    : W64 := 0
  boxSel    : W64 := 0
  loftIdx   : W64 := 0
  chainIdx  : W64 := 0
  profSel   : Vector W64 4 := Vector.replicate 4 0
  psqMemIdx : Vector W64 4 := Vector.replicate 4 0
  pfiSel    : W64 := 0
  ignSel    : W64 := 0
  trigSel   : Vector W64 8 := Vector.replicate 8 0
  slotIdx   : W64 := 0
  listIdx   : W64 := 0
  winIdx    : Vector W64 2 := Vector.replicate 2 0
  ringSel   : W64 := 0
  streamSel : W64 := 0
  tmuSel    : W64 := 0
  pairSel   : W64 := 0x100
  pioSel    : W64 := 0
  objSel    : Vector W64 4 := Vector.replicate 4 0
  mirSel    : W64 := 0
  brIdx     : W64 := 0
  srcSel    : W64 := 0
  memIdx    : W64 := 0
  netW      : Vector W64 8 := Vector.replicate 8 0
  netResult : W64 := 0
  /-- Rank of the path's latest turn at the register access port (R21); 0 before the first. -/
  served    : Nat := 0
  /-- DTIME at which the path was armed for FLT_FORCE (R401). -/
  armedAt   : Option Ns := none
  deriving DecidableEq, Repr, Inhabited

/-! ### Position -/

/-- A tooth position of the wheel (R43). -/
structure Tooth where
  angle   : Angle
  present : Bool
  cls     : Nat
  ownBand : Bool
  bandLo  : Nat
  bandHi  : Nat
  deriving DecidableEq, Repr, Inhabited

/-- An entry of a cam table (R45). -/
structure CamEntry where
  angle   : Angle
  win     : Nat
  falling : Bool
  ref     : Bool
  deriving DecidableEq, Repr, Inhabited

/-- A cam table (R45). -/
structure CamTable where
  phase   : Bool
  loss    : Bool
  vvt     : Bool
  missMax : Nat
  entries : List CamEntry
  deriving DecidableEq, Repr, Inhabited

/-- The wheel description (R42 to R45); `crkPos` 0 means that none is loaded. -/
structure Wheel where
  crkPos    : Nat := 0
  twoStroke : Bool := false
  nogap     : Bool := false
  camEn     : BitVec 4 := 0
  anchorOfs : Int := 0
  teeth     : List Tooth := []
  cams      : List (Option CamTable) := []
  deriving DecidableEq, Repr, Inhabited

/-- One wheel input (R36 to R41, R73). -/
structure WheelInput where
  cfg    : W64 := 0x5A0F00A6000#64
  peak   : BitVec 16 := 0
  level  : Bool := false
  edges  : W32 := 0
  noise  : BitVec 16 := 0
  dirBad : BitVec 16 := 0
  last   : Ns := 0
  deriving DecidableEq, Repr, Inhabited

/-- Windows of one cam in FULL (R45, R59). -/
structure CamRun where
  missed : Nat := 0
  /-- Entries of the cam's table in whose present window an edge fell. -/
  hits   : List Nat := []
  deriving DecidableEq, Repr, Inhabited

/-- Measurement of one cam (R70). -/
structure Vvt where
  avg   : Int := 0
  n     : Nat := 0
  valid : Bool := false
  /-- Angle and deviation of the edges of the present cycle, in order. -/
  edges : List (Angle × Int) := []
  deriving DecidableEq, Repr, Inhabited

/-- Learning of the tooth corrections (R78 to R80). -/
structure Learn where
  revs     : W32 := 0
  sat      : BitVec 16 := 0
  /-- The present revolution still meets R78. -/
  active   : Bool := false
  revStart : Option Ns := none
  prevRev  : Option Nat := none
  /-- Entry and time of the intervals of the present revolution. -/
  periods  : List (Nat × Nat) := []
  exports  : Nat := 0
  deriving DecidableEq, Repr, Inhabited

/-- Work of the solver and the pager after an accepted tooth, each item due at its own moment (R91, R139, R437). -/
inductive PassWork where
  /-- Pull-forward, the templates, and the choice of the boxes to solve: the clock after t_d + 24 ns. -/
  | pull (stamp tD : Ns)
  /-- One box solved, and committed if this is its commit tooth. -/
  | solve (b : Fin 128)
  /-- The pass ends and paging begins. -/
  | page (stamp tD : Ns)
  /-- The actions of an angle wrap, after pass and paging. -/
  | wrap (stamp : Ns)
  deriving DecidableEq, Repr

/-- The position manager: inputs, decoder, predictor and solver (chapters 2 and 3). -/
structure Pos where
  wheel     : Wheel := {}
  /-- Tooth corrections, one per entry, in units of 2^-15 (R76). -/
  corr      : List Int := []
  /-- WHEEL as loaded, in force from the handover on (R359). -/
  staged    : Option (Wheel × List Int) := none
  inputs    : Vector WheelInput 6 := Vector.replicate 6 {}
  -- configuration registers
  lossPolicy : W64 := 0
  syncCfg   : W64 := 0x5AC822
  bandsRun  : W64 := 0x7B19A09A04D
  bandsCrank : W64 := 0x26628006604D
  runThr    : W64 := 0x19001F4
  dual      : W64 := 0x10000000000C80
  predCfg   : W64 := 0xC011
  predHold  : W64 := 0x1330CD
  learnCfg  : W64 := 0x298
  measCfg   : W64 := 0
  -- sync
  sync      : SyncState := .stopped
  rev       : Bool := false
  single    : Bool := false
  runBands  : Bool := false
  latch     : Bool := false
  cfgIgn    : Bool := false
  revSeen   : Bool := false
  lossSeen  : Bool := false
  switched  : Bool := false
  lossCause : BitVec 4 := 0
  lossCount : BitVec 16 := 0
  lossAngle : Angle := 0
  -- position
  cycle     : W32 := 0
  angle     : Angle := 0
  /-- FULL or HALF has been entered since a reset or restart (R28). -/
  everSynced : Bool := false
  /-- The cycle counter's last value before a restart, which is no reset in the sense of R28. -/
  keptCycle : Option W32 := none
  /-- Highest cycle number since FULL or HALF was entered (R437). -/
  maxCycle  : W32 := 0
  /-- Position of the last accepted tooth: entries of one cycle, counted from the H0 anchor. -/
  pos       : Nat := 0
  /-- The same, counted without wrapping since COUNTING was left. -/
  absPos    : Int := 0
  /-- `absPos` from which windows are measured (R50). -/
  windowFrom : Int := 0
  /-- Position and stamp of the teeth accepted forward since COUNTING was left, latest first (R30, R50). -/
  stamps    : List (Int × Ns) := []
  /-- Last accepted crank tooth, or the edge that started the interval in COUNTING (R40, R52). -/
  lastTooth : Option Ns := none
  /-- Last accepted edge of the active crank input (R62). -/
  lastEdge  : Option Ns := none
  -- counting (R52)
  normals   : Nat := 0
  /-- Time of the last accepted interval in COUNTING, and its span (Q8.24). -/
  lastIntv  : Option (Nat × Nat) := none
  provisional : Bool := false
  h0        : Nat := 0
  h1        : Nat := 0
  /-- The state that a provisional gap leads to: `true` GAP_FOUND itself (R53). -/
  provWait  : Bool := false
  gapAt     : Int := 0
  /-- NOGAP: a REF edge waits for its tooth; `absPos` of the first sighting (R55). -/
  refEdge   : Bool := false
  refFirst  : Option Int := none
  -- reverse (R63)
  /-- `absPos`, cycle and angle of the high-water mark. -/
  highWater : Int := 0
  -- cams (R45)
  cams      : Vector CamRun 4 := Vector.replicate 4 {}
  /-- Cycle and angle of the first tooth accepted in FULL, or of the tooth at which REV cleared. -/
  judgeFrom : Option (W32 × Angle) := none
  -- dual crank (R68, R69)
  active    : Fin 2 := 0
  secStamps : List Ns := []
  /-- A crank cause found on the primary alone: position of the tooth that the secondary must confirm, and the cause. -/
  primFailed : Option (Int × Nat) := none
  /-- Position and stamp of the last tooth decoded on the secondary, while it is known. -/
  secPos    : Option Int := none
  secLast   : Option Ns := none
  secIntv   : Nat := 0
  /-- Shift of ANCHOR_OFS since a vote switch: the wheel's copy counts from the secondary. -/
  switchOfs : Int := 0
  -- predictor (R77 to R88)
  /-- Position and normalised period, latest first, since history restarted. -/
  hist      : List (Int × Nat) := []
  nk        : Nat := 0
  nkPosn    : Nat := 0
  nhat      : Nat := 0
  held      : Bool := false
  clamped   : Bool := false
  csync     : Bool := false
  order     : Nat := 0
  /-- Time predicted for the next present tooth (R86), when one was predicted. -/
  nextTooth : Option Ns := none
  residLast : Int := 0
  residMax  : Nat := 0
  lateCnt   : BitVec 16 := 0
  clampCnt  : BitVec 16 := 0
  holdCnt   : BitVec 16 := 0
  passMax   : BitVec 12 := 0
  /-- Clock in which the last pass ended (R94). -/
  passEnd   : Ns := 0
  /-- Work of the pass and the paging still to be done, in order of its moments. -/
  work      : List (Ns × PassWork) := []
  /-- REV has cleared and no tooth has been accepted since (R149). -/
  revPage   : Bool := false
  -- speed (R30)
  cycleNs   : Nat := 0
  rpm       : Nat := 0
  -- measurement and learning
  learn     : Learn := {}
  vvt       : Vector Vvt 4 := Vector.replicate 4 {}
  toothFirst : Option Nat := none
  toothPeriods : List Nat := []
  /-- Cylinder, start stamp and teeth still to pass of running segment windows (R72). -/
  segments  : List (Nat × Ns × Nat) := []
  -- synthetic wheel (R382): angle within the cycle and time of its last edge
  synAngle  : Angle := 0
  synTime   : Option Ns := none
  -- relay outputs (R323): level and DTIME of the last edge at the pin
  relayCrk  : Bool × Ns := (false, 0)
  relayCam  : Bool × Ns := (false, 0)
  deriving DecidableEq, Repr, Inhabited

/-! ### Events, loft and boxes -/

/-- An accepted event: the descriptor of R136, with its partner twin and its order of acceptance (R121). -/
structure Event where
  type     : EvType := .di
  output   : Nat := 0
  cyl      : Nat := 0x1F
  prio     : Nat := 0
  isEnd    : Bool := false
  dwellPri : Bool := false
  twin     : Bool := false
  source   : Nat := 0
  tag      : W32 := 0
  cycle    : W32 := 0
  angleA   : Angle := 0
  angleB   : Angle := 0
  durA     : Nat := 0
  durB     : Nat := 0
  typeArg  : W64 := 0
  profArg  : W64 := 0
  armAngle : Angle := 0
  armCycle : W32 := 0
  accTime  : W32 := 0
  order    : Nat := 0
  partner  : Option Nat := none
  /-- Its twin was committed and its descriptor has been freed: the pair counts as committed (R126). -/
  pairDone : Bool := false
  deriving DecidableEq, Repr, Inhabited

/-- How an event ended (R129, R151). -/
structure Ending where
  result    : EvResult := .cancelled
  reason    : Nat := 0
  unstarted : Bool := false
  guard     : Bool := false
  memErr    : Bool := false
  /-- DTIME of the safe end (R151). -/
  time      : Ns := 0
  /-- Control coordinate of the unit that ended it. -/
  ctrl      : BitVec 16 := 0
  deriving DecidableEq, Repr, Inhabited

/-- A descriptor that is not FREE. -/
structure Descr where
  ev     : Event := {}
  state  : DState := .waiting
  box    : Nat := 0
  /-- The pager found no FREE box for it (R140). -/
  starved : Bool := false
  /-- Memory words of the descriptor met with an uncorrectable error (R150). -/
  bad    : List Nat := []
  ending : Ending := {}
  deriving DecidableEq, Repr, Inhabited

/-- An edge of a box. -/
structure BoxEdge where
  present : Bool := false
  fixed   : Bool := false
  issued  : Bool := false
  /-- Provisional or fixed time at the pin. -/
  time    : Ns := 0
  deriving DecidableEq, Repr, Inhabited

/-- Result fields of an INJ_DI event (R194). -/
structure DiPart where
  profile  : Nat := 0
  tEndCmd  : Nat := 0
  endLen   : Nat := 0
  peak     : Nat := 0
  tPeak    : Nat := 0
  /-- A sample has been taken: `peak` and `tPeak` hold one (R159). -/
  sampled  : Bool := false
  eRec     : Nat := 0
  flags    : Byte := 0
  early    : Bool := false
  argBad   : Bool := false
  endTo    : Bool := false
  safe     : Bool := false
  preempt  : Bool := false
  chopCnt  : Nat := 0
  sample0  : Nat := 0
  sample1  : Nat := 0
  mark0    : Nat := 0xFFFFFFFF
  mark1    : Nat := 0xFFFFFFFF
  deriving DecidableEq, Repr, Inhabited

/-- Type part of an event's result (R272). -/
structure Part where
  dclass   : BitVec 16 := 0
  di       : DiPart := {}
  -- INJ_PFI (R170)
  offEdge  : Ns := 0
  donDly   : Option Nat := none
  doffDly  : Option Nat := none
  noOn     : Bool := false
  noOff    : Bool := false
  wasOn    : Bool := false
  -- IGN (R219)
  dwell    : Nat := 0
  sparkOfs : Int := 0
  short    : Bool := false
  maxd     : Bool := false
  soft     : Bool := false
  sLate    : Bool := false
  -- GATE
  openLen  : Nat := 0
  -- SAMPLE (R260)
  seq      : Nat := 0
  qpos     : Nat := 0
  lost     : Bool := false
  -- CALC (R248)
  qdepth   : Nat := 0
  qfull    : Bool := false
  -- CAPT
  snapNum  : Nat := 0
  deriving DecidableEq, Repr, Inhabited

/-- A box (R141). `first` is a time-defined first edge (dwell start, start of a PFI pulse given by its end). -/
structure Box where
  state   : BoxState := .free
  loft    : Nat := 0
  gen     : Byte := 0
  ev      : Event := {}
  first   : BoxEdge := {}
  a       : BoxEdge := {}
  b       : BoxEdge := {}
  /-- Off edge of a PFI pulse (R169). -/
  off     : BoxEdge := {}
  late    : Bool := false
  /-- DTIME of the first edge at the pin, once issued. -/
  started : Option Ns := none
  /-- Execution is complete, or the event counts as executed (R143). -/
  executed : Bool := false
  complete : Bool := false
  /-- Residual (R99): `none` while its tooth is awaited, `some none` when there is none. -/
  resid   : Option (Option Int) := none
  ending  : Option Ending := none
  part    : Part := {}
  lastResult : BitVec 4 := 0
  lastTag : W32 := 0
  deriving DecidableEq, Repr, Inhabited

/-- Box and loft counters and configuration (R152). -/
structure Loft where
  descrs   : List (Nat × Descr) := []
  /-- FREE descriptors that have held an event since the hardware fill. -/
  spent    : List Nat := []
  cfg      : W64 := 0x186186186186
  peak     : BitVec 12 := 0
  cfgIgn   : Bool := false
  ue       : Bool := false
  flushes  : BitVec 16 := 0
  ueCnt    : BitVec 16 := 0
  order    : Nat := 0
  -- boxes
  boxes    : Vector Box 128 := Vector.replicate 128 {}
  boxPeak  : Byte := 0
  starved  : BitVec 16 := 0
  paged    : W32 := 0
  trips    : BitVec 16 := 0
  guardDetail : BitVec 4 := 0
  guardBox : BitVec 7 := 0
  guardTag : W32 := 0
  /-- Peaks and counts of the cycle in progress (R273). -/
  cycBoxPeak : Nat := 0
  cycLoftPeak : Nat := 0
  cycAcc   : BitVec 16 := 0
  cycRej   : BitVec 16 := 0
  cycDone  : BitVec 16 := 0
  cycEnded : BitVec 16 := 0
  cycLate  : BitVec 16 := 0
  cycResid : Nat := 0
  deriving DecidableEq, Repr, Inhabited

/-! ### Requests and admission -/

/-- An entry of a yard: request words, result, still waiting, submitting path (network yard). -/
structure YardEntry where
  words   : Vector W64 8 := Vector.replicate 8 0
  result  : W64 := 0
  waiting : Bool := false
  path    : Path := .twp
  deriving DecidableEq, Repr, Inhabited

/-- A yard (R107): a ring of `n` entries, of which `fill` wait, the oldest at `head`. -/
structure Yard (n : Nat) where
  entries   : Vector YardEntry n := Vector.replicate n {}
  head      : Nat := 0
  fill      : Nat := 0
  hwm       : Nat := 0
  submitted : W32 := 0
  deriving DecidableEq, Repr

/-- A standing event (R111 to R113). -/
structure Standing where
  words    : List W64 := []
  rej      : BitVec 16 := 0
  lastCode : BitVec 4 := 0
  hold     : Bool := false
  deriving DecidableEq, Repr, Inhabited

/-- Standing submissions that an occasion owes for one index: from a cycle on, or from the next occurrence when none is
given, up to cycle c + 2 of the occasion (R112). -/
structure Owed where
  index : Nat := 0
  from_ : Option W32 := none
  upTo  : W32 := 0
  deriving DecidableEq, Repr, Inhabited

/-- Admission, yards and standing events (chapter 4), and the cylinder table (R355). -/
structure Adm where
  cfg      : W64 := 0
  env      : W64 := 0x2625A0000000000
  bankGap  : W64 := 0x4E204E204E204E20
  acc      : W32 := 0
  rej      : BitVec 16 := 0
  cfgIgn   : Bool := false
  netFull  : Bool := false
  /-- Rejections by code 0 to 10 (R125). -/
  rejCnt   : Vector (BitVec 16) 16 := Vector.replicate 16 0
  last     : W64 := 0
  ce       : Vector (Yard 16) 8 := Vector.replicate 8 {}
  net      : Yard 32 := {}
  /-- Source served next (R108). -/
  turn     : Nat := 0
  /-- The standing request placed at source 9: index and cycle. -/
  placed   : Option (Nat × W32) := none
  /-- Standing submissions owed, in order (R112). -/
  owed     : List Owed := []
  standing : List Standing := []
  /-- TDC of each cylinder present (R355). -/
  tdc      : Vector (Option Angle) 16 := Vector.replicate 16 none
  /-- Cylinder of each output: 16 DI, 16 PFI, 16 IGN, 8 GATE (R355). -/
  owner    : Vector Nat 56 := Vector.replicate 56 0x1F
  /-- CYLINDERS as loaded, in force from the handover on (R359). -/
  staged   : Option (Vector (Option Angle) 16 × Vector Nat 56) := none
  /-- Boxes projected at most over the horizon, at the last decision (ADM_LOAD). -/
  boxPeak  : Nat := 0
  deriving DecidableEq, Repr

/-! ### Drive -/

/-- A gate pin: commanded level, DTIME of its last edge, and whether it waits for a new on transition (R421). -/
structure Pin where
  on      : Bool := false
  since   : Ns := 0
  blocked : Bool := false
  deriving DecidableEq, Repr, Inhabited

/-- A profile as PSQ_k's directory and the loader's values hold it (R174, R190). -/
structure Profile where
  start : Nat := 0
  len   : Nat := 0
  tEnd  : Nat := 0
  tB    : Nat := 0
  /-- I_B in DAC codes. -/
  iB    : Nat := 0
  eP    : Nat := 0
  deriving DecidableEq, Repr, Inhabited

/-- Where a sequencer goes when the present instruction ends: in sequence after a relative index, or to a jump target. -/
inductive PsqNext where
  | seq (last : Nat)
  | jump (target : Nat)
  deriving DecidableEq, Repr, Inhabited

/-- What a sequencer is doing between two steps. -/
inductive PsqPhase where
  | idle
  /-- About to execute the instruction at PC. -/
  | ready
  /-- In UNTIL_ABOVE (HI), UNTIL_BELOW or END (LO); timeout moment. -/
  | waitHi (timeout : Ns)
  | waitLo (timeout : Ns)
  | waitEnd (timeout : Ns)
  /-- In an instruction that ends at a moment: WAIT, and every one-step instruction. -/
  | timed (until_ : Ns) (next : PsqNext)
  /-- In CHOP until a moment, or CHOP_TO_END (none). -/
  | chop (until_ : Option Ns)
  deriving DecidableEq, Repr, Inhabited

/-- Sequencer PSQ_k (chapter 7). Times are DTIME. -/
structure Psq where
  phase   : PsqPhase := .idle
  /-- Start of the present instruction's first step. -/
  stepAt  : Ns := 0
  pc      : Nat := 0
  prof    : Nat := 0
  profStart : Nat := 0
  profLen : Nat := 0
  flags   : Byte := 0
  lc      : Vector Nat 2 := Vector.replicate 2 0
  /-- First and last relative index of each counter's body; it runs while its counter is not 0. -/
  body    : Vector (Nat × Nat) 2 := Vector.replicate 2 (0, 0)
  args    : W64 := 0
  ts      : Ns := 0
  te      : Ns := 0
  /-- The END block has begun; its start. -/
  endAt   : Option Ns := none
  sOn     : SwState := .batt
  sOff    : SwState := .free
  minSw   : Ns := 0
  /-- In a chop: the bank is in S_ON; the chop's start or its latest switch. -/
  chopOn  : Bool := false
  chopAt  : Ns := 0
  /-- The present step's moment was known in advance, so that its edges are issued ahead (R179). -/
  ahead   : Bool := true
  runs    : W32 := 0
  timeouts : BitVec 16 := 0
  earlies : BitVec 16 := 0
  /-- Result fields of the present or latest event. -/
  last    : DiPart := {}
  /-- Those of the latest event that has ended, which PSQ_LAST shows (R195). -/
  shown   : DiPart := {}
  deriving DecidableEq, Repr, Inhabited

/-- Who holds a drive output or a bank. -/
inductive Owner where
  | none
  | box (b : Fin 128)
  | template (i : Nat)
  /-- The event's result has been written; the output still finishes (R144, R162, R209). -/
  | ended
  deriving DecidableEq, Repr, Inhabited

/-- An injector bank (chapter 6) with its sequencer. -/
structure Bank where
  cfg     : W64 := 0x20C806400
  sense   : W64 := 10000
  offtime : W64 := 0x2710271027102710
  sw      : SwState := .decay
  hsb     : Pin := {}
  hsv     : Pin := {}
  fw      : Pin := {}
  lsPins  : Vector Pin 4 := Vector.replicate 4 {}
  owner   : Owner := .none
  tag     : W32 := 0
  ls      : Fin 4 := 0
  cmpHi   : Bool := false
  cmpLo   : Bool := false
  dacHi   : Nat := 0
  dacLo   : Nat := 0
  cur     : Nat := 0
  rel     : Ns := 0
  /-- Release of the last event on each low side (R161). -/
  relLs   : Vector (Option Ns) 4 := Vector.replicate 4 none
  everRel : Bool := false
  recLast : W32 := 0
  recTotal : W32 := 0
  events  : W32 := 0
  safeEnds : BitVec 16 := 0
  endTos  : Byte := 0
  cfgIgn  : Bool := false
  /-- Last switch-state change and the last change into BOOST or BATT. -/
  lastSw  : Ns := 0
  lastOn  : Ns := 0
  /-- Time spent in BOOST or BATT before the present state, and whether a sample has reached OL_I (R196). -/
  onTime  : Nat := 0
  olMet   : Bool := false
  /-- The sample under conversion meets DI_SCB_ON's current criterion. -/
  scTaken : Bool := false
  vBst    : Nat := 0
  /-- Sum of converter codes since the END block began (R160). -/
  sumCodes : Nat := 0
  /-- Samples taken since the END block began. -/
  endSamples : Nat := 0
  /-- Diagnostic classes attached during the present event (R183 condition 11, R206). -/
  dclass  : BitVec 16 := 0
  psq     : Psq := {}
  profiles : Vector Profile 32 := Vector.replicate 32 {}
  bcProfile : Profile := {}
  /-- Earliest start of the next off-state test, low side under test (step B) or step A, test running; its start, the start
  of the present bias, and the low sides that have failed in it (R198, R200). -/
  testAt  : Ns := 0
  testRun : Bool := false
  testB   : Option Nat := none
  testFrom : Ns := 0
  biasAt  : Ns := 0
  testBad : List Nat := []
  deriving DecidableEq, Repr, Inhabited

/-- Phase of the boost controller (R164). -/
inductive BstPhase where
  | idle
  | on (since : Ns)
  | off (since : Ns)
  deriving DecidableEq, Repr, Inhabited

/-- The boost controller. -/
structure Bst where
  cfg     : W64 := 0x03E8138800005000
  set     : W64 := 0x640000
  ledger  : W64 := 0
  limits  : W64 := 0xA0000251C
  volt    : Nat := 0
  code    : Nat := 0
  phase   : BstPhase := .idle
  pin     : Pin := {}
  /-- An end-all reaction holds BST_G off (R166). -/
  held    : Bool := false
  /-- BST_VOLT has reached V_SET since switching began (R164). -/
  reached : Bool := false
  ovSince : Option Ns := none
  uvSince : Option Ns := none
  ovDet   : Bool := false
  uvDet   : Bool := false
  cycles  : W32 := 0
  tonMax  : BitVec 16 := 0
  ovSeen  : Bool := false
  uvSeen  : Bool := false
  cfgIgn  : Bool := false
  deriving DecidableEq, Repr, Inhabited

/-- A PFI output (R169 to R171). -/
structure Pfi where
  cfg     : W64 := 0xC350003C1400
  pin     : Pin := {}
  owner   : Owner := .none
  /-- Edges whose drain delay is being measured, oldest first (R170). -/
  measOn  : List Ns := []
  measOff : List Ns := []
  donDly  : BitVec 16 := 0
  doffDly : BitVec 16 := 0
  drain   : Bool := false
  noOn    : Bool := false
  noOff   : Bool := false
  cfgIgn  : Bool := false
  lastOff : Option Ns := none
  offAt   : Ns := 0
  events  : W32 := 0
  safeEnds : BitVec 16 := 0
  testAt  : Ns := 0
  testRun : Bool := false
  testPhase2 : Bool := false
  /-- Start of the test and of the present bias (R199). -/
  testFrom : Ns := 0
  biasAt  : Ns := 0
  deriving DecidableEq, Repr, Inhabited

/-- An ignition output (chapter 9). -/
structure Ign where
  cfg     : W64 := 0x2000C35003E82800
  pin     : Pin := {}
  soft    : Bool := false
  owner   : Owner := .none
  dwellAt : Ns := 0
  rampEnd : Ns := 0
  lastOff : Option Ns := none
  tag     : W32 := 0
  cfgIgn  : Bool := false
  lastDwell : W32 := 0
  lastFlags : BitVec 5 := 0
  sparks  : W32 := 0
  softEnds : BitVec 16 := 0
  trips   : BitVec 16 := 0
  deriving DecidableEq, Repr, Inhabited

/-- A GATE output (R217). -/
structure Gate where
  cfg     : W64 := 0
  pin     : Pin := {}
  owner   : Owner := .none
  cfgIgn  : Bool := false
  windows : W32 := 0
  deriving DecidableEq, Repr, Inhabited

/-- Output diagnostics (chapter 8). -/
structure Diag where
  cfg      : W64 := 3
  react    : W64 := 0x301084
  vds      : W64 := 0x514142814
  cur      : W64 := 0x05033300140052
  offCfg   : W64 := 0x36414
  flagMask : W64 := 0
  disabled : W64 := 0
  seen     : BitVec 16 := 0
  cfgIgn   : Bool := false
  last     : W64 := 0
  cnt      : Vector (BitVec 16) 16 := Vector.replicate 16 0
  /-- Consecutive failures of off-state tests: DI_OL_OFF per low side, BANK_SCG_OFF and BANK_SCB_OFF per bank,
  PFI_OL_OFF and PFI_SCG_OFF per output (R200). -/
  olOff    : Vector Nat 16 := Vector.replicate 16 0
  scgOff   : Vector Nat 4 := Vector.replicate 4 0
  scbOff   : Vector Nat 4 := Vector.replicate 4 0
  pfiOl    : Vector Nat 16 := Vector.replicate 16 0
  pfiScg   : Vector Nat 16 := Vector.replicate 16 0
  deriving DecidableEq, Repr, Inhabited

/-! ### Calculation engines -/

/-- States of an engine (CE_STAT.STATE, R249). -/
inductive CeState where
  | idle | running | waitReq | draining | halted
  deriving DecidableEq, Repr, Inhabited

/-- A queued trigger (R242, R244). -/
structure Trigger where
  list     : Nat := 0
  entry    : Nat := 0
  arrival  : Ns := 0
  /-- Deadline in ns. -/
  deadline : Nat := 0
  /-- Halted time to leave out of the deadline (R247). -/
  halted   : Nat := 0
  deriving DecidableEq, Repr, Inhabited

/-- A calculation engine (chapter 10). -/
structure Ce where
  cfg      : W64 := 0
  state    : CeState := .idle
  flag     : Bool := false
  pc       : Nat := 0
  queue    : List Trigger := []
  cur      : Option Trigger := none
  qhwm     : Nat := 0
  sat      : Bool := false
  div0     : Bool := false
  overrun  : Bool := false
  trigLost : Bool := false
  emitLost : Bool := false
  wviol    : Bool := false
  cfgIgn   : Bool := false
  runList  : BitVec 13 := 0
  runTrig  : BitVec 5 := 0
  tStart   : W32 := 0
  timeLast : W32 := 0
  timeMax  : W32 := 0
  runs     : W32 := 0
  overruns : BitVec 16 := 0
  trigLosts : BitVec 16 := 0
  reqs     : W32 := 0
  emitLosts : BitVec 16 := 0
  sats     : BitVec 16 := 0
  reqLast  : W64 := 0
  /-- Publish buffer (R227): slot, value, tag, in the order of first writing. -/
  pub      : List (Nat × W64 × Byte) := []
  reqDst   : Nat := 0
  /-- Yard entry of the outstanding request, and its result once written (R237). -/
  reqEntry : Option Nat := none
  reqRes   : Option W64 := none
  bp       : BitVec 13 := 0
  bpEn     : Bool := false
  haltReq  : Bool := false
  /-- One operation is to run while halted (R247). -/
  stepReq  : Bool := false
  haltedAt : Ns := 0
  /-- When the engine last became free for the trigger at the head of its queue (R244). -/
  headAt   : Ns := 0
  /-- State to go back to on RESUME. -/
  resumeTo : CeState := .idle
  deriving DecidableEq, Repr, Inhabited

/-- What the engines share (R225, R241, R249). -/
structure CeShared where
  lists   : List W64 := []
  trig    : Vector W64 256 := Vector.replicate 256 0
  dbgRun  : Bool := false
  wvSlot  : BitVec 14 := 0
  wvBy    : BitVec 4 := 0
  wvCnt   : BitVec 16 := 0
  wrIgn   : Bool := false
  nOps    : Nat := 0
  deriving DecidableEq, Repr, Inhabited

/-! ### Conversion -/

/-- An urgent request (R258). -/
structure UrgReq where
  mux  : BitVec 4 := 0
  osr  : Nat := 0
  seq  : BitVec 16 := 0
  /-- When it arrived, and the engine whose EMIT it is; none for a SAMPLE event. -/
  at_  : Ns := 0
  emit : Option (Fin 8) := none
  deriving DecidableEq, Repr, Inhabited

/-- A window comparator (R263). -/
structure Window where
  lo      : BitVec 24 := 0
  hi      : BitVec 24 := 0xFFFFFF
  en      : Bool := false
  reenter : Bool := false
  inside  : Bool := true
  deriving DecidableEq, Repr, Inhabited

/-- A result as RES and the cross-check keep it. -/
structure CnvResult where
  code  : BitVec 24 := 0
  ovr   : Bool := false
  unset : Bool := false
  valid : Bool := false
  mux   : BitVec 4 := 0
  time  : Ns := 0
  deriving DecidableEq, Repr, Inhabited

/-- A converter (chapter 11). -/
structure Cnv where
  cfg     : W64 := 0
  scan    : W64 := 0x20000
  slot    : W64 := 0
  urg     : CnvResult := {}
  urgSeq  : BitVec 16 := 0
  urgOsr  : BitVec 4 := 0
  cfgIgn  : Bool := false
  urgLost : Bool := false
  winEvt  : Bool := false
  xchk    : Bool := false
  refchk  : Bool := false
  ovrSeen : Bool := false
  rounds  : BitVec 16 := 0
  roundsRec : Nat := 0
  urgDone : BitVec 16 := 0
  urgLosts : BitVec 16 := 0
  aborts  : BitVec 16 := 0
  ovrs    : BitVec 16 := 0
  win     : Vector Window 16 := Vector.replicate 16 {}
  res     : Vector CnvResult 16 := Vector.replicate 16 {}
  refTol  : BitVec 24 := 8389
  refLast : BitVec 24 := 0
  /-- Scan: running, sequence entry, whether its first result is still to come (discards, R256). -/
  scanning : Bool := false
  entry   : Nat := 0
  settled : Bool := false
  /-- Last filter reset: the switch that began the conversion in progress. -/
  filtAt  : Ns := 0
  urgRun  : Option UrgReq := none
  /-- Filter reset of the scan conversion that the running urgent conversion cut off (R259). -/
  cutAt   : Option Ns := none
  urgQ    : List UrgReq := []
  nextSeq : BitVec 16 := 1
  /-- Latest results of the shared inputs 12 and 13 (R264). -/
  lat12   : Option CnvResult := none
  lat13   : Option CnvResult := none
  deriving DecidableEq, Repr, Inhabited

/-- What both converters share (R255, R264, R267). -/
structure CnvShared where
  refEn   : Bool := false
  refOk   : Bool := false
  refAt   : Ns := 0
  refOkAt : Ns := 0
  xchk    : W64 := 0x3E803008312
  xFails  : Byte := 0
  deriving DecidableEq, Repr, Inhabited

/-! ### Records and snapshots -/

/-- A record as presented to REC (R268): `body` follows the header; `ext` is the full form's extra part. -/
structure Rec where
  type   : Nat := 0
  tflags : Byte := 0
  memErr : Bool := false
  evType : Nat := 0
  dtime  : Ns := 0
  /-- DTIME of its presentation, which orders the writing (R268). -/
  pres   : Ns := 0
  body   : List W64 := []
  ext    : List W64 := []
  deriving DecidableEq, Repr, Inhabited

/-- A record in its ring: all words, byte offset of its start within the ring, bytes already read. -/
structure Stored where
  words : List W64 := []
  start : Nat := 0
  /-- Serial of writing, over all rings (R277, R278). -/
  ord   : Nat := 0
  deriving DecidableEq, Repr, Inhabited

/-- A ring (R274, R275). -/
structure Ring where
  size     : Nat := 0
  policy   : Bool := false
  stream   : BitVec 2 := 0
  base     : Nat := 0
  pending  : List Stored := []
  wptr     : Nat := 0
  next     : W32 := 0
  lost     : W32 := 0
  lostSeen : Bool := false
  lostBefore : Bool := false
  stopped  : Bool := false
  deriving DecidableEq, Repr, Inhabited

/-- A stream (R277). -/
structure Stream where
  cfg     : W64 := 0x07F003E800040000
  xl      : W64 := 0
  frames  : W32 := 0
  lastLen : BitVec 12 := 0
  count   : BitVec 16 := 0
  /-- When the first record of the frame being assembled was taken. -/
  firstAt : Option Ns := none
  /-- A frame is queued: its payload length, and ring and serial of its records. -/
  queued  : Option (Nat × List (Fin 12 × Nat)) := none
  deriving DecidableEq, Repr, Inhabited

/-- The record manager (chapter 12). -/
structure RecM where
  evFull  : Byte := 0
  cfgIgn  : Bool := false
  resultQ : List Rec := []
  staging : List Rec := []
  /-- Rings of types 0 to 11; ring 0 is unused. -/
  rings   : Vector Ring 12 := Vector.replicate 12 {}
  /-- The rings that stood before a reset, until the loader applies ring sizes (R375). -/
  stood   : Option (Vector Ring 12) := none
  ord     : Nat := 0
  streams : Vector Stream 2 := Vector.replicate 2 {}
  logRead : W32 := 0
  deriving DecidableEq, Repr, Inhabited

/-- Snapshots (R279 to R282). -/
structure Snap where
  cfg     : W64 := 0x4000A37
  num     : BitVec 16 := 0
  sources : BitVec 6 := 0
  cfgIgn  : Bool := false
  merged  : BitVec 16 := 0
  rnum    : BitVec 16 := 0
  time    : Ns := 0
  regs    : Vector W64 20 := Vector.replicate 20 0
  /-- The merge window of the last latch is open (R280, R281). -/
  open_   : Bool := false
  ctrl    : BitVec 16 := 0xE1FF
  coord   : W64 := 0
  outUntil : Option Ns := none
  /-- NUM of the latest snapshot of its own that the next rope frame is to send (R280). -/
  ropeSend : Option (BitVec 16) := none
  /-- SNAP_IN after its filter. -/
  inLevel : Bool := false
  deriving DecidableEq, Repr, Inhabited

/-! ### Timers and PIO -/

/-- A compare or capture channel (R289, R290). -/
structure Chan where
  cfg    : W64 := 0
  val    : W32 := 0
  evt    : Bool := false
  out    : Bool := false
  armed  : Bool := false
  capOvr : Bool := false
  unread : Bool := false
  events : W32 := 0
  capt   : Ns := 0
  edges  : Nat := 0
  /-- When OUT last changed, when the channel last fired on a compare, the first sample of the edge last accepted, and the
  last EMIT to VALUE (R289, R290, R293). -/
  outAt   : Ns := 0
  firedAt : Option Ns := none
  accAt   : Option Ns := none
  emitAt  : Option Ns := none
  deriving DecidableEq, Repr, Inhabited

/-- A timer unit (R283 to R288). -/
structure Tmu where
  cfg     : W64 := 0
  reload  : W32 := 0
  cnt     : W32 := 0
  zero    : Bool := false
  cfgIgn  : Bool := false
  zeros   : W32 := 0
  running : Bool := false
  ch      : Vector Chan 4 := Vector.replicate 4 {}
  /-- Start of the prescaler's present period (R284), the last reset by a source and the last tick (R287, R289), and the
  last EMIT to RELOAD (R293). -/
  from_    : Ns := 0
  resetAt  : Option Ns := none
  tickedAt : Option Ns := none
  emitAt   : Option Ns := none
  deriving DecidableEq, Repr, Inhabited

/-- What a PIO machine waits for. -/
inductive PioWait where
  | none
  /-- In a HOLD; the level of its lane as last seen, for an edge wait. -/
  | hold (last : Bool)
  /-- In a blocked TAKE, GIVE or STAMP; the value a STAMP pushes is that of its own step (R297). -/
  | block (stampVal : Option W32)
  /-- In a PAUSE, to the end of a step counted from the setting of RUN. -/
  | pause (last : Nat)
  deriving DecidableEq, Repr, Inhabited

/-- A PIO machine (R294 to R303). -/
structure Pio where
  cfg     : W64 := 0x1000000 <<< 16
  lanes   : W64 := 0
  laneCfg : W64 := 0
  rxSlot  : W64 := 0
  run     : Bool := false
  pc      : BitVec 6 := 0
  x       : W32 := 0
  y       : W32 := 0
  ow      : W32 := 0
  iw      : W32 := 0
  ocnt    : Nat := 0
  icnt    : Nat := 0
  tx      : List W32 := []
  rx      : List W32 := []
  runout  : Bool := false
  pileup  : Bool := false
  injIgn  : Bool := false
  cfgIgn  : Bool := false
  runouts : BitVec 16 := 0
  pileups : BitVec 16 := 0
  hostLost : BitVec 16 := 0
  wait    : PioWait := .none
  /-- An injected instruction: about to execute, or executing and waiting (R302). -/
  inject  : Option (BitVec 16) := none
  /-- DTIME at which RUN was set, which clears the phase accumulator (R295). -/
  runAt   : Ns := 0
  /-- Steps taken since then (R295). -/
  step    : Nat := 0
  /-- The machine has been set up and not run since: it starts at ENTRY (R294). -/
  fresh   : Bool := true
  /-- DTIME of the last word to the receive slot (R301). -/
  lastRx  : Ns := 0
  stale   : Bool := false
  deriving DecidableEq, Repr, Inhabited

/-- What the PIO machines share (R294, R296, R299). -/
structure PioShared where
  areas  : Vector (List (BitVec 16)) 8 := Vector.replicate 8 []
  /-- Output latches and directions of the 16 pins; levels last seen at the synchronisers. -/
  out    : BitVec 16 := 0
  dir    : BitVec 16 := 0
  ext    : BitVec 16 := 0
  /-- When the level of a pin as driven from outside last changed. -/
  extAt  : Vector (Option Ns) 16 := Vector.replicate 16 none
  flags  : Byte := 0
  lines  : Byte := 0
  /-- Flags and lines that a HOLD with CLR has cleared, and when: machines released in the same clock still see them
  (R298). -/
  clrAt    : Ns := 0
  clrFlags : Byte := 0
  clrLines : Byte := 0
  merged : BitVec 16 := 0
  own    : W64 := 0
  deriving DecidableEq, Repr, Inhabited

/-! ### Network, rope, two-wire port -/

/-- A service request (R318). -/
structure SvcReq where
  op    : Byte := 0
  seq   : Byte := 0
  addr  : BitVec 16 := 0
  data  : W64 := 0
  tag   : List Byte := []
  fd    : Bool := false
  deriving DecidableEq, Repr, Inhabited

/-- Where a queued frame comes from (R317). -/
inductive TxSource where
  | object (i : Nat) | service | stream (i : Fin 2) | gasp
  deriving DecidableEq, Repr, Inhabited

/-- A frame in a transmit queue. -/
structure TxFrame where
  src   : TxSource := .service
  frame : CanFrame
  /-- DTIME at which it was queued, or repacked in place. -/
  at_   : Ns := 0
  deriving DecidableEq, Repr

/-- Status of a message object (R330), with what R316 needs of its last send. -/
structure ObjStat where
  stale   : Bool := false
  short   : BitVec 16 := 0
  packSat : BitVec 16 := 0
  skipped : BitVec 16 := 0
  frames  : BitVec 16 := 0
  time    : Ns := 0
  /-- Last frame received, or start of the present period (R315, R316). -/
  from_   : Ns := 0
  /-- Raw values of the frame last queued, and of the one last sent; when that was. -/
  queued  : List Nat := []
  lastSent : Option (List Nat) := none
  sentAt  : Option Ns := none
  deriving DecidableEq, Repr, Inhabited

/-- A CAN controller (chapter 14). -/
structure Can where
  cfg     : W64 := 0
  btNom   : W64 := 0x3030E13
  btFd    : W64 := 0x3030E13
  btXl    : W64 := 0x3030E13
  svc     : W64 := 0
  wake    : W64 := 0
  cfgIgn  : Bool := false
  busOff  : Bool := false
  /-- Under policy 1 recovery waits for RECOVER; under way otherwise (R306). -/
  recovering : Bool := false
  busoffSeen : Bool := false
  tec     : Nat := 0
  recCnt  : Nat := 0
  lec     : Nat := 0
  rx      : BitVec 24 := 0
  tx      : BitVec 24 := 0
  strangers : BitVec 16 := 0
  level   : Nat := 0
  lastReq : Ns := 0
  nonce   : Option W64 := none
  lockEnd : Option Ns := none
  failRow : Nat := 0
  fails   : Byte := 0
  dropped : BitVec 16 := 0
  reqs    : W32 := 0
  svcQ    : List SvcReq := []
  staged  : Option (BitVec 16 × W32) := none
  sample  : Option (BitVec 16 × W64) := none
  authParts : List (Nat × List Byte) := []
  objs    : List (Nat × ObjStat) := []
  txq     : List TxFrame := []
  /-- DTIME at which the controller last started (R315, R316). -/
  startAt : Ns := 0
  /-- The frame last sent, as it went out, and the last time for which CAN_k_MODE was high (R305). -/
  last    : Option CanFrame := none
  modeHigh : Option (Ns × Ns) := none
  /-- Last EMIT to each signal (R311): descriptor index, value, tag. -/
  emits   : List (Nat × W64 × Byte) := []
  deriving DecidableEq, Repr

/-- The register tunnel (R328). -/
structure Tunnel where
  /-- Lead: controller whose request is in flight, and the request. -/
  client : Option (Fin 4 × SvcReq) := none
  /-- Bytes still to be sent, in parts of three (part number rises). -/
  outPart : Nat := 0
  out    : List Byte := []
  inn    : List Byte := []
  /-- Second: staging of the ROPE path (R318, R319). -/
  sample : Option (BitVec 16 × W64) := none
  staged : Option (BitVec 16 × W32) := none
  deriving DecidableEq, Repr, Inhabited

/-- The rope (R322 to R330). -/
structure Rope where
  cfg     : W64 := 0x64000308009600
  cut     : W64 := 0x81A5
  split   : W64 := 16000
  role    : Bool := false
  cfgIgn  : Bool := false
  up      : Bool := false
  lostSeen : Bool := false
  xchkSeen : Bool := false
  lateCut : Bool := false
  level   : Nat := 0
  losses  : BitVec 16 := 0
  bad     : W32 := 0
  fcnt    : BitVec 4 := 0
  goodRun : Nat := 0
  xFails  : Nat := 0
  /-- Link lost at; defaults taken (R329). -/
  lostAt  : Option Ns := none
  defDone : Bool := false
  /-- DTIME from which the cross-check runs again. -/
  xchkFrom : Ns := 0
  frozen  : Nat := 0
  /-- The cut level slot's value as it stood at the last wrap (R327). -/
  cutSeen : W64 := 0
  partnerFault : Bool := false
  /-- Arrival of the last valid frame, and the moment up to which frame slots have been counted. -/
  lastGood : Ns := 0
  slotAt  : Ns := 0
  /-- Mirror table (R325, R357): entry and default. -/
  mirror  : Vector (W64 × W64) 64 := Vector.replicate 64 (0, 0)
  tunnel  : Tunnel := {}
  /-- The frame last sent. -/
  sent    : Option RopeFrame := none
  deriving DecidableEq, Repr

/-- The rest of a transaction in which the port holds SCL low until a READ of the bridge ends (R337, R363). -/
inductive TwpRest where
  /-- Bytes of a write still to come. -/
  | write (bytes : List Byte) (stop : Bool)
  /-- Bytes of a read still to be sent. The register asked for is the pointer's, or, with a latch still in use, the one
  after it. -/
  | read (n : Nat) (latch : Option W64) (stop : Bool)
  deriving DecidableEq, Repr

/-- The two-wire port (chapter 15). -/
structure Twp where
  addr    : W64 := 0xFF487F40
  addrNew : Option W64 := none
  cfg     : W64 := 0x400000
  partial_ : Bool := false
  noreg   : Bool := false
  timeout : Bool := false
  logWr   : Bool := false
  cfgIgn  : Bool := false
  attnPend : Bool := false
  busy    : Bool := false
  ptr     : Byte := 0
  attnEvt : BitVec 5 := 0
  attnMask : BitVec 5 := 0
  xfers   : W32 := 0
  timeouts : BitVec 16 := 0
  attns   : BitVec 16 := 0
  /-- Open staging: offset of the register and bytes so far (R335). -/
  staging : Option (Nat × List Byte) := none
  /-- Bytes the last transaction returned, and whether its address byte was acknowledged. -/
  out     : List Byte := []
  ack     : Bool := false
  sentAt  : Option Ns := none
  idleAt  : Ns := 0
  /-- The last transaction on the bus, also one to another device, ended without a STOP. -/
  open_   : Bool := false
  /-- The port stretches the clock (R337). -/
  stretch : Option TwpRest := none
  deriving DecidableEq, Repr, Inhabited

/-! ### Configuration image and flash bridge -/

/-- What the device sends to the flash (R342, R343, R345, R361). -/
inductive FlashCmd where
  /-- XSPI_RST_N is low for this many µs. -/
  | resetPin (us : Nat)
  /-- A wait, in µs. -/
  | wait (us : Nat)
  /-- A command word in 8D-8D-8D form. -/
  | octal (word : BitVec 16)
  /-- A command in 1-1-1 form: opcode, address bytes (most significant first), data bytes. -/
  | single (op : Byte) (addr data : List Byte)
  deriving DecidableEq, Repr

/-- Progress of the loader (R359). -/
inductive LoadPhase where
  | idle
  /-- The header of the slot is awaited; the boot header of that slot is still to be probed. -/
  | header (probe : Bool)
  /-- SIGNATURE, EARLY_INIT and BASECAMP are awaited. -/
  | early
  /-- EARLY_INIT records are being applied, then BASECAMP is entered. -/
  | applyEarly
  /-- WHEEL to REG_INIT are streaming. -/
  | stream
  /-- TMU_INIT and REG_INIT are being applied. -/
  | applyInit
  | done
  | failed
  deriving DecidableEq, Repr, Inhabited

/-- A register record (R353): byte offset in its section, address, delay in µs, value. -/
structure InitRec where
  ofs   : Nat := 0
  addr  : BitVec 16 := 0
  delay : Nat := 0
  value : W64 := 0
  deriving DecidableEq, Repr, Inhabited

/-- A failure code of R352. -/
structure LoadErr where
  code    : Nat := 0
  section_ : Nat := 0
  detail  : Nat := 0
  deriving DecidableEq, Repr, Inhabited

/-- The flash interface, the loader and the bridge (chapter 16). -/
structure Nvi where
  phase    : LoadPhase := .header true
  slotB    : Bool := false
  fallback : Bool := false
  signed   : Bool := false
  valid    : Bool := false
  mode     : Nat := 0
  div      : Nat := 0
  errA     : LoadErr := {}
  errB     : LoadErr := {}
  imgId    : W32 := 0
  length   : BitVec 20 := 0
  tBc      : W32 := 0
  tReady   : W32 := 0
  fp       : List Byte := []
  /-- DTIME of the release of the reset, or of the restart. -/
  loadFrom : Ns := 0
  /-- TMU_INIT is skipped (restart, R351). -/
  isRestart : Bool := false
  bootHdr  : List Byte := []
  header   : List Byte := []
  /-- ID of the last section streamed. -/
  lastId   : Nat := 0
  sig      : List Byte := []
  sigDone  : Bool := false
  /-- Work area (R349): records waiting. -/
  earlyRecs : List InitRec := []
  tmuRecs  : List InitRec := []
  regRecs  : List InitRec := []
  /-- Records still to be applied. -/
  queue    : List InitRec := []
  /-- REG_INIT writes to pages 0x08 to 0x18 held for the handover (R353). -/
  held     : List InitRec := []
  slotRecs : List (Nat × SlotAttr × List W64) := []
  /-- Input slots that the image assigns to the wheel measurements (assumption 40). -/
  measSlots : List (Option (Fin 16384)) := []
  bcPayload : List W64 := []
  /-- PROFILES fails R189 at a profile behind others (bank, profile and detail), which check 10 is still to judge. -/
  profBad  : Option (Nat × Nat) := none
  /-- Commands to the flash since the last probe, or since the start of the last bridge operation. -/
  sent     : List FlashCmd := []
  /-- DTIME at which the DELAY of the record last applied ends (R353). -/
  dueAt    : Ns := 0
  -- bridge (R361 to R364)
  twpEn    : Bool := false
  buf      : Vector W64 32 := Vector.replicate 32 0
  brOp     : Nat := 0
  brLen    : Nat := 0
  brAddr   : Nat := 0
  brBusy   : Bool := false
  /-- DTIME at which the operation started. -/
  brAt     : Ns := 0
  brDone   : Bool := false
  brErr    : Nat := 0
  flashBusy : Bool := false
  /-- Steps 1 and 2 of R343 have been run for the bridge (R361). -/
  brProbed : Bool := false
  vCode    : Nat := 0
  vSec     : Nat := 0
  vfp      : W64 := 0
  deriving DecidableEq, Repr, Inhabited

/-! ### Supervisor, faults, memory protection -/

/-- A basecamp template (R356, R371): its request, and its next occurrence; `running` once its first edge is out. -/
structure Template where
  words : List W64 := []
  ev    : Event := {}
  /-- Time-defined edge awaited: moment at the pin, and whether it is the first edge. -/
  due   : Option (Ns × Bool) := none
  running : Bool := false
  deriving DecidableEq, Repr, Inhabited

/-- The supervisor, clocks and power (chapter 17). -/
structure Sup where
  mode      : Mode := .fill
  prev      : Mode := .reset
  key       : Bool := false
  /-- The hardware fill of R370 has ended since the last reset. -/
  filled    : Bool := true
  safeCause : Nat := 0
  cmdIgn    : Bool := false
  ringReset : Bool := false
  tChange   : W32 := 0
  lastReset : Nat := 0
  lastWarn  : Bool := false
  latch     : Bool := false
  lastFault : Byte := 0
  lastDtime : W32 := 0
  cfg       : W64 := 0x3C1400
  wake      : W64 := 4
  svc       : W64 := 0x3E80000
  stop1s    : Bool := false
  /-- DTIME since which POS_SYNC.STATE has been STOPPED. -/
  stoppedAt : Ns := 0
  wakeSrc   : BitVec 4 := 0
  /-- Wake sources met in the present command, and the moment of the last wake (R381). -/
  wakeReq   : BitVec 4 := 0
  wokeAt    : Option Ns := none
  wakes     : W32 := 0
  bcSkipped : BitVec 16 := 0
  bcEvents  : W32 := 0
  /-- DTIME at which FULL was last entered (R371). -/
  bcFull    : Ns := 0
  templates : List Template := []
  /-- Full service is ready (R359); first cycle h of the handover (R372). -/
  ready     : Bool := false
  handover  : Option W32 := none
  afterrunAt : Ns := 0
  afterrunEnded : Bool := false
  pllLock   : Bool := true
  refOk     : Bool := true
  extClk    : Bool := false
  lockUs    : BitVec 16 := 0
  pwrCfg    : W64 := 0x10
  warn      : Bool := false
  warnSeen  : Bool := false
  gaspSent  : Bool := false
  vcoreOk   : Bool := true
  vgdLow    : Bool := false
  /-- ALIVE toggles, and its level (R399). -/
  aliveRun  : Bool := false
  alive     : Bool := false
  asel      : BitVec 2 := 0
  /-- Step of DTIME in ns (R26, R392). -/
  dstep     : Nat := 1
  deriving DecidableEq, Repr, Inhabited

/-- A fault raised within the present command, not yet acted on. -/
structure FaultReq where
  source : Nat := 0
  detail : Nat := 0
  ctrl   : BitVec 16 := 0
  coord  : W64 := 0
  /-- Output key of an event-bound fault (R390). -/
  key    : Option (EvType × Nat) := none
  forced : Bool := false
  /-- Reaction given with the fault (DIAG, R203). -/
  react  : Option Nat := none
  deriving DecidableEq, Repr, Inhabited

/-- An object a reaction can disable (R389). -/
inductive DisKey where
  | output (t : EvType) (n : Nat)
  | bank (k : Nat)
  | cyl (c : Nat)
  deriving DecidableEq, Repr, Inhabited

/-- The fault unit (R388 to R401). -/
structure Flt where
  valid    : Bool := false
  source   : Nat := 0
  cls      : Nat := 0
  reaction : Nat := 0
  detail   : Byte := 0
  ctrl     : BitVec 16 := 0
  clsMax   : Nat := 0
  okey     : Option (EvType × Nat) := none
  forced   : Bool := false
  time     : Ns := 0
  coord    : W64 := 0
  merged   : W64 := 0
  mergeCnt : Nat := 0
  /-- Configured reaction of each source (R393). -/
  react    : Vector Nat 28 := ⟨#[0, 6, 6, 6, 6, 6, 6, 6, 6, 5, 1, 0, 1, 1, 1, 1, 1, 1, 1, 1, 1, 1, 1, 1, 1, 1, 0, 0], rfl⟩
  cnt      : Vector W32 64 := Vector.replicate 64 0
  lastT    : Vector W32 64 := Vector.replicate 64 0
  dis      : W64 := 0
  /-- Source kept with each disabled object (R148). -/
  disSrc   : List (DisKey × Nat) := []
  corrRec  : Bool := false
  cfgIgn   : Bool := false
  noObj    : Bool := false
  raised   : List FaultReq := []
  deriving DecidableEq, Repr, Inhabited

/-- Counters of one physical bank (R410). -/
structure MemBank where
  ce     : BitVec 16 := 0
  ue     : BitVec 16 := 0
  passes : BitVec 16 := 0
  /-- Word the scrubber reads next. -/
  idx    : Nat := 0
  deriving DecidableEq, Repr, Inhabited

/-- A word of the test region with its stored check bits (R409). -/
structure TestWord where
  d0 : W64 := 0
  d1 : W64 := 0
  c0 : W64 := 0
  c1 : W64 := 0
  deriving DecidableEq, Repr, Inhabited

/-- Memory protection (R403 to R410). -/
structure MemU where
  ce     : W32 := 0
  ue     : BitVec 16 := 0
  cfgIgn : Bool := false
  banks  : Vector MemBank 17 := Vector.replicate 17 {}
  lastCe : W64 := 0
  lastUe : W64 := 0
  ctrl   : W64 := 0
  d0     : W64 := 0
  d1     : W64 := 0
  c0     : W64 := 0
  c1     : W64 := 0
  syn0   : W64 := 0
  syn1   : W64 := 0
  res    : W32 := 0
  test   : Vector TestWord 16 := Vector.replicate 16 {}
  /-- Flipped stored bits by bank, word and byte, relative to the coded value; no entry is zero. -/
  errs   : List Upset := []
  /-- Words of the tag array met with an uncorrectable error: their slots' writes are blocked (R407). -/
  deadTags : List Nat := []
  deriving DecidableEq, Repr, Inhabited

/-! ### The device -/

/-- Everything but the memories, the fuses and the queue of commands. -/
structure Dev where
  dtime  : Ns := 0
  sup    : Sup := {}
  nvi    : Nvi := {}
  flt    : Flt := {}
  memu   : MemU := {}
  paths  : Vector PathCtx 7 := Vector.replicate 7 {}
  pos    : Pos := {}
  adm    : Adm := {}
  loft   : Loft := {}
  banks  : Vector Bank 4 := Vector.replicate 4 {}
  bst    : Bst := {}
  pfi    : Vector Pfi 16 := Vector.replicate 16 {}
  ign    : Vector Ign 16 := Vector.replicate 16 {}
  gate   : Vector Gate 8 := Vector.replicate 8 {}
  diag   : Diag := {}
  ce     : Vector Ce 8 := Vector.replicate 8 {}
  ces    : CeShared := {}
  cnv    : Vector Cnv 2 := Vector.replicate 2 {}
  cnvs   : CnvShared := {}
  recm   : RecM := {}
  snap   : Snap := {}
  tmu    : Vector Tmu 8 := Vector.replicate 8 {}
  pio    : Vector Pio 8 := Vector.replicate 8 {}
  pios   : PioShared := {}
  can    : Vector Can 4 := Vector.replicate 4 {}
  rope   : Rope := {}
  twp    : Twp := {}
  /-- Writes of the present command to the memories, in order. -/
  writes : List MemOp := []
  /-- Counter of free values (assumption 9); no claim may rest on it. -/
  free   : Nat := 0
  deriving DecidableEq, Repr

/-- The state of the block: the queue of commands that wait, the factory fuses, the memories and the device. -/
structure State where
  pending : List Instr := []
  fuses   : Fuses := {}
  mems    : Mems := {}
  dev     : Dev := {}
  deriving DecidableEq, Repr

/-- The state after a power-on reset, once the hardware fill has completed (R9, R370; assumption 4): registers at
their After POR values, memory filled with zeros, mode FILL, the image still to be loaded, no command waiting. -/
def State.reset : State := {}

/-- A step never stops with a fault: every condition the manual calls a fault is an effect on the state, so this type
has no constructor. -/
inductive Fault where
  deriving DecidableEq, Repr

/-- Why a step gives no meaning. -/
inductive Refusal where
  /-- Raised by an arm of `exec` whose command has no meaning yet; safe. -/
  | notModelled (mnemonic : String)
  deriving DecidableEq, Repr

end Sys2Proof.Machine
end

