-- ==== Sys2Proof/Machine/Ops.lean ====
section
/-! DEFINITION. The named operations over the memories and the registers that every family uses: time, sparse
memory in canonical form, the writes of a command, slots, coordinates, fault and record presentation. -/

namespace Sys2Proof.Machine

/-! ### Sparse tables in canonical form -/

/-- What a key of a sparse table reads as; a key that is not listed reads as `d`. -/
def sget {α : Type} (d : α) : List (Nat × α) → Nat → α
  | [], _ => d
  | (k, x) :: l, a => if a = k then x else sget d l a

/-- A sparse table with one key written; the value `d` is never listed. -/
def sput {α : Type} [DecidableEq α] (d : α) : List (Nat × α) → Nat → α → List (Nat × α)
  | [], a, v => if v = d then [] else [(a, v)]
  | (k, x) :: l, a, v =>
    if a < k then (if v = d then (k, x) :: l else (a, v) :: (k, x) :: l)
    else if a = k then (if v = d then l else (a, v) :: l)
    else (k, x) :: sput d l a v

/-- Keys strictly rising from `lo` on, below `hi`, and nothing listed that equals `d`. -/
def swf {α : Type} [DecidableEq α] (d : α) (hi : Nat) : Nat → List (Nat × α) → Bool
  | _, [] => true
  | lo, (k, x) :: l => decide (lo ≤ k) && decide (k < hi) && decide (x ≠ d) && swf d hi (k + 1) l

/-- Bytes of the internal address space (R31): 1 MiB. -/
def sramSize : Nat := 0x100000

/-- The canonical form of the memory: addresses strictly rising inside the 1 MiB, and no byte listed that equals what
an unlisted address reads as (0 after the hardware fill, R370; assumption 10). -/
def Memory.wf (m : List Host.Cell) : Bool := swf (0 : Byte) sramSize 0 m

/-- The canonical form of both memories. -/
def Mems.wf (m : Mems) : Bool := Memory.wf m.sram && swf ({} : SlotAttr) 16384 0 m.attrs

/-- One byte of the memory. -/
def Mems.byte (m : Mems) (a : Nat) : Byte := sget 0 m.sram a

/-- `n` bytes of the memory in ascending order. -/
def Mems.bytes (m : Mems) (a n : Nat) : List Byte := (List.range n).map fun i => m.byte (a + i)

/-- A 64-bit word of the memory at a byte address, least significant byte first (R7). -/
def Mems.word (m : Mems) (a : Nat) : W64 := BitVec.ofNat 64 (leNat (m.bytes a 8))

/-- Bytes written from an address on; an address outside the memory takes nothing. -/
def putBytes (m : List Host.Cell) (a : Nat) : List Byte → List Host.Cell
  | [] => m
  | b :: l => putBytes (if a < sramSize then sput 0 m a b else m) (a + 1) l

/-! ### The regions of R31 -/

def listBase : Nat := 0x00000
def slotBase : Nat := 0x10000
def mapBase : Nat := 0x30000
def loftBase : Nat := 0x60000
def profBase : Nat := 0x80000
def recBase : Nat := 0x88000
def msgBase : Nat := 0xC8000
def sysBase : Nat := 0xE8000

/-- Address of a sequencer instruction of bank `k` (R31, R174). -/
def profAddr (k i : Nat) : Nat := profBase + k * 0x2000 + 8 * i

/-- Address of a slot (R31). -/
def slotAddr (i : Nat) : Nat := slotBase + 8 * i

/-- A slot permits learning: a value that is not zero, tagged VALID (R78). -/
def Mems.permits (m : Mems) (i : Nat) : Bool := m.word (slotAddr i) != 0 && (sget {} m.attrs i).tag.getLsbD 0

/-- The watched permit slot after a write: once it has failed to permit, it stays failed (R78). -/
def Mems.note (m : Mems) : Mems :=
  match m.watch with
  | some (i, true) => { m with watch := some (i, m.permits i) }
  | _ => m

/-- One write of a command on the memories themselves. -/
def MemOp.put (m : Mems) : MemOp → Mems
  | .slot i v g =>
    if i < 16384 then
      { m with
        sram := putBytes m.sram (slotAddr i) (wordBytes v)
        attrs := sput {} m.attrs i { sget {} m.attrs i with tag := g } }
    else m
  | .tag i g => if i < 16384 then { m with attrs := sput {} m.attrs i { sget {} m.attrs i with tag := g } } else m
  | .stale i =>
    let a := sget {} m.attrs i
    if i < 16384 ∧ a.cls = 1 ∧ a.writer = 8 then { m with attrs := sput {} m.attrs i { a with tag := (a.tag ||| 2) &&& 0xFE } }
    else m
  | .bytes a l => { m with sram := putBytes m.sram a l }
  | .fill lo hi => { m with sram := m.sram.filter fun c => decide (c.1 < lo) || decide (hi ≤ c.1) }
  | .clearAttrs => { m with attrs := [] }
  | .attr i a => if i < 16384 then { m with attrs := sput {} m.attrs i a } else m
  | .watch x => { m with watch := x.map fun i => (i, m.permits i) }

/-- One write of a command, applied. -/
def MemOp.apply (m : Mems) (w : MemOp) : Mems := (w.put m).note

/-- What a command's body reads beside the device: the memories as they stood at its start, and the fuses. -/
structure Env where
  mems  : Mems
  fuses : Fuses

/-- Value, tag, class and writer of a slot (R222). -/
def Env.slot (e : Env) (i : Nat) : W64 := e.mems.word (slotAddr i)
def Env.attr (e : Env) (i : Nat) : SlotAttr := sget {} e.mems.attrs i

/-! ### The device -/

/-- The device at a later moment. DTIME never steps backward (R26); after a lost clock, and in bivouac, it moves in
coarser steps (R26, R392). -/
def Dev.at (t : Ns) (d : Dev) : Dev :=
  let q := if d.sup.dstep = 0 then t else t - t % d.sup.dstep
  { d with dtime := if d.dtime < q then q else d.dtime }

def Dev.write (w : MemOp) (d : Dev) : Dev := { d with writes := d.writes ++ [w] }

/-- A fault presented to FLT within this command (R395). -/
def Dev.raise (r : FaultReq) (d : Dev) : Dev := { d with flt := { d.flt with raised := d.flt.raised ++ [r] } }

/-- DTIME modulo 2^32, as several registers keep it. -/
def Dev.now32 (d : Dev) : W32 := BitVec.ofNat 32 d.dtime

/-- Place of a path's context. -/
def pathIndex : Path → Fin 7
  | .twp => 0 | .can0 => 1 | .can1 => 2 | .can2 => 3 | .can3 => 4 | .rope => 5 | .loader => 6

/-- The context of an access path (R34). -/
def Dev.ctx (d : Dev) (p : Path) : PathCtx := d.paths[pathIndex p]

def Dev.modCtx (p : Path) (f : PathCtx → PathCtx) (d : Dev) : Dev := { d with paths := upd d.paths (pathIndex p) f }

/-- The service path of a CAN controller. -/
def canPath (k : Fin 4) : Path :=
  match k with
  | 0 => .can0 | 1 => .can1 | 2 => .can2 | 3 => .can3

def Mode.code : Mode → Nat
  | .reset => 0 | .fill => 1 | .basecamp => 2 | .waitSync => 3 | .crank => 4 | .run => 5 | .limp => 6 | .afterrun => 7
  | .bivouac => 8 | .service => 9 | .safe => 10 | .locked => 11

def SyncState.code : SyncState → Nat
  | .stopped => 0 | .counting => 1 | .gapFound => 2 | .full => 3 | .half => 4

def EvType.code : EvType → Nat
  | .di => 1 | .pfi => 2 | .ign => 3 | .gate => 4 | .sample => 5 | .calc => 6 | .capt => 7 | .pio => 8

/-- The event types with a code (R102). -/
def EvType.ofCode : Nat → Option EvType
  | 1 => some .di | 2 => some .pfi | 3 => some .ign | 4 => some .gate | 5 => some .sample | 6 => some .calc
  | 7 => some .capt | 8 => some .pio | _ => none

/-- Outputs that a type has (R102, R137). -/
def EvType.outputs : EvType → Nat
  | .di => 16 | .pfi => 16 | .ign => 16 | .gate => 8 | .sample => 2 | .calc => 8 | .capt => 1 | .pio => 8

/-- Types 1 to 4 drive a pin. -/
def EvType.drives : EvType → Bool
  | .di | .pfi | .ign | .gate => true
  | _ => false

def EvResult.code : EvResult → Nat
  | .done => 1 | .doneLate => 2 | .diag => 3 | .endedSync => 4 | .endedFault => 5 | .endedMode => 6 | .cancelled => 7

def BoxState.code : BoxState → Nat
  | .free => 0 | .armed => 1 | .committed => 2 | .active => 3 | .closing => 4

def DState.code : DState → Nat
  | .waiting => 1 | .inBox => 2 | .ending => 3

def SwState.code : SwState → Nat
  | .decay => 0 | .boost => 1 | .batt => 2 | .free => 3

def SwState.ofCode : Nat → SwState
  | 1 => .boost | 2 => .batt | 3 => .free | _ => .decay

def CeState.code : CeState → Nat
  | .idle => 0 | .running => 1 | .waitReq => 2 | .draining => 3 | .halted => 4

/-- A data coordinate (R14). -/
def coord (half : Bool) (cyl etype : Nat) (tag : W32) : W64 :=
  putB 41 half ||| put 36 5 cyl ||| put 32 4 etype ||| put 0 32 tag.toNat

/-- A control coordinate (R16). -/
def ctrl (mgr unit ch : Nat) : BitVec 16 := BitVec.ofNat 16 (mgr * 8192 + unit * 256 + ch % 256)

/-- HALF (R13, R322): the second of an enabled rope; a device that runs alone is role 0. -/
def Dev.half (d : Dev) : Bool := d.rope.role && bit d.rope.cfg 0

/-- The coordinate of no event (R281). -/
def Dev.noEvent (d : Dev) : W64 := coord d.half 0x1F 0 0

/-- The data coordinate of an event. -/
def Event.coord (half : Bool) (e : Event) : W64 := Machine.coord half e.cyl e.type.code e.tag

/-- A draw of a free value: the count that the opaque functions of Config take (assumption 9). -/
def Dev.draw (d : Dev) : Nat × Dev := (d.free, { d with free := d.free + 1 })

/-! ### Records -/

/-- Whether record `b` was presented after `a` (R268): later, or in the same clock with a higher type. -/
def Rec.after (a b : Rec) : Bool := a.pres < b.pres || (a.pres == b.pres && a.type < b.type)

/-- A record put behind every record that R268 writes before it. -/
def Rec.insert (r : Rec) : List Rec → List Rec
  | [] => [r]
  | x :: l => if Rec.after r x then r :: x :: l else x :: Rec.insert r l

/-- A record presented to REC in the present clock: EVENT results to the result queue, others to staging (R268). -/
def Dev.present (r : Rec) (d : Dev) : Dev :=
  let r := { r with pres := d.dtime }
  if r.type = 4 then { d with recm := { d.recm with resultQ := d.recm.resultQ ++ [r] } }
  else { d with recm := { d.recm with staging := Rec.insert r d.recm.staging } }

/-! ### Slot writes by hardware (R225, R226) -/

/-- Bank 16 word of a slot's tag was met with an uncorrectable error (R407). -/
def Dev.tagDead (d : Dev) (i : Nat) : Bool := d.memu.deadTags.contains (i / 8)

/-- A count of a write that the tag array's error blocks, without CE_WRITER (R407). -/
def Dev.countDead (d : Dev) : Dev := { d with ces := { d.ces with wvCnt := d.ces.wvCnt + 1 } }

/-- A blocked write: WVIOL in the slot's tag, the slot and the would-be writer in SLOT_STAT, and CE_WRITER (R225). -/
def Dev.writerViolation (e : Env) (i by_ : Nat) (c : BitVec 16) (d : Dev) : Dev :=
  { d with ces := { d.ces with wvSlot := BitVec.ofNat 14 i, wvBy := BitVec.ofNat 4 by_, wvCnt := d.ces.wvCnt + 1 } }
  |>.write (.tag i ((e.attr i).tag ||| 0x10))
  |>.raise { source := 14, ctrl := c, coord := d.noEvent }

/-- A value and tag delivered to an input slot through the ninth port. WVIOL never clears (R226); a slot that is not an
input slot is not hardware's to write (R224, R225; assumption 14 for the coordinate). -/
def Dev.hwSlot (e : Env) (i : Nat) (v : W64) (tag : Byte) (d : Dev) : Dev :=
  if 16384 ≤ i then d
  else if d.tagDead i then d.countDead
  else if (e.attr i).cls = 1 ∧ (e.attr i).writer = 8 then d.write (.slot i v (tag ||| ((e.attr i).tag &&& 0x10)))
  else d.writerViolation e i 8 0x80FF

/-- The source of an input slot stops updating: STALE set, VALID clear (R226). A slot that is not an input slot is no
hardware source's own, and keeps its tag (R224, R262). -/
def Dev.staleSlot (i : Nat) (d : Dev) : Dev :=
  if 16384 ≤ i then d
  else if d.tagDead i then d.countDead
  else d.write (.stale i)

end Sys2Proof.Machine
end

