-- ==== Sys2Proof/Machine/Ecc.lean ====
section
/-! DEFINITION. The byte code of the memories and what a read of a damaged byte does (R32, R403 to R407). A flipped
stored bit is kept beside the data, relative to the coded value, so that the memories themselves hold what was
written. -/

namespace Sys2Proof.Machine

/-- Bank, word and byte of an internal address (R31, R403). The two map banks hold the halves of map memory
(assumption 15); the words of record memory alternate (R268). -/
def bankOf (a : Nat) : Nat × Nat × Nat :=
  if a < 0x10000 then (0, a / 16, a % 16)
  else if a < 0x30000 then (1, (a - 0x10000) / 16, a % 16)
  else if a < 0x48000 then (2, (a - 0x30000) / 16, a % 16)
  else if a < 0x60000 then (3, (a - 0x48000) / 16, a % 16)
  else if a < 0x80000 then (4, (a - 0x60000) / 16, a % 16)
  else if a < 0x88000 then (5 + (a - 0x80000) / 0x2000, (a - 0x80000) % 0x2000 / 16, a % 16)
  else if a < 0xC8000 then (9 + (a - 0x88000) / 16 % 2, (a - 0x88000) / 32, a % 16)
  else if a < 0xE8000 then (11 + (a - 0xC8000) / 0x8000, (a - 0xC8000) % 0x8000 / 16, a % 16)
  else (15, (a - 0xE8000) / 16, a % 16)

/-- Internal address of a word of a bank; the slot index for the tag array (R410). -/
def bankAddr (b w : Nat) : Nat :=
  match b with
  | 0 => w * 16
  | 1 => 0x10000 + w * 16
  | 2 => 0x30000 + w * 16
  | 3 => 0x48000 + w * 16
  | 4 => 0x60000 + w * 16
  | 5 => 0x80000 + w * 16
  | 6 => 0x82000 + w * 16
  | 7 => 0x84000 + w * 16
  | 8 => 0x86000 + w * 16
  | 9 => 0x88000 + w * 32
  | 10 => 0x88010 + w * 32
  | 11 => 0xC8000 + w * 16
  | 12 => 0xD0000 + w * 16
  | 13 => 0xD8000 + w * 16
  | 14 => 0xE0000 + w * 16
  | 15 => 0xE8000 + w * 16
  | _ => w * 8

/-- Words of each bank (R403). -/
def bankWords : List Nat :=
  [4096, 8192, 6144, 6144, 8192, 512, 512, 512, 512, 8192, 8192, 2048, 2048, 2048, 2048, 6144, 2048]

def popcount (n : Nat) : Nat → Nat
  | 0 => 0
  | k + 1 => n % 2 + popcount (n / 2) k

/-- Nine different columns out of a pool, by free choice. -/
def eccDraw : Nat → List (BitVec 5) → List (BitVec 5)
  | 0, _ => []
  | n + 1, pool =>
    let c := (pool[Config.eccPick n % pool.length]?).getD 0
    c :: eccDraw n (pool.erase c)

/-- Columns of the check matrix: data bits 0 to 7, then the address parity. A code of 5 check bits over 9 bits that corrects
one wrong bit and detects two has different columns of odd weight, of which the check bits have those of weight 1 (R32,
R404; assumption 8). -/
def eccColumn (i : Fin 9) : BitVec 5 := ((eccDraw 9 [7, 11, 13, 14, 19, 21, 22, 25, 26, 28, 31])[i.val]?).getD 0

/-- Syndrome of a byte whose stored bits differ from the coded value by `flips`, read with the address parity inverted
or not (R404). -/
def syndrome (flips : BitVec 13) (ap : Bool) : BitVec 5 :=
  (List.finRange 9).foldl (init := (flips >>> 8).setWidth 5) fun s i =>
    if (if i.val = 8 then ap else flips.getLsbD i.val) then s ^^^ eccColumn i else s

/-- Status of a byte read (R404): 0 clean, 1 corrected, 2 uncorrectable, 3 address. One and two wrong bits are what
R404 says they are; more are judged by their syndrome. -/
def byteStatus (flips : BitVec 13) (ap : Bool) : Nat :=
  let n := popcount flips.toNat 13 + ap.toNat
  if n = 0 then 0
  else if n = 1 then (if ap then 3 else 1)
  else if n = 2 then 2
  else
    let s := syndrome flips ap
    if s = 0 then 0
    else if s = eccColumn 8 then 3
    else if (List.finRange 8).any (fun i => s = eccColumn (i.castLE (by omega)))
        || popcount s.toNat 5 == 1 then 1
    else 2

/-- Worst status of a word, and its lowest byte of that status (R404). -/
def Dev.wordStatus (d : Dev) (b w : Nat) : Nat × Nat :=
  d.memu.errs.foldl (init := (0, 0)) fun acc u =>
    if u.bank.val = b ∧ u.word = w then
      let s := byteStatus u.flips false
      if acc.1 < s ∨ (acc.1 = s ∧ s ≠ 0 ∧ u.byte.val < acc.2) then (s, u.byte.val) else acc
    else acc

/-- Flipped bits of bytes that their owner writes are gone (R407). -/
def Dev.clearErrs (a n : Nat) (d : Dev) : Dev :=
  if d.memu.errs.isEmpty then d
  else
    let keep (u : Upset) : Bool :=
      let x := bankAddr u.bank.val u.word + u.byte.val
      u.bank.val == 16 || decide (x < a) || decide (a + n ≤ x)
    { d with memu := { d.memu with errs := d.memu.errs.filter keep } }

def Dev.clearWordErrs (b w : Nat) (d : Dev) : Dev :=
  { d with memu := { d.memu with errs := d.memu.errs.filter fun u => u.bank.val != b || u.word != w } }

def Dev.modMemBank (b : Nat) (f : MemBank → MemBank) (d : Dev) : Dev :=
  if h : b < 17 then { d with memu := { d.memu with banks := upd d.memu.banks ⟨b, h⟩ f } } else d

/-- MEM_LAST_CE and MEM_LAST_UE (R410). -/
def Dev.lastWord (d : Dev) (b w byte : Nat) (addrErr scrub : Bool) : W64 :=
  put 0 20 (bankAddr b w) ||| put 20 4 byte ||| putB 24 addrErr ||| putB 25 scrub ||| put 32 32 d.dtime

/-- A corrected word: counted, written back, MEM_CE raised once (R406). -/
def Dev.corrected (b w byte : Nat) (scrub : Bool) (d : Dev) : Dev :=
  { d with memu := { d.memu with ce := d.memu.ce + 1, lastCe := d.lastWord b w byte false scrub } }
  |>.modMemBank b (fun m => { m with ce := m.ce + 1 })
  |>.clearWordErrs b w
  |>.raise { source := 27, detail := b, ctrl := ctrl 0 3 b, coord := d.noEvent }

/-- An uncorrectable word: counted. What follows depends on the region (R407). -/
def Dev.uncorrectable (b w byte st : Nat) (scrub : Bool) (d : Dev) : Dev :=
  { d with memu := { d.memu with ue := d.memu.ue + 1, lastUe := d.lastWord b w byte (st == 3) scrub } }
  |>.modMemBank b (fun m => { m with ue := m.ue + 1 })

/-- A demand read of one word of a bank: a corrected word is handed to the scrubber (R406); the answer says whether the
word was uncorrectable. -/
def Dev.readWord (b w : Nat) (d : Dev) : Bool × Dev :=
  if d.memu.errs.isEmpty then (false, d)
  else
    match d.wordStatus b w with
    | (0, _) => (false, d)
    | (1, i) => (false, d.corrected b w i false)
    | (s, i) => (true, d.uncorrectable b w i s false)

/-- A demand read of the word that holds an internal address. -/
def Dev.readAt (a : Nat) (d : Dev) : Bool × Dev :=
  let (b, w, _) := bankOf a
  d.readWord b w

/-- MEM_UE_PROF, met by PSQ_k (R193, R407). -/
def Dev.raiseProf (k : Nat) (d : Dev) : Dev :=
  d.raise { source := 6, detail := 5 + k, ctrl := ctrl 3 k 7, coord := d.noEvent }

/-- MEM_UE_SYS (R407). -/
def Dev.raiseSys (d : Dev) : Dev := d.raise { source := 7, detail := 15, ctrl := 0x00FF, coord := d.noEvent }

end Sys2Proof.Machine
end

