-- ==== Sys2Proof/Machine/Solver.lean ====
section
/-! DEFINITION. Angles, wheel positions, the predictor and the solver (chapter 3): pure functions of the wheel, the
corrections and the prediction. Positions are whole numbers counted in wheel entries from the H0 anchor of cycle 0 on,
never wrapped; position `x` uses wheel entry `x mod CRK_POS` (R74). -/

namespace Sys2Proof.Machine

/-- 360 °CA. -/
def rev360 : Nat := 360 * degree

def Wheel.cycLen (w : Wheel) : Nat := if w.twoStroke then rev360 else 2 * rev360

/-- Positions of one cycle. -/
def Wheel.cycPos (w : Wheel) : Nat := if w.twoStroke then w.crkPos else 2 * w.crkPos

/-- An unwrapped position within the cycle. -/
def Wheel.wrap (w : Wheel) (x : Int) : Nat := (x % (w.cycPos : Int)).toNat

def Wheel.entry (w : Wheel) (x : Int) : Nat := (x % (w.crkPos : Int)).toNat

def Wheel.tooth (w : Wheel) (x : Int) : Tooth := (w.teeth[w.entry x]?).getD default

/-- Cycle angle of the H0 anchor: (CYC_LEN − ANCHOR_OFS) mod CYC_LEN (R54). -/
def Wheel.anchor (w : Wheel) : Nat := ((-w.anchorOfs) % (w.cycLen : Int)).toNat

/-- Nominal cycle angle of a position (R43, R54). -/
def Wheel.angleAt (w : Wheel) (x : Int) : Angle :=
  if w.crkPos = 0 then 0
  else (w.anchor + (w.wrap x / w.crkPos) * rev360 + (w.tooth x).angle) % w.cycLen

/-- The next present position, at most one revolution on. -/
def Wheel.nextFrom (w : Wheel) : Nat → Int → Int
  | 0, x => x
  | n + 1, x => if (w.tooth x).present then x else w.nextFrom n (x + 1)

def Wheel.next (w : Wheel) (x : Int) : Int := w.nextFrom w.crkPos (x + 1)

def Wheel.prevFrom (w : Wheel) : Nat → Int → Int
  | 0, x => x
  | n + 1, x => if (w.tooth x).present then x else w.prevFrom n (x - 1)

def Wheel.prev (w : Wheel) (x : Int) : Int := w.prevFrom w.crkPos (x - 1)

/-- Span of the interval that ends at present position `x`, in angle units (R75). -/
def Wheel.spanAngle (w : Wheel) (x : Int) : Nat :=
  let a := ((w.tooth x).angle + rev360 - (w.tooth (w.prev x)).angle % rev360) % rev360
  if a = 0 then rev360 else a

/-- The same in base pitches, Q8.24 (R75). -/
def Wheel.span (w : Wheel) (x : Int) : Nat := divRoundN (w.spanAngle x * w.crkPos * 2 ^ 24) rev360

/-- Modular distance from one cycle angle to another (R29). -/
def Wheel.ahead (w : Wheel) (fr dst : Angle) : Nat := (dst + w.cycLen - fr % w.cycLen) % w.cycLen

/-- R29: the target is reached when it coincides or lies at least half a cycle ahead. -/
def Wheel.reached (w : Wheel) (now target : Angle) : Bool :=
  let x := w.ahead now target
  x == 0 || w.cycLen / 2 ≤ x

/-- Signed modular difference `a − b` within ± half a cycle. -/
def Wheel.diff (w : Wheel) (a b : Angle) : Int :=
  let x := w.ahead b a
  if w.cycLen / 2 ≤ x then (x : Int) - w.cycLen else x

/-- Cycle and angle compared as one position (R29): `a` before `b`. -/
def beforePos (ca : W32) (aa : Angle) (cb : W32) (ab : Angle) : Bool :=
  let x := (cb - ca).toInt
  0 < x || (x == 0 && aa < ab)

/-- The correction of the entry at a position, in units of 2^-15 (R76). -/
def Pos.corrAt (p : Pos) (x : Int) : Int := (p.corr[p.wheel.entry x]?).getD 0

/-- Span times (1 + c), in units of 2^-39 base pitches: the S of R86. -/
def Pos.shape (p : Pos) (x : Int) : Nat := (p.wheel.span x : Int) * (32768 + p.corrAt x) |>.toNat

/-- Normalised period of an interval of `t` ns and shape `s`, Q32.16 (R77). -/
def normPeriod (t s : Nat) : Nat := if s = 0 then 0 else satN (2 ^ 48 - 1) (divRoundN (t * 2 ^ 55) s)

/-- One base pitch as 2^-39 units: the shape of an interval in COUNTING (R77). -/
def onePitch : Nat := 2 ^ 39

/-- R87: the model time of fraction `phi` (Q0.32) of an interval of shape `s`, as a number of 2^-120 ns. -/
def modelNum (s nhat : Nat) (delta : Int) (phi : Nat) : Int :=
  s * ((2 * (nhat : Int) - delta) * phi * 2 ^ 32 + delta * phi * phi)

/-- R88: the fraction of an interval, truncated; 2^32 at its end. -/
def fraction (ofs span : Nat) : Nat := if span = 0 then 0 else ofs * 2 ^ 32 / span

/-- Sum over whole further intervals (R92), each S × N̂, in 2^-55 ns: from the interval after `x` until the one that
holds the offset `ofs` from position `x`; answers position, sum, and the rest of the offset. -/
def Pos.chain (p : Pos) : Nat → Int → Nat → Nat → Int × Nat × Nat
  | 0, x, acc, ofs => (x, acc, ofs)
  | n + 1, x, acc, ofs =>
    let j := p.wheel.next x
    let sp := p.wheel.spanAngle j
    if ofs ≤ sp then (x, acc, ofs) else p.chain n j (acc + p.shape j * p.nhat) (ofs - sp)

/-- Δ of the present interval: N̂ − N_k unless R87 makes it 0. -/
def Pos.delta (p : Pos) : Int :=
  if bit p.predCfg 4 && !p.held && 2 ≤ p.hist.length then (p.nhat : Int) - p.nk else 0

/-- DTIME at which the angle `ofs` units past the last accepted tooth is predicted (R87, R92): exact within the present
interval, provisional beyond it. -/
def Pos.timeOf (p : Pos) (ofs : Nat) : Ns :=
  match p.lastTooth with
  | none => 0
  | some tk =>
    let j := p.wheel.next p.absPos
    let sp := p.wheel.spanAngle j
    if ofs ≤ sp then
      ((tk : Int) + divRound (modelNum (p.shape j) p.nhat p.delta (fraction ofs sp)) (2 ^ 120)).toNat
    else
      let (x, acc, rest) := p.chain (8 * p.wheel.crkPos + 1) j (p.shape j * p.nhat) (ofs - sp)
      let m := p.wheel.next x
      let num := acc * 2 ^ 65 + p.shape m * p.nhat * fraction rest (p.wheel.spanAngle m) * 2 ^ 33
      tk + divRoundN num (2 ^ 120)

/-- The edge's angle lies in the interval that begins at the last accepted tooth: this is its commit tooth (R93). -/
def Pos.commitsNow (p : Pos) (ofs : Nat) : Bool := 0 < ofs && ofs ≤ p.wheel.spanAngle (p.wheel.next p.absPos)

/-- Time predicted for the next present tooth, t(1) (R86, R87). -/
def Pos.nextTime (p : Pos) : Ns := p.timeOf (p.wheel.spanAngle (p.wheel.next p.absPos))

/-- Largest offset in `lo` to `lo + 2^n − 1` whose model time has been reached (R90). -/
def Pos.invert (p : Pos) (sp s : Nat) (el : Int) : Nat → Nat → Nat
  | 0, lo => lo
  | n + 1, lo =>
    let mid := lo + 2 ^ n
    if mid < sp && modelNum s p.nhat p.delta (fraction mid sp) ≤ el * 2 ^ 120 then p.invert sp s el n mid
    else p.invert sp s el n lo

/-- Offset from the last accepted tooth at a later moment, one unit short of the next tooth at most (R90). -/
def Pos.offsetAt (p : Pos) (t : Ns) : Nat :=
  match p.lastTooth with
  | none => 0
  | some tk =>
    let j := p.wheel.next p.absPos
    p.invert (p.wheel.spanAngle j) (p.shape j) ((t : Int) - tk) 31 0

/-- FULL or HALF. -/
def Pos.synced (p : Pos) : Bool := p.sync == .full || p.sync == .half

/-- The position word at a moment (R28, R56, R90). In STOPPED, COUNTING and GAP_FOUND, and in reverse rotation, the
stored word stands; in basecamp service there is no interpolation (R371). -/
def Dev.poswAt (d : Dev) (t : Ns) : W32 × Angle :=
  let p := d.pos
  if p.synced && !p.rev && d.sup.mode != .basecamp then
    let a := p.angle + p.offsetAt t
    if p.wheel.cycLen ≤ a then (p.cycle + 1, a - p.wheel.cycLen) else (p.cycle, a)
  else (p.cycle, p.angle)

def Dev.posw (d : Dev) : W64 :=
  let (c, a) := d.poswAt d.dtime
  put 32 32 c.toNat ||| put 0 32 a

/-- Time from DTIME to an angle, or from an angle to DTIME, at the cycle period (used where a chapter scales by
POS_CYCLE_NS): ns per cycle. -/
def Pos.cycNs (p : Pos) : Nat := p.cycleNs

end Sys2Proof.Machine
end

