-- ==== Sys2Proof/Machine/Drive.lean ====
section
/-! DEFINITION. Pins, banks and outputs: the operations that the boxes, the sequencers and the safe ends share
(chapters 6, 7 and 9). -/

namespace Sys2Proof.Machine

/-! ### Pins -/

/-- A pin commanded to a level at a moment. An edge in the opposite direction that had not yet reached the pin is
withdrawn, so that the pin goes on as it was; of two edges to one level the earlier one stands. While VGD is low an on edge
stays without effect until the next one (R421). -/
def Pin.set (b : Bool) (t : Ns) (low : Bool) (p : Pin) : Pin :=
  if p.on = b then { p with since := min p.since t }
  else if t < p.since then { on := b, since := 0, blocked := p.blocked }
  else { on := b, since := t, blocked := b && low }

/-- Level commanded at the pin at a moment; an edge may have been issued ahead of it (R95). -/
def Pin.level (t : Ns) (p : Pin) : Bool := if p.since ≤ t then p.on else !p.on

/-! ### Access -/

def Dev.modBank (k : Fin 4) (f : Bank → Bank) (d : Dev) : Dev := { d with banks := upd d.banks k f }
def Dev.modPfi (n : Fin 16) (f : Pfi → Pfi) (d : Dev) : Dev := { d with pfi := upd d.pfi n f }
def Dev.modIgn (n : Fin 16) (f : Ign → Ign) (d : Dev) : Dev := { d with ign := upd d.ign n f }
def Dev.modGate (n : Fin 8) (f : Gate → Gate) (d : Dev) : Dev := { d with gate := upd d.gate n f }
def Dev.modBox (b : Fin 128) (f : Box → Box) (d : Dev) : Dev := { d with loft := { d.loft with boxes := upd d.loft.boxes b f } }
def Dev.modPsq (k : Fin 4) (f : Psq → Psq) (d : Dev) : Dev := d.modBank k fun b => { b with psq := f b.psq }
def Dev.box (d : Dev) (b : Fin 128) : Box := d.loft.boxes[b]
def Dev.bank (d : Dev) (k : Fin 4) : Bank := d.banks[k]

/-- Bank and low side of DI output n (R102). -/
def diBank (n : Nat) : Fin 4 := Fin.ofNat 4 (n / 4)
def diLs (n : Nat) : Fin 4 := Fin.ofNat 4 n

/-- The part of the event that an owner carries. -/
def Dev.modPart (o : Owner) (f : Part → Part) (d : Dev) : Dev :=
  match o with
  | .box b => d.modBox b fun x => { x with part := f x.part }
  | _ => d

/-! ### Configuration fields -/

def Bank.dead (b : Bank) : Nat := fld b.cfg 8 10
def Bank.blank (b : Bank) : Nat := fld b.cfg 20 10
def Bank.rsh (b : Bank) : Nat := fld b.sense 0 20
def Bank.enabled (b : Bank) : Bool := bit b.cfg 0
def Bank.offTime (b : Bank) (j : Fin 4) : Nat := fld b.offtime (16 * j.val) 16
def Bank.busy (b : Bank) : Bool := b.owner != .none

/-! ### Switch states (R155, R156) -/

/-- The pins of a bank after a change of switch state commanded for `t`. -/
def Bank.switch (st : SwState) (t : Ns) (low : Bool) (b : Bank) : Bank :=
  let later := if b.sw = .decay then t else t + b.dead
  let hi (s : SwState) (p : Pin) : Pin := p.set (st == s && b.enabled) (if st == s then later else t) low
  { b with
    sw := st
    hsb := hi .boost b.hsb
    hsv := hi .batt b.hsv
    fw := hi .free b.fw
    lsPins := upd b.lsPins b.ls fun p => p.set (st != .decay && b.enabled) t low
    onTime := if b.sw = .boost ∨ b.sw = .batt then b.onTime + (t - b.lastOn) else b.onTime
    lastOn := if (st = .boost ∨ st = .batt) then t else b.lastOn
    lastSw := t }

/-- A switch state commanded by the sequencer. The same state again changes nothing. -/
def Dev.drive (k : Fin 4) (st : SwState) (t : Ns) (d : Dev) : Dev :=
  d.modBank k fun b => if b.sw = st then b else b.switch st t d.sup.vgdLow

/-! ### Sequencer words (R176, R177, R181) -/

/-- TIME steps of an instruction and whether an argument was out of range (R181). -/
def psqTime (args w : W64) : Nat × Bool :=
  let s := fld w 41 3
  let a := if s = 0 then 0 else fld args (16 * (s - 1)) 16
  if s = 0 ∨ a = 0 then (fld w 44 20, false) else if 62500 < a then (1000000, true) else (16 * a, false)

/-- A threshold with its source field (R181). -/
def psqThr (args : W64) (src imm : Nat) : Nat × Bool :=
  let a := if src = 0 ∨ 4 < src then 0 else fld args (16 * (src - 1)) 16
  if a = 0 then (imm, false) else if 1023 < a then (1023, true) else (a, false)

def Dev.argBad (k : Fin 4) (b : Bool) (d : Dev) : Dev :=
  if b then d.modPsq k fun p => { p with last := { p.last with argBad := true } } else d

/-- A threshold loaded into a DAC of the bank (R158). -/
def Dev.dacHi (k : Fin 4) (v : Nat) (d : Dev) : Dev := d.modBank k fun b => { b with dacHi := v }
def Dev.dacLo (k : Fin 4) (v : Nat) (d : Dev) : Dev := d.modBank k fun b => { b with dacLo := v }

/-- The instruction word at an index of the bank's profile memory, and whether its fetch met an uncorrectable error,
which is fatal (R193). -/
def Dev.fetchPsq (e : Env) (k : Fin 4) (i : Nat) (d : Dev) : W64 × Bool × Dev :=
  let (bad, d) := d.readAt (profAddr k.val i)
  (e.mems.word (profAddr k.val i), bad, if bad then d.raiseProf k.val else d)

/-! ### The END block (R160, R162, R186, R187) -/

/-- A jump within a profile: the counter of every loop body it leaves is cleared (R184). -/
def Psq.jumpTo (target : Nat) (p : Psq) : Psq :=
  let clear (p : Psq) (c : Fin 2) : Psq :=
    if p.body[c].1 ≤ target ∧ target ≤ p.body[c].2 then p else { p with lc := upd p.lc c fun _ => 0 }
  { clear (clear p 0) 1 with pc := p.profStart + target }

/-- PSQ_k begins the profile's END block in the step `t`: DECAY, at the pins at `tp`, the release threshold in DAC_LO,
V_BST latched. -/
def Dev.beginEnd (e : Env) (k : Fin 4) (t tp : Ns) (d : Dev) : Dev :=
  let q := (d.bank k).psq
  let pc := q.profStart + q.profLen - 1
  let (w, bad, d) := d.fetchPsq e k pc
  if bad then d
  else
    let (steps, b1) := psqTime q.args w
    let (thr, b2) := psqThr q.args (fld w 14 3) (fld w 4 10)
    (((d.modBank k fun b => { b with vBst := d.bst.volt, sumCodes := 0, endSamples := 0 }).modPsq k fun p =>
      { p.jumpTo (p.profLen - 1) with
        phase := .waitEnd (t + 4 * max 1 steps), stepAt := t, endAt := some t, last := { p.last with flags := p.flags } }).dacLo k thr).drive k .decay tp
      |>.argBad k (b1 || b2)

/-- BANK_STAT.SAFE_ENDS: a safe end that reaches a busy bank (R173). -/
def Dev.countSafeEnd (k : Fin 4) (d : Dev) : Dev := d.modBank k fun b => { b with safeEnds := b.safeEnds + 1 }

/-- A safe end that reaches a bank (R162, R191). `none`: the bank is idle or its END block runs already, or its end edge
was issued; the answer says whether the event was ended, and whether before its start edge reached the pin. -/
def Dev.bankSafeEnd (e : Env) (k : Fin 4) (d : Dev) : Option Bool × Dev :=
  let b := d.bank k
  let q := b.psq
  if b.owner != .none && q.last.early && !q.last.safe && q.endAt.any (fun x => decide (d.dtime < x + 4)) then
    -- in the step of the profile's own arrival at END (R192)
    (some false, (d.countSafeEnd k).modPsq k fun p => { p with last := { p.last with safe := true } })
  else if b.owner = .none then (none, d)
  else if q.endAt.isSome ∨ q.te ≤ d.dtime + 32 then (none, d.countSafeEnd k)
  else if d.dtime < q.ts then
    (some true, d.modBank k fun b =>
      { b with sw := .decay, hsb := b.hsb.set false d.dtime false, hsv := b.hsv.set false d.dtime false
               fw := b.fw.set false d.dtime false, lsPins := b.lsPins.map (·.set false d.dtime false)
               owner := .none, ls := 0, events := b.events - 1, safeEnds := b.safeEnds + 1
               psq := { b.psq with phase := .idle, runs := b.psq.runs - 1 } })
  else
    let d := (d.countSafeEnd k).modPsq k fun p => { p with last := { p.last with safe := true } }
    (some false, d.beginEnd e k d.dtime (d.dtime + 32))

/-- Recovered energy in µJ: V_BST times the charge of the END block's samples (R160). -/
def Bank.eRec (b : Bank) : Nat :=
  if b.rsh = 0 then 0 else b.vBst * b.sumCodes * 50000 / (409600 * b.rsh)

/-! ### Ignition (R209) -/

def Ign.ramp (g : Ign) : Nat := fld g.cfg 8 8 * 10000

/-- A soft shutdown begins: delivered dwell, and the end of the ramp. -/
def Dev.softShutdown (n : Fin 16) (d : Dev) : Dev :=
  let g := d.ign[n]
  let d := d.modPart g.owner fun p => { p with dwell := d.dtime - g.dwellAt, soft := true }
  d.modIgn n fun g => { g with soft := true, rampEnd := d.dtime + g.ramp, softEnds := g.softEnds + 1 }

/-- IGN_LAST of the event that leaves an output (R220). -/
def ignFlags (dp short maxd soft sLate : Bool) : BitVec 5 :=
  BitVec.ofNat 5 (dp.toNat + 2 * short.toNat + 4 * maxd.toNat + 8 * soft.toNat + 16 * sLate.toNat)

def Dev.ignLast (n : Fin 16) (dwell : Nat) (dp : Bool) (p : Part) (d : Dev) : Dev :=
  d.modIgn n fun g => { g with lastDwell := BitVec.ofNat 32 (satN (2 ^ 32 - 1) dwell)
                               lastFlags := ignFlags dp p.short p.maxd p.soft p.sLate }

end Sys2Proof.Machine
end

