-- ==== Sys2Proof/Machine/Loft.lean ====
section
/-! DEFINITION. Events, descriptors and boxes: the endings, the flushes and the results (chapter 5, R129, R130, R216,
R217, R191). -/

namespace Sys2Proof.Machine

/-- DUR_A as a box uses it. -/
def allBoxes : List (Fin 128) := List.finRange 128

def Dev.descr (d : Dev) (i : Nat) : Option Descr := sget none (d.loft.descrs.map fun x => (x.1, some x.2)) i

/-- A descriptor written, in index order. -/
def descrPut (l : List (Nat × Descr)) (i : Nat) (x : Descr) : List (Nat × Descr) :=
  match l with
  | [] => [(i, x)]
  | (k, y) :: t => if i < k then (i, x) :: (k, y) :: t else if i = k then (i, x) :: t else (k, y) :: descrPut t i x

def Dev.modLoft (f : Loft → Loft) (d : Dev) : Dev := { d with loft := f d.loft }

def Dev.putDescr (i : Nat) (x : Descr) (d : Dev) : Dev := d.modLoft fun l => { l with descrs := descrPut l.descrs i x }

/-- The box's event counts as committed: its first edge is fixed (R141). -/
def Box.committed (x : Box) : Bool := if x.first.present then x.first.fixed else x.a.fixed

/-- The event of a descriptor counts as committed. -/
def Dev.committed (d : Dev) (i : Nat) : Bool :=
  match d.descr i with
  | some x => x.state == .inBox && (d.box (Fin.ofNat 128 x.box)).committed
  | none => false

/-- Its twin's descriptor is freed: the event has no partner any longer (R122, R126). -/
def Event.widow (i : Nat) (done : Bool) (e : Event) : Event :=
  if e.partner = some i then { e with partner := none, pairDone := e.pairDone || done } else e

/-- A descriptor is set FREE. -/
def Dev.freeDescr (i : Nat) (d : Dev) : Dev :=
  let done := d.committed i
  d.modLoft fun l =>
  { l with descrs := (l.descrs.filter (·.1 != i)).map fun x => (x.1, { x.2 with ev := x.2.ev.widow i done })
           boxes := l.boxes.map fun (x : Box) => { x with ev := x.ev.widow i done }
           spent := if l.spent.contains i then l.spent else i :: l.spent }

def Dev.modDescr (i : Nat) (f : Descr → Descr) (d : Dev) : Dev :=
  d.modLoft fun l => { l with descrs := l.descrs.map fun x => if x.1 = i then (x.1, f x.2) else x }

/-- Boxes not FREE (BOX_STAT.BUSY). -/
def Dev.boxBusy (d : Dev) : Nat := (allBoxes.filter fun b => (d.box b).state != .free).length

/-- Peaks of box and loft use (R152, R273). -/
def Dev.notePeaks (d : Dev) : Dev :=
  d.modLoft fun l =>
    let b := d.boxBusy
    let u := l.descrs.length
    { l with boxPeak := BitVec.ofNat 8 (max l.boxPeak.toNat b), cycBoxPeak := max l.cycBoxPeak b
             peak := BitVec.ofNat 12 (max l.peak.toNat u), cycLoftPeak := max l.cycLoftPeak u }

/-- Control coordinate of the unit that executes an event (R15, R151). A PIO event acts on lines, and the channels of the
PIO unit are machines: the coordinate names the whole unit (DESIGN CHOICE, assumption 58; unsafe for a claim about the
CTRL of a PIO event). -/
def Event.unit (e : Event) : BitVec 16 :=
  match e.type with
  | .di => ctrl 3 (e.output / 4) (e.output % 4)
  | .pfi => ctrl 3 5 e.output
  | .ign => ctrl 3 6 e.output
  | .gate => ctrl 3 7 e.output
  | .sample => ctrl 5 e.output (fld e.typeArg 0 4)
  | .calc => ctrl 4 e.output 0xFF
  | .capt => ctrl 7 1 0xFF
  | .pio => ctrl 0 5 0xFF

/-! ### Disabled objects (R148, R389) -/

def Dev.diagBit (d : Dev) (i : Nat) : Bool := bit d.diag.disabled i

/-- Bit of DIAG_DISABLED or FLT_DIS for an output key (R389). -/
def Dev.keyDisabled (d : Dev) (t : EvType) (n : Nat) : Bool :=
  match t with
  | .di => bit d.diag.disabled n
  | .pfi => bit d.diag.disabled (32 + n)
  | .ign => bit d.flt.dis (16 + n)
  | .gate => bit d.flt.dis (32 + n)
  | .sample => bit d.flt.dis (40 + n)
  | .calc => bit d.flt.dis (42 + n)
  | .capt => bit d.flt.dis 50
  | .pio => bit d.flt.dis (51 + n)

def Dev.bankDisabled (d : Dev) (k : Nat) : Bool := bit d.diag.disabled (16 + k)

def Dev.cylDisabled (d : Dev) (c : Nat) : Bool := decide (c < 16) && bit d.flt.dis c

/-- The source whose reaction disabled an object, the latest one (R148). -/
def Dev.disSource (d : Dev) (k : DisKey) : Nat := ((d.flt.disSrc.find? (·.1 == k)).map (·.2)).getD 0

/-- The source that stands against an event: its output key's, then its bank's, then its cylinder's (R148). -/
def Dev.disabledBy (d : Dev) (e : Event) : Option Nat :=
  if d.keyDisabled e.type e.output then some (d.disSource (.output e.type e.output))
  else if e.type == .di && d.bankDisabled (e.output / 4) then some (d.disSource (.bank (e.output / 4)))
  else if d.cylDisabled e.cyl then some (d.disSource (.cyl e.cyl))
  else none

/-! ### Endings -/

/-- A box closes with an ending; its residual is none unless it is known already (R99). -/
def Dev.closeBox (b : Fin 128) (x : Ending) (d : Dev) : Dev :=
  d.modBox b fun y => { y with state := .closing, ending := some x, resid := some (y.resid.getD none) }

/-- A fixed spark is due in this clock and not issued yet: a decision of the same clock finds it issued (R214, R216). -/
def Dev.sparkDue (o : Owner) (d : Dev) : Bool :=
  match o with
  | .box b =>
    let x := d.box b
    x.ev.type == .ign && x.first.issued && x.a.fixed && !x.a.issued && decide (x.a.time ≤ d.dtime + 32)
  | .template i => match d.sup.templates[i]? with
    | some x => (match x.due with | some (t, false) => decide (t ≤ d.dtime + 32) | _ => false)
    | none => false
  | _ => false

/-- An output withdraws an edge that has not reached its pin, or ends safely (R162, R171, R191, R216, R217). Answers
none when the event counts as executed, else whether it ends unstarted. -/
def Dev.endOutput (e : Env) (o : Owner) (ev : Event) (d : Dev) : Option Bool × Dev :=
  let now := d.dtime
  let n := ev.output
  match ev.type with
  | .di => d.bankSafeEnd e (diBank n)
  | .pfi =>
    let n := Fin.ofNat 16 n
    let p := d.pfi[n]
    if now < p.pin.since then
      (some true, (d.modPart o fun q => { q with wasOn := false }).modPfi n fun p =>
        { p with pin := p.pin.set false now false, owner := .none, events := p.events - 1
                 measOn := p.measOn.filter (· != p.pin.since) })
    else
      let d := d.modPfi n fun p =>
        { p with pin := p.pin.set false now false, owner := .none, offAt := now, lastOff := some now
                 measOff := p.measOff ++ [now]
                 safeEnds := p.safeEnds + 1 }
      (some false, d.modPart o fun q => { q with offEdge := now })
  | .ign =>
    let n := Fin.ofNat 16 n
    let g := d.ign[n]
    if now < g.pin.since then
      (some true, d.modIgn n fun g => { g with pin := g.pin.set false now false, owner := .none, tag := 0 })
    else if g.soft then (some false, d)
    else
      let d := d.softShutdown n
      (some false, d.ignLast n (now - g.dwellAt) ev.dwellPri
        (match o with | .box b => (d.box b).part | _ => { soft := true }))
  | .gate =>
    let n := Fin.ofNat 8 n
    let g := d.gate[n]
    if now < g.pin.since then
      (some true, d.modGate n fun g => { g with pin := g.pin.set false now false, owner := .none, windows := g.windows - 1 })
    else
      let d := d.modPart o fun q => { q with openLen := now - (match o with | .box b => (d.box b).started.getD g.pin.since | _ => g.pin.since) }
      (some false, d.modGate n fun g => { g with pin := g.pin.set false now false, owner := .none })
  | _ => (none, d)

/-- Order of the endings that fall in one clock (R130). -/
def EvResult.rank : EvResult → Nat
  | .endedFault => 0 | .endedSync => 1 | .endedMode => 2 | _ => 3

/-- An ending whose result has not been written gives way to one of the same clock that R130 puts before it. -/
def Ending.outrank (res : EvResult) (reason : Nat) (now : Ns) (x : Ending) : Ending :=
  if x.time = now ∧ res.rank < x.result.rank then { x with result := res, reason := reason } else x

/-- The event of a box ends with a code, unless it counts as executed (R143, R148). -/
def Dev.endBox (e : Env) (b : Fin 128) (res : EvResult) (reason : Nat) (d : Dev) : Dev :=
  let x := d.box b
  let boxCtrl := ctrl 2 3 b.val
  match x.state with
  | .armed | .committed =>
    d.closeBox b { result := res, reason := reason, unstarted := true, time := d.dtime, ctrl := boxCtrl }
  | .active =>
    if x.executed || d.sparkDue (.box b) then d
    else
      match d.endOutput e (.box b) x.ev with
      | (none, d) => d
      | (some u, d) =>
        d.closeBox b { result := res, reason := reason, unstarted := u, time := d.dtime
                       ctrl := if u then boxCtrl else x.ev.unit }
  | .closing => d.modBox b fun y => { y with ending := y.ending.map (·.outrank res reason d.dtime) }
  | .free => d

/-- A descriptor that waits in the loft ends unstarted and goes to ENDING (R148). -/
def Descr.endWith (x : Ending) (y : Descr) : Descr :=
  match y.state with
  | .waiting => { y with state := .ending, ending := x }
  | .ending => { y with ending := y.ending.outrank x.result x.reason x.time }
  | .inBox => y

def Dev.endWaiting (i : Nat) (x : Ending) (d : Dev) : Dev := d.modDescr i (Descr.endWith x)

/-- A flush of R148: every event of a set ends in one clock. -/
def Dev.flush (e : Env) (sel : Event → Bool) (res : EvResult) (reason : Nat) (d : Dev) : Dev :=
  let d := allBoxes.foldl (init := d) fun d b => if sel (d.box b).ev then d.endBox e b res reason else d
  d.modLoft fun l =>
    { l with
      flushes := l.flushes + 1
      descrs := l.descrs.map fun y =>
        if sel y.2.ev then
          (y.1, y.2.endWith { result := res, reason := reason, unstarted := true, time := d.dtime, ctrl := ctrl 2 2 0xFF })
        else y }

/-- No box waits for a tooth any longer: residuals that are not known are none (R61, R99). -/
def Dev.dropResiduals (d : Dev) : Dev :=
  d.modLoft fun l => { l with boxes := l.boxes.map fun x =>
    if x.state = .free then x else { x with resid := some (x.resid.getD none) } }

/-- The fields of an event that its descriptor's uncorrectable words make unreadable are 0 (R150). -/
def Event.blank (bad : List Nat) (e : Event) : Event :=
  let e := if bad.contains 0 then { e with cyl := 0, prio := 0, isEnd := false, dwellPri := false, twin := false
                                           source := 0, tag := 0, cycle := 0 } else e
  let e := if bad.contains 1 then { e with angleA := 0, angleB := 0, durA := 0, durB := 0 } else e
  if bad.contains 2 then { e with typeArg := 0, profArg := 0 } else e

/-! ### Results (R129, R144, R151, R271, R272) -/

/-- The result code of an event: an ending's code, else DIAG before DONE_LATE before DONE (R130). -/
def resultOf (ending : Option Ending) (late : Bool) (dclass : BitVec 16) : EvResult :=
  match ending with
  | some x => x.result
  | none => if dclass ≠ 0 then .diag else if late then .doneLate else .done

def DiPart.words (p : DiPart) (dclass : BitVec 16) : List W64 :=
  [ put 0 32 p.tEndCmd ||| put 32 32 p.endLen,
    put 0 32 p.tPeak ||| put 32 32 p.eRec,
    put 0 32 p.mark0 ||| put 32 32 p.mark1,
    put 0 12 p.peak ||| put 12 12 p.sample0 ||| put 24 12 p.sample1 ||| put 36 5 p.profile ||| putB 41 p.early
      ||| putB 42 p.argBad ||| putB 43 p.endTo ||| putB 44 p.safe ||| putB 45 p.preempt ||| put 46 8 p.flags.toNat,
    put 0 16 (satN 65535 p.chopCnt) ||| put 16 16 dclass.toNat ]

/-- The type part of a result (R272). -/
def Part.words (ev : Event) (p : Part) : List W64 :=
  match ev.type with
  | .di => p.di.words p.dclass
  | .pfi =>
    [ put 0 64 p.offEdge,
      put 0 16 (p.donDly.getD 0) ||| put 16 16 (p.doffDly.getD 0) ||| put 32 16 p.dclass.toNat ||| putB 48 p.noOn
        ||| putB 49 p.noOff ]
  | .ign =>
    [ put 0 32 p.dwell ||| putI 32 32 p.sparkOfs,
      put 0 5 (ignFlags ev.dwellPri p.short p.maxd p.soft p.sLate).toNat ]
  | .gate => [ put 0 32 p.openLen ]
  | .sample =>
    [ put 0 4 (fld ev.typeArg 0 4) ||| put 4 4 (fld ev.typeArg 4 4) ||| put 8 16 p.seq ||| put 24 3 p.qpos ||| putB 27 p.lost ]
  | .calc => [ put 0 13 (fld ev.typeArg 0 13) ||| put 16 5 p.qdepth ||| putB 21 p.qfull ]
  | .capt => [ put 0 16 p.snapNum ]
  | .pio => []

/-- The residual field: 0x8000_0000 means none (R99). -/
def residField (r : Option Int) : Nat :=
  match r with
  | none => 0x80000000
  | some x => ((clampI (-2147483647) 2147483647 x) % 4294967296).toNat

/-- The EVENT record of a result (R271, R272). `loft` is the descriptor index. -/
def eventRec (half : Bool) (ev : Event) (loft : Nat) (ending : Option Ending) (late : Bool) (resid : Option Int)
    (time : Ns) (unit : BitVec 16) (p : Part) : Rec :=
  let res := resultOf ending late p.dclass
  let x := ending.getD {}
  { type := 4
    tflags := BitVec.ofNat 8 x.reason
    memErr := x.memErr
    evType := ev.type.code
    dtime := time
    body :=
      [ put 0 32 ev.tag.toNat ||| put 32 32 (residField resid),
        put 0 22 (ev.angleA / 1024) ||| put 22 8 ev.cycle.toNat ||| put 30 4 res.code ||| put 34 4 ev.type.code
          ||| put 38 5 ev.cyl ||| putB 43 half ||| put 44 16 unit.toNat ||| putB 60 ev.twin ||| putB 61 late
          ||| putB 62 x.unstarted ||| putB 63 x.guard ]
    ext :=
      [ put 0 32 ev.angleA ||| put 32 32 ev.cycle.toNat,
        put 0 8 ev.output ||| put 8 4 ev.prio ||| put 12 4 ev.source ||| put 16 11 loft ] ++ p.words ev }

/-- Counts of the cycle in progress (R273). -/
def Dev.countResult (res : EvResult) (resid : Option Int) (d : Dev) : Dev :=
  d.modLoft fun l =>
    { l with
      cycDone := if res = .done then l.cycDone + 1 else l.cycDone
      cycLate := if res = .doneLate then l.cycLate + 1 else l.cycLate
      cycEnded := if res = .endedSync ∨ res = .endedFault ∨ res = .endedMode then l.cycEnded + 1 else l.cycEnded
      cycResid := match resid with | some r => max l.cycResid r.natAbs | none => l.cycResid }

/-- The type part as it stands when the result is written: a bank that the box still holds keeps it in PSQ_k. -/
def Dev.partOf (d : Dev) (b : Fin 128) : Part :=
  let x := d.box b
  if x.ev.type == .di && (d.bank (diBank x.ev.output)).owner == .box b then
    { x.part with di := (d.bank (diBank x.ev.output)).psq.last }
  else x.part

/-- An output that still finishes goes on without the box. -/
def Dev.detach (b : Fin 128) (d : Dev) : Dev :=
  let n := (d.box b).ev.output
  match (d.box b).ev.type with
  | .di => d.modBank (diBank n) fun x => { x with owner := if x.owner = .box b then .ended else x.owner }
  | .pfi => d.modPfi (Fin.ofNat 16 n) fun x =>
      { x with owner := if x.owner = .box b then .ended else x.owner }
  | .ign => d.modIgn (Fin.ofNat 16 n) fun x => { x with owner := if x.owner = .box b then .ended else x.owner }
  | .gate => d.modGate (Fin.ofNat 8 n) fun x => { x with owner := if x.owner = .box b then .ended else x.owner }
  | _ => d

/-- A result is ready to be written (R144). -/
def Dev.resultReady (d : Dev) (b : Fin 128) : Bool :=
  let x := d.box b
  x.state == .closing && x.resid.isSome && (x.complete || x.ending.isSome)
    && (!(x.ev.type == .pfi && x.part.wasOn) || (x.part.donDly.isSome && x.part.doffDly.isSome))

/-- The record of a box's result, presented to REC; BOX_LAST takes the code and the tag. -/
def Dev.reportBox (b : Fin 128) (ending : Option Ending) (resid : Option Int) (d : Dev) : Dev :=
  let x := d.box b
  let p := d.partOf b
  let ev := if ending.any (·.memErr) then x.ev.blank (((d.descr x.loft).map (·.bad)).getD []) else x.ev
  let time := match x.started, ending with
    | some t, some y => if y.unstarted then y.time else t
    | some t, none => t
    | none, some y => y.time
    | none, none => d.dtime
  let unit := match ending with | some y => y.ctrl | none => x.ev.unit
  let res := resultOf ending x.late p.dclass
  d.present (eventRec d.half ev x.loft ending x.late resid time unit p)
  |>.countResult res resid
  |>.modBox b fun y => { y with lastResult := BitVec.ofNat 4 res.code, lastTag := ev.tag }

/-- The box is set FREE, and keeps only what BOX_LAST and GEN show. -/
def Box.release (x : Box) : Box := { gen := x.gen, lastResult := x.lastResult, lastTag := x.lastTag }

/-- The result of a CLOSING box (R144). -/
def Dev.writeBox (b : Fin 128) (d : Dev) : Dev :=
  if d.resultReady b then
    let x := d.box b
    ((d.reportBox b x.ending (x.resid.getD none)).detach b).freeDescr x.loft |>.modBox b Box.release
  else d

/-- The results of every box up to an index that are ready, in ascending order (R144, R145, R148): those before it in the
train have gone first. -/
def Dev.writeBoxes (b : Fin 128) (d : Dev) : Dev :=
  (allBoxes.filter fun x => x ≤ b && d.resultReady x).foldl (init := d) fun d x => d.writeBox x

/-- The result of a descriptor in ENDING (R148). -/
def Dev.writeEnding (i : Nat) (d : Dev) : Dev :=
  match d.descr i with
  | some y =>
    if y.state = .ending then
      let ev := if y.ending.memErr then y.ev.blank y.bad else y.ev
      d.present (eventRec d.half ev i (some y.ending) false none y.ending.time y.ending.ctrl {})
      |>.countResult y.ending.result none
      |>.freeDescr i
    else d
  | none => d

/-- The results of the descriptors in ENDING up to an index, after those of the boxes (R148). -/
def Dev.writeEndings (i : Nat) (d : Dev) : Dev :=
  let d := d.writeBoxes 127
  (d.loft.descrs.filter fun x => decide (x.1 ≤ i) && x.2.state == .ending).foldl (init := d) fun d x => d.writeEnding x.1

/-- Execution of a box's event is complete (R142, R143). -/
def Dev.completeBox (b : Fin 128) (d : Dev) : Dev :=
  d.modBox b fun x => if x.state = .active then { x with state := .closing, executed := true, complete := true }
                      else { x with executed := true, complete := true }

/-- The event still holds its output when its last commanded edge is issued (R143). -/
def Dev.executedBox (o : Owner) (d : Dev) : Dev :=
  match o with
  | .box b => d.modBox b fun x => { x with executed := true }
  | _ => d

end Sys2Proof.Machine
end

