-- ==== Sys2Proof/Machine/Matrix.lean ====
section
/-! DEFINITION. The triggers of the calculation engines (R242, R244), and the timer units with the trigger matrix (R283 to
R292), of which the pins of the PIO block are sources. What follows from a tick or an edge along chains of units happens
in the same command (R288). The commands and registers are in `Timers`. -/

namespace Sys2Proof.Machine

def Dev.modCe (k : Fin 8) (f : Ce → Ce) (d : Dev) : Dev := { d with ce := upd d.ce k f }
def Dev.modSup (f : Sup → Sup) (d : Dev) : Dev := { d with sup := f d.sup }
def Dev.modTmu (u : Fin 8) (f : Tmu → Tmu) (d : Dev) : Dev := { d with tmu := upd d.tmu u f }
def Tmu.modCh (c : Fin 4) (f : Chan → Chan) (t : Tmu) : Tmu := { t with ch := upd t.ch c f }

/-- Modes in which the engines run (R245). -/
def Mode.engines : Mode → Bool
  | .waitSync | .crank | .run | .limp | .afterrun | .service => true
  | _ => false

/-! ### Calculation triggers (R242, R244) -/

/-- Trigger entry `i` of engine `k` (R242). -/
def Dev.trigWord (d : Dev) (k : Fin 8) (i : Nat) : W64 := (d.ces.trig.toList[32 * k.val + i]?).getD 0

/-- Order of two triggers of engine `k`: arrival, then ascending KIND, then ascending entry index. -/
def Dev.trigBefore (d : Dev) (k : Fin 8) (x y : Trigger) : Bool :=
  let key (x : Trigger) : Nat := 32 * fld (d.trigWord k x.entry) 0 3 + x.entry
  decide (x.arrival < y.arrival) || (x.arrival == y.arrival && decide (key x ≤ key y))

/-- A trigger that arrives at an engine at `at_`: queued in its order, or the last in that order is discarded when 16
wait. -/
def Dev.trigger (k : Fin 8) (list entry deadlineUs : Nat) (at_ : Ns) (d : Dev) : Dev :=
  if !d.sup.mode.engines || !bit d.ce[k].cfg 0 then d
  else
    let x : Trigger := { list := list, entry := entry, arrival := at_, deadline := deadlineUs * 1000 }
    let q := d.ce[k].queue
    let all := q.takeWhile (fun y => d.trigBefore k y x) ++ x :: q.dropWhile (fun y => d.trigBefore k y x)
    let d := d.modCe k fun c => { c with queue := all.take 16, qhwm := max c.qhwm (min 16 all.length) }
    if 16 < all.length then
      d.modCe k (fun c => { c with trigLost := true, trigLosts := c.trigLosts + 1 })
      |>.raise { source := 16, ctrl := ctrl 4 k.val 0xFF, coord := d.noEvent }
    else d

/-- Every entry of one kind whose source field answers `match_`: queued in ascending entry index. -/
def Dev.fire (kind : Nat) (src : Nat → Bool) (d : Dev) : Dev :=
  (List.finRange 8).foldl (init := d) fun d k =>
    (List.range 32).foldl (init := d) fun d i =>
      let w := d.trigWord k i
      if fld w 0 3 = kind ∧ src (fld w 3 13) = true then d.trigger k (fld w 16 13) i (fld w 32 16) d.dtime else d

/-! ### Fields of the timer units -/

def Tmu.clk (t : Tmu) : Bool := bit t.cfg 0
def Tmu.slave (t : Tmu) : Nat := fld t.cfg 2 2
def Tmu.src (t : Tmu) : Nat := fld t.cfg 8 6
def Chan.mode (c : Chan) : Nat := fld c.cfg 0 2

/-- One tick of the prescaled reference in ns (R284). -/
def Tmu.period (t : Tmu) : Nat := 25 * (fld t.cfg 16 16 + 1)

/-- The unit that clocks or resets another one. -/
def Tmu.master (cfg : W64) : Option Nat :=
  let code := fld cfg 8 6
  if bit cfg 0 || fld cfg 2 2 == 2 then
    if code < 8 then some code else if code < 40 then some ((code - 8) / 4) else none
  else none

/-! ### Pins and sources (R286, R292, R296) -/

/-- Channel of a source code from 8 to 39. -/
def Dev.srcChan (d : Dev) (code : Nat) : Option Chan := (d.tmu.toList.flatMap fun t => t.ch.toList)[code - 8]?

/-- The channel that drives a pin, if one does. -/
def Dev.pinChan (d : Dev) (n : Nat) : Option Chan :=
  (d.tmu.toList.flatMap fun t => t.ch.toList).find? fun c => bit c.cfg 5 && fld c.cfg 6 4 == n

/-- OUT of the channel that drives a pin, if one does. -/
def Dev.tmuPin (d : Dev) (n : Nat) : Option Bool := (d.pinChan n).map fun c => c.out

/-- The block drives a pin. -/
def Dev.pinDriven (d : Dev) (n : Nat) : Bool := (d.pinChan n).isSome || d.pios.dir.getLsbD n

/-- Level of a PIO pin. -/
def Dev.pinLevel (d : Dev) (n : Nat) : Bool :=
  match d.tmuPin n with
  | some b => b
  | none => if d.pios.dir.getLsbD n then d.pios.out.getLsbD n else d.pios.ext.getLsbD n

def Dev.pinLevels (d : Dev) : List Bool := (List.range 16).map d.pinLevel

/-- Pins that have an owner. -/
def PioShared.owned (s : PioShared) : BitVec 16 :=
  (List.range 16).foldl (init := 0) fun a n => if bit s.own (4 * n + 3) then a ||| BitVec.ofNat 16 (2 ^ n) else a

/-- Level of a source; a ZERO source has none. -/
def Dev.srcLevel (d : Dev) (code : Nat) : Bool :=
  if code < 8 then false
  else if code < 40 then match d.srcChan code with | some c => c.out | none => false
  else if code < 56 then d.pinLevel (code - 40)
  else d.snap.inLevel

/-- When the OUT that a source shows last changed. -/
def Dev.srcSince (d : Dev) (code : Nat) : Option Ns :=
  (if code < 40 then d.srcChan code else if code < 56 then d.pinChan (code - 40) else none).map fun c => c.outAt

/-! ### Counting (R283, R287) -/

def Tmu.load (t : Tmu) : Tmu := { t with cnt := t.reload - 1 }

/-- Every compare channel is armed. -/
def Tmu.arm (t : Tmu) : Tmu := { t with ch := t.ch.map fun (c : Chan) => if c.mode = 1 then { c with armed := true } else c }

def Dev.tmuReset (u : Fin 8) (d : Dev) : Dev :=
  d.modTmu u fun t => if t.running then { t.load.arm with resetAt := some d.dtime } else t

/-- The channel's event (R291): ACT on OUT, EVT, EVENTS, the CE triggers of kind 2, and the wake. -/
def Dev.chanEvent (u : Fin 8) (c : Fin 4) (d : Dev) : Dev :=
  let x := d.tmu[u].ch[c]
  let out := match fld x.cfg 2 2 with | 1 => true | 2 => false | 3 => !x.out | _ => x.out
  let d := d.modTmu u (Tmu.modCh c fun x =>
    { x with out := out, outAt := if out = x.out then x.outAt else d.dtime, evt := true, events := x.events + 1 })
  let d := d.fire 2 fun s => s % 8 == u.val && s / 8 % 4 == c.val
  if bit x.cfg 4 && d.sup.mode == .bivouac then d.modSup fun s => { s with wakeReq := s.wakeReq ||| 2 } else d

/-- An armed channel is reached (R289). -/
def Tmu.reached (t : Tmu) (c : Fin 4) : Bool :=
  let x := t.ch[c]
  x.mode == 1 && x.armed && decide ((x.val - t.cnt).toNat < 2 ^ 31)

/-- A channel fires and is disarmed. -/
def Dev.fireCh (u : Fin 8) (c : Fin 4) (d : Dev) : Dev :=
  (d.modTmu u (Tmu.modCh c fun x => { x with armed := false, firedAt := some d.dtime })).chanEvent u c

/-- A gate lets ticks through (R287). -/
def Dev.gateOpen (d : Dev) (t : Tmu) : Bool := t.clk || t.slave != 1 || d.srcLevel t.src != bit t.cfg 4

/-- One tick of a unit: the source codes of the events that it gives, and the device after it. In the clock of a reset
there is no tick (R287). -/
def Dev.tickUnit (u : Fin 8) (d : Dev) : List Nat × Dev :=
  let t := d.tmu[u]
  if !t.running || !d.gateOpen t || t.resetAt == some d.dtime then ([], d)
  else
    let zero := t.cnt == 0
    let d := d.modTmu u fun t =>
      let t := if zero then { t.load.arm with zero := true, zeros := t.zeros + 1 } else { t with cnt := t.cnt - 1 }
      { t with tickedAt := some d.dtime }
    (List.finRange 4).foldl (init := (if zero then [u.val] else [], d)) fun acc c =>
      if acc.2.tmu[u].reached c then (acc.1 ++ [8 + 4 * u.val + c.val], acc.2.fireCh u c) else acc

/-- The tick of the prescaled reference, if it is due; the prescaler runs on under a gate (R284, R287). -/
def Dev.refTick (u : Fin 8) (d : Dev) : List Nat × Dev :=
  let t := d.tmu[u]
  if !t.running || t.clk || decide (d.dtime + d.sup.dstep < t.from_ + t.period) then ([], d)
  else (d.modTmu u fun t => { t with from_ := t.from_ + t.period }).tickUnit u

/-! ### Capture (R290) -/

def Dev.capture' (u : Fin 8) (c : Fin 4) (first : Ns) (d : Dev) : Dev :=
  let cnt := d.tmu[u].cnt
  (d.modTmu u (Tmu.modCh c fun x =>
    { x with val := cnt, capt := first / 25 * 25, capOvr := x.capOvr || x.unread, unread := true, edges := 0 })).chanEvent u c

/-- An edge accepted at a capture channel, whose first sample was at `first`: passed or not by the edge selection and the
prescaler. A ZERO event has no polarity and passes as an edge of either (DEDUCED; assumption 63). -/
def Dev.acceptEdge (u : Fin 8) (c : Fin 4) (rising : Option Bool) (first : Ns) (d : Dev) : List Nat × Dev :=
  let d := d.modTmu u (Tmu.modCh c fun x => { x with accAt := some first })
  let x := d.tmu[u].ch[c]
  let sel := fld x.cfg 16 2
  if (sel = 0 ∧ rising = some false) ∨ (sel = 1 ∧ rising = some true) then ([], d)
  else if x.edges < fld x.cfg 22 8 then ([], d.modTmu u (Tmu.modCh c fun x => { x with edges := x.edges + 1 }))
  else ([8 + 4 * u.val + c.val], d.capture' u c first)

/-- A ZERO event at the capture channels that name it. -/
def Dev.zeroCapture (code : Nat) (d : Dev) : List Nat × Dev :=
  (List.finRange 8).foldl (init := ([], d)) fun acc u => (List.finRange 4).foldl (init := acc) fun acc c =>
    let x := acc.2.tmu[u].ch[c]
    if code < 8 ∧ x.mode = 2 ∧ fld x.cfg 10 6 = code then
      let (l, d) := acc.2.acceptEdge u c none acc.2.dtime
      (acc.1 ++ l, d)
    else acc

/-! ### Chains (R287, R288) -/

/-- Events pass along chains of units in the clock in which they arise (R288). No chain is longer than the units are
many, since a loop cannot be written (R287). -/
def Dev.tmuEvents : Nat → List Nat → Dev → Dev
  | 0, _, d => d
  | n + 1, codes, d =>
    match codes with
    | [] => d
    | _ =>
      let (next, d) := codes.foldl (init := (([] : List Nat), d)) fun acc code =>
        let acc := (List.finRange 8).foldl (init := acc) fun acc w =>
          let t := acc.2.tmu[w]
          if t.src ≠ code then acc
          else if t.clk then
            let (l, d) := acc.2.tickUnit w
            (acc.1 ++ l, d)
          else if t.slave = 2 then (acc.1, acc.2.tmuReset w)
          else acc
        let (l, d) := acc.2.zeroCapture code
        (acc.1 ++ l, d)
      Dev.tmuEvents n next d

/-- The ticks due in this clock at the units that reset unit `u`, first of all. -/
def Dev.mastersFirst : Nat → Fin 8 → Dev → Dev
  | 0, _, d => d
  | n + 1, u, d =>
    match Tmu.master d.tmu[u].cfg with
    | some m =>
      let m := Fin.ofNat 8 m
      let (l, d) := (d.mastersFirst n m).refTick m
      d.tmuEvents 9 l
    | none => d

/-- A pin or SNAP_IN changes level: the units that the edge clocks or resets (R284, R287). -/
def Dev.tmuLevel (code : Nat) (rising : Bool) (d : Dev) : Dev :=
  (List.finRange 8).foldl (init := d) fun d w =>
    let t := d.tmu[w]
    if t.src ≠ code ∨ bit t.cfg 1 ≠ !rising then d
    else if t.clk then
      let (l, d) := d.tickUnit w
      d.tmuEvents 9 l
    else if t.slave = 2 then d.tmuReset w
    else d

/-- The edges of pins that have moved from `before`, and of those that these edges move in turn. -/
def Dev.pinEdges : Nat → List Bool → Dev → Dev
  | 0, _, d => d
  | n + 1, before, d =>
    let now := d.pinLevels
    if now = before then d
    else
      Dev.pinEdges n now <| (List.range 16).foldl (init := d) fun d i =>
        match before[i]?, now[i]? with
        | some a, some b => if a = b then d else d.tmuLevel (40 + i) b
        | _, _ => d

/-- What follows from the pins that a change of the device moves. A unit that a pin of its own chain would clock for ever
moves it sixteen times at most (DESIGN CHOICE; assumption 63). -/
def Dev.watchPins (f : Dev → Dev) (d : Dev) : Dev := (f d).pinEdges 16 d.pinLevels

/-- The level of a pin as driven from outside, as a command shows it. -/
def Dev.showPin (n : Nat) (b : Bool) (d : Dev) : Dev :=
  if d.pios.ext.getLsbD n = b then d
  else
    let v : BitVec 16 := BitVec.ofNat 16 (2 ^ n)
    { d with pios := { d.pios with
        ext := if b then d.pios.ext ||| v else d.pios.ext &&& ~~~v
        extAt := upd d.pios.extAt (Fin.ofNat 16 n) fun _ => some d.dtime } }

/-- An edge of a pin from outside: its one edge of this moment if several commands show it, and else one that follows an
edge of the other polarity unseen. -/
def Dev.pinEdge (n : Nat) (b : Bool) (d : Dev) : Dev :=
  if d.pinDriven n || (d.pios.ext.getLsbD n == b && d.pios.extAt[Fin.ofNat 16 n] == some d.dtime) then d
  else (d.watchPins (Dev.showPin n (!b))).watchPins (Dev.showPin n b)

end Sys2Proof.Machine
end

