-- ==== Sys2Proof/Machine/React.lean ====
section
/-! DEFINITION. Mode changes and fault reactions on the data side (R18, R162, R163, R242, R244, R245, R365 to R369,
R388 to R391). -/

namespace Sys2Proof.Machine

def Dev.modFlt (f : Flt → Flt) (d : Dev) : Dev := { d with flt := f d.flt }

/-! ### What each mode runs (R365, R245, R166, R266, R303, R307) -/

def Mode.boost : Mode → Bool
  | .basecamp | .waitSync | .crank | .run | .limp | .service => true
  | _ => false

def Mode.converters : Mode → Bool
  | .basecamp | .waitSync | .crank | .run | .limp | .afterrun | .service | .safe => true
  | _ => false

/-- The converters run: from a power warning on they stand still (R385). -/
def Dev.convOn (d : Dev) : Bool := d.sup.mode.converters && !d.sup.warn

/-- Modes in which outputs may start an event: full service with an engine to serve, SERVICE, or basecamp. -/
def Mode.fullService : Mode → Bool
  | .waitSync | .crank | .run | .limp | .service => true
  | _ => false

/-- Modes in which the message objects act (R307). -/
def Mode.messages : Mode → Bool
  | .waitSync | .crank | .run | .limp | .afterrun | .service | .safe => true
  | _ => false

/-- Standing-event mask bit of a mode (R111). -/
def Mode.standingBit : Mode → Option Nat
  | .crank => some 32 | .run => some 33 | .limp => some 34 | _ => none

/-! ### Engines stop (R244, R245) -/

/-- A yard loses an undecided request (R244, R245). -/
def Yard.drop {n : Nat} (i : Nat) (y : Yard n) : Yard n :=
  let es := y.entries.mapIdx fun j x => if j = i then { x with waiting := false } else x
  { y with fill := y.fill - 1, entries := es, head := (i + 1) % n }

def Dev.dropRequest (k : Fin 8) (d : Dev) : Dev :=
  let c := d.ce[k]
  match c.reqEntry, c.reqRes with
  | some i, none => { d with adm := { d.adm with ce := upd d.adm.ce k (Yard.drop i) } }
  | _, _ => d

/-- An engine stops without a fault: run, staged writes, undecided request and queue are dropped (R245). -/
def Dev.stopEngine (k : Fin 8) (d : Dev) : Dev :=
  (d.dropRequest k).modCe k fun c => { c with state := .idle, queue := [], cur := none, pub := [], reqEntry := none
                                              reqRes := none, haltReq := false, stepReq := false }

/-! ### Mode change -/

/-- PIO machines stop and their queues are emptied; in LOCKED the pins they own are released (R303). -/
def Dev.stopPio (locked : Bool) (d : Dev) : Dev :=
  d.watchPins fun d =>
    { d with
      pio := d.pio.map fun m => { m with tx := [], rx := [], wait := .none, inject := none }
      pios := if locked then { d.pios with dir := d.pios.dir &&& ~~~(d.pios.owned) } else d.pios }

/-- Masked inputs of a converter in ascending number: its sequence entries (R256). -/
def Cnv.inputs (c : Cnv) : List Nat := (List.range 16).filter fun i => bit c.scan i

def Cnv.enabled (c : Cnv) : Bool := bit c.cfg 0

/-- The sequence starts at an entry, unless nothing is masked or an urgent conversion runs, which is not affected (R256,
R257, R259). -/
def Cnv.restart (on : Bool) (now : Ns) (entry : Nat) (c : Cnv) : Cnv :=
  { c with scanning := on && c.enabled && !c.inputs.isEmpty && c.urgRun.isNone && c.urgQ.isEmpty, entry := entry
           settled := false, cutAt := none, filtAt := if c.urgRun.isSome then c.filtAt else now }

/-- Slots that a converter owns (R261). -/
def Cnv.slots (c : Cnv) : List Nat :=
  (if bit c.slot 14 then c.inputs.map (fld c.slot 0 14 + ·) else []) ++ (if bit c.slot 30 then [fld c.slot 16 14] else [])

/-- A converter stops: its slots become STALE (R262). -/
def Dev.stopConverter (c : Fin 2) (d : Dev) : Dev :=
  let d := d.cnv[c].slots.foldl (init := d) fun d i => d.staleSlot i
  { d with cnv := upd d.cnv c fun x => { x with scanning := false, urgRun := none, urgQ := [] } }

/-- Converters stop, with their urgent requests dropped (R266). -/
def Dev.stopConverters (d : Dev) : Dev := (d.stopConverter 0).stopConverter 1

/-- Enabled converters start their sequences (R266). -/
def Dev.startConverters (d : Dev) : Dev := { d with cnv := d.cnv.map (Cnv.restart true d.dtime 0) }

/-- Standing events that become due on a change of mode: those whose mask holds the new mode and not the old one
(R112); `all_` for FULL or HALF entered and for the return from AFTERRUN. -/
def Dev.oweStanding (old new : Mode) (all_ : Bool) (d : Dev) : Dev :=
  match new.standingBit with
  | none => d
  | some b =>
    let due := (List.range d.adm.standing.length).filter fun i =>
      match d.adm.standing[i]? with
      | some s =>
        let mask := (s.words[1]?).getD 0
        !s.hold && bit mask b && (all_ || match old.standingBit with | some o => !bit mask o | none => true)
      | none => false
    { d with adm := { d.adm with owed := d.adm.owed ++ due.map fun i => { index := i, upTo := (d.poswAt d.dtime).1 + 2 } } }

/-- BST stops switching; an under-voltage is one only while it switches (R166, R168). -/
def Bst.halt (t : Ns) (b : Bst) : Bst := { b with phase := .idle, pin := b.pin.set false t false, uvSince := none, uvDet := false }

/-- The mode changes (R368): what the new mode does not run stops in this clock, and the lists that a mode-change
trigger names are queued. -/
def Dev.setMode (m : Mode) (d : Dev) : Dev :=
  if d.sup.mode = m then d
  else
    let old := d.sup.mode
    let d := d.modSup fun s => { s with prev := old, mode := m, tChange := d.now32 }
    let d := if !m.engines then (List.finRange 8).foldl (init := d) fun d k => d.stopEngine k else d
    let d := if !m.boost then { d with bst := d.bst.halt d.dtime } else d
    let d := if m = .locked ∨ m = .bivouac then (d.stopConverters).stopPio (m == .locked) else d
    let d := if m = .bivouac then { d with cnvs := { d.cnvs with refEn := false, refOk := false } } else d
    let d := if m.converters && !old.converters && !d.sup.warn then d.startConverters else d
    let d := if m.messages && !old.messages then { d with can := d.can.map fun (c : Can) => { c with startAt := d.dtime } } else d
    let d := d.modSup fun s =>
      { s with aliveRun := !(m == .reset || m == .fill || m == .bivouac || m == .safe || m == .locked)
                            && (s.aliveRun || m == .basecamp || m == .waitSync)
               alive := s.alive && !(m == .reset || m == .fill || m == .bivouac || m == .safe || m == .locked) }
    d.fire 5 (fun s => s % 2 ^ (m.code + 1) / 2 ^ m.code = 1)

/-! ### Basecamp outputs -/

/-- Every basecamp template that executes ends safely (R61, R371). -/
def Dev.endTemplates (e : Env) (d : Dev) : Dev :=
  (List.range d.sup.templates.length).foldl (init := d) fun d i =>
    match d.sup.templates[i]? with
    | some x =>
      if x.running && x.ev.type == .ign && d.sparkDue (.template i) then d
      else
        let d := if x.running then (d.endOutput e (.template i) x.ev).2 else d
        d.modSup fun s => { s with templates := updL s.templates i fun y => { y with running := false, due := none } }
    | none => d

/-- All of R61 but the sync state: every event ends, with its outputs. -/
def Dev.endAllEvents (e : Env) (res : EvResult) (reason : Nat) (d : Dev) : Dev :=
  (d.endTemplates e).flush e (fun _ => true) res reason

/-! ### Reactions (R389 to R391) -/

/-- Class of a fault source (R393). -/
def srcClass (s : Nat) : Nat :=
  if 1 ≤ s ∧ s ≤ 8 then 3 else if 9 ≤ s ∧ s ≤ 25 then 2 else if s = 26 then 1 else 0

/-- Reactions that a source allows (R393). -/
def srcAllowed (s : Nat) : List Nat :=
  if 1 ≤ s ∧ s ≤ 8 then [6]
  else match s with
    | 9 => [5] | 10 => [1, 2, 3, 4, 5] | 12 => [1, 2, 4, 5] | 20 => [1] | 23 => [1, 2, 4, 5]
    | _ => if 13 ≤ s ∧ s ≤ 25 then [1, 5] else []

/-- What a reaction acts on. -/
inductive ReactObj where
  | none
  | output (t : EvType) (n : Nat)
  | bank (k : Nat)
  | banks
  | cyl (c : Nat)
  | all
  deriving DecidableEq, Repr

/-- The output that a fault names: its output key, else the channel of its control coordinate (R390). -/
def FaultReq.output (r : FaultReq) : ReactObj :=
  match r.key with
  | some (t, n) => .output t n
  | none =>
    let mgr := r.ctrl.toNat / 8192
    let unit := r.ctrl.toNat / 256 % 32
    let ch := r.ctrl.toNat % 256
    if mgr ≠ 3 then .none
    else if unit < 4 then (if ch < 4 then .output .di (4 * unit + ch) else .bank unit)
    else if unit = 4 then .banks
    else if unit = 5 ∧ ch < 16 then .output .pfi ch
    else if unit = 6 ∧ ch < 16 then .output .ign ch
    else if unit = 7 ∧ ch < 8 then .output .gate ch
    else .none

/-- The reaction taken and its object, with the fall-backs of R390. -/
def FaultReq.resolve (r : FaultReq) (react : Nat) : Nat × ReactObj :=
  let out : Nat × ReactObj := match r.output with
    | .none => (1, .none)
    | .bank k => (3, .bank k)
    | .banks => (3, .banks)
    | o => (2, o)
  match react with
  | 2 => out
  | 3 =>
    match r.output with
    | .output .di n => (3, .bank (n / 4))
    | _ => out
  | 4 =>
    let c := fld r.coord 36 5
    if c < 16 then (4, .cyl c) else out
  | 5 => (5, .all)
  | 6 => (6, .all)
  | n => (n, .none)

/-- A disabled object keeps the latest source that disabled it (R148). -/
def Dev.markDisabled (k : DisKey) (src : Nat) (d : Dev) : Dev :=
  d.modFlt fun f => { f with disSrc := (k, src) :: f.disSrc.filter (·.1 != k) }

def Dev.setDiag (i : Nat) (d : Dev) : Dev := { d with diag := { d.diag with disabled := d.diag.disabled ||| putB i true } }
def Dev.setDis (i : Nat) (d : Dev) : Dev := d.modFlt fun f => { f with dis := f.dis ||| putB i true }

/-- The basecamp templates of some events end, with their outputs. -/
def Dev.endTemplatesOf (e : Env) (sel : Event → Bool) (d : Dev) : Dev :=
  (List.range d.sup.templates.length).foldl (init := d) fun d i =>
    match d.sup.templates[i]? with
    | some x =>
      if x.running && sel x.ev && !(x.ev.type == .ign && d.sparkDue (.template i)) then
        (d.endOutput e (.template i) x.ev).2.modSup fun s => { s with templates := updL s.templates i fun y =>
          { y with running := false, due := none } }
      else d
    | none => d

/-- Disable output (R389). -/
def Dev.disableOutput (e : Env) (t : EvType) (n src : Nat) (d : Dev) : Dev :=
  let d := match t with
    | .di => d.setDiag n
    | .pfi => d.setDiag (32 + n)
    | .ign => d.setDis (16 + n)
    | .gate => d.setDis (32 + n)
    | .sample => d.setDis (40 + n)
    | .calc => d.setDis (42 + n)
    | .capt => d.setDis 50
    | .pio => d.setDis (51 + n)
  let sel (x : Event) : Bool := x.type == t && x.output == n
  ((d.markDisabled (.output t n) src).endTemplatesOf e sel).flush e sel .endedFault src
/-- Disable bank (R389): its INJ_DI events end, its gates stay off. -/
def Dev.disableBank (e : Env) (k src : Nat) (d : Dev) : Dev :=
  let sel (x : Event) : Bool := x.type == .di && x.output / 4 == k
  (((d.setDiag (16 + k)).markDisabled (.bank k) src).endTemplatesOf e sel).flush e sel .endedFault src

/-- Disable cylinder (R389). -/
def Dev.disableCyl (e : Env) (c src : Nat) (d : Dev) : Dev :=
  (d.setDis c).markDisabled (.cyl c) src |>.flush e (fun x => x.cyl == c) .endedFault src

/-- End all: every event ends, the boost is held off, and the device enters SAFE (R389, R368). -/
def Dev.endAll (e : Env) (src cause : Nat) (d : Dev) : Dev :=
  let d := d.endAllEvents e .endedFault src
  let d := { d with bst := { d.bst.halt d.dtime with held := true } }
  if d.sup.mode = .safe ∨ d.sup.mode = .locked then d
  else
    (d.modSup fun s => { s with safeCause := cause, lastFault := BitVec.ofNat 8 src, aliveRun := false, alive := false }).setMode .safe

/-- The last commanded edge of a box's event has been issued (R143, R191): for INJ_DI the end edge, 32 ns ahead of t_e,
or the profile's own END. -/
def Dev.boxExecuted (d : Dev) (b : Fin 128) : Bool :=
  let x := d.box b
  let k := d.bank (diBank x.ev.output)
  x.executed || (x.ev.type == .di && k.owner == .box b && (k.psq.endAt.isSome || decide (k.psq.te ≤ d.dtime + 32)))

/-- A bank forced off without PSQ_k (R163, R193). An event already executed is complete then (assumption 17). -/
def Dev.forceBank (k : Fin 4) (d : Dev) : Dev :=
  let b := d.bank k
  let d := match b.owner with
    | .box x => if d.boxExecuted x then d.modPart b.owner (fun p => { p with di := b.psq.last }) |>.completeBox x else d
    | _ => d
  d.modBank k fun b =>
    { b with sw := .decay, hsb := b.hsb.set false d.dtime false, hsv := b.hsv.set false d.dtime false
             fw := b.fw.set false d.dtime false, lsPins := b.lsPins.map (·.set false d.dtime false)
             owner := .none, tag := 0, ls := 0
             psq := { b.psq with phase := .idle, shown := if b.busy then b.psq.last else b.psq.shown } }

/-- The fatal reaction (R391): every gate off, dwelling coils soft-shut, boost held off, every event not executed
ended; then LOCKED with its latch (R374). -/
def Dev.fatal (e : Env) (src : Nat) (d : Dev) : Dev :=
  if d.sup.mode = .locked then d
  else
    -- the bank gates first: an event whose bank no sequencer holds ends as it stands
    let ended := allBoxes.foldl (init := d) fun d b =>
      let x := d.box b
      if x.state == .active && !d.boxExecuted b && x.ev.type == .di then
        d.closeBox b { result := .endedFault, reason := src, time := d.dtime, ctrl := x.ev.unit
                       unstarted := d.dtime < (d.bank (diBank x.ev.output)).psq.ts }
        |>.modBox b (fun y => { y with part := { y.part with di := (d.bank (diBank x.ev.output)).psq.last } })
      else d
    let d := (List.finRange 4).foldl (init := ended) fun d k => d.forceBank k
    let d := d.endAllEvents e .endedFault src
    let d := { d with bst := { d.bst.halt d.dtime with held := true } }
    (d.modSup fun s => { s with latch := true, lastFault := BitVec.ofNat 8 src, aliveRun := false, alive := false }).setMode .locked

/-- A reaction carried out on its object (R389). -/
def Dev.react (e : Env) (src react : Nat) (obj : ReactObj) (d : Dev) : Dev :=
  match react, obj with
  | 2, .output t n => d.disableOutput e t n src
  | 3, .bank k => d.disableBank e k src
  | 3, .banks => (List.range 4).foldl (init := d) fun d k => d.disableBank e k src
  | 4, .cyl c => d.disableCyl e c src
  | 5, _ => d.endAll e src 1
  | 6, _ => d.fatal e src
  | _, _ => d

/-- An attention event of the two-wire port (R338). -/
def Dev.attn (i : Nat) (d : Dev) : Dev := { d with twp := { d.twp with attnEvt := d.twp.attnEvt ||| BitVec.ofNat 5 (2 ^ i) } }

end Sys2Proof.Machine
end

