-- ==== Sys2Proof/Machine/Admit.lean ====
section
/-! DEFINITION. Admission (chapter 4): the fast period, the horizons, the occupancies and the checks, and the decision
with its REPLACE, CANCEL and twin. Angles are unwrapped whole numbers relative to the last accepted tooth. -/

namespace Sys2Proof.Machine

/-- Word `i` of a request block (R103). -/
def reqWord (w : List W64) (i : Nat) : W64 := (w[i]?).getD 0

/-! ### The wheel on an unwrapped axis -/

/-- Angle of a position counted from the H0 anchor of position 0, never wrapped. -/
def Wheel.absAngle (w : Wheel) (x : Int) : Int :=
  if w.crkPos = 0 then 0 else (x / (w.crkPos : Int)) * rev360 + (w.tooth x).angle

/-- Entries that carry a tooth, with their angles. -/
def Wheel.presents (w : Wheel) : List (Nat × Nat) :=
  (List.range w.crkPos).filterMap fun i =>
    match w.teeth[i]? with
    | some t => if t.present then some (i, t.angle) else none
    | none => none

/-- First present position at or after an unwrapped angle. -/
def Wheel.atOrAfter (w : Wheel) (a : Int) : Int :=
  let r := a / (rev360 : Int)
  let f := (a % (rev360 : Int)).toNat
  match w.presents.find? (fun p => f ≤ p.2) with
  | some p => r * w.crkPos + p.1
  | none => (r + 1) * w.crkPos + ((w.presents.head?.map (·.1)).getD 0 : Nat)

/-- Last present position strictly before an unwrapped angle (R93). -/
def Wheel.before (w : Wheel) (a : Int) : Int := w.prev (w.atOrAfter a)

/-- `n` present positions back (R138). -/
def Wheel.back (w : Wheel) : Nat → Int → Int
  | 0, x => x
  | n + 1, x => w.back n (w.prev x)

/-! ### The fast period (R117) -/

def Pos.bands (p : Pos) : W64 := if p.runBands then p.bandsRun else p.bandsCrank
def Pos.cycBand (p : Pos) : Nat := fld p.bands 36 10

/-- Positions of the window of R50 in the present state. -/
def Pos.window (p : Pos) : Nat := if p.sync = .full then p.wheel.cycPos else p.wheel.crkPos

def Pos.stampAt (p : Pos) (x : Int) : Option Ns := (p.stamps.find? (·.1 == x)).map (·.2)

/-- Time of the window of R50 that ends at position `x`, if it has been measured since the state was entered. -/
def Pos.windowAt (p : Pos) (x : Int) : Option Nat :=
  if x - p.window < p.windowFrom then none
  else match p.stampAt x, p.stampAt (x - p.window) with
    | some b, some a => some (b - a)
    | _, _ => none

/-- The check of R50 is active: two full windows have been measured since the state was entered. -/
def Pos.envActive (p : Pos) : Bool :=
  p.synced && (p.windowAt p.absPos).isSome && (p.windowAt (p.absPos - p.window)).isSome

def Dev.windowFast (d : Dev) : Option Nat :=
  let p := d.pos
  let l := p.stamps.filterMap fun s => if p.absPos - p.window < s.1 then p.windowAt s.1 else none
  l.min?.map fun t => t * p.wheel.cycPos / p.window

/-- P_ref (R117). -/
def Dev.pRef (d : Dev) : Nat :=
  let p := d.pos
  if p.envActive then (d.windowFast).getD 0
  else
    let start := fld d.adm.env 32 32
    if p.nhat = 0 ∨ p.sync = .stopped ∨ p.sync = .counting then start else min start (divRoundN (p.nhat * p.wheel.cycPos) (2 ^ 16))

/-- P_fast (R117). -/
def Dev.pFast (d : Dev) : Nat :=
  let h := if d.pos.sync = .half ∧ ¬ d.pos.wheel.twoStroke then 6 else 3
  d.pRef * ((1024 - d.pos.cycBand) ^ h * (1024 - fld d.adm.env 0 10)) / 1024 ^ (h + 1)

/-- A point of the axis of R117: an unwrapped angle and a time from it. -/
structure Point where
  u   : Int
  ofs : Int
  deriving DecidableEq, Repr

/-- Fast time from one point to another; the angle's part is truncated to whole ns (R117). -/
def Point.sub (c pf : Nat) (a b : Point) : Int := ((a.u - b.u) * pf).tdiv c + a.ofs - b.ofs

/-! ### Occupancies (R118, R120) -/

/-- An event as the checks see it. -/
structure Occ where
  type  : EvType
  out   : Nat
  s     : Point
  e     : Point
  /-- Box hold: arming position and last position. -/
  arm   : Int
  till  : Int
  eP    : Nat
  order : Nat
  isNew : Bool
  /-- It draws from the boost: an INJ_DI event not yet released (R121). -/
  draws : Bool := false
  deriving DecidableEq, Repr

/-- Profile that an INJ_DI event names. -/
def Dev.profile (d : Dev) (out prof : Nat) : Profile := ((d.bank (diBank out)).profiles.toList[prof]?).getD {}

/-- Cycle and angle on the axis of the last accepted tooth. -/
def Pos.toAxis (p : Pos) (cyc : W32) (a : Angle) : Int :=
  (cyc - p.cycle).toInt * p.wheel.cycLen + a - p.angle

/-- Axis of the last accepted tooth to positions. -/
def Pos.base (p : Pos) : Int := p.wheel.absAngle p.absPos

/-- Time by which the first edge precedes ANGLE_A (R115). -/
def Event.lead (e : Event) : Nat :=
  match e.type with
  | .ign => e.durA
  | .pfi => if e.isEnd then e.durA else 0
  | _ => 0

/-- The first edge is defined by time from ANGLE_A (R169, R210). -/
def Event.timedFirst (e : Event) : Bool := e.type == .ign || (e.type == .pfi && e.isEnd)

/-- Commit tooth of the first edge at the fast period: the last present tooth before an angle edge (R93), the last one
whose fast time is not after a time-defined edge (R210). -/
def Dev.fastCommit (d : Dev) (pf : Nat) (e : Event) (u : Int) : Int :=
  let w := d.pos.wheel
  if e.lead = 0 then w.before (d.pos.base + u)
  else if pf = 0 then w.before (d.pos.base + u)
  else w.before (d.pos.base + u + (-(e.lead : Int) * w.cycLen) / pf + 1)

/-- Arming distance of a type (R138). -/
def Dev.armDist (d : Dev) (t : EvType) : Nat := fld d.loft.cfg (6 * t.code - 6) 6

/-- The occupancy and the box hold of an event whose ANGLE_A lies at `u`, on a given profile. -/
def Dev.occOn (prof : Profile) (d : Dev) (pf : Nat) (e : Event) (u : Int) (arm : Option Int) (order : Nat) (isNew : Bool) : Occ :=
  let w := d.pos.wheel
  let s : Point := { u := u, ofs := -(e.lead : Int) }
  let en : Point := match e.type with
    | .di => { u := u, ofs := e.durA + prof.tEnd }
    | .pfi => if e.isEnd then { u := u, ofs := 0 } else { u := u, ofs := e.durA }
    | .gate => { u := u + w.ahead e.angleA e.angleB, ofs := 0 }
    | _ => { u := u, ofs := 0 }
  let tail : Int := en.ofs + (if e.type = .pfi then 65536 else 0)
  let till := if pf = 0 then w.atOrAfter (d.pos.base + en.u) else w.atOrAfter (d.pos.base + en.u - (-tail * w.cycLen) / pf)
  { type := e.type, out := e.output, s := s, e := en
    arm := arm.getD (w.back (d.armDist e.type) (d.fastCommit pf e u)), till := till
    eP := if e.type = .di then prof.eP else 0, order := order, isNew := isNew, draws := e.type == .di }

/-- The occupancy of a request's event, on the profile that it names. -/
def Dev.occ (d : Dev) (pf : Nat) (e : Event) (u : Int) (arm : Option Int) (order : Nat) (isNew : Bool) : Occ :=
  d.occOn (d.profile e.output (fld e.typeArg 0 5)) pf e u arm order isNew

/-- An accepted event that has not ended, with whether its bank has been released. -/
def Dev.live (d : Dev) (x : Nat × Descr) : Bool :=
  match x.2.state with
  | .waiting => true
  | .ending => false
  | .inBox => match d.loft.boxes.toList[x.2.box]? with
    | some b => b.ending.isNone
    | none => false

def Dev.released (d : Dev) (x : Nat × Descr) : Bool :=
  x.2.state == .inBox && (match d.loft.boxes.toList[x.2.box]? with | some b => b.complete | none => false)

/-- Basecamp templates of the handover cycle count as accepted events (R372). An INJ_DI one runs its bank's basecamp profile
(R356); it is released, or skipped, once its next occurrence is a later cycle's. -/
def Dev.templateOccs (d : Dev) (pf : Nat) : List Occ :=
  match d.sup.handover with
  | none => []
  | some h => d.sup.templates.map fun x =>
    let o := d.occOn (d.bank (diBank x.ev.output)).bcProfile pf x.ev (d.pos.toAxis h x.ev.angleA) none 0 false
    { o with draws := o.draws && x.ev.cycle == h }

/-- The accepted events, but those with an index in `skip`. -/
def Dev.accepted (d : Dev) (pf : Nat) (skip : List Nat) : List Occ :=
  (d.loft.descrs.filter fun x => d.live x && !skip.contains x.1).map fun x =>
    let e := x.2.ev
    let arm := d.pos.wheel.atOrAfter (d.pos.base + d.pos.toAxis e.armCycle e.armAngle)
    let o := d.occ pf e (d.pos.toAxis e.cycle e.angleA) (some arm) e.order false
    if d.released x then { o with draws := false } else o

/-! ### The checks -/

/-- Overlap or a gap below a minimum of two occupancies (R118). -/
def Occ.gapBelow (c pf : Nat) (x y : Occ) (least : Int) : Bool :=
  let (p, q) := if 0 ≤ Point.sub c pf y.s x.s then (x, y) else (y, x)
  Point.sub c pf q.s p.e < least

def Dev.minOff (d : Dev) (t : EvType) (n : Nat) : Nat :=
  match t with
  | .di => (d.bank (diBank n)).offTime (diLs n)
  | .pfi => fld d.pfi[Fin.ofNat 16 n].cfg 32 32
  | .ign => fld d.ign[Fin.ofNat 16 n].cfg 32 24
  | _ => 0

def Dev.bankGap (d : Dev) (k : Nat) : Nat := fld d.adm.bankGap (16 * k) 16

def Dev.chkOwner (c pf : Nat) (x y : Occ) : Bool := x.type == y.type && x.out == y.out && x.gapBelow c pf y 0
def Dev.chkOff (d : Dev) (c pf : Nat) (x y : Occ) : Bool :=
  x.type == y.type && x.out == y.out && x.gapBelow c pf y (d.minOff x.type x.out)
def Dev.chkBank (d : Dev) (c pf : Nat) (x y : Occ) : Bool :=
  x.type == .di && y.type == .di && x.out / 4 == y.out / 4 && x.gapBelow c pf y (d.bankGap (x.out / 4))

/-- Boxes held at most at the tooth positions from the next one to the end of cycle c + 2 (R120). -/
def Dev.boxPeakOf (d : Dev) (l : List Occ) (last : Int) : Nat :=
  let first := d.pos.wheel.next d.pos.absPos
  let starts := first :: (l.map (·.arm)).filter fun a => first ≤ a && a ≤ last
  (starts.map fun p => (l.filter fun o => o.arm ≤ p && p ≤ o.till).length).foldl max 0

/-- ½ C V² in whole µJ, C in 0.1 µF and V in 10 mV (R121). -/
def halfCV2 (c v : Nat) : Nat := c * v * v / 200000

def Dev.eFull (d : Dev) : Nat := halfCV2 (fld d.bst.ledger 0 16) (fld d.bst.set 0 16)
def Dev.eMin (d : Dev) : Nat := halfCV2 (fld d.bst.ledger 0 16) (fld d.bst.ledger 16 16)
/-- Energy that the ledger starts with. -/
def Dev.eNow (d : Dev) : Nat := halfCV2 (fld d.bst.ledger 0 16) (min d.bst.volt (fld d.bst.set 0 16))

/-- Order of the ledger: by start, accepted before new, then by acceptance (R121). -/
def ledgerInsert (x : Int × Occ) : List (Int × Occ) → List (Int × Occ)
  | [] => [x]
  | y :: l =>
    if x.1 < y.1 || (x.1 == y.1 && ((!x.2.isNew && y.2.isNew) || (x.2.isNew == y.2.isNew && x.2.order < y.2.order)))
    then x :: y :: l else y :: ledgerInsert x l

/-- The projected after-values in order, each with whether it belongs to a new event (R121). -/
def ledgerRun (full pchg : Nat) : Int → Int → List (Int × Occ) → List (Bool × Int)
  | _, _, [] => []
  | e, t, (a, o) :: l =>
    let b := min (full : Int) (e + pchg * (a - t) / 100000)
    let af := b - o.eP
    (o.isNew, af) :: ledgerRun full pchg af a l

/-- Axis point of the present moment. -/
def Dev.nowPoint (d : Dev) : Point :=
  let (c, a) := d.poswAt d.dtime
  { u := d.pos.toAxis c a, ofs := 0 }

/-- The events that have ended while their bank is not released yet (R161): they started before the present moment, and
the ledger takes them with their full E_p (R121). -/
def Dev.endingOccs (d : Dev) : List Occ :=
  (List.finRange 4).filterMap fun k =>
    let b := d.bank k
    let o (p : Profile) : Occ :=
      { type := .di, out := 4 * k.val + b.ls.val, s := d.nowPoint, e := d.nowPoint, arm := 0, till := 0, eP := p.eP
        order := 0, isNew := false, draws := true }
    match b.owner with
    | .none => none
    | .box x => if (d.box x).ending.isSome then some (o (d.profile (4 * k.val) (fld (d.box x).ev.typeArg 0 5))) else none
    | .template _ => if d.sup.handover.isNone then some (o b.bcProfile) else none
    | .ended => some (o (d.profile (4 * k.val) b.psq.prof))

def Dev.ledger (d : Dev) (pf : Nat) (l : List Occ) : List (Bool × Int) :=
  let now := d.nowPoint
  let di := ((d.endingOccs ++ l).filter (·.draws)).map fun o =>
    (max 0 (Point.sub d.pos.wheel.cycLen pf o.s now), o)
  ledgerRun d.eFull (fld d.bst.ledger 32 16) d.eNow 0 (di.foldl (fun acc x => ledgerInsert x acc) [])

/-- From the first new event on, an after-value below E_min (R121). -/
def ledgerFails (emin : Nat) : Bool → List (Bool × Int) → Bool
  | _, [] => false
  | seen, (n, a) :: l => let s := seen || n; (s && decide (a < emin)) || ledgerFails emin s l

/-! ### Fields (R104, R105) -/

/-- Kind-1 trigger entry of an engine for a list (R242). -/
def Dev.calcEntry (d : Dev) (k : Fin 8) (list : Nat) : Option Nat :=
  (List.range 32).find? fun i => fld (d.trigWord k i) 0 3 == 1 && fld (d.trigWord k i) 16 13 == list

/-- LIST is the start of a list declared for the engine (R105, R241). -/
def Dev.declared (d : Dev) (k : Nat) (list : Nat) : Bool := d.ces.lists.any fun w => fld w 0 13 == list && fld w 32 3 == k

def Dev.enabledOut (d : Dev) (t : EvType) (n : Nat) : Bool :=
  match t with
  | .di => let b := d.bank (diBank n); b.enabled && bit b.cfg (1 + n % 4)
  | .pfi => bit d.pfi[Fin.ofNat 16 n].cfg 0
  | .ign => bit d.ign[Fin.ofNat 16 n].cfg 0
  | .gate => bit d.gate[Fin.ofNat 8 n].cfg 0
  | .sample => bit d.cnv[Fin.ofNat 2 n].cfg 0
  | .calc => bit d.ce[Fin.ofNat 8 n].cfg 0
  | _ => true

/-- Place of an output in the cylinder table (R355). -/
def ownerIndex (t : EvType) (n : Nat) : Nat :=
  match t with | .di => n | .pfi => 16 + n | .ign => 32 + n | _ => 48 + n

/-- DETAIL of REJ_FIELD, the lowest one that applies, or 0 (R105). `standing`: a standing block, whose cycle the device
sets. -/
def Dev.fieldDetail (d : Dev) (w : List W64) (standing : Bool) : Nat :=
  let w0 := reqWord w 0
  let a := fld (reqWord w 2) 0 32
  let b := fld (reqWord w 2) 32 32
  let da := fld (reqWord w 3) 0 32
  let db := fld (reqWord w 3) 32 32
  let ta := reqWord w 4
  let out := fld w0 8 8
  let cyl := fld w0 16 5
  match EvType.ofCode (fld w0 0 4) with
  | none => 1
  | some t =>
    let n := out
    let cylBad := if t.drives then decide (cyl ≠ (d.adm.owner.toList[ownerIndex t n]?).getD 0x1F)
      else decide (cyl ≠ 0x1F) && (d.adm.tdc.toList[cyl]?).join.isNone
    let angBad := decide (d.pos.wheel.cycLen ≤ a) || (if t = .gate then decide (d.pos.wheel.cycLen ≤ b) || b == a else b != 0)
    let durBad := match t with
      | .di => da == 0 || decide (20000000 < da) || db != 0
      | .pfi => da == 0 || decide (200000000 < da) || db != 0
      | .ign => da == 0 || decide (50000000 < da) || decide (da < db)
      | _ => da != 0 || db != 0
    let argBad := match t with
      | .di => (d.profile n (fld ta 0 5)).len == 0
      | .sample =>
        let mux := fld ta 0 4
        let cfg := d.cnv[Fin.ofNat 2 n].cfg
        (mux == 14 && !bit cfg 16) || (mux == 15 && !bit cfg 17) || decide (8 < fld ta 4 4)
      | .calc => (d.calcEntry (Fin.ofNat 8 n) (fld ta 0 13)).isNone || !d.declared n (fld ta 0 13)
      | _ => false
    let taMask : W64 := match t with | .di => 0x1F | .sample => 0xFF | .calc => 0x1FFF | _ => 0
    let rsv := (w0 &&& 0xFFFFFFE0F0E000F0#64) != 0 || (ta &&& ~~~taMask) != 0
      || (t != .di && reqWord w 5 != 0) || reqWord w 6 != 0 || reqWord w 7 != 0
    let flags := (bit w0 32 && bit w0 33) || (bit w0 35 && t != .pfi) || (bit w0 36 && t != .ign)
      || (!standing && !bit w0 34 && fld (reqWord w 1) 32 32 != 0)
    if t.outputs ≤ n ∨ d.enabledOut t n = false then 2
    else if cylBad then 3
    else if angBad then 4
    else if durBad then 5
    else if argBad then 6
    else if rsv then 7
    else if flags then 8
    else 0

/-! ### The decision (R110, R114) -/

/-- An event as a request asks for it, its cycle still to be found. -/
def eventOf (w : List W64) (source : Nat) : Event :=
  let w0 := reqWord w 0
  { type := (EvType.ofCode (fld w0 0 4)).getD .di
    output := fld w0 8 8, cyl := fld w0 16 5, prio := fld w0 24 4, isEnd := bit w0 35, dwellPri := bit w0 36
    source := source, tag := BitVec.ofNat 32 (fld (reqWord w 1) 0 32)
    angleA := fld (reqWord w 2) 0 32, angleB := fld (reqWord w 2) 32 32
    durA := fld (reqWord w 3) 0 32, durB := fld (reqWord w 3) 32 32, typeArg := reqWord w 4, profArg := reqWord w 5 }

/-- The mode admits the request (R116, R367). -/
def Dev.modeAdmits (d : Dev) (t : EvType) (source : Nat) : Bool :=
  match d.sup.mode with
  | .waitSync | .crank | .run => true
  | .limp =>
    bit d.adm.cfg 0
      && !(t.drives && d.pos.sync == .half && !d.pos.wheel.twoStroke && !bit d.adm.cfg 1)
  | .service => source != 8 || bit d.adm.cfg 2
  | _ => false

/-- Axis point from which the near horizon is measured: θ_2 (R115). -/
def Dev.theta2 (d : Dev) : Point :=
  let w := d.pos.wheel
  { u := w.absAngle (w.next (w.next d.pos.absPos)) - d.pos.base, ofs := 0 }

/-- The edges of an event at `u` satisfy the near horizon (R115). -/
def Dev.near (d : Dev) (pf : Nat) (e : Event) (u : Int) : Bool :=
  4000 ≤ Point.sub d.pos.wheel.cycLen pf { u := u, ofs := -(e.lead : Int) } d.theta2

/-- First cycle, from the present one on, in which the event satisfies the near horizon (R106): the least angle that
`Dev.near` takes, and the first occurrence of ANGLE_A at or after it. -/
def Dev.nextCycle (d : Dev) (pf : Nat) (e : Event) (now : W32) : W32 :=
  let c : Int := d.pos.wheel.cycLen
  let least : Int := d.theta2.u + ((4000 + e.lead) * c + pf - 1) / pf
  let n : Int := (least + d.pos.angle - e.angleA + c - 1) / c
  now + BitVec.ofInt 32 (max 0 (n - (now - d.pos.cycle).toInt))

/-- A pair counts as committed as soon as either member is (R126). -/
def Dev.pairCommitted (d : Dev) (i : Nat) (x : Descr) : Bool :=
  x.ev.pairDone || d.committed i || (match x.ev.partner with | some j => d.committed j | none => false)

/-- First edge on the axis, for the choice of a target (R126). -/
def Dev.firstEdge (d : Dev) (pf : Nat) (e : Event) : Int :=
  Point.sub d.pos.wheel.cycLen pf { u := d.pos.toAxis e.cycle e.angleA, ofs := -(e.lead : Int) } { u := 0, ofs := 0 }

/-- Accepted events with a key that have not ended, and the target among those that are not committed (R126). -/
def Dev.target (d : Dev) (pf : Nat) (e : Event) : Bool × Option (Nat × Descr) :=
  let l := d.loft.descrs.filter fun x =>
    d.live x && x.2.ev.type == e.type && x.2.ev.output == e.output && x.2.ev.tag == e.tag
  let f := l.filter fun x => !d.pairCommitted x.1 x.2
  let best := f.foldl (init := (none : Option (Nat × Descr))) fun b x =>
    match b with
    | none => some x
    | some y => if d.firstEdge pf x.2.ev < d.firstEdge pf y.2.ev then some x else b
  (!l.isEmpty, best)

/-- The pair of a target, its earlier member first written. -/
def pairOf (x : Nat × Descr) : List Nat :=
  match x.2.ev.partner with | some j => [x.1, j] | none => [x.1]

/-- The twin of an event: 360 °CA further on (R123). -/
def Event.mkTwin (w : Wheel) (e : Event) : Event :=
  let a := e.angleA + rev360
  { e with twin := true, angleA := a % w.cycLen
           angleB := if e.type = .gate then (e.angleB + rev360) % w.cycLen else e.angleB
           cycle := if w.cycLen ≤ a then e.cycle + 1 else e.cycle }

/-- A result word (R124). -/
def resultWord (code detail source loft : Nat) (tag : W32) : W64 :=
  put 0 4 code ||| put 4 4 detail ||| put 8 4 source ||| put 12 11 loft ||| put 32 32 tag.toNat

/-- A free descriptor: which one is taken is left open (R135; assumption 13). -/
def Dev.allocate (d : Dev) : Option (Nat × Dev) :=
  let used := d.loft.descrs.map (·.1)
  let free := (List.range 2048).filter fun i => !used.contains i
  let (n, d') := d.draw
  match free[Config.loftPick n % free.length]? with
  | some i => some (i, d')
  | none => none

/-- CANCELLED for a member of a target pair. Its box is closed, or, under REPLACE, its result is written at once while
the descriptor passes on (R127, R128, R142, R144, R145). -/
def Dev.cancelMember (i : Nat) (d : Dev) : Dev :=
  match d.descr i with
  | some x =>
    let end_ : Ending := { result := .cancelled, unstarted := true, time := d.dtime, ctrl := ctrl 2 1 0xFF }
    match x.state with
    | .inBox => d.closeBox (Fin.ofNat 128 x.box) end_
    | _ => d.endWaiting i end_
  | none => d

/-- The record of a replaced event, its descriptor kept (R144). -/
def Dev.reportReplaced (i : Nat) (d : Dev) : Dev :=
  match d.descr i with
  | some x =>
    let end_ : Ending := { result := .cancelled, unstarted := true, time := d.dtime, ctrl := ctrl 2 1 0xFF }
    match x.state with
    | .inBox => d.reportBox (Fin.ofNat 128 x.box) (some end_) none
    | _ => (d.present (eventRec d.half x.ev i (some end_) false none d.dtime end_.ctrl {})).countResult .cancelled none
  | none => d

/-- The arming tooth of a newly accepted event (R138). -/
def Dev.armed (d : Dev) (pf : Nat) (e : Event) : Event :=
  let w := d.pos.wheel
  let arm := w.back (d.armDist e.type) (d.fastCommit pf e (d.pos.toAxis e.cycle e.angleA))
  let a : Int := d.pos.angle + (w.absAngle arm - d.pos.base)
  { e with armAngle := (a % (w.cycLen : Int)).toNat, armCycle := d.pos.cycle + BitVec.ofInt 32 (a / (w.cycLen : Int))
           accTime := d.now32 }

/-- The arming tooth of an event lies at or before the last accepted tooth (R29, R139). -/
def Dev.armReached (d : Dev) (e : Event) : Bool :=
  !beforePos d.pos.cycle d.pos.angle e.armCycle e.armAngle

/-- A box takes a new event in the place of the one it held: it stays ARMED, and is re-solved at the next tooth (R145). -/
def Box.replace (e : Event) (x : Box) : Box :=
  { x with ev := e, first := { present := e.timedFirst }, a := { present := true }, b := { present := e.type == .gate }
           off := {}, late := false, part := {}, resid := none }

/-- A descriptor takes a new event: as a fresh one, or in a target's place (R144, R145). Its words are written, so that no
damage of theirs is left. -/
def Dev.place (i : Nat) (e : Event) (d : Dev) : Dev :=
  let e := { e with order := d.loft.order }
  let d := (List.range 4).foldl (init := d.modLoft fun l => { l with order := l.order + 1 }) fun d j => d.clearWordErrs 4 (4 * i + j)
  match d.descr i with
  | some x =>
    if x.state = .inBox then
      let b := Fin.ofNat 128 x.box
      if d.armReached e then
        (d.putDescr i { x with ev := e, bad := [] }).modBox b (Box.replace e)
      else (d.putDescr i { ev := e }).modBox b Box.release
    else d.putDescr i { ev := e }
  | none => d.putDescr i { ev := e }

/-- Occupied descriptors and boxes, noted; the ADM_LOAD peak. -/
def Dev.farEnd (d : Dev) : Point :=
  { u := d.pos.toAxis ((d.poswAt d.dtime).1 + 3) 0, ofs := 0 }

def Dev.lastPos (d : Dev) : Int := d.pos.wheel.before (d.pos.base + d.farEnd.u)

/-- What admission decides of a request: the result word and the device after it (R114). -/
def Dev.judge (d : Dev) (w : List W64) (source : Nat) : W64 × Dev :=
  let e0 := eventOf w source
  let rej (code detail : Nat) : W64 × Dev := (resultWord code detail source 0 e0.tag, d)
  let w0 := reqWord w 0
  let replace := bit w0 32
  let cancel := bit w0 33
  let det := d.fieldDetail w (source == 9)
  if det ≠ 0 then rej 4 det
  else
    let pf := d.pFast
    let c := d.pos.wheel.cycLen
    let (exists_, tgt) := d.target pf e0
    if (replace || cancel) && !exists_ then rej 4 9
    else if !d.modeAdmits e0.type source then rej 3 0
    else if !d.pos.synced then rej 2 0
    else if cancel then
      match tgt with
      | none => rej 1 3
      | some x => (resultWord 0 0 source 0 e0.tag, (pairOf x).foldl (init := d) fun d i => d.cancelMember i)
    else
      let now := (d.poswAt d.dtime).1
      let cyc : W32 := if bit w0 34 then BitVec.ofNat 32 (fld (reqWord w 1) 32 32) else d.nextCycle pf e0 now
      let e1 := d.armed pf { e0 with cycle := cyc }
      if d.sup.handover = some cyc then rej 3 0
      else
        let twin := e0.type.drives && d.pos.sync == .half && !d.pos.wheel.twoStroke && bit d.adm.cfg 1
        let e2 := d.armed pf (e1.mkTwin d.pos.wheel)
        let ev := if twin then [e1, e2] else [e1]
        let news := ev.map fun e => d.occ pf e (d.pos.toAxis e.cycle e.angleA) none 0 true
        if !(ev.all fun e => d.near pf e (d.pos.toAxis e.cycle e.angleA)) then rej 1 1
        else if !(news.all fun o => Point.sub c pf o.e d.farEnd < 0) then rej 1 2
        else if replace && tgt.isNone then rej 1 3
        else
          let skip := match tgt with | some x => if replace then pairOf x else [] | none => []
          let olds := d.accepted pf skip ++ d.templateOccs pf
          let against (f : Occ → Occ → Bool) : Nat :=
            if news.any fun x => olds.any fun y => f x y then 1
            else match news with | [x, y] => if f x y then 2 else 0 | _ => 0
          let own := if e0.type.drives then against (Dev.chkOwner c pf) else 0
          let off := if e0.type.drives then against (d.chkOff c pf) else 0
          let bnk := against (d.chkBank c pf)
          if own ≠ 0 then rej 5 own
          else if off ≠ 0 then rej 6 off
          else if bnk ≠ 0 then rej 7 bnk
          else if 128 < d.boxPeakOf (olds ++ news) d.lastPos then rej 8 0
          else if e0.type == .di && ledgerFails d.eMin false (d.ledger pf (olds ++ news)) then rej 9 0
          else
            let need := if replace then (if twin && skip.length < 2 then 1 else 0) else ev.length
            if 2048 < d.loft.descrs.length + need then rej 10 0
            else
              -- the target's results, then the new events in its descriptors or in free ones
              let d := skip.foldl (init := d) fun d i => d.reportReplaced i
              let kept := skip.take ev.length
              let d := (skip.drop ev.length).foldl (init := d) fun d i =>
                match d.descr i with
                | some x => (if x.state = .inBox then d.modBox (Fin.ofNat 128 x.box) Box.release else d).freeDescr i
                | none => d
              let put (acc : List Nat × Dev) (e : Event) : List Nat × Dev :=
                let k := acc.1.length
                match kept[k]? with
                | some i => (acc.1 ++ [i], acc.2.place i e)
                | none => match acc.2.allocate with
                  | some (i, d) => (acc.1 ++ [i], d.place i e)
                  | none => acc
              let (ids, d) := ev.foldl put ([], d)
              let d := match ids with
                | [i, j] =>
                  let link (a b : Nat) (d : Dev) : Dev :=
                    d.modDescr a (fun x => { x with ev := { x.ev with partner := some b } })
                    |>.modLoft fun l => { l with boxes := l.boxes.map fun (y : Box) =>
                        if y.state ≠ BoxState.free ∧ y.loft = a then { y with ev := { y.ev with partner := some b } } else y }
                  link j i (link i j d)
                | _ => d
              (resultWord 0 (if twin then 1 else 0) source (ids.headD 0) e0.tag, d.notePeaks)

/-- The decision with its counters, its record and ADM_LAST (R124, R125). -/
def Dev.decideRequest (d : Dev) (w : List W64) (source : Nat) : W64 × Dev :=
  let (r, d) := d.judge w source
  let code := fld r 0 4
  let d := { d with adm := { d.adm with last := r } }
  if code = 0 then
    (r, { d with adm := { d.adm with acc := d.adm.acc + 1 }, loft := { d.loft with cycAcc := d.loft.cycAcc + 1 } })
  else
    let d := { d with
      adm := { d.adm with rej := d.adm.rej + 1, rejCnt := upd d.adm.rejCnt (Fin.ofNat 16 code) (· + 1) }
      loft := { d.loft with cycRej := d.loft.cycRej + 1 } }
    (r, if bit d.adm.cfg 3 then
          d.present { type := 10, dtime := d.dtime, body := [r, reqWord w 0, reqWord w 1, reqWord w 2] }
        else d)

end Sys2Proof.Machine
end

