-- ==== Sys2Proof/Machine/Status.lean ====
section
/-! DEFINITION. The status registers that snapshots copy (R282), each as its own chapter lays it out. -/

namespace Sys2Proof.Machine

/-- POS_SYNC (R73). CAM_CNT shows the count that is not zero (R54); what it shows outside GAP_FOUND is left open, and it
keeps the count with which GAP_FOUND was left (DESIGN CHOICE, assumption 58; unsafe for a claim about that field there). -/
def Dev.regSync (d : Dev) : W64 :=
  let p := d.pos
  put 0 3 p.sync.code ||| putB 3 p.rev ||| putB 4 p.single ||| putB 5 p.runBands ||| putB 6 p.latch
    ||| put 8 8 (if p.wheel.crkPos = 0 then 0 else p.pos % p.wheel.crkPos) ||| put 16 4 (max p.h0 p.h1)
    ||| putB 32 p.cfgIgn ||| putB 33 p.revSeen ||| putB 34 p.lossSeen ||| putB 35 p.switched

/-- POS_PRED (R101). -/
def Dev.regPred (d : Dev) : W64 :=
  let p := d.pos
  put 0 48 p.nhat ||| putB 48 p.held ||| putB 49 p.clamped ||| putB 50 p.csync ||| put 51 2 p.order

/-- ADM_LEDGER: the energy the ledger starts with, and the lowest projected after-value (R121, R134). With no event in the
ledger E_LOW shows the start energy (assumption 19). -/
def Dev.regLedger (d : Dev) : W64 :=
  let l := (d.ledger d.pFast (d.accepted d.pFast [])).map (·.2)
  let low : Int := l.min?.getD d.eNow
  put 0 32 (satN (2 ^ 32 - 1) d.eNow) ||| put 32 32 (clampI 0 (2 ^ 32 - 1) low).toNat

/-- ADM_LOAD (R134). -/
def Dev.regLoad (d : Dev) : W64 :=
  put 0 8 (d.boxPeakOf (d.accepted d.pFast []) d.lastPos) ||| put 8 12 d.loft.descrs.length

/-- BOX_STAT (R152). -/
def Dev.regBoxStat (d : Dev) : W64 :=
  put 0 8 d.boxBusy ||| put 8 8 d.loft.boxPeak.toNat ||| put 16 16 d.loft.starved.toNat ||| put 32 32 d.loft.paged.toNat

/-- BANK_STATE (R173). -/
def Dev.regBankState (d : Dev) (k : Fin 4) : W64 :=
  let b := d.bank k
  put 0 3 b.sw.code ||| putB 3 b.busy ||| put 4 2 (if b.busy then b.ls.val else 0) ||| putB 6 (b.busy && b.psq.endAt.isSome)
    ||| putB 7 (d.bankDisabled k.val) ||| putB 8 b.cmpHi ||| putB 9 b.cmpLo ||| put 32 32 (if b.busy then b.tag.toNat else 0)

/-- BST_VOLT (R173). -/
def Dev.regBstVolt (d : Dev) : W64 :=
  put 0 16 d.bst.volt ||| put 16 10 d.bst.code ||| putB 26 (d.bst.phase != .idle) ||| putB 27 d.bst.ovSince.isSome ||| putB 28 d.bst.uvSince.isSome

/-- PFI_STAT.ON of an output. -/
def Dev.pfiOn (d : Dev) (n : Fin 16) : Bool := d.pfi[n].pin.level d.dtime

/-- Level of an ignition pin that is not ramping (R208): in logic mode POL makes the dwell level low; in gate mode the gate
is on while the output dwells, unless VGD holds it off (R421). -/
def Dev.ignPin (d : Dev) (n : Fin 16) : Bool :=
  let g := d.ign[n]
  if bit g.cfg 1 then g.pin.level d.dtime && !g.pin.blocked else g.pin.level d.dtime != bit g.cfg 2

/-- Level of a GATE pin (R217): POL makes its active level low. -/
def Dev.gatePin (d : Dev) (n : Fin 8) : Bool := d.gate[n].pin.level d.dtime != bit d.gate[n].cfg 1

def Dev.ignDwell (d : Dev) (n : Fin 16) : Bool := !d.ign[n].soft && d.ign[n].pin.level d.dtime

def Dev.gateOn (d : Dev) (n : Fin 8) : Bool := d.gate[n].pin.level d.dtime

def bitsOf {n : Nat} (f : Fin n → Bool) : W64 := (List.finRange n).foldl (fun a i => a ||| putB i.val (f i)) 0

/-- IGN_SNAP_STATE (R282). -/
def Dev.regIgnSnap (d : Dev) : W64 :=
  bitsOf d.ignDwell ||| bitsOf (fun (n : Fin 16) => d.ign[n].soft) <<< 16 ||| bitsOf d.gateOn <<< 32

/-- CE_SNAP_STATE (R282). -/
def Dev.regCeSnap (d : Dev) : W64 :=
  (List.finRange 8).foldl (fun a k => a ||| put (8 * k.val) 3 d.ce[k].state.code ||| put (8 * k.val + 3) 5 d.ce[k].queue.length) 0

/-- An output period of an OSR code: 2^(6 + OSR) modulator clocks of 250 ns (R250, R251). -/
def outPeriod (osr : Nat) : Nat := 2 ^ (6 + osr) * 250

/-- CNV_STAT (R267). -/
def Dev.regCnvStat (d : Dev) (c : Fin 2) : W64 :=
  let x := d.cnv[c]
  let osr := match x.urgRun with | some r => r.osr | none => fld x.scan 16 4
  putB 0 x.scanning ||| putB 1 x.urgRun.isSome ||| put 2 4 x.entry
    ||| putB 6 ((x.urgRun.isSome || (x.scanning && !x.settled)) && d.dtime < x.filtAt + 3 * outPeriod osr)
    ||| put 16 16 x.rounds.toNat ||| putB 32 x.cfgIgn ||| putB 33 x.urgLost ||| putB 34 x.winEvt ||| putB 35 x.xchk
    ||| putB 36 x.refchk ||| putB 37 x.ovrSeen

/-- FLT_FIRST (R410). -/
def Dev.regFirst (d : Dev) : W64 :=
  let f := d.flt
  if f.valid then
    put 0 6 f.source ||| put 6 2 f.cls ||| put 8 3 f.reaction ||| put 16 8 f.detail.toNat ||| put 24 16 f.ctrl.toNat
      ||| put 40 2 f.clsMax
      ||| (match f.okey with | some (t, n) => put 42 4 t.code ||| put 46 8 n ||| putB 54 true | none => 0)
      ||| putB 62 f.forced ||| putB 63 true
  else 0

/-- HOLD_OUT (R378). -/
def Dev.holdOut (d : Dev) : Bool :=
  d.sup.filled && d.sup.mode != .reset && (d.sup.key || (d.sup.mode == .afterrun && !d.sup.afterrunEnded))

/-- FAULT_N (R400). The mode after POR is FILL, in which R400 holds the pin low, while the After POR column of
FLT_STAT.FAULT_N gives 1; the model follows R400 (DESIGN CHOICE, assumption 58; unsafe for a claim about that bit in
FILL). -/
def Dev.faultN (d : Dev) : Bool :=
  !(d.flt.valid || d.sup.mode == .reset || d.sup.mode == .fill || d.sup.mode == .safe || d.sup.mode == .locked)

/-- SUP_MODE (R387). -/
def Dev.regMode (d : Dev) : W64 :=
  let s := d.sup
  put 0 4 s.mode.code ||| put 4 4 s.prev.code ||| putB 8 s.key ||| putB 9 d.holdOut ||| put 10 2 s.safeCause
    ||| putB 16 s.cmdIgn ||| putB 17 s.ringReset ||| put 32 32 s.tChange.toNat

def Dev.ringNext (d : Dev) (t : Fin 12) : Nat := d.recm.rings[t].next.toNat

/-- The 20 snapshot registers in offset order (R282). -/
def Dev.snapRegs (d : Dev) : Vector W64 20 :=
  #v[d.posw, put 0 64 d.pos.cycleNs, d.regSync, d.regPred, d.regLoad, d.regLedger, d.regBoxStat,
     d.regBankState 0, d.regBankState 1, d.regBankState 2, d.regBankState 3, d.regBstVolt, bitsOf d.pfiOn, d.regIgnSnap,
     d.regCeSnap, d.regCnvStat 0, d.regCnvStat 1, d.regFirst, d.regMode,
     put 0 32 (d.ringNext 4) ||| put 32 32 (d.ringNext 7)]

/-! ### Snapshots (R279 to R281) -/

/-- Sources of R279. -/
def Dev.snapSource (d : Dev) (i : Nat) : Bool := bit d.snap.cfg i

/-- A trigger of a snapshot: it latches every snapshot register in this clock, or merges into a snapshot at most 100 ns
old. `rnum`: the partner's number, for the rope. A frame sends one snapshot, so of two of its own between frames the later
one is sent (DESIGN CHOICE, unsafe: R280 sends every one in the next frame; assumption 62). -/
def Dev.snapshot (i : Nat) (ctrl : BitVec 16) (coord : W64) (rnum : BitVec 16) (d : Dev) : Dev :=
  if !d.snapSource i then d
  else
    let s := d.snap
    let src := BitVec.ofNat 6 (2 ^ i)
    if s.open_ && d.dtime ≤ s.time + 100 then
      { d with snap := { s with sources := s.sources ||| src, merged := s.merged + 1
                                rnum := if i = 5 then rnum else s.rnum } }
    else
      let num := if s.num = 65535 then 1 else s.num + 1
      { d with snap :=
        { s with num := num, sources := src, time := d.dtime, regs := d.snapRegs, open_ := true, ctrl := ctrl
                 coord := coord, rnum := if i = 5 then rnum else 0
                 outUntil := some (d.dtime + fld s.cfg 8 8 * 1000), ropeSend := if bit s.cfg 16 && i != 5 then some num else s.ropeSend } }

/-- Subject of a trigger that is neither an event nor a fault (R281). -/
def Dev.snapPlain (i : Nat) (d : Dev) : Dev := d.snapshot i 0xE1FF d.noEvent 0

end Sys2Proof.Machine
end

