-- ==== Sys2Proof/Machine/Faults.lean ====
section
/-! DEFINITION. The fault unit at the end of a command: capture, merging, counting and reactions of the faults raised in
it (R388 to R397), and the wrapper that turns a body into a meaning. -/

namespace Sys2Proof.Machine

/-- Reaction that a fault asks for: fixed, configured, or given with the fault (R389, R393). -/
def Dev.reactionOf (d : Dev) (r : FaultReq) : Nat :=
  match r.react with
  | some x => x
  | none => if srcClass r.source = 3 then 6 else if srcClass r.source < 2 then 0 else (d.flt.react.toList[r.source]?).getD 1

/-- Words of a FAULT record (R273). -/
def faultWords (r : FaultReq) (cls react : Nat) : List W64 :=
  [ put 0 8 r.source ||| put 8 2 cls ||| put 10 3 react ||| put 16 8 r.detail ||| put 32 16 r.ctrl.toNat
      ||| (match r.key with | some (t, n) => put 48 4 t.code ||| put 52 8 n ||| putB 60 true | none => 0),
    r.coord ]

def Dev.faultRecord (r : FaultReq) (cls react : Nat) (d : Dev) : Dev :=
  d.present { type := 7, tflags := BitVec.ofNat 8 (r.forced.toNat + (if cls < 2 then 2 else 0)), dtime := d.dtime
              body := faultWords r cls react }

/-- Counted, whatever its class (R397). -/
def Dev.countFault (s : Nat) (d : Dev) : Dev :=
  if h : s < 64 then
    d.modFlt fun f => { f with cnt := upd f.cnt ⟨s, h⟩ (· + 1), lastT := upd f.lastT ⟨s, h⟩ fun _ => d.now32 }
  else d

/-- A contained or fatal fault captured as the first one (R395), or merged (R396). -/
def Dev.capture (r : FaultReq) (cls react : Nat) (d : Dev) : Dev :=
  if d.flt.valid then
    d.modFlt fun f => { f with merged := f.merged ||| putB r.source true, mergeCnt := satN 65535 (f.mergeCnt + 1)
                               clsMax := max f.clsMax cls }
  else
    (d.modFlt fun f => { f with valid := true, source := r.source, cls := cls, reaction := react
                                detail := BitVec.ofNat 8 r.detail, ctrl := r.ctrl, clsMax := cls, okey := r.key
                                forced := r.forced, time := d.dtime, coord := r.coord, merged := 0, mergeCnt := 0 })
    |>.faultRecord r cls react
    |>.attn 0

/-- One fault reported: counted, recorded, captured or merged, and offered to the snapshots (R279). -/
def Dev.report (r : FaultReq) (d : Dev) : Dev :=
  let cls := srcClass r.source
  let (react, obj) := r.resolve (d.reactionOf r)
  let d := d.countFault r.source
  if cls < 2 then
    let d := if d.flt.corrRec then d.faultRecord r cls 0 else d
    d.snapshot 3 r.ctrl r.coord 0
  else
    let d := if react = 1 ∧ 1 < d.reactionOf r ∧ obj = .none then d.modFlt fun f => { f with noObj := true } else d
    (d.capture r cls react).snapshot 2 r.ctrl r.coord 0

/-- Order in which the faults of one clock are taken: highest class, then lowest source (R395). -/
def faultBefore (a b : FaultReq) : Bool :=
  srcClass b.source < srcClass a.source || (srcClass a.source == srcClass b.source && a.source < b.source)

def faultInsert (x : FaultReq) : List FaultReq → List FaultReq
  | [] => [x]
  | y :: l => if faultBefore y x || !faultBefore x y then y :: faultInsert x l else x :: y :: l

/-- The reactions of a clock's faults, the widest first (R369). Of the diagnostic classes detected in one clock the widest
reaction alone is taken (R205). -/
def Dev.reactAll (e : Env) (l : List FaultReq) (d : Dev) : Dev :=
  let taken (r : FaultReq) : Nat × ReactObj := r.resolve (d.reactionOf r)
  let widest := (l.filter (·.react.isSome)).foldl (fun n r => max n (taken r).1) (0 : Nat)
  let due := l.filterMap fun (r : FaultReq) =>
    if srcClass r.source < 2 ∨ (r.react.isSome ∧ (taken r).1 < widest) then none else some (r.source, taken r)
  [6, 5, 4, 3, 2].foldl (init := d) fun d c =>
    due.foldl (init := d) fun d x => if x.2.1 = c then d.react e x.1 c x.2.2 else d

/-- One round over the faults raised so far. Reactions may raise further ones. -/
def Dev.round (e : Env) (d : Dev) : Dev :=
  let l := d.flt.raised.foldl (fun acc x => faultInsert x acc) []
  let d := d.modFlt fun f => { f with raised := [] }
  let d := l.foldl (init := d) fun d r => d.report r
  d.reactAll e l

/-- All faults of a command. A reaction can raise a fatal fault in its turn and a fatal one raises none, so three rounds
reach the end. -/
def Dev.settle (e : Env) (d : Dev) : Dev :=
  let step (d : Dev) : Dev := if d.flt.raised.isEmpty then d else d.round e
  (step (step (step d))).modFlt fun f => { f with raised := [] }

/-- Internal addresses that a write covers. -/
def MemOp.range : MemOp → Option (Nat × Nat)
  | .slot i _ _ => some (slotAddr i, 8)
  | .bytes a l => some (a, l.length)
  | .fill lo hi => some (lo, hi - lo)
  | _ => none

/-- The writes of a command take effect at its end, in order (R228); the bytes they cover are no longer damaged
(R407). -/
def commit (s : State) (d : Dev) : State :=
  let m := d.writes.foldl (fun m w => w.apply m) s.mems
  let d := d.writes.foldl (init := d) fun d w => match w.range with | some (a, n) => d.clearErrs a n | none => d
  { s with mems := m, dev := { d with writes := [], flt := { d.flt with raised := [] } } }

/-! ### What every command may lead to beside its own effect -/

def Stored.size (s : Stored) : Nat := 8 * s.words.length

/-- Bytes pending (REC_RING_STAT.PENDING). -/
def Ring.used (r : Ring) : Nat := (r.pending.map Stored.size).sum

/-- REC_LOG_STAT.PENDING: bytes of the rings that the two-wire log reader serves (R278); after a reset, of the rings that
stood before it (R375). -/
def Dev.logPending (d : Dev) : Nat :=
  match d.recm.stood with
  | some l => ((l.toList.drop 1).map Ring.used).sum
  | none => ((d.recm.rings.toList.drop 1).map fun r => if r.stream = 0 then r.used else 0).sum

/-- The bridge is open (R361): in SERVICE with the engine stopped and the synthetic wheel off, or in SAFE with cause
IMAGE_INVALID while a key 1 session is open on CAN_0. -/
def Dev.brOpen (d : Dev) : Bool :=
  (d.sup.mode == .service && d.pos.sync == .stopped && !bit d.sup.svc 0)
    || (d.sup.mode == .safe && d.sup.safeCause == 2 && d.can[0].level == 2)

/-- EVT and MASK of TWP_ATTN. -/
def Twp.wanted (x : Twp) : BitVec 5 := x.attnEvt &&& x.attnMask

/-- Attention events of the command (R338), and the clearing of TWP_EN with OPEN (R361). The port runs from the end of
the hardware fill on (R333). -/
def Dev.attend (d before : Dev) : Dev :=
  let d := if d.brOpen then d else { d with nvi := { d.nvi with twpEn := false } }
  if !(before.sup.filled && d.sup.filled) then d
  else
    let d := if d.pos.sync != before.pos.sync then d.attn 1 else d
    let d := if d.sup.mode != before.sup.mode then d.attn 2 else d
    let d := if d.snap.num != 0 && (d.snap.num != before.snap.num || d.snap.time != before.snap.time) then d.attn 3 else d
    let thr := 16 * fld d.twp.cfg 16 16
    let d := if thr ≤ d.logPending ∧ before.logPending < 16 * fld before.twp.cfg 16 16 then d.attn 4 else d
    if bit d.twp.cfg 0 && before.twp.wanted == 0 && d.twp.wanted != 0 then
      { d with twp := { d.twp with attnPend := true, sentAt := none } }
    else d

/-- Rank of the next turn at the register access port. -/
def Dev.nextTurn (d : Dev) : Nat := d.paths.toList.foldl (fun n c => max n c.served) 0 + 1

/-- A path has its turn at the register access port (R21). -/
def Dev.takeTurn (p : Path) (d : Dev) : Dev := d.modCtx p fun c => { c with served := d.nextTurn }

/-- A write through a path: it has its turn at the port, and disarms the path for FLT_FORCE (R401). -/
def Dev.disarm (p : Path) (d : Dev) : Dev := d.modCtx p fun c => { c with armedAt := none, served := d.nextTurn }

end Sys2Proof.Machine
end

