-- ==== Sys2Proof/Machine/Edges.lean ====
section
/-! DEFINITION. Issuing an edge to its output or unit (R95 to R98, R143), the runtime guard (R146, R147), the units'
side of it (R169, R175, R208 to R218, R242, R258, R299), the results, and the basecamp templates (R371). -/

namespace Sys2Proof.Machine

/-! ### Units that take a single edge -/

def Dev.modCnv (c : Fin 2) (f : Cnv → Cnv) (d : Dev) : Dev := { d with cnv := upd d.cnv c f }

/-- A push of EMIT that was lost (R238). -/
def Dev.emitLost (k : Fin 8) (d : Dev) : Dev := d.modCe k fun c => { c with emitLost := true, emitLosts := c.emitLosts + 1 }

/-- An urgent request that is lost: an EMIT counts at its engine also (R258). -/
def Dev.urgentLost (c : Fin 2) (emit : Option (Fin 8)) (d : Dev) : Dev :=
  let d := d.modCnv c fun x => { x with urgLost := true, urgLosts := x.urgLosts + 1 }
  match emit with
  | some k => d.emitLost k
  | none => d

/-- An urgent conversion request that arrives at `at_`: its SEQ, the requests ahead of it, and whether it was lost (R258,
R260). A SAMPLE event's goes before the EMITs of its own clock, the last of which is lost if it makes five. -/
def Dev.urgent (c : Fin 2) (mux osr : Nat) (at_ : Ns) (emit : Option (Fin 8)) (d : Dev) : Nat × Nat × Bool × Dev :=
  let x := d.cnv[c]
  let before (y : UrgReq) : Bool := emit.isSome || y.emit.isNone || y.at_ != at_
  let ahead := x.urgQ.takeWhile before
  let behind := x.urgQ.dropWhile before
  if 4 ≤ ahead.length ∨ bit x.cfg 0 = false ∨ d.convOn = false then (0, 0, true, d.urgentLost c emit)
  else
    let seq := x.nextSeq - BitVec.ofNat 16 behind.length
    let r : UrgReq := { mux := BitVec.ofNat 4 mux, osr := osr, seq := seq, at_ := at_, emit := emit }
    let all := ahead ++ r :: behind.map fun y => { y with seq := y.seq + 1 }
    let d := match all[4]? with
      | some y => d.urgentLost c y.emit
      | none => d.modCnv c fun x => { x with nextSeq := x.nextSeq + 1 }
    (seq.toNat, ahead.length + x.urgRun.isSome.toNat, false, d.modCnv c fun x => { x with urgQ := all.take 4 })

/-- A line is set; setting a set one is counted (R299). -/
def Dev.raiseLine (i : Nat) (d : Dev) : Dev :=
  let s := d.pios
  { d with pios := if s.lines.getLsbD i then { s with merged := s.merged + 1 }
                   else { s with lines := s.lines ||| BitVec.ofNat 8 (2 ^ i) } }

/-- A flag is set (R299). -/
def Dev.raiseFlag (i : Nat) (d : Dev) : Dev :=
  let s := d.pios
  { d with pios := if s.flags.getLsbD i then { s with merged := s.merged + 1 }
                   else { s with flags := s.flags ||| BitVec.ofNat 8 (2 ^ i) } }

/-- The single edge of a SAMPLE, CALC, CAPT or PIO event (R143), issued at `tp`: the unit's part of the result. -/
def Dev.issueUnit (o : Owner) (ev : Event) (tp : Ns) (d : Dev) : Dev :=
  match ev.type with
  | .sample =>
    let (s, q, l, d) := d.urgent (Fin.ofNat 2 ev.output) (fld ev.typeArg 0 4) (fld ev.typeArg 4 4) tp none
    d.modPart o fun p => { p with seq := s, qpos := q, lost := l }
  | .calc =>
    let k := Fin.ofNat 8 ev.output
    let n := d.ce[k].queue.length
    let d := match d.calcEntry k (fld ev.typeArg 0 13) with
      | some i => d.trigger k (fld ev.typeArg 0 13) i (fld (d.trigWord k i) 32 16) tp
      | none => d
    d.modPart o fun p => { p with qdepth := satN 16 (n + 1), qfull := decide (16 ≤ n) }
  | .capt =>
    let d := d.snapshot 1 ev.unit (ev.coord d.half) 0
    let n := d.snap.num.toNat
    d.modPart o fun p => { p with snapNum := n }
  | .pio => d.raiseLine ev.output
  | _ => d

/-! ### First edges -/

/-- The start edge of an INJ_DI event at `tp`: the sequencer latches the profile, its arguments, t_s and t_e (R175);
an off-state test is aborted (R200). -/
def Dev.startDi (o : Owner) (ev : Event) (num : Nat) (prof : Profile) (tp : Ns) (d : Dev) : Dev :=
  (d.modBank (diBank ev.output) fun b =>
    { b with owner := o, tag := ev.tag, ls := diLs ev.output, events := b.events + 1, onTime := 0, olMet := false, scTaken := false
             dclass := 0, sumCodes := 0, endSamples := 0, testRun := false, testB := none }).modPsq (diBank ev.output) fun q =>
    { q with phase := .ready, stepAt := tp, pc := prof.start, prof := num, profStart := prof.start
             profLen := prof.len, flags := 0, lc := Vector.replicate 2 0, body := Vector.replicate 2 (0, 0)
             args := ev.profArg, ts := tp, te := tp + ev.durA, endAt := none, ahead := true, runs := q.runs + 1
             last := { profile := num, tEndCmd := ev.durA } }

/-- The on edge of a PFI output (R169, R170). -/
def Dev.startPfi (o : Owner) (n : Fin 16) (tp : Ns) (d : Dev) : Dev :=
  (d.modPfi n fun p =>
    { p with pin := p.pin.set true tp d.sup.vgdLow, owner := o, events := p.events + 1, measOn := p.measOn ++ [tp]
             testRun := false, testPhase2 := false }).modPart o fun q => { q with wasOn := true }

/-- The off edge of a PFI output (R169, R170). -/
def Dev.stopPfi (o : Owner) (n : Fin 16) (tp : Ns) (d : Dev) : Dev :=
  (d.modPfi n fun p => { p with pin := p.pin.set false tp false, owner := .none, measOff := p.measOff ++ [tp], lastOff := some tp
                                offAt := tp }).modPart o fun q => { q with offEdge := tp }

/-- The dwell start of an ignition output (R210). -/
def Dev.startDwell (o : Owner) (n : Fin 16) (tag : W32) (tp : Ns) (d : Dev) : Dev :=
  d.modIgn n fun g => { g with pin := g.pin.set true tp (d.sup.vgdLow && bit g.cfg 1), owner := o, dwellAt := tp, tag := tag }

/-- The opening edge of a GATE output; a closing edge still under way is withdrawn, so the output stays active (R217,
R218). -/
def Dev.openGate (o : Owner) (n : Fin 8) (tp : Ns) (d : Dev) : Dev :=
  d.modGate n fun g =>
    { g with pin := if !g.pin.on && d.dtime < g.pin.since then { on := true, since := d.dtime } else g.pin.set true tp false
             owner := o, windows := g.windows + 1 }

def Dev.closeGate (o : Owner) (n : Fin 8) (tp : Ns) (d : Dev) : Dev :=
  d.modGate n fun g => if g.owner = o then { g with pin := g.pin.set false tp false, owner := .none } else g

/-! ### The runtime guard (R146, R147) -/

/-- Detail of the first check that fails for a first edge at the pin at `tp`, or 0. -/
def Dev.guardDetailOf (d : Dev) (ev : Event) (tp : Ns) : Nat :=
  let early (off : Option Ns) (least : Nat) : Bool := match off with
    | some x => decide (tp < x + least)
    | none => false
  match ev.type with
  | .di =>
    let k := diBank ev.output
    let j := diLs ev.output
    let b := d.bank k
    if b.owner ≠ .none ∧ b.ls = j then 1
    else if early b.relLs[j] (b.offTime j) then 2
    else if b.owner ≠ .none ∨ early (if b.everRel then some b.rel else none) (d.bankGap k.val) then 3
    else 0
  | .pfi =>
    let p := d.pfi[Fin.ofNat 16 ev.output]
    if p.owner ≠ .none then 1 else if early p.lastOff (d.minOff .pfi ev.output) then 2 else 0
  | .ign =>
    let g := d.ign[Fin.ofNat 16 ev.output]
    if g.owner ≠ .none ∨ g.soft then 1 else if early g.lastOff (d.minOff .ign ev.output) then 2 else 0
  | _ => 0

/-- BOX_GUARD and GUARD_TRIP of an action (R147, R390). -/
def Dev.guardTrip (detail box : Nat) (c : BitVec 16) (ev : Event) (d : Dev) : Dev :=
  (d.modLoft fun l => { l with trips := l.trips + 1, guardDetail := BitVec.ofNat 4 detail, guardBox := BitVec.ofNat 7 box
                               guardTag := ev.tag })
  |>.raise { source := 10, detail := detail, ctrl := c, coord := ev.coord d.half, key := some (ev.type, ev.output) }

/-! ### Edges of a box -/

def Dev.countLate (b : Bool) (d : Dev) : Dev :=
  if b then { d with pos := { d.pos with lateCnt := d.pos.lateCnt + 1 } } else d

/-- The first edge of a box goes out for `tp` (R95 to R97). The guard acts first (R146). -/
def Dev.issueFirst (b : Fin 128) (tp : Ns) (late : Bool) (d : Dev) : Dev :=
  let x := d.box b
  let ev := x.ev
  let det := d.guardDetailOf ev tp
  if det ≠ 0 then
    (d.closeBox b { result := .endedFault, reason := 10, unstarted := true, guard := true, time := d.dtime
                    ctrl := ctrl 2 3 b.val }).guardTrip det b.val (ctrl 2 3 b.val) ev
  else
    let o := Owner.box b
    let timed := x.first.present
    let d := (d.countLate late).modBox b fun y =>
      { y with state := .active, started := some tp, late := y.late || late
               first := if timed then { y.first with issued := true, fixed := true, time := tp } else y.first
               a := if timed then y.a else { y.a with issued := true, fixed := true, time := tp } }
    match ev.type with
    | .di => d.startDi o ev (fld ev.typeArg 0 5) (d.profile ev.output (fld ev.typeArg 0 5)) tp
    | .pfi => (d.startPfi o (Fin.ofNat 16 ev.output) tp).modBox b fun y =>
        { y with off := { present := true, fixed := true, time := tp + ev.durA } }
    | .ign => (d.startDwell o (Fin.ofNat 16 ev.output) ev.tag tp).modBox b fun y =>
        { y with part := { y.part with sLate := late }
                 a := if ev.dwellPri then { y.a with present := true, fixed := true, time := tp + ev.durA } else y.a }
    | .gate => d.openGate o (Fin.ofNat 8 ev.output) tp
    | _ => (d.issueUnit o ev tp).completeBox b

/-- SPARK_OFS: the solver's angle at the pin time less ANGLE_A (R219). -/
def Dev.sparkOfs (d : Dev) (a : Angle) (tp : Ns) : Int := d.pos.wheel.diff (d.poswAt tp).2 a

/-- The spark of a box goes out for `tp`, or a soft shutdown takes its place (R211 to R213). -/
def Dev.issueSpark (b : Fin 128) (tp : Ns) (late : Bool) (d : Dev) : Dev :=
  let x := d.box b
  let ev := x.ev
  let n := Fin.ofNat 16 ev.output
  let o := Owner.box b
  if !x.first.issued then
    -- the spark is due before the dwell has begun
    if ev.durB ≠ 0 then
      ((d.closeBox b { result := .endedFault, reason := 12, unstarted := true, time := d.dtime, ctrl := ev.unit })
        |>.modPart o fun p => { p with short := true }).modIgn n (fun g => { g with trips := g.trips + 1 })
      |>.raise { source := 12, ctrl := ev.unit, coord := ev.coord d.half }
    else
      (((d.countLate late).modBox b fun y =>
          { y with started := some tp, late := y.late || late, first := { y.first with issued := true, time := tp }
                   a := { y.a with issued := true, time := tp }, part := { y.part with sparkOfs := d.sparkOfs ev.angleA tp } })
        |>.modBox b fun y => { y with state := .closing, executed := true, complete := true }).modIgn n
          fun g => { g with sparks := g.sparks + 1, lastOff := some tp, lastDwell := 0, lastFlags := ignFlags ev.dwellPri false false false false }
  else
    let g := d.ign[n]
    if ev.durB ≠ 0 ∧ tp < g.dwellAt + ev.durB then
      let d := (d.softShutdown n).modPart o fun p => { p with short := true, soft := false }
      (((d.ignLast n (d.dtime - g.dwellAt) ev.dwellPri (d.box b).part).modIgn n fun g => { g with trips := g.trips + 1 }).closeBox b
        { result := .endedFault, reason := 12, time := d.dtime, ctrl := ev.unit })
      |>.raise { source := 12, ctrl := ev.unit, coord := ev.coord d.half }
    else
      let d := ((d.countLate late).modBox b fun y =>
        { y with late := y.late || late, a := { y.a with issued := true, fixed := true, time := tp }
                 part := { y.part with dwell := tp - g.dwellAt, sparkOfs := d.sparkOfs ev.angleA tp } })
      ((d.modIgn n fun g => { g with pin := g.pin.set false tp false, owner := .none, tag := 0, sparks := g.sparks + 1
                                     lastOff := some tp }).ignLast n (tp - g.dwellAt) ev.dwellPri (d.box b).part).completeBox b

/-- The closing edge of a GATE event (R217). -/
def Dev.issueClose (b : Fin 128) (tp : Ns) (late : Bool) (d : Dev) : Dev :=
  let x := d.box b
  let n := Fin.ofNat 8 x.ev.output
  (((d.countLate late).modBox b fun y =>
      { y with late := y.late || late, b := { y.b with issued := true, fixed := true, time := tp }
               part := { y.part with openLen := tp - y.started.getD tp } }).closeGate (.box b) n tp).completeBox b

/-- The off edge of a PFI event, always time-defined (R169). -/
def Dev.issueOff (b : Fin 128) (tp : Ns) (d : Dev) : Dev :=
  ((d.modBox b fun y => { y with off := { y.off with issued := true } }).stopPfi (.box b) (Fin.ofNat 16 (d.box b).ev.output) tp).completeBox b

/-- The angle edge A of a box: the spark of an IGN event, the first edge of every other one. -/
def Dev.issueA (b : Fin 128) (tp : Ns) (late : Bool) (d : Dev) : Dev :=
  if (d.box b).ev.type = .ign then d.issueSpark b tp late else d.issueFirst b tp late

/-- The edge of a box that falls due: the unissued fixed one of least time, once its issue moment has come (R95). The single
edge of a SAMPLE, CALC, CAPT or PIO event acts in its unit at its fixed time (R143, R279). A box that closes issues nothing
more. -/
def Dev.issueDue (b : Fin 128) (d : Dev) : Dev :=
  let x := d.box b
  if x.state ≠ .committed ∧ x.state ≠ .active ∨ x.ending.isSome then d
  else
    let lead := if x.ev.type.drives then 32 else 0
    let due (y : BoxEdge) : Bool := y.present && y.fixed && !y.issued && decide (y.time ≤ d.dtime + lead)
    let le (y z : BoxEdge) : Bool := !due z || decide (y.time ≤ z.time)
    let isPfiEnd := x.ev.type == .pfi && x.ev.isEnd
    let a := if isPfiEnd then {} else x.a
    if due x.first ∧ le x.first a ∧ le x.first x.off then d.issueFirst b x.first.time false
    else if due a ∧ le a x.b then d.issueA b a.time false
    else if due x.b then d.issueClose b x.b.time false
    else if due x.off then d.issueOff b x.off.time
    else d

/-! ### Basecamp templates (R371) -/

def Dev.modTemplate (i : Nat) (f : Template → Template) (d : Dev) : Dev :=
  d.modSup fun s => { s with templates := updL s.templates i f }

/-- The occurrence is over; the next one is the next cycle's. -/
def Template.advance (x : Template) : Template :=
  { x with running := false, due := none, ev := { x.ev with cycle := x.ev.cycle + 1 } }

/-- Busy, disabled, inside its minimum off-time, or held by the bank latch (R371). -/
def Dev.templateBlocked (d : Dev) (ev : Event) (tp : Ns) : Bool :=
  (d.disabledBy { ev with cyl := 0x1F }).isSome || d.guardDetailOf ev tp ≠ 0
    || (ev.type == .gate && d.gate[Fin.ofNat 8 ev.output].owner != .none)

/-- First edge of a template at `tp`. -/
def Dev.templateStart (i : Nat) (tp : Ns) (d : Dev) : Dev :=
  match d.sup.templates[i]? with
  | none => d
  | some x =>
    let ev := x.ev
    if d.templateBlocked ev tp then
      (d.modSup fun s => { s with bcSkipped := s.bcSkipped + 1 }).modTemplate i Template.advance
    else
      let o := Owner.template i
      let d := d.modSup fun s => { s with bcEvents := s.bcEvents + 1 }
      match ev.type with
      | .di => (d.startDi o ev 0 (d.bank (diBank ev.output)).bcProfile tp).modTemplate i fun y => { y with running := true, due := none }
      | .pfi => (d.startPfi o (Fin.ofNat 16 ev.output) tp).modTemplate i fun y =>
          { y with running := true, due := some (tp + ev.durA, false) }
      | .ign => (d.startDwell o (Fin.ofNat 16 ev.output) ev.tag tp).modTemplate i fun y =>
          { y with running := true, due := if ev.dwellPri then some (tp + ev.durA, false) else none }
      | .gate => (d.openGate o (Fin.ofNat 8 ev.output) tp).modTemplate i fun y => { y with running := true, due := none }
      | _ => (d.issueUnit o ev tp).modTemplate i Template.advance

/-- Last edge of a template at `tp`. -/
def Dev.templateEnd (i : Nat) (tp : Ns) (d : Dev) : Dev :=
  match d.sup.templates[i]? with
  | none => d
  | some x =>
    let ev := x.ev
    let o := Owner.template i
    let d := d.modTemplate i Template.advance
    match ev.type with
    | .pfi => d.stopPfi o (Fin.ofNat 16 ev.output) tp
    | .gate => d.closeGate o (Fin.ofNat 8 ev.output) tp
    | .ign =>
      let n := Fin.ofNat 16 ev.output
      let g := d.ign[n]
      if ev.durB ≠ 0 ∧ tp < g.dwellAt + ev.durB then
        (((d.softShutdown n).modIgn n fun g => { g with trips := g.trips + 1 }).ignLast n (d.dtime - g.dwellAt) ev.dwellPri { short := true })
        |>.raise { source := 12, ctrl := ev.unit, coord := ev.coord d.half }
      else
        (d.modIgn n fun g => { g with pin := g.pin.set false tp false, owner := .none, tag := 0, sparks := g.sparks + 1
                                      lastOff := some tp }).ignLast n (tp - g.dwellAt) ev.dwellPri {}
    | _ => d

/-- The mode lets a template's occurrence begin: in BASECAMP in FULL, or through the handover cycle (R371, R372,
R380). -/
def Dev.templateMay (d : Dev) (ev : Event) : Bool :=
  d.pos.sync == .full &&
    (match d.sup.handover with
     | some h => (h - ev.cycle).toInt ≥ 0 && d.sup.mode != .afterrun
     | none => d.sup.mode == .basecamp)

/-- A template's time-defined edge falls due. -/
def Dev.templateDue (i : Nat) (d : Dev) : Dev :=
  match d.sup.templates[i]? with
  | none => d
  | some x =>
    match x.due with
    | some (t, true) => if t ≤ d.dtime + 32 then (if d.templateMay x.ev then d.templateStart i t else d.modTemplate i Template.advance) else d
    | some (t, false) => if t ≤ d.dtime + 32 ∧ x.running then d.templateEnd i t else d
    | none => d

end Sys2Proof.Machine
end

