-- ==== Sys2Proof/Machine/CfgRegs.lean ====
section
/-! DEFINITION. Writes of the registers of pages 0x08 to 0x18 (R73, R101, R134, R152, R413). They stand before the
decoder because the handover applies held loader writes to these pages (R353, R359). `loader` lifts the conditions on
the device's state (R353). A write that carries an ignored value changes nothing at all (R436). -/

namespace Sys2Proof.Machine

def Dev.modPos (f : Pos → Pos) (d : Dev) : Dev := { d with pos := f d.pos }
def Dev.modAdm (f : Adm → Adm) (d : Dev) : Dev := { d with adm := f d.adm }
def Dev.modRope (f : Rope → Rope) (d : Dev) : Dev := { d with rope := f d.rope }

/-- The state condition of R73. -/
def Dev.mayCfg (loader : Bool) (d : Dev) : Bool := loader || d.pos.sync == .stopped

/-- A write that takes effect, or one that is ignored. -/
def Dev.guarded (ok : Bool) (ign act : Dev → Dev) (d : Dev) : Dev := if ok then act d else ign d

/-! ### The position pages -/

/-- Fields that a write of a bands register must leave in order: NOISE, NORM_LO, NORM_HI (R73). -/
def bandsOk (v : W64) : Bool := fld v 0 12 < fld v 12 12 && fld v 12 12 < fld v 24 12

/-- A pair of hold limits that a write may leave (R101). -/
def holdOk (lo hi : Nat) : Bool := (lo == 0 && hi == 0) || decide (lo < hi)

/-- FILT of CRK_0, CRK_1 and the relayed cam is at most 32 on a lead that relays (R323). -/
def relayOk (role : Bool) (ropeCfg : W64) (filt : Nat → Nat) : Bool :=
  role || !bit ropeCfg 2 || (filt 0 ≤ 32 && filt 1 ≤ 32 && filt (2 + fld ropeCfg 3 2) ≤ 32)

def Dev.filtOf (d : Dev) (i : Nat) : Nat := fld ((d.pos.inputs.toList[i]?).getD {}).cfg 4 8

def Dev.posIgn (d : Dev) : Dev := d.modPos fun p => { p with cfgIgn := true }

/-- A configuration write of the position pages. -/
def Dev.wrPosCfg (loader ok : Bool) (f : Pos → Pos) (d : Dev) : Dev :=
  d.guarded (ok && d.mayCfg loader) Dev.posIgn (Dev.modPos f)

/-- Page 0x08. -/
def Dev.wrPage08 (loader : Bool) (ofs : Nat) (v : W64) (d : Dev) : Dev :=
  match ofs with
  | 0x28 => d.modPos fun p =>
      { p with cfgIgn := p.cfgIgn && !bit v 32, revSeen := p.revSeen && !bit v 33
               lossSeen := p.lossSeen && !bit v 34, switched := p.switched && !bit v 35 }
  | 0x38 => d.wrPosCfg loader true fun p => { p with lossPolicy := v &&& 0x1FE }
  | 0x40 => d.wrPosCfg loader true fun p => { p with syncCfg := v &&& mask64 0 24 }
  | 0x48 => d.wrPosCfg loader (bandsOk v) fun p => { p with bandsRun := v &&& mask64 0 46 }
  | 0x50 => d.wrPosCfg loader (bandsOk v) fun p => { p with bandsCrank := v &&& mask64 0 46 }
  | 0x58 => d.wrPosCfg loader (fld v 16 16 < fld v 0 16) fun p => { p with runThr := v &&& mask64 0 32 }
  | 0x60 => d.wrPosCfg loader (fld v 0 2 != 3) fun p => { p with dual := v &&& 0x00FFFFFFFFFF3FF3 }
  | _ => d

/-- CLR of POS_RESID, in every state (R100, R101). -/
def Dev.clearResid (d : Dev) : Dev := d.modPos fun p => { p with residMax := 0 }

/-- Page 0x09. -/
def Dev.wrPage09 (loader : Bool) (p : Path) (ofs : Nat) (v : W64) (d : Dev) : Dev :=
  match ofs with
  | 0x00 =>
    d.wrPosCfg loader (fld v 0 2 != 3 && fld v 2 2 != 3 && fld v 8 9 ≤ 256 && fld v 17 9 ≤ 256) fun x =>
      { x with predCfg := v &&& 0x03FFFF1F }
  | 0x08 =>
    d.wrPosCfg loader (holdOk (fld v 0 12) (fld v 12 12) && holdOk (fld v 24 12) (fld v 36 12)) fun x =>
      { x with predHold := v &&& mask64 0 48 }
  | 0x18 => if bit v 63 then d.clearResid else d
  | 0x28 => d.wrPosCfg loader (fld v 2 4 != 0) fun x => { x with learnCfg := v &&& mask64 0 38 }
  | 0x38 =>
    if fld v 0 8 < d.pos.wheel.crkPos then d.modCtx p fun c => { c with corrIdx := v &&& 0xFF } else d.posIgn
  | 0x40 =>
    let i := fld (d.ctx p).corrIdx 0 8
    let c := signed 16 (fld v 0 16)
    let here := match d.pos.wheel.teeth[i]? with | some t => t.present | none => false
    d.wrPosCfg loader (here && decide (-4096 ≤ c) && decide (c ≤ 4096)) fun x => { x with corr := x.corr.set i c }
  | _ => d

/-- Page 0x0A: the selected input (R73, R414). A register of POS_IN_SEL 6 or 7 does not exist. -/
def Dev.wrPage0A (loader : Bool) (p : Path) (ofs : Nat) (v : W64) (d : Dev) : Dev :=
  match ofs with
  | 0x00 => if fld v 0 3 < 6 then d.modCtx p fun c => { c with inSel := v &&& 7 } else d
  | 0x08 =>
    let i := fld (d.ctx p).inSel 0 3
    let ok := relayOk d.half d.rope.cfg fun j => if j = i then fld v 4 8 else d.filtOf j
    d.wrPosCfg loader ok fun x =>
      { x with inputs := upd x.inputs (Fin.ofNat 6 i) fun y => { y with cfg := v &&& 0xFFFFFFFFFFF } }
  | _ => d

/-- Page 0x0B. -/
def Dev.wrPage0B (loader : Bool) (ofs : Nat) (v : W64) (d : Dev) : Dev :=
  match ofs with
  | 0x00 => d.wrPosCfg loader true fun x => { x with measCfg := v &&& 0x0000FFFFFFFFFF07 }
  | _ => d

/-! ### Admission -/

def Dev.admIgn (d : Dev) : Dev := d.modAdm fun a => { a with cfgIgn := true }

/-- Page 0x10. -/
def Dev.wrPage10 (loader : Bool) (ofs : Nat) (v : W64) (d : Dev) : Dev :=
  let cfg (ok : Bool) (f : Adm → Adm) : Dev := d.guarded (ok && d.mayCfg loader) Dev.admIgn (Dev.modAdm f)
  match ofs with
  | 0x00 => cfg true fun a => { a with cfg := v &&& 0xF }
  | 0x08 => cfg (fld v 32 32 != 0) fun a => { a with env := v &&& 0xFFFFFFFF000003FF }
  | 0x18 => cfg true fun a => { a with bankGap := v }
  | 0x30 => d.modAdm fun a => { a with cfgIgn := a.cfgIgn && !bit v 49, netFull := a.netFull && !bit v 50 }
  | _ => d

/-- Page 0x11. The table of R134 gives ENTRY 0 to 15 on the yard of an engine and does not say what a write of 16 to 31
does there; the whole write is ignored with no flag, as for a bad YARD (DESIGN CHOICE, assumption 58; safe: no register
changes). -/
def Dev.wrPage11 (p : Path) (ofs : Nat) (v : W64) (d : Dev) : Dev :=
  match ofs with
  | 0x00 =>
    let y := fld v 0 4
    if y < 8 ∧ fld v 8 5 < 16 ∨ y = 8 then d.modCtx p fun c => { c with yardSel := v &&& 0x1F0F } else d
  | _ => d

/-- A submission: the staged block enters the network yard, or finds it full (R109). -/
def Dev.netSubmit (p : Path) (d : Dev) : Dev :=
  let y := d.adm.net
  let pend (code : Nat) (d : Dev) : Dev := d.modCtx p fun c => { c with netResult := put 0 4 code }
  if 32 ≤ y.fill then (pend 14 d).modAdm fun a => { a with netFull := true }
  else
    let i := (y.head + y.fill) % 32
    let words := (d.ctx p).netW
    (pend 15 d).modAdm fun a =>
      { a with net := { y with
          entries := upd y.entries (Fin.ofNat 32 i) fun _ => { words := words, result := 15, waiting := true, path := p }
          fill := y.fill + 1, hwm := max y.hwm (y.fill + 1), submitted := y.submitted + 1 } }

/-- Page 0x12. -/
def Dev.wrPage12 (p : Path) (ofs : Nat) (v : W64) (d : Dev) : Dev :=
  if ofs < 0x40 then d.modCtx p fun c => { c with netW := upd c.netW (Fin.ofNat 8 (ofs / 8)) fun _ => v }
  else if ofs = 0x40 ∧ bit v 0 then d.netSubmit p
  else d

/-- Page 0x13. HOLD of an index that names no standing event takes nothing. -/
def Dev.wrPage13 (p : Path) (ofs : Nat) (v : W64) (d : Dev) : Dev :=
  match ofs with
  | 0x00 => d.modCtx p fun c => { c with stdSel := v &&& 0xFF }
  | 0x10 =>
    let i := fld (d.ctx p).stdSel 0 8
    d.modAdm fun a => { a with standing := updL a.standing i fun s => { s with hold := bit v 0 } }
  | _ => d

/-! ### Boxes and loft -/

/-- Page 0x14. -/
def Dev.wrPage14 (p : Path) (ofs : Nat) (v : W64) (d : Dev) : Dev :=
  if ofs = 0 then d.modCtx p fun c => { c with boxSel := v &&& 0x7F } else d

/-- Every arming distance lies from 2 to 60 (R152). -/
def loftCfgOk (v : W64) : Bool := (List.range 8).all fun i => decide (2 ≤ fld v (6 * i) 6) && decide (fld v (6 * i) 6 ≤ 60)

/-- Page 0x18. -/
def Dev.wrPage18 (loader : Bool) (p : Path) (ofs : Nat) (v : W64) (d : Dev) : Dev :=
  match ofs with
  | 0x00 => d.guarded (loftCfgOk v && d.mayCfg loader) (Dev.modLoft fun l => { l with cfgIgn := true })
      (Dev.modLoft fun l => { l with cfg := v &&& mask64 0 48 })
  | 0x08 => d.modLoft fun l => { l with cfgIgn := l.cfgIgn && !bit v 24, ue := l.ue && !bit v 25 }
  | 0x10 => d.modCtx p fun c => { c with loftIdx := v &&& 0x7FF }
  | 0x60 => d.modCtx p fun c => { c with chainIdx := v &&& 0xFF0F }
  | _ => d

/-- A write of a register of pages 0x08 to 0x18; RO registers and unassigned offsets take nothing. -/
def Dev.wrLow (loader : Bool) (p : Path) (page ofs : Nat) (v : W64) (d : Dev) : Dev :=
  match page with
  | 0x08 => d.wrPage08 loader ofs v
  | 0x09 => d.wrPage09 loader p ofs v
  | 0x0A => d.wrPage0A loader p ofs v
  | 0x0B => d.wrPage0B loader ofs v
  | 0x10 => d.wrPage10 loader ofs v
  | 0x11 => d.wrPage11 p ofs v
  | 0x12 => d.wrPage12 p ofs v
  | 0x13 => d.wrPage13 p ofs v
  | 0x14 => d.wrPage14 p ofs v
  | 0x18 => d.wrPage18 loader p ofs v
  | _ => d

end Sys2Proof.Machine
end

