-- ==== Sys2Proof/Machine/Pass.lean ====
section
/-! DEFINITION. The solver's pass and the paging at an accepted forward tooth (R91 to R99, R138 to R145, R210 to R212),
and the basecamp templates at a tooth (R371). The position already stands at the new tooth; `tD` is its t_d. -/

namespace Sys2Proof.Machine

/-- Offset of an angle of a cycle from the last accepted tooth. -/
def Dev.ofsA (d : Dev) (e : Event) : Int := d.pos.toAxis e.cycle e.angleA

/-- Offset of ANGLE_B. -/
def Dev.ofsB (d : Dev) (e : Event) : Int := d.ofsA e + d.pos.wheel.ahead e.angleA e.angleB

/-- Angle from the last accepted tooth to the next present one. -/
def Pos.nextSpan (p : Pos) : Nat := p.wheel.spanAngle (p.wheel.next p.absPos)

/-- Solver's time of an offset; an angle already reached has the tooth's own time (it is late in any case, R96). -/
def Pos.edgeTime (p : Pos) (ofs : Int) : Ns := if ofs ≤ 0 then p.lastTooth.getD 0 else p.timeOf ofs.toNat

/-- Edge A is defined by time from the first edge: a dwell-priority spark, the end of a PFI pulse given by its end. -/
def Event.timedA (e : Event) : Bool := (e.type == .ign && e.dwellPri) || (e.type == .pfi && e.isEnd)

/-- What one solve of a box gives: its edges, which of them this tooth fixes, and their least offset. -/
structure Solved where
  first : BoxEdge := {}
  a     : BoxEdge := {}
  b     : BoxEdge := {}
  fixS  : Bool := false
  fixA  : Bool := false
  fixB  : Bool := false
  key   : Int := 0

/-- Some edge of the box commits at this tooth. -/
def Solved.commits (x : Solved) : Bool := x.fixS || x.fixA || x.fixB

/-- The solver's times of a box at the present tooth (R87, R92, R93, R210, R212). -/
def Dev.solve (x : Box) (d : Dev) : Solved :=
  let p := d.pos
  let ev := x.ev
  let oa := d.ofsA ev
  let ob := d.ofsB ev
  let sp : Int := p.nextSpan
  let tA : Nat := if x.a.fixed then x.a.time else p.edgeTime oa
  let tS : Int := (tA : Int) - ev.durA
  let fixS := x.first.present && !x.first.fixed && decide (tS < p.nextTime)
  let fixA := x.a.present && !x.a.fixed && !ev.timedA && decide (oa ≤ sp)
  let fixB := x.b.present && !x.b.fixed && decide (ob ≤ sp)
  let oS : Int := if tS ≤ (p.lastTooth.getD 0 : Nat) then 0 else p.offsetAt tS.toNat
  let keys := (if fixS then [oS] else []) ++ (if fixA then [oa] else []) ++ (if fixB then [ob] else [])
  { first := if x.first.present && !x.first.fixed then { x.first with time := tS.toNat, fixed := fixS } else x.first
    a := if !x.a.present || x.a.fixed then x.a
         else if ev.timedA && fixS then { x.a with time := tS.toNat + ev.durA, fixed := true }
         else { x.a with time := tA, fixed := fixA }
    b := if !x.b.present || x.b.fixed then x.b else { x.b with time := p.edgeTime ob, fixed := fixB }
    fixS := fixS, fixA := fixA, fixB := fixB, key := keys.min?.getD 0 }

/-- A fixed edge that lies before the earliest moment of its solve (R96). -/
def lateEdge (s : Ns) (fix : Bool) (y : BoxEdge) : Bool := fix && decide (y.time < s + 32)

/-- A box solved at the moment `s`: its edges written, and those that are late issued at once (R96). -/
def Dev.solveBox (b : Fin 128) (s : Ns) (d : Dev) : Dev :=
  let z := d.solve (d.box b)
  let at_ (fix : Bool) (y : BoxEdge) : BoxEdge :=
    if fix then { y with time := max y.time (s + 32) } else y
  let d := d.modBox b fun x =>
    let f := at_ z.fixS z.first
    { x with first := f
             a := if x.ev.timedA && z.fixS then { z.a with time := f.time + x.ev.durA } else at_ z.fixA z.a
             b := at_ z.fixB z.b
             state := if x.state == .armed && (if x.first.present then z.fixS else z.fixA) then .committed else x.state }
  let open_ (d : Dev) : Bool := (d.box b).ending.isNone && (d.box b).state != .closing
  let d := if lateEdge s z.fixS z.first then d.issueFirst b (s + 32) true else d
  let d := if lateEdge s z.fixA z.a && open_ d then d.issueA b (s + 32) true else d
  if lateEdge s z.fixB z.b && open_ d then d.issueClose b (s + 32) true else d

/-! ### The pass (R91) -/

/-- Boxes that the pass solves: an event in progress with an edge not yet fixed. -/
def Box.unsolved (x : Box) : Bool :=
  (x.state == .armed || x.state == .committed || x.state == .active) && x.ending.isNone
    && ((x.first.present && !x.first.fixed) || (x.a.present && !x.a.fixed) || (x.b.present && !x.b.fixed))

/-- The residual of every box whose tooth this is (R99). -/
def Dev.takeResiduals (r : Option Int) (d : Dev) : Dev :=
  let oa (x : Box) : Int := d.ofsA x.ev
  d.modLoft fun l => { l with boxes := l.boxes.map fun (x : Box) =>
    if x.state ≠ BoxState.free ∧ x.resid = none ∧ oa x ≤ 0 then { x with resid := some r } else x }

/-- The bound of R212 on a dwell-priority spark, as an offset. -/
def Dev.dpBound (d : Dev) (e : Event) : Option Int :=
  let n := fld d.ign[Fin.ofNat 16 e.output].cfg 56 8
  if n = 255 then none else some (d.ofsA e + (n * degree / 16 : Nat))

/-- The committed, unissued edges of a box that the tooth has reached go out at t_d + 60 ns (R97, R212). Those whose issue
moment has come by the clock of this check have gone out as fixed (R98). -/
def Dev.pullBox (tD : Ns) (b : Fin 128) (d : Dev) : Dev :=
  let d := ((d.issueDue b).issueDue b).issueDue b
  let x := d.box b
  if (x.state ≠ .committed ∧ x.state ≠ .active) ∨ x.ending.isSome then d
  else
    let late (y : BoxEdge) : Bool := y.present && y.fixed && !y.issued && decide (tD + 28 < y.time - 32)
    let hitA := if x.ev.type == .ign && x.ev.dwellPri then
        (match d.dpBound x.ev with | some o => decide (o ≤ 0) | none => false)
      else !x.ev.timedA && decide (d.ofsA x.ev ≤ 0)
    let d := if late x.a && hitA then d.issueA b (tD + 60) true else d
    let y := d.box b
    if late y.b && y.ending.isNone && decide (d.ofsB y.ev ≤ 0) then d.issueClose b (tD + 60) true else d

/-- A WAITING event ended from the loft by the runtime guard (R140, R147). -/
def Dev.noBox (i : Nat) (ev : Event) (d : Dev) : Dev :=
  (d.endWaiting i { result := .endedFault, reason := 10, unstarted := true, guard := true, time := d.dtime
                    ctrl := ctrl 2 2 0xFF }).guardTrip 4 0 (ctrl 2 2 0xFF) ev

/-- WAITING events whose angle-defined first edge has this tooth, or an earlier one, as its commit tooth (R140). -/
def Dev.noBoxes (d : Dev) : Dev :=
  let sp : Int := d.pos.nextSpan
  d.loft.descrs.foldl (init := d) fun d x =>
    if x.2.state = .waiting ∧ x.2.ev.timedFirst = false ∧ d.ofsA x.2.ev ≤ sp then d.noBox x.1 x.2.ev else d

def keyInsert (x : Int × Fin 128) : List (Int × Fin 128) → List (Int × Fin 128)
  | [] => [x]
  | y :: l => if x.1 < y.1 || (x.1 == y.1 && decide (x.2 < y.2)) then x :: y :: l else y :: keyInsert x l

/-- Solves one every 16 ns after the moment `from_` (R91, R139). -/
def solveWork (from_ : Ns) (l : List (Fin 128)) : List (Ns × PassWork) :=
  l.zipIdx.map fun x => (from_ + 16 * (x.2 + 1), .solve x.1)

/-- The boxes that a pass solves, in its order: commits by edge angle, then the others by index (R91). -/
def Dev.passOrder (d : Dev) : List (Fin 128) :=
  let todo := allBoxes.filter fun b => (d.box b).unsolved
  let commits := (todo.foldl (init := []) fun acc b =>
    let z := d.solve (d.box b)
    if z.commits then keyInsert (z.key, b) acc else acc).map (·.2)
  commits ++ todo.filter fun b => !(d.solve (d.box b)).commits

/-- A pass begins at an accepted forward tooth (R91): its first work is due at t_d + 28 ns. -/
def Dev.startPass (stamp tD : Ns) (d : Dev) : Dev :=
  d.modPos fun p => { p with passEnd := tD + 28, work := [(tD + 28, .pull stamp tD)] }

/-- The longest pass (POS_SOLVE_STAT.PASS_MAX). -/
def Dev.notePass (tD : Ns) (d : Dev) : Dev :=
  let n := satN 4095 (d.dtime - tD)
  d.modPos fun p => { p with passMax := if p.passMax.toNat < n then BitVec.ofNat 12 n else p.passMax }

/-- Sync is lost: a pass in progress stops at once (R94), and what would have followed it does not take place. -/
def Dev.stopPass (d : Dev) : Dev :=
  let d := match d.pos.work.findSome? fun x => match x.2 with
      | .pull _ tD => some tD
      | .page _ tD => some tD
      | _ => none with
    | some tD => d.notePass tD
    | none => d
  d.modPos fun p => { p with work := [], passEnd := min p.passEnd d.dtime }

/-! ### Paging (R139) -/

/-- The words of a descriptor read from the loft's bank; the answer names those that are uncorrectable. -/
def Dev.readDescr (i : Nat) (d : Dev) : List Nat × Dev :=
  (List.range 4).foldl (init := ([], d)) fun acc j =>
    let (bad, d) := acc.2.readWord 4 (4 * i + j)
    (if bad then acc.1 ++ [j] else acc.1, d)

/-- What an uncorrectable descriptor does: MEM_UE_LOFT, and the event ends with ENDED_FAULT (R150). The event itself stays as
it is: the chains are kept outside the SRAM (R137), and a box that runs it holds its own copy (R141). -/
def Dev.loftError (e : Env) (i : Nat) (bad : List Nat) (d : Dev) : Dev :=
  let d := d.modLoft fun l => { l with ue := true, ueCnt := l.ueCnt + 1 }
  match d.descr i with
  | none => d
  | some x =>
    let ev := x.ev.blank bad
    let d := (d.modDescr i fun y => { y with bad := bad }).raise
      { source := 23, detail := 4, ctrl := ctrl 2 2 0xFF, coord := ev.coord d.half, key := some (ev.type, ev.output) }
    match x.state with
    | .waiting => d.endWaiting i { result := .endedFault, reason := 23, unstarted := true, memErr := true, time := d.dtime
                                   ctrl := ctrl 2 2 0xFF }
    | .inBox =>
      let b := Fin.ofNat 128 x.box
      (d.endBox e b .endedFault 23).modBox b fun y =>
        { y with ending := y.ending.map fun z => if z.reason = 23 then { z with memErr := true } else z }
    | .ending => d

/-- Earlier of two paging candidates: starved ones first (R140), then by R139. -/
def Dev.pageBefore (d : Dev) (pf : Nat) (x y : Nat × Descr) : Bool :=
  if x.2.starved != y.2.starved then x.2.starved else
  let key (z : Nat × Descr) : Int := d.pos.toAxis z.2.ev.armCycle z.2.ev.armAngle
  let a := key x
  let b := key y
  if a ≠ b then decide (a < b)
  else if x.2.ev.prio ≠ y.2.ev.prio then decide (y.2.ev.prio < x.2.ev.prio)
  else
    let f := d.firstEdge pf x.2.ev
    let g := d.firstEdge pf y.2.ev
    if f ≠ g then decide (f < g) else decide (x.1 < y.1)

def Dev.pageInsert (d : Dev) (pf : Nat) (x : Nat × Descr) : List (Nat × Descr) → List (Nat × Descr)
  | [] => [x]
  | y :: l => if d.pageBefore pf x y then x :: y :: l else y :: d.pageInsert pf x l

/-- An event copied into a box (R141, R142). -/
def Dev.fillBox (b : Fin 128) (i : Nat) (ev : Event) (d : Dev) : Dev :=
  let resid : Option (Option Int) := if d.ofsA ev ≤ 0 then some none else none
  ((d.modBox b fun x =>
      { gen := x.gen + 1, lastResult := x.lastResult, lastTag := x.lastTag, state := .armed, loft := i, ev := ev
        first := { present := ev.timedFirst }, a := { present := true }, b := { present := ev.type == .gate }
        resid := resid }).modDescr i fun y => { y with state := .inBox, box := b.val, starved := false }).modLoft fun l =>
    { l with paged := l.paged + 1 }

/-- The commit tooth of the event's first edge is the present tooth, or has passed. -/
def Dev.commitReached (d : Dev) (ev : Event) : Bool :=
  let p := d.pos
  if ev.timedFirst then decide ((p.edgeTime (d.ofsA ev) : Int) - ev.durA < p.nextTime) else decide (d.ofsA ev ≤ p.nextSpan)

/-- The pager over its candidates in order. The answer names the boxes filled, in order. -/
def Dev.pageAll (e : Env) : List (Nat × Descr) → Dev → List (Fin 128) × Dev
  | [], d => ([], d)
  | x :: l, d =>
    let (bad, d) := d.readDescr x.1
    if !bad.isEmpty then d.loftError e x.1 bad |> Dev.pageAll e l
    else
      match d.disabledBy x.2.ev with
      | some src =>
        d.endWaiting x.1 { result := .endedFault, reason := src, unstarted := true, time := d.dtime, ctrl := ctrl 2 2 0xFF }
        |> Dev.pageAll e l
      | none =>
        match allBoxes.find? fun b => (d.box b).state == .free with
        | some b =>
          let r := (d.fillBox b x.1 x.2.ev) |> Dev.pageAll e l
          (b :: r.1, r.2)
        | none =>
          let d := (d.modLoft fun k => { k with starved := k.starved + 1 }).modDescr x.1 fun y => { y with starved := true }
          (if d.commitReached x.2.ev then d.noBox x.1 x.2.ev else d) |> Dev.pageAll e l

/-- Paging from the loft, in the clock in which the pass ends (R139); each event copied is then solved once. -/
def Dev.page (e : Env) (d : Dev) : List (Fin 128) × Dev :=
  let pf := d.pFast
  let todo := (d.loft.descrs.filter fun x => x.2.state == .waiting && d.armReached x.2.ev).foldl
    (init := []) fun acc x => d.pageInsert pf x acc
  let r := Dev.pageAll e todo d
  (r.1, r.2.notePeaks)

/-! ### Basecamp templates at a tooth (R371) -/

/-- Time-defined first edge of a template at order 0: t_k + (angle / base pitch) × N_k − DUR_A. -/
def Dev.templateTime (ev : Event) (d : Dev) : Int :=
  let p := d.pos
  (p.lastTooth.getD 0 : Nat) + divRound (d.ofsA ev * p.wheel.crkPos * p.nk) (rev360 * 2 ^ 16) - ev.durA

/-- t_k + p × N_k. -/
def Pos.orderZero (p : Pos) : Nat := p.lastTooth.getD 0 + divRoundN (p.wheel.span (p.wheel.next p.absPos) * p.nk) (2 ^ 40)

/-- One template at an accepted tooth in FULL. -/
def Dev.templateTooth (tD : Ns) (i : Nat) (d : Dev) : Dev :=
  match d.sup.templates[i]? with
  | none => d
  | some x =>
    let ev := x.ev
    let oa := d.ofsA ev
    let sp : Int := d.pos.nextSpan
    if x.running then
      if ev.type == .gate then (if d.ofsB ev ≤ sp then d.templateEnd i (tD + 60) else d)
      else if ev.type == .ign && !ev.dwellPri then (if oa ≤ sp then d.templateEnd i (tD + 60) else d)
      else d
    else if x.due.isSome then d
    else if oa ≤ 0 then d.modTemplate i Template.advance
    else if !d.templateMay ev then d
    else if ev.timedFirst then
      let t := d.templateTime ev
      if t < d.pos.orderZero then
        if t < d.sup.bcFull then d.modTemplate i Template.advance
        else if t < (tD + 28 + 32 : Nat) then d.templateStart i (tD + 60)
        else d.modTemplate i fun y => { y with due := some (t.toNat, true) }
      else d
    else if oa ≤ sp then d.templateStart i (tD + 60)
    else d

def Dev.templatesTooth (tD : Ns) (d : Dev) : Dev :=
  if d.pos.sync = .full then (List.range d.sup.templates.length).foldl (init := d) fun d i => d.templateTooth tD i else d

/-! ### The work of a pass, item by item -/

/-- The pull-forward check, one clock for all boxes, and the choice of what the pass solves (R91, R97). At the first
accepted tooth after REV has cleared, events are paged before any of them can have missed its commit tooth (R149). -/
def Dev.pull (stamp tD : Ns) (d : Dev) : Dev :=
  let d := (allBoxes.foldl (init := d) fun d b => d.pullBox tD b).templatesTooth tD
  let d := if d.pos.revPage then d else d.noBoxes
  let l := d.passOrder
  let end_ := tD + 28 + 16 * l.length
  d.modPos fun p => { p with passEnd := end_, work := solveWork (tD + 28) l ++ (end_, .page stamp tD) :: p.work }

/-- The pass has ended: paging, whose solves and the angle wrap follow (R139, R437). -/
def Dev.pagePass (e : Env) (stamp tD : Ns) (d : Dev) : Dev :=
  let (l, d) := (d.notePass tD).page e
  let end_ := d.pos.passEnd + 16 * l.length
  d.modPos fun p => { p with revPage := false, work := solveWork p.passEnd l ++ (end_, .wrap stamp) :: p.work }

/-- FULL is entered: every template's next occurrence is the present cycle's. -/
def Dev.templatesFull (d : Dev) : Dev :=
  let (c, _) := (d.pos.cycle, d.pos.angle)
  d.modSup fun s => { s with bcFull := d.dtime, templates := s.templates.map fun x =>
    { x with running := false, due := none, ev := { x.ev with cycle := c } } }

end Sys2Proof.Machine
end

