-- ==== Sys2Proof/Machine/Sync.lean ====
section
/-! DEFINITION. Sync states, the losses, the modes that follow them, and the handover (R51 to R62, R366, R371, R372). -/

namespace Sys2Proof.Machine

/-! ### The mode that follows the sync state (R366) -/

def Dev.syncMode (d : Dev) : Mode :=
  match d.pos.sync with
  | .full => if d.pos.single && bit d.sup.cfg 0 then .limp else if d.pos.runBands then .run else .crank
  | .half => .limp
  | _ => .waitSync

/-- What takes effect at the handover: WHEEL, CYLINDERS and the held register records (R353, R359). -/
def Dev.applyHeld (d : Dev) : Dev :=
  let d := match d.pos.staged with
    | some (w, c) => d.modPos fun p =>
        { p with wheel := { w with anchorOfs := w.anchorOfs - p.switchOfs }, corr := c, staged := none }
    | none => d
  let d := match d.adm.staged with
    | some (t, o) => d.modAdm fun a => { a with tdc := t, owner := o, staged := none }
    | none => d
  let held := d.nvi.held
  let d := { d with nvi := { d.nvi with held := [] } }
  held.foldl (init := d) fun d r => d.wrLow true .loader (r.addr.toNat / 256) (r.addr.toNat % 256) r.value

/-- Full service takes over at once: the mode of R366, and the standing events that it allows (R368). -/
def Dev.takeOver (d : Dev) : Dev :=
  let d := d.applyHeld
  let m := d.syncMode
  (d.setMode m).oweStanding .basecamp m true

/-- The mode follows a change of the sync state or of the band set (R366, R368). `all_`: FULL or HALF was entered. -/
def Dev.follow (e : Env) (all_ : Bool) (d : Dev) : Dev :=
  match d.sup.mode with
  | .basecamp => if d.sup.ready && d.pos.sync != .full then d.takeOver else d
  | .waitSync | .crank | .run | .limp =>
    let old := d.sup.mode
    let m := d.syncMode
    let d := (d.setMode m).oweStanding old m all_
    if m = .limp ∧ old ≠ .limp ∧ bit d.adm.cfg 0 = false then d.endAllEvents e .endedMode 6 else d
  | _ => d

/-! ### Changes of the sync state (R52) -/

/-- Wheel entry of the last accepted tooth, as POS_SYNC.TOOTH shows it. -/
def Pos.toothIndex (p : Pos) : Nat := if p.wheel.crkPos = 0 then 0 else p.pos % p.wheel.crkPos

/-- The SYNC record of a change, and the lists that a sync-change trigger names (R52, R242, R273). ANGLE and CYCLE are
the position at the record's DTIME, held where none is known (R56). -/
def Dev.noteSync (from_ : SyncState) (cause : Nat) (tE : Ns) (d : Dev) : Dev :=
  let p := d.pos
  let (cy, an) := if p.lastTooth = some tE then (p.cycle, p.angle) else d.poswAt tE
  let d := d.present { type := 9, dtime := tE, body :=
    [ put 0 3 from_.code ||| put 3 3 p.sync.code ||| put 8 4 cause ||| put 16 8 p.toothIndex ||| put 32 32 an,
      put 0 32 cy.toNat ] }
  let s := p.sync.code
  d.fire 4 fun m => m % 2 ^ (s + 1) / 2 ^ s = 1

/-- What every change of state restarts (R85, R63, R72, R78). -/
def Pos.fresh (p : Pos) : Pos :=
  { p with hist := [], rev := false, revPage := false
           learn := { p.learn with active := false, revStart := none, prevRev := none, periods := [] }
           segments := []
           cams := Vector.replicate 4 {}, judgeFrom := none
           vvt := p.vvt.map fun v => { v with edges := [] } }

/-- No position is known: COUNTING and STOPPED. -/
def Pos.unknown (p : Pos) : Pos :=
  { p.fresh with stamps := [], nextTooth := none, toothFirst := none, toothPeriods := [], normals := 0, provisional := false, provWait := false
                 absPos := 0, refEdge := false, refFirst := none, nkPosn := 0
                 active := 0, single := false, secPos := none, secLast := none, primFailed := none
                 wheel := { p.wheel with anchorOfs := p.wheel.anchorOfs + p.switchOfs }, switchOfs := 0 }

/-- STOPPED (R30, R60). -/
def Pos.toStopped (p : Pos) : Pos :=
  { p.unknown with sync := .stopped, cycleNs := 0, rpm := 0, nk := 0, latch := false, lastTooth := none, lastEdge := none
                   lastIntv := none }

/-- FULL or HALF at position `x`: R28 for the cycle, R50 for the windows, which count from position `win`. -/
def Pos.toSynced (p : Pos) (st : SyncState) (x win : Int) : Pos :=
  let c := if p.everSynced then p.cycle + 1 else match p.keptCycle with | some c => c + 1 | none => 0
  let sh := x - p.absPos
  { p.fresh with sync := st, absPos := x, windowFrom := win, cycle := c, angle := p.wheel.angleAt x
                 everSynced := true, maxCycle := c, provisional := false, provWait := false
                 stamps := p.stamps.map fun s => (s.1 + sh, s.2), pos := p.wheel.entry x }

/-- The counts of the CYCLE record start again. -/
def Dev.resetCycle (d : Dev) : Dev :=
  d.modLoft fun l => { l with cycBoxPeak := d.boxBusy, cycLoftPeak := l.descrs.length, cycAcc := 0, cycRej := 0, cycDone := 0
                              cycEnded := 0, cycLate := 0, cycResid := 0 }

/-- FULL or HALF is entered; what was in progress has already ended if a loss led here. `judge`: the tooth from which
cam windows are judged, when the change happens at a tooth (R45). -/
def Dev.enterSynced (e : Env) (st : SyncState) (x win : Int) (cause : Nat) (tE : Ns) (atTooth : Bool) (d : Dev) : Dev :=
  let from_ := d.pos.sync
  let d := d.modPos fun p =>
    let q := p.toSynced st x win
    { q with judgeFrom := if st == .full && atTooth then some (q.cycle, q.angle) else none }
  let d := d.resetCycle
  let d := if st = .full then d.templatesFull else d
  (d.noteSync from_ cause tE).follow e true

/-- The TOOTH record of the revolution that ends or is cut short (R71, R273). -/
def toothWords : List Nat → List W64
  | [] => []
  | [a] => [put 0 32 (satN (2 ^ 32 - 1) a)]
  | a :: b :: l => (put 0 32 (satN (2 ^ 32 - 1) a) ||| put 32 32 (satN (2 ^ 32 - 1) b)) :: toothWords l

def Dev.toothRecord (part rev : Bool) (cyc : W32) (tE : Ns) (d : Dev) : Dev :=
  let p := d.pos
  if bit p.measCfg 1 && !p.toothPeriods.isEmpty then
    (d.present { type := 1, tflags := if part then 1 else 0, dtime := tE, body :=
      (put 0 8 (p.toothFirst.getD 0) ||| put 8 8 p.toothPeriods.length ||| putB 16 rev ||| put 32 32 cyc.toNat)
        :: toothWords p.toothPeriods }).modPos fun p => { p with toothFirst := none, toothPeriods := [] }
  else d.modPos fun p => { p with toothFirst := none, toothPeriods := [] }

/-- The second revolution of a four-stroke cycle. -/
def Pos.secondRev (p : Pos) (a : Angle) : Bool := !p.wheel.twoStroke && decide (rev360 ≤ a)

/-! ### Losses (R59 to R62) -/

def camCause (c : Nat) : Bool := c == 7 || c == 8

/-- The LIMP policy of a cause (R55, R60). -/
def Pos.limpPolicy (p : Pos) (c : Nat) : Bool := !p.wheel.nogap && decide (1 ≤ c) && decide (c ≤ 8) && bit p.lossPolicy c

/-- Sync is lost for the causes `cs` of one clock (R60, R61): the lowest code is recorded, and LIMP applies only if every
cause has it. `tE`: the deciding edge or timeout. `start`: the edge that starts the interval timing in COUNTING (R52),
from which STALL counts too (R62). -/
def Dev.loseAny (e : Env) (cs : List Nat) (tE : Ns) (start : Option Ns) (d : Dev) : Dev :=
  let p := d.pos
  let cause := cs.min?.getD 12
  let cam := cs.all camCause
  if p.sync = .stopped ∨ (cam = true ∧ p.sync ≠ .full) then d
  else
    let from_ := p.sync
    let (cy, an) := if p.synced then d.poswAt d.dtime else (p.cycle, p.angle)
    let stopped := cause = 11 ∨ (cause = 12 ∧ d.sup.mode = .bivouac)
    let limp := cs.all p.limpPolicy
    let d := (d.stopPass).toothRecord true (p.synced && p.secondRev p.angle) p.cycle tE
    let d := (d.endAllEvents e .endedSync cause).dropResiduals
    let d := d.modPos fun p =>
      { p with cycle := cy, angle := an, lossCause := BitVec.ofNat 4 cause, lossCount := p.lossCount + 1, lossSeen := true
               lossAngle := if p.synced then an else 0, latch := p.latch || (limp && !cam) }
    if stopped then
      let d := (d.modPos Pos.toStopped).modSup fun s => { s with stoppedAt := d.dtime, stop1s := false }
      (d.noteSync from_ cause tE).follow e false
    else if cam ∧ limp then
      let w := d.pos.wheel
      let x : Int := w.entry d.pos.absPos
      -- the most recent anchor is taken as that of H0 (R56)
      d.enterSynced e .half x (x + 1) cause tE false
    else
      let last := match d.pos.stamps with
        | (x, b) :: (_, a) :: _ => some (b - a, d.pos.wheel.span x)
        | _ => none
      let d := d.modPos fun p =>
        { p.unknown with
          sync := .counting
          lastTooth := if cam then p.lastTooth else start
          lastEdge := start.or p.lastEdge
          lastIntv := if cam then last else none }
      (d.noteSync from_ cause tE).follow e false

/-- Sync is lost for one cause. -/
def Dev.lose (e : Env) (cause : Nat) (tE : Ns) (start : Option Ns) (d : Dev) : Dev := d.loseAny e [cause] tE start

/-- COUNTING restarts, or GAP_FOUND goes back to it, without a loss (R52, R63). -/
def Dev.recount (e : Env) (start : Option Ns) (tE : Ns) (d : Dev) : Dev :=
  let from_ := d.pos.sync
  let d := d.toothRecord true false d.pos.cycle tE
  let d := d.modPos fun p => { p.unknown with sync := .counting, lastTooth := start, lastEdge := start.or p.lastEdge, lastIntv := none }
  if from_ = .counting then d else (d.noteSync from_ 0 tE).follow e false

/-! ### Reverse rotation (R63, R64, R149) -/

/-- The first reverse tooth: what has begun ends, and what is armed goes back to the loft. -/
def Dev.reverseEnds (e : Env) (d : Dev) : Dev :=
  let d := d.endTemplates e
  allBoxes.foldl (init := d) fun d b =>
    let x := d.box b
    match x.state with
    | .armed => (d.modDescr x.loft fun y => { y with state := .waiting, box := 0 }).modBox b Box.release
    | .committed | .active => d.endBox e b .endedSync 13
    | _ => d

/-! ### Prediction (R77 to R89) -/

def Pos.histAt (p : Pos) (x : Int) : Option Nat := (p.hist.find? (·.1 == x)).map (·.2)

/-- Prediction window of R74. -/
def Pos.predWindow (p : Pos) : Nat := if p.sync = .full then p.wheel.cycPos else p.wheel.crkPos

/-- P_m of R81, in units of Q32.16; a negative value is 0. -/
def Pos.accelPred (order nk : Nat) (h : List (Int × Nat)) : Nat × Nat :=
  match order, h with
  | 2, _ :: b :: c :: _ => ((3 * (nk : Int) - 3 * b.2 + c.2).toNat, 2)
  | 0, _ => (nk, 0)
  | _, _ :: b :: _ => ((2 * (nk : Int) - b.2).toNat, 1)
  | _, _ => (nk, 0)

/-- N̂ for the next interval (R81 to R85); `hist` already holds the present one. -/
def Pos.predict (p : Pos) : Pos :=
  let run := p.runBands
  let order := if run then fld p.predCfg 0 2 else fld p.predCfg 2 2
  let w := if run then fld p.predCfg 8 9 else fld p.predCfg 17 9
  let (pm, used) := Pos.accelPred order p.nk p.hist
  let l : Int := p.predWindow
  let pc : Option Nat := match p.histAt (p.wheel.next p.absPos - l), p.histAt (p.absPos - l) with
    | some a, some b => if b = 0 ∨ w = 0 then none else some (satN (2 ^ 48 - 1) (divRoundN (a * p.nk) b))
    | _, _ => none
  let raw := match pc with
    | some c => divRoundN (w * c + (256 - w) * pm) 256
    | none => pm
  let lo := (p.nk + 1) / 2
  let hi := satN (2 ^ 48 - 1) (2 * p.nk)
  let n := if raw < lo then lo else if hi < raw then hi else raw
  { p with nhat := n, held := false, clamped := n != raw, csync := pc.isSome, order := used
           clampCnt := if n = raw then p.clampCnt else p.clampCnt + 1 }

/-- T̂1 as a fraction: ns times 2^-31 where the position is known, the last interval over its span in COUNTING (R46,
R86). `j` is the position expected. -/
def Pos.t1 (p : Pos) (j : Int) : Nat × Nat :=
  if p.sync = .counting then
    match p.lastIntv with
    | some (t, sp) => (t * 2 ^ 24, sp)
    | none => (0, 1)
  else ((p.nhat * (32768 + p.corrAt j)).toNat, 2 ^ 31)

/-- Q below a limit in Q4.8, and Q in a band with both limits included (R48). -/
def qBelow (t : Nat) (t1 : Nat × Nat) (lim : Nat) : Bool := decide (t * 256 * t1.2 < lim * t1.1)
def qAbove (t : Nat) (t1 : Nat × Nat) (lim : Nat) : Bool := decide (lim * t1.1 < t * 256 * t1.2)
def qIn (t : Nat) (t1 : Nat × Nat) (lo hi : Nat) : Bool := !qBelow t t1 lo && !qAbove t t1 hi

def Pos.noiseLim (p : Pos) : Nat := fld p.bands 0 12
def Pos.normLo (p : Pos) : Nat := fld p.bands 12 12
def Pos.normHi (p : Pos) : Nat := fld p.bands 24 12
def Pos.holdLo (p : Pos) : Nat := if p.runBands then fld p.predHold 0 12 else fld p.predHold 24 12
def Pos.holdHi (p : Pos) : Nat := if p.runBands then fld p.predHold 12 12 else fld p.predHold 36 12

/-- The band of an expected tooth. -/
def Pos.bandOf (p : Pos) (x : Tooth) : Nat × Nat := if x.ownBand then (x.bandLo, x.bandHi) else (p.normLo, p.normHi)

/-- First-after-gap entries whose band holds an interval, in entry order. -/
def Pos.gapsAt (p : Pos) (t : Nat) (t1 : Nat × Nat) : List Nat :=
  (List.range p.wheel.crkPos).filter fun i =>
    let x := p.wheel.tooth i
    x.present && x.cls == 2 && qIn t t1 x.bandLo x.bandHi

/-- The speeds of R30 after a tooth whose stamp heads `stamps`. -/
def Pos.speed (p : Pos) : Pos :=
  let w := p.wheel
  let revs := if w.twoStroke then 1 else 2
  let now := p.lastTooth.getD 0
  let back (n : Nat) : Option Nat := (p.stampAt (p.absPos - n)).map fun a => now - a
  let slow := divRoundN (p.nk * w.crkPos * revs) (2 ^ 16)
  let c := match p.sync with
    | .full => match back w.cycPos with
      | some x => x
      | none => match back w.crkPos with | some x => x * revs | none => slow
    | .gapFound | .half => match back w.crkPos with | some x => x * revs | none => slow
    | _ => slow
  let k := if w.twoStroke then 60000000000 else 120000000000
  { p with cycleNs := c, rpm := if c = 0 then 0 else satN (2 ^ 64 - 1) (k * 2 ^ 32 / c) }

def Pos.runOn (p : Pos) : Nat := fld p.runThr 0 16
def Pos.runOff (p : Pos) : Nat := fld p.runThr 16 16

/-- The band set from POS_RPM (R57), or from T̂1 (R58). -/
def Pos.bandsByRpm (p : Pos) : Bool :=
  if p.runOn * 2 ^ 32 < p.rpm then true else if p.rpm < p.runOff * 2 ^ 32 then false else p.runBands

def Pos.bandsByT1 (p : Pos) (t1 : Nat × Nat) : Bool :=
  let n := 60000000000 * t1.2
  let den := t1.1 * p.wheel.crkPos
  if p.runOn * den < n then true else if n < p.runOff * den then false else p.runBands

/-- A band set in force; in FULL the mode follows it (R57, R366). -/
def Dev.setBands (e : Env) (b : Bool) (d : Dev) : Dev :=
  if d.pos.runBands = b then d else (d.modPos fun p => { p with runBands := b }).follow e false

/-! ### Learning (R78 to R80) -/

/-- The permit slot that R78 asks for, when it does. -/
def Pos.permitSlot (p : Pos) : Option Nat := if bit p.learnCfg 0 && bit p.learnCfg 1 then some (fld p.learnCfg 24 14) else none

/-- The permit holds now. -/
def Dev.permitted (e : Env) (d : Dev) : Bool :=
  match d.pos.permitSlot with
  | some i => e.mems.permits i
  | none => true

/-- Conditions of R78 that hold at one tooth. -/
def Dev.learnOk (e : Env) (d : Dev) : Bool :=
  bit d.pos.learnCfg 0 && d.pos.sync == .full && d.pos.runBands && !d.pos.rev && d.permitted e

/-- The permit has held at every moment since the anchor, where it has been watched since (R78). -/
def Dev.permitKept (e : Env) (d : Dev) : Bool :=
  match d.pos.permitSlot with
  | some i => e.mems.watch == some (i, true)
  | none => true

/-- m = Σ p × c / CRK_POS is taken off every present correction, rounded half up (R79). -/
def Wheel.zeroSum (w : Wheel) (cs : List Int) : List Int :=
  let sum : Int := (cs.mapIdx fun i c => if (w.tooth i).present then c * (w.span i : Int) else 0).foldl (· + ·) 0
  cs.mapIdx fun i c =>
    if (w.tooth i).present then divRound (c * ((w.crkPos * 2 ^ 24 : Nat) : Int) - sum) (w.crkPos * 2 ^ 24) else 0

/-- The correction of a present entry after a used revolution of `rev` ns, before its limits (R79). -/
def Pos.learnt (p : Pos) (rev i t : Nat) : Int :=
  let sh := fld p.learnCfg 2 4
  let c := (p.corr[i]?).getD 0
  let den := p.wheel.span i * rev
  divRound (c * ((2 : Int) ^ sh - 1) * den + ((t * p.wheel.crkPos * 2 ^ 39 : Nat) : Int) - ((32768 * den : Nat) : Int))
    (2 ^ sh * den)

/-- A new table from a used revolution: the update of each present entry, then the zero-sum adjustment (R79). The
answer counts the saturations. -/
def Pos.learnTable (p : Pos) (rev : Nat) : List Int × Nat :=
  let raw : List Int := (List.range p.wheel.crkPos).map fun (i : Nat) =>
    match p.learn.periods.find? (fun x => x.1 == i) with
    | some x => if (p.wheel.tooth i).present then p.learnt rev i x.2 else 0
    | none => (p.corr[i]?).getD 0
  (p.wheel.zeroSum (raw.map (clampI (-4096) 4096)), (raw.filter fun n => n < -4096 || 4096 < n).length)

/-- Corrections as the CORR form of the TOOTH record packs them, four per word (R273). -/
def corrWords : Nat → List Int → List W64
  | 0, _ => []
  | n + 1, l =>
    if l.isEmpty then []
    else
      let g (i : Nat) : W64 := putI (16 * i) 16 ((l[i]?).getD 0)
      (g 0 ||| g 1 ||| g 2 ||| g 3) :: corrWords n (l.drop 4)

/-- An accepted tooth in the learning: the interval is noted, and at the anchor the revolution is closed (R78 to R80). -/
def Dev.learnTooth (e : Env) (t : Nat) (heldNow : Bool) (stamp : Ns) (d : Dev) : Dev :=
  let i := d.pos.wheel.entry d.pos.absPos
  let ok := d.learnOk e && d.permitKept e && !heldNow
  let d := d.modPos fun p => { p with learn := { p.learn with active := p.learn.active && ok, periods := (i, t) :: p.learn.periods } }
  if i ≠ 0 then d
  else
    let l := d.pos.learn
    let rev := l.revStart.map fun a => stamp - a
    let steady := match rev, l.prevRev with
      | some a, some b => decide ((max a b - min a b) * 1024 ≤ fld d.pos.learnCfg 6 10 * b) && a != 0
      | _, _ => false
    let d := if l.active && steady then
        let (c, n) := d.pos.learnTable (rev.getD 0)
        let ex := fld d.pos.learnCfg 16 8
        let k := l.exports + 1
        let d := d.modPos fun p =>
          { p with corr := c, learn := { p.learn with revs := l.revs + 1, sat := l.sat + BitVec.ofNat 16 n
                                                      exports := if ex ≤ k then 0 else k } }
        if ex ≠ 0 ∧ ex ≤ k then
          d.present { type := 1, tflags := 2, dtime := d.dtime, body :=
            (put 8 8 d.pos.wheel.crkPos ||| put 32 32 d.pos.learn.revs.toNat) :: corrWords 240 d.pos.corr }
        else d
      else d
    let full := d.pos.sync == .full
    d.modPos fun p => { p with learn := { p.learn with
      active := false, revStart := if full then some stamp else none, prevRev := if full then rev else none, periods := [] } }

/-- A revolution begins at the anchor, with the band set that the anchor's tooth puts in force; from here on the permit slot
is watched (R78). -/
def Dev.learnStart (e : Env) (d : Dev) : Dev :=
  if d.pos.wheel.entry d.pos.absPos = 0 then
    (d.modPos fun p => { p with learn := { p.learn with active := d.learnOk e } }).write
      (.watch d.pos.permitSlot)
  else d

/-- An edge discarded as noise spoils the revolution (R78) and counts at its input. -/
def Dev.noise (i : Fin 6) (d : Dev) : Dev :=
  d.modPos fun p =>
    { p with inputs := upd p.inputs i fun x => { x with noise := x.noise + 1 }
             learn := { p.learn with active := if i.val < 2 then false else p.learn.active } }

end Sys2Proof.Machine
end

