-- ==== Sys2Proof/Machine/Tooth.lean ====
section
/-! DEFINITION. The decoder: front ends, accepted teeth, measurements, the actions of an angle wrap, cams, reverse
rotation, dual crank, and the commands that bring edges and timeouts (chapters 2 and 3, R327, R372, R382, R437). -/

namespace Sys2Proof.Machine

/-! ### Measurements (R70 to R72) -/

/-- A measurement delivered to the input slot that the image assigns to it. -/
def Dev.measure (e : Env) (i : Nat) (v : Int) (valid : Bool) (d : Dev) : Dev :=
  match (d.nvi.measSlots[i]?).join with
  | some s =>
    let lim : Int := 2 ^ 63 - 1
    d.hwSlot e s.val (putI 0 64 (clampI (-lim) lim v)) (BitVec.ofNat 8 (valid.toNat + 4 * (decide (lim < v)).toNat))
  | none => d

/-- POS_RPM delivered to its input slot, usable in FULL and HALF (R226). -/
def Dev.measureSpeed (e : Env) (d : Dev) : Dev := d.measure e 32 d.pos.rpm d.pos.synced

/-- The publication of a cam's cycle: average, record and slot (R70). -/
def Dev.vvtPublish (e : Env) (c : Fin 4) (cyc : W32) (tE : Ns) (d : Dev) : Dev :=
  let l := d.pos.vvt[c].edges
  let n := l.length
  let avg : Int := if n = 0 then 0 else divRound ((l.map (·.2)).foldl (· + ·) 0) n
  let d := d.modPos fun p => { p with vvt := upd p.vvt c fun _ => { avg := avg, n := n, valid := n != 0, edges := [] } }
  let body := [put 0 32 cyc.toNat ||| put 32 2 c.val ||| put 34 5 n ||| putB 39 (n != 0), putI 0 32 avg]
    ++ l.map (fun x => put 0 32 x.1 ||| putI 32 32 x.2)
  (d.present { type := 3, dtime := tE, body := body }).measure e (8 + c.val) (avg * 1024) (n != 0)

/-- The cam's table, when it has one and it is enabled (R45). -/
def Wheel.cam (w : Wheel) (c : Nat) : Option CamTable :=
  match w.cams[c]? with
  | some (some t) => if w.camEn.getLsbD c && !t.entries.isEmpty then some t else none
  | _ => none

/-- Index of a cam's last table edge of the cycle. -/
def CamTable.last (t : CamTable) : Nat :=
  ((t.entries.zipIdx).foldl (init := (0, 0)) fun a x => if a.1 ≤ x.1.angle then (x.1.angle, x.2) else a).2

/-- WIN in angle units (R45). -/
def CamEntry.width (x : CamEntry) : Nat := x.win * 2 ^ 14

/-- Entries of a table in whose window an edge at an angle falls. -/
def CamTable.windows (t : CamTable) (w : Wheel) (a : Angle) (falling : Bool) : List Nat :=
  (t.entries.zipIdx).filterMap fun x =>
    if x.1.falling = falling ∧ (w.diff a x.1.angle).natAbs ≤ x.1.width then some x.2 else none

/-- Windows of one cam that close between the previous tooth and this one, `step` further on, are judged (R45). The
answer says whether CAM_MISSING arises. -/
def Dev.judgeCam (e : Env) (c : Fin 4) (t : CamTable) (step : Nat) (tE : Ns) (d : Dev) : Bool × Dev :=
  let w := d.pos.wheel
  (t.entries.zipIdx).foldl (init := (false, d)) fun acc x =>
    let d := acc.2
    let a := w.ahead ((x.1.angle + x.1.width) % w.cycLen) d.pos.angle
    if step ≤ a then acc
    else
      let r := d.pos.cams[c]
      let open_ : Int := -(a : Int) - 2 * x.1.width
      let counted := match d.pos.judgeFrom with
        | some (cy, an) => decide (d.pos.toAxis cy an ≤ open_)
        | none => false
      let hit := r.hits.contains x.2
      let missed := if !counted then r.missed else if hit then 0 else r.missed + 1
      let lost := counted && !hit && t.loss && t.missMax != 0 && decide (t.missMax ≤ missed)
      let d := d.modPos fun p =>
        { p with cams := upd p.cams c fun r => { missed := missed, hits := r.hits.filter (· != x.2) } }
      let d := if counted && !hit && t.vvt && bit d.pos.measCfg 0 && x.2 == t.last then d.vvtPublish e c d.pos.cycle tE else d
      (acc.1 || lost, d)

def Dev.judgeCams (e : Env) (step : Nat) (tE : Ns) (d : Dev) : Bool × Dev :=
  (List.finRange 4).foldl (init := (false, d)) fun acc c =>
    match d.pos.wheel.cam c.val with
    | some t => let (l, d) := acc.2.judgeCam e c t step tE; (acc.1 || l, d)
    | none => acc

/-- Segment windows at an accepted tooth, `n` positions after the previous one (R72). -/
def Dev.segTooth (e : Env) (n : Nat) (stamp : Ns) (d : Dev) : Dev :=
  let cfg := d.pos.measCfg
  let teeth := fld cfg 8 8
  if bit cfg 2 = false ∨ teeth = 0 then d
  else
    let d := (d.pos.segments).foldl (init := d) fun d x =>
      if x.2.2 = n then
        let ns := stamp - x.2.1
        (d.present { type := 2, dtime := stamp, body :=
          [put 0 32 (satN (2 ^ 32 - 1) ns) ||| put 32 5 x.1, put 0 32 d.pos.cycle.toNat] }).measure e (16 + x.1) (ns * 2 ^ 32) true
      else d
    let keep (x : Nat × Ns × Nat) : Option (Nat × Ns × Nat) := if n < x.2.2 then some (x.1, x.2.1, x.2.2 - n) else none
    let d := d.modPos fun p => { p with segments := p.segments.filterMap keep }
    let w := d.pos.wheel
    let here := d.pos.angle
    let before := w.angleAt (d.pos.absPos - 1)
    let starts := (List.range 16).filter fun (c : Nat) =>
      match ((d.adm.tdc.toList[c]?).join : Option Angle) with
      | some (a : Nat) =>
        let tgt := (((a : Int) + signed 32 (fld cfg 16 32)) % (w.cycLen : Int)).toNat
        w.ahead tgt here < w.ahead before here
      | none => false
    d.modPos fun p => { p with segments := p.segments ++ starts.map fun c => (c, stamp, teeth) }

/-! ### The actions of an angle wrap (R437) -/

/-- The CYCLE record of the cycle just ended (R270, R273). -/
def Dev.cycleRecord (tE : Ns) (d : Dev) : Dev :=
  let l := d.loft
  (d.present { type := 5, dtime := tE, body :=
    [ put 0 32 (d.pos.cycle - 1).toNat ||| put 32 32 (satN (2 ^ 32 - 1) d.pos.cycleNs),
      put 0 16 l.cycAcc.toNat ||| put 16 16 l.cycRej.toNat ||| put 32 16 l.cycDone.toNat ||| put 48 16 l.cycEnded.toNat,
      put 0 16 l.cycLate.toNat ||| put 16 8 l.cycBoxPeak ||| put 24 12 l.cycLoftPeak ||| put 36 28 (satN (2 ^ 28 - 1) l.cycResid) ] }).resetCycle

/-- Cylinders cut in a cycle at a level (R327). -/
def Dev.cutMask (d : Dev) (n level : Nat) : W64 :=
  let step := fld d.rope.cut 0 5
  let spread := fld d.rope.cut 5 5
  (List.range 16).foldl (init := 0) fun m c =>
    let g := c + if d.half then 16 else 0
    m ||| putB c ((d.adm.tdc.toList[c]?).join.isSome && decide ((n * step + g * spread) % 32 < level))

/-- The cut level and mask at a wrap into cycle `n` (R327, R329). -/
def Dev.cutWrap (e : Env) (d : Dev) : Dev :=
  let r := d.rope
  if bit r.cut 44 = false then d
  else
    let n := d.pos.cycle
    let v := e.slot (fld r.cut 16 14)
    let lost := bit r.cfg 0 && r.lostAt.isSome
    let ahead := (n - BitVec.ofNat 32 (fld v 32 32)).toInt
    let takes := !lost && decide (0 ≤ ahead)
    let base := if takes then fld v 0 6 else r.frozen
    let level := if lost ∧ bit r.cfg 5 = true ∧ fld r.split 0 16 * 2 ^ 32 ≤ d.pos.rpm then max base (fld r.cut 10 6) else base
    let d := d.modRope fun r =>
      { r with frozen := base, level := level, cutSeen := if takes then v else r.cutSeen
               lateCut := r.lateCut || (takes && decide (0 < ahead) && v != r.cutSeen) }
    if d.pos.sync = .full then
      d.hwSlot e (fld r.cut 30 14) (d.cutMask n.toNat level ||| put 32 32 n.toNat) 1
    else d

/-- Standing events whose mask holds the present mode, owed for the cycles `lo` to `hi` (R112, R372). -/
def Dev.oweCycles (lo hi : W32) (d : Dev) : Dev :=
  match d.sup.mode.standingBit with
  | none => d
  | some b =>
    let due := (List.range d.adm.standing.length).filter fun i =>
      match d.adm.standing[i]? with
      | some s => !s.hold && bit ((s.words[1]?).getD 0) b
      | none => false
    d.modAdm fun a => { a with owed := a.owed ++ due.map fun i => { index := i, from_ := some lo, upTo := hi } }

/-- What a wrap into a new cycle does, after the tooth's pass and paging. -/
def Dev.wrapActions (e : Env) (tE : Ns) (d : Dev) : Dev :=
  let d := (d.cycleRecord tE).cutWrap e
  let c := d.pos.cycle
  let d := match d.sup.handover with
    | some h => if 0 < (c - h).toInt then d.modSup fun s => { s with handover := none } else d
    | none => d
  if d.sup.mode == .basecamp && d.sup.ready && d.pos.sync == .full then
    let d := (d.modSup fun s => { s with handover := some c }).applyHeld
    (d.setMode d.syncMode).oweCycles (c + 1) (c + 2)
  else d.oweCycles (c + 2) (c + 2)

/-! ### Accepted teeth -/

/-- Prediction after an accepted tooth, or the hold of R84. -/
def Pos.predictTooth (p : Pos) (hold : Bool) : Pos :=
  let p :=
    if hold then { p with hist := (p.absPos, p.nhat) :: p.hist, held := true, holdCnt := p.holdCnt + 1 }
    else ({ p with hist := (p.absPos, p.nk) :: p.hist } : Pos).predict
  { p with hist := p.hist.take (p.wheel.cycPos + 3), nextTooth := some p.nextTime }

/-- POS_RESID at an accepted tooth (R100). -/
def Pos.noteResid (p : Pos) (r : Option Int) : Pos :=
  match r with
  | some x => { p with residLast := clampI (-2147483647) 2147483647 x, residMax := max p.residMax (satN (2 ^ 31 - 1) x.natAbs) }
  | none => p

/-- The revolution that ends at a tooth, and its interval (R71). `a0` and `c0`: angle and cycle of the previous tooth;
`u`: angle of this one, not wrapped. In GAP_FOUND the angle is that of the position under H0, which is right within the
revolution; REV is written as 0 and CYCLE as POS_POSW holds it, since neither is known there (DESIGN CHOICE, assumption 57;
safe, no statement speaks of them). -/
def Dev.toothInterval (t : Nat) (a0 : Angle) (c0 : W32) (u : Int) (stamp : Ns) (d : Dev) : Dev :=
  let d := d.modPos fun p =>
    { p with toothFirst := some (p.toothFirst.getD (p.wheel.entry p.absPos)), toothPeriods := p.toothPeriods ++ [t] }
  if (a0 : Int) / rev360 < u / rev360 then d.toothRecord false (d.pos.synced && d.pos.secondRev a0) c0 stamp else d

/-- An accepted forward tooth at a known position `j`, an interval of `t` ns after the last one. `shift`: angle by which
a vote switch moves the wheel (R69). The answer says whether the cams then lose sync. -/
def Dev.acceptCore (e : Env) (stamp : Ns) (j : Int) (t : Nat) (shift : Int) (d : Dev) : Bool × Option Int × Dev :=
  let p := d.pos
  let w := p.wheel
  let t1 := p.t1 j
  let resid : Option Int := p.nextTooth.map fun n => (stamp : Int) - n
  let hold := !(p.holdLo == 0 && p.holdHi == 0) && (qBelow t t1 p.holdLo || qAbove t t1 p.holdHi)
  let step : Int := w.absAngle j - w.absAngle p.absPos + shift
  let u : Int := p.angle + step
  let n := (j - p.absPos).toNat
  let d := d.modPos fun p =>
    { p.noteResid resid with
      absPos := j, pos := w.entry j, nk := normPeriod t (p.shape j), nkPosn := w.entry j
      cycle := if p.synced then p.cycle + BitVec.ofInt 32 (u / (w.cycLen : Int)) else p.cycle
      angle := if p.synced then (u % (w.cycLen : Int)).toNat else p.angle
      stamps := (j, stamp) :: p.stamps.filter fun s => decide (j - 2 * w.cycPos ≤ s.1)
      lastTooth := some stamp, lastEdge := some stamp }
  let d := d.learnTooth e t hold stamp
  let d := (d.modPos fun q => (q.predictTooth hold).speed).measureSpeed e
  let d :=
    if p.synced then d.setBands e d.pos.bandsByRpm
    else if (w.tooth j).cls ≠ 2 then d.setBands e (d.pos.bandsByT1 (d.pos.t1 (w.next j)))
    else d
  let d := d.learnStart e
  let a0 : Angle := if p.synced then p.angle else w.angleAt p.absPos
  let d := d.toothInterval t a0 p.cycle (a0 + step) stamp
  if p.synced then
    let d := d.segTooth e n stamp
    if d.pos.sync = .full then
      let d := if d.pos.judgeFrom.isNone then d.modPos fun q => { q with judgeFrom := some (q.cycle, q.angle) } else d
      let (lost, d) := d.judgeCams e step.toNat stamp
      (lost, resid, d)
    else (false, resid, d)
  else (false, resid, d)

/-- The actions of an angle wrap, at a tooth that brings a cycle number above all before (R437). -/
def Dev.wrapPass (e : Env) (stamp : Ns) (d : Dev) : Dev :=
  if 0 < (d.pos.cycle - d.pos.maxCycle).toInt then
    (d.modPos fun p => { p with maxCycle := p.cycle }).wrapActions e stamp
  else d

/-- One item of the work that follows a tooth, at its moment; what it raises is settled there. -/
def Dev.doWork (e : Env) (x : Ns × PassWork) (d : Dev) : Dev :=
  let d := d.at x.1
  (match x.2 with
    | .pull stamp tD => d.pull stamp tD
    | .solve b => if (d.box b).unsolved then d.solveBox b x.1 else d
    | .page stamp tD => d.pagePass e stamp tD
    | .wrap stamp => d.wrapPass e stamp).settle e

/-- The work that is due up to a moment, in order. `n` bounds its items: a pass and its paging have at most 131. -/
def Dev.runWork (e : Env) (lim : Ns) : Nat → Dev → Dev
  | 0, d => d
  | n + 1, d =>
    match d.pos.work with
    | [] => d
    | x :: l => if x.1 ≤ lim then Dev.runWork e lim n ((d.modPos fun p => { p with work := l }).doWork e x) else d

/-- The bound of `Dev.runWork`. -/
def workMax : Nat := 200

/-- Moment at which the last work outstanding is due. -/
def Dev.workEnd (d : Dev) : Ns := (d.pos.work.map (·.1)).foldl max 0

/-- A pass outstanding is done up to its end, whatever the moment: before the next tooth, which waits for it (R94). Its
first item may add others, so that two rounds reach the end. -/
def Dev.endWork (e : Env) (d : Dev) : Dev :=
  let go (d : Dev) : Dev := if d.pos.work.isEmpty then d else d.runWork e d.workEnd workMax
  go (go (go d))

/-- The device at a later moment, once the work due by then has been done. -/
def Dev.goto (e : Env) (t : Ns) (d : Dev) : Dev := (d.runWork e t workMax).at t

/-- The pull-forward, commits and re-solves of a tooth already received come before a decision of admission (R110). -/
def Dev.passFirst (e : Env) : Nat → Dev → Dev
  | 0, d => d
  | n + 1, d =>
    match d.pos.work with
    | (m, .pull s tD) :: l => Dev.passFirst e n ((d.modPos fun p => { p with work := l }).doWork e (m, .pull s tD))
    | (m, .solve b) :: l => Dev.passFirst e n ((d.modPos fun p => { p with work := l }).doWork e (m, .solve b))
    | _ => d

/-- FULL or HALF is entered at a tooth: history restarts with that tooth, so that its prediction has order 0 (R85). A tooth
held in GAP_FOUND keeps the N̂ of the hold (R84). `clamps`: POS_SOLVE_STAT.CLAMP before the tooth. -/
def Dev.syncAtTooth (e : Env) (st : SyncState) (x : Int) (clamps : BitVec 16) (stamp tD : Ns) (d : Dev) : Dev :=
  let d := d.enterSynced e st x x 0 stamp true
  (d.modPos fun p =>
    if p.held then { p with hist := [(x, p.nhat)] }
    else ({ p with clampCnt := clamps } : Pos).predictTooth false).startPass stamp tD

def Pos.camConfirm (p : Pos) : Nat := fld p.syncCfg 0 4
def Pos.gapMin (p : Pos) : Nat := fld p.syncCfg 4 4

/-- Position under a hypothesis about the most recent anchor (R54). -/
def Pos.hypPos (p : Pos) (h1 : Bool) : Int := (p.wheel.entry p.absPos : Int) + if h1 then (p.wheel.crkPos : Int) else 0

/-- What an accepted tooth does to GAP_FOUND (R52 to R54). -/
def Dev.gapTooth (e : Env) (clamps : BitVec 16) (stamp tD : Ns) (d : Dev) : Dev :=
  let d := if d.pos.wheel.entry d.pos.absPos = 0 then d.modPos fun p => { p with h0 := p.h1, h1 := p.h0 } else d
  let p := d.pos
  if p.provisional ∧ (p.wheel.tooth p.absPos).cls = 2 then
    let d := d.modPos fun p => { p with provisional := false }
    if !p.provWait then
      d.syncAtTooth e (if p.wheel.twoStroke then .full else .half) (p.hypPos false) clamps stamp tD
    else if p.camConfirm ≤ max p.h0 p.h1 then d.syncAtTooth e .full (p.hypPos (decide (p.h0 < p.h1))) clamps stamp tD
    else d.startPass stamp tD
  else if !p.provisional ∧ (2 * p.wheel.cycPos : Nat) ≤ p.absPos - p.gapAt ∧ p.limpPolicy 8 = true then
    d.syncAtTooth e .half (p.hypPos false) clamps stamp tD
  else d.startPass stamp tD

/-- Angles of primary and secondary at one position differ by more than DISAGREE (R69). -/
def Pos.disagree (p : Pos) (prim sec : Ns) : Bool :=
  let lim := fld p.dual 48 8
  let t1 := p.t1 (p.wheel.next p.absPos)
  let x : Int := ((sec : Int) - prim) * (rev360 * t1.2 : Nat) - signed 32 (fld p.dual 16 32) * (p.wheel.crkPos * t1.1 : Nat)
  lim != 0 && decide (lim * degree * p.wheel.crkPos * t1.1 < 16 * x.natAbs)

def Pos.dualMode (p : Pos) : Nat := fld p.dual 0 2
def Pos.secOfs (p : Pos) : Int := signed 32 (fld p.dual 16 32)

/-- An accepted forward tooth with all that follows from it. What it finds wrong in one clock is one loss (R60). -/
def Dev.accept (e : Env) (stamp tD : Ns) (j : Int) (t : Nat) (shift : Int) (d : Dev) : Dev :=
  let clamps := d.pos.clampCnt
  let (lost, resid, d) := d.acceptCore e stamp j t shift
  let d := d.takeResiduals resid
  let clash := d.pos.dualMode == 2 && d.pos.active == 0 && d.pos.secPos == some j
    && d.pos.disagree stamp (d.pos.secLast.getD stamp)
  match (if clash then [6] else []) ++ (if lost then [8] else []) with
  | c :: cs => d.loseAny e (c :: cs) stamp (if clash then some stamp else none)
  | [] => if d.pos.sync = .gapFound then d.gapTooth e clamps stamp tD else d.startPass stamp tD

/-- The check of R50 for a tooth at position `j`. -/
def Pos.bandBroken (p : Pos) (j : Int) (stamp : Ns) : Bool :=
  let n : Int := p.window
  p.synced && decide (p.windowFrom ≤ j - 2 * n) &&
    (match p.stampAt (j - n), p.stampAt (j - 2 * n) with
     | some b, some a => decide (p.cycBand * (b - a) < ((stamp : Int) - b - (b - a)).natAbs * 1024)
     | _, _ => false)

/-! ### Dual crank (R67 to R69) -/

/-- CRK_OUT takes the level of the new active input at a vote switch (R323, R69), 200 ns after it. -/
def Dev.relaySwitch (level : Bool) (d : Dev) : Dev :=
  if d.half || !bit d.rope.cfg 2 || d.pos.relayCrk.1 == level then d
  else d.modPos fun p => { p with relayCrk := (level, d.dtime + 200) }

/-- The device goes over to the secondary at its tooth `j` (R69). The prediction made at the last primary tooth is that of the
angle at which the secondary's tooth is expected (R67), so that its residual exists (R99, R100; DEDUCED, safe). Teeth that
the primary gave before do not serve the windows of R30 and R50 after it, since their times belong to another sensor
(DESIGN CHOICE, assumption 48; unsafe for a claim about POS_CYCLE_NS in the cycle after a switch). -/
def Dev.voteSwitch (e : Env) (stamp tD : Ns) (j : Int) (d : Dev) : Dev :=
  let o := d.pos.secOfs
  let t := d.pos.secIntv
  let level := d.pos.inputs[(1 : Fin 6)].level
  let d := d.modPos fun p =>
    { p with active := 1, single := true, switched := true, primFailed := none, secPos := none
             nextTooth := p.nextTooth.map fun _ => p.timeOf (p.wheel.absAngle j - p.wheel.absAngle p.absPos + o).toNat
             wheel := { p.wheel with anchorOfs := p.wheel.anchorOfs - o }, switchOfs := p.switchOfs + o
             windowFrom := j, stamps := [] }
  let d := d.raise { source := 13, ctrl := ctrl 1 0 0, coord := d.noEvent }
  ((d.follow e false).relaySwitch level).accept e stamp tD j t o

/-- A crank cause at the expected position `j`: in vote mode the secondary may still carry it (R69). `tE`: the deciding
edge or timeout. -/
def Dev.crankCause (e : Env) (cause : Nat) (tE tD : Ns) (start : Option Ns) (j : Int) (d : Dev) : Dev :=
  let p := d.pos
  if p.dualMode = 2 ∧ p.active = 0 then
    match p.secPos with
    | some s =>
      -- a secondary already past the position has accepted it, and the switch takes place at its last tooth
      if j ≤ s then d.voteSwitch e (p.secLast.getD tE) tD s
      else d.modPos fun p => { p with primFailed := some (j, cause) }
    | none => d.lose e cause tE start
  else d.lose e cause tE start

/-- The secondary tooth that an edge stands for when none is known: the nearest expected one within half a pitch. -/
def Pos.nearSecondary (p : Pos) (stamp : Ns) : Option Int :=
  let w := p.wheel
  let at_ : Int := w.absAngle p.absPos + p.offsetAt stamp - p.secOfs
  let k := w.atOrAfter at_
  let m := w.prev k
  let near (x : Int) : Nat := (w.absAngle x - at_).natAbs
  let b := if near k ≤ near m then k else m
  if 2 * near b * w.crkPos ≤ rev360 then some b else none

/-- An edge of the secondary in vote mode while the primary is active (R69). A reverse tooth leaves no forward position of
the secondary known, so that it is found again at a later forward tooth (DEDUCED, safe). -/
def Dev.secondaryTooth (e : Env) (stamp tD : Ns) (fwd : Bool) (d : Dev) : Dev :=
  let p := d.pos
  if p.sync = .stopped ∨ p.sync = .counting ∨ p.rev = true then d
  else if !fwd then
    if stamp - p.secLast.getD 0 < 4000 then d.noise 1 else d.modPos fun p => { p with secPos := none, secLast := none }
  else
    match p.secPos, p.secLast with
    | some s, some a =>
      let j := p.wheel.next s
      let t := stamp - a
      let t1 := p.t1 j
      let (lo, hi) := p.bandOf (p.wheel.tooth j)
      if t < 4000 ∨ qBelow t t1 p.noiseLim = true then d.noise 1
      else if qIn t t1 lo hi then
        let d := d.modPos fun p => { p with secPos := some j, secLast := some stamp, secIntv := t }
        match p.primFailed with
        | some (x, _) => if x ≤ j then d.voteSwitch e stamp tD j else d
        | none =>
          match p.stampAt j with
          | some b => if p.disagree b stamp then d.lose e 6 stamp (some stamp) else d
          | none => d
      else
        match p.primFailed with
        | some (_, c) => d.lose e c stamp (some stamp)
        | none => d.modPos fun p => { p with secPos := none, secLast := none }
    | _, _ => d.modPos fun p => { p with secPos := p.nearSecondary stamp, secLast := some stamp, secIntv := 0 }

/-- SEC_OFS as time at T̂1; 0 while no T̂1 is known. -/
def Pos.secTime (p : Pos) : Int :=
  let t1 := p.t1 (p.wheel.next p.absPos)
  if t1.1 = 0 then 0 else divRound (p.secOfs * (p.wheel.crkPos * t1.1 : Nat)) (rev360 * t1.2)

def Pos.confWin (p : Pos) : Nat := fld p.dual 4 10 * 10

/-- Secondary edges that no primary edge received from the moment `now` on can match any more are noise (R68). -/
def Dev.sweepConfirm (now : Ns) (d : Dev) : Dev :=
  let p := d.pos
  if p.dualMode ≠ 1 then d
  else
    let win : Int := p.confWin
    let lat : Int := 40 + 4 * fld p.inputs[(0 : Fin 6)].cfg 4 8 + p.confWin
    let gone (s : Ns) : Bool := decide ((s : Int) - p.secTime + win + lat < now)
    let n := (p.secStamps.filter gone).length
    let d := (List.range n).foldl (init := d) fun d _ => d.noise 1
    d.modPos fun p => { p with secStamps := p.secStamps.filter fun s => !gone s }

/-- The secondary edge that confirms a primary one (R68). Secondary edges that no later primary can match are noise. -/
def Dev.confirm (stamp : Ns) (d : Dev) : Bool × Dev :=
  let p := d.pos
  let c : Int := stamp + p.secTime
  let win : Int := p.confWin
  let hit (s : Ns) : Bool := decide ((s : Int) - c ≤ win) && decide (c - s ≤ win)
  let old := (p.secStamps.filter fun (s : Ns) => decide ((s : Int) < c - win)).length
  let m := p.secStamps.find? hit
  let rest := (p.secStamps.filter fun (s : Ns) => decide (c - win ≤ (s : Int)) && some s != m)
  let d := (List.range old).foldl (init := d) fun d _ => d.noise 1
  (m.isSome, d.modPos fun p => { p with secStamps := rest })

/-! ### The decoder (R40, R48, R52, R63) -/

/-- The front-end channel of the active crank input. -/
def Pos.activeInput (p : Pos) : Fin 6 := if p.active = 1 then 1 else 0

/-- A candidate gap leads out of COUNTING (R52, R53). -/
def Dev.gapFound (e : Env) (stamp tD : Ns) (t i : Nat) (prov : Bool) (d : Dev) : Dev :=
  let p := d.pos
  let gap := !p.wheel.twoStroke && decide (1 ≤ p.camConfirm) && !p.latch
  let place (q : Pos) : Pos :=
    { q with lastTooth := some stamp, lastEdge := some stamp, nk := normPeriod t (q.shape i), nkPosn := i
             stamps := [((i : Int), stamp)] }
  -- the interval that leads out of COUNTING is the first one whose position is known (R71)
  let finish (q : Pos) : Pos := ({ (q.predictTooth false) with toothFirst := some i, toothPeriods := [t] }).speed
  if prov ∨ gap = true then
    let d := d.modPos fun p =>
      place { p.fresh with sync := .gapFound, absPos := i, pos := i, gapAt := i, provisional := prov, provWait := gap
                           h0 := 0, h1 := 0, windowFrom := i }
    (((d.noteSync .counting 0 stamp).follow e false).modPos finish).startPass stamp tD
  else
    let d := (d.modPos place).modPos fun p => { p with absPos := i }
    ((d.enterSynced e (if p.wheel.twoStroke then .full else .half) i i 0 stamp true).modPos finish).startPass stamp tD

/-- An interval accepted in COUNTING, one base pitch long (R77). -/
def Dev.countTooth (e : Env) (stamp tD : Ns) (t : Nat) (ratio : Bool) (d : Dev) : Dev :=
  let d := d.modPos fun p =>
    ({ p with lastTooth := some stamp, lastEdge := some stamp, nk := normPeriod t onePitch, nkPosn := 0
              lastIntv := some (t, 2 ^ 24), normals := if ratio then p.normals + 1 else p.normals
              absPos := p.absPos + 1 } : Pos).speed
  let d := d.measureSpeed e
  let d := if ratio then d.setBands e (d.pos.bandsByT1 (d.pos.t1 0)) else d
  -- REF sightings of a wheel without a gap (R55)
  if d.pos.wheel.nogap && d.pos.refEdge then
    let here := d.pos.absPos
    let second := match d.pos.refFirst with
      | some a => decide (here - a = (d.pos.wheel.cycPos : Int))
      | none => false
    let d := d.modPos fun p => { p with refEdge := false, refFirst := some here }
    if second then
      let d := d.modPos fun p => { p with absPos := 0, stamps := [(0, stamp)] }
      ((d.enterSynced e .full 0 0 0 stamp true).modPos fun p =>
        { (({ p with nk := normPeriod t (p.shape 0) } : Pos).predictTooth false) with
            refFirst := none, toothFirst := some 0, toothPeriods := [t] }).startPass stamp tD
    else d.startPass stamp tD
  else d.startPass stamp tD

/-- An edge in COUNTING (R52). -/
def Dev.counting (e : Env) (stamp tD : Ns) (fwd : Bool) (d : Dev) : Dev :=
  let p := d.pos
  let restart (d : Dev) : Dev := d.modPos fun p =>
    { p with lastTooth := some stamp, lastEdge := some stamp, lastIntv := none, normals := 0, refFirst := none, refEdge := false }
  let d := if fwd then d else d.modPos fun p => { p with revSeen := true }
  match p.lastTooth with
  | none => restart d
  | some a =>
    let t := stamp - a
    if t < 4000 then (d.modPos fun q => { q with revSeen := p.revSeen }).noise p.activeInput
    else if !fwd then restart d
    else
      match p.lastIntv with
      | none => d.countTooth e stamp tD t false
      | some _ =>
        let t1 := p.t1 0
        let normal := qIn t t1 p.normLo p.normHi
        let gaps := if p.wheel.nogap then [] else p.gapsAt t t1
        if qBelow t t1 p.noiseLim then d.noise p.activeInput
        else
          match gaps with
          | i :: l =>
            if p.gapMin ≤ p.normals then d.gapFound e stamp tD t i (normal || !l.isEmpty)
            else if normal then d.countTooth e stamp tD t true
            else restart d
          | [] => if normal then d.countTooth e stamp tD t true else restart d

/-- A reverse tooth at a known position (R63 to R65). -/
def Dev.reverseTooth (e : Env) (stamp : Ns) (d : Dev) : Dev :=
  let p := d.pos
  let w := p.wheel
  if p.sync = .gapFound then (d.modPos fun p => { p with revSeen := true }).recount e (some stamp) stamp
  else
    let hw := if p.rev then p.highWater else p.absPos
    let x := w.prev p.absPos
    let lim := fld p.syncCfg 16 8
    let d := d.modPos fun p => { p with revSeen := true }
    let u : Int := p.angle - (w.absAngle p.absPos - w.absAngle x)
    let back (p : Pos) : Pos :=
      { p with rev := true, highWater := hw, absPos := x, pos := w.entry x, nextTooth := none
               cycle := p.cycle + BitVec.ofInt 32 (u / (w.cycLen : Int)), angle := (u % (w.cycLen : Int)).toNat
               lastTooth := some stamp, lastEdge := some stamp }
    if (lim * degree : Nat) < w.absAngle hw - w.absAngle x then (d.modPos back).lose e 9 stamp (some stamp)
    else
      let d := if p.rev then d else d.reverseEnds e
      (d.modPos back).modPos fun p =>
        { p with secPos := none, secLast := none, primFailed := none, segments := []
                 learn := { p.learn with active := false } }

/-- A forward tooth while REV is set: it only moves the position; at the high-water mark REV clears (R63). -/
def Dev.forwardInReverse (stamp : Ns) (d : Dev) : Dev :=
  let p := d.pos
  let w := p.wheel
  let x := w.next p.absPos
  let u : Int := p.angle + (w.absAngle x - w.absAngle p.absPos)
  let d := d.modPos fun p =>
    { p with absPos := x, pos := w.entry x, lastTooth := some stamp, lastEdge := some stamp
             cycle := p.cycle + BitVec.ofInt 32 (u / (w.cycLen : Int)), angle := (u % (w.cycLen : Int)).toNat }
  if p.highWater ≤ x then
    d.modPos fun p => { p with rev := false, revPage := true, hist := [], stamps := [(x, stamp)], windowFrom := x
                               judgeFrom := some (p.cycle, p.angle), learn := { p.learn with revStart := none, prevRev := none } }
  else d

/-- A forward edge at a known position (R48, R50). -/
def Dev.known (e : Env) (stamp tD : Ns) (dirCoded : Bool) (d : Dev) : Dev :=
  let p := d.pos
  let w := p.wheel
  let j := w.next p.absPos
  let x := w.tooth j
  let t := stamp - p.lastTooth.getD stamp
  let t1 := p.t1 j
  let (lo, hi) := p.bandOf x
  if qBelow t t1 p.noiseLim then d.noise p.activeInput
  else if p.rev then d.forwardInReverse stamp
  else if qIn t t1 lo hi then
    if p.bandBroken j stamp then d.crankCause e 5 stamp tD (some stamp) j else d.accept e stamp tD j t 0
  else if x.cls = 2 then
    d.crankCause e (if qIn t t1 p.normLo p.normHi then 3 else 1) stamp tD (some stamp) j
  else if !(p.gapsAt t t1).isEmpty then
    if !dirCoded && x.cls == 1 then (d.modPos fun p => { p with revSeen := true }).crankCause e 10 stamp tD (some stamp) j
    else d.crankCause e 2 stamp tD (some stamp) j
  else d.crankCause e 1 stamp tD (some stamp) j

/-- An edge of the active crank input reaches the decoder, or waits for the pass in progress (R94). With no wheel loaded
there is nothing to decode: the edge is ignored, and STOPPED stays (DESIGN CHOICE, assumption 57; safe: before the loader has
a wheel no rule gives a crank edge an effect). -/
def Dev.tooth (e : Env) (stamp tD0 : Ns) (fwd dirCoded : Bool) (d : Dev) : Dev :=
  let d := d.endWork e
  let tD := max tD0 d.pos.passEnd
  let d := d.at tD
  let p := d.pos
  if p.wheel.crkPos = 0 then d
  else
    match p.sync with
    | .stopped =>
      let d := d.modPos fun p =>
        { p.unknown with sync := .counting, runBands := false, lastTooth := some stamp, lastEdge := some stamp, lastIntv := none }
      (d.noteSync .stopped 0 stamp).follow e false
    | .counting => d.counting e stamp tD fwd
    | _ =>
      let t := stamp - p.lastTooth.getD stamp
      if t < 4000 then d.noise p.activeInput
      else if fwd then d.known e stamp tD dirCoded
      else if p.sync ≠ .gapFound ∧ qBelow t (p.t1 (p.wheel.next p.absPos)) p.noiseLim = true then d.noise p.activeInput
      else d.reverseTooth e stamp

/-! ### Cams (R45, R54, R55, R70) -/

/-- Offset of a moment from the last accepted tooth, also a little before it. -/
def Pos.offsetNear (p : Pos) (stamp : Ns) : Int :=
  let tk := p.lastTooth.getD stamp
  if tk ≤ stamp then p.offsetAt stamp
  else match p.stamps with
    | (x, b) :: (_, a) :: _ => if a < b then -(((tk - stamp) * p.wheel.spanAngle x / (b - a) : Nat) : Int) else 0
    | _ => 0

/-- An edge of a cam with a table in FULL (R45, R70). -/
def Dev.camFull (e : Env) (c : Fin 4) (t : CamTable) (stamp : Ns) (falling : Bool) (d : Dev) : Dev :=
  let p := d.pos
  let w := p.wheel
  let u : Int := p.angle + p.offsetNear stamp
  let a := (u % (w.cycLen : Int)).toNat
  let cyc := p.cycle + BitVec.ofInt 32 (u / (w.cycLen : Int))
  match t.windows w a falling with
  | [] =>
    let d := d.noise (Fin.ofNat 6 (2 + c.val))
    if t.loss then d.lose e 7 stamp none else d
  | i :: l =>
    let d := d.modPos fun p => { p with cams := upd p.cams c fun r => { r with hits := (i :: l) ++ r.hits } }
    if t.vvt && bit p.measCfg 0 then
      let dev := w.diff a ((t.entries[i]?.map (·.angle)).getD 0)
      let d := d.modPos fun p => { p with vvt := upd p.vvt c fun v => { v with edges := (v.edges ++ [(a, dev)]).take 16 } }
      let d := (d.measure e c.val (a * 1024) true).measure e (4 + c.val) (dev * 1024) true
      if (i :: l).contains t.last then d.vvtPublish e c cyc stamp else d
    else d

/-- A phase-cam edge in GAP_FOUND (R54). -/
def Dev.camGap (e : Env) (t : CamTable) (stamp : Ns) (falling : Bool) (d : Dev) : Dev :=
  let p := d.pos
  let w := p.wheel
  let at_ (h : Bool) : Angle := (((w.angleAt (p.hypPos h) : Int) + p.offsetNear stamp) % (w.cycLen : Int)).toNat
  let ok (h : Bool) : Bool := !(t.windows w (at_ h) falling).isEmpty
  let (n0, n1) := match ok false, ok true with
    | true, true => (p.h0, p.h1)
    | true, false => (p.h0 + 1, 0)
    | false, true => (0, p.h1 + 1)
    | false, false => (0, 0)
  let d := d.modPos fun p => { p with h0 := min 15 n0, h1 := min 15 n1 }
  if !p.provisional ∧ 1 ≤ p.camConfirm ∧ p.camConfirm ≤ max n0 n1 then
    let x := p.hypPos (decide (n0 < n1))
    d.enterSynced e .full x (x + 1) 0 stamp false
  else d

/-- An edge of a cam reaches the decoder. Any edge of a cam with a REF entry of that polarity counts as the REF edge of R55,
whatever its angle, since no angle is known in COUNTING; the latest sighting takes the place of an earlier one (DESIGN CHOICE,
assumption 57; unsafe for a claim about when a NOGAP wheel reaches FULL on a cam with further edges of that polarity). -/
def Dev.camIn (e : Env) (c : Fin 4) (stamp : Ns) (falling : Bool) (d : Dev) : Dev :=
  match d.pos.wheel.cam c.val with
  | none => d
  | some t =>
    match d.pos.sync with
    | .full => if d.pos.rev then d else d.camFull e c t stamp falling
    | .gapFound => if t.phase then d.camGap e t stamp falling else d
    | .counting =>
      if d.pos.wheel.nogap && t.entries.any (fun x => x.ref && x.falling == falling) then
        d.modPos fun p => { p with refEdge := true }
      else d
    | _ => d

/-! ### Front ends (R36 to R41, R323) -/

/-- The modes in which the position manager reads its inputs (R365). -/
def Mode.decodes : Mode → Bool
  | .basecamp | .waitSync | .crank | .run | .limp | .afterrun | .service | .safe => true
  | _ => false

/-- The synthetic wheel feeds the decoder (R382). -/
def Dev.synthetic (d : Dev) : Bool := d.sup.mode == .service && bit d.sup.svc 0

def Dev.modInput (i : Fin 6) (f : WheelInput → WheelInput) (d : Dev) : Dev :=
  d.modPos fun p => { p with inputs := upd p.inputs i f }

/-- CRK_OUT and CAM_OUT on a lead that relays (R323). -/
def Dev.relay (i : Fin 6) (level : Bool) (stamp : Ns) (d : Dev) : Dev :=
  if d.half || !bit d.rope.cfg 2 then d
  else if i = d.pos.activeInput then d.modPos fun p => { p with relayCrk := (level, stamp + 200) }
  else if i.val = 2 + fld d.rope.cfg 3 2 then d.modPos fun p => { p with relayCam := (level, stamp + 200) }
  else d

/-- The 200 ns of the relay taken off on the second (R323). -/
def Dev.unrelay (i : Fin 6) (stamp : Ns) (d : Dev) : Ns :=
  if d.half && bit d.rope.cfg 2 && (i.val == 0 || i.val == 2 + fld d.rope.cfg 3 2) then stamp - 200 else stamp

/-- EDGE selects a transition (R37, R38). A code that the register's table does not give (2 and 3 for VR, 3 for Hall)
selects none (DESIGN CHOICE, assumption 57; unsafe for a claim about an input so configured). -/
def edgeSelected (kind edge : Nat) (rising : Bool) : Bool :=
  if kind = 1 then (if edge = 0 then !rising else edge == 1 && rising)
  else edge == 2 || (edge == 0 && rising) || (edge == 1 && !rising)

/-- A transition at an input that is off, VR or Hall: the stamp that the decoder gets, if any (R36 to R39). -/
def Dev.frontEdge (x : WheelEdge) (d : Dev) : Option Ns × Dev :=
  let i := d.pos.inputs[x.input]
  let kind := fld i.cfg 0 2
  let pass := decide (fld i.cfg 4 8 ≤ x.samples)
  let armed := kind != 1 || decide (max (fld i.cfg 12 4 * i.peak.toNat) (fld i.cfg 16 8 * 160) ≤ 16 * x.peakMv)
  if kind = 0 ∨ kind = 3 then (none, d)
  else
    let d := if kind = 1 then d.modInput x.input fun i => { i with peak := BitVec.ofNat 16 (satN 65535 x.peakMv) } else d
    if !pass then (none, d)
    else
      let d := d.modInput x.input fun i => { i with level := x.rising }
      if !armed then (none, d)
      else
        let d := d.relay x.input x.rising x.stamp
        if edgeSelected kind (fld i.cfg 2 2) x.rising then
          let s := d.unrelay x.input x.stamp
          (some s, d.modInput x.input fun i => { i with edges := i.edges + 1, last := s })
        else (none, d)

/-- An edge of a crank input, by the dual mode (R67 to R69, R382). -/
def Dev.crankIn (e : Env) (i : Fin 6) (stamp tD : Ns) (fwd dirCoded : Bool) (d : Dev) : Dev :=
  let p := d.pos
  if d.synthetic then
    if i = p.activeInput then
      (d.modSup fun s => { s with svc := s.svc &&& ~~~(1 : W64) }).lose e 12 stamp none
    else d
  else if p.dualMode = 1 then
    let d := d.sweepConfirm d.dtime
    if i = 1 then d.modPos fun p => { p with secStamps := stamp :: p.secStamps }
    else
      let (ok, d) := (d.goto e (tD + p.confWin)).confirm stamp
      if ok then d.tooth e stamp (tD + p.confWin) fwd dirCoded else d.noise 0
  else if p.dualMode = 2 then
    if i = p.activeInput then (if p.primFailed.isSome then d else d.tooth e stamp tD fwd dirCoded)
    else if p.active = 0 then (d.goto e tD).secondaryTooth e stamp tD fwd
    else d
  else if i = 0 then d.tooth e stamp tD fwd dirCoded
  else d

/-- Time from a transition to the moment the decoder receives it (R39). -/
def Dev.latency (d : Dev) (i : Fin 6) : Nat := 40 + 4 * fld d.pos.inputs[i].cfg 4 8

end Sys2Proof.Machine
end

