-- ==== Sys2Proof/Machine/Run.lean ====
section
/-! DEFINITION. The wrapper that turns a body into a meaning. -/

namespace Sys2Proof.Machine

/-- The state in which a command of DTIME `t` finds the block: the work of pass and paging that is due by then has been done
(R91, R139, R437). -/
def State.due (t : Ns) (s : State) : State :=
  match s.dev.pos.work with
  | [] => s
  | x :: _ =>
    if x.1 ≤ (s.dev.at t).dtime then
      commit s ((s.dev.runWork { mems := s.mems, fuses := s.fuses } (s.dev.at t).dtime workMax).attend s.dev)
    else s

/-- The command itself: the body runs at the command's DTIME, its faults are settled, its writes take effect. -/
def runBody (t : Ns) (body : Env → Dev → Dev) (s : State) : State :=
  let e : Env := { mems := s.mems, fuses := s.fuses }
  commit s ((body e (s.dev.at t)).settle e |>.attend s.dev)

/-- A meaning from its body. -/
def runAt (t : Ns) (body : Env → Dev → Dev) (s : State) : Host.Outcome State Fault Refusal :=
  .next (runBody t body (s.due t))

/-- A write through a path: it has its turn at the port (R21) and disarms the path for FLT_FORCE (R401). -/
def runBy (t : Ns) (p : Path) (body : Env → Dev → Dev) (s : State) : Host.Outcome State Fault Refusal :=
  runAt t (fun e d => body e (d.disarm p)) s

end Sys2Proof.Machine
end

