-- ==== Sys2Proof/Machine/WheelCmds.lean ====
section
/-! DEFINITION. The commands that bring edges and timeouts of the wheels, and those of pages 0x09 and 0x12 (R41, R45, R48,
R49, R62, R69, R100, R109, R382). -/

namespace Sys2Proof.Machine

/-- CRANK_EDGE (R48): a transition at CRK_0 or CRK_1. -/
def execCrankEdge (t : Ns) (x : WheelEdge) (s : State) : Host.Outcome State Fault Refusal :=
  runAt t (fun e d =>
    if d.sup.mode.decodes = false ∨ 2 ≤ x.input.val then d
    else
      match d.frontEdge x with
      | (some stamp, d) => d.crankIn e x.input stamp (x.stamp + d.latency x.input) true false
      | (none, d) => d) s

/-- CAM_EDGE (R45): a transition at CAM_0 to CAM_3. -/
def execCamEdge (t : Ns) (x : WheelEdge) (s : State) : Host.Outcome State Fault Refusal :=
  runAt t (fun e d =>
    if d.sup.mode.decodes = false ∨ x.input.val < 2 then d
    else match d.frontEdge x with
      | (some stamp, d) =>
        if d.synthetic then d
        else (d.goto e (x.stamp + d.latency x.input)).camIn e (Fin.ofNat 4 (x.input.val - 2)) stamp (!x.rising)
      | (none, d) => d) s

/-- DIRECTION_PULSE (R41): a pulse at a direction-coded input, from its leading to its trailing edge. A leading edge whose new
level does not stay for FILT samples passes no filter (R39); the trailing edge is one that has passed. Where the spec is
silent (DESIGN CHOICE, assumption 57; unsafe for a claim about such a configuration): EDGE names the polarity of the leading
edge, rising unless it is 1; a width in both ranges, which FWD_MAX above REV_MIN allows, is forward, the case that R41 names
first; a reverse pulse of a cam is judged as a forward one, since R41 defines the reverse tooth for the position of the
crank. -/
def execDirectionPulse (t : Ns) (input : Fin 6) (lead trail : Ns) (s : State) : Host.Outcome State Fault Refusal :=
  runAt t (fun e d =>
    let i := d.pos.inputs[input]
    let width := trail - lead
    let falling := fld i.cfg 2 2 == 1
    if d.sup.mode.decodes = false ∨ fld i.cfg 0 2 ≠ 3 ∨ width < 4 * fld i.cfg 4 8 then d
    else
      let d := (((d.modInput input fun i => { i with level := falling }).relay input (!falling) lead).relay input falling trail)
      let fwd := decide (width < fld i.cfg 24 10 * 250)
      if !fwd ∧ width ≤ fld i.cfg 34 10 * 250 then d.modInput input fun i => { i with dirBad := i.dirBad + 1 }
      else
        let stamp := d.unrelay input lead
        let tD := trail + d.latency input
        let d := d.modInput input fun i => { i with edges := i.edges + 1, last := stamp }
        if input.val < 2 then d.crankIn e input stamp tD fwd true
        else if d.synthetic then d
        else (d.goto e tD).camIn e (Fin.ofNat 4 (input.val - 2)) stamp falling) s

/-- Angles of the synthetic wheel's edges: every present position of the cycle, and every entry of an enabled cam. -/
def Wheel.synAngles (w : Wheel) : List Angle :=
  ((List.range w.cycPos).filterMap fun (i : Nat) => if (w.tooth i).present then some (w.angleAt i) else none)
    ++ (List.range 4).flatMap fun c => match w.cam c with | some t => t.entries.map (·.angle) | none => []

/-- SYNTHETIC_EDGE (R382): the next edge of the WHEEL and cam tables at SYN_RPM; edges of one angle come together,
crank first. -/
def execSyntheticEdge (t : Ns) (s : State) : Host.Outcome State Fault Refusal :=
  runAt t (fun e d =>
    let p := d.pos
    let w := p.wheel
    match p.synTime with
    | none => d
    | some t0 =>
      let steps := w.synAngles.map fun a => let x := w.ahead p.synAngle a; if x = 0 then w.cycLen else x
      match steps.min? with
      | none => d
      | some n =>
        let stamp := t0 + divRoundN (n * 1000000000) (6 * fld d.sup.svc 16 16 * degree)
        if !d.synthetic ∨ d.dtime < stamp then d
        else
          let a := (p.synAngle + n) % w.cycLen
          let d := d.modPos fun p => { p with synAngle := a, synTime := some stamp }
          let d := if (List.range w.cycPos).any fun i => (w.tooth i).present && w.angleAt i == a
            then d.tooth e stamp stamp true false else d
          (List.finRange 4).foldl (init := d) fun d c =>
            match w.cam c.val with
            | some tb => tb.entries.foldl (init := d) fun d x => if x.angle = a then d.camIn e c stamp x.falling else d
            | none => d) s

/-! ### Timeouts -/

/-- Limit of the tooth timeout in Q4.8 (R49, R58). -/
def Pos.timeoutLim (p : Pos) (j : Int) : Nat :=
  if p.sync = .counting then
    ((List.range p.wheel.crkPos).map fun (i : Nat) => let x := p.wheel.tooth i; if x.ownBand then x.bandHi else 0).foldl max p.normHi
  else (p.bandOf (p.wheel.tooth j)).2

/-- The timeout has expired since `a`. -/
def Pos.timedOut (p : Pos) (j : Int) (a now : Ns) : Bool :=
  let t1 := p.t1 j
  t1.1 != 0 && decide (p.timeoutLim j * t1.1 ≤ (now - a) * 256 * t1.2)

/-- TOOTH_TIMEOUT (R49, R58, R69). -/
def execToothTimeout (t : Ns) (s : State) : Host.Outcome State Fault Refusal :=
  runAt t (fun e d =>
    let p := d.pos
    if d.sup.mode.decodes = false ∨ p.rev = true ∨ p.sync = .stopped then d
    else
      match p.primFailed, p.lastTooth with
      | some (_, c), _ =>
        match p.secPos, p.secLast with
        | some x, some a => if p.timedOut (p.wheel.next x) a d.dtime then d.lose e c d.dtime none else d
        | _, _ => d.lose e c d.dtime none
      | none, some a =>
        let j := p.wheel.next p.absPos
        if p.timedOut j a d.dtime then
          if p.sync = .counting then
            d.modPos fun p => { p with lastTooth := none, lastIntv := none, normals := 0, refFirst := none, refEdge := false }
          else d.crankCause e 4 d.dtime d.dtime none j
        else d
      | none, none => d) s

/-- STALL (R62): no edge for STALL ms. -/
def execStall (t : Ns) (s : State) : Host.Outcome State Fault Refusal :=
  runAt t (fun e d =>
    let ms := fld d.pos.syncCfg 8 8
    match d.pos.lastEdge with
    | some a =>
      if d.sup.mode.decodes = true ∧ d.pos.sync ≠ .stopped ∧ ms ≠ 0 ∧ a + ms * 1000000 ≤ d.dtime then d.lose e 11 d.dtime none else d
    | none => d) s

/-- ADM_NET_SUBMIT (R109). -/
def execAdmNetSubmit (t : Ns) (p : Path) (s : State) : Host.Outcome State Fault Refusal :=
  runBy t p (fun _ d => d.netSubmit p) s

/-- POS_RESID_CLR (R100, R101). -/
def execPosResidClr (t : Ns) (p : Path) (s : State) : Host.Outcome State Fault Refusal :=
  runBy t p (fun _ d => d.clearResid) s

/-! ### The commands -/

/-- EDGE_ISSUE (R95): an edge whose issue moment has come; before that moment nothing happens. -/
def execEdgeIssue (t : Ns) (src : EdgeSource) (s : State) : Host.Outcome State Fault Refusal :=
  runAt t (fun _ d => match src with
    | .box b => d.issueDue b
    | .template i => d.templateDue i.val) s

/-- RESULT_WRITE (R144, R148). Results are written boxes first, in ascending index, then descriptors in ENDING (R145, R148):
what is ready before the one named goes with it. -/
def execResultWrite (t : Ns) (src : ResultSource) (s : State) : Host.Outcome State Fault Refusal :=
  runAt t (fun _ d => match src with
    | .box b => d.writeBoxes b
    | .descriptor i => d.writeEndings i.val) s

end Sys2Proof.Machine
end

