-- ==== Sys2Proof/Machine/AdmCmds.lean ====
section
/-! DEFINITION. The commands of admission: a standing submission placed at source 9, and a decision (R107 to R116,
R124, R150). -/

namespace Sys2Proof.Machine

/-- The request that the device submits from a standing block: ABS_CYCLE set, CYCLE as asked (R112). -/
def standingRequest (w : List W64) (c : W32) : List W64 :=
  w.mapIdx fun i x =>
    if i = 0 then x ||| putB 34 true
    else if i = 1 then put 0 32 x.toNat ||| put 32 32 c.toNat
    else x

/-- The first cycle that an index still owes: the one known, or its next occurrence, judged now (R112). -/
def Dev.owedCycle (x : Owed) (d : Dev) : W32 :=
  x.from_.getD
    (d.nextCycle d.pFast (eventOf (((d.adm.standing[x.index]?).map (·.words)).getD []) 9) (d.poswAt d.dtime).1)

/-- What an index owes once its submission for cycle `c` has been placed. -/
def Owed.rest (x : Owed) (c : W32) : List Owed := if c = x.upTo then [] else [{ x with from_ := some (c + 1) }]

/-- The next standing submission, placed at source 9 when it is empty. An index on HOLD submits nothing (R113). -/
def Dev.placeStanding : Nat → Dev → Dev
  | 0, d => d
  | k + 1, d =>
    match d.adm.placed, d.adm.owed with
    | none, x :: l =>
      let d := d.modAdm fun a => { a with owed := l }
      match d.adm.standing[x.index]? with
      | none => d.placeStanding k
      | some s =>
        let c := d.owedCycle x
        if s.hold || decide ((x.upTo - c).toInt < 0) then d.placeStanding k
        else d.modAdm fun a => { a with placed := some (x.index, c), owed := x.rest c ++ a.owed }
    | _, _ => d

/-- A source offers a request (R108). -/
def Dev.offers (d : Dev) (i : Nat) : Bool :=
  if i < 8 then d.adm.ce[Fin.ofNat 8 i].fill != 0
  else if i = 8 then d.adm.net.fill != 0
  else d.adm.placed.isSome

/-- The source served next: round-robin in ascending number, empty ones skipped (R108). -/
def Dev.nextSource (d : Dev) : Option Nat :=
  ((List.range 10).map fun k => (d.adm.turn + k) % 10).find? d.offers

/-- The request that a source offers. -/
def Dev.offered (d : Dev) (i : Nat) : List W64 :=
  if i < 8 then
    let y := d.adm.ce[Fin.ofNat 8 i]
    y.entries[Fin.ofNat 16 y.head].words.toList
  else if i = 8 then d.adm.net.entries[Fin.ofNat 32 d.adm.net.head].words.toList
  else match d.adm.placed with
    | some (k, c) => standingRequest (((d.adm.standing[k]?).map (·.words)).getD []) c
    | none => []

/-- The oldest entry of a yard takes its result. -/
def Yard.answer {n : Nat} (r : W64) (y : Yard n) : Yard n :=
  let es := y.entries.mapIdx fun j x => if j = y.head then { x with result := r, waiting := false } else x
  { y with entries := es, head := (y.head + 1) % n, fill := y.fill - 1 }

/-- The result returned to whoever waits for it (R124). -/
def Dev.answer (i : Nat) (r : W64) (d : Dev) : Dev :=
  if i < 8 then
    let k := Fin.ofNat 8 i
    (d.modAdm fun a => { a with ce := upd a.ce k (Yard.answer r) }).modCe k fun c => { c with reqRes := some r, reqLast := r }
  else if i = 8 then
    let p := d.adm.net.entries[Fin.ofNat 32 d.adm.net.head].path
    (d.modAdm fun a => { a with net := a.net.answer r }).modCtx p fun c => { c with netResult := r }
  else match d.adm.placed with
    | some (k, _) =>
      let code := fld r 0 4
      d.modAdm fun a => { a with
        placed := none
        standing := updL a.standing k fun s =>
          { s with rej := if code = 0 then s.rej else s.rej + 1, lastCode := BitVec.ofNat 4 code } }
    | none => d

/-- A REPLACE or CANCEL reads its target's descriptor, which may be damaged (R150). -/
def Dev.readTarget (e : Env) (w : List W64) (i : Nat) (d : Dev) : Dev :=
  if d.memu.errs.isEmpty || !(bit (reqWord w 0) 32 || bit (reqWord w 0) 33) then d
  else match (d.target d.pFast (eventOf w i)).2 with
    | some x => (pairOf x).foldl (init := d) fun d j =>
        let (bad, d) := d.readDescr j
        if bad.isEmpty then d else d.loftError e j bad
    | none => d

/-- One decision (R110, R114). -/
def Dev.decideOne (e : Env) (d : Dev) : Dev :=
  match d.nextSource with
  | none => d
  | some i =>
    let w := d.offered i
    let (r, d) := (d.readTarget e w i).decideRequest w i
    (d.answer i r).modAdm fun a => { a with turn := (i + 1) % 10 }

/-- STANDING_SUBMISSION (R112). -/
def execStandingSubmission (t : Ns) (s : State) : Host.Outcome State Fault Refusal :=
  runAt t (fun _ d => d.placeStanding (d.adm.owed.length + 1)) s

/-- ADMISSION_DECISION (R114). The pass of a tooth already received comes first (R110). -/
def execAdmissionDecision (t : Ns) (s : State) : Host.Outcome State Fault Refusal :=
  runAt t (fun e d => (d.passFirst e workMax).decideOne e) s

end Sys2Proof.Machine
end

