-- ==== Sys2Proof/Machine/Diag.lean ====
section
/-! DEFINITION. Output diagnostics: detection and reaction of the classes, the VDS monitors and the off-state tests
(chapter 8). -/

namespace Sys2Proof.Machine

/-- What a class is found on (R196). -/
inductive DiagObj where
  | di (n : Fin 16)
  | bank (k : Fin 4)
  | pfi (n : Fin 16)
  | boost
  deriving DecidableEq, Repr

/-- Control coordinate of the output or bank (R16). -/
def DiagObj.ctrl : DiagObj → BitVec 16
  | .di n => Machine.ctrl 3 (n.val / 4) (n.val % 4)
  | .bank k => Machine.ctrl 3 k.val 0xFF
  | .pfi n => Machine.ctrl 3 5 n.val
  | .boost => Machine.ctrl 3 4 0xFF

/-- The object is disabled already (R204). -/
def Dev.diagGone (d : Dev) : DiagObj → Bool
  | .di n => d.keyDisabled .di n.val || d.bankDisabled (n.val / 4)
  | .bank k => d.bankDisabled k.val
  | .pfi n => d.keyDisabled .pfi n.val
  | .boost => (List.range 4).all d.bankDisabled

/-- Classes of the off-state tests, which raise nothing on a disabled object (R204). -/
def offClass (c : Nat) : Bool := c == 2 || c == 4 || c == 5 || c == 7 || c == 8

/-- A class detected: counted, latched and shown; a reaction other than report only raises DIAG (R203). `co` is the
coordinate of the event that the class attaches to, or that of no event (assumption 23). -/
def Dev.detect (c : Nat) (o : DiagObj) (co : W64) (d : Dev) : Dev :=
  let r := if offClass c && d.diagGone o then 0 else fld d.diag.react (2 * c) 2
  let g := d.diag
  let d := { d with diag := { g with
    seen := g.seen ||| BitVec.ofNat 16 (2 ^ c)
    cnt := upd g.cnt (Fin.ofNat 16 c) (· + 1)
    last := put 0 4 c ||| put 4 2 r ||| put 16 16 o.ctrl.toNat ||| put 32 32 d.dtime } }
  if r = 0 then d
  else d.raise { source := 11, detail := c, ctrl := o.ctrl, coord := co, react := some (if r = 3 then 5 else r + 1) }

/-- Coordinate of the event of an owner. -/
def Dev.ownerCoord (d : Dev) : Owner → W64
  | .box b => (d.box b).ev.coord d.half
  | .template i => match d.sup.templates[i]? with | some x => x.ev.coord d.half | none => d.noEvent
  | _ => d.noEvent

def classBit (c : Nat) : BitVec 16 := BitVec.ofNat 16 (2 ^ c)

/-- A class detected while an event may hold the bank: it attaches to that event (R206). -/
def Dev.detectOn (k : Fin 4) (c : Nat) (o : DiagObj) (d : Dev) : Dev :=
  let b := d.bank k
  if b.busy then
    ((d.modBank k fun b => { b with dclass := b.dclass ||| classBit c }).modPart b.owner fun p =>
      { p with dclass := p.dclass ||| classBit c }).detect c o (d.ownerCoord b.owner)
  else d.detect c o d.noEvent

/-- DI output of the event that holds a bank. -/
def Dev.heldDi (d : Dev) (k : Fin 4) : Fin 16 := Fin.ofNat 16 (4 * k.val + (d.bank k).ls.val)

/-- A boost class, found on all four banks: it attaches to the event of each bank, and is detected once. -/
def Dev.detectBoost (c : Nat) (d : Dev) : Dev :=
  let mark (d : Dev) (k : Fin 4) : Dev :=
    let b := d.bank k
    if b.busy then
      (d.modBank k fun b => { b with dclass := b.dclass ||| classBit c }).modPart b.owner fun p =>
        { p with dclass := p.dclass ||| classBit c }
    else d
  ((List.finRange 4).foldl mark d).detect c .boost d.noEvent

/-- Boxes whose event was on PFI output `n` and whose result is not yet written. -/
def Dev.pfiBoxes (d : Dev) (n : Fin 16) (sel : Box → Bool) : List (Fin 128) :=
  allBoxes.filter fun b => let x := d.box b
    x.state != .free && x.ev.type == .pfi && x.ev.output == n.val && x.part.wasOn && sel x

/-- A class of a PFI output, attached to given boxes. -/
def Dev.detectPfi (n : Fin 16) (c : Nat) (on : List (Fin 128)) (d : Dev) : Dev :=
  let co := match on with | b :: _ => (d.box b).ev.coord d.half | [] => d.noEvent
  (on.foldl (init := d) fun d b => d.modPart (.box b) fun p => { p with dclass := p.dclass ||| classBit c }).detect c (.pfi n) co

/-! ### On-state monitors (R197) -/

def Dev.onEn (d : Dev) : Bool := bit d.diag.cfg 0
def Dev.offEn (d : Dev) : Bool := bit d.diag.cfg 1

/-- A fault that began at `since` counts: its switch has been commanded on, and from VDS_BLANK after the turn-on the fault
has persisted for VDS_FILT. -/
def Dev.vdsDue (d : Dev) (p : Pin) (since : Ns) : Bool :=
  p.on && decide (max since (p.since + fld d.diag.vds 24 8 * 100) + fld d.diag.vds 32 8 * 100 ≤ d.dtime)

/-- The pin of a monitored switch. -/
def Dev.vdsPin (d : Dev) : VdsSwitch → Pin
  | .ls k j => (d.bank k).lsPins[j]
  | .hsb k => (d.bank k).hsb
  | .hsv k => (d.bank k).hsv
  | .pfi n => d.pfi[n].pin

/-- VDS of a switch lies above its threshold: the drain of a low side or a PFI output against ground, the boost voltage or
V(VBAT_S) less the source of a high side, in mV; thresholds are in 50 mV steps (R197). -/
def Dev.vdsAbove (d : Dev) (nodeMv vbatMv : Nat) : VdsSwitch → Bool
  | .ls _ _ => decide (50 * fld d.diag.vds 0 8 < nodeMv)
  | .hsb _ => decide (50 * fld d.diag.vds 8 8 + nodeMv < 10 * d.bst.volt)
  | .hsv _ => decide (50 * fld d.diag.vds 8 8 + nodeMv < vbatMv)
  | .pfi _ => decide (50 * fld d.diag.vds 16 8 < nodeMv)

/-- The VDS fault of a switch has persisted (R196, R197). -/
def Dev.vdsFault (x : VdsTrip) (d : Dev) : Dev :=
  if !d.onEn || !d.vdsAbove x.nodeMv x.vbatMv x.sw || !d.vdsDue (d.vdsPin x.sw) x.since then d
  else match x.sw with
    | .ls k j => d.detectOn k 1 (.di (Fin.ofNat 16 (4 * k.val + j.val)))
    | .hsb k => d.detectOn k 3 (.bank k)
    | .hsv k => d.detectOn k 3 (.bank k)
    | .pfi n => d.detectPfi n 6 (match d.pfi[n].owner with | .box b => [b] | _ => [])

/-! ### Off-state tests (R198 to R200) -/

def Dev.settleNs (d : Dev) : Nat := fld d.diag.offCfg 0 8 * 1000
def Dev.periodNs (d : Dev) : Nat := fld d.diag.offCfg 8 8 * 1000
def Dev.offCnt (d : Dev) : Nat := fld d.diag.offCfg 16 4

/-- A bank may be tested: idle and enabled. -/
def Dev.bankTestable (d : Dev) (k : Fin 4) : Bool := d.offEn && (d.bank k).enabled && !(d.bank k).busy

/-- A PFI output may be tested: off and enabled. -/
def Dev.pfiTestable (d : Dev) (n : Fin 16) : Bool :=
  let p := d.pfi[n]
  d.offEn && bit p.cfg 0 && p.owner == .none && !p.pin.on && decide (p.pin.since ≤ d.dtime)

/-- A bank's test begins with step A. -/
def Dev.bankTest (k : Fin 4) (d : Dev) : Dev :=
  let b := d.bank k
  let ready := decide (b.testAt ≤ d.dtime) && (!b.everRel || decide (b.rel + d.settleNs ≤ d.dtime)) && !b.testRun
  if d.bankTestable k && ready then
    d.modBank k fun b => { b with testRun := true, testB := none, testAt := d.dtime + d.periodNs, testFrom := d.dtime, testBad := [] }
  else d

/-- A PFI output's test begins with phase 1. -/
def Dev.pfiTest (n : Fin 16) (d : Dev) : Dev :=
  let p := d.pfi[n]
  let ready := decide (p.testAt ≤ d.dtime) && !p.lastOff.any (fun x => decide (d.dtime < x + d.settleNs)) && !p.testRun
  if d.pfiTestable n && ready then
    d.modPfi n fun p =>
      { p with testRun := true, testPhase2 := false, testAt := d.dtime + d.periodNs, testFrom := d.dtime, biasAt := d.dtime }
  else d

def setAt {n : Nat} (v : Vector Nat n) (i x : Nat) : Vector Nat n := v.setIfInBounds i x

/-- A count of failures, and the class once enough tests have failed in a row with it (assumption 25). -/
def Dev.failed (count : Nat) (c : Nat) (o : DiagObj) (d : Dev) : Dev :=
  if d.offCnt ≤ count then d.detect c o d.noEvent else d

def Dev.modDiag (f : Diag → Diag) (d : Dev) : Dev := { d with diag := f d.diag }

/-- Low sides of a bank that its test covers, in ascending order (R198). -/
def Bank.tested (b : Bank) : List Nat := (List.range 4).filter fun i => bit b.cfg (1 + i)

/-- A bank's test is over. -/
def Dev.bankTestOff (k : Fin 4) (d : Dev) : Dev := d.modBank k fun b => { b with testRun := false, testB := none }

/-- The verdict of a completed test that found a bank class, 4 or 5: every other count of the bank starts again, since
tests with its class are not consecutive then (R200; assumption 25). -/
def Dev.stepAFailed (k : Fin 4) (c : Nat) (d : Dev) : Dev :=
  let clear := (List.range 4).foldl (init := d.diag.olOff) fun v i => setAt v (4 * k.val + i) 0
  let n := ((if c = 4 then d.diag.scgOff else d.diag.scbOff).toList[k.val]?).getD 0 + 1
  ((d.bankTestOff k).modDiag fun g =>
    { g with olOff := clear, scgOff := setAt g.scgOff k (if c = 4 then n else 0)
             scbOff := setAt g.scbOff k (if c = 5 then n else 0) }).failed n c (.bank k)

/-- The verdict of a completed step B: a low side that failed counts on, one that passed starts again. -/
def Dev.stepBDone (k : Fin 4) (bad : List Nat) (d : Dev) : Dev :=
  let d := (d.bankTestOff k).modDiag fun g => { g with scgOff := setAt g.scgOff k 0, scbOff := setAt g.scbOff k 0 }
  (d.bank k).tested.foldl (init := d) fun d j =>
    let i := 4 * k.val + j
    if bad.contains j then
      let n := (d.diag.olOff.toList[i]?).getD 0 + 1
      (d.modDiag fun g => { g with olOff := setAt g.olOff i n }).failed n 2 (.di (Fin.ofNat 16 i))
    else d.modDiag fun g => { g with olOff := setAt g.olOff i 0 }

/-- The next low side of step B from `j` on, or the end of the test with its verdict. -/
def Dev.nextStepB (k : Fin 4) (j : Nat) (bad : List Nat) (d : Dev) : Dev :=
  match (d.bank k).tested.find? (fun i => decide (j ≤ i)) with
  | some i => d.modBank k fun b => { b with testB := some i, biasAt := d.dtime, testBad := bad }
  | none => d.stepBDone k bad

/-- A bias period of a bank's test ends (R198): step B reads 10 µs after its bias began. A test lasts 45 µs at most; one that
would last longer, or whose conditions have gone, ends without a verdict. -/
def Dev.bankRead (k : Fin 4) (node : Nat) (d : Dev) : Dev :=
  let b := d.bank k
  if !b.testRun then d
  else if !d.bankTestable k || decide (b.testFrom + 45000 < d.dtime) then d.bankTestOff k
  else
    match b.testB with
    | none => if node < 1000 then d.stepAFailed k 4 else if 4500 < node then d.stepAFailed k 5 else d.nextStepB k 0 []
    | some j =>
      if d.dtime < b.biasAt + 10000 then d
      else d.nextStepB k (j + 1) (if 1000 ≤ node then b.testBad ++ [j] else b.testBad)

/-- A bias period of a PFI output's test ends, 10 µs after it began (R199). A test lasts 21 µs at most. -/
def Dev.pfiRead (n : Fin 16) (node vbat : Nat) (d : Dev) : Dev :=
  let p := d.pfi[n]
  let stop (d : Dev) : Dev := d.modPfi n fun p => { p with testRun := false, testPhase2 := false }
  if !p.testRun then d
  else if !d.pfiTestable n || decide (p.testFrom + 21000 < d.dtime) then stop d
  else if d.dtime < p.biasAt + 10000 then d
  else
    if !p.testPhase2 then
      if vbat ≤ 2 * node then (stop d).modDiag fun g => { g with pfiOl := setAt g.pfiOl n 0, pfiScg := setAt g.pfiScg n 0 }
      else d.modPfi n fun p => { p with testPhase2 := true, biasAt := d.dtime }
    else if 2000 ≤ node then
      let c := (d.diag.pfiOl.toList[n.val]?).getD 0 + 1
      ((stop d).modDiag fun g => { g with pfiOl := setAt g.pfiOl n c, pfiScg := setAt g.pfiScg n 0 }).failed c 7 (.pfi n)
    else
      let c := (d.diag.pfiScg.toList[n.val]?).getD 0 + 1
      ((stop d).modDiag fun g => { g with pfiScg := setAt g.pfiScg n c, pfiOl := setAt g.pfiOl n 0 }).failed c 8 (.pfi n)

/-- Bits written 1 in DIAG_DISABLED re-enable their objects (R204). -/
def Dev.clearDisabled (v : W64) (d : Dev) : Dev :=
  let gone : DisKey → Bool
    | .output .di n => bit v n
    | .output .pfi n => bit v (32 + n)
    | .bank k => bit v (16 + k)
    | _ => false
  (d.modDiag fun g => { g with disabled := g.disabled &&& ~~~v }).modFlt fun f =>
    { f with disSrc := f.disSrc.filter fun x => !gone x.1 }

/-! ### The commands -/

/-- VDS_FAULT (R197). -/
def execVdsFault (t : Ns) (x : VdsTrip) (s : State) : Host.Outcome State Fault Refusal :=
  runAt t (fun _ d => d.vdsFault x) s

/-- DI_OFF_STATE_TEST (R198). -/
def execDiOffStateTest (t : Ns) (k : Fin 4) (s : State) : Host.Outcome State Fault Refusal :=
  runAt t (fun _ d => d.bankTest k) s

/-- PFI_OFF_STATE_TEST (R199). -/
def execPfiOffStateTest (t : Ns) (n : Fin 16) (s : State) : Host.Outcome State Fault Refusal :=
  runAt t (fun _ d => d.pfiTest n) s

/-- OFF_TEST_READ (R198, R199). -/
def execOffTestRead (t : Ns) (o : OffTest) (nodeMv vbatMv : Nat) (s : State) : Host.Outcome State Fault Refusal :=
  runAt t (fun _ d => match o with
    | .bank k => d.bankRead k nodeMv
    | .pfi n => d.pfiRead n nodeMv vbatMv) s

/-- DIAG_DISABLED_CLEAR (R204). -/
def execDiagDisabledClear (t : Ns) (p : Path) (v : W64) (s : State) : Host.Outcome State Fault Refusal :=
  runBy t p (fun _ d => d.clearDisabled v) s

end Sys2Proof.Machine
end

