-- ==== Sys2Proof/Machine/Banks.lean ====
section
/-! DEFINITION. The injector banks and their profile sequencers (chapters 6 and 7): the instructions, the ends of waits,
chops and profiles, the release of a bank, and the converter samples. -/

namespace Sys2Proof.Machine

/-! ### Where a sequencer goes next (R184) -/

/-- The loop counter whose body is innermost among those that run and satisfy a predicate. -/
def Psq.inner (p : Psq) (sel : Nat × Nat → Bool) : Option (Fin 2) :=
  let on (c : Fin 2) : Bool := p.lc[c] != 0 && sel p.body[c]
  if on 0 && on 1 then (if p.body[0].1 ≤ p.body[1].1 then some 1 else some 0)
  else if on 0 then some 0
  else if on 1 then some 1
  else none

/-- The instruction at `last` ends and continues in sequence: innermost loop that ends there first (R184). `fuel` bounds
the nesting. -/
def Psq.seqFrom (last : Nat) : Nat → Psq → Psq
  | 0, p => { p with pc := p.profStart + last + 1 }
  | n + 1, p =>
    match p.inner (fun x => x.2 == last) with
    | none => { p with pc := p.profStart + last + 1 }
    | some c =>
      if 1 < p.lc[c] then { p with lc := upd p.lc c (· - 1), pc := p.profStart + p.body[c].1 }
      else seqFrom last n { p with lc := upd p.lc c fun _ => 0 }

/-- The next instruction begins at `t`. -/
def Psq.goOn (x : PsqNext) (t : Ns) (p : Psq) : Psq :=
  let p := match x with
    | .seq last => p.seqFrom last 2
    | .jump target => p.jumpTo target
  { p with phase := .ready, stepAt := t }

/-- Relative index of the present instruction. -/
def Psq.rel (p : Psq) : Nat := p.pc - p.profStart

/-- Instructions that end by time have ended by `t` (R178). -/
def Psq.catchUp (t : Ns) (p : Psq) : Psq :=
  match p.phase with
  | .timed u x => if u ≤ t then p.goOn x u else p
  | .chop (some u) => if u ≤ t then p.goOn (.seq p.rel) u else p
  | _ => p

/-- Pin time of an edge commanded in a step: the step itself where its moment was known in advance, else one output
latency later (R179). -/
def Psq.pinAt (p : Psq) (t : Ns) : Ns := if p.ahead then t else t + 32

/-- The instruction of kind `op` whose step has come. `lead`: edges known in advance are issued that early (R95, R179).
At t_e the sequencer leaves whatever it runs (R186). -/
def Dev.psqStep (e : Env) (k : Fin 4) (op lead : Nat) (f : W64 → Dev → Dev) (d : Dev) : Dev :=
  let d := d.modPsq k (Psq.catchUp (d.dtime + lead))
  let q := (d.bank k).psq
  if q.phase != .ready || decide (d.dtime + lead < q.stepAt) || decide (q.te ≤ q.stepAt)
      || fld (e.mems.word (profAddr k.val q.pc)) 0 4 != op then d
  else
    let (w, bad, d) := d.fetchPsq e k q.pc
    if bad then d else f w d

/-- A one-step instruction ends. -/
def Dev.oneStep (k : Fin 4) (x : PsqNext) (d : Dev) : Dev :=
  d.modPsq k fun p => { p with phase := .timed (p.stepAt + 4) x }

def Dev.psqOf (d : Dev) (k : Fin 4) : Psq := (d.bank k).psq

def Dev.oneStepSeq (k : Fin 4) (d : Dev) : Dev := d.oneStep k (.seq (d.psqOf k).rel)

def Dev.modLast (k : Fin 4) (f : DiPart → DiPart) (d : Dev) : Dev := d.modPsq k fun p => { p with last := f p.last }

/-! ### Instructions -/

/-- DRIVE. -/
def Dev.psqDrive (k : Fin 4) (w : W64) (d : Dev) : Dev :=
  let q := d.psqOf k
  (d.drive k (SwState.ofCode (fld w 4 3)) (q.pinAt q.stepAt)).oneStepSeq k

/-- UNTIL_ABOVE and UNTIL_BELOW begin. -/
def Dev.psqUntil (k : Fin 4) (above : Bool) (w : W64) (d : Dev) : Dev :=
  let q := d.psqOf k
  let (thr, b1) := psqThr q.args (fld w 14 3) (fld w 4 10)
  let (steps, b2) := psqTime q.args w
  let out := q.stepAt + 4 * max 1 steps
  let d := if above then d.dacHi k thr else d.dacLo k thr
  (d.modPsq k fun p => { p with phase := if above then .waitHi out else .waitLo out }).argBad k (b1 || b2)

/-- WAIT. -/
def Dev.psqWait (k : Fin 4) (w : W64) (d : Dev) : Dev :=
  let q := d.psqOf k
  let (steps, b) := psqTime q.args w
  (d.modPsq k fun p => { p with phase := .timed (p.stepAt + 4 * max 1 steps) (.seq p.rel), ahead := true }).argBad k b

/-- CHOP and CHOP_TO_END begin in S_ON (R182). -/
def Dev.psqChop (k : Fin 4) (toEnd : Bool) (w : W64) (d : Dev) : Dev :=
  let q := d.psqOf k
  let (hi, b1) := psqThr q.args (fld w 20 3) (fld w 10 10)
  let (lo, b2) := psqThr q.args (fld w 33 3) (fld w 23 10)
  let (steps, b3) := if toEnd then (0, false) else psqTime q.args w
  let both := decide (hi ≤ lo)
  let (hi, lo) := if both then (fld w 10 10, fld w 23 10) else (hi, lo)
  let on := SwState.ofCode (fld w 4 3)
  let d := ((d.dacHi k hi).dacLo k lo).drive k on (q.pinAt q.stepAt)
  (d.modPsq k fun p =>
    { p with phase := .chop (if toEnd then none else some (p.stepAt + 4 * max 1 steps)), sOn := on
             sOff := SwState.ofCode (fld w 7 3), minSw := fld w 36 4 * 250, chopOn := true, chopAt := p.stepAt
             ahead := true
    }).argBad k (b1 || b2 || b3 || both)

/-- The comparators follow the shunt: BLANK has passed since the latest change of switch state (R158). -/
def Bank.compares (b : Bank) (t : Ns) : Bool := decide (b.lastSw + b.blank ≤ t)

/-- The comparator outputs for a shunt voltage in nV: HI at or above DAC_HI, LO below DAC_LO (R158, R183). Between the
commands that carry the voltage or an output, each holds the last one known (DESIGN CHOICE, assumption 59; unsafe for a
claim about BANK_STATE.CMP_HI and CMP_LO between two samples). -/
def Bank.compare (nv : Nat) (t : Ns) (b : Bank) : Bank :=
  if b.compares t then { b with cmpHi := b.dacHi * 250000000 ≤ nv * 1024, cmpLo := nv * 1024 < b.dacLo * 250000000 } else b

/-- The condition of a BRANCH (R183). -/
def Dev.psqCond (k : Fin 4) (w : W64) (d : Dev) : Bool × Bool :=
  let b := d.bank k
  let q := b.psq
  let c := fld w 4 4
  if c < 8 then (q.flags.getLsbD c, false)
  else match c with
    | 8 => (b.cmpHi, false)
    | 9 => (b.cmpLo, false)
    | 10 => (decide (d.bst.volt < fld d.bst.ledger 16 16), false)
    | 11 => (b.dclass != 0, false)
    | 12 =>
      let (steps, bad) := psqTime q.args w
      (decide (q.te < q.stepAt + 4 * steps), bad)
    | _ => (false, false)

/-- BRANCH, with the filtered comparator outputs at the start of its step; while BLANK runs they hold what they were. -/
def Dev.psqBranch (k : Fin 4) (hi lo : Bool) (w : W64) (d : Dev) : Dev :=
  let d := d.modBank k fun b => if b.compares b.psq.stepAt then { b with cmpHi := hi, cmpLo := lo } else b
  let (c, bad) := d.psqCond k w
  let d := d.argBad k bad
  if c != bit w 8 then d.oneStep k (.jump (fld w 9 10)) else d.oneStepSeq k

/-- LOOP (R184). -/
def Dev.psqLoop (k : Fin 4) (w : W64) (d : Dev) : Dev :=
  let q := d.psqOf k
  let n := fld w 4 10
  let last := fld w 14 10
  let c := Fin.ofNat 2 (fld w 24 1)
  if n = 0 then d.oneStep k (.seq last)
  else
    (d.modPsq k fun p => { p with lc := upd p.lc c fun _ => n, body := upd p.body c fun _ => (q.rel + 1, last) }).oneStep k
      (.jump (q.rel + 1))

/-- SAMPLE. -/
def Dev.psqSample (k : Fin 4) (w : W64) (d : Dev) : Dev :=
  let x := (d.bank k).cur
  (d.modLast k fun l => if bit w 4 then { l with sample1 := x } else { l with sample0 := x }).oneStepSeq k

/-- MARK. -/
def Dev.psqMark (k : Fin 4) (w : W64) (d : Dev) : Dev :=
  let q := d.psqOf k
  let x := satN 0xFFFFFFFF (q.stepAt - q.ts)
  (d.modLast k fun l => if bit w 4 then { l with mark1 := x } else { l with mark0 := x }).oneStepSeq k

/-- The profile reaches END before t_e (R186). -/
def Dev.psqEnd (e : Env) (k : Fin 4) (d : Dev) : Dev :=
  let q := d.psqOf k
  (d.modPsq k fun p => { p with earlies := p.earlies + 1, last := { p.last with early := true, tEndCmd := q.stepAt - q.ts } })
  |>.beginEnd e k q.stepAt (q.pinAt q.stepAt)

/-! ### Ends of waits and chops -/

/-- Start of the step after the one that follows the step of a moment, on the grid of t_s (R178, R180). -/
def Psq.afterNext (p : Psq) (t : Ns) : Ns := p.ts + (t - p.ts) / 4 * 4 + 8

/-- A wait may evaluate its comparator (R180). -/
def Bank.evaluates (b : Bank) (t : Ns) : Bool := decide (b.psq.stepAt + 64 ≤ t) && b.compares t

/-- The comparator of a running wait is valid: the wait ends in the following step, unless its timeout comes first. -/
def Dev.conditionMet (k : Fin 4) (d : Dev) : Dev :=
  let b := d.bank k
  let go (out : Ns) (f : Bank → Bank) : Dev :=
    let next := b.psq.afterNext d.dtime
    if b.evaluates d.dtime && decide (next ≤ out) && decide (d.dtime < b.psq.te) then
      (d.modBank k f).modPsq k fun p => { p with phase := .timed next (.seq p.rel), ahead := false }
    else d
  match b.psq.phase with
  | .waitHi out => go out fun b => { b with cmpHi := true }
  | .waitLo out => go out fun b => { b with cmpLo := true }
  | _ => d

/-- A wait's timeout (R177, R185). -/
def Dev.waitTimeout (e : Env) (k : Fin 4) (d : Dev) : Dev :=
  let q := d.psqOf k
  let go (out : Ns) : Dev :=
    if d.dtime < out ∨ q.te ≤ out then d
    else
      let w := e.mems.word (profAddr k.val q.pc)
      let next := if bit w 21 then PsqNext.jump (fld w 22 10) else .seq q.rel
      let fl := if bit w 20 then q.flags ||| BitVec.ofNat 8 (2 ^ fld w 17 3) else q.flags
      d.modPsq k fun p =>
        Psq.goOn next out { p with timeouts := p.timeouts + 1, flags := fl, ahead := true, last := { p.last with flags := fl } }
  match q.phase with
  | .waitHi out => go out
  | .waitLo out => go out
  | _ => d

/-- Start of the step that follows the step of a moment, on the grid of t_s (R178). -/
def Psq.following (p : Psq) (t : Ns) : Ns := p.ts + (t - p.ts) / 4 * 4 + 4

/-- A switch of a chop (R182), once the comparator is evaluated: commanded in the following step, at least MIN_SW after the
previous one. -/
def Dev.chopSwitch (k : Fin 4) (d : Dev) : Dev :=
  let b := d.bank k
  let q := b.psq
  let next := q.following d.dtime
  let go (ends : Ns) : Dev :=
    if decide (next < q.chopAt + q.minSw) || !b.evaluates d.dtime || decide (ends ≤ next) then d
    else
      let d := if q.chopOn then d.modBank k fun b => { b with cmpHi := true } else d.modBank k fun b => { b with cmpLo := true }
      (d.drive k (if q.chopOn then q.sOff else q.sOn) (next + 32)).modPsq k fun p =>
        { p with chopOn := !p.chopOn, chopAt := next, last := { p.last with chopCnt := satN 65535 (p.last.chopCnt + 1) } }
  match q.phase with
  | .chop none => go q.te
  | .chop (some u) => go (min u q.te)
  | _ => d

/-- t_e: the END block begins, whatever runs; PREEMPT unless that is CHOP_TO_END or END (R186, R194). -/
def Dev.commandedEnd (e : Env) (k : Fin 4) (d : Dev) : Dev :=
  let te := (d.psqOf k).te
  if d.dtime + 32 < te then d
  else
    let d := d.modPsq k (Psq.catchUp te)
    let q := d.psqOf k
    if q.phase == .idle || q.endAt.isSome then d
    else
      let op := fld (e.mems.word (profAddr k.val q.pc)) 0 4
      (d.modLast k fun l => { l with preempt := op != 5 && op != 10 }).beginEnd e k te te

/-! ### Release (R160, R161, R163) -/

/-- The bank is released at `t`; `out`: by END's timeout. -/
def Dev.releaseBank (k : Fin 4) (t : Ns) (out : Bool) (d : Dev) : Dev :=
  let b := d.bank k
  let q := b.psq
  let d := d.modLast k fun l => { l with endLen := t - q.endAt.getD t, eRec := b.eRec, endTo := out, flags := q.flags }
  let d := if out then (d.modBank k fun b => { b with endTos := b.endTos + 1 }).detectOn k 12 (.bank k) else d
  let d := if fld d.diag.flagMask (8 * k.val) 8 &&& q.flags.toNat ≠ 0 then d.detectOn k 13 (.di (d.heldDi k)) else d
  let last := (d.psqOf k).last
  let d := d.modPart b.owner fun p => { p with di := last }
  let d := match b.owner with
    | .box x => d.completeBox x
    | .template i => d.modTemplate i fun y => if y.running then y.advance else y
    | _ => d
  d.modBank k fun x =>
    { x with rel := t, everRel := true, relLs := upd x.relLs x.ls fun _ => some t
             recLast := BitVec.ofNat 32 (satN (2 ^ 32 - 1) b.eRec), recTotal := x.recTotal + BitVec.ofNat 32 b.eRec
             owner := .none, tag := 0, ls := 0, sw := .decay
             psq := { x.psq with phase := .idle, shown := x.psq.last } }

/-- END's current condition is met (R161, R187). -/
def Dev.bankRelease (k : Fin 4) (d : Dev) : Dev :=
  let b := d.bank k
  match b.psq.phase with
  | .waitEnd out =>
    if b.evaluates d.dtime && decide (d.dtime ≤ out) then
      (d.modBank k fun b => { b with cmpLo := true }).releaseBank k d.dtime false
    else d
  | _ => d

/-- END's timeout (R163). -/
def Dev.endTimeout (k : Fin 4) (d : Dev) : Dev :=
  match (d.psqOf k).phase with
  | .waitEnd out => if out ≤ d.dtime then d.releaseBank k out true else d
  | _ => d

/-! ### Converter samples (R159, R196) -/

/-- Code of a shunt voltage: 250/4096 mV per code, half up, limited. -/
def shuntCode (nv : Nat) : Nat := satN 4095 (divRoundN (nv * 4096) 250000000)

/-- The current criteria of a sample (R196), each once in an event: DI_OL_ON as it is taken, DI_SCB_ON when it is complete
one converter period later (R201, R206). -/
def Dev.currentClasses (k : Fin 4) (code : Nat) (d : Dev) : Dev :=
  if !d.onEn then d
  else
    let b := d.bank k
    let cur := d.diag.cur
    let on := b.onTime + if b.sw = .boost ∨ b.sw = .batt then d.dtime - b.lastOn else 0
    let olT := fld cur 16 8 * 1000
    let met := b.olMet || (fld cur 0 12 ≤ code && on ≤ olT)
    let short := code == 4095
      || (fld cur 32 12 ≤ code && b.psq.ts ≤ b.lastOn && decide (d.dtime ≤ b.lastOn + fld cur 48 8 * 1000))
    let d := d.modBank k fun b => { b with olMet := met, scTaken := short }
    let d := if b.scTaken && !b.dclass.getLsbD 1 then d.detectOn k 1 (.di (d.heldDi k)) else d
    if !met && decide (olT ≤ on) && !b.dclass.getLsbD 0 then d.detectOn k 0 (.di (d.heldDi k)) else d

/-- A sample of the shunt while an event holds the bank. -/
def Dev.bankSample (k : Fin 4) (nv : Nat) (d : Dev) : Dev :=
  let b := d.bank k
  let q := b.psq
  if !b.busy || decide (d.dtime < q.ts) then d
  else
    let code := shuntCode nv
    let inEnd := q.endAt.any fun x => decide (x < d.dtime)
    let d := d.modBank k fun b =>
      { b.compare nv d.dtime with
        cur := code, sumCodes := if inEnd then b.sumCodes + code else b.sumCodes
        endSamples := if inEnd then b.endSamples + 1 else b.endSamples }
    let d := d.modLast k fun l =>
      if l.sampled = false ∨ l.peak < code then
        { l with sampled := true, peak := code, tPeak := satN 0xFFFFFFFF (d.dtime - q.ts) }
      else l
    d.currentClasses k code

/-! ### The commands -/

/-- PSQ_DRIVE (R156, R178). -/
def execPsqDrive (t : Ns) (k : Fin 4) (s : State) : Host.Outcome State Fault Refusal :=
  runAt t (fun e d => d.psqStep e k 0 32 (fun w d => d.psqDrive k w)) s

/-- UNTIL_ABOVE (R177). -/
def execUntilAbove (t : Ns) (k : Fin 4) (s : State) : Host.Outcome State Fault Refusal :=
  runAt t (fun e d => d.psqStep e k 1 0 (fun w d => d.psqUntil k true w)) s

/-- UNTIL_BELOW (R177). -/
def execUntilBelow (t : Ns) (k : Fin 4) (s : State) : Host.Outcome State Fault Refusal :=
  runAt t (fun e d => d.psqStep e k 2 0 (fun w d => d.psqUntil k false w)) s

/-- WAIT (R178). -/
def execWait (t : Ns) (k : Fin 4) (s : State) : Host.Outcome State Fault Refusal :=
  runAt t (fun e d => d.psqStep e k 3 0 (fun w d => d.psqWait k w)) s

/-- CHOP (R182). -/
def execChop (t : Ns) (k : Fin 4) (s : State) : Host.Outcome State Fault Refusal :=
  runAt t (fun e d => d.psqStep e k 4 32 (fun w d => d.psqChop k false w)) s

/-- CHOP_TO_END (R182). -/
def execChopToEnd (t : Ns) (k : Fin 4) (s : State) : Host.Outcome State Fault Refusal :=
  runAt t (fun e d => d.psqStep e k 5 32 (fun w d => d.psqChop k true w)) s

/-- BRANCH (R183). -/
def execBranch (t : Ns) (k : Fin 4) (cmpHi cmpLo : Bool) (s : State) : Host.Outcome State Fault Refusal :=
  runAt t (fun e d => d.psqStep e k 6 0 (fun w d => d.psqBranch k cmpHi cmpLo w)) s

/-- LOOP (R184). -/
def execLoop (t : Ns) (k : Fin 4) (s : State) : Host.Outcome State Fault Refusal :=
  runAt t (fun e d => d.psqStep e k 7 0 (fun w d => d.psqLoop k w)) s

/-- PSQ_SAMPLE (R176). -/
def execPsqSample (t : Ns) (k : Fin 4) (s : State) : Host.Outcome State Fault Refusal :=
  runAt t (fun e d => d.psqStep e k 8 0 (fun w d => d.psqSample k w)) s

/-- MARK (R176). -/
def execMark (t : Ns) (k : Fin 4) (s : State) : Host.Outcome State Fault Refusal :=
  runAt t (fun e d => d.psqStep e k 9 0 (fun w d => d.psqMark k w)) s

/-- PSQ_END (R186, R187). -/
def execPsqEnd (t : Ns) (k : Fin 4) (s : State) : Host.Outcome State Fault Refusal :=
  runAt t (fun e d => d.psqStep e k 10 0 (fun _ d => d.psqEnd e k)) s

/-- WAIT_CONDITION_MET (R180). -/
def execWaitConditionMet (t : Ns) (k : Fin 4) (s : State) : Host.Outcome State Fault Refusal :=
  runAt t (fun _ d => d.conditionMet k) s

/-- WAIT_TIMEOUT (R177). -/
def execWaitTimeout (t : Ns) (k : Fin 4) (s : State) : Host.Outcome State Fault Refusal :=
  runAt t (fun e d => d.waitTimeout e k) s

/-- CHOP_SWITCH (R182). -/
def execChopSwitch (t : Ns) (k : Fin 4) (s : State) : Host.Outcome State Fault Refusal :=
  runAt t (fun _ d => d.chopSwitch k) s

/-- COMMANDED_END (R186). -/
def execCommandedEnd (t : Ns) (k : Fin 4) (s : State) : Host.Outcome State Fault Refusal :=
  runAt t (fun e d => d.commandedEnd e k) s

/-- BANK_RELEASE (R161). -/
def execBankRelease (t : Ns) (k : Fin 4) (s : State) : Host.Outcome State Fault Refusal :=
  runAt t (fun _ d => d.bankRelease k) s

/-- END_TIMEOUT (R163). -/
def execEndTimeout (t : Ns) (k : Fin 4) (s : State) : Host.Outcome State Fault Refusal :=
  runAt t (fun _ d => d.endTimeout k) s

/-- BANK_SAMPLE (R159). -/
def execBankSample (t : Ns) (k : Fin 4) (shuntNv : Nat) (s : State) : Host.Outcome State Fault Refusal :=
  runAt t (fun _ d => d.bankSample k shuntNv) s

end Sys2Proof.Machine
end

