-- ==== Sys2Proof/Machine/Boost.lean ====
section
/-! DEFINITION. The boost controller and the PFI drain delays (R164 to R170). -/

namespace Sys2Proof.Machine

def Dev.modBst (f : Bst → Bst) (d : Dev) : Dev := { d with bst := f d.bst }

def Bst.enabled (b : Bst) : Bool := bit b.cfg 0 && fld b.cfg 16 10 != 0
def Bst.vSet (b : Bst) : Nat := fld b.set 0 16
def Bst.hyst (b : Bst) : Nat := fld b.set 16 16

/-- Switching is allowed at all (R164, R166). -/
def Dev.bstMay (d : Dev) : Bool := d.bst.enabled && d.sup.mode.boost && !d.bst.held

/-- A switching cycle begins. -/
def Dev.bstCycle (d : Dev) : Dev :=
  d.modBst fun b => { b with phase := .on d.dtime, pin := b.pin.set true d.dtime d.sup.vgdLow, cycles := b.cycles + 1
                             reached := b.phase != .idle && b.reached }

def Dev.bstStop (d : Dev) : Dev := d.modBst (Bst.halt d.dtime)

/-- Hysteresis (R164): cycles start below V_SET - HYST; what may not switch stops. -/
def Dev.bstRegulate (d : Dev) : Dev :=
  if !d.bstMay then (if d.bst.phase = .idle then d else d.bstStop)
  else if d.bst.phase = .idle ∧ d.bst.volt + d.bst.hyst < d.bst.vSet then d.bstCycle
  else d

/-- Persistence of an over- or under-voltage (R168). -/
def Dev.bstWatch (d : Dev) : Dev :=
  let ov := fld d.bst.limits 0 16
  let uv := fld d.bst.limits 16 16
  d.modBst fun b =>
    let high := decide (ov < b.volt)
    let under := uv != 0 && decide (b.volt < uv) && b.phase != .idle
    { b with ovSince := if high then some (b.ovSince.getD d.dtime) else none, ovDet := high && b.ovDet
             uvSince := if under then some (b.uvSince.getD d.dtime) else none, uvDet := under && b.uvDet }

/-- The 10-bit code of BST_VS, 1.25 V full scale (R165; assumption 24 for the rounding). -/
def bstCode (uv : Nat) : Nat := satN 1023 (divRoundN (uv * 1024) 1250000)

/-- BST_VOLT.VOLT in 10 mV from the code and the divider ratio (R165). -/
def bstVolt (code dv : Nat) : Nat := code * 125 * dv / 1024

/-- BST_VOLT is updated (R165). A bank whose END block is about to begin latches it anew (R160). -/
def Dev.bstUpdate (uv : Nat) (d : Dev) : Dev :=
  let c := bstCode uv
  let v := bstVolt c (fld d.bst.cfg 8 8)
  let d := { d with banks := d.banks.map fun (b : Bank) => if b.psq.endAt.any fun x => decide (d.dtime < x) then { b with vBst := v } else b }
  ((d.modBst fun b => { b with code := c, volt := v, reached := b.reached || (b.phase != .idle && decide (b.vSet ≤ v)) }).bstRegulate).bstWatch

/-- BST_G turns off within a cycle. -/
def Dev.bstOff (max_ : Bool) (d : Dev) : Dev :=
  d.modBst fun b => { b with phase := .off d.dtime, pin := b.pin.set false d.dtime false
                             tonMax := if max_ then b.tonMax + 1 else b.tonMax }

def Dev.bstPeak (d : Dev) : Dev :=
  match d.bst.phase with
  | .on _ => (d.bstOff false).bstRegulate
  | _ => d

def Dev.bstTonMax (d : Dev) : Dev :=
  match d.bst.phase with
  | .on s => if d.dtime < s + fld d.bst.cfg 32 16 then d else (d.bstOff true).bstRegulate
  | _ => d

/-- The off-time ends: the next cycle, or the end of switching once V_SET is reached. -/
def Dev.bstToff (d : Dev) : Dev :=
  match d.bst.phase with
  | .off s =>
    if d.dtime < s + fld d.bst.cfg 48 16 then d
    else if d.bst.reached ∨ d.bst.vSet ≤ d.bst.volt ∨ !d.bstMay then (d.bstStop).bstWatch
    else d.bstCycle
  | _ => d

def Dev.bstDet (d : Dev) : Nat := fld d.bst.limits 32 8 * 1000

/-- BST_VOLT has stayed above OV for DET (R168). -/
def Dev.bstOver (d : Dev) : Dev :=
  match d.bst.ovSince with
  | some s =>
    if d.bst.ovDet ∨ d.dtime < s + d.bstDet then d
    else (d.modBst fun b => { b with ovDet := true, ovSeen := true }).detectBoost 10
  | none => d

/-- BST_VOLT has stayed below UV for DET while BST switches (R168). -/
def Dev.bstUnder (d : Dev) : Dev :=
  match d.bst.uvSince with
  | some s =>
    if d.bst.uvDet ∨ d.bst.phase = .idle ∨ d.dtime < s + d.bstDet then d
    else (d.modBst fun b => { b with uvDet := true, uvSeen := true }).detectBoost 11
  | none => d

/-! ### Drain delays (R170) -/

/-- A drain delay in ns, saturating. -/
def drainDly (at_ now : Ns) : Nat := satN 65535 (now - at_)

/-- The drain-on measurements of an output, begun at the edges selected, end. A saturated one sets NO_ON, and PFI_SCB_ON is
detected (R196). Every unwritten event that still awaits its delay takes its own. -/
def Dev.drainOn (n : Fin 16) (sel : Ns → Bool) (d : Dev) : Dev :=
  match (d.pfi[n].measOn.filter sel).getLast? with
  | none => d
  | some s =>
    let x := drainDly s d.dtime
    let sat := x == 65535
    let waiting := d.pfiBoxes n fun b => b.part.donDly.isNone && sel (b.started.getD s)
    let d := d.modPfi n fun p =>
      { p with measOn := p.measOn.filter (!sel ·), donDly := BitVec.ofNat 16 x, noOn := sat, drain := p.drain || !sat }
    let d := waiting.foldl (init := d) fun d b =>
      let y := drainDly ((d.box b).started.getD s) d.dtime
      d.modPart (.box b) fun p => { p with donDly := some y, noOn := y == 65535 }
    if sat && d.onEn then d.detectPfi n 6 (waiting.filter fun b => (d.box b).part.noOn) else d

/-- The drain-off measurements of an output, begun at the edges selected, end. A saturated one sets NO_OFF, and PFI_NO_OFF
is detected. -/
def Dev.drainOff (n : Fin 16) (sel : Ns → Bool) (d : Dev) : Dev :=
  match (d.pfi[n].measOff.filter sel).getLast? with
  | none => d
  | some s =>
    let x := drainDly s d.dtime
    let sat := x == 65535
    let waiting := d.pfiBoxes n fun b => b.part.offEdge != 0 && b.part.doffDly.isNone && sel b.part.offEdge
    let d := d.modPfi n fun p =>
      { p with measOff := p.measOff.filter (!sel ·), doffDly := BitVec.ofNat 16 x, noOff := sat, drain := p.drain && sat }
    let d := waiting.foldl (init := d) fun d b =>
      let y := drainDly (d.box b).part.offEdge d.dtime
      d.modPart (.box b) fun p => { p with doffDly := some y, noOff := y == 65535 }
    if sat then d.detectPfi n 9 (waiting.filter fun b => (d.box b).part.noOff) else d

/-- The measurements that have run their full course. -/
def Dev.drainSaturated (n : Fin 16) (isOn : Bool) (d : Dev) : Dev :=
  let done (x : Ns) : Bool := decide (x + 65535 ≤ d.dtime)
  if isOn then d.drainOn n done else d.drainOff n done

/-! ### The commands -/

/-- BST_VOLT_UPDATE (R165). -/
def execBstVoltUpdate (t : Ns) (vsUv : Nat) (s : State) : Host.Outcome State Fault Refusal :=
  runAt t (fun _ d => d.bstUpdate vsUv) s

/-- BST_CS_PEAK (R164). -/
def execBstCsPeak (t : Ns) (s : State) : Host.Outcome State Fault Refusal := runAt t (fun _ d => d.bstPeak) s

/-- T_ON_MAX (R164). -/
def execTOnMax (t : Ns) (s : State) : Host.Outcome State Fault Refusal := runAt t (fun _ d => d.bstTonMax) s

/-- T_OFF_END (R164). -/
def execTOffEnd (t : Ns) (s : State) : Host.Outcome State Fault Refusal := runAt t (fun _ d => d.bstToff) s

/-- BOOST_OVER_VOLTAGE (R168). -/
def execBoostOverVoltage (t : Ns) (s : State) : Host.Outcome State Fault Refusal := runAt t (fun _ d => d.bstOver) s

/-- BOOST_UNDER_VOLTAGE (R168). -/
def execBoostUnderVoltage (t : Ns) (s : State) : Host.Outcome State Fault Refusal := runAt t (fun _ d => d.bstUnder) s

/-- DRAIN_DELAY_MEASURED (R170). -/
def execDrainDelayMeasured (t : Ns) (n : Fin 16) (isOn : Bool) (s : State) : Host.Outcome State Fault Refusal :=
  runAt t (fun _ d => if isOn then d.drainOn n (fun _ => true) else d.drainOff n (fun _ => true)) s

/-- DRAIN_DELAY_SATURATED (R170). -/
def execDrainDelaySaturated (t : Ns) (n : Fin 16) (isOn : Bool) (s : State) : Host.Outcome State Fault Refusal :=
  runAt t (fun _ d => d.drainSaturated n isOn) s

end Sys2Proof.Machine
end

