-- ==== Sys2Proof/Machine/IgnGate.lean ====
section
/-! DEFINITION. The ends of soft shutdowns and the maximum-dwell guard of the ignition outputs (R209, R214). -/

namespace Sys2Proof.Machine

/-- The end of a soft-shutdown ramp is the output's off edge (R209). -/
def Dev.rampEnd (n : Fin 16) (d : Dev) : Dev :=
  let g := d.ign[n]
  if !g.soft || decide (d.dtime < g.rampEnd) then d
  else
    (match g.owner with | .box b => d.completeBox b | _ => d).modIgn n fun g =>
      { g with soft := false, owner := .none, tag := 0, lastOff := some g.rampEnd
               pin := { on := false, since := g.rampEnd } }

/-- A dwell has lasted DWELL_MAX at the pin without a spark (R214): a soft shutdown, and IGN_DWELL. A spark due in the same
clock is issued in its place. -/
def Dev.maxDwell (n : Fin 16) (d : Dev) : Dev :=
  let g := d.ign[n]
  if g.owner == .none || g.soft || d.sparkDue g.owner || !g.pin.level d.dtime || decide (d.dtime < g.dwellAt + fld g.cfg 16 16 * 10000) then d
  else
    let co := d.ownerCoord g.owner
    let d := d.softShutdown n
    let d := d.modPart g.owner fun p => { p with maxd := true, soft := false }
    let d := (d.modIgn n fun g => { g with trips := g.trips + 1 })
      |>.raise { source := 12, ctrl := ctrl 3 6 n.val, coord := co }
    match g.owner with
    | .box b =>
      let x := d.box b
      (d.ignLast n x.part.dwell x.ev.dwellPri x.part).closeBox b
        { result := .endedFault, reason := 12, time := d.dtime, ctrl := ctrl 3 6 n.val }
    | .template i =>
      let pri := match d.sup.templates[i]? with | some x => x.ev.dwellPri | none => false
      (d.ignLast n (d.dtime - g.dwellAt) pri { maxd := true }).modTemplate i Template.advance
    | _ => d

/-- SOFT_SHUTDOWN_END (R209). -/
def execSoftShutdownEnd (t : Ns) (n : Fin 16) (s : State) : Host.Outcome State Fault Refusal :=
  runAt t (fun _ d => d.rampEnd n) s

/-- MAX_DWELL_GUARD (R214). -/
def execMaxDwellGuard (t : Ns) (n : Fin 16) (s : State) : Host.Outcome State Fault Refusal :=
  runAt t (fun _ d => d.maxDwell n) s

end Sys2Proof.Machine
end

