-- ==== Sys2Proof/Machine/RegsDrive.lean ====
section
/-! DEFINITION. The registers of pages 0x20 to 0x28: banks with their sequencers, boost, PFI, ignition and gates,
diagnostics (R167, R173, R195, R207, R220). -/

namespace Sys2Proof.Machine

/-- The state condition of R173. -/
def Dev.mayDrive (loader : Bool) (d : Dev) : Bool := loader || d.pos.sync == .stopped || d.sup.mode == .service

/-! ### E_p (R167, R190) -/

/-- E_p in µJ: V_SET in 10 mV, I_B in DAC codes at RSH in µΩ, T_B in ns. -/
def profileEnergy (vSet rsh iB tB : Nat) : Nat := if rsh = 0 then 0 else vSet * iB * 250000 * tB / (102400000 * rsh)

/-- Every profile that a bank holds, its basecamp profile among them. -/
def Bank.loaded (b : Bank) : List Profile := (b.bcProfile :: b.profiles.toList).filter fun p => p.len != 0

/-- Check 10 of R189 over every loaded profile. -/
def Dev.check10 (d : Dev) : Bool :=
  d.banks.toList.all fun b => b.loaded.all fun p =>
    decide (profileEnergy (fld d.bst.set 0 16) b.rsh p.iB p.tB + d.eMin ≤ d.eFull)

/-- E_p of every profile at the present settings. -/
def Dev.recompute (d : Dev) : Dev :=
  let f (rsh : Nat) (p : Profile) : Profile := { p with eP := profileEnergy (fld d.bst.set 0 16) rsh p.iB p.tB }
  { d with banks := d.banks.map fun b => { b with profiles := b.profiles.map (f b.rsh), bcProfile := f b.rsh b.bcProfile } }

/-- A write of a register that enters check 10 (R167): through an access path it may not break a loaded profile. -/
def Dev.wrEnergy (loader ok : Bool) (ign act : Dev → Dev) (d : Dev) : Dev :=
  let d' := act d
  if ok && d.mayDrive loader && (loader || d'.check10) then d'.recompute else ign d

/-! ### Banks: page 0x20 + k -/

def Dev.bankIgn (k : Fin 4) (d : Dev) : Dev := d.modBank k fun b => { b with cfgIgn := true }

/-- BANK_CFG written: a bank that is disabled holds its gates off; one that is enabled waits SETTLE for its first
test (R198). -/
def Dev.setBankCfg (k : Fin 4) (v : W64) (d : Dev) : Dev :=
  let was := (d.bank k).enabled
  let off (p : Pin) : Pin := p.set false d.dtime false
  d.modBank k fun b =>
    let b := { b with cfg := v &&& 0xF3FF3FF1F }
    if bit v 0 then { b with testAt := if was then b.testAt else d.dtime + d.settleNs }
    else { b with hsb := off b.hsb, hsv := off b.hsv, fw := off b.fw, lsPins := b.lsPins.map off, testRun := false, testB := none }

def Dev.wrBank (loader : Bool) (p : Path) (k : Fin 4) (ofs : Nat) (v : W64) (d : Dev) : Dev :=
  match ofs with
  | 0x00 => d.guarded (20 ≤ fld v 8 10 && fld v 8 10 ≤ 1000 && fld v 20 10 ≤ 1000 && d.mayDrive loader)
      (Dev.bankIgn k) (Dev.setBankCfg k v)
  | 0x08 => d.wrEnergy loader (fld v 0 20 != 0) (Dev.bankIgn k) fun d => d.modBank k fun b => { b with sense := v &&& mask64 0 20 }
  | 0x30 => d.guarded (d.mayDrive loader) (Dev.bankIgn k) fun d => d.modBank k fun b => { b with offtime := v }
  | 0x40 => d.modBank k fun b => { b with cfgIgn := b.cfgIgn && !bit v 56 }
  | 0x88 => d.modCtx p fun c => { c with profSel := upd c.profSel k fun _ => v &&& 0x1F }
  | 0xB8 => d.modCtx p fun c => { c with psqMemIdx := upd c.psqMemIdx k fun _ => v &&& 0x3FF }
  | _ => d

/-- BANK_CUR (R173). -/
def Bank.regCur (b : Bank) : W64 :=
  put 0 12 b.cur ||| put 16 16 (if b.rsh = 0 then 0 else satN 65535 (b.cur * 250000000 / (4096 * b.rsh)))

/-- PSQ_STAT (R195), as it stands at `t`. -/
def Bank.regPsq (b : Bank) (t : Ns) : W64 :=
  let q := b.psq.catchUp t
  put 0 10 q.pc ||| putB 10 (q.phase != .idle) ||| putB 11 (q.phase != .idle && q.endAt.isSome) ||| put 16 5 q.prof
    ||| put 24 8 q.flags.toNat ||| put 32 10 q.lc[0] ||| put 42 10 q.lc[1]

def DiPart.regLast (l : DiPart) : W64 :=
  put 0 12 l.peak ||| put 16 32 l.tPeak ||| put 48 8 l.flags.toNat ||| putB 56 l.early ||| putB 57 l.argBad
    ||| putB 58 l.endTo ||| putB 59 l.safe ||| putB 60 l.preempt

def Dev.rdBank (e : Env) (p : Path) (k : Fin 4) (ofs : Nat) (d : Dev) : W64 × Dev :=
  let b := d.bank k
  let q := b.psq
  let sel : Profile := (b.profiles.toList[fld (d.ctx p).profSel[k] 0 5]?).getD {}
  let r (w : W64) : W64 × Dev := (w, d)
  match ofs with
  | 0x00 => r b.cfg
  | 0x08 => r b.sense
  | 0x10 => r (d.regBankState k)
  | 0x18 => r (put 0 10 b.dacHi ||| put 16 10 b.dacLo)
  | 0x20 => r b.regCur
  | 0x28 => r (put 0 64 b.rel)
  | 0x30 => r b.offtime
  | 0x38 => r (put 0 32 b.recLast.toNat ||| put 32 32 b.recTotal.toNat)
  | 0x40 => r (put 0 32 b.events.toNat ||| put 32 16 b.safeEnds.toNat ||| put 48 8 b.endTos.toNat ||| putB 56 b.cfgIgn)
  | 0x80 => r (b.regPsq d.dtime)
  | 0x88 => r (d.ctx p).profSel[k]
  | 0x90 => r (put 0 10 sel.start ||| put 16 11 sel.len ||| put 32 32 sel.tEnd)
  | 0x98 => r (put 0 32 (satN (2 ^ 32 - 1) sel.eP) ||| put 32 32 (satN (2 ^ 32 - 1) sel.tB))
  | 0xA0 => r q.args
  | 0xA8 => r (put 0 64 q.ts)
  | 0xB0 => r (put 0 64 q.te)
  | 0xB8 => r (d.ctx p).psqMemIdx[k]
  | 0xC0 =>
    let (w, _, d) := d.fetchPsq e k (fld (d.ctx p).psqMemIdx[k] 0 10)
    (w, d)
  | 0xC8 => r (put 0 32 q.runs.toNat ||| put 32 16 q.timeouts.toNat ||| put 48 16 q.earlies.toNat)
  | 0xD0 => r q.shown.regLast
  | _ => r 0

/-! ### Boost: page 0x24 -/

def Dev.bstIgn (d : Dev) : Dev := d.modBst fun b => { b with cfgIgn := true }

def Dev.wrBst (loader : Bool) (ofs : Nat) (v : W64) (d : Dev) : Dev :=
  match ofs with
  | 0x00 => d.guarded (20 ≤ fld v 8 8 && fld v 8 8 ≤ 200 && d.mayDrive loader) Dev.bstIgn fun d =>
      (d.modBst fun b => { b with cfg := v &&& 0xFFFFFFFF03FFFF01 }).bstRegulate
  | 0x08 => (d.wrEnergy loader (4000 ≤ fld v 0 16 && fld v 0 16 ≤ 9000) Dev.bstIgn fun d =>
      d.modBst fun b => { b with set := v &&& mask64 0 32 }).bstRegulate
  | 0x10 => d.wrEnergy loader true Dev.bstIgn fun d => d.modBst fun b => { b with ledger := v &&& mask64 0 48 }
  | 0x18 => d.guarded (d.mayDrive loader) Dev.bstIgn fun d => (d.modBst fun b => { b with limits := v &&& mask64 0 40 }).bstWatch
  | 0x28 => d.modBst fun b => { b with ovSeen := b.ovSeen && !bit v 48, uvSeen := b.uvSeen && !bit v 49
                                       cfgIgn := b.cfgIgn && !bit v 50 }
  | _ => d

def Dev.rdBst (ofs : Nat) (d : Dev) : W64 :=
  let b := d.bst
  match ofs with
  | 0x00 => b.cfg
  | 0x08 => b.set
  | 0x10 => b.ledger
  | 0x18 => b.limits
  | 0x20 => d.regBstVolt
  | 0x28 => put 0 32 b.cycles.toNat ||| put 32 16 b.tonMax.toNat ||| putB 48 b.ovSeen ||| putB 49 b.uvSeen ||| putB 50 b.cfgIgn
  | _ => 0

/-! ### PFI: page 0x25 -/

def Dev.pfiSel (d : Dev) (p : Path) : Fin 16 := Fin.ofNat 16 (fld (d.ctx p).pfiSel 0 4)

def Dev.wrPfi (loader : Bool) (p : Path) (ofs : Nat) (v : W64) (d : Dev) : Dev :=
  let n := d.pfiSel p
  match ofs with
  | 0x00 => d.modCtx p fun c => { c with pfiSel := v &&& 0xF }
  | 0x08 => d.guarded (d.mayDrive loader) (Dev.modPfi n fun x => { x with cfgIgn := true }) fun d =>
      d.modPfi n fun x => { x with cfg := v &&& 0xFFFFFFFF00FFFF01 }
  | 0x10 => d.modPfi n fun x => { x with cfgIgn := x.cfgIgn && !bit v 48 }
  | _ => d

def Dev.rdPfi (p : Path) (ofs : Nat) (d : Dev) : W64 :=
  let n := d.pfiSel p
  let x := d.pfi[n]
  match ofs with
  | 0x00 => (d.ctx p).pfiSel
  | 0x08 => x.cfg
  | 0x10 => put 0 16 x.donDly.toNat ||| put 16 16 x.doffDly.toNat ||| putB 32 (d.pfiOn n) ||| putB 33 x.drain
      ||| putB 34 x.noOn ||| putB 35 x.noOff ||| putB 48 x.cfgIgn
  | 0x18 => put 0 64 x.offAt
  | 0x20 => put 0 32 x.events.toNat ||| put 32 16 x.safeEnds.toNat
  | _ => 0

/-! ### Ignition and gates: page 0x26 -/

def ignCfgOk (v : W64) : Bool := 20 ≤ fld v 8 8 && fld v 8 8 ≤ 80 && fld v 16 16 != 0 && 1000 ≤ fld v 32 24

def Dev.wrIgn (loader : Bool) (p : Path) (ofs : Nat) (v : W64) (d : Dev) : Dev :=
  let sel := fld (d.ctx p).ignSel 0 5
  let n := Fin.ofNat 16 sel
  let g := Fin.ofNat 8 (sel - 16)
  if ofs = 0 then (if fld v 0 5 < 24 then d.modCtx p fun c => { c with ignSel := v &&& 0x1F } else d)
  else if sel < 16 then
    match ofs with
    | 0x08 => d.guarded (ignCfgOk v && d.mayDrive loader) (Dev.modIgn n fun x => { x with cfgIgn := true }) fun d =>
        d.modIgn n fun x => { x with cfg := v &&& 0xFFFFFFFFFFFFFF07 }
    | 0x10 => d.modIgn n fun x => { x with cfgIgn := x.cfgIgn && !bit v 3 }
    | _ => d
  else
    match ofs with
    | 0x28 => d.guarded (d.mayDrive loader) (Dev.modGate g fun x => { x with cfgIgn := true }) fun d =>
        d.modGate g fun x => { x with cfg := v &&& 3 }
    | 0x30 => d.modGate g fun x => { x with cfgIgn := x.cfgIgn && !bit v 1 }
    | _ => d

def Dev.rdIgn (p : Path) (ofs : Nat) (d : Dev) : W64 :=
  let sel := fld (d.ctx p).ignSel 0 5
  let n := Fin.ofNat 16 sel
  let k := Fin.ofNat 8 (sel - 16)
  let x := d.ign[n]
  let g := d.gate[k]
  if ofs = 0 then (d.ctx p).ignSel
  else if sel < 16 then
    match ofs with
    | 0x08 => x.cfg
    | 0x10 => putB 0 (d.ignDwell n) ||| putB 1 x.soft ||| putB 2 (d.keyDisabled .ign n.val) ||| putB 3 x.cfgIgn
        ||| put 32 32 (if d.ignDwell n || x.soft then x.tag.toNat else 0)
    | 0x18 => put 0 32 x.lastDwell.toNat ||| put 32 5 x.lastFlags.toNat
    | 0x20 => put 0 32 x.sparks.toNat ||| put 32 16 x.softEnds.toNat ||| put 48 16 x.trips.toNat
    | _ => 0
  else
    match ofs with
    | 0x28 => g.cfg
    | 0x30 => putB 0 (d.gateOn k) ||| putB 1 g.cfgIgn ||| put 32 32 g.windows.toNat
    | _ => 0

/-! ### Diagnostics: page 0x28 -/

def Dev.diagIgn (d : Dev) : Dev := d.modDiag fun g => { g with cfgIgn := true }

def Dev.wrDiag (loader : Bool) (ofs : Nat) (v : W64) (d : Dev) : Dev :=
  let cfg (ok : Bool) (f : Diag → Diag) : Dev := d.guarded (ok && d.mayDrive loader) Dev.diagIgn (Dev.modDiag f)
  match ofs with
  | 0x00 => cfg true fun g => { g with cfg := v &&& 3 }
  | 0x08 => cfg true fun g => { g with react := v &&& mask64 0 32 }
  | 0x10 => cfg true fun g => { g with vds := v &&& mask64 0 40 }
  | 0x18 => cfg true fun g => { g with cur := v &&& 0x00FF0FFF00FF0FFF }
  | 0x20 => cfg (50 ≤ fld v 8 8 && fld v 16 4 != 0) fun g => { g with offCfg := v &&& mask64 0 20 }
  | 0x28 => cfg true fun g => { g with flagMask := v &&& mask64 0 32 }
  | 0x30 => d.clearDisabled v
  | 0x38 => d.modDiag fun g => { g with seen := g.seen &&& ~~~v.setWidth 16, cfgIgn := g.cfgIgn && !bit v 16 }
  | _ => d

def Dev.rdDiag (ofs : Nat) (d : Dev) : W64 :=
  let g := d.diag
  let cnt (m : Nat) : W64 := (List.range 4).foldl (fun a i => a ||| put (16 * i) 16 ((g.cnt.toList[4 * m + i]?).getD 0).toNat) 0
  match ofs with
  | 0x00 => g.cfg
  | 0x08 => g.react
  | 0x10 => g.vds
  | 0x18 => g.cur
  | 0x20 => g.offCfg
  | 0x28 => g.flagMask
  | 0x30 => g.disabled
  | 0x38 => put 0 16 g.seen.toNat ||| putB 16 g.cfgIgn
  | 0x40 => g.last
  | 0x48 => cnt 0
  | 0x50 => cnt 1
  | 0x58 => cnt 2
  | 0x60 => cnt 3
  | _ => 0

end Sys2Proof.Machine
end

