-- ==== Sys2Proof/Machine/Calc.lean ====
section
/-! DEFINITION. The calculation engines (chapter 10): runs, slots, requests, debug halt, and the registers of pages 0x30
to 0x38. The operations are in `CalcOps`, the emissions in `Emit`. -/

namespace Sys2Proof.Machine

def Dev.modCes (f : CeShared → CeShared) (d : Dev) : Dev := { d with ces := f d.ces }

def ceCtrl (k : Fin 8) : BitVec 16 := ctrl 4 k.val 0xFF

/-! ### Halting (R247) -/

/-- The engine is halted at a boundary. -/
def Ce.haltAt (now : Ns) (to_ : CeState) (c : Ce) : Ce :=
  { c with state := .halted, resumeTo := to_, haltedAt := now, haltReq := false }

/-- The halted time so far is excluded from every deadline. -/
def Ce.unhalt (now : Ns) (c : Ce) : Ce :=
  let f (x : Trigger) : Trigger := { x with halted := x.halted + (now - max c.haltedAt x.arrival) }
  { c with queue := c.queue.map f, cur := c.cur.map f, haltedAt := now }

/-- An operation has ended and the next one is at `pc`. -/
def Ce.boundary (now : Ns) (pc : Nat) (c : Ce) : Ce :=
  let c := { c with pc := pc }
  if c.stepReq then { c with stepReq := false, state := .halted, resumeTo := .running }
  else if c.haltReq || (c.bpEn && c.bp.toNat == pc) then c.haltAt now .running
  else { c with state := .running }

/-- A run is over. -/
def Ce.over (now : Ns) (c : Ce) : Ce :=
  let c := { c with cur := none, pub := [], reqEntry := none, reqRes := none, headAt := now }
  if c.stepReq then { c with stepReq := false, state := .halted, resumeTo := .idle }
  else if c.haltReq then c.haltAt now .idle
  else { c with state := .idle }

/-- A run stops at once, as an overrun does (R244): its undecided request and its staged writes are dropped. -/
def Dev.ceAbort (k : Fin 8) (d : Dev) : Dev := (d.dropRequest k).modCe k (Ce.over d.dtime)

/-- An uncorrectable error met by a run (R407). -/
def Dev.ceMemError (k : Fin 8) (bank : Nat) (d : Dev) : Dev :=
  (d.ceAbort k).raise { source := 24, detail := bank, ctrl := ceCtrl k, coord := d.noEvent }

/-- Debug acts in SERVICE, or where the image permits it. -/
def Dev.debugMay (d : Dev) : Bool := d.sup.mode == .service || d.ces.dbgRun

def Dev.ceHalt (k : Fin 8) (d : Dev) : Dev :=
  d.modCe k fun c => match c.state with
    | .idle => c.haltAt d.dtime .idle
    | .running => c.haltAt d.dtime .running
    | .halted => c
    | _ => { c with haltReq := true }

def Dev.ceStep (k : Fin 8) (d : Dev) : Dev :=
  d.modCe k fun c => if c.state = .halted ∧ c.resumeTo = .running then { c with stepReq := true } else c

def Dev.ceResume (k : Fin 8) (d : Dev) : Dev :=
  d.modCe k fun c =>
    if c.state = .halted then { c.unhalt d.dtime with state := c.resumeTo, stepReq := false } else { c with haltReq := false }

def Dev.ceIgn (k : Fin 8) (d : Dev) : Dev := d.modCe k fun c => { c with cfgIgn := true }

def Dev.debug (k : Fin 8) (f : Dev → Dev) (d : Dev) : Dev := if d.debugMay then f d else d.ceIgn k

/-! ### Runs (R241 to R245) -/

/-- Directory entry of the list that an engine runs from an index. -/
def Dev.listEntry (d : Dev) (k list : Nat) : Option W64 :=
  d.ces.lists.find? fun w => fld w 0 13 == list && fld w 32 3 == k

/-- The last run's times and count (R249). -/
def Ce.finished (now : Ns) (arrival : Ns) (c : Ce) : Ce :=
  let t := BitVec.ofNat 32 (satN (2 ^ 32 - 1) (now - arrival))
  { c with runs := c.runs + 1, timeLast := t, timeMax := if c.timeMax < t then t else c.timeMax }

/-- The oldest trigger's list starts, two clocks after the trigger is at the head of the queue with no run before it
(DEDUCED: a run before it keeps it from the head; assumption 60). -/
def Dev.runStart (k : Fin 8) (d : Dev) : Dev :=
  let c := d.ce[k]
  match c.queue with
  | [] => d
  | x :: rest =>
    if c.state != .idle || !d.sup.mode.engines || !bit c.cfg 0 || decide (d.dtime < max x.arrival c.headAt + 8) then d
    else
      d.modCe k fun c =>
        let c := { c with queue := rest, cur := some x, flag := false, pub := [], reqEntry := none, reqRes := none
                          runList := BitVec.ofNat 13 x.list, runTrig := BitVec.ofNat 5 x.entry, tStart := d.now32 }
        match d.listEntry k x.list with
        | some w => if fld w 16 14 = 0 then (c.finished d.dtime x.arrival).over d.dtime else c.boundary d.dtime x.list
        | none => c.boundary d.dtime x.list

/-- A trigger's deadline has passed: halted time does not count. -/
def Ce.late (now : Ns) (c : Ce) (x : Trigger) : Bool :=
  let extra := if c.state = .halted then now - max c.haltedAt x.arrival else 0
  decide (x.arrival + x.halted + extra + x.deadline ≤ now)

/-- The `i`-th trigger of an engine overruns (R244). -/
def Dev.overrun (k : Fin 8) (i : Nat) (d : Dev) : Dev :=
  let c := d.ce[k]
  let note (d : Dev) : Dev :=
    (d.modCe k fun c => { c with overrun := true, overruns := c.overruns + 1 }).raise
      { source := 15, ctrl := ceCtrl k, coord := d.noEvent }
  match c.cur, i with
  | some x, 0 => if c.late d.dtime x then note (d.ceAbort k) else d
  | cur, _ =>
    let j := i - cur.isSome.toNat
    match c.queue[j]? with
    | some x => if c.late d.dtime x then note (d.modCe k fun c => { c with queue := c.queue.eraseIdx j, headAt := if j = 0 then d.dtime else c.headAt }) else d
    | none => d

/-! ### Slots as an engine sees them (R224 to R228) -/

/-- A slot read by engine `k`: value, tag, and whether its word or its tag met an uncorrectable error, which is then
accounted for. Its own staged value comes first. -/
def Dev.slotRead (e : Env) (k : Fin 8) (i : Nat) (d : Dev) : W64 × Byte × Bool × Dev :=
  match d.ce[k].pub.find? (·.1 == i) with
  | some (_, v, g) => (v, g, false, d)
  | none =>
    if 16384 ≤ i then (0, 0, false, d)
    else
      let (bad, d) := d.readAt (slotAddr i)
      let tag := if d.tagDead i then 0 else (e.attr i).tag
      if bad then (e.slot i, tag, true, d.ceMemError k 1)
      else if d.tagDead i then (e.slot i, 0, false, d)
      else
        let (badTag, d) := d.readWord 16 (i / 8)
        if badTag then
          (e.slot i, 0, true, { d with memu := { d.memu with deadTags := (i / 8) :: d.memu.deadTags } }.ceMemError k 16)
        else (e.slot i, tag, false, d)

/-- Several slots, until one of them ends the run. -/
def Dev.slotReads (e : Env) (k : Fin 8) : List Nat → Dev → List (W64 × Byte) × Bool × Dev
  | [], d => ([], false, d)
  | i :: l, d =>
    match d.slotRead e k i with
    | (v, g, true, d) => ([(v, g)], true, d)
    | (v, g, false, d) =>
      let (vs, bad, d) := d.slotReads e k l
      ((v, g) :: vs, bad, d)

/-- Writes staged for an output slot: the latest value in its first place. -/
def stagePub (i : Nat) (v : W64) (g : Byte) (l : List (Nat × W64 × Byte)) : List (Nat × W64 × Byte) :=
  if l.any (·.1 == i) then l.map fun x => if x.1 = i then (i, v, g) else x else l ++ [(i, v, g)]

/-- A slot written by engine `k`: staged for an output slot, blocked for another writer's, which ends the run. The
answer says whether the run goes on. -/
def Dev.slotWrite (e : Env) (k : Fin 8) (i : Nat) (v : W64) (g : Byte) (d : Dev) : Bool × Dev :=
  let a := e.attr i
  if d.tagDead i && decide (i < 16384) then (true, d.countDead)
  else if 16384 ≤ i ∨ a.writer.toNat ≠ k.val ∨ a.cls = 1 then
    (false, ((d.writerViolation e i k.val (ceCtrl k)).modCe k fun c => { c with wviol := true }).ceAbort k)
  else if a.cls = 2 then (true, d.modCe k fun c => { c with pub := stagePub i v g c.pub })
  else (true, d.write (.slot i v (g ||| (a.tag &&& 0x10))))

/-! ### One operation -/

/-- Fields of an operation word (R231). -/
def opDst (w : W64) : Nat := fld w 8 16
def opA (w : W64) : Nat := fld w 24 16
def opB (w : W64) : Nat := fld w 40 16
def opCond (w : W64) : Nat := fld w 56 3
def opImm (w : W64) : Bool := bit w 59
def opLogic (w : W64) : Bool := bit w 60

/-- The operation at PC of an engine that runs, or that is to run one operation while halted, if its opcode is `op`. -/
def Dev.ceOp (e : Env) (k : Fin 8) (op : Nat) (f : W64 → Dev → Dev) (d : Dev) : Dev :=
  let c := d.ce[k]
  let w := e.mems.word (8 * c.pc)
  if !(c.state == .running || (c.state == .halted && c.stepReq)) || !d.sup.mode.engines || fld w 0 8 != op then d
  else
    let (bad, d) := d.readAt (8 * c.pc)
    if bad then d.ceMemError k 0 else f w d

/-- The run continues `n` operations on. -/
def Dev.ceNext (k : Fin 8) (n : Nat) (d : Dev) : Dev := d.modCe k fun c => c.boundary d.dtime (c.pc + n)

/-- Slots written one after the other, and the next operation unless one of them was blocked. -/
def Dev.ceWrites (e : Env) (k : Fin 8) : List (Nat × W64 × Byte) → Dev → Dev
  | [], d => d.ceNext k 1
  | (i, v, g) :: l, d =>
    match d.slotWrite e k i v g with
    | (true, d) => d.ceWrites e k l
    | (false, d) => d

/-- A saturating operation: flag and count (R229). -/
def Dev.noteSat (k : Fin 8) (b : Bool) (d : Dev) : Dev :=
  if b then d.modCe k fun c => { c with sat := true, sats := c.sats + 1 } else d

/-! ### Requests (R237) -/

/-- The request block at an index. -/
def blockSlots (i : Nat) : List Nat := (List.range 8).map (i + ·)

/-- REQ: the block goes into the engine's yard, and the engine waits. -/
def Dev.ceReq (e : Env) (k : Fin 8) (w : W64) (d : Dev) : Dev :=
  match d.slotReads e k (blockSlots (opA w)) with
  | (_, true, d) => d
  | (vs, false, d) =>
    let y := d.adm.ce[k]
    let i := (y.head + y.fill) % 16
    let words : Vector W64 8 := Vector.ofFn fun j => ((vs.map (·.1))[j.val]?).getD 0
    let d := d.modAdm fun a => { a with ce := upd a.ce k fun y => { y with
      entries := upd y.entries (Fin.ofNat 16 i) fun _ => { words := words, result := 15, waiting := true }
      fill := y.fill + 1, hwm := max y.hwm (y.fill + 1), submitted := y.submitted + 1 } }
    d.modCe k fun c =>
      let c := if c.stepReq then { c.unhalt d.dtime with stepReq := false, haltReq := true } else c
      { c with state := .waitReq, reqDst := opDst w, reqEntry := some i, reqRes := none, reqs := c.reqs + 1 }

/-- The result word arrives: stored raw with VALID, and the run continues. -/
def Dev.ceReqResult (e : Env) (k : Fin 8) (d : Dev) : Dev :=
  let c := d.ce[k]
  match c.state, c.reqRes with
  | .waitReq, some r =>
    (d.modCe k fun c => { c with reqEntry := none, reqRes := none }).ceWrites e k [(c.reqDst, r, 1)]
  | _, _ => d

/-- END: the publish buffer drains, in order, and the run ends (R227). -/
def Dev.ceEnd (e : Env) (k : Fin 8) (d : Dev) : Dev :=
  let c := d.ce[k]
  let put1 (d : Dev) (x : Nat × W64 × Byte) : Dev :=
    if d.tagDead x.1 then d.countDead else d.write (.slot x.1 x.2.1 (x.2.2 ||| ((e.attr x.1).tag &&& 0x10)))
  let d := c.pub.foldl put1 d
  d.modCe k fun c =>
    ((match c.cur with | some x => c.finished d.dtime x.arrival | none => c)).over d.dtime

/-! ### SLOT_VAL (R247, R249) -/

/-- A slot that SLOT_VAL may write: a state slot of a halted engine, or a constant, in SERVICE. The loader is not bound
by the state conditions (R353). -/
def Dev.slotValMay (e : Env) (loader : Bool) (i : Nat) (d : Dev) : Bool :=
  let a := e.attr i
  (loader || d.sup.mode == .service) && a.cls == 0 &&
    (a.writer == 15 || (decide (a.writer.toNat < 8) && (loader || d.ce[Fin.ofNat 8 a.writer.toNat].state == .halted)))

def Dev.slotVal (e : Env) (loader : Bool) (p : Path) (v : W64) (d : Dev) : Dev :=
  let i := fld (d.ctx p).slotIdx 0 14
  if !d.slotValMay e loader i then d.modCes fun c => { c with wrIgn := true }
  else if d.tagDead i then d.countDead
  else d.write (.slot i v (((e.attr i).tag &&& 0x10) ||| 1))

/-! ### Registers of pages 0x30 to 0x38 (R249) -/

def Dev.wrCe (loader : Bool) (p : Path) (k : Fin 8) (ofs : Nat) (v : W64) (d : Dev) : Dev :=
  match ofs with
  | 0x00 => d.guarded (d.mayDrive loader) (Dev.ceIgn k) fun d => d.modCe k fun c => { c with cfg := v &&& 1 }
  | 0x08 => d.modCe k fun c =>
      { c with sat := c.sat && !bit v 32, div0 := c.div0 && !bit v 33, overrun := c.overrun && !bit v 34
               trigLost := c.trigLost && !bit v 35, emitLost := c.emitLost && !bit v 36, wviol := c.wviol && !bit v 37
               cfgIgn := c.cfgIgn && !bit v 38 }
  | 0x38 => d.modCtx p fun c => { c with trigSel := upd c.trigSel k fun _ => v &&& 0x1F }
  | 0x48 => d.debug k fun d =>
      let d := d.modCe k fun c => { c with bp := (v >>> 16).setWidth 13, bpEn := bit v 29 }
      let d := if bit v 0 then d.ceHalt k else d
      let d := if bit v 1 then d.ceStep k else d
      if bit v 2 then d.ceResume k else d
  | _ => d

def Dev.rdCe (p : Path) (k : Fin 8) (ofs : Nat) (d : Dev) : W64 :=
  let c := d.ce[k]
  match ofs with
  | 0x00 => c.cfg ||| putB 1 d.ces.dbgRun
  | 0x08 => put 0 3 c.state.code ||| putB 3 c.flag ||| put 4 5 c.queue.length ||| put 9 5 c.qhwm ||| put 16 13 c.pc
      ||| putB 32 c.sat ||| putB 33 c.div0 ||| putB 34 c.overrun ||| putB 35 c.trigLost ||| putB 36 c.emitLost
      ||| putB 37 c.wviol ||| putB 38 c.cfgIgn
  | 0x10 => put 0 13 c.runList.toNat ||| put 16 5 c.runTrig.toNat ||| put 32 32 c.tStart.toNat
  | 0x18 => put 0 32 c.timeLast.toNat ||| put 32 32 c.timeMax.toNat
  | 0x20 => put 0 32 c.runs.toNat ||| put 32 16 c.overruns.toNat ||| put 48 16 c.trigLosts.toNat
  | 0x28 => put 0 32 c.reqs.toNat ||| put 32 16 c.emitLosts.toNat ||| put 48 16 c.sats.toNat
  | 0x30 => c.reqLast
  | 0x38 => (d.ctx p).trigSel[k]
  | 0x40 => d.trigWord k (fld (d.ctx p).trigSel[k] 0 5)
  | 0x48 => putB 3 (c.state == .halted) ||| put 16 13 c.bp.toNat ||| putB 29 c.bpEn
  | _ => 0

def Dev.wrSlots (e : Env) (loader : Bool) (p : Path) (ofs : Nat) (v : W64) (d : Dev) : Dev :=
  match ofs with
  | 0x00 => d.modCtx p fun c => { c with slotIdx := v &&& 0x3FFF }
  | 0x08 => d.slotVal e loader p v
  | 0x18 => d.modCes fun c => { c with wrIgn := c.wrIgn && !bit v 48 }
  | 0x20 => d.modCtx p fun c => { c with listIdx := v &&& 0x1FFF }
  | _ => d

/-- MEM_UE_CALC met by the window of a register path, which is no engine (assumption 29). -/
def Dev.calcWindow (a : Nat) (d : Dev) : Dev :=
  let (bad, d) := d.readAt a
  if bad then d.raise { source := 24, detail := (bankOf a).1, ctrl := 0x80FF, coord := d.noEvent } else d

def Dev.rdSlots (e : Env) (p : Path) (ofs : Nat) (d : Dev) : W64 × Dev :=
  let i := fld (d.ctx p).slotIdx 0 14
  let o := fld (d.ctx p).listIdx 0 13
  match ofs with
  | 0x00 => ((d.ctx p).slotIdx, d)
  | 0x08 => (e.slot i, d.calcWindow (slotAddr i))
  | 0x10 =>
    let a := e.attr i
    (put 0 8 (if d.tagDead i then 0 else a.tag.toNat) ||| put 8 2 a.cls.toNat ||| put 12 4 a.writer.toNat, d)
  | 0x18 => (put 0 14 d.ces.wvSlot.toNat ||| put 16 4 d.ces.wvBy.toNat ||| put 32 16 d.ces.wvCnt.toNat
      ||| putB 48 d.ces.wrIgn, d)
  | 0x20 => ((d.ctx p).listIdx, d)
  | 0x28 => (e.mems.word (8 * o), d.calcWindow (8 * o))
  | _ => (0, d)

/-! ### The commands -/

/-- RUN_START (R244). -/
def execRunStart (t : Ns) (k : Fin 8) (s : State) : Host.Outcome State Fault Refusal :=
  runAt t (fun _ d => d.runStart k) s

/-- OVERRUN (R244). -/
def execOverrun (t : Ns) (k : Fin 8) (i : Fin 17) (s : State) : Host.Outcome State Fault Refusal :=
  runAt t (fun _ d => d.overrun k i.val) s

/-- CE_END (R227). -/
def execCeEnd (t : Ns) (k : Fin 8) (s : State) : Host.Outcome State Fault Refusal :=
  runAt t (fun e d => d.ceOp e k 0x00 (fun _ d => d.ceEnd e k)) s

/-- REQ (R237). -/
def execReq (t : Ns) (k : Fin 8) (s : State) : Host.Outcome State Fault Refusal :=
  runAt t (fun e d => d.ceOp e k 0x38 (fun w d => d.ceReq e k w)) s

/-- REQ_RESULT (R237). -/
def execReqResult (t : Ns) (k : Fin 8) (s : State) : Host.Outcome State Fault Refusal :=
  runAt t (fun e d => d.ceReqResult e k) s

/-- HALT (R247). -/
def execHalt (t : Ns) (p : Path) (k : Fin 8) (s : State) : Host.Outcome State Fault Refusal :=
  runBy t p (fun _ d => d.debug k (Dev.ceHalt k)) s

/-- STEP (R247). -/
def execStep (t : Ns) (p : Path) (k : Fin 8) (s : State) : Host.Outcome State Fault Refusal :=
  runBy t p (fun _ d => d.debug k (Dev.ceStep k)) s

/-- RESUME (R247). -/
def execResume (t : Ns) (p : Path) (k : Fin 8) (s : State) : Host.Outcome State Fault Refusal :=
  runBy t p (fun _ d => d.debug k (Dev.ceResume k)) s

/-- SLOT_VAL_WRITE (R247). -/
def execSlotValWrite (t : Ns) (p : Path) (v : W64) (s : State) : Host.Outcome State Fault Refusal :=
  runBy t p (fun e d => d.slotVal e false p v) s

end Sys2Proof.Machine
end

