-- ==== Sys2Proof/Machine/CalcOps.lean ====
section
/-! DEFINITION. The operations of the calculation engines (R229 to R235, R240). -/

namespace Sys2Proof.Machine

/-! ### Numbers -/

def qMin : Int := -(2 ^ 63)
def qMax : Int := 2 ^ 63 - 1

/-- A raw result, saturated: the pattern, and whether it saturated (R229). -/
def qSat (x : Int) : W64 × Bool := (BitVec.ofInt 64 (clampI qMin qMax x), decide (x < qMin) || decide (qMax < x))

/-- An exact result `x / 2^n` in raw units, rounded once and saturated. -/
def qRound (x : Int) (n : Nat) : W64 × Bool := qSat (divRound x (2 ^ n))

/-- A quotient in raw units, rounded once and saturated; the divisor is not 0. -/
def qDiv (a b : Int) : W64 × Bool := if b < 0 then qSat (divRound (-a) (-b).toNat) else qSat (divRound a b.toNat)

/-- The limit with the sign of a value (R230, R235). -/
def qLimit (a : Int) : W64 := BitVec.ofInt 64 (if 0 ≤ a then qMax else qMin)

/-- Tag of a result (R226): VALID of every operand, STALE and DEFAULT of any, OVER of any or of the operation. -/
def opTag (ops : List Byte) (lim : Bool) : Byte :=
  let any_ (i : Nat) : Bool := ops.any (·.getLsbD i)
  BitVec.ofNat 8 ((ops.all (·.getLsbD 0)).toNat + 2 * (any_ 1).toNat + 4 * (any_ 2 || lim).toNat + 8 * (any_ 3).toNat)

/-- An immediate B: n as Q32.32, or its raw pattern in the bitwise operations (R231). -/
def immB (raw : Bool) (w : W64) : W64 :=
  let n := ((w >>> 40).setWidth 16 : BitVec 16).signExtend 64
  if raw then n else n <<< 32

/-! ### Operand forms -/

/-- A and B, B perhaps an immediate, whose tag is VALID. -/
def Dev.opAB (e : Env) (k : Fin 8) (raw : Bool) (w : W64) (d : Dev) : Option ((W64 × Byte) × (W64 × Byte)) × Dev :=
  match d.slotRead e k (opA w) with
  | (_, _, true, d) => (none, d)
  | (a, ga, false, d) =>
    if opImm w then (some ((a, ga), (immB raw w, 1)), d)
    else match d.slotRead e k (opB w) with
      | (_, _, true, d) => (none, d)
      | (b, gb, false, d) => (some ((a, ga), (b, gb)), d)

/-- A result written to DST: the saturation is counted. -/
def Dev.opResult (e : Env) (k : Fin 8) (w : W64) (ops : List Byte) (r : W64 × Bool) (d : Dev) : Dev :=
  (d.noteSat k r.2).ceWrites e k [(opDst w, r.1, opTag ops r.2)]

/-- DST := f A B. -/
def Dev.opBin (e : Env) (k : Fin 8) (raw : Bool) (f : W64 → W64 → W64 × Bool) (w : W64) (d : Dev) : Dev :=
  match d.opAB e k raw w with
  | (none, d) => d
  | (some (a, b), d) => d.opResult e k w [a.2, b.2] (f a.1 b.1)

/-- DST := f A. -/
def Dev.opUn (e : Env) (k : Fin 8) (f : W64 → W64 × Bool) (w : W64) (d : Dev) : Dev :=
  match d.slotRead e k (opA w) with
  | (_, _, true, d) => d
  | (a, g, false, d) => d.opResult e k w [g] (f a)

/-- DST := f DST A B. -/
def Dev.opAcc (e : Env) (k : Fin 8) (f : Int → Int → Int → W64 × Bool) (w : W64) (d : Dev) : Dev :=
  match d.opAB e k false w with
  | (none, d) => d
  | (some (a, b), d) =>
    match d.slotRead e k (opDst w) with
    | (_, _, true, d) => d
    | (x, g, false, d) => d.opResult e k w [g, a.2, b.2] (f x.toInt a.1.toInt b.1.toInt)

/-- A list of slots, all read before anything is written. -/
def Dev.opList (e : Env) (k : Fin 8) (l : List Nat) (f : List Int → List Byte → Dev → Dev) (d : Dev) : Dev :=
  match d.slotReads e k l with
  | (_, true, d) => d
  | (vs, false, d) => f (vs.map (·.1.toInt)) (vs.map (·.2)) d

/-- `x` between two limits: min(max(x, lo), hi). -/
def between (lo hi x : Int) : Int := min (max x lo) hi

/-! ### PI (R234) -/

/-- Output and integral of the controller, in raw units. -/
def piStep (e i kp ki lo hi : Int) : (W64 × Bool) × (W64 × Bool) :=
  let u := 2 ^ 32
  let ke := ki * e
  let s := kp * e + i * u + ke
  let kept : W64 × Bool := (BitVec.ofInt 64 i, false)
  let moved := qRound (i * u + ke) 32
  if lo * u ≤ s ∧ s ≤ hi * u then (qRound s 32, moved)
  else
    let near := if (s - lo * u).natAbs ≤ (s - hi * u).natAbs then lo else hi
    let excess := s - near * u
    ((BitVec.ofInt 64 near, false), if ke * excess < 0 then moved else kept)

/-! ### Maps (R239, R240) -/

/-- A map descriptor, read from map memory. -/
structure MapDesc where
  width  : Nat
  nx     : Nat
  ny     : Nat
  nz     : Nat
  data   : Nat
  scale  : Int
  offset : Int
  axes   : Nat

def Mems.mapDesc (m : Mems) (i : Nat) : MapDesc :=
  let w (j : Nat) : W64 := m.word (mapBase + 32 * i + 8 * j)
  { width := fld (w 0) 0 2, nx := fld (w 0) 8 7, ny := fld (w 0) 16 7, nz := fld (w 0) 24 7, data := fld (w 0) 32 18
    scale := (w 1).toInt, offset := (w 2).toInt, axes := fld (w 3) 0 18 }

/-- An entry of a map at its position, and its address. -/
def MapDesc.entryAt (x : MapDesc) (pos : Nat) : Nat := mapBase + x.data + (if x.width < 2 then 2 else 4) * pos

def MapDesc.entry (x : MapDesc) (m : Mems) (pos : Nat) : Int :=
  let n := if x.width < 2 then 2 else 4
  let v := leNat (m.bytes (x.entryAt pos) n)
  if x.width % 2 = 1 then signed (8 * n) v else v

/-- Address of breakpoint `i` of the axis whose first breakpoint is number `first`. -/
def MapDesc.bpAt (x : MapDesc) (first i : Nat) : Nat := mapBase + x.axes + 8 * (first + i)

/-- Interval and fraction (0 to 2^32) of a value on an axis of `n` breakpoints. -/
def MapDesc.locate (x : MapDesc) (m : Mems) (first n : Nat) (v : Int) : Nat × Nat :=
  let bp (i : Nat) : Int := (m.word (x.bpAt first i)).toInt
  let v := clampI (bp 0) (bp (n - 1)) v
  let i := ((List.range (n - 1)).filter fun i => decide (bp i ≤ v)).length - 1
  let den := bp (i + 1) - bp i
  (i, if den ≤ 0 then 0 else ((v - bp i) * 2 ^ 32 / den).toNat)

/-- Linear interpolation with a fraction of 2^32, the result in units finer by 2^32. -/
def lerp (a b : Int) (f : Nat) : Int := a * 2 ^ 32 + (b - a) * f

/-- Lookup along x, y and z at located positions; the result is in units of 2^-96 of an entry. -/
def MapDesc.look (x : MapDesc) (m : Mems) (px py pz : Nat × Nat) : Int :=
  let at_ (i j k : Nat) : Int := x.entry m (i + x.nx * (j + x.ny * k))
  let row (j k : Nat) : Int := lerp (at_ px.1 j k) (if x.nx < 2 then at_ px.1 j k else at_ (px.1 + 1) j k) px.2
  let plane (k : Nat) : Int := if x.ny < 2 then row 0 k * 2 ^ 32 else lerp (row py.1 k) (row (py.1 + 1) k) py.2
  if x.nz < 2 then plane 0 * 2 ^ 32 else lerp (plane pz.1) (plane (pz.1 + 1)) pz.2

/-- Addresses that a lookup reads. -/
def MapDesc.reads (x : MapDesc) (i : Nat) (px py pz : Nat × Nat) : List Nat :=
  let js := if x.ny < 2 then [0] else [py.1, py.1 + 1]
  let ks := if x.nz < 2 then [0] else [pz.1, pz.1 + 1]
  [mapBase + 32 * i, mapBase + 32 * i + 16, x.bpAt 0 px.1, x.bpAt 0 (px.1 + 1)]
    ++ (if x.ny < 2 then [] else [x.bpAt x.nx py.1, x.bpAt x.nx (py.1 + 1)])
    ++ (if x.nz < 2 then [] else [x.bpAt (x.nx + x.ny) pz.1, x.bpAt (x.nx + x.ny) (pz.1 + 1)])
    ++ ks.flatMap fun k => js.flatMap fun j => [px.1, px.1 + 1].map fun i => x.entryAt (i + x.nx * (j + x.ny * k))

/-- Reads of several addresses by a run: an uncorrectable word ends it. -/
def Dev.runReads (k : Fin 8) : List Nat → Dev → Bool × Dev
  | [], d => (false, d)
  | a :: l, d =>
    match d.readAt a with
    | (true, d) => (true, d.ceMemError k (bankOf a).1)
    | (false, d) => d.runReads k l

/-- LUT1, LUT2 and LUT3: `dims` inputs from slot A on. -/
def Dev.opLut (e : Env) (k : Fin 8) (dims : Nat) (w : W64) (d : Dev) : Dev :=
  d.opList e k ((List.range dims).map (opA w + ·)) fun vs gs d =>
    let i := opB w
    let x := e.mems.mapDesc i
    let v (j : Nat) : Int := (vs[j]?).getD 0
    let px := x.locate e.mems 0 x.nx (v 0)
    let py := if dims < 2 then (0, 0) else x.locate e.mems x.nx x.ny (v 1)
    let pz := if dims < 3 then (0, 0) else x.locate e.mems (x.nx + x.ny) x.nz (v 2)
    match d.runReads k (x.reads i px py pz) with
    | (true, d) => d
    | (false, d) => d.opResult e k w gs (qRound (x.offset * 2 ^ 96 + x.scale * x.look e.mems px py pz) 96)

/-! ### Angle and time (R235) -/

def Dev.speedTag (d : Dev) : Byte := if d.pos.sync = .full ∨ d.pos.sync = .half then 1 else 0

def Dev.cycleDeg (d : Dev) : Nat := if d.pos.wheel.twoStroke then 360 else 720

/-- A result that sets OVER without a saturation of R229. -/
def Dev.opForced (e : Env) (k : Fin 8) (w : W64) (ops : List Byte) (v : W64) (d : Dev) : Dev :=
  d.ceWrites e k [(opDst w, v, opTag ops true)]

def Dev.opAngt (e : Env) (k : Fin 8) (w : W64) (d : Dev) : Dev :=
  match d.slotRead e k (opA w) with
  | (_, _, true, d) => d
  | (a, g, false, d) =>
    let ops := [g, d.speedTag]
    if d.pos.cycleNs = 0 then d.opForced e k w ops (qLimit a.toInt)
    else d.opResult e k w ops (qDiv (a.toInt * d.pos.cycleNs) d.cycleDeg)

def Dev.opTang (e : Env) (k : Fin 8) (w : W64) (d : Dev) : Dev :=
  match d.slotRead e k (opA w) with
  | (_, _, true, d) => d
  | (a, g, false, d) =>
    let ops := [g, d.speedTag]
    if d.pos.cycleNs = 0 then d.opForced e k w ops 0
    else d.opResult e k w ops (qDiv (a.toInt * d.cycleDeg) d.pos.cycleNs)

/-! ### Division, comparison and jumps -/

def Dev.opDiv (e : Env) (k : Fin 8) (w : W64) (d : Dev) : Dev :=
  match d.opAB e k false w with
  | (none, d) => d
  | (some (a, b), d) =>
    if b.1 = 0 then (d.modCe k fun c => { c with div0 := true }).opForced e k w [a.2, b.2] (qLimit a.1.toInt)
    else d.opResult e k w [a.2, b.2] (qDiv (a.1.toInt * 2 ^ 32) b.1.toInt)

/-- CMP's condition (R232). -/
def cmpCond (c : Nat) (a b : Int) : Bool :=
  match c with
  | 0 => a == b
  | 1 => a != b
  | 2 => decide (a < b)
  | 3 => decide (a ≤ b)
  | 4 => decide (b < a)
  | 5 => decide (b ≤ a)
  | _ => false

def Dev.opCmp (e : Env) (k : Fin 8) (w : W64) (d : Dev) : Dev :=
  match d.opAB e k false w with
  | (none, d) => d
  | (some (a, b), d) => (d.modCe k fun c => { c with flag := cmpCond (opCond w) a.1.toInt b.1.toInt }).ceNext k 1

/-- SEL takes value and tag of the operand that it selects (R226). -/
def Dev.opSel (e : Env) (k : Fin 8) (w : W64) (d : Dev) : Dev :=
  match d.opAB e k false w with
  | (none, d) => d
  | (some (a, b), d) =>
    let x := if d.ce[k].flag then a else b
    d.ceWrites e k [(opDst w, x.1, x.2 &&& 0x0F)]

/-- JMPF's condition on the flag or on A's tag (R232). -/
def jmpCond (c : Nat) (flag : Bool) (g : Byte) : Bool :=
  match c with
  | 0 => flag
  | 1 => !flag
  | 2 => true
  | 3 => g.getLsbD 0
  | 4 => !g.getLsbD 0
  | 5 => g.getLsbD 1
  | 6 => g.getLsbD 2
  | _ => false

def Dev.opJmpf (e : Env) (k : Fin 8) (w : W64) (d : Dev) : Dev :=
  let go (g : Byte) (d : Dev) : Dev := d.ceNext k (if jmpCond (opCond w) d.ce[k].flag g then opDst w + 1 else 1)
  if opCond w < 3 then go 0 d
  else match d.slotRead e k (opA w) with
    | (_, _, true, d) => d
    | (_, g, false, d) => go g d

/-- PI: u to DST, the integral to DST + 1. -/
def Dev.opPi (e : Env) (k : Fin 8) (w : W64) (d : Dev) : Dev :=
  d.opList e k ([opA w, opDst w + 1] ++ (List.range 4).map (opB w + ·)) fun vs gs d =>
    let v (j : Nat) : Int := (vs[j]?).getD 0
    let (u, i) := piStep (v 0) (v 1) (v 2) (v 3) (v 4) (v 5)
    (d.noteSat k (u.2 || i.2)).ceWrites e k [(opDst w, u.1, opTag gs u.2), (opDst w + 1, i.1, opTag gs i.2)]

/-- CLAMP and INTEG: `acc` adds A to DST first. -/
def Dev.opClamp (e : Env) (k : Fin 8) (acc : Bool) (w : W64) (d : Dev) : Dev :=
  d.opList e k ([opA w, opB w, opB w + 1] ++ if acc then [opDst w] else []) fun vs gs d =>
    let v (j : Nat) : Int := (vs[j]?).getD 0
    d.opResult e k w gs (qSat (between (v 1) (v 2) (v 0 + v 3)))

/-! ### The commands -/

/-- MOV (R233). -/
def execMov (t : Ns) (k : Fin 8) (s : State) : Host.Outcome State Fault Refusal :=
  runAt t (fun e d => d.ceOp e k 0x01 (fun w d => d.opUn e k (fun a => (a, false)) w)) s

/-- ADD (R233). -/
def execAdd (t : Ns) (k : Fin 8) (s : State) : Host.Outcome State Fault Refusal :=
  runAt t (fun e d => d.ceOp e k 0x02 (fun w d => d.opBin e k false (fun a b => qSat (a.toInt + b.toInt)) w)) s

/-- SUB (R233). -/
def execSub (t : Ns) (k : Fin 8) (s : State) : Host.Outcome State Fault Refusal :=
  runAt t (fun e d => d.ceOp e k 0x03 (fun w d => d.opBin e k false (fun a b => qSat (a.toInt - b.toInt)) w)) s

/-- MUL (R233). -/
def execMul (t : Ns) (k : Fin 8) (s : State) : Host.Outcome State Fault Refusal :=
  runAt t (fun e d => d.ceOp e k 0x04 (fun w d => d.opBin e k false (fun a b => qRound (a.toInt * b.toInt) 32) w)) s

/-- DIV (R230). -/
def execDiv (t : Ns) (k : Fin 8) (s : State) : Host.Outcome State Fault Refusal :=
  runAt t (fun e d => d.ceOp e k 0x05 (fun w d => d.opDiv e k w)) s

/-- MAC (R233). -/
def execMac (t : Ns) (k : Fin 8) (s : State) : Host.Outcome State Fault Refusal :=
  runAt t (fun e d => d.ceOp e k 0x06 (fun w d => d.opAcc e k (fun x a b => qRound (x * 2 ^ 32 + a * b) 32) w)) s

/-- MIN (R233). -/
def execMin (t : Ns) (k : Fin 8) (s : State) : Host.Outcome State Fault Refusal :=
  runAt t (fun e d => d.ceOp e k 0x07 (fun w d => d.opBin e k false (fun a b => qSat (min a.toInt b.toInt)) w)) s

/-- MAX (R233). -/
def execMax (t : Ns) (k : Fin 8) (s : State) : Host.Outcome State Fault Refusal :=
  runAt t (fun e d => d.ceOp e k 0x08 (fun w d => d.opBin e k false (fun a b => qSat (max a.toInt b.toInt)) w)) s

/-- CLAMP (R233). -/
def execClamp (t : Ns) (k : Fin 8) (s : State) : Host.Outcome State Fault Refusal :=
  runAt t (fun e d => d.ceOp e k 0x09 (fun w d => d.opClamp e k false w)) s

/-- ABS (R233). -/
def execAbs (t : Ns) (k : Fin 8) (s : State) : Host.Outcome State Fault Refusal :=
  runAt t (fun e d => d.ceOp e k 0x0A (fun w d => d.opUn e k (fun a => qSat a.toInt.natAbs) w)) s

/-- NEG (R233). -/
def execNeg (t : Ns) (k : Fin 8) (s : State) : Host.Outcome State Fault Refusal :=
  runAt t (fun e d => d.ceOp e k 0x0B (fun w d => d.opUn e k (fun a => qSat (-a.toInt)) w)) s

/-- AND (R233). -/
def execAnd (t : Ns) (k : Fin 8) (s : State) : Host.Outcome State Fault Refusal :=
  runAt t (fun e d => d.ceOp e k 0x10 (fun w d => d.opBin e k true (fun a b => (a &&& b, false)) w)) s

/-- OR (R233). -/
def execOr (t : Ns) (k : Fin 8) (s : State) : Host.Outcome State Fault Refusal :=
  runAt t (fun e d => d.ceOp e k 0x11 (fun w d => d.opBin e k true (fun a b => (a ||| b, false)) w)) s

/-- XOR (R233). -/
def execXor (t : Ns) (k : Fin 8) (s : State) : Host.Outcome State Fault Refusal :=
  runAt t (fun e d => d.ceOp e k 0x12 (fun w d => d.opBin e k true (fun a b => (a ^^^ b, false)) w)) s

/-- SHL (R233). -/
def execShl (t : Ns) (k : Fin 8) (s : State) : Host.Outcome State Fault Refusal :=
  runAt t (fun e d => d.ceOp e k 0x13 (fun w d => d.opBin e k true (fun a b => (a <<< fld b 0 6, false)) w)) s

/-- SHR (R233). -/
def execShr (t : Ns) (k : Fin 8) (s : State) : Host.Outcome State Fault Refusal :=
  runAt t (fun e d => d.ceOp e k 0x14 (fun w d => d.opBin e k true
    (fun a b => (if opLogic w then a >>> fld b 0 6 else a.sshiftRight (fld b 0 6), false)) w)) s

/-- CMP (R232). -/
def execCmp (t : Ns) (k : Fin 8) (s : State) : Host.Outcome State Fault Refusal :=
  runAt t (fun e d => d.ceOp e k 0x18 (fun w d => d.opCmp e k w)) s

/-- SEL (R233). -/
def execSel (t : Ns) (k : Fin 8) (s : State) : Host.Outcome State Fault Refusal :=
  runAt t (fun e d => d.ceOp e k 0x19 (fun w d => d.opSel e k w)) s

/-- LUT1 (R240). -/
def execLut1 (t : Ns) (k : Fin 8) (s : State) : Host.Outcome State Fault Refusal :=
  runAt t (fun e d => d.ceOp e k 0x20 (fun w d => d.opLut e k 1 w)) s

/-- LUT2 (R240). -/
def execLut2 (t : Ns) (k : Fin 8) (s : State) : Host.Outcome State Fault Refusal :=
  runAt t (fun e d => d.ceOp e k 0x21 (fun w d => d.opLut e k 2 w)) s

/-- LUT3 (R240). -/
def execLut3 (t : Ns) (k : Fin 8) (s : State) : Host.Outcome State Fault Refusal :=
  runAt t (fun e d => d.ceOp e k 0x22 (fun w d => d.opLut e k 3 w)) s

/-- LAG (R233). -/
def execLag (t : Ns) (k : Fin 8) (s : State) : Host.Outcome State Fault Refusal :=
  runAt t (fun e d => d.ceOp e k 0x28 (fun w d => d.opAcc e k (fun x a b => qRound (x * 2 ^ 32 + b * (a - x)) 32) w)) s

/-- RATE (R233). -/
def execRate (t : Ns) (k : Fin 8) (s : State) : Host.Outcome State Fault Refusal :=
  runAt t (fun e d => d.ceOp e k 0x29 (fun w d => d.opAcc e k (fun x a b => qSat (x + between (-b) b (a - x))) w)) s

/-- INTEG (R233). -/
def execInteg (t : Ns) (k : Fin 8) (s : State) : Host.Outcome State Fault Refusal :=
  runAt t (fun e d => d.ceOp e k 0x2A (fun w d => d.opClamp e k true w)) s

/-- PI (R234). -/
def execPi (t : Ns) (k : Fin 8) (s : State) : Host.Outcome State Fault Refusal :=
  runAt t (fun e d => d.ceOp e k 0x2B (fun w d => d.opPi e k w)) s

/-- ANGT (R235). -/
def execAngt (t : Ns) (k : Fin 8) (s : State) : Host.Outcome State Fault Refusal :=
  runAt t (fun e d => d.ceOp e k 0x30 (fun w d => d.opAngt e k w)) s

/-- TANG (R235). -/
def execTang (t : Ns) (k : Fin 8) (s : State) : Host.Outcome State Fault Refusal :=
  runAt t (fun e d => d.ceOp e k 0x31 (fun w d => d.opTang e k w)) s

/-- JMPF (R232). -/
def execJmpf (t : Ns) (k : Fin 8) (s : State) : Host.Outcome State Fault Refusal :=
  runAt t (fun e d => d.ceOp e k 0x3C (fun w d => d.opJmpf e k w)) s

end Sys2Proof.Machine
end

