-- ==== Sys2Proof/Machine/Conv.lean ====
section
/-! DEFINITION. The two slow converters (chapter 11) and the registers of pages 0x40 and 0x41. -/

namespace Sys2Proof.Machine

def Dev.modCnvs (f : CnvShared → CnvShared) (d : Dev) : Dev := { d with cnvs := f d.cnvs }

/-! ### Results -/

/-- The voltage of an internal source at the converter, in µV as a fraction (R254). An INT_SEL that is not listed selects
source 0. -/
def srcVolts (s : IntSources) : Nat → Int × Nat
  | 1 => (s.vsup, 2)
  | 2 => (s.vioA, 2)
  | 3 => (s.vioB, 2)
  | 4 => (s.vioM, 1)
  | 5 => (s.vgd, 4)
  | 6 => (s.bstVs, 1)
  | 7 => (s.vbatS, 8)
  | 8 => (s.vcore, 1)
  | _ => (750000 + 2 * (s.dieMilliC - 25000), 1)

/-- An integer as a code, held within the range of a result (R251, R252). -/
def codeOf (x : Int) : BitVec 24 := BitVec.ofInt 24 (max 0 (min x 0xFFFFFF))

/-- The code of a voltage, of 5 V / 2^24 each (R251). -/
def srcCode (s : IntSources) (sel : Nat) : BitVec 24 :=
  let n := (srcVolts s sel).1
  let den := (srcVolts s sel).2
  let q := n * 2 ^ 24
  let by_ : Int := 5000000 * den
  codeOf (q / by_ + if q % by_ ≠ 0 ∧ Config.sourceUp n den = true then 1 else 0)

/-- The factory trim of a result, OFFSET in signed codes and GAIN in Q1.23 (R251); its order and rounding are free. -/
def trimmed (trim : W64) (code : BitVec 24) : BitVec 24 :=
  let offset : BitVec 24 := trim.setWidth 24
  let gain : BitVec 24 := (trim >>> 24).setWidth 24
  let x : Int := if Config.trimOffsetFirst then (code.toNat + offset.toInt) * gain.toNat
    else code.toNat * gain.toNat + offset.toInt * 2 ^ 23
  codeOf (x / 2 ^ 23 + if x % 2 ^ 23 ≠ 0 ∧ Config.trimUp offset gain code = true then 1 else 0)

/-- What a converter reports for an input: input 14 reads its selected source (R253, R254), and the trim is applied. -/
def Dev.cnvCode (e : Env) (d : Dev) (c : Fin 2) (mux : Nat) (y : Conversion) : BitVec 24 :=
  trimmed (if c = 0 then e.fuses.trimA else e.fuses.trimB) (if mux = 14 then srcCode y.src (fld d.cnv[c].cfg 8 4) else y.code)

/-- A conversion whose filter was reset at `from_` has its fourth output period end at `sample`, and is written within 500 ns
of it (R256); the first modulator clock comes within 250 ns (R250), and DTIME may be coarse (R392). -/
def Dev.converted (d : Dev) (from_ : Ns) (osr : Nat) (sample : Ns) : Bool :=
  let due := from_ + 4 * outPeriod osr
  decide (due ≤ sample + d.sup.dstep) && decide (sample < due + 250 + d.sup.dstep) && decide (sample ≤ d.dtime)
    && decide (d.dtime ≤ sample + 500 + d.sup.dstep)

/-- A result as its converter writes it: REF_UNSETTLED when its filter window began before REF_OK (R255, R256). -/
def Dev.cnvResult (d : Dev) (mux osr : Nat) (sample : Ns) (code : BitVec 24) (ovr : Bool) : CnvResult :=
  let start := sample - 3 * outPeriod osr
  { code := code, ovr := ovr, unset := !d.cnvs.refOk || decide (start < d.cnvs.refOkAt), valid := true
    mux := BitVec.ofNat 4 mux, time := sample }

/-- The value of a result in volts as Q32.32, and its tag (R261, R262). -/
def CnvResult.slotWord (r : CnvResult) : W64 := BitVec.ofNat 64 (r.code.toNat * 5 * 256)
def CnvResult.slotTag (r : CnvResult) : Byte := BitVec.ofNat 8 ((!r.unset).toNat + 4 * r.ovr.toNat)

/-- An ADC record of forms 0 to 2 (R273). -/
def Dev.adcRecord (form : Byte) (c : Fin 2) (r : CnvResult) (entry osr seq : Nat) (d : Dev) : Dev :=
  d.present { type := 6, tflags := form, dtime := r.time
              body := [put 0 24 r.code.toNat ||| putB 24 r.ovr ||| putB 25 r.unset ||| put 26 1 c.val ||| put 28 4 r.mux.toNat
                         ||| put 32 4 entry ||| put 36 4 osr ||| put 40 16 seq] }

/-- Layout of RES (R267). -/
def CnvResult.regRes (r : CnvResult) : W64 :=
  put 0 24 r.code.toNat ||| putB 24 r.ovr ||| putB 25 r.unset ||| putB 26 r.valid ||| put 28 4 r.mux.toNat ||| put 32 32 r.time

/-- Cross-check of the shared inputs 12 and 13 (R264). -/
def Dev.crossCheck (c : Fin 2) (r : CnvResult) (d : Dev) : Dev :=
  if r.mux ≠ 12 ∧ r.mux ≠ 13 then d
  else
    let is12 := r.mux == 12
    let other := let y := d.cnv[Fin.ofNat 2 (1 - c.val)]; if is12 then y.lat12 else y.lat13
    let d := d.modCnv c fun x => if is12 then { x with lat12 := some r } else { x with lat13 := some r }
    let n := fld d.cnvs.xchk 24 4
    match other with
    | none => d
    | some o =>
      if r.ovr || r.unset || o.ovr || o.unset || decide (o.time + fld d.cnvs.xchk 32 16 * 1000 < r.time) || n == 0 then d
      else
        let diff := ((r.code.toNat : Int) - o.code.toNat).natAbs
        if diff ≤ fld d.cnvs.xchk 0 24 then d.modCnvs fun s => { s with xFails := 0 }
        else if d.cnvs.xFails.toNat + 1 < n then d.modCnvs fun s => { s with xFails := s.xFails + 1 }
        else
          ((d.modCnvs fun s => { s with xFails := 0 }).modCnv c fun x => { x with xchk := true }).raise
            { source := 17, ctrl := ctrl 5 c.val r.mux.toNat, coord := d.noEvent }

/-- Check of input 15 (R265). -/
def Dev.refCheck (c : Fin 2) (r : CnvResult) (d : Dev) : Dev :=
  if r.mux ≠ 15 then d
  else
    let tol := d.cnv[c].refTol.toNat
    let d := d.modCnv c fun x => { x with refLast := r.code }
    if r.unset || tol == 0 || !(r.ovr || decide (tol < ((r.code.toNat : Int) - 8388608).natAbs)) then d
    else (d.modCnv c fun x => { x with refchk := true }).raise
      { source := 18, ctrl := ctrl 5 c.val 15, coord := d.noEvent }

/-- What every result does: counts, checks, and its slot. -/
def Dev.deliver (e : Env) (c : Fin 2) (r : CnvResult) (slot : Option Nat) (d : Dev) : Dev :=
  let d := if r.ovr then d.modCnv c fun x => { x with ovrSeen := true, ovrs := x.ovrs + 1 } else d
  let d := match slot with | some i => d.hwSlot e i r.slotWord r.slotTag | none => d
  (d.crossCheck c r).refCheck c r

/-! ### Windows (R263) -/

/-- A window exit or a reported re-entry: CE triggers, ADC record, WIN_EVT. -/
def Dev.winEvent (c : Fin 2) (k : Nat) (form : Byte) (r : CnvResult) (d : Dev) : Dev :=
  let osr := fld d.cnv[c].scan 16 4
  ((d.fire 6 fun s => s % 2 == c.val && s / 2 % 16 == k).adcRecord form c r k osr 0).modCnv c fun x => { x with winEvt := true }

def Dev.window (c : Fin 2) (k : Nat) (r : CnvResult) (d : Dev) : Dev :=
  let i := Fin.ofNat 16 k
  let w := d.cnv[c].win[i]
  let inside := w.lo ≤ r.code && r.code ≤ w.hi && !r.ovr
  if !w.en || r.unset || inside == w.inside then d
  else
    let d := d.modCnv c fun x => { x with win := upd x.win i fun w => { w with inside := inside } }
    if !inside then d.winEvent c k 0 r
    else if w.reenter then d.winEvent c k 1 r
    else d

/-! ### Scanning (R256, R257) -/

/-- The periodic record of all RES values (R273). -/
def Dev.periodicRecord (c : Fin 2) (n : Nat) (at_ : Ns) (d : Dev) : Dev :=
  let x := d.cnv[c]
  d.present { type := 6, tflags := 3, dtime := at_
              body := (put 0 1 c.val ||| put 1 5 n) :: (x.res.toList.take n).map CnvResult.regRes }

/-- The scan conversion in progress is complete at `sample`; or the one that an urgent conversion cut off was, in the clock
of the cut or before it (R259). -/
def Dev.scanDone (d : Dev) (c : Fin 2) (sample : Ns) : Bool :=
  let x := d.cnv[c]
  let osr := fld x.scan 16 4
  d.convOn && (if x.scanning then d.converted x.filtAt osr sample
    else match x.cutAt with
      | some a => x.urgRun.isSome && decide (sample ≤ x.filtAt) && d.converted a osr sample
      | none => false)

/-- A result of the scan. -/
def Dev.scanResult (e : Env) (c : Fin 2) (sample : Ns) (y : Conversion) (ovr : Bool) (d : Dev) : Dev :=
  let x := d.cnv[c]
  let ins := x.inputs
  match ins[x.entry]? with
  | none => d
  | some mux =>
    if !d.scanDone c sample then d
    else
      let osr := fld x.scan 16 4
      let r := d.cnvResult mux osr sample (d.cnvCode e c mux y) ovr
      let k := x.entry
      let n := ins.length
      let d := d.modCnv c fun x => { x with res := upd x.res (Fin.ofNat 16 k) fun _ => r }
      let d := d.deliver e c r (if bit x.slot 14 then some (fld x.slot 0 14 + mux) else none)
      let d := d.window c k r
      let last := k + 1 == n
      let d := if last then d.modCnv c fun x => { x with rounds := x.rounds + 1, roundsRec := x.roundsRec + 1 } else d
      let per := fld x.cfg 24 8
      let d := if last && per != 0 && decide (per ≤ d.cnv[c].roundsRec) then
          (d.periodicRecord c n sample).modCnv c fun x => { x with roundsRec := 0 }
        else d
      d.modCnv c fun x =>
        if !x.scanning then
          { x with entry := (k + 1) % n, cutAt := none, aborts := if sample = x.filtAt then x.aborts - 1 else x.aborts }
        else if n = 1 then { x with settled := true, filtAt := sample - 3 * outPeriod osr }
        else { x with entry := (k + 1) % n, settled := false, filtAt := sample }

/-- A write of CNV_SCAN (R257). -/
def Dev.scanWrite (c : Fin 2) (v : W64) (d : Dev) : Dev :=
  if 8 < fld v 16 4 then d.modCnv c fun x => { x with cfgIgn := true }
  else
    let x := d.cnv[c]
    let gone := if bit x.slot 14 then (x.inputs.filter fun i => !bit v i).map (fld x.slot 0 14 + ·) else []
    let gone := if fld v 0 16 = 0 then x.slots else gone
    let d := gone.foldl (init := d) fun d i => d.staleSlot i
    let res := x.res.map (fun r => { r with valid := false })
    let win := x.win.map (fun w => { w with inside := true })
    let n := if x.scanning then x.aborts + 1 else x.aborts
    d.modCnv c fun x =>
      ({ x with scan := v &&& 0xFFFFF, aborts := n, res := res, win := win }).restart d.convOn d.dtime 0

/-! ### Urgent conversions (R259) -/

/-- The oldest urgent request starts, and the scan is aborted. -/
def Dev.urgentStart (c : Fin 2) (d : Dev) : Dev :=
  let x := d.cnv[c]
  match x.urgQ, x.urgRun with
  | r :: rest, none =>
    if !x.enabled || !d.convOn || decide (d.dtime < r.at_) then d
    else d.modCnv c fun x =>
      { x with urgQ := rest, urgRun := some r, scanning := false, settled := false, filtAt := d.dtime
               cutAt := if x.scanning then some x.filtAt else none
               aborts := if x.scanning then x.aborts + 1 else x.aborts }
  | _, _ => d

/-- The running urgent conversion ends, OSR ratio µs after it began. -/
def Dev.urgentResult (e : Env) (c : Fin 2) (sample : Ns) (y : Conversion) (ovr : Bool) (d : Dev) : Dev :=
  let x := d.cnv[c]
  match x.urgRun with
  | none => d
  | some q =>
    if !d.converted x.filtAt q.osr sample then d else
    let mux := q.mux.toNat
    let r := d.cnvResult mux q.osr sample (d.cnvCode e c mux y) ovr
    let d := d.modCnv c fun x =>
      { x with urg := r, urgSeq := q.seq, urgOsr := BitVec.ofNat 4 q.osr, urgDone := x.urgDone + 1, urgRun := none }
    let d := d.deliver e c r (if bit x.slot 30 then some (fld x.slot 16 14) else none)
    let d := if bit x.cfg 3 then d.adcRecord 2 c r 0 q.osr q.seq.toNat else d
    d.modCnv c fun x => x.restart d.convOn sample x.entry

/-! ### The reference buffer (R255) -/

def Dev.refReady (d : Dev) : Dev :=
  if d.cnvs.refEn && !d.cnvs.refOk && decide (d.cnvs.refAt + 5000000 ≤ d.dtime) then
    d.modCnvs fun s => { s with refOk := true, refOkAt := d.dtime }
  else d

/-! ### Registers (R267) -/

/-- CNV_CFG written. -/
def Dev.cnvCfg (c : Fin 2) (v : W64) (d : Dev) : Dev :=
  let old := d.cnv[c]
  let en := bit v 0
  let ref := bit v 1
  let d := if ref && !d.cnvs.refEn then d.modCnvs fun s => { s with refEn := true, refOk := false, refAt := d.dtime }
    else if !ref then d.modCnvs fun s => { s with refEn := false, refOk := false } else d
  let d := if old.enabled && !en then d.stopConverter c else d
  let d := d.modCnv c fun x => { x with cfg := v &&& 0xFF030F09 }
  let d := if fld v 8 4 ≠ fld old.cfg 8 4 ∧ d.cnv[c].inputs = [14] then
      d.modCnv c fun x => { x with settled := false, filtAt := if x.urgRun.isSome then x.filtAt else d.dtime }
    else d
  if en && !old.enabled then d.modCnv c fun x => x.restart d.convOn d.dtime 0 else d

def Dev.wrCnv (loader : Bool) (p : Path) (c : Fin 2) (ofs : Nat) (v : W64) (d : Dev) : Dev :=
  let ign (d : Dev) : Dev := d.modCnv c fun x => { x with cfgIgn := true }
  match ofs with
  | 0x00 => d.cnvCfg c v
  | 0x08 => d.scanWrite c v
  | 0x10 => d.guarded loader ign fun d => d.modCnv c fun x => { x with slot := v &&& 0x7FFF7FFF }
  | 0x28 => d.modCnv c fun x =>
      { x with cfgIgn := x.cfgIgn && !bit v 32, urgLost := x.urgLost && !bit v 33, winEvt := x.winEvt && !bit v 34
               xchk := x.xchk && !bit v 35, refchk := x.refchk && !bit v 36, ovrSeen := x.ovrSeen && !bit v 37 }
  | 0x38 => d.modCtx p fun x => { x with winIdx := upd x.winIdx c fun _ => v &&& 0xF }
  | 0x40 =>
    let i := Fin.ofNat 16 (fld (d.ctx p).winIdx[c] 0 4)
    d.guarded (fld v 0 24 ≤ fld v 24 24) ign fun d => d.modCnv c fun x =>
      { x with win := upd x.win i fun w =>
          { lo := v.setWidth 24, hi := (v >>> 24).setWidth 24, en := bit v 48, reenter := bit v 49
            inside := w.inside || bit v 48 } }
  | 0x48 => d.modCnvs fun s => { s with xchk := v &&& 0x0000FFFF0FFFFFFF }
  | 0x50 => d.modCnv c fun x => { x with refTol := v.setWidth 24 }
  | _ => d

def Dev.rdCnv (e : Env) (p : Path) (c : Fin 2) (ofs : Nat) (d : Dev) : W64 :=
  let x := d.cnv[c]
  match ofs with
  | 0x00 => x.cfg ||| putB 1 d.cnvs.refEn ||| putB 2 d.cnvs.refOk
  | 0x08 => x.scan
  | 0x10 => x.slot
  | 0x18 => put 0 24 x.urg.code.toNat ||| putB 24 x.urg.ovr ||| putB 25 x.urg.unset ||| putB 26 x.urg.valid
      ||| put 28 4 x.urg.mux.toNat ||| put 32 16 x.urgSeq.toNat ||| put 48 4 x.urgOsr.toNat ||| put 52 3 x.urgQ.length
  | 0x20 => put 0 64 x.urg.time
  | 0x28 => d.regCnvStat c
  | 0x30 => put 0 16 x.urgDone.toNat ||| put 16 16 x.urgLosts.toNat ||| put 32 16 x.aborts.toNat ||| put 48 16 x.ovrs.toNat
  | 0x38 => (d.ctx p).winIdx[c]
  | 0x40 =>
    let w := x.win[Fin.ofNat 16 (fld (d.ctx p).winIdx[c] 0 4)]
    put 0 24 w.lo.toNat ||| put 24 24 w.hi.toNat ||| putB 48 w.en ||| putB 49 w.reenter ||| putB 50 w.inside
  | 0x48 => d.cnvs.xchk ||| put 48 8 d.cnvs.xFails.toNat
  | 0x50 => put 0 24 x.refTol.toNat ||| put 24 24 x.refLast.toNat
  | 0x58 => (if c = 0 then e.fuses.trimA else e.fuses.trimB) &&& mask64 0 48
  | _ => if 0x78 ≤ ofs ∧ ofs ≤ 0xF0 then (x.res[Fin.ofNat 16 ((ofs - 0x78) / 8)]).regRes else 0

/-! ### The commands -/

/-- SCAN_RESULT (R256). -/
def execScanResult (t : Ns) (c : Fin 2) (sample : Ns) (x : Conversion) (ovr : Bool) (s : State) : Host.Outcome State Fault Refusal :=
  runAt t (fun e d => d.scanResult e c sample x ovr) s

/-- CNV_SCAN_WRITE (R257). -/
def execCnvScanWrite (t : Ns) (p : Path) (c : Fin 2) (v : W64) (s : State) : Host.Outcome State Fault Refusal :=
  runBy t p (fun _ d => d.scanWrite c v) s

/-- URGENT_START (R259). -/
def execUrgentStart (t : Ns) (c : Fin 2) (s : State) : Host.Outcome State Fault Refusal :=
  runAt t (fun _ d => d.urgentStart c) s

/-- URGENT_RESULT (R259). -/
def execUrgentResult (t : Ns) (c : Fin 2) (sample : Ns) (x : Conversion) (ovr : Bool) (s : State) : Host.Outcome State Fault Refusal :=
  runAt t (fun e d => d.urgentResult e c sample x ovr) s

/-- REF_OK (R255). -/
def execRefOk (t : Ns) (s : State) : Host.Outcome State Fault Refusal := runAt t (fun _ d => d.refReady) s

end Sys2Proof.Machine
end

