-- ==== Sys2Proof/Machine/Timers.lean ====
section
/-! DEFINITION. The commands of the timer units (R283 to R293) and the registers of page 0x50 (R304). The units themselves
are in `Matrix`. -/

namespace Sys2Proof.Machine

/-! ### Ticks and edges from outside -/

/-- TMU_TICK. A unit that counts the reference takes the tick that is due; the units that reset it go first, since a reset
and a tick of one clock give the reset (R287). For a unit clocked by a pin, an edge of its polarity has come from outside;
a unit clocked from within the block, by SNAP_IN or by a pin that the block drives, counts without this command. -/
def Dev.tmuTick (u : Fin 8) (d : Dev) : Dev :=
  let t := d.tmu[u]
  if t.clk then
    if 40 ≤ t.src ∧ t.src < 56 ∧ t.running = true then d.pinEdge (t.src - 40) (!bit t.cfg 1) else d
  else
    d.watchPins fun d =>
      let (l, d) := (d.mastersFirst 8 u).refTick u
      d.tmuEvents 9 l

/-- CAPTURE_EDGE: the level `rising` has held at the source since the sample at `first` (R290). A pin's level may be shown
by this command; a source within the block must have it. -/
def Dev.captureEdge (u : Fin 8) (c : Fin 4) (rising : Bool) (first : Ns) (d : Dev) : Dev :=
  let x := d.tmu[u].ch[c]
  let code := fld x.cfg 10 6
  let new := match x.accAt with | some a => decide (a < first) | none => true
  if x.mode ≠ 2 ∨ code < 8 ∨ new = false ∨ d.dtime + d.sup.dstep < first + 25 * fld x.cfg 18 4 then d
  else
    d.watchPins fun d =>
      let d := if 40 ≤ code ∧ code < 56 ∧ d.pinDriven (code - 40) = false then d.showPin (code - 40) rising else d
      let late := match d.srcSince code with
        | some s => decide (first < s) || (match x.accAt with | some a => decide (s ≤ a) | none => false)
        | none => false
      if d.srcLevel code ≠ rising ∨ late = true then d
      else
        let (l, d) := d.acceptEdge u c (some rising) first
        d.tmuEvents 9 l

/-! ### Registers (R285, R289, R304) -/

def Dev.tmuIgn (u : Fin 8) (d : Dev) : Dev := d.modTmu u fun t => { t with cfgIgn := true }

/-- Units whose bit is set start, if they do not run (R283, R285). -/
def Dev.tmuStart (v : W64) (d : Dev) : Dev :=
  { d with tmu := d.tmu.mapFinIdx fun i t _ => if bit v i && !t.running then { t.load.arm with running := true, from_ := d.dtime } else t }

/-- The chain of masters from a unit comes back to it. -/
def tmuLoop (cfgs : Nat → W64) (u : Nat) : Nat → Nat → Bool
  | 0, _ => false
  | n + 1, w => match Tmu.master (cfgs w) with
    | some m => m == u || tmuLoop cfgs u n m
    | none => false

/-- A source belongs to the unit itself (R287). -/
def tmuSelf (u code : Nat) : Bool := code == u || (decide (8 + 4 * u ≤ code) && decide (code < 12 + 4 * u))

/-- A value of TMU_CFG that is ignored without a flag: SLAVE 3, or CLK = 1 with SLAVE not 0 (R287, R304). -/
def tmuCfgSilent (v : W64) : Bool := fld v 2 2 == 3 || (bit v 0 && fld v 2 2 != 0)

def Dev.tmuCfgOk (u : Fin 8) (v : W64) (d : Dev) : Bool :=
  let code := fld v 8 6
  let slave := fld v 2 2
  let used := bit v 0 || slave != 0
  decide (code ≤ 56) && !(slave == 1 && decide (code < 8))
    && !(used && tmuSelf u.val code)
    && !tmuLoop (fun w => if w = u.val then v else ((d.tmu.toList[w]?).getD {}).cfg) u.val 9 u.val

/-- Another channel claims a pin (R292). -/
def Dev.pinClaimed (u : Fin 8) (c : Fin 4) (pin : Nat) (d : Dev) : Bool :=
  (List.finRange 8).any fun w => (List.finRange 4).any fun x =>
    !(w == u && x == c) && bit d.tmu[w].ch[x].cfg 5 && fld d.tmu[w].ch[x].cfg 6 4 == pin

/-- Fields of TMU_CH_CFG that a running unit keeps: MODE, CAP_SRC, CAP_EDGE, FILT, CAP_PRESC (R285). -/
def chFixed : W64 := 0x3FFFFC03

/-- A value of TMU_CH_CFG that is ignored without a flag: MODE 3, CAP_EDGE 3 (R304). -/
def chCfgSilent (v : W64) : Bool := fld v 0 2 == 3 || fld v 16 2 == 3

/-- TMU_CH_CFG written. -/
def Dev.chCfg (loader : Bool) (u : Fin 8) (c : Fin 4) (v : W64) (d : Dev) : Dev :=
  let v := v &&& 0x3FFFFFFF
  let bad := decide (56 < fld v 10 6) || (bit v 5 && d.pinClaimed u c (fld v 6 4))
  d.guarded (chCfgSilent v || !bad) (Dev.tmuIgn u) fun d => if chCfgSilent v then d else d.watchPins fun d =>
    d.modTmu u fun t =>
      if t.running && !loader then
        let old := t.ch[c].cfg
        { t.modCh c (fun x => { x with cfg := (old &&& chFixed) ||| (v &&& ~~~chFixed) }) with
          cfgIgn := t.cfgIgn || (old &&& chFixed) != (v &&& chFixed) }
      else t.modCh c fun x => { x with cfg := v, edges := 0, armed := x.armed && fld v 0 2 == 1 }

/-- A moment of the same core clock. -/
def sameClock (at_ : Option Ns) (now : Ns) : Bool := match at_ with | some a => a / 4 == now / 4 | none => false

/-- TMU_CH_VAL written, by a path or by EMIT, which stands over a path's write of the same core clock (R289, R293). A tick
of this same reference clock is evaluated with the new value; what it fired with the old one stands (assumption 56). -/
def Dev.chVal (u : Fin 8) (c : Fin 4) (v : W32) (emit : Bool) (d : Dev) : Dev :=
  let x := d.tmu[u].ch[c]
  if x.mode = 2 then d.tmuIgn u
  else if !emit && sameClock x.emitAt d.dtime then d
  else
    let d := d.modTmu u (Tmu.modCh c fun x =>
      { x with val := v, armed := x.armed || x.mode == 1, emitAt := if emit then some d.dtime else x.emitAt })
    let t := d.tmu[u]
    if t.tickedAt ≠ some d.dtime ∨ t.reached c = false then d
    else if x.firedAt = some d.dtime then d.modTmu u (Tmu.modCh c fun x => { x with armed := false })
    else d.watchPins fun d => (d.fireCh u c).tmuEvents 9 [8 + 4 * u.val + c.val]

def Dev.tmuSelOf (d : Dev) (p : Path) : Fin 8 × Fin 4 :=
  let s := (d.ctx p).tmuSel
  (Fin.ofNat 8 (fld s 0 3), Fin.ofNat 4 (fld s 8 2))

/-- Page 0x50 written. -/
def Dev.wrTmu (loader : Bool) (p : Path) (ofs : Nat) (v : W64) (d : Dev) : Dev :=
  let (u, c) := d.tmuSelOf p
  match ofs with
  | 0x00 => d.modCtx p fun x => { x with tmuSel := v &&& 0x307 }
  | 0x08 =>
    d.guarded ((loader || !d.tmu[u].running) && (tmuCfgSilent v || d.tmuCfgOk u v)) (Dev.tmuIgn u) fun d =>
      if tmuCfgSilent v then d else d.modTmu u fun t => { t with cfg := v &&& 0xFFFF3F1F }
  | 0x18 => d.modTmu u fun t => if sameClock t.emitAt d.dtime then t else { t with reload := v.setWidth 32 }
  | 0x20 => d.modTmu u fun t => { t with zero := t.zero && !bit v 0, cfgIgn := t.cfgIgn && !bit v 1 }
  | 0x28 => d.chCfg loader u c v
  | 0x30 => d.chVal u c (v.setWidth 32) false
  | 0x38 => d.modTmu u (Tmu.modCh c fun x => { x with evt := x.evt && !bit v 0, capOvr := x.capOvr && !bit v 3 })
  | 0x48 => d.tmuStart v
  | 0x50 => d.modCtx p fun x => { x with pairSel := v &&& 0x707 }
  | _ => d

/-- A capture's VALUE has been read (R290). -/
def Dev.captureRead (p : Path) (d : Dev) : Dev :=
  let (u, c) := d.tmuSelOf p
  d.modTmu u (Tmu.modCh c fun x => if x.mode = 2 then { x with unread := false } else x)

def Dev.rdTmu (p : Path) (ofs : Nat) (d : Dev) : W64 × Dev :=
  let (u, c) := d.tmuSelOf p
  let t := d.tmu[u]
  let x := t.ch[c]
  match ofs with
  | 0x00 => ((d.ctx p).tmuSel, d)
  | 0x08 => (t.cfg, d)
  | 0x10 => (put 0 32 t.cnt.toNat, d)
  | 0x18 => (put 0 32 t.reload.toNat, d)
  | 0x20 => (putB 0 t.zero ||| putB 1 t.cfgIgn ||| put 32 32 t.zeros.toNat, d)
  | 0x28 => (x.cfg, d)
  | 0x30 => (put 0 32 x.val.toNat, d.captureRead p)
  | 0x38 => (putB 0 x.evt ||| putB 1 x.out ||| putB 2 x.armed ||| putB 3 x.capOvr ||| put 32 32 x.events.toNat, d)
  | 0x40 => (put 0 64 x.capt, d)
  | 0x48 => (bitsOf fun (u : Fin 8) => d.tmu[u].running, d)
  | 0x50 => ((d.ctx p).pairSel, d)
  | 0x58 =>
    let s := (d.ctx p).pairSel
    (put 0 32 d.tmu[Fin.ofNat 8 (fld s 0 3)].cnt.toNat ||| put 32 32 d.tmu[Fin.ofNat 8 (fld s 8 3)].cnt.toNat, d)
  | _ => (0, d)

/-! ### The commands (TMU_TICK and CAPTURE_EDGE, which may wake the device, are in `Wake`) -/

/-- TMU_START (R285). -/
def execTmuStart (t : Ns) (p : Path) (v : W64) (s : State) : Host.Outcome State Fault Refusal :=
  runBy t p (fun _ d => d.tmuStart v) s

/-- COMPARE_VALUE_WRITE (R289). -/
def execCompareValueWrite (t : Ns) (p : Path) (v : W64) (s : State) : Host.Outcome State Fault Refusal :=
  runBy t p (fun _ d => d.chVal (d.tmuSelOf p).1 (d.tmuSelOf p).2 (v.setWidth 32) false) s

/-- CAPTURE_READ (R290). -/
def execCaptureRead (t : Ns) (p : Path) (s : State) : Host.Outcome State Fault Refusal :=
  runAt t (fun _ d => d.captureRead p) s

end Sys2Proof.Machine
end

