-- ==== Sys2Proof/Machine/Record.lean ====
section
/-! DEFINITION. The record manager: writing (R268 to R276), snapshots (R279 to R281), and the registers of pages 0x48
and 0x03 (R282). The streams are in `Streams`. -/

namespace Sys2Proof.Machine

def Dev.modRecm (f : RecM → RecM) (d : Dev) : Dev := { d with recm := f d.recm }
def Dev.modRing (t : Fin 12) (f : Ring → Ring) (d : Dev) : Dev := d.modRecm fun r => { r with rings := upd r.rings t f }
def Dev.modStream (i : Fin 2) (f : Stream → Stream) (d : Dev) : Dev := d.modRecm fun r => { r with streams := upd r.streams i f }

/-! ### Rings (R274, R275) -/

def Ring.room (r : Ring) : Nat := 1024 * r.size

/-- The oldest pending records make room for `n` bytes; how many there are. -/
def makeRoom (room n : Nat) : List Stored → List Stored × Nat
  | [] => ([], 0)
  | x :: l =>
    if ((x :: l).map Stored.size).sum + n ≤ room then (x :: l, 0)
    else let (m, k) := makeRoom room n l; (m, k + 1)

/-- Records lost: LOST saturates (R275). -/
def Ring.lose (n : Nat) (r : Ring) : Ring :=
  { r with lost := BitVec.ofNat 32 (satN (2 ^ 32 - 1) (r.lost.toNat + n)), lostSeen := r.lostSeen || n != 0
           lostBefore := r.lostBefore || n != 0 }

/-- The header of a record (R269). -/
def recHeader (r : Rec) (full lost : Bool) (len : Nat) (seq : W32) : List W64 :=
  [put 0 8 r.type ||| put 8 8 len ||| putB 16 r.memErr ||| putB 17 full ||| putB 18 lost ||| put 24 8 r.tflags.toNat
     ||| put 32 32 seq.toNat, put 0 64 r.dtime]

/-- Bytes written to a ring from an offset on, wrapping at its end (R274). -/
def Dev.writeRing (base room ofs : Nat) (l : List Byte) (d : Dev) : Dev :=
  let first := l.take (room - ofs)
  let rest := l.drop (room - ofs)
  let a := recBase + 1024 * base
  let d := d.write (.bytes (a + ofs) first)
  if rest.isEmpty then d else d.write (.bytes a rest)

/-- A record written to its ring, or lost. -/
def Dev.writeRecord (x : Rec) (d : Dev) : Dev :=
  let t := Fin.ofNat 12 x.type
  let r := d.recm.rings[t]
  if r.size = 0 then d
  else
    let full := x.type == 4 && d.recm.evFull.getLsbD (x.evType - 1)
    let payload := if full then x.body ++ x.ext else x.body
    let len := payload.length + 2
    let n := 8 * len
    if r.policy && decide (r.room < r.used + n) then
      d.modRing t fun r => { r.lose 1 with stopped := true, next := r.next + 1 }
    else
      let (kept, k) := makeRoom r.room n r.pending
      let r' := { r with pending := kept }.lose k
      let words := recHeader x full r'.lostBefore len r.next ++ payload
      let s : Stored := { words := words, start := r.wptr, ord := d.recm.ord }
      let d := d.modRing t fun _ =>
        { r' with pending := kept ++ [s], wptr := (r.wptr + n) % r.room, next := r.next + 1, lostBefore := false, stopped := false }
      (d.modRecm fun m => { m with ord := m.ord + 1 }).writeRing r.base r.room r.wptr (wordsBytes words)

/-- The next record in the order of R268, taken from where it waits. -/
def RecM.next (m : RecM) : Option (Rec × RecM) :=
  match m.resultQ, m.staging with
  | [], [] => none
  | r :: l, [] => some (r, { m with resultQ := l })
  | [], s :: l => some (s, { m with staging := l })
  | r :: rl, s :: sl => if Rec.after s r then some (s, { m with staging := sl }) else some (r, { m with resultQ := rl })

/-- REC writes from BASECAMP onwards (R268). -/
def Mode.records : Mode → Bool
  | .reset | .fill => false
  | _ => true

def Dev.recWrites (d : Dev) : Bool := d.sup.mode.records

/-- REC writes one record. -/
def Dev.recordStep (d : Dev) : Dev :=
  if d.recWrites then
    match d.recm.next with
    | some (x, m) => { d with recm := m }.writeRecord x
    | none => d
  else d

/-- CLR_LOST of the ring that a path has selected. -/
def Dev.selRing (p : Path) (d : Dev) : Option (Fin 12) :=
  let t := fld (d.ctx p).ringSel 0 4
  if 1 ≤ t ∧ t ≤ 11 then some (Fin.ofNat 12 t) else none

def Dev.clearLost (p : Path) (d : Dev) : Dev :=
  match d.selRing p with
  | some t => d.modRing t fun r => { r with lost := 0 }
  | none => d

def Dev.discardRing (p : Path) (d : Dev) : Dev :=
  match d.selRing p with
  | some t => d.modRing t fun r => { r with pending := [], stopped := false }
  | none => d

/-! ### Reading (R276) -/

/-- Status of a byte at an internal address (R404). -/
def Dev.byteStat (d : Dev) (a : Nat) : Nat :=
  let (b, w, i) := bankOf a
  match d.memu.errs.find? fun u => u.bank.val == b && u.word == w && u.byte.val == i with
  | some u => byteStatus u.flips false
  | none => 0

/-- The bytes of a pending record as its consumer gets them: damaged bytes as 0, the header rebuilt, MEM_ERR set. -/
def Dev.readIn (r : Ring) (s : Stored) (d : Dev) : List Byte × Dev :=
  let bs := wordsBytes s.words
  if d.memu.errs.isEmpty then (bs, d)
  else
    let addr (i : Nat) : Nat := recBase + 1024 * r.base + (s.start + i) % r.room
    let bad (i : Nat) : Bool := decide (2 ≤ d.byteStat (addr i))
    let head := (List.range 16).any bad
    let any_ := (List.range bs.length).any bad
    let fix (i : Nat) (b : Byte) : Byte :=
      let b := if decide (i < 2) || (decide (4 ≤ i) && decide (i < 8)) then b else if bad i || (head && decide (8 ≤ i) && decide (i < 16)) then 0 else b
      if i = 2 ∧ any_ = true then b ||| 1 else b
    let out := bs.mapIdx fix
    let words := (((List.range s.words.length).map fun i => addr (8 * i) / 16)).eraseDups
    let d := words.foldl (init := d) fun d w =>
      let (ue, d) := d.readAt (16 * w)
      if ue then d.raise { source := 26, detail := (bankOf (16 * w)).1, ctrl := 0xE0FF, coord := d.noEvent } else d
    (out, d)

def Dev.readStored (t : Fin 12) (s : Stored) (d : Dev) : List Byte × Dev := d.readIn d.recm.rings[t] s

/-- Pending records of the rings that a consumer serves, in the order of writing (R277, R278). -/
def ordInsert (x : Fin 12 × Stored) : List (Fin 12 × Stored) → List (Fin 12 × Stored)
  | [] => [x]
  | y :: l => if x.2.ord < y.2.ord then x :: y :: l else y :: ordInsert x l

def Dev.pendingOf (c : BitVec 2) (d : Dev) : List (Fin 12 × Stored) :=
  (List.finRange 12).foldl (init := []) fun acc t =>
    let r := d.recm.rings[t]
    if t.val ≠ 0 ∧ r.stream = c then r.pending.foldl (fun acc s => ordInsert (t, s) acc) acc else acc

/-- A record is consumed. -/
def Dev.consume (t : Fin 12) (ord : Nat) (d : Dev) : Dev :=
  d.modRing t fun r => { r with pending := r.pending.filter fun (s : Stored) => s.ord != ord, stopped := false }

/-! ### Snapshots (R279 to R281) -/

/-- A filtered edge at SNAP_IN. -/
def Dev.snapIn (rising : Bool) (samples : Nat) (d : Dev) : Dev :=
  let c := d.snap.cfg
  let sel := fld c 6 2
  if samples < fld c 24 8 then d
  else
    let d := { d with snap := { d.snap with inLevel := rising } }.tmuLevel 56 rising
    if if sel = 0 then !rising else if sel = 1 then rising else sel == 2 then d.snapPlain 0 else d

/-- The SNAP record, once the merge window has closed (R280, R281). -/
def Dev.mergeClose (d : Dev) : Dev :=
  let s := d.snap
  if s.open_ && decide (s.time + 100 < d.dtime) then
    { d with snap := { s with open_ := false } }.present
      { type := 8, dtime := s.time
        body := [put 0 16 s.num.toNat ||| put 16 6 s.sources.toNat ||| put 32 16 s.ctrl.toNat ||| put 48 16 s.rnum.toNat, s.coord]
                  ++ s.regs.toList }
  else d

/-- SNAP_OUT goes low (R280). -/
def Dev.snapLow (d : Dev) : Dev :=
  match d.snap.outUntil with
  | some t => if t ≤ d.dtime then { d with snap := { d.snap with outUntil := none } } else d
  | none => d

def Dev.modSnap (f : Snap → Snap) (d : Dev) : Dev := { d with snap := f d.snap }

/-- Page 0x03: SNAP_CFG, SNAP_CMD and SNAP_STAT. -/
def Dev.wrSnap (ofs : Nat) (v : W64) (d : Dev) : Dev :=
  match ofs with
  | 0x00 => d.guarded (fld v 6 2 != 3 && fld v 8 8 != 0) (Dev.modSnap fun s => { s with cfgIgn := true })
      (Dev.modSnap fun s => { s with cfg := v &&& 0xFF01FFFF })
  | 0x08 => if bit v 0 then d.snapPlain 4 else d
  | 0x10 => d.modSnap fun s => { s with cfgIgn := s.cfgIgn && !bit v 22 }
  | _ => d

def Dev.rdSnap (ofs : Nat) (d : Dev) : W64 :=
  let s := d.snap
  match ofs with
  | 0x00 => s.cfg
  | 0x10 => put 0 16 s.num.toNat ||| put 16 6 s.sources.toNat ||| putB 22 s.cfgIgn ||| put 32 16 s.merged.toNat ||| put 48 16 s.rnum.toNat
  | 0x18 => put 0 64 s.time
  | _ => if 0x20 ≤ ofs ∧ ofs < 0xC0 then s.regs[Fin.ofNat 20 ((ofs - 0x20) / 8)] else 0

/-! ### The commands -/

/-- RECORD_WRITE (R268) is in `Streams`. CLR_LOST (R275). -/
def execClrLost (t : Ns) (p : Path) (s : State) : Host.Outcome State Fault Refusal := runBy t p (fun _ d => d.clearLost p) s

/-- DISCARD (R282). -/
def execDiscard (t : Ns) (p : Path) (s : State) : Host.Outcome State Fault Refusal := runBy t p (fun _ d => d.discardRing p) s

/-- SNAP_IN_EDGE (R279). -/
def execSnapInEdge (t : Ns) (rising : Bool) (samples : Nat) (s : State) : Host.Outcome State Fault Refusal :=
  runAt t (fun _ d => d.snapIn rising samples) s

/-- SNAP_CMD_TRIG (R279). -/
def execSnapCmdTrig (t : Ns) (p : Path) (s : State) : Host.Outcome State Fault Refusal :=
  runBy t p (fun _ d => d.snapPlain 4) s

/-- MERGE_WINDOW_CLOSE (R281). -/
def execMergeWindowClose (t : Ns) (s : State) : Host.Outcome State Fault Refusal := runAt t (fun _ d => d.mergeClose) s

/-- SNAP_OUT_END (R280). -/
def execSnapOutEnd (t : Ns) (s : State) : Host.Outcome State Fault Refusal := runAt t (fun _ d => d.snapLow) s

end Sys2Proof.Machine
end

