-- ==== Sys2Proof/Machine/Streams.lean ====
section
/-! DEFINITION. The two record streams (R277) and the registers of page 0x48 (R282). -/

namespace Sys2Proof.Machine

def Dev.modCan (k : Fin 4) (f : Can → Can) (d : Dev) : Dev := { d with can := upd d.can k f }

/-- The core runs from its PLL: after a lost clock the controllers are held recessive (R392). -/
def Dev.clocksOk (d : Dev) : Bool := d.sup.refOk && d.sup.pllLock

/-- Modes in which the controllers take part in their buses (R307). SAFE with cause IMAGE_INVALID has only the recovery
service on CAN_0. -/
def Dev.canMode (d : Dev) : Bool :=
  match d.sup.mode with
  | .waitSync | .crank | .run | .limp | .afterrun | .service | .locked => true
  | .safe => d.sup.safeCause != 2
  | _ => false

/-- The recovery service runs on a controller (R321). -/
def Dev.canRecovery (d : Dev) (k : Fin 4) : Bool := k == 0 && d.sup.mode == .safe && d.sup.safeCause == 2

/-- A controller takes part in its bus: enabled, not bus-off, not held recessive (R306, R307, R385, R392). -/
def Dev.canActive (d : Dev) (k : Fin 4) : Bool :=
  ((bit d.can[k].cfg 0 && d.canMode) || d.canRecovery k) && !d.can[k].busOff && d.clocksOk
    && (!d.sup.warn || fld d.sup.pwrCfg 1 2 == k.val)

/-- A controller can send record frames: in a mode that has record streams, which SAFE with cause IMAGE_INVALID has not
(R307); from a power warning on they stand still (R385). -/
def Dev.canSends (d : Dev) (k : Fin 4) : Bool := d.canActive k && d.canMode && bit d.can[k].cfg 0 && !d.sup.warn

/-! ### Frames (R277) -/

def Stream.en (s : Stream) : Bool := bit s.cfg 0
def Stream.can (s : Stream) : Fin 4 := Fin.ofNat 4 (fld s.cfg 1 2)

/-- The consumer code of a stream in REC_RING_CFG. -/
def streamCode (i : Fin 2) : BitVec 2 := BitVec.ofNat 2 (i.val + 1)

/-- STALLED: the controller cannot transmit. -/
def Dev.stalled (i : Fin 2) (d : Dev) : Bool := let s := d.recm.streams[i]; s.en && !d.canSends s.can

/-- Whole records of a frame, and whether it is full: it holds FILL bytes, or the next record would not fit. -/
def takeFrame (fill : Nat) : Nat → List (Fin 12 × Stored) → List (Fin 12 × Stored) × Bool
  | _, [] => ([], false)
  | n, x :: l =>
    let m := n + x.2.size
    if 2040 < m then ([], true)
    else if fill ≤ m then ([x], true)
    else let (r, f) := takeFrame fill m l; (x :: r, f)

/-- A frame's records read, in order. -/
def Dev.readAll : List (Fin 12 × Stored) → Dev → List Byte × Dev
  | [], d => ([], d)
  | (t, s) :: l, d =>
    let (b, d) := d.readStored t s
    let (bs, d) := Dev.readAll l d
    (b ++ bs, d)

/-- A frame joins a controller's transmit queue; a controller that is bus-off queues nothing (R306). -/
def Dev.enqueue (k : Fin 4) (f : TxFrame) (d : Dev) : Dev :=
  d.modCan k fun c => if c.busOff then c else { c with txq := c.txq ++ [f] }

/-- The stream's frame is queued. -/
def Dev.queueStream (i : Fin 2) (l : List (Fin 12 × Stored)) (d : Dev) : Dev :=
  let s := d.recm.streams[i]
  let (body, d) := d.readAll l
  let head := put 0 8 1 ||| putB 8 (i == 1) ||| put 16 16 s.count.toNat ||| put 32 8 l.length
  let data := wordBytes head ++ body
  let frame : CanFrame :=
    { format := .xl, ide := false, id := BitVec.ofNat 29 (fld s.cfg 48 11), remote := false, brs := false
      sdt := BitVec.ofNat 8 (fld s.xl 0 8), vcid := BitVec.ofNat 8 (fld s.xl 8 8), af := BitVec.ofNat 32 (fld s.xl 32 32)
      data := data, sof := 0 }
  (d.enqueue s.can { src := .stream i, frame := frame, at_ := d.dtime }).modStream i fun s =>
    { s with queued := some (data.length, l.map fun x => (x.1, x.2.ord)), count := s.count + 1, firstAt := none }

/-- Assembly goes on: the first record's moment is kept, and a full frame is queued. -/
def Dev.assemble (i : Fin 2) (d : Dev) : Dev :=
  let s := d.recm.streams[i]
  if !s.en || s.queued.isSome then d
  else
    let (l, full) := takeFrame (fld s.cfg 8 11) 0 (d.pendingOf (streamCode i))
    if l.isEmpty then d.modStream i fun s => { s with firstAt := none }
    else
      let d := d.modStream i fun s => { s with firstAt := some (s.firstAt.getD d.dtime) }
      if full && d.canSends s.can then d.queueStream i l else d

def Dev.assembleBoth (d : Dev) : Dev := (d.assemble 0).assemble 1

/-- MAX_WAIT µs after the first record, what is there is queued. -/
def Dev.maxWait (i : Fin 2) (d : Dev) : Dev :=
  let s := d.recm.streams[i]
  match s.firstAt with
  | some t =>
    let l := (takeFrame (fld s.cfg 8 11) 0 (d.pendingOf (streamCode i))).1
    if s.en && s.queued.isNone && !l.isEmpty && decide (t + 1000 * fld s.cfg 32 16 ≤ d.dtime) && d.canSends s.can then
      d.queueStream i l
    else d
  | none => d

/-- A stream's frame waits in a transmit queue. -/
def Dev.streamWaits (i : Fin 2) (d : Dev) : Bool :=
  d.can.toList.any fun c => c.txq.any fun f => f.src == .stream i

/-- The controller has transmitted the queued frame (CAN_FRAME_TRANSMITTED took it from the queue): its records are
consumed. -/
def Dev.streamSent (i : Fin 2) (d : Dev) : Dev :=
  match d.recm.streams[i].queued with
  | some (len, recs) =>
    if d.streamWaits i then d
    else
      let d := recs.foldl (init := d) fun d x => d.consume x.1 x.2
      (d.modStream i fun s => { s with queued := none, frames := s.frames + 1, lastLen := BitVec.ofNat 12 len }).assemble i
  | none => d

/-! ### Registers of page 0x48 (R282) -/

def Dev.recIgn (d : Dev) : Dev := d.modRecm fun r => { r with cfgIgn := true }

/-- SIZE of a ring, by the loader: the rings follow one another from the start of record memory, and a ring whose place
or size changes starts empty (R274). -/
def Dev.ringSize (t : Fin 12) (n : Nat) (d : Dev) : Dev :=
  let old := d.recm.rings.toList.map Ring.size
  let sizes := old.set t.val n
  d.modRecm fun m => { m with rings := m.rings.mapFinIdx fun i (r : Ring) _ =>
    let base := ((sizes.take i).drop 1).sum
    let size := (sizes[i]?).getD 0
    if r.base = base ∧ r.size = size then r
    else { r with base := base, size := size, pending := [], wptr := 0, stopped := false } }

def Dev.wrRec (loader : Bool) (p : Path) (ofs : Nat) (v : W64) (d : Dev) : Dev :=
  let i := Fin.ofNat 2 (fld (d.ctx p).streamSel 0 1)
  match ofs with
  | 0x00 => d.modRecm fun r => { r with evFull := v.setWidth 8, cfgIgn := r.cfgIgn && !bit v 63 }
  | 0x08 => d.modCtx p fun c => { c with ringSel := v &&& 0xF }
  | 0x10 =>
    match d.selRing p with
    | some t => d.guarded (fld v 10 2 != 3 && (!loader || decide (fld v 0 9 ≤ 256))) Dev.recIgn fun d =>
        let d := if loader then d.ringSize t (fld v 0 9) else d
        (d.modRing t fun r => { r with policy := bit v 9, stream := (v >>> 10).setWidth 2 }).assembleBoth
    | none => d
  | 0x18 =>
    match d.selRing p with
    | some t => d.modRing t fun r => { r with lostSeen := r.lostSeen && !bit v 20 }
    | none => d
  | 0x28 =>
    let d := if bit v 0 then d.clearLost p else d
    if bit v 1 then d.discardRing p else d
  | 0x30 => d.modCtx p fun c => { c with streamSel := v &&& 1 }
  | 0x38 => d.guarded (decide (64 ≤ fld v 8 11) && decide (fld v 8 11 ≤ 2040) && fld v 32 16 != 0) Dev.recIgn fun d =>
      (d.modStream i fun s => { s with cfg := v &&& 0x07FFFFFF0007FF07, firstAt := if bit v 0 then s.firstAt else none }).assemble i
  | 0x40 => d.modStream i fun s => { s with xl := v &&& 0xFFFFFFFF0000FFFF }
  | _ => d

/-- SEQ of the oldest pending record, or of the next one when nothing is pending. -/
def Ring.cons (r : Ring) : Nat :=
  match r.pending with
  | s :: _ => fld (s.words.headD 0) 32 32
  | [] => r.next.toNat

def Dev.rdRec (p : Path) (ofs : Nat) (d : Dev) : W64 :=
  let s := d.recm.streams[Fin.ofNat 2 (fld (d.ctx p).streamSel 0 1)]
  let ring (f : Ring → W64) : W64 := match d.selRing p with | some t => f d.recm.rings[t] | none => 0
  match ofs with
  | 0x00 => put 0 8 d.recm.evFull.toNat ||| putB 63 d.recm.cfgIgn
  | 0x08 => (d.ctx p).ringSel
  | 0x10 => ring fun r => put 0 9 r.size ||| putB 9 r.policy ||| put 10 2 r.stream.toNat ||| put 32 9 r.base
  | 0x18 => ring fun r => put 0 19 r.used ||| putB 19 r.stopped ||| putB 20 r.lostSeen ||| put 32 32 r.lost.toNat
  | 0x20 => ring fun r => put 0 32 r.next.toNat ||| put 32 32 r.cons
  | 0x30 => (d.ctx p).streamSel
  | 0x38 => s.cfg
  | 0x40 => s.xl
  | 0x48 => put 0 32 s.frames.toNat ||| put 32 12 s.lastLen.toNat ||| putB 48 (d.stalled (Fin.ofNat 2 (fld (d.ctx p).streamSel 0 1)))
  | 0x50 => put 0 19 d.logPending ||| put 32 32 d.recm.logRead.toNat
  | _ => 0

/-! ### The commands -/

/-- RECORD_WRITE (R268): one record, and the streams' assembly. -/
def execRecordWrite (t : Ns) (s : State) : Host.Outcome State Fault Refusal :=
  runAt t (fun _ d => d.recordStep.assembleBoth) s

/-- STREAM_MAX_WAIT (R277). -/
def execStreamMaxWait (t : Ns) (i : Fin 2) (s : State) : Host.Outcome State Fault Refusal :=
  runAt t (fun _ d => d.maxWait i) s

/-- STREAM_FRAME_TRANSMITTED (R277). -/
def execStreamFrameTransmitted (t : Ns) (i : Fin 2) (s : State) : Host.Outcome State Fault Refusal :=
  runAt t (fun _ d => d.streamSent i) s

end Sys2Proof.Machine
end

