-- ==== Sys2Proof/Machine/PioM.lean ====
section
/-! DEFINITION. The PIO machines (R294 to R303) and the registers of page 0x54 (R304). A command of an instruction
executes the instruction that machine m has at its next step, if it is that one. -/

namespace Sys2Proof.Machine

def Dev.modPio (m : Fin 8) (f : Pio → Pio) (d : Dev) : Dev := { d with pio := upd d.pio m f }
def Dev.modPios (f : PioShared → PioShared) (d : Dev) : Dev := { d with pios := f d.pios }

/-! ### Instruction words (R297) -/

/-- Bits `lo` to `lo + n − 1` of an instruction. -/
def pf (w : BitVec 16) (lo n : Nat) : Nat := (w.toNat >>> lo) % 2 ^ n

/-- A word that keeps to the table of R297. -/
def pioWordOk (w : BitVec 16) : Bool :=
  match pf w 12 4 with
  | 0 => decide (pf w 9 3 ≤ 4) && pf w 4 3 == 0 && (!(pf w 9 3 == 2 || pf w 9 3 == 3) || decide (pf w 0 4 < 8))
  | 1 => pf w 9 1 == 0
  | 2 | 3 => decide (pf w 0 5 ≤ 16) && pf w 5 7 == 0
  | 4 | 5 => pf w 1 2 != 3 && pf w 3 9 == 0
  | 6 => pf w 6 6 == 0
  | 7 => pf w 9 3 == 0
  | 8 => pf w 2 10 == 0
  | 9 => pf w 4 8 == 0
  | 10 | 11 => true
  | _ => false

/-! ### Running (R295, R303) -/

def Mode.pio : Mode → Bool
  | .reset | .fill | .bivouac | .locked => false
  | _ => true

def Dev.pioRuns (d : Dev) (m : Fin 8) : Bool := d.pio[m].run && d.sup.mode.pio

/-- Steps that the phase accumulator has given since RUN was set (R295). -/
def Pio.steps (x : Pio) (now : Ns) : Nat := ((now - x.runAt) / 4) * fld x.cfg 16 25 / 2 ^ 24

/-- The instruction of the machine's next step: an injected one, or the one at PC. -/
def Dev.pioWord (d : Dev) (m : Fin 8) : BitVec 16 :=
  let x := d.pio[m]
  match x.inject with
  | some w => w
  | none => (d.pios.areas[Fin.ofNat 8 (fld x.cfg 0 3)][x.pc.toNat]?).getD 0

/-- The instruction is over: PC passes on, unless it was injected (R302). -/
def Pio.done (x : Pio) : Pio :=
  { x with pc := if x.inject.isSome then x.pc else x.pc + 1, inject := none, wait := .none }

def Pio.jump (t : Nat) (x : Pio) : Pio := { x with pc := BitVec.ofNat 6 t, inject := none, wait := .none }

/-- The fetch of the instruction at PC from system memory; an uncorrectable error is MEM_UE_SYS (R294, R407). An injected
instruction is not fetched. -/
def Dev.pioFetch (m : Fin 8) (d : Dev) : Bool × Dev :=
  let x := d.pio[m]
  if x.inject.isSome then (false, d)
  else
    let (bad, d) := d.readWord 15 (Config.pioWordAt (8 * fld x.cfg 0 3 + x.pc.toNat / 8)).val
    (bad, if bad then d.raiseSys else d)

/-- A step of the machine is due that it has not taken: its accumulator has overflowed since the last one (R295). -/
def Dev.pioStep (d : Dev) (m : Fin 8) : Bool := d.pioRuns m && decide (d.pio[m].step < d.pio[m].steps d.dtime)

/-- The step is taken. -/
def Dev.tookStep (m : Fin 8) (d : Dev) : Dev := d.modPio m fun x => { x with step := x.steps d.dtime }

/-- A machine that does not wait executes an instruction of one kind in a step of its own. -/
def Dev.pioExec (m : Fin 8) (op : Nat) (f : BitVec 16 → Dev → Dev) (d : Dev) : Dev :=
  let w := d.pioWord m
  if d.pioStep m && d.pio[m].wait == .none && pf w 12 4 == op then
    let (bad, d) := d.pioFetch m
    if bad then d else (d.tookStep m).watchPins (f w)
  else d

/-! ### Lanes and pins (R296) -/

def Pio.lanePin (x : Pio) (lane : Nat) : Nat := fld x.lanes (4 * lane) 4

def Dev.lane (d : Dev) (m : Fin 8) (lane : Nat) : Bool := d.pinLevel (d.pio[m].lanePin lane)

/-- The levels driven from outside, as a command shows them. -/
def Dev.see (levels : BitVec 16) (d : Dev) : Dev :=
  d.watchPins fun d => (List.range 16).foldl (init := d) fun d n => d.showPin n (levels.getLsbD n)

/-- Machine `m` may write a pin through a lane. -/
def Dev.mayDrive' (d : Dev) (m : Fin 8) (lane : Nat) : Bool :=
  let n := d.pio[m].lanePin lane
  bit d.pio[m].laneCfg lane && bit d.pios.own (4 * n + 3) && fld d.pios.own (4 * n) 3 == m.val && (d.tmuPin n).isNone

def setBit {w : Nat} (v : BitVec w) (i : Nat) (b : Bool) : BitVec w :=
  if b then v ||| BitVec.ofNat w (2 ^ i) else v &&& ~~~(BitVec.ofNat w (2 ^ i))

/-- Level, or direction, written to the pin of a lane. -/
def Dev.driveLane (m : Fin 8) (lane : Nat) (dir b : Bool) (d : Dev) : Dev :=
  if d.mayDrive' m lane then
    let n := d.pio[m].lanePin lane
    d.modPios fun s => if dir then { s with dir := setBit s.dir n b } else { s with out := setBit s.out n b }
  else d

/-! ### Queues (R296, R300, R301) -/

def Pio.qmode (x : Pio) : Nat := fld x.cfg 41 2
def Pio.txCap (x : Pio) : Nat := match x.qmode with | 1 => 8 | 2 => 0 | _ => 4
def Pio.rxCap (x : Pio) : Nat := match x.qmode with | 2 => 8 | 1 => 0 | _ => 4

/-- A word taken into its destination. -/
def Pio.takeWord (w : BitVec 16) (x : Pio) : Pio :=
  match x.tx with
  | [] => x
  | v :: l =>
    let x := { x with tx := l }
    match pf w 1 2 with
    | 0 => { x with ow := v, ocnt := 32 }
    | 1 => { x with x := v }
    | 2 => { x with y := v }
    | _ => x

/-- A word given or stamped reaches the receive slot, or the receive queue; the answer says whether it found room. -/
def Dev.push (e : Env) (m : Fin 8) (v : W32) (d : Dev) : Bool × Dev :=
  let x := d.pio[m]
  if bit x.rxSlot 14 then
    (true, (d.hwSlot e (fld x.rxSlot 0 14) (v.setWidth 64) 1).modPio m fun x => { x with lastRx := d.dtime, stale := false })
  else if x.rx.length < x.rxCap then (true, d.modPio m fun x => { x with rx := x.rx ++ [v] })
  else (false, d)

/-- What GIVE or STAMP pushes; GIVE of the input word clears it. -/
def Pio.given (w : BitVec 16) (stamp : Option W32) (x : Pio) : W32 :=
  match stamp with
  | some v => v
  | none => match pf w 1 2 with | 0 => x.iw | 1 => x.x | _ => x.y

def Pio.gone (w : BitVec 16) (x : Pio) : Pio :=
  if pf w 12 4 = 5 ∧ pf w 1 2 = 0 then { x with iw := 0, icnt := 0 } else x

/-- GIVE or STAMP. -/
def Dev.pioGive (e : Env) (m : Fin 8) (w : BitVec 16) (stamp : Option W32) (d : Dev) : Dev :=
  let (ok, d) := d.push e m (d.pio[m].given w stamp)
  if ok then d.modPio m fun x => (x.gone w).done
  else
    d.modPio m fun x =>
      let x := { x with pileup := true, pileups := x.pileups + 1 }
      if pf w 0 1 = 1 then { x with wait := .block stamp } else (x.gone w).done

def Dev.pioTake (m : Fin 8) (w : BitVec 16) (d : Dev) : Dev :=
  d.modPio m fun x =>
    if x.tx.isEmpty then
      let x := { x with runout := true, runouts := x.runouts + 1 }
      if pf w 0 1 = 1 then { x with wait := .block none } else x.done
    else (x.takeWord w).done

/-- A blocked TAKE, GIVE or STAMP completes (R300). -/
def Dev.pioBlockEnd (e : Env) (m : Fin 8) (d : Dev) : Dev :=
  let w := d.pioWord m
  match d.pio[m].wait with
  | .block v =>
    if !d.pioStep m then d
    else
      let d := d.tookStep m
      if pf w 12 4 = 4 then
        (if d.pio[m].tx.isEmpty then d else d.modPio m fun x => (x.takeWord w).done)
      else
        let (ok, d') := d.push e m (d.pio[m].given w v)
        if ok then d'.modPio m fun x => (x.gone w).done else d
  | _ => d

/-! ### HOLD (R298) -/

/-- The angle of Y is reached. -/
def Dev.pioAngle (d : Dev) (y : W32) : Bool :=
  d.pos.synced && decide (y.toNat < d.pos.wheel.cycLen) && d.pos.wheel.reached (d.poswAt d.dtime).2 y.toNat

/-- A flag or line is set, or was cleared in this same clock by a HOLD with CLR. -/
def Dev.flagSeen (d : Dev) (line : Bool) (i : Nat) : Bool :=
  let s := d.pios
  let now := if line then s.lines else s.flags
  let clr := if line then s.clrLines else s.clrFlags
  now.getLsbD i || (s.clrAt == d.dtime && clr.getLsbD i)

/-- A flag or line is cleared by a HOLD. -/
def Dev.holdClear (line : Bool) (i : Nat) (d : Dev) : Dev :=
  d.modPios fun s =>
    let keep := s.clrAt == d.dtime
    let f := if keep then s.clrFlags else 0
    let l := if keep then s.clrLines else 0
    if line then { s with lines := setBit s.lines i false, clrAt := d.dtime, clrFlags := f, clrLines := setBit l i true }
    else { s with flags := setBit s.flags i false, clrAt := d.dtime, clrLines := l, clrFlags := setBit f i true }

/-- The condition of a HOLD, given the level of its lane when last seen. -/
def Dev.holdMet (m : Fin 8) (w : BitVec 16) (last : Option Bool) (d : Dev) : Bool :=
  let pol := pf w 8 1 == 1
  let i := pf w 0 4
  match pf w 9 3 with
  | 0 => d.lane m i == pol
  | 1 => match last with | some b => d.lane m i == pol && b != pol | none => false
  | 2 => d.flagSeen false i
  | 3 => d.flagSeen true i
  | _ => d.pioAngle d.pio[m].y

/-- The machine passes its HOLD. -/
def Dev.holdPass (m : Fin 8) (w : BitVec 16) (d : Dev) : Dev :=
  let src := pf w 9 3
  let d := if pf w 7 1 = 1 ∧ (src = 2 ∨ src = 3) then d.holdClear (src == 3) (pf w 0 4) else d
  d.modPio m Pio.done

def Dev.pioHold (m : Fin 8) (w : BitVec 16) (d : Dev) : Dev :=
  if d.holdMet m w none then d.holdPass m w
  else d.modPio m fun x => { x with wait := .hold (d.lane m (pf w 0 4)) }

def Dev.pioHoldEnd (m : Fin 8) (d : Dev) : Dev :=
  let w := d.pioWord m
  match d.pio[m].wait with
  | .hold last =>
    if !d.pioStep m then d
    else
      let d := d.tookStep m
      if d.holdMet m w (some last) then d.holdPass m w
      else d.modPio m fun x => { x with wait := .hold (d.lane m (pf w 0 4)) }
  | _ => d

/-! ### The other instructions (R297) -/

def Dev.pioDriveOp (m : Fin 8) (w : BitVec 16) (d : Dev) : Dev :=
  let v := if pf w 10 1 = 1 then d.pio[m].x.toNat % 256 else pf w 0 8
  let base := 8 * pf w 8 1
  ((List.range 8).foldl (init := d) fun d j => d.driveLane m (base + j) (pf w 11 1 == 1) (v.testBit j)).modPio m Pio.done

def Dev.pioSampleOp (m : Fin 8) (w : BitVec 16) (d : Dev) : Dev :=
  let n := pf w 0 5
  let msb := bit d.pio[m].cfg 43
  let levels := (List.range n).map fun i => d.lane m i
  d.modPio m fun x =>
    { x with
      iw := levels.foldl (init := x.iw) fun a b => if msb then setBit (a >>> 1) 31 b else setBit (a <<< 1) 0 b
      icnt := min 32 (x.icnt + n) }.done

/-- `n` bits out of the output word, first bit first, and the word after them. -/
def shiftOut (msb : Bool) : Nat → W32 → List Bool × W32
  | 0, a => ([], a)
  | n + 1, a =>
    let b := if msb then a.getLsbD 31 else a.getLsbD 0
    let (l, r) := shiftOut msb n (if msb then a <<< 1 else a >>> 1)
    (b :: l, r)

def Dev.pioShiftOp (m : Fin 8) (w : BitVec 16) (d : Dev) : Dev :=
  let n := pf w 0 5
  let x := d.pio[m]
  let (bits, rest) := shiftOut (bit x.cfg 44) n x.ow
  let d := (bits.zipIdx).foldl (init := d) fun d b => d.driveLane m b.2 false b.1
  d.modPio m fun x => { x with ow := rest, ocnt := x.ocnt - n }.done

def Dev.pioCountOp (m : Fin 8) (w : BitVec 16) (d : Dev) : Dev :=
  d.modPio m fun x => if x.x = 0 then x.jump (pf w 0 6) else { x with x := x.x - 1 }.done

def Dev.pioGoOp (m : Fin 8) (w : BitVec 16) (d : Dev) : Dev :=
  let x := d.pio[m]
  let c := match pf w 6 3 with
    | 0 => true
    | 1 => x.x == 0
    | 2 => x.x != 0
    | 3 => x.y == 0
    | 4 => decide (x.x.toNat < x.y.toNat)
    | 5 => d.lane m (fld x.laneCfg 16 4)
    | 6 => x.ocnt == 0
    | _ => x.icnt == 32
  d.modPio m fun x => if c then x.jump (pf w 0 6) else x.done

/-- The value of a STAMP in this step. -/
def Dev.stampVal (w : BitVec 16) (d : Dev) : W32 :=
  if pf w 1 1 = 0 then d.now32
  else if d.pos.synced then BitVec.ofNat 32 (d.poswAt d.dtime).2 else 0xFFFFFFFF

def Dev.pioRaiseOp (m : Fin 8) (w : BitVec 16) (d : Dev) : Dev :=
  (if pf w 3 1 = 1 then d.raiseLine (pf w 0 3) else d.raiseFlag (pf w 0 3)).modPio m Pio.done

def Dev.pioLoadOp (m : Fin 8) (w : BitVec 16) (d : Dev) : Dev :=
  let v := BitVec.ofNat 32 (pf w 0 11)
  d.modPio m fun x => if pf w 11 1 = 1 then { x with y := v }.done else { x with x := v }.done

def Dev.pioPauseOp (m : Fin 8) (w : BitVec 16) (d : Dev) : Dev :=
  let n := pf w 0 12
  d.modPio m fun x => if n = 0 then x.done else { x with wait := .pause (x.steps d.dtime + n) }

def Dev.pioPauseEnd (m : Fin 8) (d : Dev) : Dev :=
  match d.pio[m].wait with
  | .pause s => if d.pioRuns m && decide (s ≤ d.pio[m].steps d.dtime) then d.modPio m fun x => { x with step := s }.done else d
  | _ => d

/-! ### From outside the program (R299 to R303) -/

def Dev.pioSelOf (d : Dev) (p : Path) : Fin 8 := Fin.ofNat 8 (fld (d.ctx p).pioSel 0 3)

def Dev.pioInject (m : Fin 8) (w : BitVec 16) (d : Dev) : Dev :=
  let x := d.pio[m]
  if !d.pioRuns m || x.inject.isSome || !pioWordOk w then d.modPio m fun x => { x with injIgn := true }
  else d.modPio m fun x => { x with inject := some w, wait := .none }

/-- RUN written: on a start the accumulator is cleared and an interrupted instruction starts afresh. ENTRY is the first
instruction of a machine that has been set up and not run since (R294; a later start goes on at PC: DEDUCED, assumption
64). -/
def Dev.pioRun (m : Fin 8) (run : Bool) (d : Dev) : Dev :=
  d.modPio m fun x =>
    if run && !x.run then
      { x with run := true, runAt := d.dtime, step := 0, wait := .none, inject := none, fresh := false
               pc := if x.fresh then BitVec.ofNat 6 (fld x.cfg 8 6) else x.pc }
    else { x with run := run }

def Dev.pioRestart (m : Fin 8) (d : Dev) : Dev :=
  d.modPio m fun x =>
    { x with pc := BitVec.ofNat 6 (fld x.cfg 8 6), ow := 0, ocnt := 0, iw := 0, icnt := 0, wait := .none, inject := none }

/-- A word pushed into the transmit queue; the answer says whether it found room. -/
def Dev.txPush (m : Fin 8) (v : W32) (d : Dev) : Bool × Dev :=
  let x := d.pio[m]
  if x.tx.length < x.txCap then (true, d.modPio m fun x => { x with tx := x.tx ++ [v] }) else (false, d)

def Dev.txqWrite (m : Fin 8) (v : W32) (d : Dev) : Dev :=
  let (ok, d) := d.txPush m v
  if ok then d else d.modPio m fun x => { x with hostLost := x.hostLost + 1 }

/-- A read of PIO_RXQ takes one word. -/
def Dev.rxqRead (m : Fin 8) (d : Dev) : W64 × Dev :=
  match d.pio[m].rx with
  | [] => (0, d)
  | v :: l => (put 0 32 v.toNat ||| putB 32 true, d.modPio m fun x => { x with rx := l })

def Dev.flagSet (v : W64) (d : Dev) : Dev :=
  (List.range 8).foldl (init := d) fun d i => if bit v i then d.raiseFlag i else d

/-- The receive slot becomes STALE (R301). -/
def Dev.pioStale (m : Fin 8) (d : Dev) : Dev :=
  let x := d.pio[m]
  let t := fld x.rxSlot 16 16
  if bit x.rxSlot 14 && t != 0 && !x.stale && decide (x.lastRx + 1000 * t ≤ d.dtime) then
    (d.staleSlot (fld x.rxSlot 0 14)).modPio m fun x => { x with stale := true }
  else d

/-! ### Registers (R304) -/

def Dev.pioIgn (m : Fin 8) (d : Dev) : Dev := d.modPio m fun x => { x with cfgIgn := true }

def Dev.wrPio (loader : Bool) (p : Path) (ofs : Nat) (v : W64) (d : Dev) : Dev :=
  let m := d.pioSelOf p
  let x := d.pio[m]
  let cfg (ok : Bool) (f : Pio → Pio) : Dev := d.guarded (ok && (loader || !x.run)) (Dev.pioIgn m) (Dev.modPio m f)
  match ofs with
  | 0x00 => d.modCtx p fun c => { c with pioSel := v &&& 7 }
  | 0x08 => cfg (fld v 16 25 != 0 && decide (fld v 16 25 ≤ 2 ^ 24) && fld v 41 2 != 3) fun x =>
      let x := { x with cfg := v &&& 0x1FFFFFFF3F07 }
      { x with tx := x.tx.take x.txCap, rx := x.rx.take x.rxCap }
  | 0x10 => cfg true fun x => { x with lanes := v }
  | 0x18 =>
    let d := d.pioRun m (bit v 0)
    if bit v 1 then d.pioRestart m else d
  | 0x20 => d.modPio m fun x =>
      { x with runout := x.runout && !bit v 16, pileup := x.pileup && !bit v 17, injIgn := x.injIgn && !bit v 18
               cfgIgn := x.cfgIgn && !bit v 19 }
  | 0x30 => d.txqWrite m (v.setWidth 32)
  | 0x40 => d.pioInject m (v.setWidth 16)
  | 0x48 => d.guarded loader (Dev.pioIgn m) (Dev.modPio m fun x => { x with rxSlot := v &&& 0xFFFF7FFF, lastRx := d.dtime, stale := false })
  | 0x60 => d.modPios fun s => { s with flags := s.flags &&& ~~~(v.setWidth 8) }
  | 0x68 => d.flagSet v
  | 0x70 => cfg true fun x => { x with laneCfg := v &&& 0xFFFFF }
  | 0x78 => d.guarded (loader || d.pio.toList.all fun (y : Pio) => !y.run) (Dev.pioIgn m) (Dev.modPios fun s => { s with own := v })
  | _ => d

def Dev.rdPio (p : Path) (ofs : Nat) (d : Dev) : W64 × Dev :=
  let m := d.pioSelOf p
  let x := d.pio[m]
  let s := d.pios
  match ofs with
  | 0x00 => ((d.ctx p).pioSel, d)
  | 0x08 => (x.cfg, d)
  | 0x10 => (x.lanes, d)
  | 0x18 => (putB 0 x.run, d)
  | 0x20 => (put 0 6 x.pc.toNat ||| putB 6 (x.wait != .none) ||| put 8 4 x.tx.length ||| put 12 4 x.rx.length ||| putB 16 x.runout
      ||| putB 17 x.pileup ||| putB 18 x.injIgn ||| putB 19 x.cfgIgn ||| put 20 6 x.ocnt ||| put 26 6 x.icnt, d)
  | 0x28 => (put 0 32 x.x.toNat ||| put 32 32 x.y.toNat, d)
  | 0x38 => d.rxqRead m
  | 0x48 => (x.rxSlot, d)
  | 0x50 => (put 0 16 x.runouts.toNat ||| put 16 16 x.pileups.toNat ||| put 32 16 x.hostLost.toNat, d)
  | 0x58 =>
    let tmu : W64 := bitsOf fun n : Fin 16 => (d.tmuPin n.val).isSome
    ((bitsOf fun n : Fin 16 => d.pinLevel n.val) ||| (put 0 16 s.dir.toNat ||| tmu) <<< 16 ||| tmu <<< 32, d)
  | 0x60 => (put 0 8 s.flags.toNat ||| put 8 8 s.lines.toNat ||| put 32 16 s.merged.toNat, d)
  | 0x70 => (x.laneCfg, d)
  | 0x78 => (s.own, d)
  | _ => (0, d)

/-! ### The commands -/

/-- HOLD (R298). -/
def execHold (t : Ns) (m : Fin 8) (levels : BitVec 16) (s : State) : Host.Outcome State Fault Refusal :=
  runAt t (fun _ d => (d.see levels).pioExec m 0 fun w d => d.pioHold m w) s

/-- PIO_HOLD_END (R298). -/
def execPioHoldEnd (t : Ns) (m : Fin 8) (levels : BitVec 16) (s : State) : Host.Outcome State Fault Refusal :=
  runAt t (fun _ d => (d.see levels).pioHoldEnd m) s

/-- PIO_DRIVE (R297). -/
def execPioDrive (t : Ns) (m : Fin 8) (s : State) : Host.Outcome State Fault Refusal :=
  runAt t (fun _ d => d.pioExec m 1 fun w d => d.pioDriveOp m w) s

/-- PIO_SAMPLE (R297). -/
def execPioSample (t : Ns) (m : Fin 8) (levels : BitVec 16) (s : State) : Host.Outcome State Fault Refusal :=
  runAt t (fun _ d => (d.see levels).pioExec m 2 fun w d => d.pioSampleOp m w) s

/-- SHIFT (R297). -/
def execShift (t : Ns) (m : Fin 8) (s : State) : Host.Outcome State Fault Refusal :=
  runAt t (fun _ d => d.pioExec m 3 fun w d => d.pioShiftOp m w) s

/-- TAKE (R300). -/
def execTake (t : Ns) (m : Fin 8) (s : State) : Host.Outcome State Fault Refusal :=
  runAt t (fun _ d => d.pioExec m 4 fun w d => d.pioTake m w) s

/-- GIVE (R300). -/
def execGive (t : Ns) (m : Fin 8) (s : State) : Host.Outcome State Fault Refusal :=
  runAt t (fun e d => d.pioExec m 5 fun w d => d.pioGive e m w none) s

/-- PIO_BLOCK_END (R300). -/
def execPioBlockEnd (t : Ns) (m : Fin 8) (s : State) : Host.Outcome State Fault Refusal :=
  runAt t (fun e d => d.pioBlockEnd e m) s

/-- COUNT (R297). -/
def execCount (t : Ns) (m : Fin 8) (s : State) : Host.Outcome State Fault Refusal :=
  runAt t (fun _ d => d.pioExec m 6 fun w d => d.pioCountOp m w) s

/-- GO (R297). -/
def execGo (t : Ns) (m : Fin 8) (levels : BitVec 16) (s : State) : Host.Outcome State Fault Refusal :=
  runAt t (fun _ d => (d.see levels).pioExec m 7 fun w d => d.pioGoOp m w) s

/-- STAMP (R298). -/
def execStamp (t : Ns) (m : Fin 8) (s : State) : Host.Outcome State Fault Refusal :=
  runAt t (fun e d => d.pioExec m 8 fun w d => d.pioGive e m w (some (d.stampVal w))) s

/-- RAISE (R299). -/
def execRaise (t : Ns) (m : Fin 8) (s : State) : Host.Outcome State Fault Refusal :=
  runAt t (fun _ d => d.pioExec m 9 fun w d => d.pioRaiseOp m w) s

/-- LOAD (R297). -/
def execLoad (t : Ns) (m : Fin 8) (s : State) : Host.Outcome State Fault Refusal :=
  runAt t (fun _ d => d.pioExec m 10 fun w d => d.pioLoadOp m w) s

/-- PAUSE (R295). -/
def execPause (t : Ns) (m : Fin 8) (s : State) : Host.Outcome State Fault Refusal :=
  runAt t (fun _ d => d.pioExec m 11 fun w d => d.pioPauseOp m w) s

/-- PIO_PAUSE_END (R295). -/
def execPioPauseEnd (t : Ns) (m : Fin 8) (s : State) : Host.Outcome State Fault Refusal :=
  runAt t (fun _ d => d.pioPauseEnd m) s

/-- PIO_INJECT (R302). -/
def execPioInject (t : Ns) (p : Path) (v : W64) (s : State) : Host.Outcome State Fault Refusal :=
  runBy t p (fun _ d => d.pioInject (d.pioSelOf p) (v.setWidth 16)) s

/-- PIO_RUN (R295). -/
def execPioRun (t : Ns) (p : Path) (run : Bool) (s : State) : Host.Outcome State Fault Refusal :=
  runBy t p (fun _ d => d.pioRun (d.pioSelOf p) run) s

/-- PIO_RESTART (R303). -/
def execPioRestart (t : Ns) (p : Path) (s : State) : Host.Outcome State Fault Refusal :=
  runBy t p (fun _ d => d.pioRestart (d.pioSelOf p)) s

/-- PIO_TXQ_WRITE (R300). -/
def execPioTxqWrite (t : Ns) (p : Path) (v : W64) (s : State) : Host.Outcome State Fault Refusal :=
  runBy t p (fun _ d => d.txqWrite (d.pioSelOf p) (v.setWidth 32)) s

/-- PIO_RXQ_READ (R300): the word is taken. -/
def execPioRxqRead (t : Ns) (p : Path) (s : State) : Host.Outcome State Fault Refusal :=
  runAt t (fun _ d => (d.rxqRead (d.pioSelOf p)).2) s

/-- PIO_FLAG_SET (R299). -/
def execPioFlagSet (t : Ns) (p : Path) (v : W64) (s : State) : Host.Outcome State Fault Refusal :=
  runBy t p (fun _ d => d.flagSet v) s

/-- PIO_SLOT_STALE (R301). -/
def execPioSlotStale (t : Ns) (m : Fin 8) (s : State) : Host.Outcome State Fault Refusal :=
  runAt t (fun _ d => d.pioStale m) s

end Sys2Proof.Machine
end

