-- ==== Sys2Proof/Machine/Net.lean ====
section
/-! DEFINITION. The CAN controllers' message objects, transmit queues and error states (R305 to R317), and the registers
of pages 0x58 to 0x5B (R330). The service channel is in `Service`. -/

namespace Sys2Proof.Machine

def canCtrl (k : Fin 4) : BitVec 16 := ctrl 6 k.val 0xFF

def Dev.canIgn (k : Fin 4) (d : Dev) : Dev := d.modCan k fun c => { c with cfgIgn := true }

/-! ### The message table (R309 to R311) -/

def msgAddr (k : Fin 4) (rel : Nat) : Nat := msgBase + 0x8000 * k.val + rel

def Env.msg (e : Env) (k : Fin 4) (rel : Nat) : W64 := e.mems.word (msgAddr k rel)

/-- A message object. -/
structure Obj where
  w0 : W64
  w1 : W64
  w2 : W64
  w3 : W64
  deriving DecidableEq, Repr

def Env.obj (e : Env) (k : Fin 4) (i : Nat) : Obj :=
  { w0 := e.msg k (32 * i), w1 := e.msg k (32 * i + 8), w2 := e.msg k (32 * i + 16), w3 := e.msg k (32 * i + 24) }

def Obj.kind (o : Obj) : Nat := fld o.w0 0 2
def Obj.format (o : Obj) : Nat := fld o.w0 2 2
def Obj.len (o : Obj) : Nat := fld o.w0 8 12
def Obj.time (o : Obj) : Nat := fld o.w2 0 24 * 100000
def Obj.inhibit (o : Obj) : Nat := fld o.w3 16 16 * 100000
def Obj.buf (o : Obj) : Nat := 0x6000 + 8 * fld o.w3 0 10
/-- Indices of the object's signal descriptors. -/
def Obj.sigs (o : Obj) : List Nat := (List.range (fld o.w2 44 11)).map (fld o.w2 32 11 + ·)

def Env.sig (e : Env) (k : Fin 4) (n : Nat) : W64 := e.msg k (0x1000 + 8 * n)
def Env.scale (e : Env) (k : Fin 4) (n : Nat) : Int × Int :=
  ((e.msg k (0x5000 + 16 * n)).toInt, (e.msg k (0x5000 + 16 * n + 8)).toInt)

/-- Words of message memory met with an uncorrectable error: MEM_UE_MSG, and the frame is skipped (R407). -/
def Dev.msgBad (k : Fin 4) (rels : List Nat) (d : Dev) : Bool × Dev :=
  if d.memu.errs.isEmpty then (false, d)
  else
    rels.foldl (init := (false, d)) fun acc rel =>
      let (bad, d) := acc.2.readAt (msgAddr k rel)
      if bad then (true, d.raise { source := 25, detail := 11 + k.val, ctrl := canCtrl k, coord := d.noEvent })
      else (acc.1, d)

def objWords (i : Nat) : List Nat := [32 * i, 32 * i + 16]

/-- Descriptors and scale entries of an object. -/
def Env.sigWords (e : Env) (k : Fin 4) (o : Obj) : List Nat :=
  o.sigs.flatMap fun n => [0x1000 + 8 * n, 0x5000 + 16 * fld (e.sig k n) 40 8]

/-! ### Object status -/

def Can.obj (c : Can) (i : Nat) : ObjStat := ((c.objs.find? (·.1 == i)).map (·.2)).getD {}

def objPut (l : List (Nat × ObjStat)) (i : Nat) (x : ObjStat) : List (Nat × ObjStat) :=
  match l with
  | [] => [(i, x)]
  | (k, y) :: t => if i < k then (i, x) :: (k, y) :: t else if i = k then (i, x) :: t else (k, y) :: objPut t i x

def Dev.modObj (k : Fin 4) (i : Nat) (f : ObjStat → ObjStat) (d : Dev) : Dev :=
  d.modCan k fun c => { c with objs := objPut c.objs i (f (c.obj i)) }

/-! ### Signals (R311, R314, R316) -/

/-- Payload bit of bit `i` of a signal. -/
def sigBit (w : W64) (i : Nat) : Option Nat :=
  let start := fld w 0 14
  if bit w 20 then
    let j := start % 8 + i
    if j / 8 ≤ start / 8 then some (8 * (start / 8 - j / 8) + j % 8) else none
  else some (start + i)

def sigLen (w : W64) : Nat := fld w 14 6 + 1

def payloadBit (l : List Byte) (b : Nat) : Bool := ((l[b / 8]?).getD 0).getLsbD (b % 8)

/-- The raw value of a signal in a payload. -/
def sigRaw (w : W64) (l : List Byte) : Int :=
  let n := sigLen w
  let v := (List.range n).foldl (init := 0) fun a i =>
    match sigBit w i with
    | some b => if payloadBit l b then a + 2 ^ i else a
    | none => a
  if bit w 21 then signed n v else v

/-- A raw value put into a payload. -/
def sigPut (w : W64) (raw : Nat) (l : List Byte) : List Byte :=
  (List.range (sigLen w)).foldl (init := l) fun l i =>
    match sigBit w i with
    | some b => l.modify (b / 8) fun x => setBit x (b % 8) (raw.testBit i)
    | none => l

/-- `a / b` rounded half up. -/
def ratRound (a b : Int) : Int := if b = 0 then 0 else if b < 0 then divRound (-a) (-b).toNat else divRound a b.toNat

/-- A value packed: the field's bits, and whether it saturated. -/
def sigPack (w : W64) (scale : Int × Int) (v : Int) : Nat × Bool :=
  let n := sigLen w
  let r := ratRound (v - scale.2) scale.1
  let lo : Int := if bit w 21 then -(2 ^ (n - 1) : Int) else 0
  let hi : Int := if bit w 21 then 2 ^ (n - 1) - 1 else 2 ^ n - 1
  let c := clampI lo hi r
  ((c % (2 ^ n : Int)).toNat, decide (c ≠ r))

/-! ### Receiving (R313 to R315) -/

/-- The receive objects act. -/
def Dev.objMode (d : Dev) (k : Fin 4) : Bool := d.canActive k && d.sup.mode.messages && !d.canRecovery k

def formatCode : CanFormat → Nat
  | .classical => 0 | .fd => 1 | .xl => 2

/-- A frame matches a receive object. -/
def Obj.matches_ (o : Obj) (f : CanFrame) : Bool :=
  o.kind == 1 && o.format == formatCode f.format && (f.format == .xl || bit o.w0 4 == f.ide)
    && ((f.id ^^^ BitVec.ofNat 29 (fld o.w0 32 29)) &&& BitVec.ofNat 29 (fld o.w1 0 29)) == 0
    && (f.format != .xl || !bit o.w1 48 || f.sdt.toNat == fld o.w1 32 8)
    && (f.format != .xl || !bit o.w1 49 || f.vcid.toNat == fld o.w1 40 8)

/-- The first receive object that a frame matches, in ascending index; a damaged object is skipped. -/
def Dev.findObj (e : Env) (k : Fin 4) (f : CanFrame) : List Nat → Dev → Option Nat × Dev
  | [], d => (none, d)
  | i :: l, d =>
    let (bad, d) := d.msgBad k (objWords i)
    if !bad && (e.obj k i).matches_ f then (some i, d) else d.findObj e k f l

/-- One received signal written to its slot. -/
def Dev.unpackSig (e : Env) (k : Fin 4) (payload : List Byte) (n : Nat) (d : Dev) : Dev :=
  let w := e.sig k n
  let (f, o) := e.scale k (fld w 40 8)
  let (v, sat) := qSat (o + f * sigRaw w payload)
  d.hwSlot e (fld w 24 14) v (if sat then 5 else 1)

/-- A matched frame: SHORT, or unpacked with its triggers. Either restarts the staleness time (R313, R315). -/
def Dev.unpack (e : Env) (k : Fin 4) (i : Nat) (f : CanFrame) (d : Dev) : Dev :=
  let o := e.obj k i
  if f.data.length < o.len then d.modObj k i fun s => { s with short := s.short + 1, stale := false, from_ := d.dtime }
  else
    let (bad, d) := d.msgBad k (e.sigWords k o)
    if bad then d
    else
      let payload := f.data.take o.len
      let d := d.write (.bytes (msgAddr k o.buf) payload)
      let d := o.sigs.foldl (init := d) fun d n => d.unpackSig e k payload n
      let d := (d.modObj k i fun s => { s with stale := false, frames := s.frames + 1, time := f.sof, from_ := d.dtime }).modCan k
        fun c => { c with rx := c.rx + 1 }
      d.fire 3 fun s => s % 4 == k.val && s / 4 % 1024 == i

def Dev.stranger (k : Fin 4) (d : Dev) : Dev := d.modCan k fun c => { c with strangers := c.strangers + 1 }

/-- A frame that is not a service request meets the receive objects. -/
def Dev.receiveObj (e : Env) (k : Fin 4) (f : CanFrame) (d : Dev) : Dev :=
  if f.remote || !d.objMode k then d.stranger k
  else
    match d.findObj e k f (List.range 128) with
    | (some i, d) => d.unpack e k i f
    | (none, d) => d.stranger k

/-- The receive error counter after a frame received without error (R306, ISO 11898-1). -/
def Dev.rxGood (k : Fin 4) (d : Dev) : Dev :=
  let r := d.can[k].recCnt
  if r = 0 then d
  else if r ≤ 127 then d.modCan k fun c => { c with recCnt := r - 1 }
  else
    let (n, d) := d.draw
    d.modCan k fun c => { c with recCnt := 119 + (Config.canRec n).val }

/-- A receive object goes stale (R315). -/
def Dev.receiveStale (e : Env) (k : Fin 4) (i : Nat) (d : Dev) : Dev :=
  let o := e.obj k i
  let s := d.can[k].obj i
  if d.objMode k && o.kind == 1 && o.time != 0 && !s.stale && decide (max s.from_ d.can[k].startAt + o.time ≤ d.dtime) then
    (o.sigs.foldl (init := d) fun d n => d.staleSlot (fld (e.sig k n) 24 14)).modObj k i fun s => { s with stale := true }
  else d

/-! ### Transmitting (R316) -/

/-- Value and tag of a transmit signal: its slot, or the last EMIT to it. -/
def Dev.sigSource (e : Env) (k : Fin 4) (n : Nat) (d : Dev) : W64 × Byte :=
  let w := e.sig k n
  if bit w 22 then
    match d.can[k].emits.find? (·.1 == n) with
    | some (_, v, g) => (v, g)
    | none => (0, 0)
  else
    let i := fld w 24 14
    (e.slot i, if d.tagDead i then 0 else (e.attr i).tag)

/-- Packed fields of an object in descriptor order, each with whether it saturated. -/
def Dev.packed (e : Env) (k : Fin 4) (o : Obj) (d : Dev) : List (W64 × Nat × Bool) :=
  o.sigs.map fun n =>
    let w := e.sig k n
    (w, sigPack w (e.scale k (fld w 40 8)) (d.sigSource e k n).1.toInt)

/-- Every source slot has VALID. -/
def Dev.sourcesValid (e : Env) (k : Fin 4) (o : Obj) (d : Dev) : Bool :=
  o.sigs.all fun n => bit (e.sig k n) 22 || (d.sigSource e k n).2.getLsbD 0

def Obj.frame (o : Obj) (payload : List Byte) : CanFrame :=
  { format := match o.format with | 0 => .classical | 1 => .fd | _ => .xl
    ide := bit o.w0 4, id := BitVec.ofNat 29 (fld o.w0 32 29), remote := false, brs := bit o.w0 5
    sdt := BitVec.ofNat 8 (fld o.w1 32 8), vcid := BitVec.ofNat 8 (fld o.w1 40 8), af := BitVec.ofNat 32 (fld o.w3 32 32)
    data := payload, sof := 0 }

/-- An object's frame is packed and queued; one already queued is repacked in place. -/
def Dev.packObject (e : Env) (k : Fin 4) (i : Nat) (d : Dev) : Dev :=
  let o := e.obj k i
  let (bad, d) := d.msgBad k (objWords i ++ e.sigWords k o)
  if bad || !d.objMode k then d
  else if bit o.w0 6 && !d.sourcesValid e k o then d.modObj k i fun s => { s with skipped := s.skipped + 1 }
  else
    let l := d.packed e k o
    let payload := l.foldl (init := List.replicate o.len (0 : Byte)) fun p x => sigPut x.1 x.2.1 p
    let sats := (l.filter fun x => x.2.2).length
    let d := d.write (.bytes (msgAddr k o.buf) payload)
    let d := d.modObj k i fun s => { s with packSat := s.packSat + BitVec.ofNat 16 sats, queued := l.map (·.2.1) }
    let f := o.frame payload
    if d.can[k].txq.any fun x => x.src == .object i then
      d.modCan k fun c => { c with txq := c.txq.map fun (x : TxFrame) => if x.src = .object i then { x with frame := f } else x }
    else d.enqueue k { src := .object i, frame := f, at_ := d.dtime }

/-- A period ends. The timer runs on where nothing can be sent (R306). -/
def Dev.transmitPeriod (e : Env) (k : Fin 4) (i : Nat) (d : Dev) : Dev :=
  let o := e.obj k i
  let base := max (d.can[k].obj i).from_ d.can[k].startAt
  if bit d.can[k].cfg 0 && d.sup.mode.messages && o.kind == 2 && o.time != 0 && decide (base + o.time ≤ d.dtime) then
    (d.modObj k i fun s => { s with from_ := base + o.time }).packObject e k i
  else d

/-- A packed value differs from the one last sent, and INHIBIT has passed. -/
def Dev.transmitOnChange (e : Env) (k : Fin 4) (i : Nat) (d : Dev) : Dev :=
  let o := e.obj k i
  let s := d.can[k].obj i
  let free := match s.sentAt with | some t => decide (t + o.inhibit ≤ d.dtime) | none => true
  if o.kind == 2 && bit o.w2 24 && free && s.lastSent != some ((d.packed e k o).map (·.2.1)) then d.packObject e k i else d

/-! ### The transmit queue (R317) -/

/-- Rank of a frame as the bus arbitrates: the first 11 identifier bits, then, for a base frame, dominant bits and the
format bits, and for an extended frame the recessive SRR and IDE bits and the rest of its identifier. -/
def frameRank (f : CanFrame) : Nat :=
  let fd := if f.format = .classical then 0 else 1
  if f.ide && f.format != .xl then (f.id.toNat / 2 ^ 18) * 2 ^ 20 + 2 ^ 19 + (f.id.toNat % 2 ^ 18) * 2 + fd
  else (f.id.toNat % 2 ^ 11) * 2 ^ 20 + 2 * fd + (if f.format = .xl then 1 else 0)

/-- Objects before service responses before stream frames; a last-gasp frame stands at the head (R385). -/
def TxFrame.key (f : TxFrame) : Nat :=
  match f.src with
  | .gasp => 0
  | .object i => 1 + frameRank f.frame * 256 + i
  | .service => 1 + frameRank f.frame * 256 + 128
  | .stream i => 1 + frameRank f.frame * 256 + 129 + i.val

/-- The frame that a queue offers at a moment. -/
def offeredFrame (sof : Ns) (l : List TxFrame) : Option TxFrame :=
  l.foldl (init := none) fun best f =>
    if sof < f.at_ then best
    else match best with
      | none => some f
      | some b => if f.key < b.key then some f else best

/-- Error counts of a transmitter (R306, ISO 11898-1): an acknowledge error of an error-passive one does not count. -/
def Can.txError (er : CanError) (more : Nat) (c : Can) : Can :=
  { c with tec := c.tec + (if er = .ack ∧ 127 < c.tec then 0 else 8) + 8 * more }

/-- Error passive (ISO 11898-1). -/
def Can.passive (c : Can) : Bool := decide (127 < c.tec) || decide (127 < c.recCnt)

/-- A queued frame may be sent in the present mode (R307). -/
def Dev.mayOffer (d : Dev) (k : Fin 4) (f : TxFrame) : Bool :=
  match f.src with
  | .object _ => d.sup.mode.messages && !d.canRecovery k
  | .stream _ => d.canMode
  | _ => true

/-- CAN_k_MODE is high in the data phase of an XL frame on the bus, with XL_TRX set (R305). -/
def Can.drivesMode (f : CanFrame) (c : Can) : Can :=
  if bit c.cfg 2 && f.format == .xl then { c with modeHigh := some f.phase } else c

/-- Codes of CAN_STAT.LEC. -/
def errorCode : CanError → Nat
  | .stuff => 1 | .form => 2 | .ack => 3 | .bit1 => 4 | .bit0 => 5 | .crc => 6

/-- The frame offered at `sof` has been sent, or is offered again. -/
def Dev.frameTransmitted (k : Fin 4) (sof : Ns) (r : TxOutcome) (d : Dev) : Dev :=
  if !d.canActive k then d
  else
    match offeredFrame sof (d.can[k].txq.filter (d.mayOffer k)) with
    | none => d
    | some f =>
      match r with
      | .lost => d
      | .error er more => d.modCan k fun c => { c.txError er more with lec := errorCode er }
      | .stuffLost => d.modCan k fun c => { c with lec := errorCode .stuff }
      | .sent phase =>
        let d := d.modCan k fun c =>
          let out := { f.frame with sof := sof, esi := f.frame.format == .fd && c.passive, phase := phase }
          { c.drivesMode out with txq := c.txq.erase f, tx := c.tx + 1, tec := c.tec - 1, last := some out }
        match f.src with
        | .object i => d.modObj k i fun s => { s with frames := s.frames + 1, time := sof, lastSent := some s.queued, sentAt := some sof }
        | .gasp => d.modSup fun s => { s with gaspSent := true }
        | _ => d

/-! ### Errors and bus-off (R306) -/

/-- A receiver detects an error. -/
def Dev.busError (k : Fin 4) (er : RxError) (d : Dev) : Dev :=
  if d.canActive k then
    d.modCan k fun c => { c with lec := errorCode er.kind, recCnt := min 255 (c.recCnt + 1 + 8 * er.more) }
  else d

/-- Bus-off, at a transmit error count above 255 (ISO 11898-1): CAN_BUSOFF, and recovery at once under policy 0. -/
def Dev.busOffNow (k : Fin 4) (d : Dev) : Dev :=
  if d.canActive k && decide (255 < d.can[k].tec) then
    (d.modCan k fun c => { c with busOff := true, busoffSeen := true, recovering := !bit c.cfg 1 }).raise
      { source := 19, ctrl := canCtrl k, coord := d.noEvent }
  else d

/-- The 128 sequences are complete. -/
def Dev.busRecovered (k : Fin 4) (d : Dev) : Dev :=
  d.modCan k fun c => if c.busOff && c.recovering then { c with busOff := false, recovering := false, tec := 0, recCnt := 0 } else c

/-- CAN_CTRL.RECOVER (policy 1). -/
def Dev.recover (k : Fin 4) (d : Dev) : Dev :=
  d.modCan k fun c => if c.busOff && bit c.cfg 1 then { c with recovering := true } else c

/-! ### Registers (R330) -/

/-- CAN_STAT.STATE: off is shown in the modes from full service on. -/
def Dev.canState (d : Dev) (k : Fin 4) : Nat :=
  let c := d.can[k]
  match d.sup.mode with
  | .reset | .fill | .basecamp => 0
  | _ => if c.busOff then 2 else if !d.canActive k then 3 else if c.passive then 1 else 0

def Dev.wrCan (loader : Bool) (p : Path) (k : Fin 4) (ofs : Nat) (v : W64) (d : Dev) : Dev :=
  let cfg (f : Can → Can) : Dev := d.guarded (d.mayDrive loader) (Dev.canIgn k) (Dev.modCan k f)
  match ofs with
  | 0x08 =>
    d.modCan k fun c =>
      let new := v &&& 7
      let may := d.mayDrive loader
      { c with cfg := if may then new else c.cfg
               startAt := if may && bit new 0 && !bit c.cfg 0 then d.dtime else c.startAt
               cfgIgn := (c.cfgIgn && !bit v 3) || (!may && new != c.cfg) }
  | 0x10 => cfg fun c => { c with btNom := v &&& 0x7F7FFFFF }
  | 0x18 => cfg fun c => { c with btFd := v &&& 0xFF7F7FFFFF }
  | 0x20 => cfg fun c => { c with btXl := v &&& 0xFF7F7FFFFF }
  | 0x28 => d.modCan k fun c => { c with busoffSeen := c.busoffSeen && !bit v 2 }
  | 0x38 => if bit v 0 then d.recover k else d
  | 0x40 => cfg fun c => { c with svc := v &&& 0x1FFFFFFFFFFFFFFF }
  | 0x50 => d.modCan k fun c => { c with wake := v &&& 0x1FFFFFFF7FFFFFFF }
  | 0x58 => d.modCtx p fun c => { c with objSel := upd c.objSel k fun _ => v &&& 0x7F }
  | _ => d

def Dev.rdCan (p : Path) (k : Fin 4) (ofs : Nat) (d : Dev) : W64 :=
  let c := d.can[k]
  let o := c.obj (fld (d.ctx p).objSel[k] 0 7)
  match ofs with
  | 0x08 => c.cfg ||| putB 3 c.cfgIgn
  | 0x10 => c.btNom
  | 0x18 => c.btFd
  | 0x20 => c.btXl
  | 0x28 => put 0 2 (d.canState k) ||| putB 2 c.busoffSeen ||| put 8 8 (satN 255 c.tec) ||| put 16 8 c.recCnt ||| put 24 3 c.lec
  | 0x30 => put 0 24 c.rx.toNat ||| put 24 24 c.tx.toNat ||| put 48 16 c.strangers.toNat
  | 0x40 => c.svc
  | 0x48 => put 0 2 c.level ||| putB 2 c.lockEnd.isSome ||| put 8 8 c.fails.toNat ||| put 16 16 c.dropped.toNat
      ||| put 32 32 c.reqs.toNat
  | 0x50 => c.wake
  | 0x58 => (d.ctx p).objSel[k]
  | 0x60 => putB 0 o.stale ||| put 8 8 o.short.toNat ||| put 16 16 o.packSat.toNat ||| put 32 16 o.skipped.toNat
      ||| put 48 16 o.frames.toNat
  | 0x68 => put 0 64 o.time
  | _ => 0

/-! ### The commands -/

/-- RECEIVE_STALE (R315). -/
def execReceiveStale (t : Ns) (k : Fin 4) (obj : Fin 128) (s : State) : Host.Outcome State Fault Refusal :=
  runAt t (fun e d => d.receiveStale e k obj.val) s

/-- TRANSMIT_PERIOD (R316). -/
def execTransmitPeriod (t : Ns) (k : Fin 4) (obj : Fin 128) (s : State) : Host.Outcome State Fault Refusal :=
  runAt t (fun e d => d.transmitPeriod e k obj.val) s

/-- TRANSMIT_ON_CHANGE (R316). -/
def execTransmitOnChange (t : Ns) (k : Fin 4) (obj : Fin 128) (s : State) : Host.Outcome State Fault Refusal :=
  runAt t (fun e d => d.transmitOnChange e k obj.val) s

/-- CAN_FRAME_TRANSMITTED (R317). -/
def execCanFrameTransmitted (t : Ns) (k : Fin 4) (sof : Ns) (r : TxOutcome) (s : State) : Host.Outcome State Fault Refusal :=
  runAt t (fun _ d => d.frameTransmitted k sof r) s

/-- BUS_OFF (R306). -/
def execBusOff (t : Ns) (k : Fin 4) (s : State) : Host.Outcome State Fault Refusal := runAt t (fun _ d => d.busOffNow k) s

/-- BUS_OFF_RECOVERY (R306). -/
def execBusOffRecovery (t : Ns) (k : Fin 4) (s : State) : Host.Outcome State Fault Refusal :=
  runAt t (fun _ d => d.busRecovered k) s

/-- RECOVER (R306). -/
def execRecover (t : Ns) (p : Path) (k : Fin 4) (s : State) : Host.Outcome State Fault Refusal :=
  runBy t p (fun _ d => d.recover k) s

/-- CAN_BUS_ERROR (R306). -/
def execCanBusError (t : Ns) (k : Fin 4) (e : RxError) (s : State) : Host.Outcome State Fault Refusal :=
  runAt t (fun _ d => d.busError k e) s

end Sys2Proof.Machine
end

