-- ==== Sys2Proof/Machine/RopeM.lean ====
section
/-! DEFINITION. The rope: frames, mirror, cross-check and the loss of the link (R322 to R330), and the registers of page
0x5C. The tunnelled accesses themselves are in `Service`; the relay (R323) and the cut mask (R327) stand with the teeth. -/

namespace Sys2Proof.Machine

def ropeCtrl : BitVec 16 := ctrl 6 4 0xFF
def Dev.ropeEn (d : Dev) : Bool := bit d.rope.cfg 0

/-- The rope runs: enabled, with its clock, and in no mode in which nothing else runs (R365, R379). -/
def Dev.ropeRuns (d : Dev) : Bool :=
  d.ropeEn && d.clocksOk &&
    match d.sup.mode with
    | .reset | .fill | .bivouac | .locked => false
    | _ => true

/-! ### Service responses, and requests that the partner is to serve (R318, R319, R328) -/

/-- The service channel of a controller runs (R307). -/
def Dev.svcRuns (d : Dev) (k : Fin 4) : Bool := ((bit d.can[k].cfg 0 && d.canMode) || d.canRecovery k) && d.clocksOk

/-- A response frame of a controller: its first four bytes, then four or eight bytes of data. -/
def Dev.svcSend (k : Fin 4) (fd : Bool) (head : List Byte) (data : W64) (d : Dev) : Dev :=
  let w := d.can[k].svc
  let frame : CanFrame :=
    { format := if fd then .fd else .classical, ide := bit w 29, id := BitVec.ofNat 29 (fld w 32 29), remote := false
      brs := fd && Config.svcBrs, sdt := 0, vcid := 0, af := 0, data := head ++ leBytes (if fd then 8 else 4) data.toNat, sof := 0 }
  if d.svcRuns k then d.enqueue k { src := .service, frame := frame, at_ := d.dtime } else d

def svcHead (r : SvcReq) (status : Nat) : List Byte := [r.op ||| 0x80, r.seq, BitVec.ofNat 8 status, 0]

/-- The response to a request; `data` none where R318 gives it none. -/
def Dev.svcAnswer (k : Fin 4) (r : SvcReq) (status : Nat) (data : Option W64) (d : Dev) : Dev :=
  match data with
  | some v => d.svcSend k r.fd (svcHead r status) v
  | none => let (n, d) := d.draw; d.svcSend k r.fd (svcHead r status) (Config.svcData n)

/-- The head of a service queue is taken, and counted as served; what WRITE_LO had staged is discarded. -/
def Dev.svcTake (k : Fin 4) (d : Dev) : Dev :=
  d.modCan k fun c => { c with svcQ := c.svcQ.drop 1, reqs := c.reqs + 1, staged := none }

/-- Requests that no row of R318's table names. -/
def svcUnknown (op : Byte) : Bool :=
  !([0x10, 0x11, 0x12, 0x20, 0x21, 0x22, 0x30, 0x31, 0x3F] : List Nat).contains (op &&& 0xBF).toNat

/-- The classical layout has no READ and no WRITE. -/
def svcFdOnly (r : SvcReq) : Bool := !r.fd && ((r.op &&& 0xBF) == 0x12 || (r.op &&& 0xBF) == 0x22)

/-- The twelve bytes of a tunnelled request (R328). -/
def SvcReq.tunnelled (r : SvcReq) : List Byte := [r.op, r.seq] ++ leBytes 2 r.addr.toNat ++ leBytes 8 r.data.toNat

/-- The head of a service queue where the device itself serves nothing: a PARTNER request is forwarded once the tunnel is
free, or refused; an unknown one is refused. -/
def Dev.svcForward (k : Fin 4) (d : Dev) : Dev :=
  let c := d.can[k]
  match c.svcQ with
  | [] => d
  | r :: _ =>
    if !(svcUnknown r.op || r.op.getLsbD 6) then d
    else if c.lockEnd.isSome then (d.svcTake k).svcAnswer k r 6 none
    else if svcUnknown r.op || svcFdOnly r then (d.svcTake k).svcAnswer k r 3 none
    else if c.level != 2 then (d.svcTake k).svcAnswer k r 2 none
    else if d.rope.role || !d.rope.up || !d.ropeRuns then (d.svcTake k).svcAnswer k r 7 none
    else if d.rope.tunnel.client.isSome then d
    else (d.svcTake k).modRope fun x =>
      { x with tunnel := { x.tunnel with client := some (k, r), outPart := 0, out := r.tunnelled, inn := [] } }

/-- Every controller's queue moves on as far as the device itself serves nothing. -/
def Dev.svcAdvance (d : Dev) : Dev :=
  let one (d : Dev) (k : Fin 4) : Dev := (((d.svcForward k).svcForward k).svcForward k).svcForward k
  [0, 1, 2, 3].foldl one d

/-- The link is gone: the request in flight is answered NO_PARTNER (R328). -/
def Dev.tunnelDown (d : Dev) : Dev :=
  let c := d.rope.tunnel.client
  let d := d.modRope fun r => { r with tunnel := { r.tunnel with client := none, outPart := 0, out := [], inn := [] } }
  (match c with
   | some (k, r) => d.svcAnswer k r 7 none
   | none => d).svcAdvance

/-! ### Sending (R324, R325) -/

/-- The eight mirror entries of a group, each with its entry word and default. -/
def Rope.group (r : Rope) (g : Nat) : List (W64 × W64) := (List.range 8).map fun i => r.mirror[Fin.ofNat 64 (8 * g + i)]

/-- Value and tag of a transmit entry. -/
def Dev.mirrorOut (e : Env) (w : W64) (d : Dev) : W64 × Byte :=
  let i := fld w 0 14
  if bit w 14 then (e.slot i, if d.tagDead i then 0 else (e.attr i).tag) else (0, 0)

/-- The status word of a frame (R324). -/
def Dev.ropeStatus (d : Dev) : W64 :=
  let f := d.flt
  put 0 4 1 ||| put 4 4 d.rope.fcnt.toNat ||| putB 8 d.rope.role ||| put 9 3 d.pos.sync.code ||| putB 12 d.pos.rev
    ||| putB 13 d.snap.ropeSend.isSome ||| putB 14 f.valid ||| put 15 2 (if f.valid then f.cls else 0)
    ||| put 24 8 (if f.valid then f.source else 0) ||| put 32 16 (d.snap.ropeSend.getD d.snap.num).toNat ||| put 48 16 (fld f.dis 0 16)

/-- The frame that the device starts now, around a tunnel word. -/
def Dev.ropeFrame (e : Env) (tunnel : W32) (d : Dev) : RopeFrame :=
  let l := (d.rope.group (d.rope.fcnt.toNat % 8)).map fun x => d.mirrorOut e x.1
  { ok := true, w0 := d.ropeStatus, posw := d.posw
    tags := (l.zipIdx).foldl (init := 0) fun a x => a ||| put (8 * x.2) 8 x.1.2.toNat
    values := l.map (·.1), tunnel := tunnel, arrive := d.dtime }

/-- The tunnel word of the next frame: the next three bytes, or nothing valid. -/
def Tunnel.word (t : Tunnel) : W32 :=
  if t.out.isEmpty then 0
  else BitVec.ofNat 32 (1 + 2 * (t.outPart % 4) + 256 * leNat (t.out.take 3))

/-- A frame leaves. -/
def Dev.ropeSend (e : Env) (d : Dev) : Dev :=
  let f := d.ropeFrame e d.rope.tunnel.word
  let next (t : Tunnel) : Tunnel := if t.out.isEmpty then t else { t with out := t.out.drop 3, outPart := t.outPart + 1 }
  (d.modRope fun r => { r with sent := some f, fcnt := r.fcnt + 1, tunnel := next r.tunnel }).modSnap
    fun s => { s with ropeSend := none }

/-! ### Receiving (R324 to R326, R329) -/

/-- Frame slots of 10 µs that have passed since the last one counted, the present one included. -/
def Rope.slotsPassed (r : Rope) (at_ : Ns) : Nat := (at_ - r.slotAt + 5000) / 10000

/-- Receive entries of the mirror. -/
def Rope.rxEntries (r : Rope) : List (W64 × W64) := r.mirror.toList.filter fun x => bit x.1 30

/-- The cross-check of a frame's position (R326). -/
def Dev.ropeXchk (f : RopeFrame) (d : Dev) : Dev :=
  let r := d.rope
  let c := d.pos.wheel.cycLen
  let n := fld r.cfg 32 4
  if !(d.pos.sync == .full && fld f.w0 9 3 == 3 && decide (r.xchkFrom ≤ d.dtime)) then d
  else
    let (cyc, ang) := d.poswAt f.arrive
    let back := if d.pos.cycleNs = 0 then 0 else fld r.cfg 8 16 * c / d.pos.cycleNs
    let own : W32 × Nat := if back ≤ ang then (cyc, ang - back) else (cyc - 1, ang + c - back)
    let bad := own.1.toNat != fld f.posw 32 32
      || decide (fld r.cfg 24 8 * (degree / 16) < (d.pos.wheel.diff own.2 (fld f.posw 0 32)).natAbs)
    if !bad then d.modRope fun r => { r with xFails := 0 }
    else if n = 0 ∨ r.xFails + 1 < n then d.modRope fun r => { r with xFails := r.xFails + 1 }
    else (d.modRope fun r => { r with xFails := 0, xchkSeen := true }).raise { source := 21, ctrl := ropeCtrl, coord := d.noEvent }

/-- Received mirror entries written to their slots (R325). -/
def Dev.mirrorIn (e : Env) (f : RopeFrame) (d : Dev) : Dev :=
  let l := d.rope.group (fld f.w0 4 4 % 8)
  (l.zipIdx).foldl (init := d) fun d x =>
    if bit x.1.1 30 then d.hwSlot e (fld x.1.1 16 14) ((f.values[x.2]?).getD 0) (BitVec.ofNat 8 (fld f.tags (8 * x.2) 8)) else d

/-- What a valid frame carries, while the link is up. -/
def Dev.ropeContents (e : Env) (f : RopeFrame) (d : Dev) : Dev :=
  let act := bit f.w0 14
  let was := d.rope.partnerFault
  let d := d.modRope fun r => { r with partnerFault := act }
  let d := if act && !was then d.raise { source := 22, ctrl := ropeCtrl, coord := d.noEvent } else d
  let d := if bit f.w0 13 then d.snapshot 5 0xE1FF d.noEvent (BitVec.ofNat 16 (fld f.w0 32 16)) else d
  (d.mirrorIn e f).ropeXchk f

/-- A frame arrives. A damaged one counts as missing; the link is up after 8 consecutive valid ones. -/
def Dev.ropeReceive (e : Env) (f : RopeFrame) (d : Dev) : Dev :=
  if !d.ropeRuns then d
  else
    let r := d.rope
    let n := r.slotsPassed f.arrive
    if !f.ok then d.modRope fun r => { r with bad := r.bad + BitVec.ofNat 32 (max 1 n), slotAt := f.arrive, goodRun := 0 }
    else
      let good := if n ≤ 1 then r.goodRun + 1 else 1
      let d := d.modRope fun r =>
        { r with bad := r.bad + BitVec.ofNat 32 (n - 1), slotAt := f.arrive, lastGood := f.arrive, goodRun := good }
      if r.up then d.ropeContents e f
      else if good < 8 then d
      else d.modRope fun r =>
        { r with up := true, lostAt := none, defDone := false, xchkFrom := d.dtime + 80000, xFails := 0 }

/-- Three frame slots without a valid frame: the link is lost, be it one that has not come up yet (R329). In LOCKED, where
the rope stands still, a request in flight is answered and no more (R328, R365). -/
def Dev.ropeLost (d : Dev) : Dev :=
  let r := d.rope
  let late := decide (r.lastGood + 30000 ≤ d.dtime)
  if d.sup.mode == .locked && r.up && late then (d.modRope fun r => { r with up := false, goodRun := 0 }).tunnelDown
  else if d.ropeRuns && (r.up || r.lostAt.isNone) && late then
    let n := (d.dtime - r.slotAt) / 10000
    let d := r.rxEntries.foldl (init := d) fun d x => d.staleSlot (fld x.1 16 14)
    (d.modRope fun r =>
      { r with up := false, lostSeen := true, losses := r.losses + 1, lostAt := some d.dtime, defDone := false, goodRun := 0
               xFails := 0, bad := r.bad + BitVec.ofNat 32 n, slotAt := r.slotAt + 10000 * n }).tunnelDown.raise
      { source := 20, ctrl := ropeCtrl, coord := d.noEvent }
  else d

/-- DEF_MS ms after the loss each receive entry takes its default (R329). -/
def Dev.mirrorDefault (e : Env) (d : Dev) : Dev :=
  match d.rope.lostAt with
  | some t =>
    if !d.rope.defDone && decide (t + fld d.rope.cfg 48 16 * 1000000 ≤ d.dtime) then
      (d.rope.rxEntries.foldl (init := d) fun d x => d.hwSlot e (fld x.1 16 14) x.2 8).modRope fun r => { r with defDone := true }
    else d
  | none => d

/-! ### Registers (R330) -/

def Dev.ropeIgn (d : Dev) : Dev := d.modRope fun r => { r with cfgIgn := true }

/-- RW bits of ROPE_CFG. -/
def ropeCfgMask : W64 := 0xFFFF000FFFFFFF3D

/-- CRK_OUT and CAM_OUT copy the filtered levels from the write that sets RELAY_EN or CAM_SEL on (R323). -/
def Dev.relayNow (d : Dev) : Dev :=
  if d.half || !bit d.rope.cfg 2 then d
  else
    let crk := d.pos.inputs[d.pos.activeInput].level
    let cam := d.pos.inputs[Fin.ofNat 6 (2 + fld d.rope.cfg 3 2)].level
    d.modPos fun p =>
      { p with relayCrk := if p.relayCrk.1 = crk then p.relayCrk else (crk, d.dtime)
               relayCam := if p.relayCam.1 = cam then p.relayCam else (cam, d.dtime) }

/-- ROPE_CFG written: the W1C bit in every state, the rest where the state allows it. -/
def Dev.ropeCfg (loader : Bool) (v : W64) (d : Dev) : Dev :=
  let new := v &&& ropeCfgMask
  if !relayOk d.rope.role new d.filtOf then d.ropeIgn
  else
    let may := d.mayDrive loader
    let d := (d.modRope fun r =>
      let on := may && bit new 0 && !bit r.cfg 0
      let off := may && !bit new 0
      { r with cfg := if may then new else r.cfg
               cfgIgn := (r.cfgIgn && !bit v 6) || (!may && new != r.cfg)
               up := r.up && !off, lostAt := if off then none else r.lostAt, goodRun := if on then 0 else r.goodRun
               slotAt := if on then d.dtime else r.slotAt, lastGood := if on then d.dtime else r.lastGood }).relayNow
    if may && !bit new 0 then d.tunnelDown else d

def Dev.wrRope (loader : Bool) (p : Path) (ofs : Nat) (v : W64) (d : Dev) : Dev :=
  match ofs with
  | 0x00 => d.ropeCfg loader v
  | 0x08 => d.guarded (bit v 5 && decide (fld v 10 6 ≤ 32) && d.mayDrive loader) Dev.ropeIgn (Dev.modRope fun r => { r with cut := v &&& 0x1FFFFFFFFFFF })
  | 0x10 => d.guarded (d.mayDrive loader) Dev.ropeIgn (Dev.modRope fun r => { r with split := v &&& 0xFFFF })
  | 0x18 => d.modRope fun r => { r with lostSeen := r.lostSeen && !bit v 1, xchkSeen := r.xchkSeen && !bit v 2, lateCut := r.lateCut && !bit v 3 }
  | 0x20 => d.modCtx p fun c => { c with mirSel := v &&& 0x3F }
  | _ => d

def Dev.rdRope (p : Path) (ofs : Nat) (d : Dev) : W64 :=
  let r := d.rope
  let m := r.mirror[Fin.ofNat 64 (fld (d.ctx p).mirSel 0 6)]
  match ofs with
  | 0x00 => r.cfg ||| putB 1 r.role ||| putB 6 r.cfgIgn
  | 0x08 => r.cut
  | 0x10 => r.split
  | 0x18 => putB 0 r.up ||| putB 1 r.lostSeen ||| putB 2 r.xchkSeen ||| putB 3 r.lateCut ||| put 4 6 r.level ||| put 16 16 r.losses.toNat
      ||| put 32 32 r.bad.toNat
  | 0x20 => (d.ctx p).mirSel
  | 0x28 => m.1 &&& 0x7FFF7FFF
  | 0x30 => m.2
  | _ => 0

/-! ### The commands (ROPE_FRAME_SEND, ROPE_FRAME_RECEIVED and ROPE_LOST, with the tunnel, are in `Service`) -/

/-- MIRROR_DEFAULT (R329). -/
def execMirrorDefault (t : Ns) (s : State) : Host.Outcome State Fault Refusal :=
  runAt t (fun e d => if d.ropeRuns then d.mirrorDefault e else d) s

end Sys2Proof.Machine
end

