-- ==== Sys2Proof/Machine/Emit.lean ====
section
/-! DEFINITION. The EMIT operation (R238), one command for each kind. -/

namespace Sys2Proof.Machine

/-- EMIT of one kind: its index, and the value and tag of A. -/
def Dev.emitOp (e : Env) (k : Fin 8) (kind : Nat) (f : Nat → W64 → Byte → Dev → Dev) (d : Dev) : Dev :=
  d.ceOp e k 0x39 fun w d =>
    let i := opDst w
    if i / 2 ^ 13 % 8 ≠ kind then d
    else
      match d.slotReads e k [opA w] with
      | ([(v, g)], false, d) => f (i % 2 ^ 13) v g d |>.ceNext k 1
      | (_, _, d) => d

/-- Kind 0: the value of a CAN signal. -/
def Dev.emitSignal (n : Nat) (v : W64) (g : Byte) (d : Dev) : Dev :=
  let x := n % 2048
  d.modCan (Fin.ofNat 4 (n / 2048)) fun c => { c with emits := (x, v, g) :: c.emits.filter fun (y : Nat × W64 × Byte) => y.1 != x }

/-- Kind 1: a timer buffer (R293). -/
def Dev.emitTimer (n : Nat) (v : W64) (d : Dev) : Dev :=
  let u := Fin.ofNat 8 (n / 5)
  if 40 ≤ n then d
  else if n % 5 = 0 then d.modTmu u fun t => { t with reload := v.setWidth 32, emitAt := some d.dtime }
  else d.chVal u (Fin.ofNat 4 (n % 5 - 1)) (v.setWidth 32) true

/-- Kind 2: a PIO transmit queue. -/
def Dev.emitPio (k : Fin 8) (n : Nat) (v : W64) (d : Dev) : Dev :=
  let (ok, d) := d.txPush (Fin.ofNat 8 n) (v.setWidth 32)
  if ok then d else d.emitLost k

/-- Kind 3: a NOTE record, lost when the staging is full (R268). -/
def Dev.emitNote (k : Fin 8) (n : Nat) (v : W64) (g : Byte) (d : Dev) : Dev :=
  if 256 ≤ d.recm.staging.length then d.emitLost k
  else d.present { type := 11, dtime := d.dtime, body := [put 0 13 n ||| put 16 8 g.toNat ||| put 32 3 k.val, v] }

/-- Kind 4: an urgent conversion (R258). Inputs 14 and 15 need their permit bits. -/
def Dev.emitUrgent (k : Fin 8) (n : Nat) (v : W64) (d : Dev) : Dev :=
  let c := Fin.ofNat 2 n
  let mux := fld v 0 4
  let cfg := d.cnv[c].cfg
  if (mux == 14 && !bit cfg 16) || (mux == 15 && !bit cfg 17) then d.emitLost k
  else
    (d.urgent c mux (min 8 (fld v 4 4)) d.dtime (some k)).2.2.2

/-! ### The commands -/

/-- EMIT_CAN_SIGNAL (R238). -/
def execEmitCanSignal (t : Ns) (k : Fin 8) (s : State) : Host.Outcome State Fault Refusal :=
  runAt t (fun e d => d.emitOp e k 0 fun n v g d => d.emitSignal n v g) s

/-- EMIT_TIMER_BUFFER (R293). -/
def execEmitTimerBuffer (t : Ns) (k : Fin 8) (s : State) : Host.Outcome State Fault Refusal :=
  runAt t (fun e d => d.emitOp e k 1 fun n v _ d => d.emitTimer n v) s

/-- EMIT_PIO_QUEUE (R238). -/
def execEmitPioQueue (t : Ns) (k : Fin 8) (s : State) : Host.Outcome State Fault Refusal :=
  runAt t (fun e d => d.emitOp e k 2 fun n v _ d => d.emitPio k n v) s

/-- EMIT_NOTE (R238). -/
def execEmitNote (t : Ns) (k : Fin 8) (s : State) : Host.Outcome State Fault Refusal :=
  runAt t (fun e d => d.emitOp e k 3 fun n v g d => d.emitNote k n v g) s

/-- EMIT_URGENT (R258). -/
def execEmitUrgent (t : Ns) (k : Fin 8) (s : State) : Host.Outcome State Fault Refusal :=
  runAt t (fun e d => d.emitOp e k 4 fun n v _ d => d.emitUrgent k n v) s

end Sys2Proof.Machine
end

