-- ==== Sys2Proof/Machine/Bridge.lean ====
section
/-! DEFINITION. The flash bridge and the registers of page 0x68 (R361 to R364). What VERIFY checks stands with the
loader, in `Image`. -/

namespace Sys2Proof.Machine

def Dev.modNvi (f : Nvi → Nvi) (d : Dev) : Dev := { d with nvi := f d.nvi }

/-- A bridge error: 1 DENIED, 2 RANGE, 3 BUSY, 4 TIMEOUT, 5 VERIFY_FAIL, 6 EARLY (R364). -/
def Dev.brFail (code : Nat) (d : Dev) : Dev := d.modNvi fun n => { n with brErr := code }

/-- A path's write to the bridge is taken: OPEN, and TWP_EN for the two-wire port (R361). -/
def Dev.brMay (p : Path) (d : Dev) : Bool := d.brOpen && (p != .twp || d.nvi.twpEn)

/-- Length and address of an operation (R362). -/
def brRange (op len addr : Nat) : Bool :=
  match op with
  | 1 => decide (1 ≤ len) && decide (len ≤ 128) && decide (addr + len ≤ 0x200000)
  | 2 => decide (1 ≤ len) && decide (addr % 256 + len ≤ 256)
  | 3 => addr % 4096 == 0
  | 4 => addr % 65536 == 0
  | _ => true

/-- Steps 1 and 2 of the boot probe: whatever mode the flash was in, it is in 1-1-1 after them (R343). -/
def probeReset : List FlashCmd :=
  [.resetPin 10, .wait 50, .octal 0x6699, .octal 0x9966, .single 0x66 [] [], .single 0x99 [] [], .wait 50]

/-- A flash address of three bytes, sent most significant byte first. -/
def flashAddr (a : Nat) : List Byte := (leBytes 3 a).reverse

/-- The commands that an operation begins with (R361, R362). `buf`: bytes of the buffer. -/
def brCmds (op len addr : Nat) (buf : List Byte) : List FlashCmd :=
  let wren : FlashCmd := .single 0x06 [] []
  match op with
  | 1 => [.single 0x03 (flashAddr addr) []]
  | 2 => [wren, .single 0x02 (flashAddr addr) (buf.take len)]
  | 3 => [wren, .single 0x20 (flashAddr addr) []]
  | 4 => [wren, .single 0xD8 (flashAddr addr) []]
  | _ => [.single 0x03 (flashAddr (if addr < 0x100000 then 0 else 0x100000)) []]

/-- A write of NVI_BR_CMD (R361 to R363). Before its first operation the bridge runs steps 1 and 2 of R343, and from then on
the flash is in mode 0. -/
def Dev.bridge (p : Path) (op len addr : Nat) (d : Dev) : Dev :=
  if !d.brMay p then d.brFail 1
  else if d.nvi.brBusy then d.brFail 3
  else if op = 0 ∨ 5 < op then d
  else if !brRange op len addr then d.brFail 2
  else d.modNvi fun n => { n with brOp := op, brLen := len, brAddr := addr, brBusy := true, brAt := d.dtime, brErr := 0
                                  brProbed := true, mode := 0, div := 0
                                  sent := (if n.brProbed then [] else probeReset) ++ brCmds op len addr (n.buf.toList.flatMap wordBytes)
                                  flashBusy := decide (2 ≤ op) && decide (op ≤ 4) }

/-- Bytes read from the flash into the buffer, byte 0 of word 0 first. -/
def bufPut (buf : Vector W64 32) (l : List Byte) : Vector W64 32 :=
  let old := buf.toList.flatMap wordBytes
  let new := l ++ old.drop l.length
  Vector.ofFn fun i : Fin 32 => BitVec.ofNat 64 (leNat ((new.drop (8 * i.val)).take 8))

def Dev.brEnd (err : Nat) (d : Dev) : Dev :=
  d.modNvi fun n => { n with brBusy := false, brDone := true, brErr := err, flashBusy := false }

/-- The operation ends. A program or an erase ends once the flash reports that it is no longer busy; VERIFY reports what
`check` finds in the slot. -/
def Dev.bridgeDone (check : FlashSlot → LoadErr × W64) (r : BridgeResult) (d : Dev) : Dev :=
  let n := d.nvi
  if !n.brBusy then d
  else match n.brOp, r with
    | 1, .bytes l => (d.modNvi fun n => { n with buf := bufPut n.buf (l.take n.brLen) }).brEnd 0
    | 5, .slot f =>
      let (x, fp) := check f
      (d.modNvi fun n => { n with vCode := x.code, vSec := x.section_, vfp := fp }).brEnd (if x.code = 0 then 0 else 5)
    | 5, _ => d
    | 1, _ => d
    | _, _ => if n.flashBusy then d else d.brEnd 0

/-- RDSR, every 10 µs. Of polls that follow one another the list of commands holds one. -/
def Dev.bridgePoll (busy : Bool) (d : Dev) : Dev :=
  if d.nvi.brBusy && decide (2 ≤ d.nvi.brOp) && decide (d.nvi.brOp ≤ 4) then
    let rdsr : FlashCmd := .single 0x05 [] []
    d.modNvi fun n => { n with flashBusy := busy, sent := if n.sent.contains rdsr then n.sent else n.sent ++ [rdsr] }
  else d

/-- Limits of PROGRAM, ERASE_4K and ERASE_64K in ns (R362). -/
def brLimit (op : Nat) : Nat :=
  match op with
  | 2 => 5000000
  | 3 => 400000000
  | _ => 2000000000

def Dev.bridgeTimeout (d : Dev) : Dev :=
  let n := d.nvi
  if n.brBusy && n.flashBusy && decide (n.brAt + brLimit n.brOp ≤ d.dtime) then d.brEnd 4 else d

/-! ### NVI_BR_DATA (R362, R363) -/

def Dev.brNext (p : Path) (d : Dev) : Dev := d.modCtx p fun c => { c with brIdx := put 0 5 (fld c.brIdx 0 5 + 1) }

def Dev.brRead (p : Path) (d : Dev) : W64 × Dev :=
  if d.nvi.brBusy && p != .twp then (0, (d.brFail 6).brNext p)
  else (d.nvi.buf[Fin.ofNat 32 (fld (d.ctx p).brIdx 0 5)], d.brNext p)

def Dev.brWrite (p : Path) (v : W64) (d : Dev) : Dev :=
  if !d.brMay p then d.brFail 1
  else (d.modNvi fun n => { n with buf := upd n.buf (Fin.ofNat 32 (fld (d.ctx p).brIdx 0 5)) fun _ => v }).brNext p

/-! ### Registers of page 0x68 (R364) -/

/-- A key 1 session stands behind the path, or it is the rope (R361, R382). -/
def Dev.trusted (p : Path) (d : Dev) : Bool :=
  match p with
  | .can0 => d.can[0].level == 2
  | .can1 => d.can[1].level == 2
  | .can2 => d.can[2].level == 2
  | .can3 => d.can[3].level == 2
  | .rope => true
  | _ => false

def Dev.wrNvi (p : Path) (ofs : Nat) (v : W64) (d : Dev) : Dev :=
  match ofs with
  | 0x48 => if bit v 1 then (if d.brOpen && d.trusted p then d.modNvi fun n => { n with twpEn := true } else d)
            else d.modNvi fun n => { n with twpEn := false }
  | 0x50 => d.bridge p (fld v 0 4) (fld v 8 9) (fld v 32 21)
  | 0x58 => d.modNvi fun n => { n with brDone := n.brDone && !bit v 1 }
  | 0x60 => if d.brMay p then d.modCtx p fun c => { c with brIdx := v &&& 0x1F } else d.brFail 1
  | 0x68 => d.brWrite p v
  | _ => d

def LoadErr.reg (x : LoadErr) : W64 := put 0 4 x.code ||| put 8 4 x.section_ ||| put 32 32 x.detail

def Nvi.fpWord (n : Nvi) (m : Nat) : W64 := BitVec.ofNat 64 (leNat ((n.fp.drop (8 * m)).take 8))

def Dev.rdNvi (p : Path) (ofs : Nat) (d : Dev) : W64 × Dev :=
  let n := d.nvi
  match ofs with
  | 0x00 => (putB 0 n.slotB ||| put 1 2 n.mode ||| putB 3 n.fallback ||| putB 4 n.signed ||| putB 5 n.valid ||| put 8 8 n.div, d)
  | 0x08 => (n.errA.reg, d)
  | 0x10 => (n.errB.reg, d)
  | 0x18 => (put 0 32 n.imgId.toNat ||| put 32 20 n.length.toNat, d)
  | 0x20 => (put 0 32 n.tBc.toNat ||| put 32 32 n.tReady.toNat, d)
  | 0x28 => (n.fpWord 0, d)
  | 0x30 => (n.fpWord 1, d)
  | 0x38 => (n.fpWord 2, d)
  | 0x40 => (n.fpWord 3, d)
  | 0x48 => (putB 0 d.brOpen ||| putB 1 n.twpEn, d)
  | 0x58 => (putB 0 n.brBusy ||| putB 1 n.brDone ||| put 2 4 n.brErr ||| put 8 4 n.vCode ||| put 12 4 n.vSec, d)
  | 0x60 => ((d.ctx p).brIdx, d)
  | 0x68 => d.brRead p
  | 0x70 => (n.vfp, d)
  | _ => (0, d)

/-! ### The commands (BRIDGE_OPERATION_DONE is in `Image`) -/

/-- BRIDGE_READ (R362). -/
def execBridgeRead (t : Ns) (p : Path) (len : BitVec 9) (addr : BitVec 21) (s : State) : Host.Outcome State Fault Refusal :=
  runBy t p (fun _ d => d.bridge p 1 len.toNat addr.toNat) s

/-- PROGRAM (R362). -/
def execProgram (t : Ns) (p : Path) (len : BitVec 9) (addr : BitVec 21) (s : State) : Host.Outcome State Fault Refusal :=
  runBy t p (fun _ d => d.bridge p 2 len.toNat addr.toNat) s

/-- ERASE_4K (R362). -/
def execErase4k (t : Ns) (p : Path) (addr : BitVec 21) (s : State) : Host.Outcome State Fault Refusal :=
  runBy t p (fun _ d => d.bridge p 3 0 addr.toNat) s

/-- ERASE_64K (R362). -/
def execErase64k (t : Ns) (p : Path) (addr : BitVec 21) (s : State) : Host.Outcome State Fault Refusal :=
  runBy t p (fun _ d => d.bridge p 4 0 addr.toNat) s

/-- VERIFY (R362). -/
def execVerify (t : Ns) (p : Path) (addr : BitVec 21) (s : State) : Host.Outcome State Fault Refusal :=
  runBy t p (fun _ d => d.bridge p 5 0 addr.toNat) s

/-- BRIDGE_STATUS_POLL (R361). -/
def execBridgeStatusPoll (t : Ns) (busy : Bool) (s : State) : Host.Outcome State Fault Refusal :=
  runAt t (fun _ d => d.bridgePoll busy) s

/-- BRIDGE_TIMEOUT (R362). -/
def execBridgeTimeout (t : Ns) (s : State) : Host.Outcome State Fault Refusal := runAt t (fun _ d => d.bridgeTimeout) s

/-- NVI_BR_DATA_ACCESS (R362, R363). -/
def execNviBrDataAccess (t : Ns) (p : Path) (w : Option W64) (s : State) : Host.Outcome State Fault Refusal :=
  runAt t (fun _ d => match w with
    | some v => (d.disarm p).brWrite p v
    | none => (d.brRead p).2) s

end Sys2Proof.Machine
end

