-- ==== Sys2Proof/Machine/Super.lean ====
section
/-! DEFINITION. The supervisor: resets, power, clocks, key, afterrun, bivouac, SERVICE, and the registers of pages 0x00
and 0x70 (chapter 17, R384 to R387, R392, R402, R421). Waking and the loading of the image are in `Image`. -/

namespace Sys2Proof.Machine

/-! ### Resets (R370, R373, R376) -/

/-- Upsets of record memory, which a pin or software reset and a restart leave as they are (R373). -/
def keptErrs (l : List Upset) : List Upset := l.filter fun u => u.bank == 9 || u.bank == 10

/-- POR or BOR: every block at its After POR values, DTIME at 0. Lost, as R386 tables it: what is unfinished of the events in
progress, every accepted event, with no result (R373), the records not yet streamed or read, and the snapshots. Kept: the
images, which are in the flash and no part of this state, and what has left the device. What the pins show from outside
stays. -/
def Dev.powerReset (cause : Nat) (warn : Bool) (d : Dev) : Dev :=
  { sup := { mode := .reset, filled := false, lastReset := cause, lastWarn := warn, vgdLow := d.sup.vgdLow }
    pios := { ext := d.pios.ext }, snap := { inLevel := d.snap.inLevel }, free := d.free
    writes := [.fill recBase msgBase] }

/-- FLT_FIRST with its time and coordinate, without what was merged (R373). -/
def Flt.keepFirst (f : Flt) : Flt :=
  if f.valid then
    { valid := true, source := f.source, cls := f.cls, reaction := f.reaction, detail := f.detail, ctrl := f.ctrl
      clsMax := f.clsMax, okey := f.okey, forced := f.forced, time := f.time, coord := f.coord }
  else {}

/-- The record of the first fault, if it has not been written yet. -/
def Dev.firstRecord (d : Dev) : List Rec :=
  d.recm.staging.filter fun r => d.flt.valid && r.type == 7 && r.dtime == d.flt.time

/-- The rings that the log reader goes on reading (R375). -/
def RecM.keep (m : RecM) : Option (Vector Ring 12) := some (m.stood.getD m.rings)

/-- A pin reset (2) or a software reset (3). After a fatal loss of a clock the device stays on the clock it has. -/
def Dev.softReset (cause : Nat) (warn : Bool) (d : Dev) : Dev :=
  if d.sup.mode = .reset then d
  else
    let s := d.sup
    let lost := s.latch && !d.clocksOk
    { dtime := d.dtime
      sup := { mode := .reset, filled := false, lastReset := cause, lastWarn := warn, latch := s.latch, lastFault := s.lastFault
               lastDtime := d.now32, refOk := !lost || s.refOk, pllLock := !lost || s.pllLock, dstep := if lost then s.dstep else 1
               extClk := s.extClk, lockUs := s.lockUs, warn := s.warn, vcoreOk := s.vcoreOk, vgdLow := s.vgdLow
               stoppedAt := d.dtime, asel := s.asel }
      flt := d.flt.keepFirst
      memu := { errs := keptErrs d.memu.errs }
      recm := { stood := d.recm.keep, staging := d.firstRecord, ord := d.recm.ord }
      pios := { ext := d.pios.ext }, snap := { inLevel := d.snap.inLevel }, rope := { role := d.rope.role }, free := d.free }

/-- One byte of a header. -/
def byteAt (l : List Byte) (i : Nat) : Nat := ((l[i]?).getD 0).toNat

/-- A little-endian field of a header. -/
def field (l : List Byte) (i n : Nat) : Nat := leNat ((l.drop i).take n)

/-- The checks of a boot header, in order; code 0 when it is good (R344, R352). -/
def bootCheck (b : List Byte) : LoadErr :=
  let mode := byteAt b 5
  let div := byteAt b 6
  let entries := (List.range 4).takeWhile fun i => byteAt b (16 + 8 * i) != 0
  if field b 0 4 ≠ 0x31424E46 ∨ byteAt b 4 ≠ 1 then { code := 1 }
  else if (crc32 (b.take 60)).toNat ≠ field b 60 4 then { code := 2 }
  else if 2 < mode then { code := 3, detail := 5 }
  else if (mode = 1 ∧ div < 15) ∨ (mode = 2 ∧ div < 10) ∨ (mode ≠ 0 ∧ 100 < div) then { code := 3, detail := 6 }
  else if 1 < byteAt b 8 ∨ (mode = 2 ∧ byteAt b 8 ≠ 1) then { code := 3, detail := 8 }
  else match entries.find? fun i => byteAt b (17 + 8 * i) % 4 == 1 || byteAt b (17 + 8 * i) % 4 == 2 with
    | some i => { code := 3, detail := 17 + 8 * i }
    | none => {}

/-- The boot probe of a slot (R343, R344). -/
def probeOf (slotB : Bool) : List FlashCmd := probeReset ++ [.single 0x03 (flashAddr (if slotB then 0x100000 else 0)) []]

/-- The ENTRY commands of a boot header, up to an opcode of 0, with their waits (R344, R345). -/
def entryCmds (b : List Byte) : List FlashCmd :=
  let at_ (i : Nat) : Byte := BitVec.ofNat 8 (byteAt b i)
  ((List.range 4).takeWhile fun i => byteAt b (16 + 8 * i) != 0).flatMap fun i =>
    let p := 16 + 8 * i
    let n := byteAt b (p + 1) % 4
    let addr := if n = 0 then [] else if n = 3 then [at_ (p + 4), at_ (p + 3), at_ (p + 2)] else [at_ (p + 5), at_ (p + 4), at_ (p + 3), at_ (p + 2)]
    [.single (at_ p) addr (if byteAt b (p + 1) / 4 % 2 = 1 then [at_ (p + 6)] else []), .wait (10 * byteAt b (p + 7))]

/-- The mode switch that a good boot header asks for once the PLL has locked (R345). MODE 0 needs none, and its ENTRY
commands are not sent (DEDUCED: R359 goes on reading in 1-1-1 before the PLL locks; assumption 67). -/
def Nvi.setMode (b : List Byte) (n : Nvi) : Nvi :=
  if byteAt b 5 = 0 then { n with mode := 0, div := 0 }
  else { n with mode := byteAt b 5, div := byteAt b 6, sent := n.sent ++ entryCmds b }

/-- RESET_RELEASE: the straps are sampled, and the boot header of slot A is read; a bad one sends the boot to slot B
(R343, R351, R370). -/
def Dev.release (role asel0 asel1 : Bool) (boot : List Byte) (d : Dev) : Dev :=
  if d.sup.mode ≠ .reset then d
  else
    let x := bootCheck boot
    let d := d.modSup fun s => { s with mode := .fill, asel := BitVec.ofNat 2 (2 * asel1.toNat + asel0.toNat) }
    let d := d.modRope fun r => { r with role := role }
    d.modNvi fun n =>
      if x.code = 0 then { n with phase := .header false, loadFrom := d.dtime, bootHdr := boot, sent := probeOf false }
      else { n with phase := .header true, loadFrom := d.dtime, slotB := true, fallback := true, errA := x, sent := probeOf true }

/-- The factory-fused identifiers of the recovery service (R321). -/
def Dev.fuseSvc (e : Env) (d : Dev) : Dev :=
  d.modCan 0 fun c => { c with svc := put 0 29 e.fuses.svcRxId.toNat ||| put 32 29 e.fuses.svcTxId.toNat }

/-- What the straps and the fuses set once the hardware fill has ended (R321, R332). -/
def Dev.strapped (e : Env) (d : Dev) : Dev :=
  let s := d.sup.asel.toNat
  { d with twp := { d.twp with addr := put 0 7 (0x40 + s) ||| 0x7F00 ||| put 16 7 (0x48 + s) ||| 0xFF000000 } }.fuseSvc e

/-- The checkers' answers to the injected mismatches (R402). -/
def Dev.selfTest (flagged : Bool) (d : Dev) : Dev :=
  if flagged then d else d.raise { source := 5, ctrl := ctrl 0 0 0xFF, coord := d.noEvent }

/-- Zero data in every memory but record memory, and R223's tags (R373, R405). -/
def Dev.fillMost (d : Dev) : Dev := ((d.write (.fill 0 recBase)).write (.fill msgBase sramSize)).write .clearAttrs

/-- HARDWARE_FILL_END (R370). -/
def Dev.fillEnd (e : Env) (lockUs : BitVec 16) (extClk flagged : Bool) (d : Dev) : Dev :=
  if d.sup.mode != .fill || d.sup.filled then d
  else
    let d := d.fillMost.modSup fun s => { s with filled := true, lockUs := lockUs, extClk := extClk }
    let d := d.modNvi fun n => if n.phase = .header false then n.setMode n.bootHdr else n
    ({ d with twp := { d.twp with idleAt := d.dtime } }.strapped e).selfTest flagged

/-- RESTART from SAFE: what R376 keeps, and everything else at its After POR values until the image is loaded again
(R351, R373). -/
def Dev.restart (e : Env) (flagged : Bool) (d : Dev) : Dev :=
  let s := d.sup
  let twpCtx : PathCtx := { page := (d.ctx .twp).page }
  let n : Dev :=
    { dtime := d.dtime
      sup := { mode := s.mode, prev := s.prev, key := s.key, safeCause := s.safeCause, tChange := s.tChange, lastReset := 4
               latch := s.latch, lastFault := s.lastFault, lastDtime := d.now32, refOk := s.refOk, pllLock := s.pllLock
               dstep := s.dstep, extClk := s.extClk, lockUs := s.lockUs, warn := s.warn, vcoreOk := s.vcoreOk
               vgdLow := s.vgdLow, stoppedAt := d.dtime, asel := s.asel }
      nvi := { phase := .header true, loadFrom := d.dtime, isRestart := true, sent := probeOf false }
      pos := { keptCycle := if d.pos.everSynced then some d.pos.cycle else d.pos.keptCycle }
      flt := d.flt.keepFirst
      memu := { errs := keptErrs d.memu.errs }
      paths := upd (Vector.replicate 7 {}) (pathIndex .twp) fun _ => twpCtx
      recm := { stood := d.recm.keep, resultQ := d.recm.resultQ, staging := d.recm.staging, ord := d.recm.ord }
      snap := { inLevel := d.snap.inLevel, outUntil := d.snap.outUntil }
      tmu := d.tmu
      pios := { ext := d.pios.ext }
      rope := { role := d.rope.role }
      twp := { ptr := d.twp.ptr, idleAt := d.twp.idleAt, out := d.twp.out, ack := d.twp.ack, open_ := d.twp.open_ }
      free := d.free, writes := d.writes }
  ((n.fillMost.strapped e).selfTest flagged).pinEdges 16 d.pinLevels

/-! ### Afterrun and bivouac (R368, R378, R379) -/

/-- BIVOUAC is entered: sync is lost with cause MODE, and everything but the timers, the wake sources and the two-wire
port stops. -/
def Dev.bivouac (e : Env) (d : Dev) : Dev :=
  let d := (d.setMode .bivouac).lose e 12 d.dtime none
  let d := (d.endAllEvents e .endedMode 8).dropResiduals
  let d := d.modSup fun s => { s with pllLock := false, dstep := 25, afterrunEnded := false }
  let d := d.modRecm fun r => { r with streams := r.streams.map fun (s : Stream) => { s with queued := none, firstAt := none } }
  { d with can := d.can.map fun (c : Can) =>
      { c with txq := [], svcQ := [], tec := 0, recCnt := 0, busOff := false, recovering := false, level := 0, nonce := none
               staged := none, sample := none, authParts := [] } }

/-- Afterrun ends (R379). -/
def Dev.endAfterrun (e : Env) (d : Dev) : Dev :=
  if d.sup.mode != .afterrun || d.sup.afterrunEnded then d
  else if bit d.sup.cfg 1 then d.bivouac e
  else d.modSup fun s => { s with afterrunEnded := true }

/-- Nothing keeps afterrun going: every engine idle with an empty queue, every streamed ring empty, and AR_SLOT 0 or
without VALID. Tested from the clock after entry on. -/
def Dev.afterrunIdle (e : Env) (d : Dev) : Bool :=
  let slot := fld d.sup.cfg 32 14
  decide (d.sup.afterrunAt < d.dtime)
    && d.ce.toList.all (fun c => c.state == .idle && c.queue.isEmpty)
    && d.recm.rings.toList.all (fun r => r.stream == 0 || r.pending.isEmpty)
    && (!bit d.sup.cfg 2 || e.slot slot == 0 || d.tagDead slot || !(e.attr slot).tag.getLsbD 0)

/-- The filtered KEY_IN goes off. -/
def Dev.keyOff (e : Env) (d : Dev) : Dev :=
  if !d.sup.key || d.sup.mode == .reset then d
  else
    let d := d.modSup fun s => { s with key := false }
    match d.sup.mode with
    | .basecamp | .waitSync | .crank | .run | .limp =>
      let d := d.endAllEvents e .endedMode 7
      let d := d.modSup fun s => { s with afterrunAt := d.dtime, afterrunEnded := false, handover := none }
      d.setMode .afterrun
    | _ => d

/-- The filtered KEY_IN goes on (R380). -/
def Dev.keyOn (d : Dev) : Dev :=
  if d.sup.key || d.sup.mode == .reset then d
  else
    let d := d.modSup fun s => { s with key := true }
    if d.sup.mode ≠ .afterrun then d
    else
      let d := d.modSup fun s => { s with afterrunEnded := false }
      if d.sup.ready then
        let d := d.applyHeld
        let m := d.syncMode
        (d.setMode m).oweStanding .afterrun m true
      else
        (d.modSup fun s => { s with templates := s.templates.map fun x =>
          { x with running := false, due := none, ev := { x.ev with cycle := d.pos.cycle + 1 } } }).setMode .basecamp

/-! ### SERVICE (R382) -/

/-- STOP_1S. -/
def Dev.stopped1s (d : Dev) : Bool := d.sup.stop1s && d.pos.sync == .stopped

/-- ENTER_SERVICE: whether it is accepted. -/
def Dev.serviceMay (p : Path) (d : Dev) : Bool :=
  d.trusted p && (d.sup.mode == .waitSync || (d.sup.mode == .safe && d.nvi.valid && d.sup.safeCause != 2)) && d.stopped1s

def Dev.enterService (e : Env) (d : Dev) : Dev :=
  let d := (d.endAllEvents e .endedMode 9).modSup fun s => { s with safeCause := 0, handover := none }
  { d with bst := { d.bst with held := false } }.setMode .service

/-! ### SUP_CMD (R373, R379, R382, R387) -/

def Dev.supIgn (d : Dev) : Dev := d.modSup fun s => { s with cmdIgn := true }

/-- RESTART is accepted in SAFE, while FLT_FIRST is clear or the cause is IMAGE_INVALID (R373). -/
def Dev.restartMay (d : Dev) : Bool := d.sup.mode == .safe && (!d.flt.valid || d.sup.safeCause == 2)

/-- A command in SUP_CMD. `flagged`: the checkers' answers at a restart. -/
def Dev.supCmd (e : Env) (p : Path) (cmd key : Nat) (flagged : Bool) (d : Dev) : Dev :=
  if key ≠ 0xC5 ∨ (p = .twp ∧ bit d.sup.cfg 3 = false) then d.supIgn
  else match cmd with
    | 1 => d.softReset 3 d.sup.warn
    | 2 => if d.restartMay then d.restart e flagged else d.supIgn
    | 3 => if d.serviceMay p then d.enterService e else d.supIgn
    | 4 => if d.sup.mode == .afterrun && !d.sup.afterrunEnded then d.endAfterrun e else d.supIgn
    | _ => d.supIgn

/-! ### Power and clocks (R383 to R385, R392, R421) -/

/-- Payload of the last-gasp frame (R385). -/
def Dev.gaspBytes (d : Dev) : List Byte :=
  let f := d.flt
  let pend := (d.recm.rings.toList.map Ring.used).sum
  let lost := (d.recm.rings.toList.map fun r => r.lost.toNat).sum
  let mx := 2 ^ 32 - 1
  [1, 1, BitVec.ofNat 8 d.sup.mode.code, BitVec.ofNat 8 d.pos.sync.code]
    ++ leBytes 4 (fld d.posw 32 32) ++ leBytes 4 (fld d.posw 0 32) ++ leBytes 4 d.now32.toNat
    ++ [BitVec.ofNat 8 (if f.valid then f.source else 0), BitVec.ofNat 8 (if f.valid then f.cls else 0)]
    ++ leBytes 2 f.mergeCnt ++ leBytes 2 d.snap.num.toNat ++ [d.snap.sources.setWidth 8, 0]
    ++ leBytes 4 (satN mx pend) ++ leBytes 4 (satN mx lost)

/-- The last-gasp frame joins the queue of GASP_CAN, at its head. A controller that is bus-off queues nothing (R306). -/
def Dev.gasp (d : Dev) : Dev :=
  let c := d.sup.pwrCfg
  let k : Fin 4 := Fin.ofNat 4 (fld c 1 2)
  if !bit c 0 || d.can[k].busOff then d
  else
    d.enqueue k { src := .gasp, at_ := d.dtime, frame :=
      { format := .fd, ide := bit c 3, id := BitVec.ofNat 29 (fld c 32 29), remote := false, brs := true, sdt := 0, vcid := 0
        af := 0, data := d.gaspBytes, sof := 0 } }

/-- VSUP falls below 2.60 V (R384, R385). -/
def Dev.powerWarn (d : Dev) : Dev :=
  if d.sup.warn then d
  else
    let d := d.gasp.modSup fun s => { s with warn := true, warnSeen := true }
    d.stopConverters.raise { source := 9, ctrl := ctrl 0 0 0xFF, coord := d.noEvent }

/-- VSUP is back above 2.70 V for 100 µs (R384, R385). -/
def Dev.powerBack (d : Dev) : Dev :=
  if !d.sup.warn then d
  else
    let d := d.modSup fun s => { s with warn := false }
    if bit d.sup.pwrCfg 4 then d.softReset 3 true
    else if d.sup.mode.converters then d.startConverters else d

/-- Pins supplied from VGD lose what is on (R421). -/
def Pin.block (p : Pin) : Pin := { p with blocked := p.blocked || p.on }

def Dev.vgdDown (d : Dev) : Dev :=
  let bank (b : Bank) : Bank :=
    { b with hsb := b.hsb.block, hsv := b.hsv.block, fw := b.fw.block, lsPins := b.lsPins.map Pin.block }
  let ign (g : Ign) : Ign := if bit g.cfg 1 then { g with pin := g.pin.block } else g
  { d with
    sup := { d.sup with vgdLow := true }
    banks := d.banks.map bank
    bst := { d.bst with pin := d.bst.pin.block }
    pfi := d.pfi.map fun (x : Pfi) => { x with pin := x.pin.block }
    ign := d.ign.map ign }

def Dev.xtalLost (d : Dev) : Dev :=
  (d.modSup fun s => { s with refOk := false, dstep := 125 }).raise { source := 1, ctrl := ctrl 0 1 0xFF, coord := d.noEvent }

def Dev.pllLost (d : Dev) : Dev :=
  (d.modSup fun s => { s with pllLock := false, dstep := if s.refOk then 25 else s.dstep }).raise
    { source := 2, ctrl := ctrl 0 1 0xFF, coord := d.noEvent }

/-! ### Registers of pages 0x00 and 0x70 (R387, R415) -/

/-- SUP_ID (R415). -/
def Fuses.regId (f : Fuses) : W64 :=
  put 0 16 0x1680 ||| put 16 4 f.step.toNat ||| putB 20 f.sigReq ||| putB 21 f.keyHash.isSome ||| putB 22 f.svcKey0.isSome
    ||| putB 23 f.svcKey1.isSome ||| put 32 32 f.serial.toNat

/-- SUP_CFG written: TWP_CMD and SINGLE_LIMP by the loader alone; values outside their range are not taken. -/
def Dev.supCfg (loader : Bool) (v : W64) (d : Dev) : Dev :=
  let new := v &&& 0x00003FFFFFFFFF0F
  let keep := loader || (new &&& 9) == (d.sup.cfg &&& 9)
  d.guarded (d.mayDrive loader && keep && fld v 8 8 != 0 && fld v 16 16 != 0) Dev.supIgn (Dev.modSup fun s => { s with cfg := new })

/-- SUP_SVC written: SYN_EN in SERVICE only, SYN_RPM from 50 to 20 000. -/
def Dev.supSvc (loader : Bool) (v : W64) (d : Dev) : Dev :=
  let new := v &&& 0xFFFF0001
  let synOk := loader || d.sup.mode == .service || bit v 0 == bit d.sup.svc 0
  d.guarded (d.mayDrive loader && synOk && decide (50 ≤ fld v 16 16) && decide (fld v 16 16 ≤ 20000)) Dev.supIgn fun d =>
    let on := bit v 0 && !bit d.sup.svc 0
    let d := d.modSup fun s => { s with svc := new }
    if on then d.modPos fun p => { p with synTime := some d.dtime, synAngle := 0 } else d

def Dev.wrSup (e : Env) (loader : Bool) (p : Path) (ofs : Nat) (v : W64) (d : Dev) : Dev :=
  match ofs with
  | 0x08 => d.modSup fun s => { s with cmdIgn := s.cmdIgn && !bit v 16, ringReset := s.ringReset && !bit v 17 }
  | 0x10 => d.supCmd e p (fld v 0 4) (fld v 8 8) true
  | 0x28 => d.supCfg loader v
  | 0x30 => d.guarded (d.mayDrive loader) Dev.supIgn (Dev.modSup fun s => { s with wake := v &&& 7 })
  | 0x38 => d.supSvc loader v
  | _ => d

def Dev.rdSup (e : Env) (ofs : Nat) (d : Dev) : W64 :=
  let s := d.sup
  match ofs with
  | 0x00 => e.fuses.regId
  | 0x08 => d.regMode
  | 0x18 => put 0 3 s.lastReset ||| putB 3 s.lastWarn ||| putB 4 s.latch ||| put 8 8 s.lastFault.toNat ||| put 32 32 s.lastDtime.toNat
  | 0x20 => d.nvi.fpWord 0
  | 0x28 => s.cfg
  | 0x30 => s.wake ||| put 8 4 s.wakeSrc.toNat ||| put 32 32 s.wakes.toNat
  | 0x38 => s.svc ||| putB 1 d.stopped1s
  | 0x40 => put 0 8 s.templates.length ||| put 16 16 s.bcSkipped.toNat ||| put 32 32 s.bcEvents.toNat
  | _ => 0

def Dev.wrPwr (loader : Bool) (ofs : Nat) (v : W64) (d : Dev) : Dev :=
  match ofs with
  | 0x08 => d.guarded loader Dev.supIgn (Dev.modSup fun s => { s with pwrCfg := v &&& 0x1FFFFFFF0000001F })
  | 0x10 => d.modSup fun s => { s with warnSeen := s.warnSeen && !bit v 1, gaspSent := s.gaspSent && !bit v 2 }
  | _ => d

def Dev.rdPwr (ofs : Nat) (d : Dev) : W64 :=
  let s := d.sup
  match ofs with
  | 0x00 => putB 0 s.pllLock ||| putB 1 s.refOk ||| putB 2 s.extClk ||| put 16 16 s.lockUs.toNat
  | 0x08 => s.pwrCfg
  | 0x10 => putB 0 s.warn ||| putB 1 s.warnSeen ||| putB 2 s.gaspSent ||| putB 3 s.vcoreOk
  | _ => 0

/-! ### The commands (RESTART's loading, KEY_ON in bivouac and WAKE are in `Image`) -/

/-- POWER_ON_RESET (R373). -/
def execPowerOnReset (t : Ns) (s : State) : Host.Outcome State Fault Refusal := runAt t (fun _ d => d.powerReset 0 false) s

/-- BROWN_OUT_RESET (R373, R383). -/
def execBrownOutReset (t : Ns) (s : State) : Host.Outcome State Fault Refusal :=
  runAt t (fun _ d => d.powerReset 1 d.sup.warn) s

/-- PIN_RESET (R373). -/
def execPinReset (t : Ns) (s : State) : Host.Outcome State Fault Refusal := runAt t (fun _ d => d.softReset 2 d.sup.warn) s

/-- RESET_RELEASE (R370). -/
def execResetRelease (t : Ns) (ropeRole asel0 asel1 : Bool) (boot : List Byte) (s : State) : Host.Outcome State Fault Refusal :=
  runAt t (fun _ d => d.release ropeRole asel0 asel1 boot) s

/-- HARDWARE_FILL_END (R370, R402). -/
def execHardwareFillEnd (t : Ns) (lockUs : BitVec 16) (extClk posFlagged admFlagged : Bool) (s : State) :
    Host.Outcome State Fault Refusal :=
  runAt t (fun e d => d.fillEnd e lockUs extClk (posFlagged && admFlagged)) s

/-- SOFTWARE_RESET (R373). -/
def execSoftwareReset (t : Ns) (p : Path) (key : Byte) (s : State) : Host.Outcome State Fault Refusal :=
  runBy t p (fun e d => d.supCmd e p 1 key.toNat true) s

/-- RESTART (R373, R402). -/
def execRestart (t : Ns) (p : Path) (key : Byte) (posFlagged admFlagged : Bool) (s : State) : Host.Outcome State Fault Refusal :=
  runBy t p (fun e d => d.supCmd e p 2 key.toNat (posFlagged && admFlagged)) s

/-- ENTER_SERVICE (R382). -/
def execEnterService (t : Ns) (p : Path) (key : Byte) (s : State) : Host.Outcome State Fault Refusal :=
  runBy t p (fun e d => d.supCmd e p 3 key.toNat true) s

/-- END_AFTERRUN (R379). -/
def execEndAfterrun (t : Ns) (p : Path) (key : Byte) (s : State) : Host.Outcome State Fault Refusal :=
  runBy t p (fun e d => d.supCmd e p 4 key.toNat true) s

/-- KEY_OFF (R368). -/
def execKeyOff (t : Ns) (s : State) : Host.Outcome State Fault Refusal := runAt t (fun e d => d.keyOff e) s

/-- AFTERRUN_END (R379). -/
def execAfterrunEnd (t : Ns) (s : State) : Host.Outcome State Fault Refusal :=
  runAt t (fun e d => if d.afterrunIdle e then d.endAfterrun e else d) s

/-- AR_MAX (R379). -/
def execArMax (t : Ns) (s : State) : Host.Outcome State Fault Refusal :=
  runAt t (fun e d => if d.sup.afterrunAt + fld d.sup.cfg 16 16 * 1000000000 ≤ d.dtime then d.endAfterrun e else d) s

/-- STOP_1S (R382). -/
def execStop1s (t : Ns) (s : State) : Host.Outcome State Fault Refusal :=
  runAt t (fun _ d => if d.pos.sync = .stopped ∧ d.sup.stoppedAt + 1000000000 ≤ d.dtime then
    d.modSup fun s => { s with stop1s := true } else d) s

/-- ALIVE_TOGGLE (R399). -/
def execAliveToggle (t : Ns) (s : State) : Host.Outcome State Fault Refusal :=
  runAt t (fun _ d => d.modSup fun s => { s with alive := s.aliveRun && !s.alive }) s

/-- BOR_WARNING (R384, R385). -/
def execBorWarning (t : Ns) (s : State) : Host.Outcome State Fault Refusal := runAt t (fun _ d => d.powerWarn) s

/-- VSUP_RECOVERY (R384, R385). -/
def execVsupRecovery (t : Ns) (s : State) : Host.Outcome State Fault Refusal := runAt t (fun _ d => d.powerBack) s

/-- VGD_UNDERVOLTAGE (R421). -/
def execVgdUndervoltage (t : Ns) (s : State) : Host.Outcome State Fault Refusal := runAt t (fun _ d => d.vgdDown) s

/-- VGD_RECOVERY (R421). -/
def execVgdRecovery (t : Ns) (s : State) : Host.Outcome State Fault Refusal :=
  runAt t (fun _ d => d.modSup fun s => { s with vgdLow := false }) s

/-- CLK_XTAL_LOST (R27, R392). -/
def execClkXtalLost (t : Ns) (s : State) : Host.Outcome State Fault Refusal := runAt t (fun _ d => d.xtalLost) s

/-- CLK_PLL_LOST (R27, R392). -/
def execClkPllLost (t : Ns) (s : State) : Host.Outcome State Fault Refusal := runAt t (fun _ d => d.pllLost) s

/-- LOCKSTEP_MISMATCH (R23, R402). R23 builds the decoder, the predictor and the solver twice as one unit and names none of
them: LOCKSTEP_POS carries the decoder's coordinate (DESIGN CHOICE, assumption 58; unsafe for a claim about its CTRL). -/
def execLockstepMismatch (t : Ns) (unit : LockstepUnit) (s : State) : Host.Outcome State Fault Refusal :=
  runAt t (fun _ d => match unit with
    | .pos => d.raise { source := 3, ctrl := ctrl 1 1 0xFF, coord := d.noEvent }
    | .adm => d.raise { source := 4, ctrl := ctrl 2 1 0xFF, coord := d.noEvent }) s

/-- SUP_VCORE (R393). -/
def execSupVcore (t : Ns) (s : State) : Host.Outcome State Fault Refusal :=
  runAt t (fun _ d => (d.modSup fun s => { s with vcoreOk := false }).raise { source := 8, ctrl := ctrl 0 0 0xFF, coord := d.noEvent }) s

end Sys2Proof.Machine
end

