-- ==== Sys2Proof/Machine/Mem.lean ====
section
/-! DEFINITION. The registers of the fault unit and of memory protection (pages 0x01 and 0x02, R410), forced faults
(R401), the leaving of a fault (R398), the patrol scrubber (R406, R407) and the memory test (R409). -/

namespace Sys2Proof.Machine

/-! ### FLT (R389, R394, R398, R401) -/

def Dev.fltIgn (d : Dev) : Dev := d.modFlt fun f => { f with cfgIgn := true }

/-- VALID written 1: the first fault and what was merged into it are forgotten. Not in LOCKED (R398). -/
def Dev.firstClear (d : Dev) : Dev :=
  if d.sup.mode = .locked then d.fltIgn
  else d.modFlt fun f =>
    { f with valid := false, source := 0, cls := 0, reaction := 0, detail := 0, ctrl := 0, clsMax := 0, okey := none
             forced := false, time := 0, coord := 0, merged := 0, mergeCnt := 0 }

/-- Bit of FLT_DIS of a disabled object. -/
def disBit : DisKey → Option Nat
  | .cyl n => some n
  | .output .ign n => some (16 + n)
  | .output .gate n => some (32 + n)
  | .output .sample n => some (40 + n)
  | .output .calc n => some (42 + n)
  | .output .capt _ => some 50
  | .output .pio n => some (51 + n)
  | _ => none

/-- Bits written 1 in FLT_DIS re-enable their objects (R389). -/
def Dev.disClear (v : W64) (d : Dev) : Dev :=
  let gone (k : DisKey) : Bool := match disBit k with | some i => bit v i | none => false
  d.modFlt fun f => { f with dis := f.dis &&& ~~~v, disSrc := f.disSrc.filter fun x => !gone x.1 }

/-- A path is armed for FLT_FORCE: 100 µs have not passed without a write (R401). -/
def Dev.isArmed (p : Path) (d : Dev) : Bool :=
  match (d.ctx p).armedAt with
  | some t => decide (d.dtime < t + 100000)
  | none => false

def Dev.forceKey (p : Path) (v : W64) (d : Dev) : Dev :=
  d.modCtx p fun c => { c with armedAt := if fld v 0 16 = 0xA5C3 then some d.dtime else none }

/-- Control coordinate of a forced fault: that of the unit that raises the source (R393). -/
def forcedCtrl (s : Nat) : BitVec 16 :=
  match s with
  | 1 | 2 => ctrl 0 1 0xFF
  | 3 | 13 => ctrl 1 1 0xFF
  | 4 => ctrl 2 1 0xFF
  | 6 => ctrl 3 0 7
  | 10 => ctrl 2 3 0xFF
  | 11 => ctrl 3 8 0xFF
  | 12 => ctrl 3 6 0xFF
  | 14 | 24 => 0x80FF
  | 15 | 16 => ctrl 4 0 0xFF
  | 17 | 18 => ctrl 5 0 0xFF
  | 19 | 25 => ctrl 6 0 0xFF
  | 20 | 21 | 22 => ctrl 6 4 0xFF
  | 23 => ctrl 2 2 0xFF
  | 26 => 0xE0FF
  | 27 => ctrl 0 3 0xFF
  | _ => ctrl 0 0 0xFF

/-- FLT_FORCE written: every source whose bit is set is raised, in one clock, with DETAIL 0. A forced DIAG has class 0 of
DIAG_REACT. The write uses the arming up. -/
def Dev.force (p : Path) (v : W64) (d : Dev) : Dev :=
  let ok := d.isArmed p && d.sup.mode == .service
  let d := d.disarm p
  if !ok then d.fltIgn
  else
    let diag := let r := fld d.diag.react 0 2; if r = 0 then 1 else if r = 3 then 5 else r + 1
    ((List.range 28).filter fun s => s != 0 && bit v s).foldl (init := d) fun d s =>
      d.raise { source := s, ctrl := forcedCtrl s, coord := d.noEvent, forced := true, react := if s = 11 then some diag else none }

/-- The source that a path has selected. -/
def Dev.fltSrc (d : Dev) (p : Path) : Nat := fld (d.ctx p).srcSel 0 6

/-- FLT_SRC_CFG.REACT (R394). -/
def Dev.setReact (loader : Bool) (p : Path) (v : W64) (d : Dev) : Dev :=
  let s := d.fltSrc p
  let r := fld v 0 3
  d.guarded (d.mayDrive loader && decide (1 < (srcAllowed s).length) && (srcAllowed s).contains r) Dev.fltIgn fun d =>
    d.modFlt fun f => { f with react := f.react.setIfInBounds s r }

def Dev.wrFlt (loader : Bool) (p : Path) (ofs : Nat) (v : W64) (d : Dev) : Dev :=
  match ofs with
  | 0x00 => if bit v 63 then d.firstClear else d
  | 0x28 => d.forceKey p v
  | 0x30 => d.force p v
  | 0x38 => d.modCtx p fun c => { c with srcSel := v &&& 0x3F }
  | 0x40 => d.setReact loader p v
  | 0x50 => d.disClear v
  | 0x58 => d.guarded (d.mayDrive loader) Dev.fltIgn (Dev.modFlt fun f => { f with corrRec := bit v 0 })
  | 0x60 => d.modFlt fun f => { f with cfgIgn := f.cfgIgn && !bit v 3, noObj := f.noObj && !bit v 4 }
  | _ => d

def Dev.rdFlt (p : Path) (ofs : Nat) (d : Dev) : W64 :=
  let f := d.flt
  let s := d.fltSrc p
  match ofs with
  | 0x00 => d.regFirst
  | 0x08 => put 0 64 f.time
  | 0x10 => f.coord
  | 0x18 => f.merged
  | 0x20 => put 0 16 f.mergeCnt
  | 0x38 => (d.ctx p).srcSel
  | 0x40 => put 0 3 ((f.react.toList[s]?).getD 0) ||| put 3 2 (srcClass s)
      ||| (srcAllowed s).foldl (init := 0) fun a r => a ||| putB (7 + r) true
  | 0x48 => put 0 32 ((f.cnt.toList[s]?).getD 0).toNat ||| put 32 32 ((f.lastT.toList[s]?).getD 0).toNat
  | 0x50 => f.dis
  | 0x58 => putB 0 f.corrRec
  | 0x60 => putB 0 d.faultN ||| putB 1 d.sup.aliveRun ||| putB 2 (d.isArmed p) ||| putB 3 f.cfgIgn ||| putB 4 f.noObj
  | _ => 0

/-! ### The patrol scrubber (R403, R406, R407) -/

/-- A stored bit flips; flipped back, it is as coded. -/
def addUpset (u : Upset) (l : List Upset) : List Upset :=
  match l.find? fun x => x.bank == u.bank && x.word == u.word && x.byte == u.byte with
  | some x =>
    let rest := l.filter fun y => !(y.bank == u.bank && y.word == u.word && y.byte == u.byte)
    let f := x.flips ^^^ u.flips
    if f = 0 then rest else { u with flips := f } :: rest
  | none => if u.flips = 0 then l else u :: l

/-- An uncorrectable word of a bank found by the scrubber (R407). -/
def Dev.scrubBad (e : Env) (b w : Nat) (d : Dev) : Dev :=
  let calcUe (d : Dev) : Dev := d.raise { source := 24, detail := b, ctrl := 0x80FF, coord := d.noEvent }
  match b with
  | 0 | 2 | 3 => calcUe d
  | 1 => [2 * w, 2 * w + 1].foldl (init := calcUe d) fun d i => d.write (.tag i ((e.attr i).tag &&& 0xFE))
  | 4 =>
    let i := w / 4
    match d.descr i with
    | some _ => d.loftError e i [w % 4]
    | none => (d.modLoft fun l => { l with ue := true, ueCnt := l.ueCnt + 1 }).raise
        { source := 23, detail := 4, ctrl := ctrl 2 2 0xFF, coord := d.noEvent }
  | 9 | 10 => d.raise { source := 26, detail := b, ctrl := 0xE0FF, coord := d.noEvent }
  | 15 => d.raiseSys
  | 16 => calcUe (if d.memu.deadTags.contains w then d else { d with memu := { d.memu with deadTags := w :: d.memu.deadTags } })
  | _ =>
    if b < 9 then d.raiseProf (b - 5)
    else d.raise { source := 25, detail := b, ctrl := ctrl 6 (b - 11) 0xFF, coord := d.noEvent }

/-- One word of a bank read by the scrubber. -/
def Dev.scrubBank (e : Env) (b : Fin 17) (d : Dev) : Dev :=
  let w := d.memu.banks[b].idx
  let n := (bankWords[b.val]?).getD 1
  let d := match d.wordStatus b.val w with
    | (0, _) => d
    | (1, i) => d.corrected b.val w i true
    | (s, i) => (d.uncorrectable b.val w i s true).scrubBad e b.val w
  d.modMemBank b.val fun m => if w + 1 < n then { m with idx := w + 1 } else { m with idx := 0, passes := m.passes + 1 }

/-- SCRUB_STEP: the upsets that have come about, and one word in every bank. -/
def Dev.scrub (e : Env) (l : List Upset) (d : Dev) : Dev :=
  let d := { d with memu := { d.memu with errs := l.foldl (fun acc u => addUpset u acc) d.memu.errs } }
  if d.sup.filled then (List.finRange 17).foldl (init := d) fun d b => d.scrubBank e b else d

/-! ### The memory test (R409) -/

def Dev.modMem (f : MemU → MemU) (d : Dev) : Dev := { d with memu := f d.memu }
def Dev.memIgn (d : Dev) : Dev := d.modMem fun m => { m with cfgIgn := true }

/-- Check bits of a byte under an address parity (R404). -/
def checkBits (b : Byte) (ap : Bool) : BitVec 5 :=
  (List.finRange 9).foldl (init := 0) fun s i =>
    if (if i.val = 8 then ap else b.getLsbD i.val) then s ^^^ eccColumn i else s

/-- Address parity of a test word. -/
def wordParity (w : Nat) : Bool := popcount w 4 % 2 == 1

/-- Byte `i` of a test word, and its stored check bits: bytes 0 to 7 in D0, 0 to 11 in C0. -/
def TestWord.byte (x : TestWord) (i : Nat) : Byte := BitVec.ofNat 8 (if i < 8 then fld x.d0 (8 * i) 8 else fld x.d1 (8 * (i - 8)) 8)
def TestWord.chk (x : TestWord) (i : Nat) : BitVec 5 := BitVec.ofNat 5 (if i < 12 then fld x.c0 (5 * i) 5 else fld x.c1 (5 * (i - 12)) 5)

/-- Sixteen 5-bit fields laid out as in C0 and C1. -/
def fives (f : Nat → BitVec 5) : W64 × W64 :=
  ((List.range 12).foldl (init := 0) fun a i => a ||| put (5 * i) 5 (f i).toNat,
   (List.range 4).foldl (init := 0) fun a i => a ||| put (5 * i) 5 (f (12 + i)).toNat)

def bytes8 (f : Nat → Byte) (lo : Nat) : W64 := (List.range 8).foldl (init := 0) fun a i => a ||| put (8 * i) 8 (f (lo + i)).toNat

/-- A byte read with an address parity that is inverted or not: data delivered, syndrome, status. A byte that is as it
would be coded shows the parity alone. -/
def testByte (x : TestWord) (w i : Nat) (flip : Bool) : Byte × BitVec 5 × Nat :=
  let b := x.byte i
  let diff := x.chk i ^^^ checkBits b (wordParity w)
  let s := if flip then diff ^^^ eccColumn 8 else diff
  if diff = 0 then (b, s, if flip then 3 else 0)
  else if s = 0 then (b, s, 0)
  else if s = eccColumn 8 then (b, s, 3)
  else match (List.finRange 8).find? fun j => eccColumn (j.castLE (by omega)) = s with
    | some j => (b ^^^ BitVec.ofNat 8 (2 ^ j.val), s, 1)
    | none => (b, s, if popcount s.toNat 5 = 1 then 1 else 2)

/-- MEM_TEST_CTRL: one operation on a test word (0 none). Only in SERVICE. -/
def Dev.memTest (loader : Bool) (op w : Nat) (flip : Bool) (d : Dev) : Dev :=
  if !(loader || d.sup.mode == .service) then d.memIgn
  else
    let i := Fin.ofNat 16 w
    let d := d.modMem fun m => { m with ctrl := put 2 4 w ||| putB 6 flip }
    let m := d.memu
    match op with
    | 1 =>
      let y : TestWord := { d0 := m.d0, d1 := m.d1 }
      let c := fives fun j => checkBits (y.byte j) (wordParity w)
      d.modMem fun m => { m with test := upd m.test i fun _ => { y with c0 := c.1, c1 := c.2 } }
    | 2 => d.modMem fun m => { m with test := upd m.test i fun _ => { d0 := m.d0, d1 := m.d1, c0 := m.c0, c1 := m.c1 } }
    | 3 =>
      let x := m.test[i]
      let r (j : Nat) := testByte x w j flip
      let syn := fives fun j => (r j).2.1
      d.modMem fun m =>
        { m with d0 := bytes8 (fun j => (r j).1) 0, d1 := bytes8 (fun j => (r j).1) 8, c0 := x.c0, c1 := x.c1
                 syn0 := syn.1, syn1 := syn.2
                 res := BitVec.ofNat 32 ((List.range 16).foldl (init := 0) fun a j => a + (r j).2.2 * 4 ^ j) }
    | _ => d

/-! ### Registers of page 0x02 -/

def Dev.memIdxOf (d : Dev) (p : Path) : Nat := fld (d.ctx p).memIdx 0 5

def Dev.wrMem (loader : Bool) (p : Path) (ofs : Nat) (v : W64) (d : Dev) : Dev :=
  let test (f : MemU → MemU) : Dev := d.guarded (loader || d.sup.mode == .service) Dev.memIgn (Dev.modMem f)
  match ofs with
  | 0x00 => d.modMem fun m => { m with cfgIgn := m.cfgIgn && !bit v 48 }
  | 0x08 => if fld v 0 5 < 17 then d.modCtx p fun c => { c with memIdx := v &&& 0x1F } else d
  | 0x28 => d.memTest loader (fld v 0 2) (fld v 2 4) (bit v 6)
  | 0x30 => test fun m => { m with d0 := v }
  | 0x38 => test fun m => { m with d1 := v }
  | 0x40 => test fun m => { m with c0 := v &&& mask64 0 60 }
  | 0x48 => test fun m => { m with c1 := v &&& mask64 0 20 }
  | _ => d

def Dev.rdMem (e : Env) (p : Path) (ofs : Nat) (d : Dev) : W64 :=
  let m := d.memu
  let i := d.memIdxOf p
  let b := (m.banks.toList[i]?).getD {}
  match ofs with
  | 0x00 => put 0 32 m.ce.toNat ||| put 32 16 m.ue.toNat ||| putB 48 m.cfgIgn
  | 0x08 => (d.ctx p).memIdx
  | 0x10 =>
    let (r, c) := (e.fuses.spares[i]?).getD (0, 0)
    put 0 3 r ||| put 3 2 c ||| put 16 16 b.ce.toNat ||| put 32 16 b.ue.toNat ||| put 48 16 b.passes.toNat
  | 0x18 => m.lastCe
  | 0x20 => m.lastUe
  | 0x28 => m.ctrl
  | 0x30 => m.d0
  | 0x38 => m.d1
  | 0x40 => m.c0
  | 0x48 => m.c1
  | 0x50 => m.syn0
  | 0x58 => m.syn1
  | 0x60 => put 0 32 m.res.toNat
  | _ => 0

/-! ### The commands -/

/-- FLT_FORCE_KEY (R401). -/
def execFltForceKey (t : Ns) (p : Path) (v : W64) (s : State) : Host.Outcome State Fault Refusal :=
  runAt t (fun _ d => d.forceKey p v) s

/-- FLT_FORCE (R401). -/
def execFltForce (t : Ns) (p : Path) (v : W64) (s : State) : Host.Outcome State Fault Refusal :=
  runAt t (fun _ d => d.force p v) s

/-- FORCE_DISARM (R401): another write, or 100 µs without one. -/
def execForceDisarm (t : Ns) (p : Path) (s : State) : Host.Outcome State Fault Refusal := runAt t (fun _ d => d.disarm p) s

/-- FIRST_FAULT_CLEAR (R398). -/
def execFirstFaultClear (t : Ns) (p : Path) (s : State) : Host.Outcome State Fault Refusal :=
  runBy t p (fun _ d => d.firstClear) s

/-- FLT_DIS_CLEAR (R389). -/
def execFltDisClear (t : Ns) (p : Path) (v : W64) (s : State) : Host.Outcome State Fault Refusal :=
  runBy t p (fun _ d => d.disClear v) s

/-- SCRUB_STEP (R406). -/
def execScrubStep (t : Ns) (upsets : List Upset) (s : State) : Host.Outcome State Fault Refusal :=
  runAt t (fun e d => d.scrub e upsets) s

/-- MEM_TEST_WRITE_CODED (R409). -/
def execMemTestWriteCoded (t : Ns) (p : Path) (word : Fin 16) (flipAp : Bool) (s : State) : Host.Outcome State Fault Refusal :=
  runBy t p (fun _ d => d.memTest false 1 word.val flipAp) s

/-- MEM_TEST_WRITE_RAW (R409). -/
def execMemTestWriteRaw (t : Ns) (p : Path) (word : Fin 16) (flipAp : Bool) (s : State) : Host.Outcome State Fault Refusal :=
  runBy t p (fun _ d => d.memTest false 2 word.val flipAp) s

/-- MEM_TEST_READ (R409). -/
def execMemTestRead (t : Ns) (p : Path) (word : Fin 16) (flipAp : Bool) (s : State) : Host.Outcome State Fault Refusal :=
  runBy t p (fun _ d => d.memTest false 3 word.val flipAp) s

end Sys2Proof.Machine
end

