-- ==== Sys2Proof/Machine/LowRegs.lean ====
section
/-! DEFINITION. Reads of the registers of pages 0x08 to 0x18 (R73, R101, R134, R136, R137, R152). -/

namespace Sys2Proof.Machine

/-! ### The position pages -/

/-- POS_WHEEL: header bits 13 to 0 of R42, and ANCHOR_OFS as it was loaded. -/
def Dev.regWheel (d : Dev) : W64 :=
  let w := d.pos.wheel
  put 0 8 w.crkPos ||| putB 8 w.twoStroke ||| putB 9 w.nogap ||| put 10 4 w.camEn.toNat
    ||| putI 32 32 (w.anchorOfs + d.pos.switchOfs)

def Dev.rdPage08 (ofs : Nat) (d : Dev) : W64 :=
  let p := d.pos
  match ofs with
  | 0x00 => d.posw
  | 0x08 => put 0 64 d.dtime
  | 0x10 => put 0 64 p.rpm
  | 0x18 => put 0 64 p.cycleNs
  | 0x20 => put 0 48 p.nk ||| put 48 8 p.nkPosn
  | 0x28 => d.regSync
  | 0x30 => put 0 4 p.lossCause.toNat ||| put 16 16 p.lossCount.toNat ||| put 32 32 p.lossAngle
  | 0x38 => p.lossPolicy
  | 0x40 => p.syncCfg
  | 0x48 => p.bandsRun
  | 0x50 => p.bandsCrank
  | 0x58 => p.runThr
  | 0x60 => p.dual
  | 0x68 => d.regWheel
  | _ => 0

/-- POS_CORR of the selected entry. -/
def Dev.regCorr (i : Nat) (d : Dev) : W64 :=
  let w := d.pos.wheel
  match w.teeth[i]? with
  | some t =>
    putI 0 16 ((d.pos.corr[i]?).getD 0) ||| put 16 32 (if t.present then w.span i else 0) ||| putB 48 t.present
  | none => 0

def Dev.rdPage09 (p : Path) (ofs : Nat) (d : Dev) : W64 :=
  let x := d.pos
  match ofs with
  | 0x00 => x.predCfg
  | 0x08 => x.predHold
  | 0x10 => d.regPred
  | 0x18 => putI 0 32 x.residLast ||| put 32 31 x.residMax
  | 0x20 => put 0 16 x.lateCnt.toNat ||| put 16 16 x.clampCnt.toNat ||| put 32 16 x.holdCnt.toNat ||| put 48 12 x.passMax.toNat
  | 0x28 => x.learnCfg
  | 0x30 => put 0 32 x.learn.revs.toNat ||| put 32 16 x.learn.sat.toNat ||| putB 48 x.learn.active
  | 0x38 => (d.ctx p).corrIdx
  | 0x40 => d.regCorr (fld (d.ctx p).corrIdx 0 8)
  | _ => 0

def Dev.rdPage0A (p : Path) (ofs : Nat) (d : Dev) : W64 :=
  let i := d.pos.inputs[Fin.ofNat 6 (fld (d.ctx p).inSel 0 3)]
  match ofs with
  | 0x00 => (d.ctx p).inSel
  | 0x08 => i.cfg
  | 0x10 => put 0 16 i.peak.toNat ||| putB 16 i.level
  | 0x18 => put 0 32 i.edges.toNat ||| put 32 16 i.noise.toNat ||| put 48 16 i.dirBad.toNat
  | 0x20 => put 0 64 i.last
  | _ => 0

def Vvt.reg (v : Vvt) : W64 := putI 0 32 v.avg ||| put 32 5 v.n ||| putB 37 v.valid

def Dev.rdPage0B (ofs : Nat) (d : Dev) : W64 :=
  match ofs with
  | 0x00 => d.pos.measCfg
  | 0x08 => d.pos.vvt[0].reg
  | 0x10 => d.pos.vvt[1].reg
  | 0x18 => d.pos.vvt[2].reg
  | 0x20 => d.pos.vvt[3].reg
  | _ => 0

/-! ### Admission -/

/-- Four rejection counters in one register. -/
def Adm.regRej (a : Adm) (first n : Nat) : W64 :=
  (List.range n).foldl (fun w i => w ||| put (16 * i) 16 ((a.rejCnt.toList[first + i]?).getD 0).toNat) 0

def Dev.rdPage10 (ofs : Nat) (d : Dev) : W64 :=
  let a := d.adm
  match ofs with
  | 0x00 => a.cfg
  | 0x08 => a.env
  | 0x10 =>
    if d.pos.wheel.crkPos = 0 then 0 else put 0 32 (satN (2 ^ 32 - 1) d.pFast) ||| put 32 32 (satN (2 ^ 32 - 1) d.pRef)
  | 0x18 => a.bankGap
  | 0x20 => d.regLedger
  | 0x28 => d.regLoad
  | 0x30 => put 0 32 a.acc.toNat ||| put 32 16 a.rej.toNat ||| putB 48 d.pos.envActive ||| putB 49 a.cfgIgn ||| putB 50 a.netFull
  | 0x38 => a.regRej 1 4
  | 0x40 => a.regRej 5 4
  | 0x48 => a.regRej 9 2
  | 0x50 => a.last
  | _ => 0

def Yard.reg {n : Nat} (y : Yard n) : W64 := put 0 6 y.fill ||| put 8 6 y.hwm ||| put 32 32 y.submitted.toNat

def Dev.rdPage11 (p : Path) (ofs : Nat) (d : Dev) : W64 :=
  let sel := (d.ctx p).yardSel
  let yard := fld sel 0 4
  let entry := fld sel 8 5
  let k := Fin.ofNat 8 yard
  let x : YardEntry := if yard = 8 then d.adm.net.entries[Fin.ofNat 32 entry] else d.adm.ce[k].entries[Fin.ofNat 16 entry]
  if ofs = 0x00 then sel
  else if ofs = 0x08 then (if yard = 8 then d.adm.net.reg else d.adm.ce[k].reg)
  else if 0x10 ≤ ofs ∧ ofs ≤ 0x48 then x.words[Fin.ofNat 8 ((ofs - 0x10) / 8)]
  else if ofs = 0x50 then x.result
  else 0

def Dev.rdPage12 (p : Path) (ofs : Nat) (d : Dev) : W64 :=
  if ofs < 0x40 then (d.ctx p).netW[Fin.ofNat 8 (ofs / 8)]
  else if ofs = 0x48 then (d.ctx p).netResult
  else 0

def Dev.rdPage13 (p : Path) (ofs : Nat) (d : Dev) : W64 :=
  let x : Standing := (d.adm.standing[fld (d.ctx p).stdSel 0 8]?).getD {}
  match ofs with
  | 0x00 => (d.ctx p).stdSel
  | 0x08 => put 0 9 d.adm.standing.length ||| put 16 16 x.rej.toNat ||| put 32 4 x.lastCode.toNat
  | 0x10 => putB 0 x.hold
  | _ => 0

/-! ### Boxes (R152) -/

/-- The edge that BOX_TIME_A shows: edge A lies at ANGLE_A (R141). -/
def Dev.rdPage14 (p : Path) (ofs : Nat) (d : Dev) : W64 :=
  let b := Fin.ofNat 128 (fld (d.ctx p).boxSel 0 7)
  let x := d.box b
  let free := x.state == .free
  let time (y : BoxEdge) : W64 := put 0 64 (if y.present then y.time else 0)
  match ofs with
  | 0x00 => (d.ctx p).boxSel
  | 0x08 =>
    put 0 3 x.state.code ||| putB 3 x.a.fixed ||| putB 4 x.b.fixed ||| putB 5 x.b.present ||| put 8 11 x.loft
      ||| put 24 8 x.gen.toNat ||| put 32 32 x.ev.tag.toNat
  | 0x10 => if free then 0 else x.ev.coord d.half
  | 0x18 => put 0 32 x.ev.armAngle ||| put 32 32 x.ev.armCycle.toNat
  | 0x20 => time x.a
  | 0x28 => time x.b
  | 0x30 => put 0 4 x.lastResult.toNat ||| put 32 32 x.lastTag.toNat
  | _ => 0

def Dev.rdPage15 (ofs : Nat) (d : Dev) : W64 :=
  if ofs ≤ 0x38 then
    (List.range 16).foldl (fun w i => w ||| put (4 * i) 3 (d.box (Fin.ofNat 128 (2 * ofs + i))).state.code) 0
  else 0

def Dev.rdPage16 (ofs : Nat) (d : Dev) : W64 :=
  let l := d.loft
  match ofs with
  | 0x00 => d.regBoxStat
  | 0x08 => put 0 16 l.trips.toNat ||| put 16 4 l.guardDetail.toNat ||| put 24 7 l.guardBox.toNat ||| put 32 32 l.guardTag.toNat
  | _ => 0

/-! ### Loft (R136, R137, R152) -/

/-- The words of a descriptor. A field that an uncorrectable error has made unreadable reads as 0, as in the result
(R150). -/
def Descr.word (x : Descr) (i : Nat) : W64 :=
  let e := x.ev.blank x.bad
  match i with
  | 0 => put 0 4 e.type.code ||| put 8 8 e.output ||| put 16 5 e.cyl ||| put 24 4 e.prio ||| putB 35 e.isEnd
      ||| putB 36 e.dwellPri ||| putB 37 e.twin ||| put 38 4 e.source
  | 1 => put 0 32 e.tag.toNat ||| put 32 32 e.cycle.toNat
  | 2 => put 0 32 e.angleA ||| put 32 32 e.angleB
  | 3 => put 0 32 e.durA ||| put 32 32 e.durB
  | 4 => e.typeArg
  | 5 => e.profArg
  | 6 => put 0 32 e.armAngle ||| put 32 32 e.armCycle.toNat
  | _ => put 0 3 x.state.code ||| put 4 7 (if x.state = .inBox then x.box else 0) ||| put 32 32 e.accTime.toNat

/-- Bits of a descriptor word that are not reserved (R136). -/
def descrMask (w : Nat) : W64 :=
  if w = 0 then 0x3F80F1FFF0F else if w = 7 then 0xFFFFFFFF00000000 else 0xFFFFFFFFFFFFFFFF

/-- A word of the window: a FREE descriptor holds zeros after the hardware fill, and once it has held an event the
manual fixes only its DSTATE, its BOX and its reserved bits. -/
def Dev.loftWord (i w : Nat) (d : Dev) : W64 × Dev :=
  match d.descr i with
  | some x => (x.word w, d)
  | none =>
    if d.loft.spent.contains i then
      let (n, d) := d.draw
      (Config.spentWord n &&& descrMask w, d)
    else (0, d)

/-- A chain's order: first edge at P_fast, then index (R137). -/
def Dev.chainInsert (d : Dev) (pf : Nat) (x : Nat × Descr) : List (Nat × Descr) → List (Nat × Descr)
  | [] => [x]
  | y :: l =>
    let a := d.firstEdge pf x.2.ev
    let b := d.firstEdge pf y.2.ev
    if a < b || (a == b && decide (x.1 < y.1)) then x :: y :: l else y :: d.chainInsert pf x l

/-- The chain of an output key. -/
def Dev.chainOf (t : EvType) (n : Nat) (d : Dev) : List (Nat × Descr) :=
  let pf := d.pFast
  (d.loft.descrs.filter fun x => x.2.ev.type == t && x.2.ev.output == n).foldl (fun l x => d.chainInsert pf x l) []

/-- LOFT_WIN_LINK. Its function text sets LAST for a FREE descriptor, as every one is after POR, while its After POR column
gives 0; the model follows the function (DESIGN CHOICE, assumption 58; unsafe for a claim about LAST before the first
event). -/
def Dev.regLink (i : Nat) (d : Dev) : W64 :=
  match d.descr i with
  | some x =>
    match ((d.chainOf x.ev.type x.ev.output).dropWhile fun y => y.1 != i).drop 1 with
    | y :: _ => put 0 11 y.1
    | [] => putB 11 true
  | none => putB 11 true

/-- LOFT_CHAIN. -/
def Dev.regChain (sel : W64) (d : Dev) : W64 :=
  let n := fld sel 8 8
  let l := match EvType.ofCode (fld sel 0 4) with
    | some t => if n < t.outputs then d.chainOf t n else []
    | none => []
  let wait := l.find? fun x => x.2.state == .waiting
  put 0 11 ((l.head?.map (·.1)).getD 0) ||| putB 11 l.isEmpty ||| put 12 12 l.length
    ||| put 24 11 ((wait.map (·.1)).getD 0) ||| putB 35 wait.isNone

def Dev.rdPage18 (p : Path) (ofs : Nat) (d : Dev) : W64 × Dev :=
  let l := d.loft
  let i := fld (d.ctx p).loftIdx 0 11
  if 0x18 ≤ ofs ∧ ofs ≤ 0x50 then d.loftWord i ((ofs - 0x18) / 8)
  else
    (match ofs with
      | 0x00 => l.cfg
      | 0x08 => put 0 12 l.descrs.length ||| put 12 12 l.peak.toNat ||| putB 24 l.cfgIgn ||| putB 25 l.ue
          ||| put 32 16 l.flushes.toNat ||| put 48 16 l.ueCnt.toNat
      | 0x10 => (d.ctx p).loftIdx
      | 0x58 => d.regLink i
      | 0x60 => (d.ctx p).chainIdx
      | 0x68 => d.regChain (d.ctx p).chainIdx
      | _ => 0, d)

/-- A read of a register of pages 0x08 to 0x18. -/
def Dev.rdLow (p : Path) (page ofs : Nat) (d : Dev) : W64 × Dev :=
  match page with
  | 0x08 => (d.rdPage08 ofs, d)
  | 0x09 => (d.rdPage09 p ofs, d)
  | 0x0A => let d := d.sweepConfirm d.dtime; (d.rdPage0A p ofs, d)
  | 0x0B => (d.rdPage0B ofs, d)
  | 0x10 => (d.rdPage10 ofs, d)
  | 0x11 => (d.rdPage11 p ofs, d)
  | 0x12 => (d.rdPage12 p ofs, d)
  | 0x13 => (d.rdPage13 p ofs, d)
  | 0x14 => (d.rdPage14 p ofs, d)
  | 0x15 => (d.rdPage15 ofs, d)
  | 0x16 => (d.rdPage16 ofs, d)
  | 0x18 => d.rdPage18 p ofs
  | _ => (0, d)

end Sys2Proof.Machine
end

