-- ==== Sys2Proof/Machine/RegMap.lean ====
section
/-! DEFINITION. The register map (R411, R412): which offsets of which pages are assigned, and which bits of each register
are RW, are WO or W1S, and are not reserved, as the register tables of the chapters give them. -/

namespace Sys2Proof.Machine

/-- A run of `count` registers of one layout from an offset on. -/
structure RegRow where
  ofs   : Nat
  count : Nat
  /-- Bits of RW fields; for the loader also SIZE of REC_RING_CFG (R282). -/
  rw    : Nat
  /-- Bits of WO and W1S fields. -/
  act   : Nat
  /-- Bits of all fields; the others are reserved. -/
  all   : Nat
  deriving DecidableEq, Repr

def regs00 : List RegRow :=
  [
    ⟨0x0, 1, 0x0, 0x0, 0xffffffff00ffffff⟩,
    ⟨0x8, 1, 0x0, 0x0, 0xffffffff00030fff⟩,
    ⟨0x10, 1, 0x0, 0xff0f, 0xff0f⟩,
    ⟨0x18, 1, 0x0, 0x0, 0xffffffff0000ff1f⟩,
    ⟨0x20, 1, 0x0, 0x0, 0xffffffffffffffff⟩,
    ⟨0x28, 1, 0x3fffffffff0f, 0x0, 0x3fffffffff0f⟩,
    ⟨0x30, 1, 0x7, 0x0, 0xffffffff00000f07⟩,
    ⟨0x38, 1, 0xffff0001, 0x0, 0xffff0003⟩,
    ⟨0x40, 1, 0x0, 0x0, 0xffffffffffff00ff⟩ ]

def regs01 : List RegRow :=
  [
    ⟨0x0, 1, 0x0, 0x0, 0xc07fffffffff07ff⟩,
    ⟨0x8, 1, 0x0, 0x0, 0xffffffffffffffff⟩,
    ⟨0x10, 1, 0x0, 0x0, 0xffffffffffffffff⟩,
    ⟨0x18, 1, 0x0, 0x0, 0xfffffffffffffffe⟩,
    ⟨0x20, 1, 0x0, 0x0, 0xffff⟩,
    ⟨0x28, 1, 0x0, 0xffff, 0xffff⟩,
    ⟨0x30, 1, 0x0, 0xfffffffffffffffe, 0xfffffffffffffffe⟩,
    ⟨0x38, 1, 0x3f, 0x0, 0x3f⟩,
    ⟨0x40, 1, 0x7, 0x0, 0x3f1f⟩,
    ⟨0x48, 1, 0x0, 0x0, 0xffffffffffffffff⟩,
    ⟨0x50, 1, 0x0, 0x0, 0x7ffffffffffffff⟩,
    ⟨0x58, 1, 0x1, 0x0, 0x1⟩,
    ⟨0x60, 1, 0x0, 0x0, 0x1f⟩ ]

def regs02 : List RegRow :=
  [
    ⟨0x0, 1, 0x0, 0x0, 0x1ffffffffffff⟩,
    ⟨0x8, 1, 0x1f, 0x0, 0x1f⟩,
    ⟨0x10, 1, 0x0, 0x0, 0xffffffffffff001f⟩,
    ⟨0x18, 2, 0x0, 0x0, 0xffffffff03ffffff⟩,
    ⟨0x28, 1, 0x7c, 0x3, 0xff⟩,
    ⟨0x30, 2, 0xffffffffffffffff, 0x0, 0xffffffffffffffff⟩,
    ⟨0x40, 1, 0xfffffffffffffff, 0x0, 0xfffffffffffffff⟩,
    ⟨0x48, 1, 0xfffff, 0x0, 0xfffff⟩,
    ⟨0x50, 1, 0x0, 0x0, 0xfffffffffffffff⟩,
    ⟨0x58, 1, 0x0, 0x0, 0xfffff⟩,
    ⟨0x60, 1, 0x0, 0x0, 0xffffffff⟩ ]

def regs03 : List RegRow :=
  [
    ⟨0x0, 1, 0xff01ffff, 0x0, 0xff01ffff⟩,
    ⟨0x8, 1, 0x0, 0x1, 0x1⟩,
    ⟨0x10, 1, 0x0, 0x0, 0xffffffff007fffff⟩,
    ⟨0x18, 1, 0x0, 0x0, 0xffffffffffffffff⟩,
    ⟨0x20, 20, 0x0, 0x0, 0xffffffffffffffff⟩ ]

def regs08 : List RegRow :=
  [
    ⟨0x0, 1, 0x0, 0x0, 0xffffffffffffffff⟩,
    ⟨0x8, 1, 0x0, 0x0, 0xffffffffffffffff⟩,
    ⟨0x10, 1, 0x0, 0x0, 0xffffffffffffffff⟩,
    ⟨0x18, 1, 0x0, 0x0, 0xffffffffffffffff⟩,
    ⟨0x20, 1, 0x0, 0x0, 0xffffffffffffff⟩,
    ⟨0x28, 1, 0x0, 0x0, 0xf000fff7f⟩,
    ⟨0x30, 1, 0x0, 0x0, 0xffffffffffff000f⟩,
    ⟨0x38, 1, 0x1fe, 0x0, 0x1fe⟩,
    ⟨0x40, 1, 0xffffff, 0x0, 0xffffff⟩,
    ⟨0x48, 2, 0x3fffffffffff, 0x0, 0x3fffffffffff⟩,
    ⟨0x58, 1, 0xffffffff, 0x0, 0xffffffff⟩,
    ⟨0x60, 1, 0xffffffffff3ff3, 0x0, 0xffffffffff3ff3⟩,
    ⟨0x68, 1, 0x0, 0x0, 0xffffffff00003fff⟩ ]

def regs09 : List RegRow :=
  [
    ⟨0x0, 1, 0x3ffff1f, 0x0, 0x3ffff1f⟩,
    ⟨0x8, 1, 0xffffffffffff, 0x0, 0xffffffffffff⟩,
    ⟨0x10, 1, 0x0, 0x0, 0x1fffffffffffff⟩,
    ⟨0x18, 1, 0x0, 0x8000000000000000, 0xffffffffffffffff⟩,
    ⟨0x20, 1, 0x0, 0x0, 0xfffffffffffffff⟩,
    ⟨0x28, 1, 0x3fffffffff, 0x0, 0x3fffffffff⟩,
    ⟨0x30, 1, 0x0, 0x0, 0x1ffffffffffff⟩,
    ⟨0x38, 1, 0xff, 0x0, 0xff⟩,
    ⟨0x40, 1, 0xffff, 0x0, 0x1ffffffffffff⟩ ]

def regs0A : List RegRow :=
  [
    ⟨0x0, 1, 0x7, 0x0, 0x7⟩,
    ⟨0x8, 1, 0xfffffffffff, 0x0, 0xfffffffffff⟩,
    ⟨0x10, 1, 0x0, 0x0, 0x1ffff⟩,
    ⟨0x18, 1, 0x0, 0x0, 0xffffffffffffffff⟩,
    ⟨0x20, 1, 0x0, 0x0, 0xffffffffffffffff⟩ ]

def regs0B : List RegRow :=
  [
    ⟨0x0, 1, 0xffffffffff07, 0x0, 0xffffffffff07⟩,
    ⟨0x8, 4, 0x0, 0x0, 0x3fffffffff⟩ ]

def regs10 : List RegRow :=
  [
    ⟨0x0, 1, 0xf, 0x0, 0xf⟩,
    ⟨0x8, 1, 0xffffffff000003ff, 0x0, 0xffffffff000003ff⟩,
    ⟨0x10, 1, 0x0, 0x0, 0xffffffffffffffff⟩,
    ⟨0x18, 1, 0xffffffffffffffff, 0x0, 0xffffffffffffffff⟩,
    ⟨0x20, 1, 0x0, 0x0, 0xffffffffffffffff⟩,
    ⟨0x28, 1, 0x0, 0x0, 0xfffff⟩,
    ⟨0x30, 1, 0x0, 0x0, 0x7ffffffffffff⟩,
    ⟨0x38, 3, 0x0, 0x0, 0xffffffffffffffff⟩,
    ⟨0x50, 1, 0x0, 0x0, 0xffffffffffffffff⟩ ]

def regs11 : List RegRow :=
  [
    ⟨0x0, 1, 0x1f0f, 0x0, 0x1f0f⟩,
    ⟨0x8, 1, 0x0, 0x0, 0xffffffff00003f3f⟩,
    ⟨0x10, 8, 0x0, 0x0, 0xffffffffffffffff⟩,
    ⟨0x50, 1, 0x0, 0x0, 0xffffffffffffffff⟩ ]

def regs12 : List RegRow :=
  [
    ⟨0x0, 8, 0xffffffffffffffff, 0x0, 0xffffffffffffffff⟩,
    ⟨0x40, 1, 0x0, 0x1, 0x1⟩,
    ⟨0x48, 1, 0x0, 0x0, 0xffffffffffffffff⟩ ]

def regs13 : List RegRow :=
  [
    ⟨0x0, 1, 0xff, 0x0, 0xff⟩,
    ⟨0x8, 1, 0x0, 0x0, 0xfffff01ff⟩,
    ⟨0x10, 1, 0x1, 0x0, 0x1⟩ ]

def regs14 : List RegRow :=
  [
    ⟨0x0, 1, 0x7f, 0x0, 0x7f⟩,
    ⟨0x8, 1, 0x0, 0x0, 0xffffffffff07ff3f⟩,
    ⟨0x10, 1, 0x0, 0x0, 0xffffffffffffffff⟩,
    ⟨0x18, 1, 0x0, 0x0, 0xffffffffffffffff⟩,
    ⟨0x20, 2, 0x0, 0x0, 0xffffffffffffffff⟩,
    ⟨0x30, 1, 0x0, 0x0, 0xffffffff0000000f⟩ ]

def regs15 : List RegRow :=
  [
    ⟨0x0, 8, 0x0, 0x0, 0x7777777777777777⟩ ]

def regs16 : List RegRow :=
  [
    ⟨0x0, 1, 0x0, 0x0, 0xffffffffffffffff⟩,
    ⟨0x8, 1, 0x0, 0x0, 0xffffffff7f0fffff⟩ ]

def regs18 : List RegRow :=
  [
    ⟨0x0, 1, 0xffffffffffff, 0x0, 0xffffffffffff⟩,
    ⟨0x8, 1, 0x0, 0x0, 0xffffffff03ffffff⟩,
    ⟨0x10, 1, 0x7ff, 0x0, 0x7ff⟩,
    ⟨0x18, 8, 0x0, 0x0, 0xffffffffffffffff⟩,
    ⟨0x58, 1, 0x0, 0x0, 0xfff⟩,
    ⟨0x60, 1, 0xff0f, 0x0, 0xff0f⟩,
    ⟨0x68, 1, 0x0, 0x0, 0xfffffffff⟩ ]

def regs20 : List RegRow :=
  [
    ⟨0x0, 1, 0xf3ff3ff1f, 0x0, 0xf3ff3ff1f⟩,
    ⟨0x8, 1, 0xfffff, 0x0, 0xfffff⟩,
    ⟨0x10, 1, 0x0, 0x0, 0xffffffff000003ff⟩,
    ⟨0x18, 1, 0x0, 0x0, 0x3ff03ff⟩,
    ⟨0x20, 1, 0x0, 0x0, 0xffff0fff⟩,
    ⟨0x28, 1, 0x0, 0x0, 0xffffffffffffffff⟩,
    ⟨0x30, 1, 0xffffffffffffffff, 0x0, 0xffffffffffffffff⟩,
    ⟨0x38, 1, 0x0, 0x0, 0xffffffffffffffff⟩,
    ⟨0x40, 1, 0x0, 0x0, 0x1ffffffffffffff⟩,
    ⟨0x80, 1, 0x0, 0x0, 0xfffffff1f0fff⟩,
    ⟨0x88, 1, 0x1f, 0x0, 0x1f⟩,
    ⟨0x90, 1, 0x0, 0x0, 0xffffffff07ff03ff⟩,
    ⟨0x98, 1, 0x0, 0x0, 0xffffffffffffffff⟩,
    ⟨0xa0, 1, 0x0, 0x0, 0xffffffffffffffff⟩,
    ⟨0xa8, 1, 0x0, 0x0, 0xffffffffffffffff⟩,
    ⟨0xb0, 1, 0x0, 0x0, 0xffffffffffffffff⟩,
    ⟨0xb8, 1, 0x3ff, 0x0, 0x3ff⟩,
    ⟨0xc0, 1, 0x0, 0x0, 0xffffffffffffffff⟩,
    ⟨0xc8, 1, 0x0, 0x0, 0xffffffffffffffff⟩,
    ⟨0xd0, 1, 0x0, 0x0, 0x1fffffffffff0fff⟩ ]

def regs24 : List RegRow :=
  [
    ⟨0x0, 1, 0xffffffff03ffff01, 0x0, 0xffffffff03ffff01⟩,
    ⟨0x8, 1, 0xffffffff, 0x0, 0xffffffff⟩,
    ⟨0x10, 1, 0xffffffffffff, 0x0, 0xffffffffffff⟩,
    ⟨0x18, 1, 0xffffffffff, 0x0, 0xffffffffff⟩,
    ⟨0x20, 1, 0x0, 0x0, 0x1fffffff⟩,
    ⟨0x28, 1, 0x0, 0x0, 0x7ffffffffffff⟩ ]

def regs25 : List RegRow :=
  [
    ⟨0x0, 1, 0xf, 0x0, 0xf⟩,
    ⟨0x8, 1, 0xffffffff00ffff01, 0x0, 0xffffffff00ffff01⟩,
    ⟨0x10, 1, 0x0, 0x0, 0x1000fffffffff⟩,
    ⟨0x18, 1, 0x0, 0x0, 0xffffffffffffffff⟩,
    ⟨0x20, 1, 0x0, 0x0, 0xffffffffffff⟩ ]

def regs26 : List RegRow :=
  [
    ⟨0x0, 1, 0x1f, 0x0, 0x1f⟩,
    ⟨0x8, 1, 0xffffffffffffff07, 0x0, 0xffffffffffffff07⟩,
    ⟨0x10, 1, 0x0, 0x0, 0xffffffff0000000f⟩,
    ⟨0x18, 1, 0x0, 0x0, 0x1fffffffff⟩,
    ⟨0x20, 1, 0x0, 0x0, 0xffffffffffffffff⟩,
    ⟨0x28, 1, 0x3, 0x0, 0x3⟩,
    ⟨0x30, 1, 0x0, 0x0, 0xffffffff00000003⟩ ]

def regs28 : List RegRow :=
  [
    ⟨0x0, 1, 0x3, 0x0, 0x3⟩,
    ⟨0x8, 1, 0xffffffff, 0x0, 0xffffffff⟩,
    ⟨0x10, 1, 0xffffffffff, 0x0, 0xffffffffff⟩,
    ⟨0x18, 1, 0xff0fff00ff0fff, 0x0, 0xff0fff00ff0fff⟩,
    ⟨0x20, 1, 0xfffff, 0x0, 0xfffff⟩,
    ⟨0x28, 1, 0xffffffff, 0x0, 0xffffffff⟩,
    ⟨0x30, 1, 0x0, 0x0, 0xffff000fffff⟩,
    ⟨0x38, 1, 0x0, 0x0, 0x1ffff⟩,
    ⟨0x40, 1, 0x0, 0x0, 0xffffffffffff003f⟩,
    ⟨0x48, 4, 0x0, 0x0, 0xffffffffffffffff⟩ ]

def regs30 : List RegRow :=
  [
    ⟨0x0, 1, 0x1, 0x0, 0x3⟩,
    ⟨0x8, 1, 0x0, 0x0, 0x7f1fff3fff⟩,
    ⟨0x10, 1, 0x0, 0x0, 0xffffffff001f1fff⟩,
    ⟨0x18, 1, 0x0, 0x0, 0xffffffffffffffff⟩,
    ⟨0x20, 1, 0x0, 0x0, 0xffffffffffffffff⟩,
    ⟨0x28, 1, 0x0, 0x0, 0xffffffffffffffff⟩,
    ⟨0x30, 1, 0x0, 0x0, 0xffffffffffffffff⟩,
    ⟨0x38, 1, 0x1f, 0x0, 0x1f⟩,
    ⟨0x40, 1, 0x0, 0x0, 0xffffffffffffffff⟩,
    ⟨0x48, 1, 0x3fff0000, 0x7, 0x3fff000f⟩ ]

def regs38 : List RegRow :=
  [
    ⟨0x0, 1, 0x3fff, 0x0, 0x3fff⟩,
    ⟨0x8, 1, 0xffffffffffffffff, 0x0, 0xffffffffffffffff⟩,
    ⟨0x10, 1, 0x0, 0x0, 0xf3ff⟩,
    ⟨0x18, 1, 0x0, 0x0, 0x1ffff000f3fff⟩,
    ⟨0x20, 1, 0x1fff, 0x0, 0x1fff⟩,
    ⟨0x28, 1, 0x0, 0x0, 0xffffffffffffffff⟩ ]

def regs40 : List RegRow :=
  [
    ⟨0x0, 1, 0xff030f0b, 0x0, 0xff030f0f⟩,
    ⟨0x8, 1, 0xfffff, 0x0, 0xfffff⟩,
    ⟨0x10, 1, 0x7fff7fff, 0x0, 0x7fff7fff⟩,
    ⟨0x18, 1, 0x0, 0x0, 0x7ffffff7ffffff⟩,
    ⟨0x20, 1, 0x0, 0x0, 0xffffffffffffffff⟩,
    ⟨0x28, 1, 0x0, 0x0, 0x3fffff007f⟩,
    ⟨0x30, 1, 0x0, 0x0, 0xffffffffffffffff⟩,
    ⟨0x38, 1, 0xf, 0x0, 0xf⟩,
    ⟨0x40, 1, 0x3ffffffffffff, 0x0, 0x7ffffffffffff⟩,
    ⟨0x48, 1, 0xffff0fffffff, 0x0, 0xffffff0fffffff⟩,
    ⟨0x50, 1, 0xffffff, 0x0, 0xffffffffffff⟩,
    ⟨0x58, 1, 0x0, 0x0, 0xffffffffffff⟩,
    ⟨0x78, 16, 0x0, 0x0, 0xfffffffff7ffffff⟩ ]

def regs48 : List RegRow :=
  [
    ⟨0x0, 1, 0xff, 0x0, 0x80000000000000ff⟩,
    ⟨0x8, 1, 0xf, 0x0, 0xf⟩,
    ⟨0x10, 1, 0xfff, 0x0, 0x1ff00000fff⟩,
    ⟨0x18, 1, 0x0, 0x0, 0xffffffff001fffff⟩,
    ⟨0x20, 1, 0x0, 0x0, 0xffffffffffffffff⟩,
    ⟨0x28, 1, 0x0, 0x3, 0x3⟩,
    ⟨0x30, 1, 0x1, 0x0, 0x1⟩,
    ⟨0x38, 1, 0x7ffffff0007ff07, 0x0, 0x7ffffff0007ff07⟩,
    ⟨0x40, 1, 0xffffffff0000ffff, 0x0, 0xffffffff0000ffff⟩,
    ⟨0x48, 1, 0x0, 0x0, 0x10fffffffffff⟩,
    ⟨0x50, 1, 0x0, 0x0, 0xffffffff0007ffff⟩ ]

def regs50 : List RegRow :=
  [
    ⟨0x0, 1, 0x307, 0x0, 0x307⟩,
    ⟨0x8, 1, 0xffff3f1f, 0x0, 0xffff3f1f⟩,
    ⟨0x10, 1, 0x0, 0x0, 0xffffffff⟩,
    ⟨0x18, 1, 0xffffffff, 0x0, 0xffffffff⟩,
    ⟨0x20, 1, 0x0, 0x0, 0xffffffff00000003⟩,
    ⟨0x28, 1, 0x3fffffff, 0x0, 0x3fffffff⟩,
    ⟨0x30, 1, 0xffffffff, 0x0, 0xffffffff⟩,
    ⟨0x38, 1, 0x0, 0x0, 0xffffffff0000000f⟩,
    ⟨0x40, 1, 0x0, 0x0, 0xffffffffffffffff⟩,
    ⟨0x48, 1, 0x0, 0xff, 0xff⟩,
    ⟨0x50, 1, 0x707, 0x0, 0x707⟩,
    ⟨0x58, 1, 0x0, 0x0, 0xffffffffffffffff⟩ ]

def regs54 : List RegRow :=
  [
    ⟨0x0, 1, 0x7, 0x0, 0x7⟩,
    ⟨0x8, 1, 0x1fffffff3f07, 0x0, 0x1fffffff3f07⟩,
    ⟨0x10, 1, 0xffffffffffffffff, 0x0, 0xffffffffffffffff⟩,
    ⟨0x18, 1, 0x1, 0x2, 0x3⟩,
    ⟨0x20, 1, 0x0, 0x0, 0xffffff7f⟩,
    ⟨0x28, 1, 0x0, 0x0, 0xffffffffffffffff⟩,
    ⟨0x30, 1, 0x0, 0xffffffff, 0xffffffff⟩,
    ⟨0x38, 1, 0x0, 0x0, 0x1ffffffff⟩,
    ⟨0x40, 1, 0x0, 0xffff, 0xffff⟩,
    ⟨0x48, 1, 0xffff7fff, 0x0, 0xffff7fff⟩,
    ⟨0x50, 1, 0x0, 0x0, 0xffffffffffff⟩,
    ⟨0x58, 1, 0x0, 0x0, 0xffffffffffff⟩,
    ⟨0x60, 1, 0x0, 0x0, 0xffff0000ffff⟩,
    ⟨0x68, 1, 0x0, 0xff, 0xff⟩,
    ⟨0x70, 1, 0xfffff, 0x0, 0xfffff⟩,
    ⟨0x78, 1, 0xffffffffffffffff, 0x0, 0xffffffffffffffff⟩ ]

def regs58 : List RegRow :=
  [
    ⟨0x8, 1, 0x7, 0x0, 0xf⟩,
    ⟨0x10, 3, 0xff7f7fffff, 0x0, 0xff7f7fffff⟩,
    ⟨0x28, 1, 0x0, 0x0, 0x7ffff07⟩,
    ⟨0x30, 1, 0x0, 0x0, 0xffffffffffffffff⟩,
    ⟨0x38, 1, 0x0, 0x1, 0x1⟩,
    ⟨0x40, 1, 0x1fffffffffffffff, 0x0, 0x1fffffffffffffff⟩,
    ⟨0x48, 1, 0x0, 0x0, 0xffffffffffffff07⟩,
    ⟨0x50, 1, 0x1fffffff7fffffff, 0x0, 0x1fffffff7fffffff⟩,
    ⟨0x58, 1, 0x7f, 0x0, 0x7f⟩,
    ⟨0x60, 1, 0x0, 0x0, 0xffffffffffffff01⟩,
    ⟨0x68, 1, 0x0, 0x0, 0xffffffffffffffff⟩ ]

def regs5C : List RegRow :=
  [
    ⟨0x0, 1, 0xffff000fffffff3d, 0x0, 0xffff000fffffff7f⟩,
    ⟨0x8, 1, 0x1fffffffffff, 0x0, 0x1fffffffffff⟩,
    ⟨0x10, 1, 0xffff, 0x0, 0xffff⟩,
    ⟨0x18, 1, 0x0, 0x0, 0xffffffffffff03ff⟩,
    ⟨0x20, 1, 0x3f, 0x0, 0x3f⟩,
    ⟨0x28, 1, 0x0, 0x0, 0x7fff7fff⟩,
    ⟨0x30, 1, 0x0, 0x0, 0xffffffffffffffff⟩ ]

def regs60 : List RegRow :=
  [
    ⟨0x0, 1, 0xff7f7f7f, 0x0, 0xff7f7f7f⟩,
    ⟨0x8, 1, 0xffffff01, 0x0, 0xffffff01⟩,
    ⟨0x10, 1, 0x0, 0x0, 0xff7f⟩,
    ⟨0x18, 1, 0x1f00, 0x0, 0x1f1f⟩,
    ⟨0x20, 1, 0x0, 0x0, 0xffffffffffffffff⟩ ]

def regs68 : List RegRow :=
  [
    ⟨0x0, 1, 0x0, 0x0, 0xff3f⟩,
    ⟨0x8, 2, 0x0, 0x0, 0xffffffff00000f0f⟩,
    ⟨0x18, 1, 0x0, 0x0, 0xfffffffffffff⟩,
    ⟨0x20, 1, 0x0, 0x0, 0xffffffffffffffff⟩,
    ⟨0x28, 4, 0x0, 0x0, 0xffffffffffffffff⟩,
    ⟨0x48, 1, 0x2, 0x0, 0x3⟩,
    ⟨0x50, 1, 0x0, 0x1fffff0001ff0f, 0x1fffff0001ff0f⟩,
    ⟨0x58, 1, 0x0, 0x0, 0xff3f⟩,
    ⟨0x60, 1, 0x1f, 0x0, 0x1f⟩,
    ⟨0x68, 1, 0xffffffffffffffff, 0x0, 0xffffffffffffffff⟩,
    ⟨0x70, 1, 0x0, 0x0, 0xffffffffffffffff⟩ ]

def regs70 : List RegRow :=
  [
    ⟨0x0, 1, 0x0, 0x0, 0xffff0007⟩,
    ⟨0x8, 1, 0x1fffffff0000001f, 0x0, 0x1fffffff0000001f⟩,
    ⟨0x10, 1, 0x0, 0x0, 0xf⟩ ]

/-- The registers of a page (R412). -/
def pageRegs : Nat → List RegRow
  | 0x00 => regs00
  | 0x01 => regs01
  | 0x02 => regs02
  | 0x03 => regs03
  | 0x08 => regs08
  | 0x09 => regs09
  | 0x0A => regs0A
  | 0x0B => regs0B
  | 0x10 => regs10
  | 0x11 => regs11
  | 0x12 => regs12
  | 0x13 => regs13
  | 0x14 => regs14
  | 0x15 => regs15
  | 0x16 => regs16
  | 0x18 => regs18
  | 0x20 => regs20
  | 0x21 => regs20
  | 0x22 => regs20
  | 0x23 => regs20
  | 0x24 => regs24
  | 0x25 => regs25
  | 0x26 => regs26
  | 0x28 => regs28
  | 0x30 => regs30
  | 0x31 => regs30
  | 0x32 => regs30
  | 0x33 => regs30
  | 0x34 => regs30
  | 0x35 => regs30
  | 0x36 => regs30
  | 0x37 => regs30
  | 0x38 => regs38
  | 0x40 => regs40
  | 0x41 => regs40
  | 0x48 => regs48
  | 0x50 => regs50
  | 0x54 => regs54
  | 0x58 => regs58
  | 0x59 => regs58
  | 0x5A => regs58
  | 0x5B => regs58
  | 0x5C => regs5C
  | 0x60 => regs60
  | 0x68 => regs68
  | 0x70 => regs70
  | _ => []

/-- PAGE stands at offset 0xF8 of every page (R413). -/
def pageRow : RegRow := ⟨0xF8, 1, 0xFF, 0, 0xFFF⟩

/-- The register at an address, if one is assigned (R35, R411). -/
def regRow (addr : BitVec 16) : Option RegRow :=
  let ofs := addr.toNat % 256
  if ofs = 0xF8 then some pageRow
  else if ofs % 8 ≠ 0 then none
  else (pageRegs (addr.toNat / 256)).find? fun r => decide (r.ofs ≤ ofs) && decide (ofs < r.ofs + 8 * r.count)

end Sys2Proof.Machine
end

