-- ==== Sys2Proof/Machine/Regs.lean ====
section
/-! DEFINITION. The register access port (R21, R22, R34, R35): a read and a write of any register through any path, the
registers of page 0x60 (R341), and PAGE (R413). -/

namespace Sys2Proof.Machine

/-! ### The two-wire port's registers (R332, R338, R341) -/

def Dev.modTwp (f : Twp → Twp) (d : Dev) : Dev := { d with twp := f d.twp }

/-- Addresses that the port never acknowledges. -/
def twpReserved (a : Nat) : Bool := decide (a < 8) || decide (0x78 ≤ a)

def Dev.wrTwp (ofs : Nat) (v : W64) (d : Dev) : Dev :=
  match ofs with
  | 0x00 => d.guarded (!twpReserved (fld v 0 7) && !twpReserved (fld v 16 7)) (Dev.modTwp fun x => { x with cfgIgn := true })
      (Dev.modTwp fun x => { x with addrNew := some (v &&& 0xFF7F7F7F) })
  | 0x08 => d.modTwp fun x => { x with cfg := v &&& 0xFFFFFF01 }
  | 0x10 => d.modTwp fun x =>
      { x with partial_ := x.partial_ && !bit v 0, noreg := x.noreg && !bit v 1, timeout := x.timeout && !bit v 2
               logWr := x.logWr && !bit v 3, cfgIgn := x.cfgIgn && !bit v 4 }
  | 0x18 => d.modTwp fun x =>
      let x := { x with attnEvt := x.attnEvt &&& ~~~(v.setWidth 5), attnMask := (v >>> 8).setWidth 5 }
      if fld v 0 5 ≠ 0 ∧ x.wanted = 0 then { x with attnPend := false, sentAt := none } else x
  | _ => d

def Dev.rdTwp (ofs : Nat) (d : Dev) : W64 :=
  let x := d.twp
  match ofs with
  | 0x00 => x.addrNew.getD x.addr
  | 0x08 => x.cfg
  | 0x10 => putB 0 x.partial_ ||| putB 1 x.noreg ||| putB 2 x.timeout ||| putB 3 x.logWr ||| putB 4 x.cfgIgn
      ||| putB 5 x.attnPend ||| putB 6 x.busy ||| put 8 8 x.ptr.toNat
  | 0x18 => put 0 5 x.attnEvt.toNat ||| put 8 5 x.attnMask.toNat
  | 0x20 => put 0 32 x.xfers.toNat ||| put 32 16 x.timeouts.toNat ||| put 48 16 x.attns.toNat
  | _ => 0

/-! ### PAGE (R33, R34, R413) -/

def Dev.pageWrite (p : Path) (v : W64) (d : Dev) : Dev := d.modCtx p fun c => { c with page := v.setWidth 8 }

def Dev.rdPage (p : Path) (d : Dev) : W64 := put 0 8 (d.ctx p).page.toNat ||| put 8 4 d.sup.mode.code

/-! ### The port -/

/-- A read of an assigned register. -/
def Dev.readPage (e : Env) (p : Path) (page ofs : Nat) (d : Dev) : W64 × Dev :=
  match page with
  | 0x00 => (d.rdSup e ofs, d)
  | 0x01 => (d.rdFlt p ofs, d)
  | 0x02 => (d.rdMem e p ofs, d)
  | 0x03 => (d.rdSnap ofs, d)
  | 0x20 => d.rdBank e p 0 ofs
  | 0x21 => d.rdBank e p 1 ofs
  | 0x22 => d.rdBank e p 2 ofs
  | 0x23 => d.rdBank e p 3 ofs
  | 0x24 => (d.rdBst ofs, d)
  | 0x25 => (d.rdPfi p ofs, d)
  | 0x26 => (d.rdIgn p ofs, d)
  | 0x28 => (d.rdDiag ofs, d)
  | 0x30 => (d.rdCe p 0 ofs, d)
  | 0x31 => (d.rdCe p 1 ofs, d)
  | 0x32 => (d.rdCe p 2 ofs, d)
  | 0x33 => (d.rdCe p 3 ofs, d)
  | 0x34 => (d.rdCe p 4 ofs, d)
  | 0x35 => (d.rdCe p 5 ofs, d)
  | 0x36 => (d.rdCe p 6 ofs, d)
  | 0x37 => (d.rdCe p 7 ofs, d)
  | 0x38 => d.rdSlots e p ofs
  | 0x40 => (d.rdCnv e p 0 ofs, d)
  | 0x41 => (d.rdCnv e p 1 ofs, d)
  | 0x48 => (d.rdRec p ofs, d)
  | 0x50 => d.rdTmu p ofs
  | 0x54 => d.rdPio p ofs
  | 0x58 => (d.rdCan p 0 ofs, d)
  | 0x59 => (d.rdCan p 1 ofs, d)
  | 0x5A => (d.rdCan p 2 ofs, d)
  | 0x5B => (d.rdCan p 3 ofs, d)
  | 0x5C => (d.rdRope p ofs, d)
  | 0x60 => (d.rdTwp ofs, d)
  | 0x68 => d.rdNvi p ofs
  | 0x70 => (d.rdPwr ofs, d)
  | _ => d.rdLow p page ofs

/-- A read: the value, whether the address is unassigned, and the device after it (R22, R35). -/
def Dev.regRead (e : Env) (p : Path) (addr : BitVec 16) (d : Dev) : W64 × Bool × Dev :=
  let page := addr.toNat / 256
  let ofs := addr.toNat % 256
  match regRow addr with
  | none => (0, true, d)
  | some _ =>
    if ofs = 0xF8 then (d.rdPage p, false, d)
    else let (v, d) := d.readPage e p page ofs; (v, false, d)

/-- A write of an assigned register. `loader` lifts the conditions on the device's state and the reservations to the
loader (R353). -/
def Dev.writePage (e : Env) (loader : Bool) (p : Path) (page ofs : Nat) (v : W64) (d : Dev) : Dev :=
  match page with
  | 0x00 => d.wrSup e loader p ofs v
  | 0x01 => d.wrFlt loader p ofs v
  | 0x02 => d.wrMem loader p ofs v
  | 0x03 => d.wrSnap ofs v
  | 0x20 => d.wrBank loader p 0 ofs v
  | 0x21 => d.wrBank loader p 1 ofs v
  | 0x22 => d.wrBank loader p 2 ofs v
  | 0x23 => d.wrBank loader p 3 ofs v
  | 0x24 => d.wrBst loader ofs v
  | 0x25 => d.wrPfi loader p ofs v
  | 0x26 => d.wrIgn loader p ofs v
  | 0x28 => d.wrDiag loader ofs v
  | 0x30 => d.wrCe loader p 0 ofs v
  | 0x31 => d.wrCe loader p 1 ofs v
  | 0x32 => d.wrCe loader p 2 ofs v
  | 0x33 => d.wrCe loader p 3 ofs v
  | 0x34 => d.wrCe loader p 4 ofs v
  | 0x35 => d.wrCe loader p 5 ofs v
  | 0x36 => d.wrCe loader p 6 ofs v
  | 0x37 => d.wrCe loader p 7 ofs v
  | 0x38 => d.wrSlots e loader p ofs v
  | 0x40 => d.wrCnv loader p 0 ofs v
  | 0x41 => d.wrCnv loader p 1 ofs v
  | 0x48 => d.wrRec loader p ofs v
  | 0x50 => d.wrTmu loader p ofs v
  | 0x54 => d.wrPio loader p ofs v
  | 0x58 => d.wrCan loader p 0 ofs v
  | 0x59 => d.wrCan loader p 1 ofs v
  | 0x5A => d.wrCan loader p 2 ofs v
  | 0x5B => d.wrCan loader p 3 ofs v
  | 0x5C => d.wrRope loader p ofs v
  | 0x60 => d.wrTwp ofs v
  | 0x68 => d.wrNvi p ofs v
  | 0x70 => d.wrPwr loader ofs v
  | _ => d.wrLow loader p page ofs v

/-- Addresses of FLT_FORCE_KEY and FLT_FORCE, whose own rules say what a write does to the arming (R401). -/
def forceAddr (addr : BitVec 16) : Bool := addr == 0x0128 || addr == 0x0130

/-- A write: whether the address is unassigned, and the device after it (R22, R35). A write of any register but the two of
R401 disarms the path. -/
def Dev.regWrite (e : Env) (loader : Bool) (p : Path) (addr : BitVec 16) (v : W64) (d : Dev) : Bool × Dev :=
  let d := if forceAddr addr then d.takeTurn p else d.disarm p
  match regRow addr with
  | none => (true, d)
  | some _ =>
    let ofs := addr.toNat % 256
    (false, if ofs = 0xF8 then d.pageWrite p v else d.writePage e loader p (addr.toNat / 256) ofs v)

/-- The two-wire port shows an access to an unassigned address (R35). -/
def Dev.noReg (p : Path) (bad : Bool) (d : Dev) : Dev :=
  if bad && p == .twp then d.modTwp fun x => { x with noreg := true } else d

/-- The loader writes registers only while it applies records (R353). -/
def Dev.mayWrite (p : Path) (d : Dev) : Bool := p != .loader || d.nvi.phase == .applyEarly || d.nvi.phase == .applyInit

/-- A write request at the port. -/
def Dev.portWrite (e : Env) (p : Path) (addr : BitVec 16) (v : W64) (d : Dev) : Dev :=
  if d.mayWrite p then
    let (bad, d) := d.regWrite e (p == .loader) p addr v
    d.noReg p bad
  else d

/-! ### The commands -/

/-- PAGE_WRITE (R413). -/
def execPageWrite (t : Ns) (p : Path) (v : W64) (s : State) : Host.Outcome State Fault Refusal :=
  runBy t p (fun _ d => d.pageWrite p v) s

/-- REGISTER_WRITE (R22, R35, R436). -/
def execRegisterWrite (t : Ns) (p : Path) (addr : BitVec 16) (v : W64) (s : State) : Host.Outcome State Fault Refusal :=
  runAt t (fun e d => d.portWrite e p addr v) s

end Sys2Proof.Machine
end

