-- ==== Sys2Proof/Machine/LoadRegs.lean ====
section
/-! DEFINITION. Register records of the image (R353): how they are read from EARLY_INIT, TMU_INIT and REG_INIT, what the
loader refuses, and how one is applied. -/

namespace Sys2Proof.Machine

/-! ### The image header's directory (R346) -/

def secOfs (h : List Byte) (id : Nat) : Nat := field h (32 + 48 * (id - 1)) 4
def secLen (h : List Byte) (id : Nat) : Nat := field h (36 + 48 * (id - 1)) 4
def secDigest (h : List Byte) (id : Nat) : List Byte := (h.drop (48 + 48 * (id - 1))).take 32
def secPresent (h : List Byte) (id : Nat) : Bool := secLen h id != 0

/-- Word `i` of a payload. -/
def pw (l : List W64) (i : Nat) : W64 := (l[i]?).getD 0

/-- A failure within a section (R352): SEC_CHECK with the byte offset of the word at fault. -/
def secCheck (id ofs : Nat) : LoadErr := { code := 13, section_ := id, detail := ofs }

/-! ### Reading and refusing -/

/-- The records of a payload, two words each; `n` counts the records before. -/
def recordsOf : Nat → List W64 → List InitRec
  | n, a :: b :: l =>
    { ofs := 16 * n, addr := a.setWidth 16, delay := fld a 32 16, value := b } :: recordsOf (n + 1) l
  | _, _ => []

/-- Records that a section holds at most. -/
def recordLimit (id : Nat) : Nat := if id = 2 then 64 else if id = 13 then 256 else 2048

/-- Pages allowed for a section. -/
def pageAllowed (id page : Nat) : Bool :=
  if id = 2 then
    [0x00, 0x02, 0x03, 0x40, 0x41, 0x48, 0x70].contains page || (decide (0x08 ≤ page) && decide (page ≤ 0x0B))
      || (decide (0x20 ≤ page) && decide (page ≤ 0x28)) || (decide (0x58 ≤ page) && decide (page ≤ 0x60))
  else if id = 13 then page == 0x50
  else page != 0x50 && page != 0x68 && !(pageRegs page).isEmpty

/-- SUP_CMD, FLT_FORCE_KEY, FLT_FORCE, SNAP_CMD, ADM_NET_SUBMIT, REC_RING_CTRL, PIO_INJECT, CE_DBG, CAN_CTRL. -/
def recordForbidden (addr : BitVec 16) : Bool :=
  let a := addr.toNat
  [0x0010, 0x0128, 0x0130, 0x0308, 0x1240, 0x4828, 0x5440].contains a
    || (decide (0x3000 ≤ a) && decide (a < 0x3800) && a % 256 == 0x48)
    || (decide (0x5800 ≤ a) && decide (a < 0x5C00) && a % 256 == 0x38)

/-- Bits of a record that the write carries: RO and W1C bits are ignored. -/
def InitRec.masked (r : InitRec) : W64 :=
  match regRow r.addr with
  | some x => r.value &&& BitVec.ofNat 64 (x.rw ||| x.act)
  | none => 0

/-- What a body has written so far, as the next reader will see it. -/
def Env.after (e : Env) (d : Dev) : Env := { e with mems := d.writes.foldl (fun m w => w.apply m) e.mems }

/-- WHEEL and CYLINDERS as loaded, put in force on a trial copy. -/
def Dev.staged (d : Dev) : Dev := { d with nvi := { d.nvi with held := [] } }.applyHeld

/-- A check that spans sections reports the section read last. Where that section's words do not say which of them is at
fault, DETAIL is free (R352 gives none; assumption 9); `place` says where the check fails. -/
def spanCheck (id place : Nat) : LoadErr := { code := 13, section_ := id, detail := (Config.loadDetail id place).toNat }

/-- A check that spans sections and hangs on a register: where the section read last holds register records, the last one
that names the register is at fault (DEDUCED; assumption 66). -/
def Nvi.regCheck (n : Nvi) (id : Nat) (addr : BitVec 16) : LoadErr :=
  let l := if id = 2 then n.earlyRecs else if id = 14 then n.regRecs else []
  match l.reverse.find? fun (r : InitRec) => r.addr == addr with
  | some r => secCheck id r.ofs
  | none => spanCheck id addr.toNat

/-- Values that the loader alone refuses: EDGE = both on a crank input in Hall or direction-coded mode (R38), and
CONF_WIN above 800 (R68). -/
def InitRec.refusedValue (r : InitRec) (d : Dev) : Bool :=
  let v := r.value
  (r.addr == 0x0A08 && decide (fld (d.ctx .loader).inSel 0 3 < 2) && decide (2 ≤ fld v 0 2) && fld v 2 2 == 2)
    || (r.addr == 0x0860 && decide (800 < fld v 4 10))

/-- A write on a trial copy, and the register read back: it must have taken every RW bit. -/
def InitRec.tried (r : InitRec) (x : Env × Dev) : Bool × Env × Dev :=
  match regRow r.addr with
  | none => (false, x)
  | some row =>
    let (e, d) := x
    let (_, d) := d.regWrite e true .loader r.addr r.masked
    let e := e.after d
    let (v, _, _) := d.regRead e .loader r.addr
    (((v ^^^ r.value) &&& BitVec.ofNat 64 row.rw) == 0 && !r.refusedValue d, e, d)

/-- A record's W0 and W1 against the refusals that need no device. -/
def recordPlain (id : Nat) (w0 : W64) (r : InitRec) : Bool :=
  match regRow r.addr with
  | none => false
  | some row => (w0 &&& 0xFFFF0000FFFF0000#64) == 0 && pageAllowed id (r.addr.toNat / 256) && !recordForbidden r.addr
      && (r.value &&& ~~~BitVec.ofNat 64 row.all) == 0

/-- The records in order, each tried on what the ones before it left: the first that is refused, and the trial copy. -/
def triedAll (id : Nat) (words : List W64) : List InitRec → Env × Dev → LoadErr × Env × Dev
  | [], x => ({}, x)
  | r :: l, x =>
    if recordPlain id (pw words (r.ofs / 8)) r then
      let (ok, y) := r.tried x
      if ok then triedAll id words l y else ({ code := 14, section_ := id, detail := r.ofs }, y)
    else ({ code := 14, section_ := id, detail := r.ofs }, x)

/-- The load-time checks of a section of register records. -/
def checkRecords (id : Nat) (words : List W64) (x : Env × Dev) : LoadErr × Env × Dev :=
  if recordLimit id < words.length / 2 then (secCheck id (16 * recordLimit id), x)
  else if words.length % 2 = 1 then (secCheck id (8 * words.length - 8), x)
  else triedAll id words (recordsOf 0 words) x

/-- A record enables a bank (R347). -/
def InitRec.enablesBank (r : InitRec) : Bool :=
  [0x2000, 0x2100, 0x2200, 0x2300].contains r.addr.toNat && bit r.value 0

/-! ### Applying (R353, R374) -/

/-- Pages whose REG_INIT writes wait for the handover. -/
def heldPage (page : Nat) : Bool := decide (0x08 ≤ page) && decide (page ≤ 0x18)

/-- Pages of the records that a device with the LOCKED latch applies (R374). -/
def latchPage (page : Nat) : Bool := page == 0x48 || (decide (0x58 ≤ page) && decide (page ≤ 0x60))

/-- One record applied. `hold`: writes to pages 0x08 to 0x18 are held. -/
def Dev.applyRec (e : Env) (hold : Bool) (r : InitRec) (d : Dev) : Dev :=
  let page := r.addr.toNat / 256
  if hold && heldPage page && r.addr.toNat % 256 != 0xF8 then
    { d with nvi := { d.nvi with held := d.nvi.held ++ [{ r with value := r.masked }] } }
  else (d.regWrite (e.after d) true .loader r.addr r.masked).2

/-- Records applied up to the first DELAY, which the device waits; answers whether all have been applied and their delays
are over. -/
def Dev.applyRecs (e : Env) (hold : Bool) : List InitRec → Dev → Bool × Dev
  | [], d => (true, { d with nvi := { d.nvi with queue := [] } })
  | r :: l, d =>
    let d := d.applyRec e hold r
    if r.delay = 0 then d.applyRecs e hold l
    else (false, { d with nvi := { d.nvi with queue := l, dueAt := d.dtime + 1000 * r.delay } })

end Sys2Proof.Machine
end

