-- ==== Sys2Proof/Machine/LoadWheel.lean ====
section
/-! DEFINITION. WHEEL, CYLINDERS and the frame of BASECAMP (R42 to R45, R76, R355, R356, R358): the payloads as tables,
with the checks that need nothing but the payload. `i` is the index of the next word in the payload. -/

namespace Sys2Proof.Machine

/-- A word that the counts ask for and the payload may not have (R358). -/
def takeWord (id i : Nat) : List W64 → Except LoadErr (W64 × List W64)
  | [] => .error (secCheck id (8 * i))
  | w :: l => .ok (w, l)

def refuseIf (b : Bool) (id i : Nat) : Except LoadErr Unit := if b then .error (secCheck id (8 * i)) else .ok ()

/-- A wheel entry (R43). -/
def toothOf (w : W64) : Tooth :=
  { angle := fld w 0 32, present := bit w 32, cls := fld w 33 2, ownBand := bit w 35, bandLo := fld w 36 12, bandHi := fld w 48 12 }

/-- The rules of R43 and R44 on one entry; `noise` is the higher noise floor of both modes. -/
def toothBad (noise : Nat) (prev : Option Nat) (w : W64) : Bool :=
  let x := toothOf w
  let order := match prev with | none => x.angle != 0 | some a => decide (x.angle ≤ a)
  fld w 60 4 != 0 || decide (rev360 ≤ x.angle) || order || (!x.present && x.cls != 0)
    || (decide (2 ≤ x.cls) && !x.ownBand) || (x.ownBand && (decide (x.bandLo ≤ noise) || decide (x.bandHi ≤ x.bandLo)))

def parseTeeth (id noise : Nat) : Nat → Nat → Option Nat → List W64 → Except LoadErr (List Tooth × List W64)
  | 0, _, _, l => .ok ([], l)
  | n + 1, i, prev, l => do
    let (w, l) ← takeWord id i l
    refuseIf (toothBad noise prev w) id i
    let (ts, l) ← parseTeeth id noise n (i + 1) (some (toothOf w).angle) l
    return (toothOf w :: ts, l)

/-- A last-before-gap entry must be followed by missing positions and then by a first-after-gap entry (R44). -/
def gapFollows (ts : List Tooth) (j : Nat) : Bool :=
  let at_ (k : Nat) : Tooth := (ts[(j + k) % ts.length]?).getD default
  match (List.range ts.length).find? fun k => decide (0 < k) && (at_ k).present with
  | some k => decide (1 < k) && (at_ k).cls == 2
  | none => false

def camEntryOf (w : W64) : CamEntry := { angle := fld w 0 32, win := fld w 32 16, falling := bit w 48, ref := bit w 49 }

def parseCamEntries (id cyc : Nat) : Nat → Nat → List W64 → Except LoadErr (List CamEntry × List W64)
  | 0, _, l => .ok ([], l)
  | n + 1, i, l => do
    let (w, l) ← takeWord id i l
    refuseIf (fld w 50 14 != 0 || decide (cyc ≤ fld w 0 32)) id i
    let (es, l) ← parseCamEntries id cyc n (i + 1) l
    return (camEntryOf w :: es, l)

/-- The cam tables of CAM_EN, in ascending order (R45, R358). -/
def parseCams (id cyc : Nat) : List Bool → Nat → List W64 → Except LoadErr (List (Option CamTable) × List W64)
  | [], _, l => .ok ([], l)
  | false :: en, i, l => do
    let (cs, l) ← parseCams id cyc en i l
    return (none :: cs, l)
  | true :: en, i, l => do
    let (w, l) ← takeWord id i l
    let n := fld w 0 5
    refuseIf (decide (16 < n) || fld w 12 52 != 0) id i
    let (es, l) ← parseCamEntries id cyc n (i + 1) l
    let (cs, l) ← parseCams id cyc en (i + 1 + n) l
    return (some { phase := bit w 5, loss := bit w 6, vvt := bit w 7, missMax := fld w 8 4, entries := es } :: cs, l)

/-- The window of a REF edge lies wholly within the base pitch before the anchor, at one revolution (R55). WIN is in
1/256 °CA. -/
def refInside (w : Wheel) (x : CamEntry) : Bool :=
  let win := x.win * 2 ^ 14
  let within (a : Nat) : Bool :=
    let back := w.ahead x.angle a
    decide (win ≤ back) && decide ((back + win) * w.crkPos ≤ rev360)
  within w.anchor || within (w.anchor + rev360)

/-- Header, entries and cam tables of a wheel (R42 to R45), and the words after them. -/
def parseWheel (id noise i : Nat) (l : List W64) : Except LoadErr (Wheel × List W64) := do
  let (h, l) ← takeWord id i l
  let n := fld h 0 8
  refuseIf (n == 0 || decide (240 < n) || fld h 14 18 != 0) id i
  let (ts, l) ← parseTeeth id noise n (i + 1) none l
  let nogap := bit h 9
  refuseIf (!nogap && (ts.head?.map fun x => x.cls) != some 2) id (i + 1)
  match (List.range n).find? fun j => (ts[j]?).any (fun x => x.cls == 1) && !gapFollows ts j with
  | some j => .error (secCheck id (8 * (i + 1 + j)))
  | none => .ok ()
  let cyc := if bit h 8 then rev360 else 2 * rev360
  let (cams, l) ← parseCams id cyc ((List.range 4).map fun c => bit h (10 + c)) (i + 1 + n) l
  let refs (c : Option CamTable) : Bool := c.any fun t => (t.entries.filter fun (x : CamEntry) => x.ref).length == 1
  let w : Wheel := { crkPos := n, twoStroke := bit h 8, nogap := nogap, camEn := BitVec.ofNat 4 (fld h 10 4)
                     anchorOfs := signed 32 (fld h 32 32), teeth := ts, cams := cams }
  let inside (c : Option CamTable) : Bool := c.all fun t => t.entries.all fun (x : CamEntry) => !x.ref || refInside w x
  refuseIf (nogap && (!cams.any refs || !cams.all inside)) id i
  return (w, l)

/-- The seed of entry `j` in a table of four per word (R76, R358). -/
def seedAt (l : List W64) (j : Nat) : Int := signed 16 (fld (pw l (j / 4)) (16 * (j % 4)) 16)

def seedBad (w : Wheel) (l : List W64) (j : Nat) : Bool :=
  let c := seedAt l j
  decide (c < -4096) || decide (4096 < c) || (c != 0 && !(w.teeth[j]?).any fun x => x.present)

/-- WHEEL: the wheel and its corrections after the zero-sum adjustment (R76, R79). -/
def parseWheelSection (noise : Nat) (ws : List W64) : Except LoadErr (Wheel × List Int) := do
  let (w, l) ← parseWheel 4 noise 0 ws
  let i := ws.length - l.length
  let n := (w.crkPos + 3) / 4
  if l.isEmpty then return (w, List.replicate w.crkPos 0)
  refuseIf (l.length != n) 4 i
  match (List.range (4 * n)).find? (seedBad w l) with
  | some j => .error (secCheck 4 (8 * (i + j / 4)))
  | none => return (w, w.zeroSum ((List.range w.crkPos).map (seedAt l)))

/-! ### CYLINDERS (R355) -/

/-- Byte `j` of the output assignment. -/
def ownerByte (ws : List W64) (j : Nat) : Nat := fld (pw ws (16 + j / 8)) (8 * (j % 8)) 8

def tdcOf (ws : List W64) (c : Nat) : Option Angle := if bit (pw ws c) 32 then some (fld (pw ws c) 0 32) else none

/-- A cylinder's word is refused. -/
def cylBad (cyc : Nat) (ws : List W64) (c : Nat) : Bool :=
  fld (pw ws c) 33 31 != 0 || (c == 0 && tdcOf ws 0 != some 0)
    || match tdcOf ws c with
      | some a => decide (cyc ≤ a) || (List.range c).any fun b => tdcOf ws b == some a
      | none => false

def parseCylinders (cyc : Nat) (ws : List W64) : Except LoadErr (Vector (Option Angle) 16 × Vector Nat 56) := do
  refuseIf (ws.length != 23) 5 (min ws.length 23)
  match (List.range 16).find? (cylBad cyc ws) with
  | some c => .error (secCheck 5 (8 * c))
  | none => .ok ()
  match (List.range 56).find? fun j => ownerByte ws j != 0x1F && (decide (16 ≤ ownerByte ws j) || (tdcOf ws (ownerByte ws j)).isNone) with
  | some j => .error (secCheck 5 (128 + 8 * (j / 8)))
  | none => return (Vector.ofFn fun c : Fin 16 => tdcOf ws c.val, Vector.ofFn fun j : Fin 56 => ownerByte ws j.val)

/-! ### BASECAMP (R356) -/

/-- BASECAMP as framed: the wheel, each bank's profile with the index of its first word, and the templates with theirs. -/
structure Basecamp where
  wheel     : Wheel := {}
  profiles  : List (Nat × Nat × List W64) := []
  templates : List (Nat × List W64) := []
  deriving DecidableEq, Repr

def parseBcProfiles : List Nat → Nat → List W64 → Except LoadErr (List (Nat × Nat × List W64) × Nat × List W64)
  | [], i, l => .ok ([], i, l)
  | k :: ks, i, l => do
    let (w, l) ← takeWord 3 i l
    let n := w.toNat
    refuseIf (decide (n < 2) || decide (32 < n)) 3 i
    refuseIf (decide (l.length < n)) 3 (i + 1 + l.length)
    let (ps, j, rest) ← parseBcProfiles ks (i + 1 + n) (l.drop n)
    return ((k, i + 1, l.take n) :: ps, j, rest)

def parseBasecamp (noise : Nat) (ws : List W64) : Except LoadErr Basecamp := do
  let (h, l) ← takeWord 3 0 ws
  let n := fld h 0 8
  refuseIf (decide (64 < n) || fld h 12 52 != 0) 3 0
  let (w, l) ← parseWheel 3 noise 1 l
  let (ps, i, l) ← parseBcProfiles ((List.range 4).filter fun k => bit h (8 + k)) (ws.length - l.length) l
  refuseIf (l.length != 8 * n) 3 (min ws.length (i + 8 * n))
  return { wheel := w, profiles := ps, templates := (List.range n).map fun j => (i + 8 * j, (l.drop (8 * j)).take 8) }

end Sys2Proof.Machine
end

