-- ==== Sys2Proof/Machine/LoadProf.lean ====
section
/-! DEFINITION. PROFILES, and the profiles of BASECAMP: the checks of R189 and the values of R190. An instruction's fields
are those of R176 and R177. -/

namespace Sys2Proof.Machine

def psqOp (w : W64) : Nat := fld w 0 4
def psqTimeImm (w : W64) : Nat := fld w 44 20
def psqSrcT (w : W64) : Nat := fld w 41 3

/-! ### Checks 2 to 9 of R189: whether the instruction at a relative index fails -/

/-- Bits that R177 gives an instruction, OP, TIME and SRC_T among them. -/
def psqBits (op : Nat) : W64 :=
  let base := 0xF ||| mask64 41 23
  match op with
  | 0 => base ||| mask64 4 3
  | 1 | 2 => base ||| mask64 4 28
  | 3 => base
  | 4 | 5 => base ||| mask64 4 36
  | 6 => base ||| mask64 4 15
  | 7 => base ||| mask64 4 21
  | 8 | 9 => base ||| mask64 4 1
  | _ => base ||| mask64 4 13

def codeBad (w : W64) : Bool :=
  let op := psqOp w
  decide (10 < op) || (w &&& ~~~psqBits op) != 0 || decide (4 < psqSrcT w)
    || (op == 0 && decide (3 < fld w 4 3))
    || ((op == 1 || op == 2 || op == 10) && decide (4 < fld w 14 3))
    || (op == 6 && decide (12 < fld w 4 4))
    || ((op == 4 || op == 5) && (decide (3 < fld w 4 3) || decide (3 < fld w 7 3) || decide (4 < fld w 20 3) || decide (4 < fld w 33 3)))

def untilBad (w : W64) : Bool :=
  let op := psqOp w
  (op == 1 || op == 2 || op == 10) && (fld w 4 10 == 0 || psqTimeImm w == 0)

def chopBad (w : W64) : Bool :=
  let op := psqOp w
  (op == 4 && psqTimeImm w == 0) || ((op == 4 || op == 5) && (fld w 23 10 == 0 || decide (fld w 10 10 ≤ fld w 23 10)))

def timeBad (w : W64) : Bool :=
  let op := psqOp w
  let uses := op == 1 || op == 2 || op == 3 || op == 4 || op == 10 || (op == 6 && fld w 4 4 == 12)
  decide (1000000 < psqTimeImm w) || (!uses && (psqTimeImm w != 0 || psqSrcT w != 0))

/-- The loops of a profile: index, LAST, counter. -/
def psqLoops (ws : List W64) : List (Nat × Nat × Nat) :=
  (List.range ws.length).filterMap fun i =>
    let w := pw ws i
    if psqOp w = 7 then some (i, fld w 14 10, fld w 24 1) else none

/-- Where an instruction can jump to. -/
def psqTarget (w : W64) : Option Nat :=
  match psqOp w with
  | 6 => some (fld w 9 10)
  | 1 | 2 => if bit w 21 then some (fld w 22 10) else none
  | _ => none

def jumpBad (ws : List W64) (i : Nat) : Bool :=
  match psqTarget (pw ws i) with
  | none => false
  | some t => decide (t ≤ i) || decide (ws.length ≤ t)
      || (psqLoops ws).any fun x =>
        decide (x.1 < t) && decide (t ≤ x.2.1) && !(decide (x.1 < i) && decide (i ≤ x.2.1))

def loopBad (ws : List W64) (i : Nat) : Bool :=
  match (psqLoops ws).find? fun x => x.1 == i with
  | none => false
  | some (_, e, c) =>
    let outer := (psqLoops ws).filter fun x => decide (x.1 < i) && decide (i ≤ x.2.1)
    decide (e ≤ i) || decide (ws.length ≤ e + 1) || decide (2 ≤ outer.length)
      || outer.any fun x => decide (x.2.1 < e) || x.2.2 == c

/-- Checks 2 to 9 in order: the lowest that fails, with the lowest relative index at which it does. -/
def profileChecks (ws : List W64) : Option (Nat × Nat) :=
  let n := ws.length
  let at_ (check : Nat) (f : Nat → Bool) : Option (Nat × Nat) := ((List.range n).find? f).map fun i => (check, i)
  let first := pw ws 0
  if psqOp first ≠ 0 ∨ fld first 4 3 = 0 ∨ 3 < fld first 4 3 then some (2, 0)
  else
    (at_ 3 fun i => (psqOp (pw ws i) == 10) != (i + 1 == n))
      <|> (at_ 4 fun i => codeBad (pw ws i)) <|> (at_ 5 fun i => untilBad (pw ws i)) <|> (at_ 6 fun i => chopBad (pw ws i))
      <|> (at_ 7 fun i => timeBad (pw ws i)) <|> at_ 8 (jumpBad ws) <|> at_ 9 (loopBad ws)

/-! ### The longest time in BOOST (R190) -/

/-- Longest time in BOOST of the paths that reach a point, in steps: without and with BOOST in effect there. -/
abbrev BoostTimes := Option Nat × Option Nat

def later (a b : Option Nat) : Option Nat :=
  match a, b with
  | some x, some y => some (max x y)
  | some x, none => some x
  | none, y => y

def BoostTimes.join (a b : BoostTimes) : BoostTimes := (later a.1 b.1, later a.2 b.2)

/-- Every path spends so many steps; those in BOOST count. -/
def BoostTimes.spend (n : Nat) (a : BoostTimes) : BoostTimes := (a.1, a.2.map (· + n))

/-- From here on BOOST is, or is not, in effect, after `n` steps spent in BOOST on every path. -/
def BoostTimes.set (boost : Bool) (n : Nat) (a : BoostTimes) : BoostTimes :=
  let t := (later a.1 a.2).map (· + n)
  if boost then (none, t) else (t, none)

/-- What the walk through a profile has reached: each index still ahead, the end of the loop body it is in, and END. The
codes that bound the current in BOOST, and whether something in BOOST is not bounded. -/
structure Walk where
  ahead : List BoostTimes := []
  body  : BoostTimes := (none, none)
  done  : BoostTimes := (none, none)
  code  : Option Nat := none
  open_ : Bool := false
  deriving DecidableEq, Repr

def Walk.jump (t : Nat) (c : BoostTimes) (x : Walk) : Walk := { x with ahead := updL x.ahead t (BoostTimes.join c) }

/-- Continuing in sequence after index `i`, in a body that ends at `last`. -/
def Walk.seq (last i : Nat) (c : BoostTimes) (x : Walk) : Walk :=
  if i = last then { x with body := x.body.join c } else x.jump (i + 1) c

def Walk.bound (code : Nat) (x : Walk) : Walk := { x with code := later x.code (some code) }

/-- Time of an instruction in steps, an argument counting at its limit of 4 ms. -/
def psqLongest (w : W64) : Nat := if psqSrcT w = 0 then psqTimeImm w else 1000000

/-- One instruction but LOOP. -/
def Walk.instr (last i : Nat) (w : W64) (c : BoostTimes) (x : Walk) : Walk :=
  match psqOp w with
  | 0 =>
    let boost := fld w 4 3 == 1
    x.seq last i (c.set boost (if boost then 1 else 0))
  | 1 | 2 =>
    let x := if c.2.isNone then x
      else if psqOp w = 1 then x.bound (if fld w 14 3 = 0 then fld w 4 10 else 1023) else { x with open_ := true }
    let c := c.spend (psqLongest w)
    let x := x.seq last i c
    if bit w 21 then x.jump (fld w 22 10) c else x
  | 3 => (if c.2.isNone then x else { x with open_ := true }).seq last i (c.spend (max 1 (psqLongest w)))
  | 4 | 5 =>
    let sOn := fld w 4 3 == 1
    let sOff := fld w 7 3 == 1
    let x := if sOn then x.bound (if fld w 20 3 = 0 then fld w 10 10 else 1023) else x
    let x := { x with open_ := x.open_ || sOff }
    if sOn || sOff then x.seq last i (c.set true (if psqOp w = 4 then psqLongest w else 5000000)) else x.seq last i (c.set false 0)
  | 6 => (x.seq last i (c.spend 1)).jump (fld w 9 10) (c.spend 1)
  | 10 => { x with done := x.done.join c }
  | _ => x.seq last i (c.spend 1)

/-- Another walk's exits, codes and ends joined to this one's. -/
def Walk.merge (y x : Walk) : Walk :=
  { x with ahead := List.zipWith BoostTimes.join x.ahead y.ahead, done := x.done.join y.done
           code := later x.code y.code, open_ := x.open_ || y.open_ }

/-- The instructions from `i` to `last`, each after every one that can lead to it. A loop's body is walked COUNT times.
`n` bounds the depth. -/
def Walk.run (ws : List W64) : Nat → Nat → Nat → Walk → Walk
  | 0, _, _, x => x
  | n + 1, i, last, x =>
    if last < i ∨ ws.length ≤ i then x
    else
      let c := (x.ahead[i]?).getD (none, none)
      let x := { x with ahead := updL x.ahead i fun _ => (none, none) }
      let w := pw ws i
      let x :=
        if c = (none, none) then x
        else if psqOp w ≠ 7 then x.instr last i w c
        else
          let e := fld w 14 10
          let pass (y : BoostTimes × Walk) : BoostTimes × Walk :=
            let z : Walk := { ahead := ws.map fun _ => (none, none) }
            let z := Walk.run ws n (i + 1) e (z.jump (i + 1) y.1)
            (z.body, z.merge y.2)
          let (c, x) := (List.range (fld w 4 10)).foldl (fun y _ => pass y) (c.spend 1, x)
          x.seq last e c
      Walk.run ws n (i + 1) last x

/-- The values of a profile (R190). -/
def profileOf (vSet rsh start : Nat) (ws : List W64) : Profile :=
  let z : Walk := { ahead := ws.map fun _ => (none, none) }
  let x := Walk.run ws (3 * ws.length + 3) 0 ws.length (z.jump 0 (some 0, none))
  let last := pw ws (ws.length - 1)
  let tB := 4 * (later x.done.1 x.done.2).getD 0
  let iB := if x.open_ then 1024 else match x.code with | some c => c + 16 | none => 1024
  { start := start, len := ws.length, tEnd := 4 * psqLongest last, tB := tB, iB := iB, eP := profileEnergy vSet rsh iB tB }

/-- The detail of R352 for a profile. -/
def profileDetail (bank prof index check : Nat) : Nat := bank % 4 + 4 * (prof % 32) + 128 * (index % 1024) + 131072 * check

/-! ### PROFILES (R174, R358) -/

/-- A bank's block: its directory and its instruction words. -/
structure ProfBlock where
  bank  : Nat := 0
  dir   : List W64 := []
  words : List W64 := []
  deriving DecidableEq, Repr

def frameBad (i : Nat) : LoadErr := { code := 13, section_ := 6, detail := (Config.loadDetail 6 (8 * i)).toNat }

/-- The blocks of the payload; `free` is how many indices of each bank basecamp leaves; `n` bounds their number. -/
def parseBlocks (free : Nat → Nat) : Nat → List Nat → Nat → List W64 → Except LoadErr (List ProfBlock)
  | _, _, _, [] => .ok []
  | 0, _, i, _ :: _ => .error (frameBad i)
  | n + 1, seen, i, h :: l =>
    let k := fld h 0 2
    let m := fld h 16 11
    let dir := l.take 32
    if (h &&& 0xFFFFFFFFF800FFFC) != 0 || seen.contains k || decide (free k < m) then .error (frameBad i)
    else if l.length < 32 + m then .error (frameBad (i + 1 + l.length))
    else match (List.range 32).find? fun j => (pw dir j &&& 0xFFFFFFFFF800FC00) != 0 with
      | some j => .error (frameBad (i + 1 + j))
      | none => do
        let bs ← parseBlocks free n (k :: seen) (i + 33 + m) (l.drop (32 + m))
        return { bank := k, dir := dir, words := (l.drop 32).take m } :: bs

def dirStart (w : W64) : Nat := fld w 0 10
def dirLen (w : W64) : Nat := fld w 16 11

/-- Two stretches of indices meet. -/
def meets (a n b m : Nat) : Bool := n != 0 && m != 0 && decide (a < b + m) && decide (b < a + n)

/-- Check 1 of R189 on one profile, the bank's basecamp profile being one of them (R356). -/
def placeBad (free : Nat) (dir : List W64) (j : Nat) : Bool :=
  let s := dirStart (pw dir j)
  let n := dirLen (pw dir j)
  decide (1024 < s + n) || meets s n free (1024 - free)
    || (List.range 32).any fun q => q != j && meets s n (dirStart (pw dir q)) (dirLen (pw dir q))

/-- The instruction words of a profile; indices that the block does not load hold 0. -/
def ProfBlock.code (b : ProfBlock) (j : Nat) : List W64 :=
  (List.range (dirLen (pw b.dir j))).map fun i => pw b.words (dirStart (pw b.dir j) + i)

/-- Place of a profile in the order of R189: banks ascending, then profiles. -/
def profRank (bank prof : Nat) : Nat := 32 * bank + prof

/-- Checks 1 to 9 over a bank's block: rank and detail of its first profile that fails. -/
def ProfBlock.check (free : Nat) (b : ProfBlock) : Option (Nat × Nat) :=
  (List.range 32).findSome? fun j =>
    if dirLen (pw b.dir j) = 0 then none
    else if placeBad free b.dir j then some (profRank b.bank j, profileDetail b.bank j 0 1)
    else (profileChecks (b.code j)).map fun x => (profRank b.bank j, profileDetail b.bank j x.2 x.1)

/-- The payload of PROFILES, framed and checked: its blocks, and rank and detail of the first profile that fails checks 1
to 9. With no other profile before it that one is the failure to report. With one, check 10 is still to judge that one, and
the report waits for it (R189, R359; DEDUCED, assumption 66). -/
def parseProfiles (free : Nat → Nat) (ws : List W64) : Except LoadErr (List ProfBlock × Option (Nat × Nat)) := do
  let bs ← parseBlocks free 4 [] 0 ws
  match (List.range 4).findSome? fun k => (bs.find? fun b => b.bank == k).bind (ProfBlock.check (free k)) with
  | some x =>
    if bs.any fun b => (List.range 32).any fun j => dirLen (pw b.dir j) != 0 && decide (profRank b.bank j < x.1)
    then return (bs, some x) else .error { code := 13, section_ := 6, detail := x.2 }
  | none => return (bs, none)

end Sys2Proof.Machine
end

