-- ==== Sys2Proof/Machine/LoadCalc.lean ====
section
/-! DEFINITION. CE_LISTS, MAPS and SLOTS_INIT: framing, the checks of R225, R236, R239 and R241 to R243, and the longest
paths of lists. -/

namespace Sys2Proof.Machine

/-! ### CE_LISTS (R241, R242, R358) -/

structure CalcSection where
  dbgRun : Bool := false
  lists  : List W64 := []
  trig   : List W64 := []
  ops    : List W64 := []
  deriving DecidableEq, Repr

def listStart (w : W64) : Nat := fld w 0 13
def listLen (w : W64) : Nat := fld w 16 14
def listEngine (w : W64) : Nat := fld w 32 3
def listWcet (w : W64) : Nat := fld w 40 24

/-- Byte offsets of a directory word, a trigger word and an operation. -/
def CalcSection.dirAt (j : Nat) : Nat := 8 + 8 * j
def CalcSection.trigAt (c : CalcSection) (i : Nat) : Nat := 8 + 8 * c.lists.length + 8 * i
def CalcSection.opAt (c : CalcSection) (i : Nat) : Nat := 8 + 8 * c.lists.length + 2048 + 8 * i

def frameCalc (ws : List W64) : Except LoadErr CalcSection := do
  let (h, l) ← takeWord 7 0 ws
  let n := fld h 12 13
  let m := fld h 32 32
  refuseIf ((h &&& 0x00000000FE000FFE) != 0 || decide (8192 < m)) 7 0
  refuseIf (l.length != n + 256 + m) 7 (min ws.length (1 + n + 256 + m))
  return { dbgRun := bit h 0, lists := l.take n, trig := (l.drop n).take 256, ops := l.drop (n + 256) }

/-- Slots that an operation writes: DST, and DST + 1 for PI (R233, R234). -/
def opWrites (w : W64) : List Nat :=
  match fld w 0 8 with
  | 0x00 | 0x18 | 0x39 | 0x3C => []
  | 0x2B => [opDst w, opDst w + 1]
  | _ => [opDst w]

/-- Slots that an operation reads through its operands. -/
def opReads (w : W64) : List Nat :=
  let a := opA w
  let b := if opImm w then [] else [opB w]
  match fld w 0 8 with
  | 0x00 => []
  | 0x09 | 0x2A => [a, opB w, opB w + 1]
  | 0x0A | 0x0B => [a]
  | 0x20 => [a]
  | 0x21 => [a, a + 1]
  | 0x22 => [a, a + 1, a + 2]
  | 0x2B => [a, opB w, opB w + 1, opB w + 2, opB w + 3]
  | 0x30 | 0x31 | 0x39 => [a]
  | 0x38 => [a, a + 7]
  | 0x3C => if 3 ≤ opCond w then [a] else []
  | 0x01 => [a]
  | _ => a :: b

def opListed (c : Nat) : Bool :=
  decide (c ≤ 0x0B) || (decide (0x10 ≤ c) && decide (c ≤ 0x14)) || c == 0x18 || c == 0x19
    || (decide (0x20 ≤ c) && decide (c ≤ 0x22)) || (decide (0x28 ≤ c) && decide (c ≤ 0x2B))
    || c == 0x30 || c == 0x31 || c == 0x38 || c == 0x39 || c == 0x3C

/-- An EMIT target within R238. -/
def emitOk (dst : Nat) : Bool :=
  let i := dst % 8192
  match dst / 8192 with
  | 0 | 3 => true
  | 1 => decide (i < 40)
  | 2 => decide (i < 8)
  | 4 => decide (i < 2)
  | _ => false

/-- Whether an operation breaks R231 to R233 or R236 by itself; `left` operations of its list follow it. -/
def opBad (w : W64) (left : Nat) : Bool :=
  let c := fld w 0 8
  !opListed c || fld w 61 3 != 0
    || (c == 0x18 && decide (5 < opCond w)) || (c == 0x3C && decide (6 < opCond w))
    || ((c == 0x0A || c == 0x0B || c == 0x3C) && opB w != 0) || (c == 0x18 && opDst w != 0)
    || (c == 0x3C && (opDst w == 0 || decide (left ≤ opDst w)))
    || (c == 0x39 && !emitOk (opDst w))
    || (opReads w ++ opWrites w).any fun i => decide (16384 ≤ i)

/-- The operations of a list. -/
def CalcSection.code (c : CalcSection) (dir : W64) : List W64 := (c.ops.drop (listStart dir)).take (listLen dir)

/-- A directory word breaks R241; `j` is its place. -/
def CalcSection.dirBad (c : CalcSection) (j : Nat) (w : W64) : Bool :=
  let n := listLen w
  let overlaps : Bool := (List.range j).any fun i => meets (listStart w) n (listStart (pw c.lists i)) (listLen (pw c.lists i))
  (w &&& 0x000000F8C000E000#64) != 0 || decide (c.ops.length < listStart w + n) || overlaps
    || (n != 0 && fld (pw c.ops (listStart w + n - 1)) 0 8 != 0)

/-- The first operation of a list that is refused. -/
def CalcSection.badOp (c : CalcSection) (dir : W64) : Option Nat :=
  let l := c.code dir
  ((List.range l.length).find? fun i => opBad (pw l i) (l.length - 1 - i)).map (listStart dir + ·)

/-- A trigger word of engine `k` breaks R242. -/
def CalcSection.trigBad (c : CalcSection) (k : Nat) (w : W64) : Bool :=
  let src := fld w 3 13
  let srcBad := match fld w 0 3 with
    | 1 => src != 0
    | 2 => decide (32 ≤ src)
    | 3 => decide (4 * 128 ≤ src)
    | 4 => decide (32 ≤ src)
    | 5 => decide (4096 ≤ src)
    | 6 => decide (32 ≤ src)
    | _ => false
  (w &&& 0xFFFF0000E0000000#64) != 0 || fld w 0 3 == 7
    || (fld w 0 3 != 0 && (srcBad || fld w 32 16 == 0
        || !c.lists.any fun d => listStart d == fld w 16 13 && listEngine d == k))

/-! ### Worst-case execution time (R243) -/

/-- Clocks of an operation (R233); END and REQ are in ns apart. -/
def opClocks : Nat → Nat
  | 0x04 | 0x06 | 0x09 | 0x29 | 0x2A | 0x39 => 2
  | 0x05 => 20
  | 0x20 => 10
  | 0x21 => 18
  | 0x22 => 28
  | 0x28 | 0x30 | 0x31 => 3
  | 0x2B => 8
  | _ => 1

/-- Longest time from an operation to END, in ns, given those of the operations after it, nearest first. -/
def opTime (drain : Nat) (w : W64) (rest : List Nat) : Nat :=
  let next := rest.head?.getD 0
  match fld w 0 8 with
  | 0x00 => 4 * (1 + drain)
  | 0x38 => 2012 + next
  | 0x3C =>
    let far := (rest[opDst w]?).getD 0
    4 + (if opCond w = 2 then far else max next far)
  | c => 4 * opClocks c + next

/-- WCET of a list that may stage `drain` slots. -/
def listTime (drain : Nat) (l : List W64) : Nat := (l.foldr (fun w rest => opTime drain w rest :: rest) []).head?.getD 0

/-- The longest DEADLINE-bound list: a trigger entry with less than its list's WCET. -/
def CalcSection.lateTrig (c : CalcSection) (drain : W64 → Nat) (i : Nat) : Bool :=
  let w := pw c.trig i
  fld w 0 3 != 0 && c.lists.any fun d =>
    listStart d == fld w 16 13 && listEngine d == i / 32 && decide (1000 * fld w 32 16 < listTime (drain d) (c.code d))

def CalcSection.slowList (c : CalcSection) (drain : W64 → Nat) (d : W64) : Bool :=
  decide (listWcet d < listTime (drain d) (c.code d))

/-- CE_LISTS, with every check that needs no other section. -/
def parseCalc (ws : List W64) : Except LoadErr CalcSection := do
  let c ← frameCalc ws
  match (List.range c.lists.length).find? fun j => c.dirBad j (pw c.lists j) with
  | some j => .error (secCheck 7 (CalcSection.dirAt j))
  | none => .ok ()
  match (List.range 256).find? fun i => c.trigBad (i / 32) (pw c.trig i) with
  | some i => .error (secCheck 7 (c.trigAt i))
  | none => .ok ()
  match c.lists.findSome? c.badOp with
  | some i => .error (secCheck 7 (c.opAt i))
  | none => .ok ()
  match (List.range c.lists.length).find? fun j => c.slowList (fun _ => 0) (pw c.lists j) with
  | some j => .error (secCheck 7 (CalcSection.dirAt j))
  | none => .ok ()
  match (List.range 256).find? (c.lateTrig fun _ => 0) with
  | some i => .error (secCheck 7 (c.trigAt i))
  | none => return c

/-- What the lists in memory were loaded from, for the checks of finalisation. -/
def Dev.calcLoaded (e : Env) (d : Dev) : CalcSection :=
  { lists := d.ces.lists, trig := d.ces.trig.toList, ops := (List.range d.ces.nOps).map fun i => e.mems.word (listBase + 8 * i) }

/-! ### MAPS (R239, R240) -/

/-- Bytes of map memory (R31). -/
def mapSize : Nat := loftBase - mapBase

def MapDesc.bpOk (x : MapDesc) (m : Mems) (first n : Nat) : Bool :=
  (List.range (n - 1)).all fun i => decide ((m.word (x.bpAt first i)).toInt < (m.word (x.bpAt first (i + 1))).toInt)

/-- Map `i` of a memory breaks R239. An absent axis stores no breakpoint (DESIGN CHOICE, assumption 61; unsafe for
a claim about a map with NY 1 and NZ above 1). -/
def mapBad (m : Mems) (i : Nat) : Bool :=
  let w0 := m.word (mapBase + 32 * i)
  let w3 := m.word (mapBase + 32 * i + 24)
  let x := m.mapDesc i
  let axis (least n : Nat) : Bool := decide (n < least) || decide (64 < n)
  let ny := if x.ny = 1 then 0 else x.ny
  let nz := if x.nz = 1 then 0 else x.nz
  (w0 &&& 0xFFFC000080808000 ||| w0 &&& 0xFC) != 0 || fld w3 18 46 != 0
    || axis 2 x.nx || axis 1 x.ny || axis 1 x.nz || x.data % 8 != 0 || x.axes % 8 != 0
    || decide (mapSize < x.data + (if x.width < 2 then 2 else 4) * (x.nx * x.ny * x.nz))
    || decide (mapSize < x.axes + 8 * (x.nx + ny + nz))
    || !x.bpOk m 0 x.nx || (x.ny != 1 && !x.bpOk m x.nx x.ny) || (x.nz != 1 && !x.bpOk m (x.nx + ny) x.nz)

/-- A LUT operation and its map (R236, R240). -/
def lutBad (m : Mems) (nMaps : Nat) (w : W64) : Bool :=
  let x := m.mapDesc (opB w)
  match fld w 0 8 with
  | 0x20 => decide (nMaps ≤ opB w) || x.ny != 1 || x.nz != 1
  | 0x21 => decide (nMaps ≤ opB w) || decide (x.ny < 2) || x.nz != 1
  | 0x22 => decide (nMaps ≤ opB w) || decide (x.ny < 2) || decide (x.nz < 2)
  | _ => false

/-- MAPS on a trial copy of the memories: the number of maps, or the failure. -/
def checkMaps (e : Env) (ws : List W64) (lists : CalcSection) : Except LoadErr Nat := do
  let (h, l) ← takeWord 8 0 ws
  let n := fld h 0 11
  refuseIf (fld h 11 53 != 0 || decide (1024 < n)) 8 0
  refuseIf (decide (l.length < 4 * n)) 8 ws.length
  refuseIf (decide (mapSize < 8 * l.length)) 8 (1 + mapSize / 8)
  let m := MemOp.apply e.mems (.bytes mapBase (wordsBytes l))
  match (List.range n).find? (mapBad m) with
  | some i => .error (secCheck 8 (8 + 32 * i))
  | none => .ok ()
  match lists.lists.findSome? fun d => (lists.code d).find? (lutBad m n) with
  | some w => .error (if opB w < n then secCheck 8 (8 + 32 * opB w) else spanCheck 8 (8 + 32 * opB w))
  | none => return n

/-! ### SLOTS_INIT (R224, R354) -/

/-- A slot record: byte offset, first slot, class and writer with the initial tag, values. -/
structure SlotRec where
  ofs   : Nat := 0
  first : Nat := 0
  attr  : SlotAttr := {}
  vals  : List W64 := []
  deriving DecidableEq, Repr

/-- Class and writer code go together (R224). -/
def classOk (cls writer : Nat) : Bool :=
  match cls with
  | 0 => decide (writer < 8) || writer == 15
  | 1 => writer == 8
  | _ => decide (writer < 8)

/-- The records of the payload; `n` bounds their number. -/
def parseSlots : Nat → List SlotRec → Nat → List W64 → Except LoadErr (List SlotRec)
  | _, seen, _, [] => .ok seen
  | 0, seen, _, _ :: _ => .ok seen
  | n + 1, seen, i, h :: l =>
    let first := fld h 0 14
    let k := fld h 32 16
    let refused : LoadErr := { code := 14, section_ := 9, detail := 8 * i }
    if (h &&& 0xFFFF0000F0000000#64) != 0 || decide (16384 < k) || !classOk (fld h 14 2) (fld h 16 4) || decide (31 < fld h 20 8)
        || decide (16384 < first + k) || seen.any fun r => meets first k r.first r.vals.length then .error refused
    else if l.length < k then .error (secCheck 9 (8 * (i + 1 + l.length)))
    else
      let r : SlotRec :=
        { ofs := 8 * i, first := first, vals := l.take k
          attr := { tag := BitVec.ofNat 8 (fld h 20 8), cls := BitVec.ofNat 2 (fld h 14 2), writer := BitVec.ofNat 4 (fld h 16 4) } }
      parseSlots n (seen ++ [r]) (i + 1 + k) (l.drop k)

/-- Writes of a record (R223). -/
def SlotRec.ops (r : SlotRec) : List MemOp :=
  .bytes (slotAddr r.first) (wordsBytes r.vals) :: (List.range r.vals.length).map fun i => .attr (r.first + i) r.attr

/-- The tag array that records leave. -/
def slotAttrs (rs : List SlotRec) : List (Nat × SlotAttr) :=
  rs.foldl (init := []) fun m r => (List.range r.vals.length).foldl (fun m i => sput {} m (r.first + i) r.attr) m

/-- A request block is misaligned, or mixes classes or writers (R225): slot `i` of class 3 lies in a group of eight that is
not all alike. -/
def blockBad (m : List (Nat × SlotAttr)) (x : Nat × SlotAttr) : Bool :=
  x.2.cls == 3 && (List.range 8).any fun j =>
    let y := sget {} m (x.1 / 8 * 8 + j)
    y.cls != 3 || y.writer != x.2.writer

def checkSlots (ws : List W64) : Except LoadErr (List SlotRec) := do
  let rs ← parseSlots ws.length [] 0 ws
  let m := slotAttrs rs
  match m.find? (blockBad m) with
  | some x =>
    let r := rs.find? fun r => decide (r.first ≤ x.1) && decide (x.1 < r.first + r.vals.length)
    .error (secCheck 9 ((r.map fun r => r.ofs).getD 0))
  | none => return rs

/-! ### Slot writers (R225 to R227, R233, R236) -/

/-- A list's operation on a slot that is not its engine's to write, or a REQ on something that is no request block of its
engine. -/
def writerBad (e : Env) (k : Nat) (w : W64) : Bool :=
  let own (i : Nat) : Bool := (e.attr i).writer.toNat == k
  (opWrites w).any (fun i => !own i)
    || (fld w 0 8 == 0x38 && (opA w % 8 != 0 || (e.attr (opA w)).cls != 3 || !own (opA w)))

/-- Output slots that a list writes, each once. -/
def outputSlots (e : Env) (l : List W64) : List Nat :=
  ((l.flatMap opWrites).filter fun i => (e.attr i).cls == 2).eraseDups

/-- Input slots that hardware sources name: converters, receive signals, the mirror, PIO machines and the cut mask. -/
def Dev.slotSources (e : Env) (d : Dev) : List Nat :=
  let conv := d.cnv.toList.flatMap Cnv.slots
  let rx := (List.finRange 4).flatMap fun k => (List.range 128).flatMap fun i =>
    let o := e.obj k i
    if o.kind = 1 then o.sigs.map fun n => fld (e.sig k n) 24 14 else []
  let mir := d.rope.rxEntries.map fun x => fld x.1 16 14
  let pio := d.pio.toList.filterMap fun x => if bit x.rxSlot 14 then some (fld x.rxSlot 0 14) else none
  let cut := if bit d.rope.cut 44 then [fld d.rope.cut 30 14] else []
  conv ++ rx ++ mir ++ pio ++ cut

/-- Slots that the wheel measurements go to (assumption 40). -/
def Dev.measSlots (d : Dev) : List Nat := d.nvi.measSlots.filterMap fun x => x.map fun s => s.val

/-- A slot at which R225 fails: an input slot that not exactly one source names, or a source on another slot. -/
def Dev.sourceBad (e : Env) (d : Dev) : Option Nat :=
  let src := d.slotSources e ++ d.measSlots
  match src.find? fun i => (e.attr i).cls != 1 with
  | some i => some i
  | none => (e.mems.attrs.find? fun x => x.2.cls == 1 && src.count x.1 != 1).map (·.1)

end Sys2Proof.Machine
end

