-- ==== Sys2Proof/Machine/LoadMsg.lean ====
section
/-! DEFINITION. MSG_TABLE, PIO_PROGS, STANDING and the templates of BASECAMP: framing and checks (R111, R297, R310 to
R312, R356 to R358, R371). -/

namespace Sys2Proof.Machine

/-! ### MSG_TABLE (R357) -/

/-- A chunk: byte offset of its first data word, target, first word, data. -/
structure MsgChunk where
  ofs    : Nat := 0
  target : Nat := 0
  wofs   : Nat := 0
  words  : List W64 := []
  deriving DecidableEq, Repr

def targetSize (t : Nat) : Nat := if t = 4 then 128 else 4096

def parseChunks : Nat → List MsgChunk → Nat → List W64 → Except LoadErr (List MsgChunk)
  | _, seen, _, [] => .ok seen
  | 0, seen, _, _ :: _ => .ok seen
  | n + 1, seen, i, h :: l =>
    let t := fld h 0 3
    let o := fld h 16 12
    let k := fld h 32 16
    if (h &&& 0xFFFF0000F000FFF8#64) != 0 || decide (4 < t) || decide (targetSize t < o + k)
        || seen.any fun c => c.target == t && meets o k c.wofs c.words.length then .error (secCheck 11 (8 * i))
    else if l.length < k then .error (secCheck 11 (8 * (i + 1 + l.length)))
    else parseChunks n (seen ++ [{ ofs := 8 * (i + 1), target := t, wofs := o, words := l.take k }]) (i + 1 + k) (l.drop k)

/-- Byte offset in the payload of the word that fills a word of a target; 0 when none does. -/
def chunkWhere (cs : List MsgChunk) (t word : Nat) : Nat :=
  match cs.find? fun c => c.target == t && decide (c.wofs ≤ word) && decide (word < c.wofs + c.words.length) with
  | some c => c.ofs + 8 * (word - c.wofs)
  | none => 0

/-- Writes to the message memories. -/
def MsgChunk.ops (c : MsgChunk) : List MemOp :=
  if h : c.target < 4 then [.bytes (msgAddr ⟨c.target, h⟩ (8 * c.wofs)) (wordsBytes c.words)] else []

/-- Words of the rope mirror table. -/
def mirrorWord (cs : List MsgChunk) (i : Nat) : W64 :=
  match cs.find? fun c => c.target == 4 && decide (c.wofs ≤ i) && decide (i < c.wofs + c.words.length) with
  | some c => pw c.words (i - c.wofs)
  | none => 0

/-- Payload lengths that CAN FD has. -/
def fdLength (n : Nat) : Bool := decide (n ≤ 8) || [12, 16, 20, 24, 32, 48, 64].contains n

def objLenOk (o : Obj) : Bool :=
  match o.format with
  | 0 => decide (o.len ≤ 8)
  | 1 => fdLength o.len
  | 2 => decide (1 ≤ o.len) && decide (o.len ≤ 2048)
  | _ => false

/-- The identifier fits its format (R310). -/
def objIdOk (o : Obj) : Bool :=
  let bits := if o.format != 2 && bit o.w0 4 then 29 else 11
  decide (fld o.w0 32 32 < 2 ^ bits)

/-- Bytes of an object's buffer, in whole units. -/
def objBytes (o : Obj) : Nat := (o.len + 7) / 8 * 8

/-- Word of an object that breaks R310, if one does. Of an unused object FORMAT and the reserved fields are judged. -/
def objBad (o : Obj) : Option Nat :=
  let rsv : Option Nat :=
    if o.format = 3 ∨ (o.w0 &&& 0xFFF00080) ≠ 0 then some 0
    else if fld o.w1 50 14 ≠ 0 then some 1
    else if (o.w2 &&& 0xFF800800FE000000#64) ≠ 0 then some 2
    else if fld o.w3 10 6 ≠ 0 then some 3
    else none
  if o.kind = 0 then rsv
  else if o.kind = 3 ∨ (o.w0 &&& 0xFFF00080) ≠ 0 ∨ objLenOk o = false ∨ objIdOk o = false then some 0
  else if fld o.w1 50 14 ≠ 0 then some 1
  else if (o.w2 &&& 0xFF800800FE000000#64) ≠ 0 ∨ 2048 < fld o.w2 32 11 + fld o.w2 44 11 then some 2
  else if fld o.w3 10 6 ≠ 0 ∨ 0x8000 < o.buf + objBytes o then some 3
  else none

/-- Payload bits of a signal, or `none` where one lies outside the object's payload (R311, R312). -/
def sigBits (o : Obj) (w : W64) : Option (List Nat) :=
  (List.range (sigLen w)).mapM fun i => (sigBit w i).bind fun b => if b < 8 * o.len then some b else none

def sigBad (e : Env) (k : Fin 4) (o : Obj) (w : W64) : Bool :=
  (w &&& 0xFFFF00C000800000#64) != 0 || (sigBits o w).isNone || (e.scale k (fld w 40 8)).1 == 0

/-- The objects of a controller that are in use. -/
def Env.objsOf (e : Env) (k : Fin 4) : List (Nat × Obj) :=
  ((List.range 128).map fun i => (i, e.obj k i)).filter fun x => x.2.kind != 0

/-- Word of a controller's message memory at which R310 to R312 fail: objects, then buffers, then signals. -/
def msgBadWord (e : Env) (k : Fin 4) : Option Nat :=
  let os := e.objsOf k
  let field := (List.range 128).findSome? fun i => (objBad (e.obj k i)).map fun w => 4 * i + w
  let buffer := os.findSome? fun x =>
    if os.any fun y => y.1 < x.1 && meets x.2.buf (objBytes x.2) y.2.buf (objBytes y.2) then some (4 * x.1 + 3) else none
  let shared := os.findSome? fun x =>
    if os.any fun y => y.1 < x.1 && meets (fld x.2.w2 32 11) (fld x.2.w2 44 11) (fld y.2.w2 32 11) (fld y.2.w2 44 11)
    then some (4 * x.1 + 2) else none
  let sig := os.findSome? fun x => (x.2.sigs.find? fun n => sigBad e k x.2 (e.sig k n)).map (0x200 + ·)
  let overlap := os.findSome? fun x =>
    let bits := x.2.sigs.flatMap fun n => ((sigBits x.2 (e.sig k n)).getD [])
    if x.2.kind == 2 && bits.length != bits.eraseDups.length then some (4 * x.1 + 2) else none
  let orphan := (List.range 2048).findSome? fun n =>
    if e.sig k n != 0 && !os.any fun x => x.2.sigs.contains n then some (0x200 + n) else none
  field <|> buffer <|> shared <|> sig <|> overlap <|> orphan

/-- MSG_TABLE on a trial copy of the memories. -/
def checkMsg (e : Env) (ws : List W64) : Except LoadErr (List MsgChunk) := do
  let cs ← parseChunks ws.length [] 0 ws
  let m := (cs.flatMap MsgChunk.ops).foldl (fun m w => w.apply m) e.mems
  match (List.finRange 4).findSome? fun k => (msgBadWord { e with mems := m } k).map fun w => (k.val, w) with
  | some (k, w) => .error (secCheck 11 (chunkWhere cs k w))
  | none => .ok ()
  match (List.range 64).find? fun i => (mirrorWord cs (2 * i) &&& 0xFFFFFFFF80008000#64) != 0 with
  | some i => .error (secCheck 11 (chunkWhere cs 4 (2 * i)))
  | none => return cs

/-- The mirror table that the chunks leave. -/
def mirrorOf (cs : List MsgChunk) : Vector (W64 × W64) 64 :=
  Vector.ofFn fun i : Fin 64 => (mirrorWord cs (2 * i.val), mirrorWord cs (2 * i.val + 1))

/-! ### PIO_PROGS (R294, R358) -/

/-- The 64 instructions of an area's sixteen words. -/
def areaWords (l : List W64) : List (BitVec 16) :=
  (List.range 64).map fun i => BitVec.ofNat 16 (fld (pw l (i / 4)) (16 * (i % 4)) 16)

/-- The areas of the mask, in ascending order. -/
def parsePio (ws : List W64) : Except LoadErr (List (Nat × List (BitVec 16))) := do
  let (h, l) ← takeWord 12 0 ws
  let areas := (List.range 8).filter fun a => bit h a
  refuseIf (fld h 8 56 != 0) 12 0
  refuseIf (l.length != 16 * areas.length) 12 (min ws.length (1 + 16 * areas.length))
  let progs := areas.mapIdx fun j a => (a, areaWords ((l.drop (16 * j)).take 16))
  match (List.range l.length).find? fun i => (List.range 4).any fun q => !pioWordOk (BitVec.ofNat 16 (fld (pw l i) (16 * q) 16)) with
  | some i => .error (secCheck 12 (8 * (1 + i)))
  | none => return progs

/-! ### STANDING (R111, R358) -/

def parseStanding (ws : List W64) : Except LoadErr (List (List W64)) := do
  let (h, l) ← takeWord 10 0 ws
  let n := fld h 0 9
  refuseIf (fld h 9 55 != 0 || decide (256 < n)) 10 0
  refuseIf (l.length != 8 * n) 10 (min ws.length (1 + 8 * n))
  return (List.range n).map fun i => (l.drop (8 * i)).take 8

/-- A standing block as the device submits it: ABS_CYCLE 1 and the mode mask taken out (R112). -/
def standingAsked (b : List W64) : List W64 :=
  b.mapIdx fun i w => if i = 0 then w ||| 0x400000000 else if i = 1 then w &&& 0xFFFFFFFF else w

/-- The block's own words break R111. -/
def standingBad (b : List W64) : Bool :=
  let mask := fld (reqWord b 1) 32 32
  fld (reqWord b 0) 32 3 != 0 || mask == 0 || decide (8 ≤ mask)

/-- A trial copy on which no instance is disabled and every urgent input is permitted: what R105 asks of a block besides
that hangs on registers that REG_INIT may still write. -/
def Dev.allEnabled (d : Dev) : Dev :=
  { d with
    banks := d.banks.map fun (b : Bank) => { b with cfg := b.cfg ||| 0x1F }
    pfi := d.pfi.map fun (x : Pfi) => { x with cfg := x.cfg ||| 1 }
    ign := d.ign.map fun (x : Ign) => { x with cfg := x.cfg ||| 1 }
    gate := d.gate.map fun (x : Gate) => { x with cfg := x.cfg ||| 1 }
    cnv := d.cnv.map fun (x : Cnv) => { x with cfg := x.cfg ||| 0x30001 }
    ce := d.ce.map fun (x : Ce) => { x with cfg := x.cfg ||| 1 } }

/-- STANDING, checked on a trial copy. A CALC event needs CE_LISTS (R347). -/
def checkStanding (d : Dev) (hasCalc : Bool) (ws : List W64) : Except LoadErr (List (List W64)) := do
  let bs ← parseStanding ws
  let lacking := !hasCalc && bs.any fun b => fld (reqWord b 0) 0 4 == 6
  if lacking then .error { code := 12, section_ := 7 }
  let d := d.allEnabled
  match (List.range bs.length).find? fun i =>
      let b := (bs[i]?).getD []
      standingBad b || d.fieldDetail (standingAsked b) true != 0 with
  | some i => .error (secCheck 10 (8 + 64 * i))
  | none => return bs

/-! ### Templates (R356, R371) -/

/-- The trial copy on which a template is judged: the cylinder table of CYLINDERS is still to come, and profile 0 of a
bank is its basecamp profile. -/
def Dev.forTemplate (b : List W64) (d : Dev) : Dev :=
  let w0 := reqWord b 0
  let cyl := fld w0 16 5
  let owner := match EvType.ofCode (fld w0 0 4) with
    | some t => d.adm.owner.toList.set (ownerIndex t (fld w0 8 8)) cyl
    | none => d.adm.owner.toList
  { d with
    adm := { d.adm with tdc := Vector.replicate 16 (some 0), owner := Vector.ofFn fun i : Fin 56 => (owner[i.val]?).getD 0x1F }
    banks := d.banks.map fun (x : Bank) => { x with profiles := upd x.profiles 0 fun _ => x.bcProfile } }

def templateKey (b : List W64) : Nat × Nat := (fld (reqWord b 0) 0 4, fld (reqWord b 0) 8 8)

/-- A template is refused: CALC, another one on its output, a profile number, or R105. `d` holds the registers that
EARLY_INIT leaves, the basecamp wheel and the basecamp profiles. -/
def templateBad (d : Dev) (before : List (List W64)) (b : List W64) : Bool :=
  fld (reqWord b 0) 0 4 == 6 || before.any (fun x => templateKey x == templateKey b)
    || (fld (reqWord b 0) 0 4 == 1 && fld (reqWord b 4) 0 5 != 0)
    || (d.forTemplate b).fieldDetail b false != 0

/-- CYL of the templates against the cylinder table (R105). -/
def templateCylBad (tdc : Vector (Option Angle) 16) (owner : Vector Nat 56) (b : List W64) : Bool :=
  let w0 := reqWord b 0
  let cyl := fld w0 16 5
  match EvType.ofCode (fld w0 0 4) with
  | some t =>
    if t.drives then (owner.toList[ownerIndex t (fld w0 8 8)]?).getD 0x1F != cyl
    else cyl != 0x1F && (tdc.toList[cyl]?).join.isNone
  | none => false

/-- The template that a request block describes. -/
def templateOf (b : List W64) : Template := { words := b, ev := eventOf b 0 }

end Sys2Proof.Machine
end

