-- ==== Sys2Proof/Machine/Image.lean ====
section
/-! DEFINITION. The loader (R346 to R352, R359, R374, R375), and what VERIFY finds in a slot (R362). A section is read,
checked and used as R347 orders; a failure sends the boot to slot B, or to SAFE. -/

namespace Sys2Proof.Machine

/-! ### The header (R346 to R348, R350) -/

def sectionIds : List Nat := (List.range 14).map (· + 1)

/-- Present sections, in load order. -/
def presentIds (h : List Byte) : List Nat := sectionIds.filter (secPresent h)

/-- The next present section after one. -/
def nextId (h : List Byte) (last : Nat) : Option Nat := (presentIds h).find? fun i => decide (last < i)

/-- The last present one of some sections, which a check that spans them reports (R352). -/
def lastOf (h : List Byte) (ids : List Nat) : Nat := (ids.filter (secPresent h)).foldl max 0

/-- A section's place breaks R348: alignment, order, overlap, or the end. `from_` is the end of what precedes it. -/
def layoutBad (h : List Byte) (from_ id : Nat) : Bool :=
  secOfs h id % 8 != 0 || secLen h id % 8 != 0 || decide (secOfs h id < from_)
    || decide (field h 8 4 < secOfs h id + secLen h id + 8)

def layoutCheck (h : List Byte) : Nat → List Nat → Option Nat
  | _, [] => none
  | from_, id :: l => if layoutBad h from_ id then some id else layoutCheck h (secOfs h id + secLen h id + 8) l

/-- The checks of an image header, in the order of their codes. -/
def headerCheck (f : Fuses) (h : List Byte) : LoadErr :=
  if field h 0 4 ≠ 0x31494E46 ∨ byteAt h 4 ≠ 1 ∨ field h 16 2 ≠ 0x1680 then { code := 4 }
  else if (crc32 (h.take 704)).toNat ≠ field h 704 4 then { code := 5 }
  else if 524288 < field h 8 4 then { code := 6 }
  else match layoutCheck h 776 (presentIds h) with
    | some id => { code := 6, section_ := id }
    | none =>
      if f.sigReq && !secPresent h 1 then { code := 7, section_ := 1 }
      else match [3, 4, 5].find? fun i => !secPresent h i with
        | some id => { code := 12, section_ := id }
        | none => {}

/-- The part ignores or lacks a signature, so that none is awaited (R350). -/
def sigSettled (f : Fuses) (h : List Byte) : Bool := !secPresent h 1 || (f.keyHash.isNone && !f.sigReq)

/-! ### Failure (R351) -/

/-- The loader runs: from the hardware fill to readiness, in the modes in which loading goes on (R359, R365, R380). -/
def Dev.loading (d : Dev) : Bool :=
  let m := d.sup.mode
  match d.nvi.phase with
  | .header _ | .early | .applyEarly => m == .fill || ((m == .safe || m == .basecamp || m == .afterrun) && (d.nvi.isRestart || d.nvi.fallback))
  | .stream | .applyInit => m == .basecamp || m == .afterrun || (m == .fill && d.sup.latch)
  | _ => false

/-- Basecamp has begun from the image being loaded. -/
def Dev.begun (d : Dev) : Bool := d.sup.mode == .basecamp || d.sup.mode == .afterrun

/-- What an image had put into memory and logic is gone: outputs end as on a sync loss, and the memories but record memory
are refilled by hardware. -/
def Dev.unload (e : Env) (d : Dev) : Dev :=
  let d := (d.endAllEvents e .endedSync 12).dropResiduals
  let old := d.pos.sync
  let d := d.modPos fun p => { p.toStopped with wheel := {}, corr := [], staged := none }
  let d := if old = .stopped then d
    else (d.modSup fun s => { s with stoppedAt := d.dtime, stop1s := false }).noteSync old 12 d.dtime
  { d.fillMost with
    sup := { d.sup with templates := [], ready := false, handover := none }
    adm := { d.adm with standing := [], staged := none, tdc := Vector.replicate 16 none, owner := Vector.replicate 56 0x1F }
    ces := { d.ces with lists := [], trig := Vector.replicate 256 0, dbgRun := false, nOps := 0 }
    banks := d.banks.map fun (b : Bank) => { b with profiles := Vector.replicate 32 {}, bcProfile := {} }
    pios := { d.pios with areas := Vector.replicate 8 [] }
    rope := { d.rope with mirror := Vector.replicate 64 (0, 0) } }

/-- The loader's own state before an attempt at slot B: the probe brings the flash back to 1-1-1 (R343). -/
def Nvi.toB (n : Nvi) (x : LoadErr) : Nvi :=
  { n with phase := .header true, slotB := true, fallback := true, errA := x, signed := false, valid := false, bootHdr := []
           header := [], lastId := 0, sig := [], sigDone := false, earlyRecs := [], tmuRecs := [], regRecs := [], queue := []
           held := [], slotRecs := [], bcPayload := [], fp := [], imgId := 0, length := 0, profBad := none, measSlots := []
           mode := 0, div := 0, sent := probeOf true }

/-- Neither slot boots. -/
def Dev.bothFail (e : Env) (d : Dev) : Dev :=
  if d.sup.latch then d.setMode .locked
  else
    let d := (d.endAllEvents e .endedSync 12).dropResiduals.setMode .safe |>.modSup fun s => { s with safeCause := 2 }
    d.fuseSvc e

/-- A failure that NVI_ERR can report. -/
def Dev.loadFail (e : Env) (x : LoadErr) (d : Dev) : Dev :=
  let d := if d.begun then d.unload e else d
  if d.nvi.slotB then
    (d.modNvi fun n => { n.toB x with phase := .failed, errA := n.errA, errB := x, mode := n.mode, div := n.div, sent := n.sent }).bothFail e
  else d.modNvi fun n => n.toB x

/-! ### Applying the records (R353, R374, R375) -/

/-- The rings that stood before a reset carry over when the image gives the same ones (R375). -/
def Dev.compareRings (d : Dev) : Dev :=
  match d.recm.stood with
  | none => d
  | some old =>
    let same := (List.finRange 12).all fun t =>
      let a := old[t]
      let b := d.recm.rings[t]
      a.size == b.size && a.stream == b.stream && a.policy == b.policy
    if same then d.modRecm fun r => { r with rings := old, stood := none }
    else (d.modRecm fun r => { r with stood := none }).modSup fun s => { s with ringReset := true }

def setsRings (l : List InitRec) : Bool := l.any fun r => r.addr == 0x4810

/-- Higher noise floor of the two modes (R44). -/
def Dev.noiseFloor (d : Dev) : Nat := max (fld d.pos.bandsRun 0 12) (fld d.pos.bandsCrank 0 12)

/-- BASECAMP is entered (R356, R359, R371). -/
def Dev.enterBasecamp (d : Dev) : Dev :=
  match parseBasecamp d.noiseFloor d.nvi.bcPayload with
  | .error _ => d
  | .ok bc =>
    let d := d.modPos fun p => { p with wheel := bc.wheel, corr := List.replicate bc.wheel.crkPos 0 }
    let d := bc.profiles.foldl (init := d) fun d x =>
      let k := Fin.ofNat 4 x.1
      let start := 1024 - x.2.2.length
      (d.write (.bytes (profAddr x.1 start) (wordsBytes x.2.2))).modBank k fun b =>
        { b with bcProfile := profileOf (fld d.bst.set 0 16) b.rsh start x.2.2 }
    let d := d.modSup fun s => { s with templates := bc.templates.map fun x => templateOf x.2 }
    if d.begun then d else (d.setMode .basecamp).modSup fun s => { s with safeCause := 0 }

/-- EARLY_INIT has been applied. -/
def Dev.earlyDone (d : Dev) : Dev :=
  let d := if setsRings d.nvi.earlyRecs then d.compareRings else d
  let d := d.modNvi fun n =>
    { n with phase := .stream, valid := true, fp := Config.sha256 (n.header.take 712)
             imgId := BitVec.ofNat 32 (field n.header 12 4), length := BitVec.ofNat 20 (field n.header 8 4) }
  if d.sup.latch then d
  else d.enterBasecamp.modNvi fun n => { n with tBc := BitVec.ofNat 32 ((d.dtime - n.loadFrom) / 1000) }

/-- REG_INIT has been applied: the device is ready for full service, or LOCKED again. -/
def Dev.initDone (d : Dev) : Dev :=
  let d := d.compareRings.modNvi fun n => { n with phase := .done, tReady := BitVec.ofNat 32 ((d.dtime - n.loadFrom) / 1000) }
  if d.sup.latch then d.setMode .locked
  else
    let d := d.modSup fun s => { s with ready := true }
    if d.sup.mode == .basecamp && d.pos.sync != .full then d.takeOver else d

/-- Records that are applied, under the LOCKED latch only those of R374. -/
def Dev.recordsDue (l : List InitRec) (d : Dev) : List InitRec :=
  if d.sup.latch then l.filter fun r => latchPage (r.addr.toNat / 256) else l

def Dev.runEarly (e : Env) (l : List InitRec) (d : Dev) : Dev :=
  let (done, d) := d.applyRecs e false l
  if done then d.earlyDone else d

def Dev.runInit (e : Env) (l : List InitRec) (d : Dev) : Dev :=
  let (done, d) := d.applyRecs e true l
  if done then d.initDone else d

/-- EARLY_INIT and BASECAMP are verified and the signature has passed (R359). -/
def Dev.tryEarly (e : Env) (d : Dev) : Dev :=
  if d.nvi.phase = .early ∧ 3 ≤ d.nvi.lastId ∧ d.nvi.sigDone = true then
    (d.modNvi fun n => { n with phase := .applyEarly }).runEarly e (d.recordsDue d.nvi.earlyRecs)
  else d

/-- The DELAY of a record is over (R353). -/
def Dev.delayOver (e : Env) (d : Dev) : Dev :=
  if !d.loading || decide (d.dtime < d.nvi.dueAt) then d
  else match d.nvi.phase with
    | .applyEarly => d.runEarly e d.nvi.queue
    | .applyInit => d.runInit e d.nvi.queue
    | _ => d

/-! ### The header and the signature -/

/-- The image header is read, after the boot header where this slot's probe is still to be made (R343, R346). -/
def Dev.headerRead (e : Env) (boot header : List Byte) (d : Dev) : Dev :=
  match d.nvi.phase with
  | .header probe =>
    let x := if probe then bootCheck boot else {}
    let b := if probe then boot else d.nvi.bootHdr
    if !d.loading then d
    else if x.code ≠ 0 then d.loadFail e x
    else if !d.sup.filled && byteAt b 5 != 0 then d
    else
      let d := d.modNvi fun n => { (if d.sup.filled && probe then n.setMode b else n) with bootHdr := b }
      let y := headerCheck e.fuses header
      if y.code ≠ 0 then d.loadFail e y
      else d.modNvi fun n => { n with phase := .early, header := header, lastId := 0, sigDone := sigSettled e.fuses header,
                                         measSlots := (List.range 33).map (Config.measSlot header) }
  | _ => d

/-- SIGNATURE_VERIFIED (R350): the key hash, then the signature over the header. -/
def Dev.sigVerified (e : Env) (d : Dev) : Dev :=
  let n := d.nvi
  if n.phase ≠ .early ∨ n.lastId = 0 ∨ n.sigDone = true ∨ secPresent n.header 1 = false ∨ d.loading = false ∨ d.sup.filled = false then d
  else
    let key := n.sig.take 64
    match e.fuses.keyHash with
    | none => d.loadFail e { code := 8, section_ := 1 }
    | some hash =>
      if Config.sha256 key ≠ hash then d.loadFail e { code := 8, section_ := 1 }
      else if Config.ecdsaVerify key ((n.sig.drop 64).take 64) (n.header.take 712) = false then d.loadFail e { code := 9, section_ := 1 }
      else (d.modNvi fun n => { n with sigDone := true, signed := true }).tryEarly e

/-! ### The sections (R349) -/

/-- A section's payload that parsed, or its failure. -/
def orFail {α : Type} (x : Except LoadErr α) (f : α → LoadErr ⊕ Dev) : LoadErr ⊕ Dev :=
  match x with
  | .error y => .inl y
  | .ok a => f a

/-- Records read and checked on a trial copy; PROFILES must be there when one enables a bank (R347). -/
def Dev.readRecords (id : Nat) (ws : List W64) (x : Env × Dev) (put_ : List InitRec → Nvi → Nvi) (d : Dev) : LoadErr ⊕ Dev :=
  let (y, _, _) := checkRecords id ws x
  if y.code ≠ 0 then .inl y
  else
    let l := recordsOf 0 ws
    if l.any InitRec.enablesBank && !secPresent d.nvi.header 6 then .inl { code := 12, section_ := 6 }
    else .inr (d.modNvi (put_ l))

/-- The device on which basecamp is judged: EARLY_INIT applied. -/
def Dev.afterEarly (e : Env) (d : Dev) : Dev :=
  d.nvi.earlyRecs.foldl (fun d r => (d.regWrite (e.after d) true .loader r.addr r.masked).2) d

/-- BASECAMP: its profiles, then its templates, on a copy with the registers that EARLY_INIT leaves (R356, R189, R190). -/
def basecampBad (d : Dev) (bc : Basecamp) : Option LoadErr :=
  let d := d.modPos fun p => { p with wheel := bc.wheel }
  let prof := bc.profiles.findSome? fun x =>
    let b := d.bank (Fin.ofNat 4 x.1)
    match profileChecks x.2.2 with
    | some y => some { code := 13, section_ := 3, detail := profileDetail x.1 0 y.2 y.1 }
    | none =>
      if d.eFull < (profileOf (fld d.bst.set 0 16) b.rsh 0 x.2.2).eP + d.eMin then
        some { code := 13, section_ := 3, detail := profileDetail x.1 0 0 10 }
      else none
  let d := bc.profiles.foldl (init := d) fun d x => d.modBank (Fin.ofNat 4 x.1) fun b => { b with bcProfile := { len := x.2.2.length } }
  let blocks := bc.templates.map (·.2)
  let tpl := (List.range blocks.length).findSome? fun i =>
    if templateBad d (blocks.take i) ((blocks[i]?).getD []) then
      some (secCheck 3 (8 * ((bc.templates[i]?).map (·.1)).getD 0)) else none
  prof <|> tpl

/-- WHEEL and the wheel part of BASECAMP differ: the first word in which they do (R371). -/
def wheelDiffers (ws bc : List W64) (n : Nat) : Option Nat := (List.range n).find? fun i => pw ws i != pw bc (i + 1)

/-- Word of CYLINDERS at which a template's CYL fails R105. -/
def cylWord (b : List W64) : Nat :=
  let w0 := reqWord b 0
  match EvType.ofCode (fld w0 0 4) with
  | some t => if t.drives then 16 + ownerIndex t (fld w0 8 8) / 8 else fld w0 16 5
  | none => 0

/-- The cycle length of the wheel being loaded. -/
def Dev.loadedWheel (d : Dev) : Wheel := match d.pos.staged with | some x => x.1 | none => d.pos.wheel

/-- The slot records of SLOTS_INIT as writes. -/
def Nvi.slotOps (n : Nvi) : List MemOp :=
  n.slotRecs.flatMap fun x => SlotRec.ops { first := x.1, attr := x.2.1, vals := x.2.2 }

/-- TMU_INIT is left out at a restart (R351). -/
def Nvi.tmuDue (n : Nvi) : List InitRec := if n.isRestart then [] else n.tmuRecs

/-- A copy with SLOTS_INIT and TMU_INIT applied, WHEEL and CYLINDERS in force. -/
def Dev.trialTmu (e : Env) (d : Dev) : Env × Dev :=
  let e := { e with mems := d.nvi.slotOps.foldl (fun m w => w.apply m) e.mems }
  d.nvi.tmuDue.foldl (fun t r => (r.tried t).2) (e, d.staged)

/-- What a section does once its CRC and digest hold: its own checks, then its place. -/
def Dev.useSection (e : Env) (id : Nat) (ws : List W64) (d : Dev) : LoadErr ⊕ Dev :=
  match id with
  | 1 => if ws.length = 16 then .inr (d.modNvi fun n => { n with sig := wordsBytes ws }) else .inl (secCheck 1 (8 * min ws.length 16))
  | 2 => d.readRecords 2 ws (e, d) fun l n => { n with earlyRecs := l }
  | 3 =>
    let t := d.afterEarly e
    orFail (parseBasecamp t.noiseFloor ws) fun bc =>
      match basecampBad t bc with
      | some y => .inl y
      | none => .inr (d.modNvi fun n => { n with bcPayload := ws })
  | 4 =>
    orFail (parseWheelSection d.noiseFloor ws) fun x =>
      let n := match parseWheel 4 d.noiseFloor 0 ws with | .ok (_, l) => ws.length - l.length | .error _ => 0
      match wheelDiffers ws d.nvi.bcPayload n with
      | some i => .inl (secCheck 4 (8 * i))
      | none => .inr (d.modPos fun p => { p with staged := some x })
  | 5 =>
    orFail (parseCylinders d.loadedWheel.cycLen ws) fun x =>
      match d.sup.templates.find? fun t => templateCylBad x.1 x.2 t.words with
      | some t => .inl (secCheck 5 (8 * cylWord t.words))
      | none => .inr (d.modAdm fun a => { a with staged := some x })
  | 6 =>
    let free (k : Nat) : Nat := 1024 - (d.bank (Fin.ofNat 4 k)).bcProfile.len
    orFail (parseProfiles free ws) fun (bs, bad) => .inr ((bs.foldl (init := d) fun d b =>
      let k := Fin.ofNat 4 b.bank
      (d.write (.bytes (profAddr b.bank 0) (wordsBytes b.words))).modBank k fun x =>
        { x with profiles := Vector.ofFn fun j : Fin 32 =>
            let w := pw b.dir j.val
            let judged := bad.all fun y => decide (profRank b.bank j.val < y.1)
            if dirLen w = 0 ∨ judged = false then { start := dirStart w }
            else profileOf (fld d.bst.set 0 16) x.rsh (dirStart w) (b.code j.val) }).modNvi fun n => { n with profBad := bad })
  | 7 =>
    orFail (parseCalc ws) fun c =>
      let lut := c.lists.any fun w => (c.code w).any fun o => decide (0x20 ≤ fld o 0 8) && decide (fld o 0 8 ≤ 0x22)
      if lut && !secPresent d.nvi.header 8 then .inl { code := 12, section_ := 8 }
      else .inr ((d.write (.bytes listBase (wordsBytes c.ops))).modCes fun s =>
        { s with dbgRun := c.dbgRun, lists := c.lists, trig := Vector.ofFn fun i : Fin 256 => pw c.trig i.val, nOps := c.ops.length })
  | 8 =>
    orFail (checkMaps e ws (d.calcLoaded e)) fun _ =>
      .inr (d.write (.bytes mapBase (wordsBytes (ws.drop 1))))
  | 9 => orFail (checkSlots ws) fun rs => .inr (d.modNvi fun n => { n with slotRecs := rs.map fun r => (r.first, r.attr, r.vals) })
  | 10 =>
    orFail (checkStanding d.staged (secPresent d.nvi.header 7) ws) fun bs =>
      .inr (d.modAdm fun a => { a with standing := bs.map fun b => { words := b } })
  | 11 =>
    orFail (checkMsg e ws) fun cs =>
      .inr ((cs.flatMap MsgChunk.ops).foldl (fun d w => d.write w) d |>.modRope fun r => { r with mirror := mirrorOf cs })
  | 12 =>
    orFail (parsePio ws) fun ps =>
      let words := ps.flatMap fun x => (List.range 8).map fun i => (Config.pioWordAt (8 * x.1 + i)).val
      .inr ((words.foldl (fun d w => d.clearWordErrs 15 w) d).modPios fun p =>
        { p with areas := ps.foldl (fun v x => upd v (Fin.ofNat 8 x.1) fun _ => x.2) p.areas })
  | 13 =>
    let t : Dev := if d.nvi.isRestart then { d with tmu := Vector.replicate 8 {} } else d
    d.readRecords 13 ws (e, t) fun l n => { n with tmuRecs := l }
  | 14 => d.readRecords 14 ws (d.trialTmu e) fun l n => { n with regRecs := l }
  | _ => .inr d

/-- Under the LOCKED latch only EARLY_INIT, MSG_TABLE and REG_INIT are used (R374). -/
def latchUses (id : Nat) : Bool := id == 1 || id == 2 || id == 11 || id == 14

/-- SECTION_LOADED: the next present section has been streamed (R348, R349). -/
def Dev.sectionIn (e : Env) (s : FlashSection) (d : Dev) : Dev :=
  let n := d.nvi
  let phaseOk := if s.id ≤ 3 then n.phase == .early else n.phase == .stream
  let early := s.id == 1 && byteAt n.bootHdr 5 == 0
  if !d.loading || !phaseOk || !(d.sup.filled || early) || nextId n.header n.lastId != some s.id
      || 8 * s.payload.length != secLen n.header s.id then d
  else
    let bytes := wordsBytes s.payload
    if crc32 bytes ≠ s.crc then d.loadFail e { code := 10, section_ := s.id }
    else if s.id ≠ 1 ∧ Config.sha256 bytes ≠ secDigest n.header s.id then d.loadFail e { code := 11, section_ := s.id }
    else
      let d := d.modNvi fun n => { n with lastId := s.id }
      if d.sup.latch && !latchUses s.id then d.tryEarly e
      else match d.useSection e s.id s.payload with
        | .inl x => d.loadFail e x
        | .inr d => d.tryEarly e

/-! ### Finalisation (R359) -/

/-- A segment window of R72 ends on a missing position. -/
def segmentBad (w : Wheel) (cfg : W64) (a : Angle) : Bool :=
  let teeth := fld cfg 8 8
  let tgt := (((a : Int) + signed 32 (fld cfg 16 32)) % (w.cycLen : Int)).toNat
  bit cfg 2 && teeth != 0 && (List.range w.cycPos).any fun x =>
    let here := w.angleAt x
    decide (w.ahead tgt here < w.ahead (w.angleAt ((x : Int) - 1)) here)
      && !((w.tooth x).present && (w.tooth ((x : Int) + teeth)).present)

/-- Byte offset of the slot record that gives a slot its class and writer (R354). -/
def Nvi.slotPlace (n : Nvi) (slot : Nat) : Option Nat :=
  (n.slotRecs.foldl (init := ((none : Option Nat), 0)) fun y x =>
    (if x.1 ≤ slot ∧ slot < x.1 + x.2.2.length then some y.2 else y.1, y.2 + 8 * (1 + x.2.2.length))).1

/-- The profile that R189 selects once check 10 can be made. -/
def Dev.profileFault (d : Dev) : Option LoadErr :=
  let h := d.nvi.header
  let energy := (List.finRange 4).findSome? fun k => (List.finRange 32).findSome? fun j =>
    let p := (d.bank k).profiles[j]
    if p.len != 0 && decide (d.eFull < profileEnergy (fld d.bst.set 0 16) (d.bank k).rsh p.iB p.tB + d.eMin) then
      some { code := 13, section_ := lastOf h [6, 14], detail := profileDetail k.val j.val 0 10 } else none
  energy <|> d.nvi.profBad.map fun x => { code := 13, section_ := 6, detail := x.2 }

/-- The checks that span sections, on a copy with SLOTS_INIT, TMU_INIT and REG_INIT applied. -/
def Dev.spanChecks (e : Env) (d : Dev) : Option LoadErr :=
  let h := d.nvi.header
  let c := d.calcLoaded e
  let code (w : W64) : List W64 := c.code w
  let drain (w : W64) : Nat := (outputSlots e (code w)).length
  let calcSec := lastOf h [7, 9]
  let inCalc (ofs : Nat) : LoadErr := if calcSec = 7 then secCheck 7 ofs else spanCheck calcSec ofs
  let dirs := (List.range c.lists.length).map fun j => (j, pw c.lists j)
  let writer := dirs.findSome? fun (j, w) =>
    match (List.range (code w).length).find? fun i => writerBad e (listEngine w) (pw (code w) i) with
    | some i => some (inCalc (c.opAt (listStart w + i)))
    | none => if 64 < drain w then some (inCalc (CalcSection.dirAt j)) else none
  let source := (d.sourceBad e).map fun i =>
    let id := lastOf h [2, 9, 11, 14]
    match d.nvi.slotPlace i with
    | some ofs => if id = 9 then secCheck 9 ofs else spanCheck id i
    | none => spanCheck id i
  let slow := dirs.findSome? fun (j, w) => if c.slowList drain w then some (inCalc (CalcSection.dirAt j)) else none
  let late := ((List.range 256).find? (c.lateTrig drain)).map fun i => inCalc (c.trigAt i)
  let rings := if 256 < (d.recm.rings.toList.map Ring.size).sum then some (d.nvi.regCheck (lastOf h [2, 14]) 0x4810) else none
  let ledger := d.bst.ledger
  let on := d.banks.toList.any Bank.enabled
  let boost := if on && (fld ledger 0 16 == 0 || fld ledger 16 16 == 0 || fld ledger 32 16 == 0
      || decide (fld d.bst.set 0 16 ≤ fld ledger 16 16)) then some (d.nvi.regCheck (lastOf h [2, 14]) 0x2410) else none
  let narrow (x : Tooth) : Bool := x.ownBand && decide (x.bandLo ≤ d.noiseFloor)
  let band := (d.pos.wheel.teeth.findIdx? narrow).map fun j =>
    if lastOf h [4, 14] = 4 then secCheck 4 (8 + 8 * j)
    else d.nvi.regCheck 14 (if fld d.pos.bandsRun 0 12 < fld d.pos.bandsCrank 0 12 then 0x0850 else 0x0848)
  let seg := ((List.range 16).find? fun c => ((d.adm.tdc.toList[c]?).join).any (segmentBad d.pos.wheel d.pos.measCfg)).map fun c =>
    if lastOf h [5, 14] = 5 then secCheck 5 (8 * c) else d.nvi.regCheck 14 0x0B00
  let standing := (d.adm.standing.findIdx? fun x => d.fieldDetail (standingAsked x.words) true != 0).map fun i =>
    if lastOf h [10, 14] = 10 then secCheck 10 (8 + 64 * i) else spanCheck 14 i
  writer <|> source <|> d.profileFault <|> slow <|> late <|> rings <|> boost <|> band <|> seg <|> standing

/-- The copy on which they are made. -/
def Dev.trialInit (e : Env) (d : Dev) : Env × Dev := d.nvi.regRecs.foldl (fun t r => (r.tried t).2) (d.trialTmu e)

/-- FINALISATION: the checks that span sections, then TMU_INIT, left out at a restart, and REG_INIT. -/
def Dev.finalise (e : Env) (d : Dev) : Dev :=
  if !d.loading || d.nvi.phase != .stream || (nextId d.nvi.header d.nvi.lastId).isSome then d
  else
    let (et, t) := d.trialInit e
    let bad := if d.sup.latch then
        (if 256 < (t.recm.rings.toList.map Ring.size).sum then some (d.nvi.regCheck (lastOf d.nvi.header [2, 14]) 0x4810) else none)
      else t.spanChecks et
    match bad with
    | some x => d.loadFail e x
    | none =>
      let d := d.nvi.slotOps.foldl (fun d w => d.write w) d
      (d.modNvi fun n => { n with phase := .applyInit }).runInit e (d.recordsDue (d.nvi.tmuDue ++ d.nvi.regRecs))

/-! ### VERIFY (R362) -/

/-- A loader step on a trial device whose writes take effect at once; delays are not waited for. -/
def trialStep (f : Env → Dev → Dev) (x : Env × Dev) : Env × Dev :=
  let d := f x.1 x.2
  let e := x.1.after d
  let d := { d with writes := [] }
  let d := (List.range (d.nvi.queue.length + 1)).foldl (init := d) fun d _ => ({ d with dtime := max d.dtime d.nvi.dueAt }).delayOver e
  (e.after d, { d with writes := [] })

/-- CODE, SECTION and DETAIL of a slot, and bytes 0 to 7 of its fingerprint: the loader run on a device of its own. -/
def verifySlot (e : Env) (d : Dev) (f : FlashSlot) : LoadErr × W64 :=
  let blank : Dev := { dtime := d.dtime, sup := { mode := .fill }, rope := { role := d.rope.role }
                       nvi := { phase := .header true, slotB := true, fallback := true } }
  let x := trialStep (fun e d => d.headerRead e f.boot f.header) ({ e with mems := {} }, blank)
  let x := f.sections.foldl (init := x) fun x s => trialStep (fun e d => (d.sectionIn e s).sigVerified e) x
  let x := trialStep (fun e d => d.finalise e) x
  (x.2.nvi.errB, BitVec.ofNat 64 (leNat ((Config.sha256 (f.header.take 712)).take 8)))

/-! ### The commands -/

/-- IMAGE_HEADER_READ (R346). -/
def execImageHeaderRead (t : Ns) (boot header : List Byte) (s : State) : Host.Outcome State Fault Refusal :=
  runAt t (fun e d => d.headerRead e boot header) s

/-- SECTION_LOADED (R349). -/
def execSectionLoaded (t : Ns) (sec : FlashSection) (s : State) : Host.Outcome State Fault Refusal :=
  runAt t (fun e d => d.sectionIn e sec) s

/-- SIGNATURE_VERIFIED (R350). -/
def execSignatureVerified (t : Ns) (s : State) : Host.Outcome State Fault Refusal := runAt t (fun e d => d.sigVerified e) s

/-- INIT_RECORD_DELAY (R353). -/
def execInitRecordDelay (t : Ns) (s : State) : Host.Outcome State Fault Refusal := runAt t (fun e d => d.delayOver e) s

/-- FINALISATION (R359). -/
def execFinalisation (t : Ns) (s : State) : Host.Outcome State Fault Refusal := runAt t (fun e d => d.finalise e) s

end Sys2Proof.Machine
end

