-- ==== Sys2Proof/Machine/Wake.lean ====
section
/-! DEFINITION. Waking from BIVOUAC (R308, R381), and the commands that can wake: timer ticks, captures, CAN wake matches,
KEY_IN. -/

namespace Sys2Proof.Machine

/-- Wake sources as SUP_WAKE.SRC codes them: bit 0 CAN, 1 timer, 2 WAKE_IN, 3 KEY_IN. -/
def wakeBit (d : Dev) (s : WakeSource) : BitVec 4 :=
  let timer := d.tmu.toList.any fun u => u.ch.toList.any fun c => bit c.cfg 4
  match s with
  | .can => if d.can.toList.any fun c => bit c.wake 30 then 1 else 0
  | .timer => if timer then 2 else 0
  | .wakeIn rising => if bit d.sup.wake 0 && bit d.sup.wake 1 == rising then 4 else 0
  | .keyIn => if bit d.sup.wake 2 && !d.sup.key then 8 else 0

/-- The device wakes: clocks, EARLY_INIT again without its delays, then WAIT_SYNC, in which CAN controllers, converters and
PIO machines run again. Sources met in the clock of a wake are recorded with it. -/
def Dev.wakeUp (e : Env) (src : BitVec 4) (d : Dev) : Dev :=
  let d := d.modSup fun s => { s with wakeReq := 0 }
  if src = 0 then d
  else if d.sup.mode = .bivouac then
    let d := d.modSup fun s => { s with pllLock := true, dstep := 1 }
    let d := d.nvi.earlyRecs.foldl (fun d r => (d.regWrite (e.after d) true .loader r.addr r.masked).2) d
    (d.setMode .waitSync).modSup fun s => { s with wakeSrc := src, wakes := s.wakes + 1, wokeAt := some d.dtime }
  else if d.sup.wokeAt = some d.dtime then d.modSup fun s => { s with wakeSrc := s.wakeSrc ||| src }
  else d

/-- A timer event with WAKE set wakes (R291). -/
def Dev.timerWake (e : Env) (d : Dev) : Dev := d.wakeUp e d.sup.wakeReq

/-- An identifier passes a controller's wake filter. -/
def Can.wakes (c : Can) (ide : Bool) (id : BitVec 29) : Bool :=
  let diff := id ^^^ BitVec.ofNat 29 (fld c.wake 0 29)
  bit c.wake 30 && bit c.wake 29 == ide && (diff &&& BitVec.ofNat 29 (fld c.wake 32 29)) == 0

/-- KEY_IN goes on: it wakes from BIVOUAC with KEY_WAKE, and acts as R380 says in AFTERRUN. -/
def Dev.keyGoesOn (e : Env) (d : Dev) : Dev :=
  let src := wakeBit d .keyIn
  d.keyOn.wakeUp e src

/-- WAKE: the sources of one clock. -/
def Dev.wake (e : Env) (l : List WakeSource) (d : Dev) : Dev :=
  let src := l.foldl (fun a s => a ||| wakeBit d s) 0
  let d := if l.contains .keyIn then d.keyOn else d
  d.wakeUp e src

/-! ### The commands -/

/-- TMU_TICK (R283). -/
def execTmuTick (t : Ns) (u : Fin 8) (s : State) : Host.Outcome State Fault Refusal :=
  runAt t (fun e d => (d.tmuTick u).timerWake e) s

/-- CAPTURE_EDGE (R290). -/
def execCaptureEdge (t : Ns) (u : Fin 8) (c : Fin 4) (rising : Bool) (first : Ns) (s : State) : Host.Outcome State Fault Refusal :=
  runAt t (fun e d => (d.captureEdge u c rising first).timerWake e) s

/-- KEY_ON (R380, R381). -/
def execKeyOn (t : Ns) (s : State) : Host.Outcome State Fault Refusal := runAt t (fun e d => d.keyGoesOn e) s

/-- WAKE (R381). -/
def execWake (t : Ns) (sources : List WakeSource) (s : State) : Host.Outcome State Fault Refusal :=
  runAt t (fun e d => d.wake e sources) s

/-- CAN_WAKE_MATCH (R308). -/
def execCanWakeMatch (t : Ns) (k : Fin 4) (ide : Bool) (id : BitVec 29) (s : State) : Host.Outcome State Fault Refusal :=
  runAt t (fun e d => if d.can[k].wakes ide id then d.wakeUp e 1 else d) s

end Sys2Proof.Machine
end

