-- ==== Sys2Proof/Machine/Service.lean ====
section
/-! DEFINITION. The service channel of the CAN controllers (R318 to R321), the register tunnel (R328), and the commands of
frames that arrive: CAN_FRAME_RECEIVED and the rope's frames. -/

namespace Sys2Proof.Machine

/-! ### Requests (R318, R319) -/

/-- A frame is a request of a controller's service channel: identifier, format and length are those of CAN_SVC, or those
of the recovery service. -/
def Dev.isRequest (k : Fin 4) (f : CanFrame) (d : Dev) : Bool :=
  let w := d.can[k].svc
  let fd := bit w 30 && !d.canRecovery k
  let auth := (f.data[0]?).getD 0 == 0x31
  (bit w 31 || d.canRecovery k) && !f.remote && f.ide == bit w 29 && f.id.toNat == fld w 0 29
    && f.format == (if fd then .fd else .classical)
    && f.data.length == (if fd then (if auth then 20 else 12) else 8)

def requestOf (f : CanFrame) : SvcReq :=
  let b (i : Nat) : Byte := (f.data[i]?).getD 0
  { op := b 0, seq := b 1, addr := BitVec.ofNat 16 (leNat [b 2, b 3]), data := BitVec.ofNat 64 (leNat ((f.data.drop 4).take 8))
    tag := (f.data.drop 4).take 16, fd := f.format == .fd }

/-- A request arrives: up to four wait. -/
def Dev.svcArrive (k : Fin 4) (f : CanFrame) (d : Dev) : Dev :=
  if 4 ≤ d.can[k].svcQ.length then d.modCan k fun c => { c with dropped := c.dropped + 1, lastReq := d.dtime }
  else (d.modCan k fun c => { c with svcQ := c.svcQ ++ [requestOf f], lastReq := d.dtime }).svcAdvance

/-- A valid frame at a controller: a service request, or a frame for the receive objects (R313). -/
def Dev.canFrame (e : Env) (k : Fin 4) (f : CanFrame) (d : Dev) : Dev :=
  if !d.canActive k then d
  else
    let d := (d.rxGood k).modCan k (Can.drivesMode f)
    if d.isRequest k f then d.svcArrive k f else d.receiveObj e k f

/-! ### What a request does to the registers -/

/-- The answer to a register access: status, data, the sample that READ_LO leaves, the bits that WRITE_LO stages. -/
structure SvcResult where
  status : Nat
  data   : Option W64 := none
  sample : Option (BitVec 16 × W64) := none
  staged : Option (BitVec 16 × W32) := none
  deriving DecidableEq, Repr

/-- Bits 31 to 0 and 63 to 32 of a word, as a word. -/
def lowHalf (v : W64) : W64 := v &&& 0xFFFFFFFF
def highHalf (v : W64) : W64 := v >>> 32

/-- A register access through a path with staging of its own (R318). -/
def Dev.svcAccess (e : Env) (p : Path) (r : SvcReq) (sample : Option (BitVec 16 × W64)) (staged : Option (BitVec 16 × W32))
    (d : Dev) : SvcResult × Dev :=
  let write (v : W64) : SvcResult × Dev :=
    let (bad, d) := d.regWrite e false p r.addr v
    ({ status := if bad then 1 else 0, sample := sample }, d)
  match (r.op &&& 0xBF).toNat with
  | 0x10 =>
    let (v, bad, d) := (d.takeTurn p).regRead e p r.addr
    ({ status := if bad then 1 else 0, data := some (lowHalf v), sample := some (r.addr, v) }, d)
  | 0x11 =>
    match sample with
    | some (a, v) =>
      if a = r.addr then ({ status := if (regRow a).isNone then 1 else 0, data := some (highHalf v), sample := sample }, d)
      else ({ status := 4, sample := sample }, d)
    | none => ({ status := 4 }, d)
  | 0x12 =>
    let (v, bad, d) := (d.takeTurn p).regRead e p r.addr
    ({ status := if bad then 1 else 0, data := some v, sample := sample }, d)
  | 0x20 => ({ status := 0, sample := sample, staged := some (r.addr, r.data.setWidth 32) }, d)
  | 0x21 =>
    match staged with
    | some (a, lo) =>
      if a = r.addr then write (lo.setWidth 64 ||| (r.data <<< 32))
      else ({ status := 4, sample := sample }, d)
    | none => ({ status := 4, sample := sample }, d)
  | 0x22 => write r.data
  | _ => ({ status := 3, sample := sample }, d)

/-- The session level that an access needs: without one, page 0x00 alone is read; key 0 reads, key 1 writes (R320). -/
def svcNeeds (r : SvcReq) : Nat :=
  if (r.op &&& 0x30) == 0x20 then 2 else if r.addr.toNat / 256 = 0 then 0 else 1

/-! ### Serving the head of a queue -/

/-- A request that waits for the register access port: READ_LO, READ, WRITE_HI, WRITE (R21, R318). -/
def svcPort (op : Byte) : Bool := ([0x10, 0x12, 0x21, 0x22] : List Nat).contains op.toNat

/-- The path that the port served last, in the order TWP, CAN_0 to CAN_3, ROPE; ROPE before the first. -/
def Dev.lastTurn (d : Dev) : Nat :=
  ((List.range 6).foldl (init := (5, 0)) fun (b : Nat × Nat) i =>
    let n := ((d.paths.toList[i]?).map fun c => c.served).getD 0
    if b.2 < n then (i, n) else b).1

/-- No other controller whose request waits at the port comes before this one in the round (R21). -/
def Dev.portTurn (d : Dev) (k : Fin 4) : Bool :=
  let after (k : Fin 4) : Nat := (k.val + 1 + 6 - d.lastTurn - 1) % 6
  (List.finRange 4).all fun j =>
    j == k || decide (after k < after j) || !d.svcRuns j
      || match d.can[j].svcQ with | r :: _ => !svcPort r.op || d.can[j].lockEnd.isSome | [] => true

/-- The head of a controller's queue is served, if it is the request that the command names, and at the port when it is the
controller's turn. -/
def Dev.svcServe (k : Fin 4) (op : Byte) (act : SvcReq → Can → Dev → Dev) (d : Dev) : Dev :=
  let c := d.can[k]
  match c.svcQ with
  | [] => d
  | r :: _ =>
    if r.op != op || !d.svcRuns k || (svcPort op && !d.portTurn k) then d
    else if c.lockEnd.isSome then ((d.svcTake k).svcAnswer k r 6 none).svcAdvance
    else (act r c (d.svcTake k)).svcAdvance

/-- A register access through a controller's service channel. -/
def Dev.svcRegister (e : Env) (k : Fin 4) (r : SvcReq) (c : Can) (d : Dev) : Dev :=
  if svcFdOnly r then d.svcAnswer k r 3 none
  else if c.level < svcNeeds r then d.svcAnswer k r 2 none
  else
    let (x, d) := d.svcAccess e (canPath k) r c.sample c.staged
    let d := if d.svcRuns k then d.modCan k fun c => { c with sample := x.sample, staged := x.staged } else d
    d.svcAnswer k r x.status x.data

/-- CHALLENGE: a nonce, whole in FD, and in two responses in classical frames, the second with ADDR 1. -/
def Dev.svcChallenge (k : Fin 4) (r : SvcReq) (d : Dev) : Dev :=
  let (n, d) := d.draw
  let v := Config.nonce n
  let d := d.modCan k fun c => { c with nonce := some v, authParts := [] }
  if r.fd then d.svcAnswer k r 0 (some v)
  else (d.svcAnswer k r 0 (some (lowHalf v))).svcSend k false [r.op ||| 0x80, r.seq, 1, 0] (highHalf v)

/-- The message under a tag (R320). -/
def authMessage (e : Env) (nonce : W64) (k : Fin 4) (key : Nat) : List Byte :=
  wordBytes nonce ++ [BitVec.ofNat 8 k.val, BitVec.ofNat 8 key] ++ wordBytes e.fuses.regId

/-- The whole tag is there: a match opens a session, three failures lock the channel for 10 s. -/
def Dev.svcTag (e : Env) (k : Fin 4) (r : SvcReq) (key : Nat) (tag : List Byte) (d : Dev) : Dev :=
  let c := d.can[k]
  let secret := if key = 0 then e.fuses.svcKey0 else e.fuses.svcKey1
  let ok := match c.nonce, secret with
    | some n, some s => (Config.hmac s (authMessage e n k key)).take 16 == tag
    | _, _ => false
  let d := d.modCan k fun c => { c with nonce := none, authParts := [] }
  if ok then (d.modCan k fun c => { c with level := key + 1, failRow := 0 }).svcAnswer k r 0 none
  else
    let row := c.failRow + 1
    let lock := if 3 ≤ row then some (d.dtime + 10000000000) else none
    (d.modCan k fun c => { c with fails := c.fails + 1, failRow := if 3 ≤ row then 0 else row, lockEnd := lock }).svcAnswer k r 5 none

/-- AUTH: the tag whole, or one of its four parts. -/
def Dev.svcAuth (e : Env) (k : Fin 4) (r : SvcReq) (c : Can) (d : Dev) : Dev :=
  let key := r.addr.toNat / 256 % 2
  if r.fd then d.svcTag e k r key r.tag
  else
    let id := 4 * key + r.addr.toNat % 4
    let parts := (id, r.tag) :: c.authParts.filter fun x => x.1 != id
    let of (i : Nat) : Option (List Byte) := (parts.find? fun x => x.1 == 4 * key + i).map (·.2)
    match of 0, of 1, of 2, of 3 with
    | some a, some b, some c, some x => d.svcTag e k r key (a ++ b ++ c ++ x)
    | _, _, _, _ => (d.modCan k fun c => { c with authParts := parts }).svcAnswer k r 0 none

/-! ### The tunnel (R328) -/

/-- A tunnelled request at the second: an access of the ROPE path, and its response on the way back. -/
def Dev.tunnelServe (e : Env) (l : List Byte) (d : Dev) : Dev :=
  let b (i : Nat) : Byte := (l[i]?).getD 0
  let r : SvcReq := { op := b 0, seq := b 1, addr := BitVec.ofNat 16 (leNat [b 2, b 3]), data := BitVec.ofNat 64 (leNat (l.drop 4)) }
  let (x, d) := d.svcAccess e .rope r d.rope.tunnel.sample d.rope.tunnel.staged
  let (n, d) := d.draw
  let out := svcHead r x.status ++ wordBytes (x.data.getD (Config.svcData n))
  if d.ropeRuns then
    d.modRope fun y => { y with tunnel := { y.tunnel with sample := x.sample, staged := x.staged, outPart := 0, out := out } }
  else d

/-- A response at the lead goes out on CAN, and the tunnel is free. -/
def Dev.tunnelReturn (l : List Byte) (d : Dev) : Dev :=
  match d.rope.tunnel.client with
  | some (k, r) =>
    ((d.svcSend k r.fd (l.take 4) (BitVec.ofNat 64 (leNat (l.drop 4)))).modRope fun x =>
      { x with tunnel := { x.tunnel with client := none } }).svcAdvance
  | none => d

/-- A tunnel word arrives: parts in order, four of them make a request or a response. -/
def Dev.tunnelIn (e : Env) (w : W32) (d : Dev) : Dev :=
  if !w.getLsbD 0 then d
  else
    let part := w.toNat / 2 % 4
    let bytes := leBytes 3 (w.toNat / 256)
    let old := d.rope.tunnel.inn
    let inn := if part = 0 then bytes else if old.length = 3 * part then old ++ bytes else []
    let keep (l : List Byte) : Dev := d.modRope fun r => { r with tunnel := { r.tunnel with inn := l } }
    if inn.length < 12 then keep inn
    else if d.rope.role then (keep []).tunnelServe e inn
    else (keep []).tunnelReturn inn

/-- A rope frame arrives; what it carries counts while the link is up. -/
def Dev.ropeFrameIn (e : Env) (f : RopeFrame) (d : Dev) : Dev :=
  let up := d.ropeRuns && d.rope.up && f.ok
  let d := d.ropeReceive e f
  if up then d.tunnelIn e f.tunnel else d

/-! ### The commands -/

/-- CAN_FRAME_RECEIVED (R313). -/
def execCanFrameReceived (t : Ns) (k : Fin 4) (f : CanFrame) (s : State) : Host.Outcome State Fault Refusal :=
  runAt t (fun e d => d.canFrame e k f) s

/-- READ_LO (R318). -/
def execReadLo (t : Ns) (k : Fin 4) (s : State) : Host.Outcome State Fault Refusal :=
  runAt t (fun e d => d.svcServe k 0x10 (Dev.svcRegister e k)) s

/-- READ_HI (R318). -/
def execReadHi (t : Ns) (k : Fin 4) (s : State) : Host.Outcome State Fault Refusal :=
  runAt t (fun e d => d.svcServe k 0x11 (Dev.svcRegister e k)) s

/-- READ (R318). -/
def execSvcRead (t : Ns) (k : Fin 4) (s : State) : Host.Outcome State Fault Refusal :=
  runAt t (fun e d => d.svcServe k 0x12 (Dev.svcRegister e k)) s

/-- WRITE_LO (R318). -/
def execWriteLo (t : Ns) (k : Fin 4) (s : State) : Host.Outcome State Fault Refusal :=
  runAt t (fun e d => d.svcServe k 0x20 (Dev.svcRegister e k)) s

/-- WRITE_HI (R318). -/
def execWriteHi (t : Ns) (k : Fin 4) (s : State) : Host.Outcome State Fault Refusal :=
  runAt t (fun e d => d.svcServe k 0x21 (Dev.svcRegister e k)) s

/-- WRITE (R318). -/
def execSvcWrite (t : Ns) (k : Fin 4) (s : State) : Host.Outcome State Fault Refusal :=
  runAt t (fun e d => d.svcServe k 0x22 (Dev.svcRegister e k)) s

/-- CHALLENGE (R320). -/
def execChallenge (t : Ns) (k : Fin 4) (s : State) : Host.Outcome State Fault Refusal :=
  runAt t (fun _ d => d.svcServe k 0x30 (fun r _ d => d.svcChallenge k r)) s

/-- AUTH (R320). -/
def execAuth (t : Ns) (k : Fin 4) (s : State) : Host.Outcome State Fault Refusal :=
  runAt t (fun e d => d.svcServe k 0x31 (Dev.svcAuth e k)) s

/-- CLOSE (R318, R320). -/
def execClose (t : Ns) (k : Fin 4) (s : State) : Host.Outcome State Fault Refusal :=
  runAt t (fun _ d => d.svcServe k 0x3F (fun r _ d => (d.modCan k fun c => { c with level := 0 }).svcAnswer k r 0 none)) s

/-- SESSION_TIMEOUT: 5 s without a request (R320). -/
def execSessionTimeout (t : Ns) (k : Fin 4) (s : State) : Host.Outcome State Fault Refusal :=
  runAt t (fun _ d => d.modCan k fun c => if c.lastReq + 5000000000 ≤ d.dtime then { c with level := 0 } else c) s

/-- LOCKOUT_END: 10 s after the third failure (R320). -/
def execLockoutEnd (t : Ns) (k : Fin 4) (s : State) : Host.Outcome State Fault Refusal :=
  runAt t (fun _ d => d.modCan k fun c =>
    match c.lockEnd with
    | some x => if x ≤ d.dtime then { c with lockEnd := none } else c
    | none => c) s

/-- ROPE_FRAME_SEND (R324). -/
def execRopeFrameSend (t : Ns) (s : State) : Host.Outcome State Fault Refusal :=
  runAt t (fun e d => if d.ropeRuns then d.ropeSend e else d) s

/-- ROPE_FRAME_RECEIVED (R324). -/
def execRopeFrameReceived (t : Ns) (f : RopeFrame) (s : State) : Host.Outcome State Fault Refusal :=
  runAt t (fun e d => d.ropeFrameIn e f) s

/-- ROPE_LOST (R329). -/
def execRopeLost (t : Ns) (s : State) : Host.Outcome State Fault Refusal := runAt t (fun _ d => d.ropeLost) s

end Sys2Proof.Machine
end

