-- ==== Sys2Proof/Machine/TwoWire.lean ====
section
/-! DEFINITION. The two-wire target port (R278, R331 to R340). A command is one transaction from its START, or repeated
START, to its STOP or to the repeated START that follows it. -/

namespace Sys2Proof.Machine

/-! ### Addresses (R332) -/

def Twp.matches_ (addr mask : Nat) (x : Twp) (adr : BitVec 7) : Bool :=
  !twpReserved adr.toNat && ((adr ^^^ BitVec.ofNat 7 (fld x.addr addr 7)) &&& BitVec.ofNat 7 (fld x.addr mask 7)) == 0

/-- The register comparator, tested first. -/
def Twp.isReg (x : Twp) (adr : BitVec 7) : Bool := x.matches_ 0 8 adr

/-- The log stream comparator. -/
def Twp.isLog (x : Twp) (adr : BitVec 7) : Bool := bit x.addr 31 && !x.isReg adr && x.matches_ 16 24 adr

/-! ### Transactions (R333 to R337) -/

/-- Staging left open is discarded (R335). -/
def Twp.discard (x : Twp) : Twp := { x with staging := none, partial_ := x.partial_ || x.staging.isSome }

/-- The address byte after a START. -/
def Dev.twpStart (adr : BitVec 7) (d : Dev) : Dev :=
  d.modTwp fun x =>
    let hit := x.isReg adr || x.isLog adr
    { x with ack := hit, out := [], busy := x.busy || hit, xfers := if hit && !x.busy then x.xfers + 1 else x.xfers }

/-- The end of a transaction: a STOP, at which new addresses take effect (R332), or a repeated START to come. -/
def Dev.twpEnd (stop : Bool) (d : Dev) : Dev :=
  if !d.sup.filled then d
  else if !stop then d.modTwp fun x => { x with open_ := true }
  else d.modTwp fun x =>
    let x := x.discard
    { x with open_ := false, busy := false, idleAt := d.dtime, addr := x.addrNew.getD x.addr, addrNew := none }

/-- Address of the register that holds a pointer in the port's current page. -/
def Dev.twpReg (ptr : Nat) (d : Dev) : BitVec 16 := BitVec.ofNat 16 (256 * (d.ctx .twp).page.toNat + ptr / 8 * 8)

/-- A data byte written at the pointer. -/
def Dev.twpByte (e : Env) (b : Byte) (d : Dev) : Dev :=
  let ptr := d.twp.ptr.toNat
  let ofs := ptr % 8
  let reg := ptr - ofs
  let move (s : Option (Nat × List Byte)) : Dev := d.modTwp fun x => { x with staging := s, ptr := x.ptr + 1 }
  if !d.sup.filled then d
  else if ofs = 0 then move (some (reg, [b]))
  else
    match d.twp.staging with
    | some (r, l) =>
      if r ≠ reg ∨ l.length ≠ ofs then (move d.twp.staging).modTwp fun x => { x with partial_ := true }
      else if ofs < 7 then move (some (reg, l ++ [b]))
      else
        let addr := d.twpReg ptr
        let d := (move none).portWrite (e.after d) .twp addr (BitVec.ofNat 64 (leNat (l ++ [b])))
        if reg = 0xF8 ∧ d.sup.filled = true then d.modTwp fun x => { x with ptr := 0 } else d
    | none => (move none).modTwp fun x => { x with partial_ := true }

/-- A READ of the bridge runs. -/
def Dev.brReads (d : Dev) : Bool := d.nvi.brBusy && d.nvi.brOp == 1

/-- The port holds SCL low: the rest of the transaction waits for the end of the READ (R337). -/
def Dev.twpHold (r : TwpRest) (d : Dev) : Dev := d.modTwp fun x => { x with stretch := some r }

/-- The bytes of a write after the pointer byte, to the end of the transaction; a committed READ command holds the
clock (R363). -/
def Dev.twpPut (e : Env) (stop : Bool) : List Byte → Dev → Dev
  | [], d => d.twpEnd stop
  | b :: l, d =>
    let n := d.twpByte e b
    if !d.brReads && n.brReads then n.twpHold (.write l stop) else n.twpPut e stop l

/-- A write transaction: a probe, or the pointer byte and the bytes after it; at the log address a refusal (R337). While
the port stretches the clock no other transaction can begin. -/
def Dev.twpWrite (e : Env) (adr : BitVec 7) (bytes : List Byte) (stop : Bool) (d : Dev) : Dev :=
  if !d.sup.filled || d.twp.stretch.isSome then d
  else
    let reg := d.twp.isReg adr
    let log := d.twp.isLog adr
    let d := (d.modTwp Twp.discard).twpStart adr
    if reg then
      match bytes with
      | [] => d.twpEnd stop
      | p :: l => (d.modTwp fun x => { x with ptr := p }).twpPut e stop l
    else if log then (d.modTwp fun x => { x with logWr := true }).twpEnd stop
    else d.twpEnd stop

/-- The port asks for the register that holds a pointer, and has its turn at the access port (R21, R22, R35, R336). -/
def Dev.twpSample (e : Env) (ptr : Nat) (d : Dev) : W64 × Dev :=
  let (v, bad, d) := (d.takeTurn .twp).regRead e .twp (d.twpReg ptr)
  (v, d.noReg .twp bad)

/-- The register that holds a pointer is NVI_BR_DATA and a READ of the bridge runs (R363). -/
def Dev.twpWaits (ptr : Nat) (d : Dev) : Bool := d.brReads && d.twpReg ptr == 0x6868

/-- `n` bytes clocked out of the latch, to the end of the transaction; the next register is asked for when byte 3 is
acknowledged, or, where the read began behind byte 3, when the read reaches it. A register that has to wait for the bridge
holds the clock (R337). -/
def Dev.twpBytes (e : Env) (stop : Bool) : Nat → W64 → Option W64 → Dev → Dev
  | 0, _, _, d => d.twpEnd stop
  | n + 1, cur, next, d =>
    let ptr := d.twp.ptr.toNat
    let b := BitVec.ofNat 8 (fld cur (8 * (ptr % 8)) 8)
    let d := d.modTwp fun x => { x with out := x.out ++ [b], ptr := x.ptr + 1 }
    if n ≠ 0 ∧ ptr % 8 = 3 then
      let ask := (ptr + 5) % 256
      if d.twpWaits ask then d.twpHold (.read n (some cur) stop)
      else let (v, d) := d.twpSample e ask; d.twpBytes e stop n cur (some v)
    else if n ≠ 0 ∧ ptr % 8 = 7 then
      let ask := (ptr + 1) % 256
      match next with
      | some v => d.twpBytes e stop n v none
      | none =>
        if d.twpWaits ask then d.twpHold (.read n none stop)
        else let (v, d) := d.twpSample e ask; d.twpBytes e stop n v none
    else d.twpBytes e stop n cur next

/-- The READ of the bridge has ended: the port releases SCL and the transaction goes on where it was held. -/
def Dev.twpResume (e : Env) (d : Dev) : Dev :=
  if d.brReads then d
  else
    let free (d : Dev) : Dev := d.modTwp fun x => { x with stretch := none }
    match d.twp.stretch with
    | none => d
    | some (.write l stop) => (free d).twpPut e stop l
    | some (.read n none stop) => let (v, d) := (free d).twpSample e d.twp.ptr.toNat; d.twpBytes e stop n v none
    | some (.read n (some cur) stop) =>
      let (v, d) := (free d).twpSample e ((d.twp.ptr.toNat + 4) % 256)
      d.twpBytes e stop n cur (some v)

/-! ### The log stream (R278, R375) -/

/-- Pending records of the log reader with their rings, in the order they were written. -/
def Dev.logRecords (d : Dev) : List (Fin 12 × Stored) :=
  match d.recm.stood with
  | none => d.pendingOf 0
  | some l => (List.finRange 12).foldl (init := []) fun acc t =>
      if t.val = 0 then acc else l[t].pending.foldl (fun acc s => ordInsert (t, s) acc) acc

/-- The bytes of a record as the log reader gets them. -/
def Dev.logRead (t : Fin 12) (s : Stored) (d : Dev) : List Byte × Dev :=
  match d.recm.stood with
  | none => d.readStored t s
  | some l => d.readIn l[t] s

/-- A record whose last byte has been read is consumed, and counted (REC_LOG_STAT.READ). -/
def Dev.logConsume (t : Fin 12) (ord : Nat) (d : Dev) : Dev :=
  let d := d.modRecm fun m => { m with logRead := m.logRead + 1 }
  match d.recm.stood with
  | none => d.consume t ord
  | some l =>
    let drop (r : Ring) : Ring := { r with pending := r.pending.filter fun (s : Stored) => s.ord != ord }
    d.modRecm fun m => { m with stood := some (upd l t drop) }

/-- The next `n` bytes of the pending records. -/
def Dev.logBytes : List (Fin 12 × Stored) → Nat → Dev → List Byte × Dev
  | [], n, d => (List.replicate n 0, d)
  | (t, s) :: l, n, d =>
    if n = 0 then ([], d)
    else
      let (bs, d) := d.logRead t s
      if n < bs.length then (bs.take n, d)
      else
        let (rest, d) := (d.logConsume t s.ord).logBytes l (n - bs.length)
        (bs ++ rest, d)

/-- A read transaction of `n` bytes at the register port or the log stream. The register of the pointer is asked for at
the START, before the address byte. A sample that the address byte then discards is no access (DEDUCED: R336 says only that
it is discarded; assumption 65). -/
def Dev.twpRead (e : Env) (adr : BitVec 7) (n : Nat) (stop : Bool) (d : Dev) : Dev :=
  if !d.sup.filled || d.twp.stretch.isSome then d
  else
    let reg := d.twp.isReg adr
    let log := d.twp.isLog adr
    let d := d.modTwp Twp.discard
    let ask := d.twp.ptr.toNat
    if reg then
      if d.twpWaits ask then (d.twpStart adr).twpHold (.read n none stop)
      else
        let (v, d) := d.twpSample e ask
        (d.twpStart adr).twpBytes e stop n v none
    else if log then
      let (bs, d) := d.logBytes d.logRecords n
      ((d.twpStart adr).modTwp fun x => { x with out := bs }).twpEnd stop
    else (d.twpStart adr).twpEnd stop

/-- A bus timeout (R339): staging is discarded; pointer and page are kept. -/
def Dev.twpTimeout (d : Dev) : Dev :=
  if !d.sup.filled then d
  else d.modTwp fun x =>
    { x.discard with timeout := true, timeouts := x.timeouts + 1, busy := false, open_ := false, stretch := none, idleAt := d.dtime }

/-! ### Attention (R338) -/

/-- The bus has been idle for 100 µs. -/
def Dev.twpIdle (d : Dev) : Bool := d.sup.filled && !d.twp.busy && !d.twp.open_ && decide (d.twp.idleAt + 100000 ≤ d.dtime)

/-- An attention pulse; where SCL falls within it, the device lets go and the request stays to be sent. -/
def Dev.attention (sclFell : Bool) (d : Dev) : Dev :=
  if !(d.twpIdle && d.twp.attnPend) then d
  else if sclFell then d.modTwp fun x => { x with idleAt := d.dtime }
  else d.modTwp fun x => { x with attns := x.attns + 1, sentAt := some d.dtime, idleAt := d.dtime }

/-- A pending request is sent for the first time. -/
def Dev.attentionFirst (sclFell : Bool) (d : Dev) : Dev := if d.twp.sentAt.isNone then d.attention sclFell else d

/-- A request that is still pending ATTN_REP ms after it was last sent is sent again. -/
def Dev.attentionAgain (sclFell : Bool) (d : Dev) : Dev :=
  let rep := fld d.twp.cfg 8 8
  match d.twp.sentAt with
  | some t => if rep ≠ 0 ∧ t + 1000000 * rep ≤ d.dtime then d.attention sclFell else d
  | none => d

/-! ### The commands -/

/-- TWP_PROBE (R334). -/
def execTwpProbe (t : Ns) (adr : BitVec 7) (s : State) : Host.Outcome State Fault Refusal :=
  runAt t (fun e d => d.twpWrite e adr [] true) s

/-- TWP_REGISTER_WRITE (R335). -/
def execTwpRegisterWrite (t : Ns) (adr : BitVec 7) (bytes : List Byte) (stop : Bool) (s : State) :
    Host.Outcome State Fault Refusal :=
  runAt t (fun e d => d.twpWrite e adr bytes stop) s

/-- TWP_REGISTER_READ (R336). -/
def execTwpRegisterRead (t : Ns) (adr : BitVec 7) (n : Nat) (stop : Bool) (s : State) : Host.Outcome State Fault Refusal :=
  runAt t (fun e d => d.twpRead e adr n stop) s

/-- TWP_LOG_READ (R278). -/
def execTwpLogRead (t : Ns) (adr : BitVec 7) (n : Nat) (s : State) : Host.Outcome State Fault Refusal :=
  runAt t (fun e d => d.twpRead e adr n true) s

/-- TWP_LOG_WRITE (R337). -/
def execTwpLogWrite (t : Ns) (adr : BitVec 7) (bytes : List Byte) (s : State) : Host.Outcome State Fault Refusal :=
  runAt t (fun e d => d.twpWrite e adr bytes true) s

/-- TWP_TIMEOUT (R339). -/
def execTwpTimeout (t : Ns) (s : State) : Host.Outcome State Fault Refusal := runAt t (fun _ d => d.twpTimeout) s

/-- ATTENTION_REQUEST (R338). -/
def execAttentionRequest (t : Ns) (sclFell : Bool) (s : State) : Host.Outcome State Fault Refusal :=
  runAt t (fun _ d => d.attentionFirst sclFell) s

/-- ATTN_REPEAT (R338). -/
def execAttnRepeat (a : AttnPulse) (s : State) : Host.Outcome State Fault Refusal :=
  runAt a.t (fun _ d => d.attentionAgain a.sclFell) s

/-- BRIDGE_OPERATION_DONE (R362); the end of a READ lets a stretched transaction go on (R337, R363). -/
def execBridgeOperationDone (t : Ns) (r : BridgeResult) (s : State) : Host.Outcome State Fault Refusal :=
  runAt t (fun e d => (d.bridgeDone (verifySlot e d) r).twpResume e) s

end Sys2Proof.Machine
end

