-- ==== Sys2Proof/Machine/Dispatch.lean ====
section
/-! DEFINITION. The one match over the commands: each arm calls the meaning of its row. -/

namespace Sys2Proof.Machine

/-- The effect of a command on everything but the queue. -/
def exec (i : Instr) (s : State) : Host.Outcome State Fault Refusal :=
  match i with
  | .powerOnReset t => Sys2Proof.Machine.execPowerOnReset t s
  | .brownOutReset t => Sys2Proof.Machine.execBrownOutReset t s
  | .pinReset t => Sys2Proof.Machine.execPinReset t s
  | .resetRelease t ropeRole asel0 asel1 boot => Sys2Proof.Machine.execResetRelease t ropeRole asel0 asel1 boot s
  | .hardwareFillEnd t lockUs extClk posFlagged admFlagged => Sys2Proof.Machine.execHardwareFillEnd t lockUs extClk posFlagged admFlagged s
  | .sectionLoaded t sec => Sys2Proof.Machine.execSectionLoaded t sec s
  | .signatureVerified t => Sys2Proof.Machine.execSignatureVerified t s
  | .initRecordDelay t => Sys2Proof.Machine.execInitRecordDelay t s
  | .finalisation t => Sys2Proof.Machine.execFinalisation t s
  | .borWarning t => Sys2Proof.Machine.execBorWarning t s
  | .vsupRecovery t => Sys2Proof.Machine.execVsupRecovery t s
  | .vgdUndervoltage t => Sys2Proof.Machine.execVgdUndervoltage t s
  | .vgdRecovery t => Sys2Proof.Machine.execVgdRecovery t s
  | .clkXtalLost t => Sys2Proof.Machine.execClkXtalLost t s
  | .clkPllLost t => Sys2Proof.Machine.execClkPllLost t s
  | .lockstepMismatch t unit => Sys2Proof.Machine.execLockstepMismatch t unit s
  | .supVcore t => Sys2Proof.Machine.execSupVcore t s
  | .crankEdge t e => Sys2Proof.Machine.execCrankEdge t e s
  | .directionPulse t input lead trail => Sys2Proof.Machine.execDirectionPulse t input lead trail s
  | .syntheticEdge t => Sys2Proof.Machine.execSyntheticEdge t s
  | .camEdge t e => Sys2Proof.Machine.execCamEdge t e s
  | .toothTimeout t => Sys2Proof.Machine.execToothTimeout t s
  | .stall t => Sys2Proof.Machine.execStall t s
  | .edgeIssue t src => Sys2Proof.Machine.execEdgeIssue t src s
  | .resultWrite t src => Sys2Proof.Machine.execResultWrite t src s
  | .admNetSubmit t p => Sys2Proof.Machine.execAdmNetSubmit t p s
  | .standingSubmission t => Sys2Proof.Machine.execStandingSubmission t s
  | .admissionDecision t => Sys2Proof.Machine.execAdmissionDecision t s
  | .psqDrive t k => Sys2Proof.Machine.execPsqDrive t k s
  | .untilAbove t k => Sys2Proof.Machine.execUntilAbove t k s
  | .untilBelow t k => Sys2Proof.Machine.execUntilBelow t k s
  | .wait t k => Sys2Proof.Machine.execWait t k s
  | .chop t k => Sys2Proof.Machine.execChop t k s
  | .chopToEnd t k => Sys2Proof.Machine.execChopToEnd t k s
  | .branch t k cmpHi cmpLo => Sys2Proof.Machine.execBranch t k cmpHi cmpLo s
  | .loop t k => Sys2Proof.Machine.execLoop t k s
  | .psqSample t k => Sys2Proof.Machine.execPsqSample t k s
  | .mark t k => Sys2Proof.Machine.execMark t k s
  | .psqEnd t k => Sys2Proof.Machine.execPsqEnd t k s
  | .waitConditionMet t k => Sys2Proof.Machine.execWaitConditionMet t k s
  | .waitTimeout t k => Sys2Proof.Machine.execWaitTimeout t k s
  | .chopSwitch t k => Sys2Proof.Machine.execChopSwitch t k s
  | .commandedEnd t k => Sys2Proof.Machine.execCommandedEnd t k s
  | .bankRelease t k => Sys2Proof.Machine.execBankRelease t k s
  | .endTimeout t k => Sys2Proof.Machine.execEndTimeout t k s
  | .bankSample t k shuntNv => Sys2Proof.Machine.execBankSample t k shuntNv s
  | .vdsFault t x => Sys2Proof.Machine.execVdsFault t x s
  | .diOffStateTest t k => Sys2Proof.Machine.execDiOffStateTest t k s
  | .pfiOffStateTest t n => Sys2Proof.Machine.execPfiOffStateTest t n s
  | .offTestRead t o nodeMv vbatMv => Sys2Proof.Machine.execOffTestRead t o nodeMv vbatMv s
  | .drainDelayMeasured t n isOn => Sys2Proof.Machine.execDrainDelayMeasured t n isOn s
  | .drainDelaySaturated t n isOn => Sys2Proof.Machine.execDrainDelaySaturated t n isOn s
  | .softShutdownEnd t n => Sys2Proof.Machine.execSoftShutdownEnd t n s
  | .maxDwellGuard t n => Sys2Proof.Machine.execMaxDwellGuard t n s
  | .bstVoltUpdate t vsUv => Sys2Proof.Machine.execBstVoltUpdate t vsUv s
  | .bstCsPeak t => Sys2Proof.Machine.execBstCsPeak t s
  | .tOnMax t => Sys2Proof.Machine.execTOnMax t s
  | .tOffEnd t => Sys2Proof.Machine.execTOffEnd t s
  | .boostOverVoltage t => Sys2Proof.Machine.execBoostOverVoltage t s
  | .boostUnderVoltage t => Sys2Proof.Machine.execBoostUnderVoltage t s
  | .runStart t k => Sys2Proof.Machine.execRunStart t k s
  | .overrun t k ix => Sys2Proof.Machine.execOverrun t k ix s
  | .ceEnd t k => Sys2Proof.Machine.execCeEnd t k s
  | .mov t k => Sys2Proof.Machine.execMov t k s
  | .add t k => Sys2Proof.Machine.execAdd t k s
  | .sub t k => Sys2Proof.Machine.execSub t k s
  | .mul t k => Sys2Proof.Machine.execMul t k s
  | .div t k => Sys2Proof.Machine.execDiv t k s
  | .mac t k => Sys2Proof.Machine.execMac t k s
  | .min t k => Sys2Proof.Machine.execMin t k s
  | .max t k => Sys2Proof.Machine.execMax t k s
  | .clamp t k => Sys2Proof.Machine.execClamp t k s
  | .abs t k => Sys2Proof.Machine.execAbs t k s
  | .neg t k => Sys2Proof.Machine.execNeg t k s
  | .and t k => Sys2Proof.Machine.execAnd t k s
  | .or t k => Sys2Proof.Machine.execOr t k s
  | .xor t k => Sys2Proof.Machine.execXor t k s
  | .shl t k => Sys2Proof.Machine.execShl t k s
  | .shr t k => Sys2Proof.Machine.execShr t k s
  | .cmp t k => Sys2Proof.Machine.execCmp t k s
  | .sel t k => Sys2Proof.Machine.execSel t k s
  | .lut1 t k => Sys2Proof.Machine.execLut1 t k s
  | .lut2 t k => Sys2Proof.Machine.execLut2 t k s
  | .lut3 t k => Sys2Proof.Machine.execLut3 t k s
  | .lag t k => Sys2Proof.Machine.execLag t k s
  | .rate t k => Sys2Proof.Machine.execRate t k s
  | .integ t k => Sys2Proof.Machine.execInteg t k s
  | .pi t k => Sys2Proof.Machine.execPi t k s
  | .angt t k => Sys2Proof.Machine.execAngt t k s
  | .tang t k => Sys2Proof.Machine.execTang t k s
  | .req t k => Sys2Proof.Machine.execReq t k s
  | .reqResult t k => Sys2Proof.Machine.execReqResult t k s
  | .jmpf t k => Sys2Proof.Machine.execJmpf t k s
  | .emitCanSignal t k => Sys2Proof.Machine.execEmitCanSignal t k s
  | .emitTimerBuffer t k => Sys2Proof.Machine.execEmitTimerBuffer t k s
  | .emitPioQueue t k => Sys2Proof.Machine.execEmitPioQueue t k s
  | .emitNote t k => Sys2Proof.Machine.execEmitNote t k s
  | .emitUrgent t k => Sys2Proof.Machine.execEmitUrgent t k s
  | .halt t p k => Sys2Proof.Machine.execHalt t p k s
  | .step t p k => Sys2Proof.Machine.execStep t p k s
  | .resume t p k => Sys2Proof.Machine.execResume t p k s
  | .slotValWrite t p v => Sys2Proof.Machine.execSlotValWrite t p v s
  | .scanResult t c sample x ovr => Sys2Proof.Machine.execScanResult t c sample x ovr s
  | .cnvScanWrite t p c v => Sys2Proof.Machine.execCnvScanWrite t p c v s
  | .urgentStart t c => Sys2Proof.Machine.execUrgentStart t c s
  | .urgentResult t c sample x ovr => Sys2Proof.Machine.execUrgentResult t c sample x ovr s
  | .refOk t => Sys2Proof.Machine.execRefOk t s
  | .recordWrite t => Sys2Proof.Machine.execRecordWrite t s
  | .streamMaxWait t ix => Sys2Proof.Machine.execStreamMaxWait t ix s
  | .streamFrameTransmitted t ix => Sys2Proof.Machine.execStreamFrameTransmitted t ix s
  | .clrLost t p => Sys2Proof.Machine.execClrLost t p s
  | .discard t p => Sys2Proof.Machine.execDiscard t p s
  | .snapInEdge t rising samples => Sys2Proof.Machine.execSnapInEdge t rising samples s
  | .snapCmdTrig t p => Sys2Proof.Machine.execSnapCmdTrig t p s
  | .mergeWindowClose t => Sys2Proof.Machine.execMergeWindowClose t s
  | .snapOutEnd t => Sys2Proof.Machine.execSnapOutEnd t s
  | .tmuTick t u => Sys2Proof.Machine.execTmuTick t u s
  | .captureEdge t u c rising first => Sys2Proof.Machine.execCaptureEdge t u c rising first s
  | .tmuStart t p v => Sys2Proof.Machine.execTmuStart t p v s
  | .compareValueWrite t p v => Sys2Proof.Machine.execCompareValueWrite t p v s
  | .captureRead t p => Sys2Proof.Machine.execCaptureRead t p s
  | .hold t m levels => Sys2Proof.Machine.execHold t m levels s
  | .pioHoldEnd t m levels => Sys2Proof.Machine.execPioHoldEnd t m levels s
  | .pioDrive t m => Sys2Proof.Machine.execPioDrive t m s
  | .pioSample t m levels => Sys2Proof.Machine.execPioSample t m levels s
  | .shift t m => Sys2Proof.Machine.execShift t m s
  | .take t m => Sys2Proof.Machine.execTake t m s
  | .give t m => Sys2Proof.Machine.execGive t m s
  | .pioBlockEnd t m => Sys2Proof.Machine.execPioBlockEnd t m s
  | .count t m => Sys2Proof.Machine.execCount t m s
  | .go t m levels => Sys2Proof.Machine.execGo t m levels s
  | .stamp t m => Sys2Proof.Machine.execStamp t m s
  | .raise t m => Sys2Proof.Machine.execRaise t m s
  | .load t m => Sys2Proof.Machine.execLoad t m s
  | .pause t m => Sys2Proof.Machine.execPause t m s
  | .pioPauseEnd t m => Sys2Proof.Machine.execPioPauseEnd t m s
  | .pioInject t p v => Sys2Proof.Machine.execPioInject t p v s
  | .pioRun t p run => Sys2Proof.Machine.execPioRun t p run s
  | .pioRestart t p => Sys2Proof.Machine.execPioRestart t p s
  | .pioTxqWrite t p v => Sys2Proof.Machine.execPioTxqWrite t p v s
  | .pioRxqRead t p => Sys2Proof.Machine.execPioRxqRead t p s
  | .pioFlagSet t p v => Sys2Proof.Machine.execPioFlagSet t p v s
  | .pioSlotStale t m => Sys2Proof.Machine.execPioSlotStale t m s
  | .canFrameReceived t k f => Sys2Proof.Machine.execCanFrameReceived t k f s
  | .readLo t k => Sys2Proof.Machine.execReadLo t k s
  | .readHi t k => Sys2Proof.Machine.execReadHi t k s
  | .svcRead t k => Sys2Proof.Machine.execSvcRead t k s
  | .writeLo t k => Sys2Proof.Machine.execWriteLo t k s
  | .writeHi t k => Sys2Proof.Machine.execWriteHi t k s
  | .svcWrite t k => Sys2Proof.Machine.execSvcWrite t k s
  | .challenge t k => Sys2Proof.Machine.execChallenge t k s
  | .auth t k => Sys2Proof.Machine.execAuth t k s
  | .close t k => Sys2Proof.Machine.execClose t k s
  | .sessionTimeout t k => Sys2Proof.Machine.execSessionTimeout t k s
  | .lockoutEnd t k => Sys2Proof.Machine.execLockoutEnd t k s
  | .receiveStale t k obj => Sys2Proof.Machine.execReceiveStale t k obj s
  | .transmitPeriod t k obj => Sys2Proof.Machine.execTransmitPeriod t k obj s
  | .transmitOnChange t k obj => Sys2Proof.Machine.execTransmitOnChange t k obj s
  | .canFrameTransmitted t k sof r => Sys2Proof.Machine.execCanFrameTransmitted t k sof r s
  | .busOff t k => Sys2Proof.Machine.execBusOff t k s
  | .busOffRecovery t k => Sys2Proof.Machine.execBusOffRecovery t k s
  | .recover t p k => Sys2Proof.Machine.execRecover t p k s
  | .canWakeMatch t k ide id => Sys2Proof.Machine.execCanWakeMatch t k ide id s
  | .ropeFrameSend t => Sys2Proof.Machine.execRopeFrameSend t s
  | .ropeFrameReceived t f => Sys2Proof.Machine.execRopeFrameReceived t f s
  | .ropeLost t => Sys2Proof.Machine.execRopeLost t s
  | .mirrorDefault t => Sys2Proof.Machine.execMirrorDefault t s
  | .twpProbe t adr => Sys2Proof.Machine.execTwpProbe t adr s
  | .twpRegisterWrite t adr bytes stop => Sys2Proof.Machine.execTwpRegisterWrite t adr bytes stop s
  | .twpRegisterRead t adr n stop => Sys2Proof.Machine.execTwpRegisterRead t adr n stop s
  | .twpLogRead t adr n => Sys2Proof.Machine.execTwpLogRead t adr n s
  | .twpLogWrite t adr bytes => Sys2Proof.Machine.execTwpLogWrite t adr bytes s
  | .twpTimeout t => Sys2Proof.Machine.execTwpTimeout t s
  | .attentionRequest t sclFell => Sys2Proof.Machine.execAttentionRequest t sclFell s
  | .attnRepeat a => Sys2Proof.Machine.execAttnRepeat a s
  | .bridgeRead t p len addr => Sys2Proof.Machine.execBridgeRead t p len addr s
  | .program t p len addr => Sys2Proof.Machine.execProgram t p len addr s
  | .erase4k t p addr => Sys2Proof.Machine.execErase4k t p addr s
  | .erase64k t p addr => Sys2Proof.Machine.execErase64k t p addr s
  | .verify t p addr => Sys2Proof.Machine.execVerify t p addr s
  | .bridgeStatusPoll t busy => Sys2Proof.Machine.execBridgeStatusPoll t busy s
  | .bridgeOperationDone t r => Sys2Proof.Machine.execBridgeOperationDone t r s
  | .bridgeTimeout t => Sys2Proof.Machine.execBridgeTimeout t s
  | .nviBrDataAccess t p w => Sys2Proof.Machine.execNviBrDataAccess t p w s
  | .softwareReset t p key => Sys2Proof.Machine.execSoftwareReset t p key s
  | .restart t p key posFlagged admFlagged => Sys2Proof.Machine.execRestart t p key posFlagged admFlagged s
  | .enterService t p key => Sys2Proof.Machine.execEnterService t p key s
  | .endAfterrun t p key => Sys2Proof.Machine.execEndAfterrun t p key s
  | .keyOff t => Sys2Proof.Machine.execKeyOff t s
  | .keyOn t => Sys2Proof.Machine.execKeyOn t s
  | .afterrunEnd t => Sys2Proof.Machine.execAfterrunEnd t s
  | .arMax t => Sys2Proof.Machine.execArMax t s
  | .wake t sources => Sys2Proof.Machine.execWake t sources s
  | .stop1s t => Sys2Proof.Machine.execStop1s t s
  | .aliveToggle t => Sys2Proof.Machine.execAliveToggle t s
  | .fltForceKey t p v => Sys2Proof.Machine.execFltForceKey t p v s
  | .fltForce t p v => Sys2Proof.Machine.execFltForce t p v s
  | .forceDisarm t p => Sys2Proof.Machine.execForceDisarm t p s
  | .firstFaultClear t p => Sys2Proof.Machine.execFirstFaultClear t p s
  | .fltDisClear t p v => Sys2Proof.Machine.execFltDisClear t p v s
  | .diagDisabledClear t p v => Sys2Proof.Machine.execDiagDisabledClear t p v s
  | .scrubStep t upsets => Sys2Proof.Machine.execScrubStep t upsets s
  | .memTestWriteCoded t p word flipAp => Sys2Proof.Machine.execMemTestWriteCoded t p word flipAp s
  | .memTestWriteRaw t p word flipAp => Sys2Proof.Machine.execMemTestWriteRaw t p word flipAp s
  | .memTestRead t p word flipAp => Sys2Proof.Machine.execMemTestRead t p word flipAp s
  | .pageWrite t p v => Sys2Proof.Machine.execPageWrite t p v s
  | .posResidClr t p => Sys2Proof.Machine.execPosResidClr t p s
  | .registerWrite t p addr v => Sys2Proof.Machine.execRegisterWrite t p addr v s
  | .canBusError t k e => Sys2Proof.Machine.execCanBusError t k e s
  | .imageHeaderRead t boot header => Sys2Proof.Machine.execImageHeaderRead t boot header s

end Sys2Proof.Machine
end

