-- ==== Sys2Proof/Safety.lean ====
section
/-! DEFINITION. What claims speak of: the invariant of every state, completion, the parts of the device that a frame names, and the
operands and results of the families. -/

namespace Sys2Proof.Machine

/-- No fault of a finished command is still to be acted on, and none of its writes still to be made. -/
abbrev Dev.settled (d : Dev) : Prop := d.flt.raised = [] ∧ d.writes = []

/-- The invariant of every state between steps. -/
abbrev State.Inv (s : State) : Prop := s.mems.wf = true ∧ s.dev.settled

/-- DTIME at which a command stamped `t` takes place: it never steps backward, and may move in coarser steps (R26). -/
def State.now (s : State) (t : Ns) : Ns := (s.dev.at t).dtime

/-- DTIME at which a command comes. -/
def stampOf (c : Instr) : Ns :=
  match c with
  | .powerOnReset t | .brownOutReset t | .pinReset t | .resetRelease t _ _ _ _ | .hardwareFillEnd t _ _ _ _
  | .sectionLoaded t _ | .signatureVerified t | .initRecordDelay t | .finalisation t | .borWarning t | .vsupRecovery t
  | .vgdUndervoltage t | .vgdRecovery t | .clkXtalLost t | .clkPllLost t | .lockstepMismatch t _ | .supVcore t
  | .crankEdge t _ | .directionPulse t _ _ _ | .syntheticEdge t | .camEdge t _ | .toothTimeout t | .stall t
  | .edgeIssue t _ | .resultWrite t _ | .admNetSubmit t _ | .standingSubmission t | .admissionDecision t | .psqDrive t _
  | .untilAbove t _ | .untilBelow t _ | .wait t _ | .chop t _ | .chopToEnd t _ | .branch t _ _ _ | .loop t _
  | .psqSample t _ | .mark t _ | .psqEnd t _ | .waitConditionMet t _ | .waitTimeout t _ | .chopSwitch t _
  | .commandedEnd t _ | .bankRelease t _ | .endTimeout t _ | .bankSample t _ _ | .vdsFault t _
  | .diOffStateTest t _ | .pfiOffStateTest t _ | .offTestRead t _ _ _ | .drainDelayMeasured t _ _
  | .drainDelaySaturated t _ _ | .softShutdownEnd t _ | .maxDwellGuard t _ | .bstVoltUpdate t _ | .bstCsPeak t
  | .tOnMax t | .tOffEnd t | .boostOverVoltage t | .boostUnderVoltage t | .runStart t _ | .overrun t _ _ | .ceEnd t _
  | .mov t _ | .add t _ | .sub t _ | .mul t _ | .div t _ | .mac t _ | .min t _ | .max t _ | .clamp t _ | .abs t _
  | .neg t _ | .and t _ | .or t _ | .xor t _ | .shl t _ | .shr t _ | .cmp t _ | .sel t _ | .lut1 t _ | .lut2 t _
  | .lut3 t _ | .lag t _ | .rate t _ | .integ t _ | .pi t _ | .angt t _ | .tang t _ | .req t _ | .reqResult t _
  | .jmpf t _ | .emitCanSignal t _ | .emitTimerBuffer t _ | .emitPioQueue t _ | .emitNote t _ | .emitUrgent t _
  | .halt t _ _ | .step t _ _ | .resume t _ _ | .slotValWrite t _ _ | .scanResult t _ _ _ _ | .cnvScanWrite t _ _ _
  | .urgentStart t _ | .urgentResult t _ _ _ _ | .refOk t | .recordWrite t | .streamMaxWait t _
  | .streamFrameTransmitted t _ | .clrLost t _ | .discard t _ | .snapInEdge t _ _ | .snapCmdTrig t _
  | .mergeWindowClose t | .snapOutEnd t | .tmuTick t _ | .captureEdge t _ _ _ _ | .tmuStart t _ _
  | .compareValueWrite t _ _ | .captureRead t _ | .hold t _ _ | .pioHoldEnd t _ _ | .pioDrive t _ | .pioSample t _ _
  | .shift t _ | .take t _ | .give t _ | .pioBlockEnd t _ | .count t _ | .go t _ _ | .stamp t _ | .raise t _ | .load t _
  | .pause t _ | .pioPauseEnd t _ | .pioInject t _ _ | .pioRun t _ _ | .pioRestart t _ | .pioTxqWrite t _ _
  | .pioRxqRead t _ | .pioFlagSet t _ _ | .pioSlotStale t _ | .canFrameReceived t _ _ | .readLo t _ | .readHi t _
  | .svcRead t _ | .writeLo t _ | .writeHi t _ | .svcWrite t _ | .challenge t _ | .auth t _ | .close t _
  | .sessionTimeout t _ | .lockoutEnd t _ | .receiveStale t _ _ | .transmitPeriod t _ _ | .transmitOnChange t _ _
  | .canFrameTransmitted t _ _ _ | .busOff t _ | .busOffRecovery t _ | .recover t _ _ | .canWakeMatch t _ _ _
  | .ropeFrameSend t | .ropeFrameReceived t _ | .ropeLost t | .mirrorDefault t | .twpProbe t _
  | .twpRegisterWrite t _ _ _ | .twpRegisterRead t _ _ _ | .twpLogRead t _ _ | .twpLogWrite t _ _ | .twpTimeout t
  | .attentionRequest t _ | .attnRepeat ⟨t, _⟩ | .bridgeRead t _ _ _ | .program t _ _ _ | .erase4k t _ _ | .erase64k t _ _
  | .verify t _ _ | .bridgeStatusPoll t _ | .bridgeOperationDone t _ | .bridgeTimeout t | .nviBrDataAccess t _ _
  | .softwareReset t _ _ | .restart t _ _ _ _ | .enterService t _ _ | .endAfterrun t _ _ | .keyOff t | .keyOn t
  | .afterrunEnd t | .arMax t | .wake t _ | .stop1s t | .aliveToggle t | .fltForceKey t _ _ | .fltForce t _ _
  | .forceDisarm t _ | .firstFaultClear t _ | .fltDisClear t _ _ | .diagDisabledClear t _ _ | .scrubStep t _
  | .memTestWriteCoded t _ _ _ | .memTestWriteRaw t _ _ _ | .memTestRead t _ _ _ | .pageWrite t _ _ | .posResidClr t _
  | .registerWrite t _ _ _ | .canBusError t _ _ | .imageHeaderRead t _ _ => t

/-- No work of a pass or of paging is due by the DTIME of a command stamped `t` (R91, R139): what the command finds is `s`
itself. Where some is due, the command finds what that work leaves, `s.due t` (Obligations.EveryCommandAnswers). -/
abbrev State.rests (s : State) (t : Ns) : Prop := (s.dev.pos.work.head?.all fun x => decide (s.now t < x.1)) = true

/-- A command completes: it answers a next state, and that state has a property, where no work of a pass is due first. -/
def Completes (i : Instr) (s : State) (P : State → Prop) : Prop :=
  ∃ s', exec i s = .next s' ∧ (s.rests (stampOf i) → P s')

/-! ### Frames -/

/-- The parts of the block that a frame names. The end of any command may touch TWP_EN, the three attention fields of
the two-wire port and the list of damaged bytes (R338, R361, R407), so that they belong to no part. -/
inductive Group where
  /-- Wheels, synchronisation, prediction. -/
  | pos
  /-- Yards, admission, standing events; loft and boxes. -/
  | adm | loft
  /-- Banks with their sequencers, boost, port injectors, coils, gates, diagnostics. -/
  | banks | bst | pfi | ign | gate | diag
  /-- Engines, converters, records, snapshots, timers, PIO machines. -/
  | calc | conv | recs | snap | tmu | pio
  /-- CAN controllers, rope, two-wire port, flash bridge with the loader. -/
  | can | rope | twp | nvi
  /-- Supervisor, fault unit, memory protection, selects of the access paths, memories. -/
  | sup | flt | memu | paths | mems
  deriving DecidableEq, Repr

/-- A part is in `s'` as it was in `s`. -/
def Group.same (g : Group) (s s' : State) : Prop :=
  let d := s.dev
  let d' := s'.dev
  match g with
  | .pos => d'.pos = d.pos
  | .adm => d'.adm = d.adm
  | .loft => d'.loft = d.loft
  | .banks => d'.banks = d.banks
  | .bst => d'.bst = d.bst
  | .pfi => d'.pfi = d.pfi
  | .ign => d'.ign = d.ign
  | .gate => d'.gate = d.gate
  | .diag => d'.diag = d.diag
  | .calc => d'.ce = d.ce ∧ d'.ces = d.ces
  | .conv => d'.cnv = d.cnv ∧ d'.cnvs = d.cnvs
  | .recs => d'.recm = d.recm
  | .snap => d'.snap = d.snap
  | .tmu => d'.tmu = d.tmu
  | .pio => d'.pio = d.pio ∧ d'.pios = d.pios
  | .can => d'.can = d.can
  | .rope => d'.rope = d.rope
  | .twp => ∃ v p q, d'.twp = { d.twp with attnEvt := v, attnPend := p, sentAt := q }
  | .nvi => ∃ x, d'.nvi = { d.nvi with twpEn := x }
  | .sup => d'.sup = d.sup
  | .flt => d'.flt = d.flt
  | .memu => ∃ x, d'.memu = { d.memu with errs := x }
  | .paths => d'.paths = d.paths
  | .mems => s'.mems = s.mems

/-- Between `s` and `s'` no part changes but those of a list, and neither the queue nor the fuses do. -/
def State.touches (s : State) (l : List Group) (s' : State) : Prop :=
  s'.pending = s.pending ∧ s'.fuses = s.fuses ∧ ∀ g : Group, g ∉ l → g.same s s'

/-! ### Memory and engines as claims name them -/

/-- What a command sees of memories and fuses. -/
def State.env (s : State) : Env := { mems := s.mems, fuses := s.fuses }

/-- The configured reaction of a contained source is to drive FAULT_N low and no more (R389). -/
abbrev State.onlyNoted (s : State) (src : Nat) : Prop := s.dev.flt.react.toList[src]? = some 1

/-- A contained source has been reported between `s` and `s'`: it is counted, and it is the first fault or merged into
it (R395 to R397). -/
def State.reported (s : State) (src : Fin 64) (s' : State) : Prop :=
  s'.dev.flt.cnt[src] = s.dev.flt.cnt[src] + 1 ∧ s'.dev.flt.valid = true ∧
    (s.dev.flt.valid = false → s'.dev.flt.source = src.val ∧ s'.dev.flt.merged = 0) ∧
    (s.dev.flt.valid = true → s'.dev.flt.source = s.dev.flt.source ∧ bit s'.dev.flt.merged src.val = true)

/-- The trigger entries of engine `k` whose kind is one of a list (R242). -/
def Dev.entriesOf (d : Dev) (k : Fin 8) (kinds : List Nat) : Nat :=
  ((List.range 32).filter fun i => kinds.contains (fld (d.trigWord k i) 0 3)).length

/-- No trigger of these kinds can find its engine's queue full (R244). -/
abbrev State.room (s : State) (kinds : List Nat) : Prop := ∀ k : Fin 8, s.dev.ce[k].queue.length + s.dev.entriesOf k kinds ≤ 16

/-- The invariant holds, and no stored bit is flipped. -/
abbrev State.clean (s : State) : Prop := s.Inv ∧ s.dev.memu.errs = [] ∧ s.dev.memu.deadTags = []

/-- Attributes of a slot. -/
def State.attr (s : State) (i : Nat) : SlotAttr := sget {} s.mems.attrs i

/-- Value of a slot. -/
def State.slot (s : State) (i : Nat) : W64 := s.mems.word (slotAddr i)

/-- Engine `k` is about to execute the operation word `w`, running or stepping. -/
abbrev State.engineAt (s : State) (k : Fin 8) (w : W64) : Prop :=
  (s.dev.ce[k].state = .running ∨ (s.dev.ce[k].state = .halted ∧ s.dev.ce[k].stepReq = true))
    ∧ s.dev.sup.mode.engines = true ∧ s.mems.word (8 * s.dev.ce[k].pc) = w

/-- The sequencer of bank `k` starts the step of the operation word `w` at DTIME `t`, before its commanded end (R176). -/
abbrev State.psqAt (s : State) (k : Fin 4) (t : Ns) (w : W64) : Prop :=
  let q := s.dev.banks[k].psq
  q.phase = .ready ∧ q.stepAt ≤ s.now t + 32 ∧ q.stepAt < q.te ∧ s.mems.word (profAddr k.val q.pc) = w

/-- Value and tag of a slot as engine `k` reads it: what it has staged itself comes first (R227, R228). -/
def State.operand (s : State) (k : Fin 8) (i : Nat) : W64 × Byte :=
  match s.dev.ce[k].pub.find? (·.1 == i) with
  | some x => (x.2.1, x.2.2)
  | none => if i < 16384 then (s.slot i, (s.attr i).tag) else (0, 0)

/-- Operand B: a slot, or with IMM the immediate, as a number or as a raw pattern (R231). -/
def State.operandB (s : State) (k : Fin 8) (raw : Bool) (w : W64) : W64 × Byte :=
  if opImm w then (immB raw w, 1) else s.operand k (opB w)

/-- Engine `k` may write a slot (R224, R225). -/
abbrev State.mayWrite (s : State) (k : Fin 8) (i : Nat) : Prop :=
  i < 16384 ∧ (s.attr i).writer.toNat = k.val ∧ (s.attr i).cls ≠ 1

/-- Engine `k` has written value `v` and tag `g` to slot `i` between `s` and `s'`: at once, or for an output slot into
its publish buffer (R227). WVIOL stays in the tag (R226). Every other byte, tag, class and writer is as before. -/
def State.wrote (s : State) (k : Fin 8) (i : Nat) (v : W64) (g : Byte) (s' : State) : Prop :=
  if (s.attr i).cls = 2 then s'.dev.ce[k].pub = stagePub i v g s.dev.ce[k].pub ∧ s'.mems = s.mems
  else s'.dev.ce[k].pub = s.dev.ce[k].pub ∧ s'.slot i = v
    ∧ s'.attr i = { s.attr i with tag := g ||| ((s.attr i).tag &&& 0x10) }
    ∧ (∀ a, a < slotAddr i ∨ slotAddr i + 8 ≤ a → s'.mems.byte a = s.mems.byte a)
    ∧ ∀ j, j ≠ i → s'.attr j = s.attr j

/-- A number in raw units of 2^-32, limited to the range of a slot (R229). -/
def slotNumber (x : Int) : W64 := BitVec.ofInt 64 (max (-(2 ^ 63)) (min (2 ^ 63 - 1) x))

/-- The range of a slot is left (R229). -/
def outOfRange (x : Int) : Bool := decide (x < -(2 ^ 63)) || decide (2 ^ 63 - 1 < x)

/-- `x / 2^32`, rounded to the nearest integer, ties upward (R229). -/
def round32 (x : Int) : Int := (x + 2 ^ 31) / 2 ^ 32

/-- Engine `k` has executed an operation whose result in raw units is `x`: DST holds it, limited to the range, with the
tag of the operands `ops`; PC is at the next operation; a saturation is flagged and counted (R226, R229). -/
def State.computed (s : State) (k : Fin 8) (w : W64) (ops : List Byte) (x : Int) (s' : State) : Prop :=
  s.wrote k (opDst w) (slotNumber x) (opTag ops (outOfRange x)) s' ∧ s'.dev.ce[k].pc = s.dev.ce[k].pc + 1
    ∧ s'.dev.ce[k].sat = (s.dev.ce[k].sat || outOfRange x)
    ∧ s'.dev.ce[k].sats = s.dev.ce[k].sats + (if outOfRange x then 1 else 0)

/-- The same for a result that is a raw pattern and cannot saturate (R229). -/
def State.computedRaw (s : State) (k : Fin 8) (w : W64) (ops : List Byte) (v : W64) (s' : State) : Prop :=
  s.wrote k (opDst w) v (opTag ops false) s' ∧ s'.dev.ce[k].pc = s.dev.ce[k].pc + 1
    ∧ s'.dev.ce[k].sat = s.dev.ce[k].sat ∧ s'.dev.ce[k].sats = s.dev.ce[k].sats

end Sys2Proof.Machine
end

