-- ==== Sys2Proof/Certificates/Slice0/Obligations.lean ====
section
/-! DEFINITION. The statements for the provers. -/

open Sys2Proof Sys2Proof.Machine

/-! ### The block -/

/-- A step runs the command at the front of the queue, with the rest of the queue left to wait. With no command waiting
a step changes nothing. A choice of the model: assumption 2. -/
def Obligations.StepRunsFront : Prop :=
  (∀ (c : Instr) (rest : List Instr) (s : State), s.pending = c :: rest → step s = exec c { s with pending := rest }) ∧
  (∀ s : State, s.pending = [] → step s = .next s)

/-- The invariant holds after reset; the memories list nothing, no command waits, and the image is still to be loaded.
-/
def Obligations.ResetInvariant : Prop :=
  State.reset.Inv ∧ State.reset.pending = [] ∧ State.reset.mems = {} ∧ State.reset.dev.sup.mode = .fill ∧
    State.reset.dev.nvi.phase = .header true ∧ State.reset.dev.pos.sync = .stopped ∧ State.reset.dev.flt.valid = false

/-- Every step keeps the invariant: memories in canonical form, every fault of the command acted on, every write made.
-/
def Obligations.StepKeepsInvariant : Prop :=
  ∀ s s' : State, s.Inv → step s = .next s' → s'.Inv

/-- No command is left without an effect, and none touches the queue of commands or the factory fuses (R2). Where work of
a pass or of paging is due by a command's DTIME, the command acts on the state that this work leaves (R91, R139): what the
other statements say of states in which none is due reaches every state in that way. -/
def Obligations.EveryCommandAnswers : Prop :=
  (∀ (c : Instr) (s : State), ∃ s', exec c s = .next s' ∧ s'.pending = s.pending ∧ s'.fuses = s.fuses ∧ s'.dev.settled) ∧
  (∀ (c : Instr) (s : State), (s.due (stampOf c)).rests (stampOf c) → exec c s = exec c (s.due (stampOf c)))

/-! ### Resets, modes, power -/

/-- R373, R383: a power-on or brown-out reset returns every block to its After POR values, DTIME to 0, and record memory
to zeros (the others follow with the hardware fill, R370); the cause is kept. Values for which the manual gives none are
the model's (assumption 3). R373: a pin reset, and a software reset with its key, return registers to their After POR
values and keep DTIME, the LOCKED latch with its cause, FLT_FIRST, and the rings for the log reader (R375). Memory
follows with the hardware fill. Without its key SUP_CMD does nothing but set CMD_IGN. -/
def Obligations.Resets : Prop :=
  (∀ (s : State) (t : Ns),
     let after (cause : Nat) (warn : Bool) (s' : State) : Prop :=
       (∃ f, s'.dev = { sup := { mode := .reset, filled := false, lastReset := cause, lastWarn := warn, vgdLow := s.dev.sup.vgdLow }
                        pios := { ext := s.dev.pios.ext }, snap := { inLevel := s.dev.snap.inLevel }, free := f }) ∧
       (∀ a, s'.mems.byte a = if recBase ≤ a ∧ a < msgBase then 0 else s.mems.byte a) ∧ s'.mems.attrs = s.mems.attrs ∧
       s'.pending = s.pending ∧ s'.fuses = s.fuses
     Completes (.powerOnReset t) s (after 0 false) ∧ Completes (.brownOutReset t) s (after 1 s.dev.sup.warn)) ∧
  (∀ (s : State) (t : Ns) (p : Path) (key : Byte), s.dev.sup.mode ≠ .reset →
     let after (cause : Nat) (s' : State) : Prop :=
       let d := s.dev
       let d' := s'.dev
       d'.dtime = s.now t ∧ d'.sup.mode = .reset ∧ d'.sup.filled = false ∧ d'.sup.lastReset = cause ∧
       d'.sup.lastWarn = d.sup.warn ∧ d'.sup.lastDtime = BitVec.ofNat 32 (s.now t) ∧ d'.sup.latch = d.sup.latch ∧
       d'.sup.lastFault = d.sup.lastFault ∧ d'.sup.key = false ∧
       (d.flt.valid = true → d'.flt.valid = true ∧ d'.flt.source = d.flt.source ∧ d'.flt.time = d.flt.time ∧ d'.flt.coord = d.flt.coord) ∧
       (d.flt.valid = false → d'.flt = {}) ∧ d'.flt.merged = 0 ∧
       d'.recm.stood = some (d.recm.stood.getD d.recm.rings) ∧
       d'.pos = {} ∧ d'.adm = {} ∧ d'.loft = {} ∧ d'.bst = {} ∧ d'.diag = {} ∧ d'.ces = {} ∧ d'.cnvs = {} ∧
       (∀ k : Fin 4, d'.banks[k] = {} ∧ d'.can[k] = {}) ∧ (∀ n : Fin 16, d'.pfi[n] = {} ∧ d'.ign[n] = {}) ∧
       (∀ k : Fin 8, d'.gate[k] = {} ∧ d'.ce[k] = {} ∧ d'.tmu[k] = {} ∧ d'.pio[k] = {}) ∧ (∀ c : Fin 2, d'.cnv[c] = {}) ∧
       s'.mems = s.mems ∧ s'.pending = s.pending ∧ s'.fuses = s.fuses
     Completes (.pinReset t) s (after 2) ∧
     (key = 0xC5 → (p = .twp → bit s.dev.sup.cfg 3 = true) → Completes (.softwareReset t p key) s (after 3)) ∧
     (s.dev.settled → key ≠ 0xC5 → Completes (.softwareReset t p key) s fun s' =>
       s'.dev.sup = { s.dev.sup with cmdIgn := true } ∧ s.touches [.sup, .paths] s'))

/-- R370, R343: the release of the reset samples the straps; a good boot header is kept for slot A, a bad one sends the
boot to slot B with its code in NVI_ERR. R405: the end of the hardware fill leaves zeros in every memory but record
memory, and R223's tags; the strapped addresses of the two-wire port are in force. R402: a checker that does not flag
its injected mismatch is fatal. -/
def Obligations.ReleaseAndFill : Prop :=
  (∀ (s : State) (t : Ns) (role a0 a1 : Bool) (boot : List Byte), s.dev.settled → s.dev.sup.mode = .reset →
    Completes (.resetRelease t role a0 a1 boot) s fun s' =>
      s'.dev.sup.mode = .fill ∧ s'.dev.sup.asel = BitVec.ofNat 2 (2 * a1.toNat + a0.toNat) ∧ s'.dev.rope.role = role ∧
      s'.dev.nvi.loadFrom = s.now t ∧ s.touches [.sup, .rope, .nvi] s' ∧
      ((bootCheck boot).code = 0 → s'.dev.nvi.phase = .header false ∧ s'.dev.nvi.bootHdr = boot ∧ s'.dev.nvi.slotB = s.dev.nvi.slotB) ∧
      ((bootCheck boot).code ≠ 0 → s'.dev.nvi.phase = .header true ∧ s'.dev.nvi.slotB = true ∧ s'.dev.nvi.fallback = true ∧
        s'.dev.nvi.errA = bootCheck boot) ∧
      (field boot 0 4 ≠ 0x31424E46 → s'.dev.nvi.errA.code = 1)) ∧
  (∀ (s : State) (t : Ns) (us : BitVec 16) (ext pf af : Bool), s.dev.settled → s.dev.sup.mode = .fill → s.dev.sup.filled = false →
    Completes (.hardwareFillEnd t us ext pf af) s fun s' =>
      (∀ a, a < sramSize → s'.mems.byte a = if recBase ≤ a ∧ a < msgBase then s.mems.byte a else 0) ∧
      s'.dev.sup.filled = true ∧ s'.dev.sup.lockUs = us ∧ s'.dev.sup.extClk = ext ∧
      s'.dev.twp.addr = put 0 7 (0x40 + s.dev.sup.asel.toNat) ||| 0x7F00 ||| put 16 7 (0x48 + s.dev.sup.asel.toNat) ||| 0xFF000000 ∧
      fld s'.dev.can[0].svc 0 29 = s.fuses.svcRxId.toNat ∧ fld s'.dev.can[0].svc 32 29 = s.fuses.svcTxId.toNat ∧
      (pf = true → af = true → s'.mems.attrs = [] ∧ s'.dev.sup.mode = .fill ∧
        s.touches [.sup, .nvi, .twp, .can, .mems] s') ∧
      (¬(pf = true ∧ af = true) → s'.dev.sup.mode = .locked ∧ s'.dev.sup.latch = true ∧ s'.dev.sup.lastFault = 5))

/-- R373: RESTART is accepted in SAFE alone, while FLT_FIRST is clear or the cause is IMAGE_INVALID. The memories but
record memory are refilled and the image is loaded again; DTIME, the mode and the timers go on, and of the position only
the last cycle number is kept (R28). Elsewhere CMD_IGN is set. R382: ENTER_SERVICE from WAIT_SYNC, STOPPED for one second, through a trusted path. Every event that has not begun
to execute ends; otherwise CMD_IGN is set and nothing else happens. -/
def Obligations.RestartAndService : Prop :=
  (∀ (s : State) (t : Ns) (p : Path), s.dev.settled → (p = .twp → bit s.dev.sup.cfg 3 = true) →
     (s.dev.sup.mode = .safe → s.dev.flt.valid = false ∨ s.dev.sup.safeCause = 2 →
       Completes (.restart t p 0xC5 true true) s fun s' =>
         (∀ a, a < sramSize → s'.mems.byte a = if recBase ≤ a ∧ a < msgBase then s.mems.byte a else 0) ∧ s'.mems.attrs = [] ∧
         s'.dev.dtime = s.now t ∧ s'.dev.sup.mode = .safe ∧ s'.dev.sup.safeCause = s.dev.sup.safeCause ∧ s'.dev.sup.lastReset = 4 ∧
         s'.dev.sup.lastDtime = BitVec.ofNat 32 (s.now t) ∧ s'.dev.nvi.phase = .header true ∧ s'.dev.nvi.isRestart = true ∧
         s'.dev.nvi.slotB = false ∧ (s.dev.pios.dir = 0 → s'.dev.tmu = s.dev.tmu) ∧
         (∀ u : Fin 8, s'.dev.tmu[u].cfg = s.dev.tmu[u].cfg ∧ s'.dev.tmu[u].running = s.dev.tmu[u].running) ∧
         s'.dev.pos = { keptCycle := if s.dev.pos.everSynced then some s.dev.pos.cycle else s.dev.pos.keptCycle } ∧
         s'.dev.loft = {} ∧ s'.dev.adm = {} ∧
         s'.dev.flt.valid = s.dev.flt.valid ∧ s'.dev.recm.stood = some (s.dev.recm.stood.getD s.dev.recm.rings)) ∧
     (s.dev.sup.mode ≠ .safe ∨ (s.dev.flt.valid = true ∧ s.dev.sup.safeCause ≠ 2) → ∀ pf af : Bool,
       Completes (.restart t p 0xC5 pf af) s fun s' =>
         s'.dev.sup = { s.dev.sup with cmdIgn := true } ∧ s.touches [.sup, .paths] s')) ∧
  (∀ (s : State) (t : Ns) (p : Path), s.clean → s.room [5] → (p = .twp → bit s.dev.sup.cfg 3 = true) →
     let may := s.dev.trusted p = true ∧ s.dev.pos.sync = .stopped ∧ s.dev.sup.stop1s = true ∧
       (s.dev.sup.mode = .waitSync ∨ (s.dev.sup.mode = .safe ∧ s.dev.nvi.valid = true ∧ s.dev.sup.safeCause ≠ 2))
     (may → Completes (.enterService t p 0xC5) s fun s' =>
       s'.dev.sup.mode = .service ∧ s'.dev.sup.prev = s.dev.sup.mode ∧ s'.dev.sup.safeCause = 0 ∧ s'.dev.pos = s.dev.pos ∧
       (∀ b : Fin 128, s'.dev.loft.boxes[b].state ≠ .armed ∧ s'.dev.loft.boxes[b].state ≠ .committed) ∧
       (∀ x ∈ s'.dev.loft.descrs, x.2.state ≠ .waiting) ∧ s'.mems = s.mems) ∧
     (¬may → Completes (.enterService t p 0xC5) s fun s' =>
       s'.dev.sup = { s.dev.sup with cmdIgn := true } ∧ s.touches [.sup, .paths] s'))

/-- R378, R368, R148: KEY_IN going off leads to AFTERRUN from the modes that run an engine or wait for one; every event
that waits, in the loft or in a box, ends with ENDED_MODE and reason 7; standing submissions that are owed or placed are
still decided (R108). In the other modes only the key's level is kept. R380: KEY_IN going on in AFTERRUN leads back to BASECAMP before full
service is ready, and to the mode of R366 afterwards; in a mode other than AFTERRUN and BIVOUAC only the key's level
changes. -/
def Obligations.KeyChanges : Prop :=
  (∀ (s : State) (t : Ns), s.clean → s.room [5] → s.dev.sup.key = true → s.dev.sup.mode ≠ .reset →
     let running := s.dev.sup.mode ∈ [Mode.basecamp, .waitSync, .crank, .run, .limp]
     Completes (.keyOff t) s fun s' =>
       s'.dev.sup.key = false ∧
       (running → s'.dev.sup.mode = .afterrun ∧ s'.dev.sup.prev = s.dev.sup.mode ∧ s'.dev.sup.afterrunAt = s.now t ∧
         s'.dev.sup.afterrunEnded = false ∧ s'.dev.adm = s.dev.adm ∧ s'.dev.pos = s.dev.pos ∧
         (∀ b : Fin 128, s.dev.loft.boxes[b].state = .armed ∨ s.dev.loft.boxes[b].state = .committed →
           s'.dev.loft.boxes[b].state = .closing ∧ ∃ x, s'.dev.loft.boxes[b].ending = some x ∧ x.result = .endedMode ∧
             x.reason = 7 ∧ x.unstarted = true ∧ x.time = s.now t) ∧
         (∀ x ∈ s.dev.loft.descrs, x.2.state = .waiting → ∃ y ∈ s'.dev.loft.descrs, y.1 = x.1 ∧ y.2.ev = x.2.ev ∧
           y.2.state = .ending ∧ y.2.ending.result = .endedMode ∧ y.2.ending.reason = 7 ∧ y.2.ending.unstarted = true)) ∧
       (¬running → s'.dev.sup = { s.dev.sup with key := false } ∧ s.touches [.sup] s')) ∧
  (∀ (s : State) (t : Ns), s.dev.settled → s.room [5] → s.dev.sup.key = false →
     (s.dev.sup.mode = .afterrun → s.dev.sup.ready = false → Completes (.keyOn t) s fun s' =>
       s'.dev.sup.mode = .basecamp ∧ s'.dev.sup.key = true ∧ s'.dev.sup.prev = .afterrun ∧ s'.dev.pos = s.dev.pos ∧
       s'.dev.loft = s.dev.loft ∧ s'.mems = s.mems) ∧
     (s.dev.sup.mode = .afterrun → s.dev.sup.ready = true → s.dev.nvi.held = [] → Completes (.keyOn t) s fun s' =>
       s'.dev.sup.mode = s.dev.syncMode ∧ s'.dev.sup.key = true ∧ s'.dev.sup.afterrunEnded = false ∧
       s'.dev.pos.sync = s.dev.pos.sync ∧ s'.dev.loft = s.dev.loft ∧ s'.mems = s.mems) ∧
     (s.dev.sup.mode ∉ [Mode.reset, .afterrun, .bivouac] → s.dev.sup.wokeAt ≠ some (s.now t) → Completes (.keyOn t) s fun s' =>
       s'.dev.sup.mode = s.dev.sup.mode ∧ s'.dev.sup.key = true ∧ s.touches [.sup] s'))

/-- R379: afterrun ends by command, by itself once nothing keeps it going, or after AR_MAX. Without BIV_EN HOLD_OUT is
let go and the mode stays; with it the device enters BIVOUAC: sync is lost, the PLL stops, DTIME goes on in steps of 25
ns, and the transmit queues are emptied. -/
def Obligations.AfterrunEnds : Prop :=
  ∀ (s : State) (t : Ns), s.clean → s.dev.sup.mode = .afterrun → s.dev.sup.afterrunEnded = false →
    let done (s' : State) : Prop :=
      (bit s.dev.sup.cfg 1 = false → s'.dev.sup = { s.dev.sup with afterrunEnded := true } ∧ s'.dev.holdOut = (s.dev.sup.key && s.dev.sup.filled) ∧
        s.touches [.sup, .paths] s') ∧
      (bit s.dev.sup.cfg 1 = true → s'.dev.sup.mode = .bivouac ∧ s'.dev.sup.pllLock = false ∧ s'.dev.sup.dstep = 25 ∧
        s'.dev.pos.sync = .stopped ∧ (∀ k : Fin 4, s'.dev.can[k].txq = []) ∧ (∀ k : Fin 8, s'.dev.ce[k].state = .idle) ∧
        (∀ c : Fin 2, s'.dev.cnv[c].scanning = false) ∧ (∀ k : Fin 8, s'.dev.tmu[k] = s.dev.tmu[k]))
    (∀ p : Path, (p = .twp → bit s.dev.sup.cfg 3 = true) → Completes (.endAfterrun t p 0xC5) s done) ∧
    ((s.dev.at t).afterrunIdle s.env = true → Completes (.afterrunEnd t) s done) ∧
    (s.dev.sup.afterrunAt + fld s.dev.sup.cfg 16 16 * 1000000000 ≤ s.now t → Completes (.arMax t) s done)

/-- R381, R308: a wake source that is enabled leads from BIVOUAC to WAIT_SYNC, with EARLY_INIT applied again and the
source recorded; DTIME goes on in steps of 1 ns. A source that is not enabled does not wake. R382: STOP_1S is set once
POS_SYNC has been STOPPED for one second. R399: ALIVE toggles while the supervisor lets it. R401: the arming of a path
ends. Nothing else changes. -/
def Obligations.WakesAndTimers : Prop :=
  (∀ (s : State) (t : Ns), s.dev.settled → s.dev.sup.mode = .bivouac → s.room [5] → s.dev.nvi.earlyRecs = [] →
     let woken (src : BitVec 4) (s' : State) : Prop :=
       s'.dev.sup.mode = .waitSync ∧ s'.dev.sup.wakeSrc = src ∧ s'.dev.sup.wakes = s.dev.sup.wakes + 1 ∧
       s'.dev.sup.pllLock = true ∧ s'.dev.sup.dstep = 1 ∧ s'.dev.pos = s.dev.pos ∧ s'.dev.tmu = s.dev.tmu ∧ s'.mems = s.mems
     (∀ rising : Bool, bit s.dev.sup.wake 0 = true → bit s.dev.sup.wake 1 = rising → Completes (.wake t [.wakeIn rising]) s (woken 4)) ∧
     (∀ rising : Bool, bit s.dev.sup.wake 0 = false ∨ bit s.dev.sup.wake 1 ≠ rising → Completes (.wake t [.wakeIn rising]) s fun s' =>
       s'.dev.sup.mode = .bivouac ∧ s.touches [.sup] s') ∧
     (s.dev.sup.key = false → bit s.dev.sup.wake 2 = true → Completes (.wake t [.keyIn]) s fun s' =>
       woken 8 s' ∧ s'.dev.sup.key = true) ∧
     (s.dev.sup.key = false → bit s.dev.sup.wake 2 = true → Completes (.keyOn t) s fun s' => woken 8 s' ∧ s'.dev.sup.key = true) ∧
     (∀ (k : Fin 4) (ide : Bool) (id : BitVec 29), bit s.dev.can[k].wake 30 = true → bit s.dev.can[k].wake 29 = ide →
       (id ^^^ BitVec.ofNat 29 (fld s.dev.can[k].wake 0 29)) &&& BitVec.ofNat 29 (fld s.dev.can[k].wake 32 29) = 0 →
       Completes (.canWakeMatch t k ide id) s (woken 1))) ∧
  (∀ (s : State) (t : Ns), s.dev.settled →
     (s.dev.pos.sync = .stopped → s.dev.sup.stoppedAt + 1000000000 ≤ s.now t → Completes (.stop1s t) s fun s' =>
       s'.dev.sup = { s.dev.sup with stop1s := true } ∧ s.touches [.sup] s') ∧
     (Completes (.aliveToggle t) s fun s' =>
       s'.dev.sup = { s.dev.sup with alive := s.dev.sup.aliveRun && !s.dev.sup.alive } ∧ s.touches [.sup] s') ∧
     (∀ p : Path, Completes (.forceDisarm t p) s fun s' => (s'.dev.ctx p).armedAt = none ∧
       (∀ q, q ≠ p → s'.dev.ctx q = s.dev.ctx q) ∧ s.touches [.paths] s'))

/-- R384, R385: the power warning stops the converters, puts the last-gasp frame at the queue of GASP_CAN where GASP_EN
is set, and is a BOR_WARN fault, whose reaction is always end all: SAFE with cause FAULT. Recovery is a software reset
with PWR_CFG.AUTO_REST, else the converters go on. R421: an undervoltage of VGD leaves every gate that is on without
effect until its next on edge; the recovery lifts that for later edges only. -/
def Obligations.Power : Prop :=
  ∀ (s : State) (t : Ns), s.dev.settled → s.dev.memu.errs = [] →
    (s.dev.sup.warn = false → s.dev.flt.react.toList[9]? = some 5 → Completes (.borWarning t) s fun s' =>
      s'.dev.sup.warn = true ∧ s'.dev.sup.warnSeen = true ∧ (∀ c : Fin 2, s'.dev.cnv[c].scanning = false ∧ s'.dev.cnv[c].urgQ = []) ∧
      s.reported 9 s' ∧
      (s.dev.sup.mode ≠ .safe → s.dev.sup.mode ≠ .locked → s'.dev.sup.mode = .safe ∧ s'.dev.sup.safeCause = 1 ∧ s'.dev.sup.lastFault = 9) ∧
      (let k : Fin 4 := Fin.ofNat 4 (fld s.dev.sup.pwrCfg 1 2)
       bit s.dev.sup.pwrCfg 0 = true → s.dev.can[k].busOff = false → ∃ x ∈ s'.dev.can[k].txq, x.src = .gasp ∧ x.at_ = s.now t ∧
        x.frame.format = .fd ∧ x.frame.id = BitVec.ofNat 29 (fld s.dev.sup.pwrCfg 32 29) ∧
        x.frame.data[2]? = some (BitVec.ofNat 8 s.dev.sup.mode.code))) ∧
    (s.dev.sup.warn = true → bit s.dev.sup.pwrCfg 4 = true → s.dev.sup.mode ≠ .reset → Completes (.vsupRecovery t) s fun s' =>
      s'.dev.sup.mode = .reset ∧ s'.dev.sup.lastReset = 3 ∧ s'.dev.sup.lastWarn = true ∧ s'.dev.dtime = s.now t ∧ s'.mems = s.mems) ∧
    (s.dev.sup.warn = true → bit s.dev.sup.pwrCfg 4 = false → Completes (.vsupRecovery t) s fun s' =>
      s'.dev.sup = { s.dev.sup with warn := false } ∧ s.touches [.sup, .conv] s' ∧
      (s.dev.sup.mode.converters = true → ∀ c : Fin 2, s'.dev.cnv[c] = s.dev.cnv[c].restart true (s.now t) 0)) ∧
    (Completes (.vgdUndervoltage t) s fun s' =>
      s'.dev.sup = { s.dev.sup with vgdLow := true } ∧
      (∀ k : Fin 4, s'.dev.banks[k].hsb.blocked = (s.dev.banks[k].hsb.blocked || s.dev.banks[k].hsb.on) ∧
        s'.dev.banks[k].hsv.blocked = (s.dev.banks[k].hsv.blocked || s.dev.banks[k].hsv.on) ∧ s'.dev.banks[k].owner = s.dev.banks[k].owner) ∧
      (∀ n : Fin 16, s'.dev.pfi[n].pin.blocked = (s.dev.pfi[n].pin.blocked || s.dev.pfi[n].pin.on)) ∧
      s.touches [.sup, .banks, .bst, .pfi, .ign] s') ∧
    (Completes (.vgdRecovery t) s fun s' => s'.dev.sup = { s.dev.sup with vgdLow := false } ∧ s.touches [.sup] s')

/-! ### Faults and memory protection -/

/-- R27, R391, R392, R402: the loss of a clock, a lockstep mismatch and a VCORE failure are fatal: every gate driver is
off, the boost held, the LOCKED latch set with its source, the mode LOCKED, the fault captured if it is the first. In
every mode, LOCKED among them, each of the four commands completes with its own effect: the clock's status and the step
of DTIME, or VCORE's status, and the fault is counted and captured or merged. -/
def Obligations.FatalFaults : Prop :=
  (∀ (s : State) (t : Ns), s.dev.settled → s.rests t →
    let told (src : Fin 64) (s' : State) : Prop := s'.dev.dtime = s.now t ∧ s.reported src s' ∧ s'.dev.sup.mode = .locked
    (∃ s', exec (.clkXtalLost t) s = .next s' ∧ s'.dev.sup.refOk = false ∧ s'.dev.sup.dstep = 125 ∧ told 1 s') ∧
    (∃ s', exec (.clkPllLost t) s = .next s' ∧ s'.dev.sup.pllLock = false ∧
      s'.dev.sup.dstep = (if s.dev.sup.refOk then 25 else s.dev.sup.dstep) ∧ told 2 s') ∧
    (∃ s', exec (.lockstepMismatch t .pos) s = .next s' ∧ told 3 s') ∧
    (∃ s', exec (.lockstepMismatch t .adm) s = .next s' ∧ told 4 s') ∧
    (∃ s', exec (.supVcore t) s = .next s' ∧ s'.dev.sup.vcoreOk = false ∧ told 8 s')) ∧
  ∀ (s : State) (t : Ns), s.dev.settled → s.dev.sup.mode ≠ .locked →
    let fatal (src : Nat) (s' : State) : Prop :=
      s'.dev.sup.mode = .locked ∧ s'.dev.sup.latch = true ∧ s'.dev.sup.lastFault = BitVec.ofNat 8 src ∧
      s'.dev.flt.valid = true ∧ (s.dev.flt.valid = false → s'.dev.flt.source = src ∧ s'.dev.flt.time = s.now t) ∧
      (∀ k : Fin 4, s'.dev.banks[k].sw = .decay ∧ s'.dev.banks[k].owner = .none ∧ s'.dev.banks[k].hsb.on = false ∧
        s'.dev.banks[k].hsv.on = false) ∧
      s'.dev.bst.held = true ∧ s'.dev.bst.pin.on = false ∧ (∀ k : Fin 8, s'.dev.ce[k].state = .idle) ∧
      (∀ b : Fin 128, s'.dev.loft.boxes[b].state ≠ .armed ∧ s'.dev.loft.boxes[b].state ≠ .committed)
    Completes (.clkXtalLost t) s (fun s' => fatal 1 s' ∧ s'.dev.sup.refOk = false ∧ s'.dev.sup.dstep = 125) ∧
    Completes (.clkPllLost t) s (fun s' => fatal 2 s' ∧ s'.dev.sup.pllLock = false) ∧
    Completes (.lockstepMismatch t .pos) s (fatal 3) ∧ Completes (.lockstepMismatch t .adm) s (fatal 4) ∧
    Completes (.supVcore t) s (fun s' => fatal 8 s' ∧ s'.dev.sup.vcoreOk = false)

/-- R401: FLT_FORCE_KEY with its key arms the path, any other value disarms it; FLT_FORCE in SERVICE through an armed
path raises the sources it names, else it is ignored and flagged; either way the arming is used up. R398: VALID written
1 clears the first fault, but not in LOCKED. R389: bits of FLT_DIS written 1 re-enable. Each of the four commands
completes with its own effect, first of all: FLT_FORCE counts every source that its value names (shown for values whose
sources' reactions are to note the fault, R389, R394). -/
def Obligations.FaultControl : Prop :=
  (∀ (s : State) (t : Ns) (p : Path) (v : W64), s.dev.settled → s.rests t →
    (∃ s', exec (.fltForceKey t p v) s = .next s' ∧
      (s'.dev.ctx p).armedAt = (if fld v 0 16 = 0xA5C3 then some (s.now t) else none)) ∧
    (s.dev.sup.mode = .service → (∃ a, (s.dev.ctx p).armedAt = some a ∧ s.now t < a + 100000) →
      (∀ i, 1 ≤ i → i < 28 → bit v i = true → 26 ≤ i ∨ (9 ≤ i ∧ i ≠ 11 ∧ s.onlyNoted i)) →
      ∃ s', exec (.fltForce t p v) s = .next s' ∧ (s'.dev.ctx p).armedAt = none ∧ s'.dev.sup = s.dev.sup ∧
        ∀ i : Fin 64, s'.dev.flt.cnt[i] =
          if 1 ≤ i.val ∧ i.val < 28 ∧ bit v i.val = true then s.dev.flt.cnt[i] + 1 else s.dev.flt.cnt[i]) ∧
    (s.dev.sup.mode ≠ .locked → ∃ s', exec (.firstFaultClear t p) s = .next s' ∧ s'.dev.flt.valid = false ∧ s'.dev.flt.merged = 0) ∧
    (∃ s', exec (.fltDisClear t p v) s = .next s' ∧ s'.dev.flt.dis = s.dev.flt.dis &&& ~~~v)) ∧
  ∀ (s : State) (t : Ns) (p : Path) (v : W64), s.dev.settled →
    (Completes (.fltForceKey t p v) s fun s' =>
      (s'.dev.ctx p).armedAt = (if fld v 0 16 = 0xA5C3 then some (s.now t) else none) ∧ s.touches [.paths] s') ∧
    (¬(s.dev.sup.mode = .service ∧ ∃ a, (s.dev.ctx p).armedAt = some a ∧ s.now t < a + 100000) → Completes (.fltForce t p v) s fun s' =>
      s'.dev.flt = { s.dev.flt with cfgIgn := true } ∧ (s'.dev.ctx p).armedAt = none ∧ s.touches [.flt, .paths] s') ∧
    (∀ a, s.dev.sup.mode = .service → (s.dev.ctx p).armedAt = some a → s.now t < a + 100000 → s.onlyNoted 14 →
      Completes (.fltForce t p 0x4000) s fun s' => s.reported 14 s' ∧ (s'.dev.ctx p).armedAt = none ∧
        (s.dev.flt.valid = false → s'.dev.flt.forced = true) ∧ s'.dev.sup = s.dev.sup ∧ s.touches [.flt, .paths, .recs, .snap] s') ∧
    (s.dev.sup.mode ≠ .locked → Completes (.firstFaultClear t p) s fun s' =>
      s'.dev.flt.valid = false ∧ s'.dev.flt.source = 0 ∧ s'.dev.flt.merged = 0 ∧ s'.dev.flt.mergeCnt = 0 ∧
      s'.dev.flt.cnt = s.dev.flt.cnt ∧ s'.dev.flt.dis = s.dev.flt.dis ∧ s.touches [.flt, .paths] s') ∧
    (s.dev.sup.mode = .locked → Completes (.firstFaultClear t p) s fun s' =>
      s'.dev.flt = { s.dev.flt with cfgIgn := true } ∧ s.touches [.flt, .paths] s') ∧
    (Completes (.fltDisClear t p v) s fun s' =>
      s'.dev.flt.dis = s.dev.flt.dis &&& ~~~v ∧ s'.dev.flt.valid = s.dev.flt.valid ∧ s'.dev.flt.cnt = s.dev.flt.cnt ∧
      s.touches [.flt, .paths] s')

/-- R406, R404: the scrubber reads one word in every bank; a word with one wrong bit is counted, written back and
reported as MEM_CE; every bank goes on to its next word, and the last word ends a pass. R409: the test words of memory
protection take a coded or a raw write, and a read of an undamaged word delivers it with status 0; outside SERVICE a
test is ignored and flagged. -/
def Obligations.MemoryProtection : Prop :=
  (∀ (s : State) (t : Ns), s.clean → s.dev.sup.filled = true → Completes (.scrubStep t []) s fun s' =>
    (∀ b : Fin 17, s'.dev.memu.banks[b] = (let m := s.dev.memu.banks[b]
      if m.idx + 1 < (bankWords[b.val]?).getD 1 then { m with idx := m.idx + 1 } else { m with idx := 0, passes := m.passes + 1 })) ∧
    s'.dev.memu.errs = [] ∧ s'.dev.memu.ce = s.dev.memu.ce ∧ s.touches [.memu] s') ∧
  (∀ (s : State) (t : Ns) (u : Upset), s.clean → s.dev.sup.filled = true → popcount u.flips.toNat 13 = 1 →
    u.word = s.dev.memu.banks[u.bank].idx → Completes (.scrubStep t [u]) s fun s' =>
    s'.dev.memu.errs = [] ∧ s'.dev.memu.ce = s.dev.memu.ce + 1 ∧ s'.dev.memu.ue = s.dev.memu.ue ∧
    s'.dev.memu.banks[u.bank].ce = s.dev.memu.banks[u.bank].ce + 1 ∧ s'.dev.flt.cnt[(27 : Fin 64)] = s.dev.flt.cnt[(27 : Fin 64)] + 1 ∧
    s'.dev.flt.valid = s.dev.flt.valid ∧ s'.mems = s.mems) ∧
  (∀ (s : State) (t : Ns) (p : Path) (w : Fin 16) (flip : Bool), s.dev.settled → s.dev.sup.mode = .service →
    (Completes (.memTestWriteRaw t p w flip) s fun s' =>
      s'.dev.memu.test[w] = { d0 := s.dev.memu.d0, d1 := s.dev.memu.d1, c0 := s.dev.memu.c0, c1 := s.dev.memu.c1 } ∧
      (∀ j, j ≠ w → s'.dev.memu.test[j] = s.dev.memu.test[j]) ∧ s.touches [.memu, .paths] s') ∧
    (Completes (.memTestWriteCoded t p w flip) s fun s' =>
      s'.dev.memu.test[w].d0 = s.dev.memu.d0 ∧ s'.dev.memu.test[w].d1 = s.dev.memu.d1 ∧
      (∀ j : Fin 16, s'.dev.memu.test[w].chk j.val = checkBits (s'.dev.memu.test[w].byte j.val) (wordParity w.val)) ∧
      s.touches [.memu, .paths] s') ∧
    ((∀ j : Fin 16, s.dev.memu.test[w].chk j.val = checkBits (s.dev.memu.test[w].byte j.val) (wordParity w.val)) →
      Completes (.memTestRead t p w false) s fun s' =>
        s'.dev.memu.d0 = s.dev.memu.test[w].d0 ∧ s'.dev.memu.d1 = s.dev.memu.test[w].d1 ∧ s'.dev.memu.res = 0 ∧
        s'.dev.memu.syn0 = 0 ∧ s'.dev.memu.syn1 = 0 ∧ s'.dev.memu.test = s.dev.memu.test ∧ s.touches [.memu, .paths] s')) ∧
  (∀ (s : State) (t : Ns) (p : Path) (w : Fin 16) (flip : Bool), s.dev.settled → s.dev.sup.mode ≠ .service →
    ∀ i ∈ ([.memTestWriteCoded t p w flip, .memTestWriteRaw t p w flip, .memTestRead t p w flip] : List Instr),
      Completes i s fun s' => s'.dev.memu.cfgIgn = true ∧ s'.dev.memu.test = s.dev.memu.test ∧ s.touches [.memu, .paths] s')

/-! ### The loader -/

/-- R346 to R351: an image header that passes its checks is kept and its sections are awaited; one that fails sends the
boot to slot B with its code in NVI_ERR_A, or, from slot B, to SAFE with cause IMAGE_INVALID. -/
def Obligations.ImageHeader : Prop :=
  ∀ (s : State) (t : Ns) (boot header : List Byte) (probe : Bool), s.clean → s.dev.nvi.phase = .header probe →
    s.dev.sup.filled = true → s.dev.sup.mode = .fill → (probe = true → (bootCheck boot).code = 0) →
    Completes (.imageHeaderRead t boot header) s fun s' =>
      let y := headerCheck s.fuses header
      let n := s'.dev.nvi
      (field header 0 4 ≠ 0x31494E46 ∨ byteAt header 4 ≠ 1 ∨ field header 16 2 ≠ 0x1680 → y.code = 4) ∧
      (y.code = 0 → n.phase = .early ∧ n.header = header ∧ n.lastId = 0 ∧ s.touches [.nvi] s' ∧
        n.sigDone = (!secPresent header 1 || (s.fuses.keyHash.isNone && !s.fuses.sigReq))) ∧
      (y.code ≠ 0 → s.dev.nvi.slotB = false → n.phase = .header true ∧ n.slotB = true ∧ n.fallback = true ∧ n.errA = y ∧
        s.touches [.nvi] s') ∧
      (y.code ≠ 0 → s.dev.nvi.slotB = true → s.dev.sup.latch = false → n.phase = .failed ∧ n.errB = y ∧ n.errA = s.dev.nvi.errA ∧
        s'.dev.sup.mode = .safe ∧ s'.dev.sup.safeCause = 2)

/-- R349: a section is used once its CRC, and its digest but for SIGNATURE, have matched; a mismatch fails the slot with
code 10 or 11. Shown for SIGNATURE, PIO_PROG and, in the latch, for every section that R374 leaves unused. R350: the
hash of the key is compared with the fuses, then the signature is verified over the header; a part without a key hash
refuses. -/
def Obligations.Sections : Prop :=
  (∀ (s : State) (t : Ns) (x : FlashSection), s.clean → s.dev.loading = true → s.dev.sup.filled = true → s.dev.nvi.slotB = false →
     nextId s.dev.nvi.header s.dev.nvi.lastId = some x.id → 8 * x.payload.length = secLen s.dev.nvi.header x.id →
     s.dev.nvi.phase = (if x.id ≤ 3 then .early else .stream) →
     let bytes := wordsBytes x.payload
     let good := Config.sha256 bytes = secDigest s.dev.nvi.header x.id
     (crc32 bytes ≠ x.crc → Completes (.sectionLoaded t x) s fun s' =>
       s'.dev.nvi.phase = .header true ∧ s'.dev.nvi.slotB = true ∧ s'.dev.nvi.errA = { code := 10, section_ := x.id }) ∧
     (crc32 bytes = x.crc → x.id = 1 → x.payload.length = 16 → Completes (.sectionLoaded t x) s fun s' =>
       s'.dev.nvi.sig = bytes ∧ s'.dev.nvi.lastId = 1 ∧ s'.dev.nvi.phase = .early ∧ s.touches [.nvi] s') ∧
     (crc32 bytes = x.crc → x.id = 12 → s.dev.sup.latch = false → ∀ l, parsePio x.payload = .ok l →
       Completes (.sectionLoaded t x) s fun s' =>
         (good → s'.dev.nvi.lastId = 12 ∧ s.touches [.nvi, .pio] s' ∧ s'.dev.pio = s.dev.pio ∧
           s'.dev.pios.areas = l.foldl (fun v y => upd v (Fin.ofNat 8 y.1) fun _ => y.2) s.dev.pios.areas) ∧
         (¬good → s'.dev.nvi.errA = { code := 11, section_ := 12 } ∧ s'.dev.nvi.slotB = true)) ∧
     (crc32 bytes = x.crc → x.id ∈ [4, 5, 6, 7, 8, 9, 10, 12, 13] → s.dev.sup.latch = true → Completes (.sectionLoaded t x) s fun s' =>
       (good → s'.dev.nvi.lastId = x.id ∧ s.touches [.nvi] s') ∧ (¬good → s'.dev.nvi.errA = { code := 11, section_ := x.id }))) ∧
  (∀ (s : State) (t : Ns), s.clean → s.dev.nvi.phase = .early → s.dev.nvi.lastId ∈ [1, 2] → s.dev.nvi.sigDone = false →
     secPresent s.dev.nvi.header 1 = true → s.dev.sup.mode = .fill → s.dev.sup.filled = true → s.dev.nvi.slotB = false →
     Completes (.signatureVerified t) s fun s' =>
       let key := s.dev.nvi.sig.take 64
       let refused (code : Nat) : Prop := s'.dev.nvi.phase = .header true ∧ s'.dev.nvi.slotB = true ∧ s'.dev.nvi.signed = false ∧
         s'.dev.nvi.errA = { code := code, section_ := 1 }
       (s.fuses.keyHash = none → refused 8) ∧
       (∀ hash, s.fuses.keyHash = some hash →
         (Config.sha256 key ≠ hash → refused 8) ∧
         (Config.sha256 key = hash → Config.ecdsaVerify key ((s.dev.nvi.sig.drop 64).take 64) (s.dev.nvi.header.take 712) = false →
           refused 9) ∧
         (Config.sha256 key = hash → Config.ecdsaVerify key ((s.dev.nvi.sig.drop 64).take 64) (s.dev.nvi.header.take 712) = true →
           s'.dev.nvi.phase = .early ∧ s'.dev.nvi.sigDone = true ∧ s'.dev.nvi.signed = true ∧ s.touches [.nvi] s')))

/-- R353: once a record's DELAY is over the next one is applied; a REG_INIT write to pages 0x08 to 0x18 is held for the
handover, without its RO and W1C bits; its own DELAY is awaited in turn. After the last record the device is ready for
full service (R359). R359: finalisation makes the checks that span sections, then puts the slot records into slot memory
and applies the register records; a failed check sends the boot to slot B, and what the image had put into the memories
is gone. -/
def Obligations.RecordsAndFinalisation : Prop :=
  (∀ (s : State) (t : Ns) (r : InitRec) (l : List InitRec), s.dev.settled → s.dev.nvi.phase = .applyInit → s.dev.loading = true →
     (s.now t < s.dev.nvi.dueAt → Completes (.initRecordDelay t) s (s.touches [])) ∧
     (s.dev.nvi.dueAt ≤ s.now t → s.dev.nvi.queue = r :: l → r.delay ≠ 0 → heldPage (r.addr.toNat / 256) = true →
       r.addr.toNat % 256 ≠ 0xF8 → Completes (.initRecordDelay t) s fun s' =>
         s'.dev.nvi.held = s.dev.nvi.held ++ [{ r with value := r.masked }] ∧ s'.dev.nvi.queue = l ∧
         s'.dev.nvi.dueAt = s.now t + 1000 * r.delay ∧ s'.dev.nvi.phase = .applyInit ∧ s.touches [.nvi] s') ∧
     (s.dev.nvi.dueAt ≤ s.now t → s.dev.nvi.queue = [] → s.dev.sup.latch = false → s.dev.sup.mode = .afterrun →
       s.dev.recm.stood = none → Completes (.initRecordDelay t) s fun s' =>
         s'.dev.nvi.phase = .done ∧ s'.dev.sup.ready = true ∧ s'.dev.sup.mode = .afterrun ∧
         s'.dev.nvi.tReady = BitVec.ofNat 32 ((s.now t - s.dev.nvi.loadFrom) / 1000) ∧ s.touches [.nvi, .sup] s')) ∧
  (∀ (s : State) (t : Ns), s.clean → s.dev.nvi.phase = .stream → s.dev.loading = true → s.dev.sup.latch = false →
     nextId s.dev.nvi.header s.dev.nvi.lastId = none →
     let x := (s.dev.at t).trialInit s.env
     (x.2.spanChecks x.1 = none → s.dev.nvi.tmuRecs = [] → s.dev.nvi.regRecs = [] → s.dev.recm.stood = none →
       (s.dev.sup.mode = .afterrun ∨ s.dev.pos.sync = .full) → Completes (.finalisation t) s fun s' =>
         s'.mems = s.dev.nvi.slotOps.foldl (fun m w => w.apply m) s.mems ∧ s'.dev.nvi.phase = .done ∧ s'.dev.sup.ready = true ∧
         s'.dev.sup.mode = s.dev.sup.mode ∧ s.touches [.nvi, .sup, .mems] s') ∧
     (∀ y, x.2.spanChecks x.1 = some y → s.dev.nvi.slotB = false → s.room [4] → Completes (.finalisation t) s fun s' =>
       s'.dev.nvi.errA = y ∧ s'.dev.nvi.phase = .header true ∧ s'.dev.nvi.slotB = true ∧ s'.dev.sup.ready = false ∧
       s'.dev.sup.templates = [] ∧ s'.dev.pos.wheel = {} ∧ s'.dev.pos.sync = .stopped ∧ s'.dev.sup.mode = s.dev.sup.mode ∧
       (∀ a, a < sramSize → s'.mems.byte a = if recBase ≤ a ∧ a < msgBase then s.mems.byte a else 0) ∧ s'.mems.attrs = []))

/-! ### Position -/

/-- R38, R39, R48 to R52, R60: an edge at CRK_0 in Hall mode, the only crank input in use, without relay. Too short a
level is dropped; the transition that EDGE does not select counts nothing; a selected one counts, and leads from STOPPED
to COUNTING, times an interval in COUNTING, moves a known position on by one tooth where its band holds the interval,
and otherwise loses sync. R39, R91: the accepted tooth is received 40 ns and FILT samples after its edge, and its pass
begins 28 ns later. Noise moves nothing. Cams are not in play: none may cause a loss; the pass of an earlier tooth is
over. -/
def Obligations.CrankEdge : Prop :=
  ∀ (s : State) (t : Ns) (x : WheelEdge), s.Inv → s.dev.sup.mode.decodes = true → s.dev.sup.mode ≠ .basecamp → x.input = 0 → s.dev.pos.active = 0 →
    fld s.dev.pos.inputs[(0 : Fin 6)].cfg 0 2 = 2 → s.dev.pos.dualMode = 0 → s.dev.synthetic = false → bit s.dev.rope.cfg 2 = false →
    s.dev.pos.wheel.crkPos ≠ 0 → (∀ (c : Nat) (tb : CamTable), s.dev.pos.wheel.cam c = some tb → tb.loss = false) →
    s.dev.pos.work = [] →
    let p := s.dev.pos
    let tD := max (x.stamp + (40 + 4 * fld p.inputs[(0 : Fin 6)].cfg 4 8)) p.passEnd
    let i := p.inputs[(0 : Fin 6)]
    let taken := fld i.cfg 4 8 ≤ x.samples ∧ (fld i.cfg 2 2 = 2 ∨ (fld i.cfg 2 2 = 0 ∧ x.rising = true) ∨ (fld i.cfg 2 2 = 1 ∧ x.rising = false))
    let counted (s' : State) : Prop := s'.dev.pos.inputs[(0 : Fin 6)].edges = i.edges + 1 ∧ s'.dev.pos.inputs[(0 : Fin 6)].last = x.stamp
    let noise (s' : State) : Prop := counted s' ∧ s'.dev.pos.inputs[(0 : Fin 6)].noise = i.noise + 1 ∧ s'.dev.pos.sync = p.sync ∧
      s'.dev.pos.absPos = p.absPos ∧ s'.dev.pos.lastTooth = p.lastTooth
    let lost (cause : Nat) (s' : State) : Prop := counted s' ∧ s'.dev.pos.sync = .counting ∧ s'.dev.pos.lossCause = BitVec.ofNat 4 cause ∧
      s'.dev.pos.lossCount = p.lossCount + 1 ∧ s'.dev.pos.lossSeen = true ∧ s'.dev.pos.lastTooth = some x.stamp
    (x.samples < fld i.cfg 4 8 → Completes (.crankEdge t x) s (s.touches [])) ∧
    (fld i.cfg 4 8 ≤ x.samples → ¬taken → Completes (.crankEdge t x) s fun s' =>
      s'.dev.pos.inputs[(0 : Fin 6)] = { i with level := x.rising } ∧ s.touches [.pos] s') ∧
    (taken → p.sync = .stopped → Completes (.crankEdge t x) s fun s' => counted s' ∧ s'.dev.pos.sync = .counting ∧
      s'.dev.pos.lastTooth = some x.stamp ∧ s'.dev.pos.lastIntv = none ∧ s'.dev.pos.lossCount = p.lossCount) ∧
    (taken → p.sync = .counting → ∀ a, p.lastTooth = some a → x.stamp < a + 4000 → a ≤ x.stamp →
      Completes (.crankEdge t x) s noise) ∧
    (taken → p.sync = .counting → p.lastIntv = none → p.refEdge = false → ∀ a, p.lastTooth = some a → a + 4000 ≤ x.stamp →
      Completes (.crankEdge t x) s fun s' => counted s' ∧ s'.dev.pos.sync = .counting ∧ s'.dev.pos.lastTooth = some x.stamp ∧
        s'.dev.pos.lastIntv = some (x.stamp - a, 2 ^ 24)) ∧
    (taken → p.sync = .full → p.rev = false → ∀ a, p.lastTooth = some a → a + 4000 ≤ x.stamp →
      let j := p.wheel.next p.absPos
      let n := x.stamp - a
      let t1 := p.t1 j
      let band := p.bandOf (p.wheel.tooth j)
      (qBelow n t1 p.noiseLim = true → Completes (.crankEdge t x) s noise) ∧
      (qBelow n t1 p.noiseLim = false → qIn n t1 band.1 band.2 = true → p.bandBroken j x.stamp = false →
        Completes (.crankEdge t x) s fun s' => counted s' ∧ s'.dev.pos.sync = .full ∧ s'.dev.pos.absPos = j ∧
          s'.dev.pos.lastTooth = some x.stamp ∧ s'.dev.pos.nkPosn = p.wheel.entry j ∧ s'.dev.pos.lossCount = p.lossCount ∧
          s'.dev.pos.passEnd = tD + 28 ∧ s'.dev.pos.work = [(tD + 28, .pull x.stamp tD)] ∧
          s'.dev.pos.angle = ((p.angle + (p.wheel.absAngle j - p.wheel.absAngle p.absPos)) % (p.wheel.cycLen : Int)).toNat) ∧
      (qBelow n t1 p.noiseLim = false → qIn n t1 band.1 band.2 = false → (p.wheel.tooth j).cls ≠ 2 → p.gapsAt n t1 = [] →
        Completes (.crankEdge t x) s (lost 1)) ∧
      (qBelow n t1 p.noiseLim = false → qIn n t1 band.1 band.2 = false → (p.wheel.tooth j).cls = 2 → qIn n t1 p.normLo p.normHi = true →
        Completes (.crankEdge t x) s (lost 3)))

/-- R41: the width of a pulse at a direction-coded input says its direction; a width between the two limits is counted
and dropped. A pulse stands for an edge at its leading edge, and a reverse one too leads out of STOPPED (R52). R39: one
too short for the filter is none at all. (The polarity that EDGE selects at such an input is the model's choice:
assumption 57.) R382: in SERVICE with SYN_EN the next edge of the
synthetic wheel comes one angle step further on, at SYN_RPM after the previous one; before its time nothing happens. -/
def Obligations.PulsesAndSyntheticEdges : Prop :=
  (∀ (s : State) (t : Ns) (lead trail : Ns), s.Inv → s.dev.sup.mode.decodes = true → s.dev.sup.mode ≠ .basecamp →
     fld s.dev.pos.inputs[(0 : Fin 6)].cfg 0 2 = 3 → s.dev.pos.dualMode = 0 → s.dev.synthetic = false → s.dev.pos.wheel.crkPos ≠ 0 →
     s.dev.pos.sync = .stopped → bit s.dev.rope.cfg 2 = false → s.dev.pos.work = [] →
     let i := s.dev.pos.inputs[(0 : Fin 6)]
     let level := decide (fld i.cfg 2 2 = 1)
     let long := 4 * fld i.cfg 4 8 ≤ trail - lead
     let fwd := trail - lead < fld i.cfg 24 10 * 250
     let rev := fld i.cfg 34 10 * 250 < trail - lead
     (¬long → Completes (.directionPulse t 0 lead trail) s (s.touches [])) ∧
     (long → ¬fwd → ¬rev → Completes (.directionPulse t 0 lead trail) s fun s' =>
       s'.dev.pos.inputs[(0 : Fin 6)] = { i with level := level, dirBad := i.dirBad + 1 } ∧ s'.dev.pos.sync = .stopped ∧
       s.touches [.pos] s') ∧
     (long → fwd ∨ rev → Completes (.directionPulse t 0 lead trail) s fun s' =>
       s'.dev.pos.inputs[(0 : Fin 6)] = { i with level := level, edges := i.edges + 1, last := lead } ∧ s'.dev.pos.sync = .counting ∧
       s'.dev.pos.lastTooth = some lead)) ∧
  (∀ (s : State) (t t0 : Ns) (n : Nat), s.Inv → s.dev.sup.mode = .service → bit s.dev.sup.svc 0 = true → s.dev.pos.synTime = some t0 →
     (s.dev.pos.wheel.synAngles.map fun a =>
       if s.dev.pos.wheel.ahead s.dev.pos.synAngle a = 0 then s.dev.pos.wheel.cycLen else s.dev.pos.wheel.ahead s.dev.pos.synAngle a).min? = some n →
     let stamp := t0 + divRoundN (n * 1000000000) (6 * fld s.dev.sup.svc 16 16 * degree)
     (s.now t < stamp → Completes (.syntheticEdge t) s (s.touches [])) ∧
     (stamp ≤ s.now t → Completes (.syntheticEdge t) s fun s' =>
       s'.dev.pos.synAngle = (s.dev.pos.synAngle + n) % s.dev.pos.wheel.cycLen ∧ s'.dev.pos.synTime = some stamp))

/-- R45, R54, R60: an edge of CAM_0 in Hall mode. In FULL it falls into a window of the cam's table, which is then hit,
or into none, which is noise and, where the cam may lose sync, a loss with cause CAM_SPURIOUS: HALF under a limp policy,
else COUNTING. In STOPPED it is only counted. -/
def Obligations.CamEdge : Prop :=
  ∀ (s : State) (t : Ns) (x : WheelEdge) (tb : CamTable), s.Inv → s.dev.sup.mode.decodes = true → s.dev.sup.mode ≠ .basecamp → x.input = 2 →
    fld s.dev.pos.inputs[(2 : Fin 6)].cfg 0 2 = 2 → fld s.dev.pos.inputs[(2 : Fin 6)].cfg 2 2 = 2 →
    fld s.dev.pos.inputs[(2 : Fin 6)].cfg 4 8 ≤ x.samples → s.dev.synthetic = false → bit s.dev.rope.cfg 2 = false →
    s.dev.pos.wheel.cam 0 = some tb → s.dev.pos.work = [] →
    let p := s.dev.pos
    let a := ((p.angle + p.offsetNear x.stamp) % (p.wheel.cycLen : Int)).toNat
    let counted (s' : State) : Prop := s'.dev.pos.inputs[(2 : Fin 6)].edges = p.inputs[(2 : Fin 6)].edges + 1
    (p.sync = .stopped → Completes (.camEdge t x) s fun s' => counted s' ∧ s'.dev.pos.sync = .stopped ∧ s.touches [.pos] s') ∧
    (p.sync = .full → p.rev = false → ∀ i l, tb.windows p.wheel a (!x.rising) = i :: l → Completes (.camEdge t x) s fun s' =>
      counted s' ∧ s'.dev.pos.sync = .full ∧ s'.dev.pos.cams[(0 : Fin 4)].hits = (i :: l) ++ p.cams[(0 : Fin 4)].hits ∧
      s'.dev.pos.absPos = p.absPos) ∧
    (p.sync = .full → p.rev = false → tb.windows p.wheel a (!x.rising) = [] → tb.loss = false → Completes (.camEdge t x) s fun s' =>
      counted s' ∧ s'.dev.pos.sync = .full ∧ s'.dev.pos.inputs[(2 : Fin 6)].noise = p.inputs[(2 : Fin 6)].noise + 1 ∧ s.touches [.pos] s') ∧
    (p.sync = .full → p.rev = false → tb.windows p.wheel a (!x.rising) = [] → tb.loss = true → Completes (.camEdge t x) s fun s' =>
      counted s' ∧ s'.dev.pos.lossCause = 7 ∧ s'.dev.pos.lossCount = p.lossCount + 1 ∧
      s'.dev.pos.sync = if p.limpPolicy 7 then .half else .counting)

/-- R49, R62: a tooth that does not come within its band's upper limit loses a known position with cause TIMEOUT, and
makes COUNTING start over; no edge for STALL ms leads to STOPPED with cause STALL. Before that nothing happens. R100:
POS_RESID.CLR clears the largest residual. -/
def Obligations.PositionTimeouts : Prop :=
  ∀ (s : State) (t : Ns), s.Inv → s.dev.sup.mode.decodes = true → s.dev.sup.mode ≠ .basecamp → s.dev.pos.primFailed = none →
    let p := s.dev.pos
    let j := p.wheel.next p.absPos
    (∀ a, p.rev = false → p.sync ≠ .stopped → p.lastTooth = some a → p.timedOut j a (s.now t) = false →
      Completes (.toothTimeout t) s (s.touches [])) ∧
    (∀ a, p.rev = false → p.sync = .counting → p.lastTooth = some a → p.timedOut j a (s.now t) = true →
      Completes (.toothTimeout t) s fun s' => s'.dev.pos.sync = .counting ∧ s'.dev.pos.lastTooth = none ∧ s'.dev.pos.normals = 0 ∧
        s.touches [.pos] s') ∧
    (∀ a, p.rev = false → p.sync = .full → p.dualMode = 0 → p.lastTooth = some a → p.timedOut j a (s.now t) = true →
      Completes (.toothTimeout t) s fun s' => s'.dev.pos.sync = .counting ∧ s'.dev.pos.lossCause = 4 ∧
        s'.dev.pos.lossCount = p.lossCount + 1 ∧ s'.dev.pos.lastTooth = none) ∧
    (∀ a, p.sync ≠ .stopped → p.lastEdge = some a → fld p.syncCfg 8 8 ≠ 0 → a + fld p.syncCfg 8 8 * 1000000 ≤ s.now t →
      Completes (.stall t) s fun s' => s'.dev.pos.sync = .stopped ∧ s'.dev.pos.lossCause = 11 ∧ s'.dev.pos.lossCount = p.lossCount + 1 ∧
        s'.dev.pos.cycleNs = 0 ∧ s'.dev.pos.rpm = 0 ∧ s'.dev.sup.stop1s = false ∧ s'.dev.sup.stoppedAt = s.now t) ∧
    (∀ q : Path, Completes (.posResidClr t q) s fun s' =>
      s'.dev.pos = { p with residMax := 0 } ∧ s.touches [.pos, .paths] s')

/-! ### Events and admission -/

/-- R95, R143, R146, R147: an edge of a committed box is issued once its moment has come, 32 ns ahead of its time at the
pin, or at its time for an event that acts in a unit; before that nothing happens. The first edge starts the event at
its output; a first edge that the runtime guard forbids ends it with the guard's detail, and the output does not move.
Here for the first edge of INJ_DI, INJ_PFI given by its start, GATE and PIO; the coil's edges and a PFI pulse given by
its end are not spoken of. -/
def Obligations.EdgeIssue : Prop :=
  ∀ (s : State) (t : Ns) (b : Fin 128), s.clean →
    let x := s.dev.loft.boxes[b]
    let ev := x.ev
    let det := (s.dev.at t).guardDetailOf ev x.a.time
    x.state = .committed → x.ending = none → x.a.present = true → x.a.fixed = true → x.a.issued = false →
    x.first.present = false → x.b.fixed = false → x.off.present = false → ev.type ≠ .ign → ¬(ev.type = .pfi ∧ ev.isEnd = true) →
    let started (s' : State) : Prop :=
      s'.dev.loft.boxes[b].started = some x.a.time ∧ s'.dev.loft.boxes[b].a.issued = true ∧ s'.dev.loft.boxes[b].ending = none
    (s.now t + 32 < x.a.time → Completes (.edgeIssue t (.box b)) s (s.touches [])) ∧
    (x.a.time ≤ s.now t + 32 → det = 0 → ev.type = .gate → ev.output < 8 → Completes (.edgeIssue t (.box b)) s fun s' => started s' ∧
      let g := s'.dev.gate[Fin.ofNat 8 ev.output]
      s'.dev.loft.boxes[b].state = .active ∧ g.pin.on = true ∧ g.owner = .box b ∧
      g.windows = s.dev.gate[Fin.ofNat 8 ev.output].windows + 1 ∧ s.touches [.loft, .gate] s') ∧
    (x.a.time ≤ s.now t + 32 → det = 0 → ev.type = .pfi → ev.output < 16 → Completes (.edgeIssue t (.box b)) s fun s' => started s' ∧
      let p := s'.dev.pfi[Fin.ofNat 16 ev.output]
      s'.dev.loft.boxes[b].state = .active ∧ p.pin.on = true ∧ p.owner = .box b ∧ s'.dev.loft.boxes[b].off.present = true ∧
      s'.dev.loft.boxes[b].off.time = x.a.time + ev.durA ∧ p.measOn = s.dev.pfi[Fin.ofNat 16 ev.output].measOn ++ [x.a.time] ∧ s.touches [.loft, .pfi] s') ∧
    (x.a.time ≤ s.now t + 32 → det = 0 → ev.type = .di → ev.output < 16 → Completes (.edgeIssue t (.box b)) s fun s' => started s' ∧
      let k := s'.dev.banks[diBank ev.output]
      s'.dev.loft.boxes[b].state = .active ∧ k.owner = .box b ∧ k.ls = diLs ev.output ∧ k.psq.phase = .ready ∧ k.psq.ts = x.a.time ∧
      k.psq.te = x.a.time + ev.durA ∧ k.psq.pc = (s.dev.profile ev.output (fld ev.typeArg 0 5)).start ∧ k.psq.args = ev.profArg ∧
      k.psq.runs = s.dev.banks[diBank ev.output].psq.runs + 1 ∧ s.touches [.loft, .banks] s') ∧
    (x.a.time ≤ s.now t → ev.type = .pio → ev.output < 8 → Completes (.edgeIssue t (.box b)) s fun s' => started s' ∧
      s'.dev.loft.boxes[b].state = .closing ∧ s'.dev.loft.boxes[b].complete = true ∧ s'.dev.pios.lines.getLsbD ev.output = true ∧
      s.touches [.loft, .pio] s') ∧
    (x.a.time ≤ s.now t + 32 → det ≠ 0 → ev.type.drives = true → s.onlyNoted 10 → Completes (.edgeIssue t (.box b)) s fun s' =>
      s'.dev.loft.boxes[b].state = .closing ∧ s'.dev.loft.guardDetail = BitVec.ofNat 4 det ∧ s'.dev.loft.trips = s.dev.loft.trips + 1 ∧
      (∃ y, s'.dev.loft.boxes[b].ending = some y ∧ y.result = .endedFault ∧ y.reason = 10 ∧ y.unstarted = true ∧ y.guard = true) ∧
      s.reported 10 s' ∧ s.touches [.loft, .flt, .recs, .snap] s')

/-- R144, R145, R148, R271: the results of the boxes that are ready are presented to REC in ascending order, up to the box
named; each becomes an EVENT record, the box is FREE, and its descriptor too. That of a descriptor in ENDING follows those
of the boxes, in ascending order again. What is not ready writes nothing. -/
def Obligations.ResultWrite : Prop :=
  ∀ (s : State) (t : Ns), s.Inv →
    (∀ b : Fin 128, Completes (.resultWrite t (.box b)) s fun s' =>
      (∀ c : Fin 128, c ≤ b → s.dev.resultReady c = true → s'.dev.loft.boxes[c].state = .free ∧
        s'.dev.loft.boxes[c].gen = s.dev.loft.boxes[c].gen) ∧
      (∀ c : Fin 128, b < c ∨ s.dev.resultReady c = false → s'.dev.loft.boxes[c].state = s.dev.loft.boxes[c].state) ∧
      s'.dev.recm.resultQ.length =
        s.dev.recm.resultQ.length + ((List.finRange 128).filter fun c => c ≤ b && s.dev.resultReady c).length ∧
      s.touches [.loft, .recs, .banks, .pfi, .ign, .gate] s') ∧
    (∀ b : Fin 128, (∀ c : Fin 128, c < b → s.dev.resultReady c = false) → s.dev.resultReady b = true →
     Completes (.resultWrite t (.box b)) s fun s' =>
      let x := s.dev.loft.boxes[b]
      let ev := if x.ending.any (·.memErr) then x.ev.blank (((s.dev.descr x.loft).map (·.bad)).getD []) else x.ev
      let y := s'.dev.loft.boxes[b]
      let p := s.dev.partOf b
      let res := resultOf x.ending x.late p.dclass
      y.state = .free ∧ y.lastTag = ev.tag ∧ y.lastResult = BitVec.ofNat 4 res.code ∧ y.gen = x.gen ∧
      (∀ y ∈ s'.dev.loft.descrs, y.1 ≠ x.loft) ∧
      (∃ r, s'.dev.recm.resultQ = s.dev.recm.resultQ ++ [r] ∧ r.type = 4 ∧ r.pres = s.now t ∧
        fld (reqWord r.body 0) 0 32 = ev.tag.toNat ∧ fld (reqWord r.body 1) 30 4 = res.code) ∧
      s.touches [.loft, .recs, .banks, .pfi, .ign, .gate] s') ∧
    (∀ b : Fin 128, (∀ c : Fin 128, c ≤ b → s.dev.resultReady c = false) → Completes (.resultWrite t (.box b)) s (s.touches [])) ∧
    (∀ (i : Fin 2048) (y : Descr), s.dev.descr i.val = some y → y.state = .ending → (∀ c : Fin 128, s.dev.resultReady c = false) →
     (∀ x ∈ s.dev.loft.descrs, x.1 < i.val → x.2.state ≠ .ending) → Completes (.resultWrite t (.descriptor i)) s fun s' =>
      let ev := if y.ending.memErr then y.ev.blank y.bad else y.ev
      s'.dev.descr i.val = none ∧
      (∃ r, s'.dev.recm.resultQ = s.dev.recm.resultQ ++ [r] ∧ r.type = 4 ∧ r.dtime = y.ending.time ∧
        fld (reqWord r.body 0) 0 32 = ev.tag.toNat ∧ fld (reqWord r.body 1) 30 4 = y.ending.result.code) ∧
      s.touches [.loft, .recs] s')

/-- R109: a network submission takes the staged words into the network yard, oldest first, and its result reads as
pending; a full yard is flagged and takes nothing. R112, R113: a standing submission that is owed is placed at source 9,
for each cycle up to the last one that it owes; one on HOLD submits nothing. -/
def Obligations.Submissions : Prop :=
  ∀ (s : State) (t : Ns), s.Inv →
    (∀ p : Path, s.dev.adm.net.fill < 32 → Completes (.admNetSubmit t p) s fun s' =>
      let y := s.dev.adm.net
      let z := s'.dev.adm.net
      z.fill = y.fill + 1 ∧ z.submitted = y.submitted + 1 ∧ z.head = y.head ∧
      (z.entries[Fin.ofNat 32 ((y.head + y.fill) % 32)]).words = (s.dev.ctx p).netW ∧
      (∀ i : Fin 32, i.val ≠ (y.head + y.fill) % 32 → z.entries[i] = y.entries[i]) ∧
      fld (s'.dev.ctx p).netResult 0 4 = 15 ∧ s.touches [.adm, .paths] s') ∧
    (∀ p : Path, 32 ≤ s.dev.adm.net.fill → Completes (.admNetSubmit t p) s fun s' =>
      s'.dev.adm = { s.dev.adm with netFull := true } ∧ fld (s'.dev.ctx p).netResult 0 4 = 14 ∧ s.touches [.adm, .paths] s') ∧
    (∀ o l x, s.dev.adm.placed = none → s.dev.adm.owed = o :: l → s.dev.adm.standing[o.index]? = some x → x.hold = false →
      let c := (s.dev.at t).owedCycle o
      0 ≤ (o.upTo - c).toInt → Completes (.standingSubmission t) s fun s' =>
        s'.dev.adm = { s.dev.adm with
          placed := some (o.index, c), owed := (if c = o.upTo then [] else [{ o with from_ := some (c + 1) }]) ++ l } ∧
        s.touches [.adm] s') ∧
    (∀ o x, s.dev.adm.placed = none → s.dev.adm.owed = [o] → s.dev.adm.standing[o.index]? = some x →
      x.hold = true ∨ (o.upTo - (s.dev.at t).owedCycle o).toInt < 0 →
      Completes (.standingSubmission t) s fun s' => s'.dev.adm = { s.dev.adm with owed := [] } ∧ s.touches [.adm] s') ∧
    (s.dev.adm.placed ≠ none → Completes (.standingSubmission t) s (s.touches []))

/-- R108, R110, R114 to R116, R124, R125: a decision serves the source whose turn it is, answers its oldest request with
a result word and passes the turn on. The checks come in order: fields, then mode, then sync; a rejection is counted by
its code and accepts nothing; an accepted request that is no REPLACE and no CANCEL takes a free descriptor. (Which free
descriptor is a free value. No pass of a tooth is outstanding, which R110 would put first.) -/
def Obligations.AdmissionDecision : Prop :=
  ∀ (s : State) (t : Ns) (k : Fin 8), s.clean → s.dev.pos.work = [] →
    (s.dev.nextSource = none → Completes (.admissionDecision t) s (s.touches [])) ∧
    (s.dev.nextSource = some k.val → Completes (.admissionDecision t) s fun s' =>
      let y := s.dev.adm.ce[k]
      let w := s.dev.offered k.val
      let det := s.dev.fieldDetail w false
      let tag : W32 := BitVec.ofNat 32 (fld (reqWord w 1) 0 32)
      let plain := bit (reqWord w 0) 32 = false ∧ bit (reqWord w 0) 33 = false
      let r := s'.dev.adm.last
      s'.dev.adm.ce[k].fill = y.fill - 1 ∧ s'.dev.adm.ce[k].head = (y.head + 1) % 16 ∧ s'.dev.adm.turn = (k.val + 1) % 10 ∧
      s'.dev.ce[k].reqRes = some r ∧ s'.dev.ce[k].reqLast = r ∧
      (det ≠ 0 → r = resultWord 4 det k.val 0 tag) ∧
      (det = 0 → plain → s.dev.modeAdmits (eventOf w k.val).type k.val = false → r = resultWord 3 0 k.val 0 tag) ∧
      (det = 0 → plain → s.dev.modeAdmits (eventOf w k.val).type k.val = true → s.dev.pos.synced = false → r = resultWord 2 0 k.val 0 tag) ∧
      (fld r 0 4 ≠ 0 → s'.dev.adm.rej = s.dev.adm.rej + 1 ∧ s'.dev.adm.acc = s.dev.adm.acc ∧ s'.dev.loft.descrs = s.dev.loft.descrs ∧
        s'.dev.loft.boxes = s.dev.loft.boxes) ∧
      (fld r 0 4 = 0 → s'.dev.adm.acc = s.dev.adm.acc + 1 ∧ s'.dev.adm.rej = s.dev.adm.rej) ∧
      (fld r 0 4 = 0 → plain → s.dev.pos.sync = .full → (∀ x ∈ s.dev.loft.descrs, x.1 ≠ fld r 12 11) ∧
        s'.dev.loft.descrs.length = s.dev.loft.descrs.length + 1 ∧ ∃ z, s'.dev.descr (fld r 12 11) = some z ∧ z.state = .waiting ∧
        z.ev.type = (eventOf w k.val).type ∧ z.ev.output = fld (reqWord w 0) 8 8 ∧ z.ev.tag = tag ∧ z.ev.source = k.val ∧
        z.ev.angleA = fld (reqWord w 2) 0 32 ∧ z.ev.durA = fld (reqWord w 3) 0 32) ∧
      s.touches [.adm, .loft, .calc, .recs, .memu] s')

/-! ### Profile sequencers and banks -/

/-- R156, R176 to R179, R182: DRIVE, UNTIL_ABOVE, UNTIL_BELOW, WAIT, CHOP and CHOP_TO_END at the start of their step:
the switch state of the bank, the thresholds in its DACs, the time until which the sequencer stays, and nothing else.
Time and thresholds come from the word or from an argument (R181). -/
def Obligations.PsqInstructions : Prop :=
  ∀ (s : State) (k : Fin 4) (w : W64) (t : Ns), s.clean → s.psqAt k t w →
    let b := s.dev.banks[k]
    let q := b.psq
    let st := SwState.ofCode (fld w 4 3)
    let thr := psqThr q.args (fld w 14 3) (fld w 4 10)
    let steps := (psqTime q.args w).1
    let next (s' : State) : Prop := s.touches [.banks] s' ∧ ∀ j, j ≠ k → s'.dev.banks[j] = s.dev.banks[j]
    (fld w 0 4 = 0 → Completes (.psqDrive t k) s fun s' => next s' ∧
      let c := s'.dev.banks[k]
      c.sw = st ∧ c.psq.phase = .timed (q.stepAt + 4) (.seq q.rel) ∧ c.psq.pc = q.pc ∧
      (b.sw ≠ st → c.hsb.on = (decide (st = .boost) && b.enabled) ∧ c.hsv.on = (decide (st = .batt) && b.enabled) ∧
        c.fw.on = (decide (st = .free) && b.enabled) ∧ c.lsPins[b.ls].on = (decide (st ≠ .decay) && b.enabled)) ∧
      (b.sw = st → c = { b with psq := c.psq })) ∧
    (fld w 0 4 = 1 → q.stepAt ≤ s.now t → Completes (.untilAbove t k) s fun s' => next s' ∧ s'.dev.banks[k].dacHi = thr.1 ∧
      s'.dev.banks[k].psq.phase = .waitHi (q.stepAt + 4 * max 1 steps) ∧ s'.dev.banks[k].sw = b.sw ∧
      s'.dev.banks[k].psq.last.argBad = (q.last.argBad || thr.2 || (psqTime q.args w).2)) ∧
    (fld w 0 4 = 2 → q.stepAt ≤ s.now t → Completes (.untilBelow t k) s fun s' => next s' ∧ s'.dev.banks[k].dacLo = thr.1 ∧
      s'.dev.banks[k].psq.phase = .waitLo (q.stepAt + 4 * max 1 steps) ∧ s'.dev.banks[k].sw = b.sw) ∧
    (fld w 0 4 = 3 → q.stepAt ≤ s.now t → Completes (.wait t k) s fun s' => next s' ∧
      s'.dev.banks[k].psq.phase = .timed (q.stepAt + 4 * max 1 steps) (.seq q.rel) ∧ s'.dev.banks[k].sw = b.sw) ∧
    (let chop (stop : Option Ns) (s' : State) : Prop := next s' ∧
        let c := s'.dev.banks[k]
        c.sw = st ∧ c.psq.phase = .chop stop ∧ c.psq.sOn = st ∧ c.psq.sOff = SwState.ofCode (fld w 7 3) ∧
        c.psq.minSw = fld w 36 4 * 250 ∧ c.psq.chopOn = true ∧
        (q.args = 0 → c.dacHi = fld w 10 10 ∧ c.dacLo = fld w 23 10);
      (fld w 0 4 = 4 → Completes (.chop t k) s (chop (some (q.stepAt + 4 * max 1 steps)))) ∧
      (fld w 0 4 = 5 → Completes (.chopToEnd t k) s (chop none)))

/-- R158, R176, R183, R184, R186, R187: BRANCH, LOOP, SAMPLE, MARK and END at the start of their step. A branch and a
loop choose where the sequencer goes on; during blanking a branch sees the comparator outputs held; END before t_e begins the END block, with the bank in DECAY. -/
def Obligations.PsqFlow : Prop :=
  ∀ (s : State) (k : Fin 4) (w : W64) (t : Ns), s.clean → s.psqAt k t w → s.dev.banks[k].psq.stepAt ≤ s.now t →
    let b := s.dev.banks[k]
    let q := b.psq
    let next (s' : State) : Prop := s.touches [.banks] s' ∧ ∀ j, j ≠ k → s'.dev.banks[j] = s.dev.banks[j]
    let goes (s' : State) (x : PsqNext) : Prop := next s' ∧ s'.dev.banks[k].psq.phase = .timed (q.stepAt + 4) x ∧ s'.dev.banks[k].sw = b.sw
    (fld w 0 4 = 6 → ∀ hi lo : Bool, fld w 4 4 < 10 → Completes (.branch t k hi lo) s fun s' =>
      let open_ := decide (b.lastSw + b.blank ≤ q.stepAt)
      let hi := if open_ then hi else b.cmpHi
      let lo := if open_ then lo else b.cmpLo
      let c := if fld w 4 4 = 8 then hi else if fld w 4 4 = 9 then lo else q.flags.getLsbD (fld w 4 4)
      goes s' (if c = bit w 8 then .seq q.rel else .jump (fld w 9 10)) ∧ s'.dev.banks[k].cmpHi = hi ∧ s'.dev.banks[k].cmpLo = lo) ∧
    (fld w 0 4 = 7 → fld w 4 10 = 0 → Completes (.loop t k) s fun s' => goes s' (.seq (fld w 14 10)) ∧ s'.dev.banks[k].psq.lc = q.lc) ∧
    (fld w 0 4 = 7 → fld w 4 10 ≠ 0 → Completes (.loop t k) s fun s' => goes s' (.jump (q.rel + 1)) ∧
      s'.dev.banks[k].psq.lc[Fin.ofNat 2 (fld w 24 1)] = fld w 4 10 ∧
      s'.dev.banks[k].psq.body[Fin.ofNat 2 (fld w 24 1)] = (q.rel + 1, fld w 14 10)) ∧
    (fld w 0 4 = 8 → Completes (.psqSample t k) s fun s' => goes s' (.seq q.rel) ∧
      if bit w 4 then s'.dev.banks[k].psq.last.sample1 = b.cur else s'.dev.banks[k].psq.last.sample0 = b.cur) ∧
    (fld w 0 4 = 9 → Completes (.mark t k) s fun s' => goes s' (.seq q.rel) ∧
      if bit w 4 then s'.dev.banks[k].psq.last.mark1 = min (2 ^ 32 - 1) (q.stepAt - q.ts)
      else s'.dev.banks[k].psq.last.mark0 = min (2 ^ 32 - 1) (q.stepAt - q.ts)) ∧
    (fld w 0 4 = 10 → Completes (.psqEnd t k) s fun s' => next s' ∧
      let c := s'.dev.banks[k]
      let e := s.mems.word (profAddr k.val (q.profStart + q.profLen - 1))
      c.sw = .decay ∧ c.psq.endAt = some q.stepAt ∧ c.psq.last.early = true ∧ c.psq.last.tEndCmd = q.stepAt - q.ts ∧
      c.psq.earlies = q.earlies + 1 ∧ c.psq.phase = .waitEnd (q.stepAt + 4 * max 1 (psqTime q.args e).1) ∧
      c.dacLo = (psqThr q.args (fld e 14 3) (fld e 4 10)).1 ∧ c.vBst = s.dev.bst.volt ∧ c.owner = b.owner)

/-- R177, R180, R182, R185, R186: the ends of waits, the switches of a chop, and the commanded end. A comparator counts
from 64 ns into its instruction on and once blanking is over; a wait then ends in the step after the following one; its
timeout goes on, or jumps, and sets its flag. A chop switches in the following step, MIN_SW after the last switch at the
earliest. At t_e the END block begins whatever runs. -/
def Obligations.PsqWaits : Prop :=
  ∀ (s : State) (k : Fin 4) (t : Ns), s.clean →
    let b := s.dev.banks[k]
    let q := b.psq
    let w := s.mems.word (profAddr k.val q.pc)
    let now := s.now t
    let valid := q.stepAt + 64 ≤ now ∧ b.lastSw + b.blank ≤ now
    let next (s' : State) : Prop := s.touches [.banks] s' ∧ ∀ j, j ≠ k → s'.dev.banks[j] = s.dev.banks[j]
    (∀ out, q.phase = .waitHi out → valid → q.afterNext now ≤ out → now < q.te → Completes (.waitConditionMet t k) s fun s' => next s' ∧
      s'.dev.banks[k].psq.phase = .timed (q.ts + (now - q.ts) / 4 * 4 + 8) (.seq q.rel) ∧ s'.dev.banks[k].cmpHi = true ∧
      s'.dev.banks[k].sw = b.sw) ∧
    (∀ out, q.phase = .waitLo out → valid → q.afterNext now ≤ out → now < q.te → Completes (.waitConditionMet t k) s fun s' => next s' ∧
      s'.dev.banks[k].psq.phase = .timed (q.ts + (now - q.ts) / 4 * 4 + 8) (.seq q.rel) ∧ s'.dev.banks[k].cmpLo = true) ∧
    (¬valid → Completes (.waitConditionMet t k) s (s.touches []) ∧ Completes (.chopSwitch t k) s (s.touches [])) ∧
    (∀ out, q.phase = .waitHi out ∨ q.phase = .waitLo out → out ≤ now → out < q.te → Completes (.waitTimeout t k) s fun s' => next s' ∧
      let c := s'.dev.banks[k].psq
      c.phase = .ready ∧ c.stepAt = out ∧ c.timeouts = q.timeouts + 1 ∧
      c.flags = (if bit w 20 then q.flags ||| BitVec.ofNat 8 (2 ^ fld w 17 3) else q.flags) ∧
      (bit w 21 = true → c.pc = q.profStart + fld w 22 10) ∧
      (bit w 21 = false → q.lc = Vector.replicate 2 0 → c.pc = q.profStart + q.rel + 1)) ∧
    (∀ stop, q.phase = .chop stop → valid → let step := q.ts + (now - q.ts) / 4 * 4 + 4
      q.chopAt + q.minSw ≤ step → step < q.te → (∀ u, stop = some u → step < u) →
      Completes (.chopSwitch t k) s fun s' => next s' ∧
        s'.dev.banks[k].sw = (if q.chopOn then q.sOff else q.sOn) ∧ s'.dev.banks[k].psq.chopOn = !q.chopOn ∧
        s'.dev.banks[k].psq.chopAt = step ∧ s'.dev.banks[k].psq.last.chopCnt = min 65535 (q.last.chopCnt + 1)) ∧
    (now + 32 < q.te → Completes (.commandedEnd t k) s (s.touches [])) ∧
    (∀ out, q.phase = .waitHi out ∨ q.phase = .waitLo out ∨ q.phase = .chop none → q.te ≤ now + 32 → q.endAt = none →
      Completes (.commandedEnd t k) s fun s' => next s' ∧ s'.dev.banks[k].sw = .decay ∧ s'.dev.banks[k].psq.endAt = some q.te ∧
        s'.dev.banks[k].psq.last.preempt = (decide (fld w 0 4 ≠ 5) && decide (fld w 0 4 ≠ 10)) ∧ s'.dev.banks[k].vBst = s.dev.bst.volt)

/-- R159 to R161, R163: a converter sample gives its code, and the peak with its time; the release ends the event, frees
the bank and adds the recovered energy; END's timeout does so too, flagged, counted and detected as class 12. -/
def Obligations.BankEnds : Prop :=
  ∀ (s : State) (k : Fin 4) (t : Ns), s.clean →
    let b := s.dev.banks[k]
    let q := b.psq
    let now := s.now t
    let freed (at_ : Ns) (s' : State) : Prop :=
      let c := s'.dev.banks[k]
      c.owner = .none ∧ c.rel = at_ ∧ c.everRel = true ∧ c.relLs[b.ls] = some at_ ∧ c.sw = .decay ∧ c.psq.phase = .idle ∧
      c.recTotal = b.recTotal + BitVec.ofNat 32 b.eRec ∧ c.psq.last.endLen = at_ - q.endAt.getD at_ ∧ ∀ j, j ≠ k → s'.dev.banks[j] = s.dev.banks[j]
    (∀ out x, q.phase = .waitEnd out → b.owner = .box x → q.stepAt + 64 ≤ now → b.lastSw + b.blank ≤ now → now ≤ out →
      fld s.dev.diag.flagMask (8 * k.val) 8 &&& q.flags.toNat = 0 → Completes (.bankRelease t k) s fun s' => freed now s' ∧
        s'.dev.loft.boxes[x].complete = true ∧ s'.dev.loft.boxes[x].part.di = s'.dev.banks[k].psq.last ∧
        (s.dev.loft.boxes[x].state = .active → s'.dev.loft.boxes[x].state = .closing) ∧ s.touches [.banks, .loft] s') ∧
    (∀ out x, q.phase = .waitEnd out → b.owner = .box x → out ≤ now → fld s.dev.diag.react 24 2 = 0 →
      fld s.dev.diag.flagMask (8 * k.val) 8 &&& q.flags.toNat = 0 → Completes (.endTimeout t k) s fun s' => freed out s' ∧
        s'.dev.banks[k].endTos = b.endTos + 1 ∧ s'.dev.banks[k].psq.last.endTo = true ∧ s'.dev.loft.boxes[x].part.dclass.getLsbD 12 = true ∧
        s'.dev.diag.cnt[(12 : Fin 16)] = s.dev.diag.cnt[(12 : Fin 16)] + 1 ∧ s.touches [.banks, .loft, .diag] s') ∧
    (∀ nv, b.owner ≠ .none → q.ts ≤ now → bit s.dev.diag.cfg 0 = false → Completes (.bankSample t k nv) s fun s' =>
      let code := min 4095 ((nv * 4096 + 125000000) / 250000000)
      s'.dev.banks[k].cur = code ∧ s'.dev.banks[k].psq.last.peak = (if q.last.sampled then max q.last.peak code else code) ∧
      s'.dev.banks[k].sw = b.sw ∧ s'.dev.banks[k].psq.phase = q.phase ∧ s.touches [.banks] s' ∧
      ∀ j, j ≠ k → s'.dev.banks[j] = s.dev.banks[j]) ∧
    (∀ nv, b.owner = .none → Completes (.bankSample t k nv) s (s.touches []))

/-! ### Diagnostics, coils, boost -/

/-- R196, R197, R203: a VDS above its threshold that has persisted for VDS_FILT, from VDS_BLANK after the turn-on at the
earliest, is counted and latched as its class on its output or bank, attached to the event that holds it; with reaction 0
that is all, with reaction 1 the output is disabled besides. One below its threshold, or that has not persisted, is
nothing. R198 to R200: an off-state test of a bank that is enabled and idle begins with step A; a node low or high there
counts a failure and ends the test, a good one goes on to the first enabled low side, which is read 10 µs later; the last
reading ends the test, with the counts of open loads. A test that lasts too long ends without a verdict. An output's test
does the same in two phases of 10 µs. R204: bits of DIAG_DISABLED written
1 re-enable. -/
def Obligations.DriveDiagnostics : Prop :=
  (∀ (s : State) (t : Ns) (k j : Fin 4), s.clean → bit s.dev.diag.cfg 0 = true →
     ∀ since node vbat : Nat,
     let p := s.dev.banks[k].lsPins[j]
     let vds := s.dev.diag.vds
     let due (p : Pin) : Prop := p.on = true ∧ max since (p.since + fld vds 24 8 * 100) + fld vds 32 8 * 100 ≤ s.now t
     let high : Prop := 50 * fld vds 0 8 < node
     let noted (c : Nat) (s' : State) : Prop :=
       s'.dev.diag.cnt[Fin.ofNat 16 c] = s.dev.diag.cnt[Fin.ofNat 16 c] + 1 ∧ s'.dev.diag.seen.getLsbD c = true ∧
       fld s'.dev.diag.last 0 4 = c ∧ s'.dev.diag.disabled = s.dev.diag.disabled ∧ s.touches [.diag, .banks, .loft] s'
     let seen (s' : State) : Prop := s'.dev.diag.cnt[(1 : Fin 16)] = s.dev.diag.cnt[(1 : Fin 16)] + 1 ∧ s'.dev.diag.seen.getLsbD 1 = true ∧
       fld s'.dev.diag.last 0 4 = 1 ∧ fld s'.dev.diag.last 16 16 = 3 * 8192 + k.val * 256 + j.val
     (¬high ∨ ¬due p → Completes (.vdsFault t ⟨.ls k j, since, node, vbat⟩) s (s.touches [])) ∧
     (high → due p → fld s.dev.diag.react 2 2 = 0 → Completes (.vdsFault t ⟨.ls k j, since, node, vbat⟩) s fun s' =>
       seen s' ∧ s'.dev.diag.disabled = s.dev.diag.disabled ∧ s.touches [.diag, .banks, .loft] s' ∧
       ∀ b, s.dev.banks[k].owner = .box b → s'.dev.loft.boxes[b].part.dclass.getLsbD 1 = true) ∧
     (50 * fld vds 8 8 + node < 10 * s.dev.bst.volt → due s.dev.banks[k].hsb → fld s.dev.diag.react 6 2 = 0 →
       Completes (.vdsFault t ⟨.hsb k, since, node, vbat⟩) s (noted 3)) ∧
     (50 * fld vds 8 8 + node < vbat → due s.dev.banks[k].hsv → fld s.dev.diag.react 6 2 = 0 →
       Completes (.vdsFault t ⟨.hsv k, since, node, vbat⟩) s (noted 3)) ∧
     (∀ n : Fin 16, 50 * fld vds 16 8 < node → due s.dev.pfi[n].pin → fld s.dev.diag.react 12 2 = 0 →
       Completes (.vdsFault t ⟨.pfi n, since, node, vbat⟩) s (noted 6)) ∧
     (high → due p → fld s.dev.diag.react 2 2 = 1 → Completes (.vdsFault t ⟨.ls k j, since, node, vbat⟩) s fun s' =>
       seen s' ∧ bit s'.dev.diag.disabled (4 * k.val + j.val) = true ∧ s'.dev.flt.cnt[(11 : Fin 64)] = s.dev.flt.cnt[(11 : Fin 64)] + 1 ∧
       s'.dev.flt.valid = true)) ∧
  (∀ (s : State) (t : Ns), s.Inv → bit s.dev.diag.cfg 1 = true →
     (∀ k : Fin 4, let b := s.dev.banks[k]
       b.enabled = true → b.owner = .none →
       (b.testRun = false → b.testAt ≤ s.now t → b.everRel = false → Completes (.diOffStateTest t k) s fun s' =>
         s'.dev.banks[k] = { b with testRun := true, testB := none, testAt := s.now t + fld s.dev.diag.offCfg 8 8 * 1000,
                                           testFrom := s.now t, testBad := [] } ∧
         s.touches [.banks] s') ∧
       (∀ node vbat, b.testRun = true → b.testFrom + 45000 < s.now t → Completes (.offTestRead t (.bank k) node vbat) s fun s' =>
         s'.dev.banks[k] = { b with testRun := false, testB := none } ∧ s.touches [.banks] s') ∧
       (s.now t ≤ b.testFrom + 45000 →
       (∀ node vbat, b.testRun = true → b.testB = none → node < 1000 → s.dev.diag.scgOff[k] + 1 < fld s.dev.diag.offCfg 16 4 →
         Completes (.offTestRead t (.bank k) node vbat) s fun s' =>
           s'.dev.banks[k].testRun = false ∧ s'.dev.diag.scgOff[k] = s.dev.diag.scgOff[k] + 1 ∧ s'.dev.diag.scbOff[k] = 0 ∧
           s'.dev.diag.cnt = s.dev.diag.cnt ∧ s.touches [.banks, .diag] s') ∧
       (∀ node vbat, b.testRun = true → b.testB = none → 1000 ≤ node → node ≤ 4500 → bit b.cfg 1 = true →
         Completes (.offTestRead t (.bank k) node vbat) s fun s' =>
           s'.dev.banks[k] = { b with testB := some 0, biasAt := s.now t, testBad := [] } ∧ s.touches [.banks] s') ∧
       (∀ j node vbat, b.testRun = true → b.testB = some j → s.now t < b.biasAt + 10000 →
         Completes (.offTestRead t (.bank k) node vbat) s (s.touches [])) ∧
       (∀ node vbat, b.testRun = true → b.testB = some 3 → b.biasAt + 10000 ≤ s.now t → bit b.cfg 4 = true → b.testBad = [] →
         s.dev.diag.olOff[Fin.ofNat 16 (4 * k.val + 3)] + 1 < fld s.dev.diag.offCfg 16 4 →
         Completes (.offTestRead t (.bank k) node vbat) s fun s' =>
         s'.dev.banks[k].testRun = false ∧ s'.dev.diag.scgOff[k] = 0 ∧ s'.dev.diag.scbOff[k] = 0 ∧
         s'.dev.diag.olOff[Fin.ofNat 16 (4 * k.val + 3)] =
           (if 1000 ≤ node then s.dev.diag.olOff[Fin.ofNat 16 (4 * k.val + 3)] + 1 else 0) ∧ s.touches [.banks, .diag] s'))) ∧
     (∀ n : Fin 16, let p := s.dev.pfi[n]
       bit p.cfg 0 = true → p.owner = .none → p.pin.on = false → p.pin.since ≤ s.now t →
       (p.testRun = false → p.testAt ≤ s.now t → p.lastOff = none → Completes (.pfiOffStateTest t n) s fun s' =>
         s'.dev.pfi[n] = { p with testRun := true, testPhase2 := false, testAt := s.now t + fld s.dev.diag.offCfg 8 8 * 1000,
                                  testFrom := s.now t, biasAt := s.now t } ∧
         s.touches [.pfi] s') ∧
       (∀ node vbat, p.testRun = true → p.testFrom + 21000 < s.now t → Completes (.offTestRead t (.pfi n) node vbat) s fun s' =>
         s'.dev.pfi[n] = { p with testRun := false, testPhase2 := false } ∧ s.touches [.pfi] s') ∧
       (s.now t ≤ p.testFrom + 21000 →
       (∀ node vbat, p.testRun = true → s.now t < p.biasAt + 10000 → Completes (.offTestRead t (.pfi n) node vbat) s (s.touches [])) ∧
       (p.biasAt + 10000 ≤ s.now t →
       (∀ node vbat, p.testRun = true → p.testPhase2 = false → vbat ≤ 2 * node → Completes (.offTestRead t (.pfi n) node vbat) s fun s' =>
         s'.dev.pfi[n].testRun = false ∧ s'.dev.diag.pfiOl[n] = 0 ∧ s'.dev.diag.pfiScg[n] = 0 ∧ s.touches [.pfi, .diag] s') ∧
       (∀ node vbat, p.testRun = true → p.testPhase2 = false → 2 * node < vbat → Completes (.offTestRead t (.pfi n) node vbat) s fun s' =>
         s'.dev.pfi[n] = { p with testPhase2 := true, biasAt := s.now t } ∧ s.touches [.pfi] s') ∧
       (∀ node vbat, p.testRun = true → p.testPhase2 = true → s.dev.diag.pfiOl[n] + 1 < fld s.dev.diag.offCfg 16 4 →
         s.dev.diag.pfiScg[n] + 1 < fld s.dev.diag.offCfg 16 4 → Completes (.offTestRead t (.pfi n) node vbat) s fun s' =>
         s'.dev.pfi[n].testRun = false ∧ s'.dev.diag.cnt = s.dev.diag.cnt ∧ s.touches [.pfi, .diag] s' ∧
         s'.dev.diag.pfiOl[n] = (if 2000 ≤ node then s.dev.diag.pfiOl[n] + 1 else 0) ∧
         s'.dev.diag.pfiScg[n] = (if 2000 ≤ node then 0 else s.dev.diag.pfiScg[n] + 1))))) ∧
     (∀ (p : Path) (v : W64), Completes (.diagDisabledClear t p v) s fun s' =>
       s'.dev.diag = { s.dev.diag with disabled := s.dev.diag.disabled &&& ~~~v } ∧ s'.dev.flt.dis = s.dev.flt.dis ∧
       s.touches [.diag, .flt, .paths] s'))

/-- R170: the drain-on and drain-off delays of a port injector: the time from its edge, limited to 65 535 ns. A delay
that has run its course is saturated and flagged; drain-off is detected as class 9 then. R209, R214: a soft shutdown
ends with its ramp: the coil is free, and its event complete. A dwell that lasts DWELL_MAX at the pin ends with a soft
shutdown and the fault IGN_DWELL, its event with ENDED_FAULT; a fixed spark that is due in the same clock goes out
instead. -/
def Obligations.DelaysAndCoils : Prop :=
  (∀ (s : State) (t a : Ns) (n : Fin 16), s.clean →
     let p := s.dev.pfi[n]
     let dly := min 65535 (s.now t - a)
     (p.measOn.getLast? = some a → s.now t < a + 65535 → Completes (.drainDelayMeasured t n true) s fun s' =>
       s'.dev.pfi[n] = { p with measOn := [], donDly := BitVec.ofNat 16 dly, noOn := false, drain := true } ∧
       (∀ j, j ≠ n → s'.dev.pfi[j] = s.dev.pfi[j]) ∧ s.touches [.pfi, .loft] s') ∧
     (p.measOff.getLast? = some a → s.now t < a + 65535 → Completes (.drainDelayMeasured t n false) s fun s' =>
       s'.dev.pfi[n] = { p with measOff := [], doffDly := BitVec.ofNat 16 dly, noOff := false, drain := false } ∧
       s.touches [.pfi, .loft] s') ∧
     (p.measOff = [a] → a + 65535 ≤ s.now t → fld s.dev.diag.react 18 2 = 0 → Completes (.drainDelaySaturated t n false) s fun s' =>
       s'.dev.pfi[n].doffDly = 65535 ∧ s'.dev.pfi[n].noOff = true ∧ s'.dev.pfi[n].measOff = [] ∧
       s'.dev.diag.cnt[(9 : Fin 16)] = s.dev.diag.cnt[(9 : Fin 16)] + 1 ∧ s.touches [.pfi, .loft, .diag] s') ∧
     (p.measOn = [] → p.measOff = [] → ∀ on : Bool, Completes (.drainDelayMeasured t n on) s (s.touches []) ∧
       Completes (.drainDelaySaturated t n on) s (s.touches []))) ∧
  (∀ (s : State) (t : Ns) (n : Fin 16), s.clean →
     let g := s.dev.ign[n]
     let dwellMax := fld g.cfg 16 16 * 10000
     (∀ b, g.soft = true → g.rampEnd ≤ s.now t → g.owner = .box b → Completes (.softShutdownEnd t n) s fun s' =>
       s'.dev.ign[n] = { g with soft := false, owner := .none, tag := 0, lastOff := some g.rampEnd, pin := { on := false, since := g.rampEnd } } ∧
       s'.dev.loft.boxes[b].complete = true ∧ (∀ m, m ≠ n → s'.dev.ign[m] = s.dev.ign[m]) ∧ s.touches [.ign, .loft] s') ∧
     (g.soft = false ∨ s.now t < g.rampEnd → Completes (.softShutdownEnd t n) s (s.touches [])) ∧
     (∀ b, g.soft = false → g.owner = .box b → g.pin.on = true → g.pin.since ≤ s.now t → g.dwellAt + dwellMax ≤ s.now t → s.onlyNoted 12 →
       (s.dev.at t).sparkDue (.box b) = false → Completes (.maxDwellGuard t n) s fun s' =>
         s'.dev.ign[n].soft = true ∧ s'.dev.ign[n].rampEnd = s.now t + fld g.cfg 8 8 * 10000 ∧ s'.dev.ign[n].trips = g.trips + 1 ∧
         s'.dev.loft.boxes[b].state = .closing ∧ s'.dev.loft.boxes[b].part.maxd = true ∧
         (∃ x, s'.dev.loft.boxes[b].ending = some x ∧ x.result = .endedFault ∧ x.reason = 12) ∧ s.reported 12 s' ∧
         s.touches [.ign, .loft, .flt, .recs, .snap] s') ∧
     ((s.dev.at t).sparkDue g.owner = true → Completes (.maxDwellGuard t n) s (s.touches [])) ∧
     (g.soft = false → s.now t < g.dwellAt + dwellMax → Completes (.maxDwellGuard t n) s (s.touches [])))

/-- R164, R165, R168: the boost controller. A reading of BST_VS gives the voltage, and starts a switching cycle below
V_SET - HYST; the peak current, or T_ON_MAX, ends a cycle's on-time; after T_OFF the next cycle follows until V_SET has
been reached. A bank whose END block is about to begin takes the new voltage (R160). A voltage beyond its limit for DET is detected once. -/
def Obligations.Boost : Prop :=
  ∀ (s : State) (t : Ns), s.clean → s.dev.bst.enabled = true → s.dev.sup.mode.boost = true → s.dev.bst.held = false →
    let b := s.dev.bst
    let now := s.now t
    (∀ uv, b.phase = .idle → Completes (.bstVoltUpdate t uv) s fun s' =>
      let c := s'.dev.bst
      let code := min 1023 ((uv * 1024 + 625000) / 1250000)
      c.code = code ∧ c.volt = code * 125 * fld b.cfg 8 8 / 1024 ∧
      (c.volt + fld b.set 16 16 < fld b.set 0 16 → c.phase = .on now ∧ c.pin.on = true ∧ c.cycles = b.cycles + 1) ∧
      (fld b.set 0 16 ≤ c.volt + fld b.set 16 16 → c.phase = .idle ∧ c.pin = b.pin ∧ c.cycles = b.cycles) ∧
      (∀ k : Fin 4, s'.dev.banks[k] =
        if s.dev.banks[k].psq.endAt.any (fun x => decide (now < x)) then { s.dev.banks[k] with vBst := c.volt } else s.dev.banks[k]) ∧
      s.touches [.bst, .banks] s') ∧
    (∀ a, b.phase = .on a → Completes (.bstCsPeak t) s fun s' => s'.dev.bst.phase = .off now ∧ s'.dev.bst.pin.on = false ∧
      s'.dev.bst.tonMax = b.tonMax ∧ s.touches [.bst] s') ∧
    (∀ a, b.phase = .on a → a + fld b.cfg 32 16 ≤ now → Completes (.tOnMax t) s fun s' => s'.dev.bst.phase = .off now ∧
      s'.dev.bst.pin.on = false ∧ s'.dev.bst.tonMax = b.tonMax + 1 ∧ s.touches [.bst] s') ∧
    (∀ a, b.phase = .on a → now < a + fld b.cfg 32 16 → Completes (.tOnMax t) s (s.touches [])) ∧
    (∀ a, b.phase = .off a → a + fld b.cfg 48 16 ≤ now → b.volt < fld b.set 0 16 → b.reached = false → Completes (.tOffEnd t) s fun s' =>
      s'.dev.bst.phase = .on now ∧ s'.dev.bst.pin.on = true ∧ s'.dev.bst.cycles = b.cycles + 1 ∧ s.touches [.bst] s') ∧
    (∀ a, b.phase = .off a → a + fld b.cfg 48 16 ≤ now → fld b.set 0 16 ≤ b.volt ∨ b.reached = true → Completes (.tOffEnd t) s fun s' =>
      s'.dev.bst.phase = .idle ∧ s'.dev.bst.pin.on = false ∧ s'.dev.bst.cycles = b.cycles ∧ s.touches [.bst] s') ∧
    (∀ a, b.ovSince = some a → b.ovDet = false → a + fld b.limits 32 8 * 1000 ≤ now → fld s.dev.diag.react 20 2 = 0 →
      Completes (.boostOverVoltage t) s fun s' => s'.dev.bst = { b with ovDet := true, ovSeen := true } ∧
        s'.dev.diag.cnt[(10 : Fin 16)] = s.dev.diag.cnt[(10 : Fin 16)] + 1 ∧ s.touches [.bst, .diag, .banks, .loft] s') ∧
    (∀ a, b.phase ≠ .idle → b.uvSince = some a → b.uvDet = false → a + fld b.limits 32 8 * 1000 ≤ now → fld s.dev.diag.react 22 2 = 0 →
      Completes (.boostUnderVoltage t) s fun s' => s'.dev.bst = { b with uvDet := true, uvSeen := true } ∧
        s'.dev.diag.cnt[(11 : Fin 16)] = s.dev.diag.cnt[(11 : Fin 16)] + 1 ∧ s.touches [.bst, .diag, .banks, .loft] s') ∧
    (b.ovSince = none → Completes (.boostOverVoltage t) s (s.touches [])) ∧
    (b.uvSince = none ∨ b.phase = .idle → Completes (.boostUnderVoltage t) s (s.touches []))

/-! ### Calculation engines -/

/-- R229, R233: MOV, ADD, SUB, MUL, MIN, MAX, ABS, NEG compute exactly, round once to 2^-32 with ties upward and
saturate; the flag, the count and the tag bit of a saturation. A and B are read before DST is written, also where DST is
one of them, and B may be an immediate. R229, R233: MAC, CLAMP, LAG, RATE and INTEG, which read DST or the slot after B
beside A and B. In raw units a product is 2^32 times too large, and it is rounded once together with what is added to
it. R229, R231, R233: AND, OR, XOR, SHL and SHR act on the raw pattern and never saturate; an immediate is its raw,
sign-extended pattern; a shift count is bits [5:0] of B. -/
def Obligations.EngineArithmetic : Prop :=
  (∀ (s : State) (k : Fin 8) (w : W64) (t : Ns), s.clean → s.engineAt k w → s.mayWrite k (opDst w) →
     let a := s.operand k (opA w)
     let b := s.operandB k false w
     let x := a.1.toInt
     let y := b.1.toInt
     (fld w 0 8 = 0x01 → Completes (.mov t k) s (s.computed k w [a.2] x)) ∧
     (fld w 0 8 = 0x02 → Completes (.add t k) s (s.computed k w [a.2, b.2] (x + y))) ∧
     (fld w 0 8 = 0x03 → Completes (.sub t k) s (s.computed k w [a.2, b.2] (x - y))) ∧
     (fld w 0 8 = 0x04 → Completes (.mul t k) s (s.computed k w [a.2, b.2] (round32 (x * y)))) ∧
     (fld w 0 8 = 0x07 → Completes (.min t k) s (s.computed k w [a.2, b.2] (min x y))) ∧
     (fld w 0 8 = 0x08 → Completes (.max t k) s (s.computed k w [a.2, b.2] (max x y))) ∧
     (fld w 0 8 = 0x0A → Completes (.abs t k) s (s.computed k w [a.2] (x.natAbs))) ∧
     (fld w 0 8 = 0x0B → Completes (.neg t k) s (s.computed k w [a.2] (-x)))) ∧
  (∀ (s : State) (k : Fin 8) (w : W64) (t : Ns), s.clean → s.engineAt k w → s.mayWrite k (opDst w) →
     let a := s.operand k (opA w)
     let b := s.operandB k false w
     let d := s.operand k (opDst w)
     let lo := s.operand k (opB w)
     let hi := s.operand k (opB w + 1)
     let x := a.1.toInt
     let y := b.1.toInt
     let z := d.1.toInt
     (fld w 0 8 = 0x06 → Completes (.mac t k) s (s.computed k w [d.2, a.2, b.2] (round32 (z * 2 ^ 32 + x * y)))) ∧
     (fld w 0 8 = 0x09 → Completes (.clamp t k) s
       (s.computed k w [a.2, lo.2, hi.2] (min (max x lo.1.toInt) hi.1.toInt))) ∧
     (fld w 0 8 = 0x28 → Completes (.lag t k) s (s.computed k w [d.2, a.2, b.2] (round32 (z * 2 ^ 32 + y * (x - z))))) ∧
     (fld w 0 8 = 0x29 → Completes (.rate t k) s (s.computed k w [d.2, a.2, b.2] (z + min (max (x - z) (-y)) y))) ∧
     (fld w 0 8 = 0x2A → Completes (.integ t k) s
       (s.computed k w [a.2, lo.2, hi.2, d.2] (min (max (z + x) lo.1.toInt) hi.1.toInt)))) ∧
  (∀ (s : State) (k : Fin 8) (w : W64) (t : Ns), s.clean → s.engineAt k w → s.mayWrite k (opDst w) →
     let a := s.operand k (opA w)
     let b := s.operandB k true w
     (fld w 0 8 = 0x10 → Completes (.and t k) s (s.computedRaw k w [a.2, b.2] (a.1 &&& b.1))) ∧
     (fld w 0 8 = 0x11 → Completes (.or t k) s (s.computedRaw k w [a.2, b.2] (a.1 ||| b.1))) ∧
     (fld w 0 8 = 0x12 → Completes (.xor t k) s (s.computedRaw k w [a.2, b.2] (a.1 ^^^ b.1))) ∧
     (fld w 0 8 = 0x13 → Completes (.shl t k) s (s.computedRaw k w [a.2, b.2] (a.1 <<< (b.1.toNat % 64)))) ∧
     (fld w 0 8 = 0x14 → Completes (.shr t k) s (s.computedRaw k w [a.2, b.2]
       (if opLogic w then a.1 >>> (b.1.toNat % 64) else a.1.sshiftRight (b.1.toNat % 64)))))

/-- R230: a quotient is rounded once and saturated; a divisor of 0 gives the limit with the sign of A, sets OVER and the
sticky DIV0. -/
def Obligations.EngineDivision : Prop :=
  ∀ (s : State) (k : Fin 8) (w : W64) (t : Ns), s.clean → s.engineAt k w → s.mayWrite k (opDst w) → fld w 0 8 = 0x05 →
    let a := s.operand k (opA w)
    let b := s.operandB k false w
    let q := (2 * (a.1.toInt * 2 ^ 32 * b.1.toInt.sign) + b.1.toInt.natAbs) / (2 * b.1.toInt.natAbs)
    Completes (.div t k) s fun s' =>
      if b.1 = 0 then
        s.wrote k (opDst w) (slotNumber (if 0 ≤ a.1.toInt then 2 ^ 63 else -(2 ^ 63))) (opTag [a.2, b.2] true) s' ∧
          s'.dev.ce[k].pc = s.dev.ce[k].pc + 1 ∧ s'.dev.ce[k].div0 = true
      else s.computed k w [a.2, b.2] q s'

/-- R232, R233: CMP sets or clears the flag and writes no slot; SEL copies the operand that the flag selects, with its
tag but WVIOL; JMPF goes on at its own index plus DST + 1 where its condition holds, else at the next operation. -/
def Obligations.EngineFlow : Prop :=
  ∀ (s : State) (k : Fin 8) (w : W64) (t : Ns), s.clean → s.engineAt k w →
    let a := s.operand k (opA w)
    let b := s.operandB k false w
    let c := s.dev.ce[k]
    let x := a.1.toInt
    let y := b.1.toInt
    (fld w 0 8 = 0x18 → opCond w < 6 → Completes (.cmp t k) s fun s' =>
      s'.dev.ce[k].flag = (match opCond w with
        | 0 => decide (x = y) | 1 => decide (x ≠ y) | 2 => decide (x < y) | 3 => decide (x ≤ y) | 4 => decide (x > y)
        | _ => decide (x ≥ y)) ∧
      s'.dev.ce[k].pc = c.pc + 1 ∧ s'.mems = s.mems ∧ s'.dev.ce[k].pub = c.pub) ∧
    (fld w 0 8 = 0x19 → s.mayWrite k (opDst w) → Completes (.sel t k) s fun s' =>
      s.wrote k (opDst w) (if c.flag then a.1 else b.1) ((if c.flag then a.2 else b.2) &&& 0x0F) s' ∧
      s'.dev.ce[k].pc = c.pc + 1 ∧ s'.dev.ce[k].flag = c.flag) ∧
    (fld w 0 8 = 0x3C → opCond w < 7 → Completes (.jmpf t k) s fun s' =>
      s'.dev.ce[k].pc = c.pc + 1 + (if (match opCond w with
        | 0 => c.flag | 1 => !c.flag | 2 => true | 3 => a.2.getLsbD 0 | 4 => !a.2.getLsbD 0 | 5 => a.2.getLsbD 1
        | _ => a.2.getLsbD 2) then opDst w else 0) ∧
      s'.mems = s.mems ∧ s'.dev.ce[k].pub = c.pub ∧ s'.dev.ce[k].flag = c.flag)

/-- R240: LUT1, LUT2 and LUT3 store OFFSET + SCALE × the entry interpolated at the clamped inputs, rounded once. The
interpolation is that of `MapDesc.locate` and `MapDesc.look`, in units of 2^-96. R240: a lookup never extrapolates:
below the first breakpoint and above the last one it reads as at that one. -/
def Obligations.EngineLookup : Prop :=
  (∀ (s : State) (k : Fin 8) (w : W64) (t : Ns), s.clean → s.engineAt k w → s.mayWrite k (opDst w) →
     let m := s.mems.mapDesc (opB w)
     let a := s.operand k (opA w)
     let b := s.operand k (opA w + 1)
     let c := s.operand k (opA w + 2)
     let px := m.locate s.mems 0 m.nx a.1.toInt
     let py := m.locate s.mems m.nx m.ny b.1.toInt
     let pz := m.locate s.mems (m.nx + m.ny) m.nz c.1.toInt
     let value (px py pz : Nat × Nat) : Int := (m.offset * 2 ^ 96 + m.scale * m.look s.mems px py pz + 2 ^ 95) / 2 ^ 96
     (fld w 0 8 = 0x20 → Completes (.lut1 t k) s (s.computed k w [a.2] (value px (0, 0) (0, 0)))) ∧
     (fld w 0 8 = 0x21 → Completes (.lut2 t k) s (s.computed k w [a.2, b.2] (value px py (0, 0)))) ∧
     (fld w 0 8 = 0x22 → Completes (.lut3 t k) s (s.computed k w [a.2, b.2, c.2] (value px py pz)))) ∧
  (∀ (m : Mems) (x : MapDesc) (first n : Nat) (v : Int),
     let bp (i : Nat) : Int := (m.word (x.bpAt first i)).toInt
     bp 0 ≤ bp (n - 1) →
       (v ≤ bp 0 → x.locate m first n v = x.locate m first n (bp 0)) ∧
       (bp (n - 1) ≤ v → x.locate m first n v = x.locate m first n (bp (n - 1))))

/-- R234: the PI controller. DST is the output u and DST + 1 the integral I, each published at once or, for an output
slot, staged by the engine. -/
def Obligations.EngineController : Prop :=
  ∀ (s : State) (k : Fin 8) (w : W64) (t : Ns), s.clean → s.engineAt k w → fld w 0 8 = 0x2B →
    s.mayWrite k (opDst w) → s.mayWrite k (opDst w + 1) →
    let v (i : Nat) : Int := (s.operand k i).1.toInt
    let e := v (opA w)
    let i := v (opDst w + 1)
    let lo := v (opB w + 2)
    let hi := v (opB w + 3)
    let ke := v (opB w + 1) * e
    let x := v (opB w) * e + i * 2 ^ 32 + ke
    let got (s' : State) (j : Nat) : Option W64 :=
      if (s.attr j).cls = 2 then (s'.dev.ce[k].pub.find? (·.1 == j)).map (·.2.1) else some (s'.slot j)
    Completes (.pi t k) s fun s' =>
      (lo * 2 ^ 32 ≤ x ∧ x ≤ hi * 2 ^ 32 →
        got s' (opDst w) = some (slotNumber (round32 x)) ∧
        got s' (opDst w + 1) = some (slotNumber (round32 (i * 2 ^ 32 + ke)))) ∧
      (∀ near far : Int, (near = lo ∧ far = hi) ∨ (near = hi ∧ far = lo) → ¬(lo * 2 ^ 32 ≤ x ∧ x ≤ hi * 2 ^ 32) →
        (x - near * 2 ^ 32).natAbs < (x - far * 2 ^ 32).natAbs ∨ near = far →
        got s' (opDst w) = some (slotNumber near) ∧
        got s' (opDst w + 1) =
          some (if ke * (x - near * 2 ^ 32) < 0 then slotNumber (round32 (i * 2 ^ 32 + ke)) else slotNumber i)) ∧
      s'.dev.ce[k].pc = s.dev.ce[k].pc + 1

/-- R235: ANGT and TANG at the present speed. With a POS_CYCLE_NS of 0, ANGT gives the limit with the sign of A and TANG
gives 0, both with OVER. The speed counts as an operand that is VALID in FULL and HALF. -/
def Obligations.EngineAngleTime : Prop :=
  ∀ (s : State) (k : Fin 8) (w : W64) (t : Ns), s.clean → s.engineAt k w → s.mayWrite k (opDst w) →
    let a := s.operand k (opA w)
    let x := a.1.toInt
    let n : Nat := s.dev.pos.cycleNs
    let deg : Nat := if s.dev.pos.wheel.twoStroke then 360 else 720
    let ops := [a.2, if s.dev.pos.sync = .full ∨ s.dev.pos.sync = .half then (1 : Byte) else 0]
    (fld w 0 8 = 0x30 → n ≠ 0 → Completes (.angt t k) s (s.computed k w ops ((2 * (x * n) + deg) / (2 * deg)))) ∧
    (fld w 0 8 = 0x31 → n ≠ 0 → Completes (.tang t k) s (s.computed k w ops ((2 * (x * deg) + n) / (2 * n)))) ∧
    (fld w 0 8 = 0x30 → n = 0 → Completes (.angt t k) s fun s' =>
      s.wrote k (opDst w) (slotNumber (if 0 ≤ x then 2 ^ 63 else -(2 ^ 63))) (opTag ops true) s' ∧
      s'.dev.ce[k].pc = s.dev.ce[k].pc + 1) ∧
    (fld w 0 8 = 0x31 → n = 0 → Completes (.tang t k) s fun s' =>
      s.wrote k (opDst w) 0 (opTag ops true) s' ∧ s'.dev.ce[k].pc = s.dev.ce[k].pc + 1)

/-- R232, R244: the oldest trigger of an idle engine starts its list two clocks after it arrived or reached the head: the flag is cleared
and the first operation is the next one. A list of LEN 0 counts as a run instead. R227: END publishes the staged slots
in the order of their first writing and ends the run. R244: a run whose deadline has passed stops: its staged writes are
dropped, published and state slots stay, the overrun is flagged, counted and reported as CE_OVERRUN, and the engine is
free for its next trigger. -/
def Obligations.EngineRuns : Prop :=
  (∀ (s : State) (k : Fin 8) (t : Ns) (x : Trigger) (l : List Trigger) (n : W64), s.dev.settled →
     s.dev.ce[k].state = .idle → s.dev.ce[k].stepReq = false → s.dev.ce[k].haltReq = false →
     s.dev.sup.mode.engines = true → bit s.dev.ce[k].cfg 0 = true → s.dev.ce[k].queue = x :: l →
     max x.arrival s.dev.ce[k].headAt + 8 ≤ s.now t → s.dev.listEntry k x.list = some n →
     Completes (.runStart t k) s fun s' =>
       let c := s'.dev.ce[k]
       c.queue = l ∧ c.flag = false ∧ c.pub = [] ∧ c.runTrig = BitVec.ofNat 5 x.entry ∧ s'.mems = s.mems ∧
       (fld n 16 14 ≠ 0 → c.pc = x.list ∧ c.cur = some x ∧ c.runs = s.dev.ce[k].runs ∧
         c.state = if s.dev.ce[k].bpEn ∧ s.dev.ce[k].bp.toNat = x.list then .halted else .running) ∧
       (fld n 16 14 = 0 → c.state = .idle ∧ c.cur = none ∧ c.runs = s.dev.ce[k].runs + 1)) ∧
  (∀ (s : State) (k : Fin 8) (t : Ns) (w : W64) (x : Trigger), s.clean → s.engineAt k w → fld w 0 8 = 0x00 →
     s.dev.ce[k].stepReq = false → s.dev.ce[k].haltReq = false → s.dev.ce[k].cur = some x →
     Completes (.ceEnd t k) s fun s' =>
       s'.mems = s.dev.ce[k].pub.foldl
         (fun m y => (MemOp.slot y.1 y.2.1 (y.2.2 ||| ((s.attr y.1).tag &&& 0x10))).apply m) s.mems ∧
       s'.dev.ce[k].state = .idle ∧ s'.dev.ce[k].pub = [] ∧ s'.dev.ce[k].cur = none ∧
       s'.dev.ce[k].runs = s.dev.ce[k].runs + 1 ∧ s'.dev.ce[k].queue = s.dev.ce[k].queue) ∧
  (∀ (s : State) (k : Fin 8) (t : Ns) (x : Trigger), s.dev.settled → s.dev.ce[k].cur = some x →
     s.dev.ce[k].state = .running → s.dev.ce[k].stepReq = false → s.dev.ce[k].haltReq = false →
     x.arrival + x.halted + x.deadline ≤ s.now t → s.onlyNoted 15 →
     Completes (.overrun t k 0) s fun s' =>
       s'.dev.ce[k].state = .idle ∧ s'.dev.ce[k].cur = none ∧ s'.dev.ce[k].pub = [] ∧ s'.dev.ce[k].overrun = true ∧
       s'.dev.ce[k].overruns = s.dev.ce[k].overruns + 1 ∧ s'.dev.ce[k].queue = s.dev.ce[k].queue ∧ s'.mems = s.mems ∧
       s.reported 15 s')

/-- R237: REQ puts the request block at A into the engine's yard and waits; the result word is stored raw with VALID and
the list goes on. -/
def Obligations.EngineRequest : Prop :=
  (∀ (s : State) (k : Fin 8) (w : W64) (t : Ns), s.clean → s.engineAt k w → fld w 0 8 = 0x38 →
    Completes (.req t k) s fun s' =>
      let y := s.dev.adm.ce[k]
      s'.dev.ce[k].state = .waitReq ∧ s'.dev.ce[k].pc = s.dev.ce[k].pc ∧ s'.dev.ce[k].reqDst = opDst w ∧
      s'.dev.ce[k].reqs = s.dev.ce[k].reqs + 1 ∧ s'.dev.adm.ce[k].fill = y.fill + 1 ∧
      s'.dev.adm.ce[k].submitted = y.submitted + 1 ∧
      (∀ j : Fin 8, (s'.dev.adm.ce[k].entries[Fin.ofNat 16 ((y.head + y.fill) % 16)]).words[j] = (s.operand k (opA w + j.val)).1) ∧
      s'.mems = s.mems) ∧
  (∀ (s : State) (k : Fin 8) (t : Ns) (r : W64), s.clean → s.dev.ce[k].state = .waitReq → s.dev.ce[k].reqRes = some r →
    s.mayWrite k s.dev.ce[k].reqDst →
    Completes (.reqResult t k) s fun s' =>
      s.wrote k s.dev.ce[k].reqDst r 1 s' ∧ s'.dev.ce[k].pc = s.dev.ce[k].pc + 1 ∧ s'.dev.ce[k].reqEntry = none)

/-- R238, R293: EMIT pushes the value of A to its target, and the list goes on (a compare value written in the clock of a tick
of its unit may fire besides); a push into a full PIO queue or a full
record staging is lost, flagged and counted. -/
def Obligations.EngineEmit : Prop :=
  ∀ (s : State) (k : Fin 8) (w : W64) (t : Ns), s.clean → s.engineAt k w → fld w 0 8 = 0x39 →
    let a := s.operand k (opA w)
    let kind := opDst w / 2 ^ 13 % 8
    let i := opDst w % 2 ^ 13
    let next (s' : State) : Prop := s'.dev.ce[k].pc = s.dev.ce[k].pc + 1 ∧ s'.mems = s.mems
    let kept (s' : State) : Prop := s'.dev.ce[k].emitLost = s.dev.ce[k].emitLost ∧ s'.dev.ce[k].emitLosts = s.dev.ce[k].emitLosts
    let lost (s' : State) : Prop := s'.dev.ce[k].emitLost = true ∧ s'.dev.ce[k].emitLosts = s.dev.ce[k].emitLosts + 1
    (kind = 0 → Completes (.emitCanSignal t k) s fun s' => next s' ∧ kept s' ∧
      s'.dev.can[Fin.ofNat 4 (i / 2048)].emits.find? (·.1 == i % 2048) = some (i % 2048, a.1, a.2)) ∧
    (kind = 1 → i < 40 → i % 5 = 0 → Completes (.emitTimerBuffer t k) s fun s' => next s' ∧ kept s' ∧
      s'.dev.tmu[Fin.ofNat 8 (i / 5)].reload = a.1.setWidth 32) ∧
    (kind = 1 → i < 40 → i % 5 ≠ 0 → s.dev.tmu[Fin.ofNat 8 (i / 5)].tickedAt ≠ some (s.now t) →
      s.dev.tmu[Fin.ofNat 8 (i / 5)].ch[Fin.ofNat 4 (i % 5 - 1)].mode ≠ 2 →
      Completes (.emitTimerBuffer t k) s fun s' => next s' ∧ kept s' ∧
        s'.dev.tmu[Fin.ofNat 8 (i / 5)].ch[Fin.ofNat 4 (i % 5 - 1)].val = a.1.setWidth 32) ∧
    (kind = 2 → Completes (.emitPioQueue t k) s fun s' => next s' ∧
      let x := s.dev.pio[Fin.ofNat 8 i]
      let y := s'.dev.pio[Fin.ofNat 8 i]
      if x.tx.length < x.txCap then y.tx = x.tx ++ [a.1.setWidth 32] ∧ kept s' else y = x ∧ lost s') ∧
    (kind = 3 → Completes (.emitNote t k) s fun s' => next s' ∧
      if s.dev.recm.staging.length < 256 then kept s' ∧ s'.dev.recm.staging = Rec.insert
        { type := 11, dtime := s.now t, pres := s.now t, body := [put 0 13 i ||| put 16 8 a.2.toNat ||| put 32 3 k.val, a.1] }
        s.dev.recm.staging
      else s'.dev.recm = s.dev.recm ∧ lost s') ∧
    (kind = 4 → i < 2 → fld a.1 0 4 < 14 → fld a.1 4 4 ≤ 8 → bit s.dev.cnv[Fin.ofNat 2 i].cfg 0 = true →
      s.dev.convOn = true → Completes (.emitUrgent t k) s fun s' => next s' ∧
      let x := s.dev.cnv[Fin.ofNat 2 i]
      let y := s'.dev.cnv[Fin.ofNat 2 i]
      if x.urgQ.length < 4 then kept s' ∧
        y.urgQ = x.urgQ ++ [{ mux := BitVec.ofNat 4 (fld a.1 0 4), osr := fld a.1 4 4, seq := x.nextSeq
                              at_ := s.now t, emit := some k }]
      else y.urgQ = x.urgQ ∧ lost s')

/-- R247: in SERVICE, or with DBG_RUN, a running engine halts, a halted one takes one operation or resumes, and SLOT_VAL
writes a state slot of a halted engine or a constant with VALID; in SERVICE or not, elsewhere nothing is written. -/
def Obligations.EngineDebug : Prop :=
  ∀ (s : State) (p : Path) (k : Fin 8) (t : Ns) (v : W64), s.clean →
    (s.dev.debugMay = true →
      (s.dev.ce[k].state = .running → Completes (.halt t p k) s fun s' =>
        s'.dev.ce[k].state = .halted ∧ s'.dev.ce[k].resumeTo = .running ∧ s'.dev.ce[k].pc = s.dev.ce[k].pc ∧
        s'.dev.ce[k].haltedAt = s.now t ∧ s'.mems = s.mems) ∧
      (s.dev.ce[k].state = .halted → s.dev.ce[k].resumeTo = .running →
        (Completes (.step t p k) s fun s' => s'.dev.ce[k] = { s.dev.ce[k] with stepReq := true }) ∧
        (Completes (.resume t p k) s fun s' => s'.dev.ce[k].state = .running ∧ s'.dev.ce[k].stepReq = false ∧
          s'.dev.ce[k].pc = s.dev.ce[k].pc ∧ s'.dev.ce[k].pub = s.dev.ce[k].pub))) ∧
    (s.dev.debugMay = false → Completes (.halt t p k) s fun s' =>
      s'.dev.ce[k] = { s.dev.ce[k] with cfgIgn := true }) ∧
    (let i := fld (s.dev.ctx p).slotIdx 0 14;
      (s.dev.sup.mode = .service → (s.attr i).cls = 0 → (s.attr i).writer = 15 ∨ (∃ j : Fin 8, (s.attr i).writer.toNat = j.val ∧
        s.dev.ce[j].state = .halted) →
        Completes (.slotValWrite t p v) s fun s' => s'.slot i = v ∧
          s'.attr i = { s.attr i with tag := ((s.attr i).tag &&& 0x10) ||| 1 } ∧ ∀ j, j ≠ i → s'.attr j = s.attr j) ∧
      (s.dev.sup.mode ≠ .service → Completes (.slotValWrite t p v) s fun s' => s'.mems = s.mems ∧ s'.dev.ces.wrIgn = true))

/-- Frame of the operations of an engine that are neither REQ, nor EMIT, nor END: beside the slots they write and their
engine, the block stays as it was. CMP and JMPF write no slot, PI writes two. (Where a writer violation or a damaged
word ends the run, R225 and R407 apply.) -/
def Obligations.EngineFrame : Prop :=
  ∀ (s : State) (k : Fin 8) (w : W64) (t : Ns), s.clean → s.engineAt k w →
    let frame (s' : State) : Prop :=
      s.touches [.calc, .mems] s' ∧ s'.dev.ces = s.dev.ces ∧ (∀ j : Fin 8, j ≠ k → s'.dev.ce[j] = s.dev.ce[j]) ∧
      s'.dev.ce[k].queue = s.dev.ce[k].queue ∧ s'.dev.ce[k].cur = s.dev.ce[k].cur
    (∀ i ∈ ([.cmp t k, .jmpf t k] : List Instr), Completes i s fun s' => frame s' ∧ s'.mems = s.mems) ∧
    (s.mayWrite k (opDst w) → ∀ i ∈ ([.mov t k, .add t k, .sub t k, .mul t k, .div t k, .mac t k, .min t k, .max t k,
        .clamp t k, .abs t k, .neg t k, .and t k, .or t k, .xor t k, .shl t k, .shr t k, .sel t k, .lut1 t k, .lut2 t k,
        .lut3 t k, .lag t k, .rate t k, .integ t k, .angt t k, .tang t k] : List Instr),
      Completes i s fun s' => frame s' ∧
        (∀ a, (a < slotAddr (opDst w) ∨ slotAddr (opDst w) + 8 ≤ a) → s'.mems.byte a = s.mems.byte a) ∧
        ∀ j, j ≠ opDst w → s'.attr j = s.attr j) ∧
    (s.mayWrite k (opDst w) → s.mayWrite k (opDst w + 1) → Completes (.pi t k) s fun s' => frame s' ∧
      (∀ a, (a < slotAddr (opDst w) ∨ slotAddr (opDst w) + 16 ≤ a) → s'.mems.byte a = s.mems.byte a) ∧
      ∀ j, j ≠ opDst w → j ≠ opDst w + 1 → s'.attr j = s.attr j)

/-! ### Converters -/

/-- R256, R257, R261 to R263, R243: a result of the scan, due when the fourth output period after the restart of the filter ends,
is trimmed (R251) and kept in its entry, delivered to its slot in volts with VALID
but while the reference has not settled, and ALARM where it is over range; the scan goes on to its next entry. A result
that leaves its window is recorded and starts the lists of the engines that wait for it. -/
def Obligations.ScanResults : Prop :=
  ∀ (s : State) (t sample : Ns) (c : Fin 2) (raw : BitVec 24) (ovr : Bool) (src : IntSources) (mux : Nat), s.clean →
    let x := s.dev.cnv[c]
    let osr := fld x.scan 16 4
    let code := trimmed (if c = 0 then s.fuses.trimA else s.fuses.trimB) raw
    let r := s.dev.cnvResult mux osr sample code ovr
    let e : Fin 16 := Fin.ofNat 16 x.entry
    let inside := decide (x.win[e].lo ≤ code) && decide (code ≤ x.win[e].hi) && !ovr
    let i := fld x.slot 0 14 + mux
    let last := x.entry + 1 = x.inputs.length
    x.scanning = true → s.dev.convOn = true → x.inputs[x.entry]? = some mux → mux < 12 → fld x.cfg 24 8 = 0 →
    (s.dev.at t).converted x.filtAt osr sample = true →
    (bit x.slot 14 = true → i < 16384 ∧ (s.attr i).cls = 1 ∧ (s.attr i).writer = 8) →
    let kept (s' : State) : Prop :=
      let y := s'.dev.cnv[c]
      y.res[e] = r ∧ r.code = code ∧ r.ovr = ovr ∧ r.valid = true ∧ r.time = sample ∧ (s.dev.cnvs.refOk = false → r.unset = true) ∧
      y.rounds = x.rounds + (if last then 1 else 0) ∧ y.ovrs = x.ovrs + (if ovr then 1 else 0) ∧
      (x.inputs.length = 1 → y.entry = x.entry ∧ y.settled = true ∧ y.filtAt = sample - 3 * outPeriod osr) ∧
      (x.inputs.length ≠ 1 → y.entry = (if last then 0 else x.entry + 1) ∧ y.settled = false ∧ y.filtAt = sample) ∧
      (∀ j, j ≠ c → s'.dev.cnv[j] = s.dev.cnv[j]) ∧
      (bit x.slot 14 = false → s'.mems = s.mems) ∧
      (bit x.slot 14 = true → s'.slot i = BitVec.ofNat 64 (code.toNat * 5 * 256) ∧
        s'.attr i = { s.attr i with tag := (if r.unset then 0 else 1) ||| (if ovr then 4 else 0) ||| ((s.attr i).tag &&& 0x10) })
    (x.win[e].en = false ∨ r.unset = true ∨ inside = x.win[e].inside → Completes (.scanResult t c sample ⟨raw, src⟩ ovr) s fun s' =>
      kept s' ∧ s'.dev.cnv[c].win = x.win ∧ s'.dev.cnv[c].winEvt = x.winEvt ∧ s.touches [.conv, .mems] s') ∧
    (x.win[e].en = true → r.unset = false → x.win[e].inside = true → inside = false → s.room [6] →
      Completes (.scanResult t c sample ⟨raw, src⟩ ovr) s fun s' =>
        kept s' ∧ s'.dev.cnv[c].win[e].inside = false ∧ s'.dev.cnv[c].winEvt = true ∧
        (∃ z ∈ s'.dev.recm.staging, z.type = 6 ∧ z.tflags = 0 ∧ z.dtime = sample ∧ z.pres = s.now t) ∧
        (∀ (k : Fin 8) (n : Nat), n < 32 → s.dev.sup.mode.engines = true → bit s.dev.ce[k].cfg 0 = true →
          let w := s.dev.trigWord k n
          fld w 0 3 = 6 → fld w 3 13 % 2 = c.val → fld w 3 13 / 2 % 16 = x.entry → ∃ z ∈ s'.dev.ce[k].queue,
            z.list = fld w 16 13 ∧ z.entry = n ∧ z.arrival = s.now t ∧ z.deadline = fld w 32 16 * 1000) ∧
        s.touches [.conv, .mems, .calc, .recs] s')

/-- R255, R257, R259: a write of CNV_SCAN starts the scan anew; an OSR beyond 8 is ignored and flagged. An urgent
conversion aborts the scan, its result (due as any is, R256, and trimmed, R251) reaches URG with its slot and record, and the
scan resumes at the entry it left. A result that is not due is none.
The reference is good 5 ms after it was enabled. -/
def Obligations.Conversions : Prop :=
  ∀ (s : State) (t : Ns) (c : Fin 2), s.clean →
    let x := s.dev.cnv[c]
    (∀ (p : Path) (v : W64), 8 < fld v 16 4 → Completes (.cnvScanWrite t p c v) s fun s' =>
      s'.dev.cnv[c] = { x with cfgIgn := true } ∧ s'.mems = s.mems ∧ s.touches [.conv, .paths] s') ∧
    (∀ (p : Path) (v : W64), fld v 16 4 ≤ 8 → Completes (.cnvScanWrite t p c v) s fun s' =>
      let y := s'.dev.cnv[c]
      y.scan = v &&& 0xFFFFF ∧ y.aborts = (if x.scanning then x.aborts + 1 else x.aborts) ∧ y.entry = 0 ∧ y.settled = false ∧
      y.filtAt = (if x.urgRun.isSome then x.filtAt else s.now t) ∧ y.cutAt = none ∧ y.urgRun = x.urgRun ∧ y.urgQ = x.urgQ ∧
      y.scanning = (s.dev.convOn && x.enabled && !y.inputs.isEmpty && x.urgRun.isNone && x.urgQ.isEmpty) ∧
      (∀ j : Fin 16, y.res[j] = { x.res[j] with valid := false } ∧ y.win[j] = { x.win[j] with inside := true }) ∧
      (fld v 0 16 = 0 → ∀ i ∈ x.slots, i < 16384 → (s.attr i).cls = 1 → (s.attr i).writer = 8 → (s'.attr i).tag = ((s.attr i).tag ||| 2) &&& 0xFE) ∧
      (x.slots = [] → s'.mems = s.mems) ∧ (∀ i, s'.slot i = s.slot i) ∧ s.touches [.conv, .paths, .mems] s') ∧
    (∀ r l, x.urgQ = r :: l → x.urgRun = none → x.enabled = true → s.dev.convOn = true → r.at_ ≤ s.now t → Completes (.urgentStart t c) s fun s' =>
      let y := s'.dev.cnv[c]
      y.urgRun = some r ∧ y.urgQ = l ∧ y.scanning = false ∧ y.filtAt = s.now t ∧
      y.cutAt = (if x.scanning then some x.filtAt else none) ∧ y.entry = x.entry ∧
      y.aborts = (if x.scanning then x.aborts + 1 else x.aborts) ∧ s.touches [.conv] s') ∧
    (x.urgQ = [] ∨ x.urgRun ≠ none ∨ s.dev.convOn = false → Completes (.urgentStart t c) s (s.touches [])) ∧
    (∀ sample raw ovr src, (∀ q, x.urgRun = some q → (s.dev.at t).converted x.filtAt q.osr sample = false) →
      Completes (.urgentResult t c sample ⟨raw, src⟩ ovr) s (s.touches [])) ∧
    (∀ sample raw ovr src, (s.dev.at t).scanDone c sample = false → Completes (.scanResult t c sample ⟨raw, src⟩ ovr) s (s.touches [])) ∧
    (∀ q sample raw ovr src, x.urgRun = some q → q.mux.toNat < 12 → (s.dev.at t).converted x.filtAt q.osr sample = true →
      let code := trimmed (if c = 0 then s.fuses.trimA else s.fuses.trimB) raw
      (bit x.slot 30 = true → fld x.slot 16 14 < 16384 ∧ (s.attr (fld x.slot 16 14)).cls = 1 ∧ (s.attr (fld x.slot 16 14)).writer = 8) →
      Completes (.urgentResult t c sample ⟨raw, src⟩ ovr) s fun s' =>
        let y := s'.dev.cnv[c]
        y.urg = s.dev.cnvResult q.mux.toNat q.osr sample code ovr ∧ y.urgSeq = q.seq ∧ y.urgDone = x.urgDone + 1 ∧ y.urgRun = none ∧
        y.scanning = (s.dev.convOn && x.enabled && !x.inputs.isEmpty && x.urgQ.isEmpty) ∧ y.entry = x.entry ∧ y.settled = false ∧
        y.filtAt = sample ∧ y.res = x.res ∧
        (bit x.slot 30 = true → s'.slot (fld x.slot 16 14) = BitVec.ofNat 64 (code.toNat * 5 * 256)) ∧
        (bit x.slot 30 = false → s'.mems = s.mems) ∧ (bit x.cfg 3 = false → s'.dev.recm = s.dev.recm) ∧
        (bit x.cfg 3 = true → ∃ z ∈ s'.dev.recm.staging, z.type = 6 ∧ z.tflags = 2 ∧ z.dtime = sample ∧ z.pres = s.now t) ∧
        s.touches [.conv, .mems, .recs] s') ∧
    (s.dev.cnvs.refEn = true → s.dev.cnvs.refOk = false → s.dev.cnvs.refAt + 5000000 ≤ s.now t → Completes (.refOk t) s fun s' =>
      s'.dev.cnvs = { s.dev.cnvs with refOk := true, refOkAt := s.now t } ∧ s'.dev.cnv = s.dev.cnv ∧ s.touches [.conv] s') ∧
    (s.dev.cnvs.refEn = false ∨ s.now t < s.dev.cnvs.refAt + 5000000 → Completes (.refOk t) s (s.touches []))

/-! ### Records and snapshots -/

/-- R268, R269, R274, R275: the record whose turn it is goes to the ring of its type, after whatever is pending there.
The ring takes no record where its size is 0; where the record finds no room, a ring that overwrites drops its oldest
pending records, as few as do, counts them and says so in the header; a ring that stops loses the record. (No stream
takes part.) CLR_LOST and DISCARD act on the selected ring. -/
def Obligations.RecordWriting : Prop :=
  (∀ (s : State) (t : Ns) (x : Rec) (m : RecM), s.clean → s.dev.recWrites = true → s.dev.recm.next = some (x, m) →
    (∀ i : Fin 2, s.dev.recm.streams[i].en = false) →
    let k : Fin 12 := Fin.ofNat 12 x.type
    let r := s.dev.recm.rings[k]
    let n (l : List Stored) : Nat := (l.map Stored.size).sum
    let body := x.body ++ (if x.type = 4 ∧ s.dev.recm.evFull.getLsbD (x.evType - 1) = true then x.ext else [])
    let size := 8 * (body.length + 2)
    let room := 1024 * r.size
    let base := recBase + 1024 * r.base
    (r.size = 0 → Completes (.recordWrite t) s fun s' => s'.dev.recm = m ∧ s.touches [.recs] s') ∧
    (r.size ≠ 0 → r.policy = true → room < n r.pending + size → Completes (.recordWrite t) s fun s' =>
      let y := s'.dev.recm.rings[k]
      y.pending = r.pending ∧ y.stopped = true ∧ y.next = r.next + 1 ∧ y.lost.toNat = min (2 ^ 32 - 1) (r.lost.toNat + 1) ∧
      y.lostSeen = true ∧ s.touches [.recs] s') ∧
    (r.size ≠ 0 → ¬(r.policy = true ∧ room < n r.pending + size) → Completes (.recordWrite t) s fun s' =>
      let y := s'.dev.recm.rings[k]
      (∃ j st, j ≤ r.pending.length ∧ y.pending = r.pending.drop j ++ [st] ∧ st.start = r.wptr ∧ st.words.tail.tail = body ∧
        (∀ i, i < j → room < n (r.pending.drop i) + size) ∧ (j < r.pending.length → n (r.pending.drop j) + size ≤ room) ∧
        y.lost.toNat = min (2 ^ 32 - 1) (r.lost.toNat + j) ∧
        fld (reqWord st.words 0) 0 8 = x.type % 256 ∧ fld (reqWord st.words 0) 32 32 = r.next.toNat ∧
        bit (reqWord st.words 0) 18 = (r.lostBefore || decide (j ≠ 0)) ∧ reqWord st.words 1 = put 0 64 x.dtime ∧
        (r.wptr + size ≤ room → base + r.wptr + size ≤ msgBase → ∀ i, i < size →
          s'.mems.byte (base + r.wptr + i) = ((wordsBytes st.words)[i]?).getD 0)) ∧
      y.next = r.next + 1 ∧ y.wptr = (r.wptr + size) % room ∧ y.stopped = false ∧
      (∀ a, a < recBase → s'.mems.byte a = s.mems.byte a) ∧ s'.mems.attrs = s.mems.attrs ∧
      (∀ j, j ≠ k → s'.dev.recm.rings[j] = s.dev.recm.rings[j]) ∧ s.touches [.recs, .mems] s')) ∧
  (∀ (s : State) (t : Ns) (p : Path), s.dev.settled →
    let k := fld (s.dev.ctx p).ringSel 0 4
    let r := s.dev.recm.rings[Fin.ofNat 12 k]
    (1 ≤ k → k ≤ 11 →
      (Completes (.clrLost t p) s fun s' => s'.dev.recm.rings[Fin.ofNat 12 k] = { r with lost := 0 } ∧
        (∀ j, j ≠ Fin.ofNat 12 k → s'.dev.recm.rings[j] = s.dev.recm.rings[j]) ∧ s.touches [.recs, .paths] s') ∧
      (Completes (.discard t p) s fun s' => s'.dev.recm.rings[Fin.ofNat 12 k] = { r with pending := [], stopped := false } ∧
        (∀ j, j ≠ Fin.ofNat 12 k → s'.dev.recm.rings[j] = s.dev.recm.rings[j]) ∧ s.touches [.recs, .paths] s')) ∧
    (k = 0 ∨ 11 < k → Completes (.clrLost t p) s (s.touches [.paths]) ∧ Completes (.discard t p) s (s.touches [.paths])))

/-- R277: MAX_WAIT after its first record a stream's frame is queued as it stands, an XL frame with a header and whole
records; before that nothing happens. Once its controller has sent it, its records are consumed. -/
def Obligations.Streams : Prop :=
  ∀ (s : State) (t : Ns) (i : Fin 2), s.clean →
    let x := s.dev.recm.streams[i]
    let l := (takeFrame (fld x.cfg 8 11) 0 (s.dev.pendingOf (streamCode i))).1
    (∀ a, x.firstAt = some a → x.en = true → x.queued = none → l ≠ [] → a + 1000 * fld x.cfg 32 16 ≤ s.now t →
      s.dev.canSends x.can = true → Completes (.streamMaxWait t i) s fun s' =>
        let y := s'.dev.recm.streams[i]
        (∃ f, s'.dev.can[x.can].txq = s.dev.can[x.can].txq ++ [f] ∧ f.src = .stream i ∧ f.at_ = s.now t ∧ f.frame.format = .xl ∧
          f.frame.id.toNat = fld x.cfg 48 11 ∧ f.frame.data.drop 8 = l.flatMap (fun z => wordsBytes z.2.words) ∧
          y.queued = some (f.frame.data.length, l.map fun z => (z.1, z.2.ord))) ∧
        y.count = x.count + 1 ∧ y.firstAt = none ∧ s'.dev.recm.rings = s.dev.recm.rings ∧ s.touches [.recs, .can] s') ∧
    (∀ a, x.firstAt = some a → s.now t < a + 1000 * fld x.cfg 32 16 → Completes (.streamMaxWait t i) s (s.touches [])) ∧
    (∀ n recs, x.queued = some (n, recs) → s.dev.streamWaits i = false → Completes (.streamFrameTransmitted t i) s fun s' =>
      let y := s'.dev.recm.streams[i]
      y.frames = x.frames + 1 ∧ y.lastLen = BitVec.ofNat 12 n ∧
      (∀ (k : Fin 12) (z : Stored), z ∈ s'.dev.recm.rings[k].pending ↔ z ∈ s.dev.recm.rings[k].pending ∧ (k, z.ord) ∉ recs) ∧
      s.touches [.recs, .can] s') ∧
    (s.dev.streamWaits i = true → Completes (.streamFrameTransmitted t i) s (s.touches []))

/-- R279 to R281: a snapshot latches all its registers at one DTIME, numbers itself, and pulses SNAP_OUT; a trigger
within 100 ns merges into it; its record is presented once that window has closed. A trigger whose source is off does
nothing; a filtered-out level at SNAP_IN is no edge. -/
def Obligations.Snapshots : Prop :=
  ∀ (s : State) (t : Ns) (p : Path), s.dev.settled →
    let x := s.dev.snap
    let now := s.now t
    let latched (src : Nat) (s' : State) : Prop :=
      let y := s'.dev.snap
      y.num = (if x.num = 65535 then 1 else x.num + 1) ∧ y.sources = BitVec.ofNat 6 (2 ^ src) ∧ y.time = now ∧ y.open_ = true ∧
      y.ctrl = 0xE1FF ∧ y.coord = s.dev.noEvent ∧ y.rnum = 0 ∧ y.outUntil = some (now + fld x.cfg 8 8 * 1000) ∧ y.merged = x.merged ∧
      y.regs = (s.dev.at t).snapRegs
    (bit x.cfg 4 = true → x.open_ = false ∨ x.time + 100 < now → Completes (.snapCmdTrig t p) s fun s' =>
      s'.dev.snap.num = (if x.num = 65535 then 1 else x.num + 1) ∧ s'.dev.snap.time = now ∧ s'.dev.snap.sources = 16 ∧
      s'.dev.snap.open_ = true ∧ s'.dev.snap.outUntil = some (now + fld x.cfg 8 8 * 1000) ∧ s.touches [.snap, .paths] s') ∧
    (bit x.cfg 4 = true → x.open_ = true → now ≤ x.time + 100 → Completes (.snapCmdTrig t p) s fun s' =>
      s'.dev.snap = { x with sources := x.sources ||| 16, merged := x.merged + 1 } ∧ s.touches [.snap, .paths] s') ∧
    (bit x.cfg 4 = false → Completes (.snapCmdTrig t p) s (s.touches [.paths])) ∧
    (∀ (rising : Bool) (n : Nat), n < fld x.cfg 24 8 → Completes (.snapInEdge t rising n) s (s.touches [])) ∧
    (∀ n, fld x.cfg 24 8 ≤ n → bit x.cfg 0 = true → fld x.cfg 6 2 = 2 → x.open_ = false ∨ x.time + 100 < now →
      (∀ u : Fin 8, s.dev.tmu[u].src ≠ 56) → ∀ rising : Bool, Completes (.snapInEdge t rising n) s fun s' =>
        latched 0 s' ∧ s'.dev.snap.inLevel = rising ∧ s.touches [.snap] s') ∧
    (x.open_ = true → x.time + 100 < now → Completes (.mergeWindowClose t) s fun s' =>
      s'.dev.snap = { x with open_ := false } ∧
      (∃ r ∈ s'.dev.recm.staging, r.type = 8 ∧ r.dtime = x.time ∧ r.pres = now ∧ fld (reqWord r.body 0) 0 16 = x.num.toNat ∧
        r.body.drop 2 = x.regs.toList) ∧ s.touches [.snap, .recs] s') ∧
    (x.open_ = false ∨ now ≤ x.time + 100 → Completes (.mergeWindowClose t) s (s.touches [])) ∧
    (∀ a, x.outUntil = some a → a ≤ now → Completes (.snapOutEnd t) s fun s' =>
      s'.dev.snap = { x with outUntil := none } ∧ s.touches [.snap] s') ∧
    (∀ a, x.outUntil = some a → now < a → Completes (.snapOutEnd t) s (s.touches []))

/-! ### Timers and PIO -/

/-- R283, R284, R287 to R291: a tick of the prescaled reference, once its period is over, counts a running unit down, or from 0
reloads it, with ZERO set and counted and its compare channels armed; an armed channel whose VALUE is reached acts on OUT,
sets EVT, counts and starts the lists that wait for it. In the clock of a reset, or with its gate shut, a unit does not
count, but its prescaler runs on. No other unit is clocked or reset by it here, nor takes its ZERO for a capture; one that
is clocked by ZERO counts in the same command, and one that is clocked by a pin at an edge from outside. An edge that has
held at its source for FILT samples, the first of them after the last accepted edge, is accepted: a capture keeps the count
and the moment, in steps of 25 ns. -/
def Obligations.TimerEvents : Prop :=
  ∀ (s : State) (t : Ns) (u : Fin 8), s.dev.settled → s.dev.sup.mode ≠ .bivouac → s.room [2] →
    let x := s.dev.tmu[u]
    let zero := decide (x.cnt = 0)
    let cnt := if zero then x.reload - 1 else x.cnt - 1
    let hit (x : Tmu) (zero : Bool) (cnt : W32) (c : Fin 4) : Prop :=
      x.ch[c].mode = 1 ∧ (x.ch[c].armed || zero) = true ∧ (x.ch[c].val - cnt).toNat < 2 ^ 31
    let act (a b : Chan) : Prop := b.out = (match fld a.cfg 2 2 with | 1 => true | 2 => false | 3 => !a.out | _ => a.out) ∧ b.evt = true ∧
      b.events = a.events + 1
    let single (v : Fin 8) : Prop := s.dev.tmu[v].clk = false ∧ s.dev.tmu[v].slave ≠ 2
    let alone := ∀ w : Fin 8, single w ∧ ∀ c : Fin 4, s.dev.tmu[w].ch[c].mode = 2 → 8 ≤ fld s.dev.tmu[w].ch[c].cfg 10 6
    let due := x.from_ + x.period ≤ s.now t + s.dev.sup.dstep
    (x.running = true → s.dev.gateOpen x = true → alone → due → x.resetAt ≠ some (s.now t) → Completes (.tmuTick t u) s fun s' =>
      let y := s'.dev.tmu[u]
      y.cnt = cnt ∧ y.zero = (x.zero || zero) ∧ y.zeros = x.zeros + (if zero then 1 else 0) ∧ y.running = true ∧ y.cfg = x.cfg ∧
      y.from_ = x.from_ + x.period ∧
      (∀ c : Fin 4, (hit x zero cnt c → act x.ch[c] y.ch[c] ∧ y.ch[c].armed = false ∧ y.ch[c].val = x.ch[c].val) ∧
        (¬hit x zero cnt c → y.ch[c] = if zero && decide (x.ch[c].mode = 1) then { x.ch[c] with armed := true } else x.ch[c])) ∧
      (∀ w, w ≠ u → s'.dev.tmu[w] = s.dev.tmu[w]) ∧ s'.dev.sup.mode = s.dev.sup.mode ∧ s.touches [.tmu, .calc, .sup] s') ∧
    (alone → x.running = false ∨ ¬due → Completes (.tmuTick t u) s fun s' =>
      s'.dev.tmu = s.dev.tmu ∧ s'.dev.sup.mode = s.dev.sup.mode ∧ s.touches [.sup] s') ∧
    (alone → x.running = true → due → s.dev.gateOpen x = false ∨ x.resetAt = some (s.now t) → Completes (.tmuTick t u) s fun s' =>
      s'.dev.tmu[u] = { x with from_ := x.from_ + x.period } ∧ (∀ w, w ≠ u → s'.dev.tmu[w] = s.dev.tmu[w]) ∧
      s'.dev.sup.mode = s.dev.sup.mode ∧ s.touches [.tmu, .sup] s') ∧
    (∀ w : Fin 8, w ≠ u → x.running = true → x.slave = 0 → x.cnt = 0 → due → x.resetAt ≠ some (s.now t) →
      s.dev.tmu[w].clk = true → s.dev.tmu[w].src = u.val → s.dev.tmu[w].resetAt ≠ some (s.now t) →
      s.dev.tmu[w].running = true → s.dev.tmu[w].cnt ≠ 0 → (∀ v, v ≠ w → single v) →
      (∀ (v : Fin 8) (c : Fin 4), s.dev.tmu[v].ch[c].mode = 0) → Completes (.tmuTick t u) s fun s' =>
        s'.dev.tmu[w].cnt = s.dev.tmu[w].cnt - 1 ∧ s'.dev.tmu[u].cnt = x.reload - 1) ∧
    (∀ n : Fin 16, x.running = true → x.clk = true → x.src = 40 + n.val → x.cnt ≠ 0 → x.resetAt ≠ some (s.now t) →
      s.dev.pinDriven n = false → s.dev.pios.extAt[n] ≠ some (s.now t) → (∀ v, v ≠ u → single v) →
      (∀ (v : Fin 8) (c : Fin 4), s.dev.tmu[v].ch[c].mode = 0) → Completes (.tmuTick t u) s fun s' =>
        s'.dev.tmu[u].cnt = x.cnt - 1 ∧ s'.dev.pinLevel n = !bit x.cfg 1 ∧ (∀ w, w ≠ u → s'.dev.tmu[w] = s.dev.tmu[w]) ∧
        s.touches [.tmu, .pio, .sup] s') ∧
    (∀ (c : Fin 4) (rising : Bool) (first : Ns), x.ch[c].mode = 2 → alone →
      let code := fld x.ch[c].cfg 10 6
      let accepted := x.ch[c].accAt
      let soon := s.now t + s.dev.sup.dstep < first + 25 * fld x.ch[c].cfg 18 4
      let outside := 40 ≤ code ∧ code < 56 ∧ s.dev.pinDriven (code - 40) = false
      let held := s.dev.srcLevel code = rising ∧ ∀ a, s.dev.srcSince code = some a → a ≤ first ∧ ∀ b, accepted = some b → b < a
      (soon ∨ (∃ a, accepted = some a ∧ first ≤ a) → Completes (.captureEdge t u c rising first) s fun s' =>
        s'.dev.tmu = s.dev.tmu ∧ s.touches [.sup] s') ∧
      (¬soon → (∀ a, accepted = some a → a < first) → outside ∨ held →
      let sel := fld x.ch[c].cfg 16 2
      let chosen := sel = 2 ∨ (sel = 0 ∧ rising = true) ∨ (sel = 1 ∧ rising = false)
      (sel < 2 → ¬chosen → Completes (.captureEdge t u c rising first) s fun s' =>
        s'.dev.tmu[u].ch[c] = { x.ch[c] with accAt := some first } ∧ (∀ w, w ≠ u → s'.dev.tmu[w] = s.dev.tmu[w]) ∧
        s.touches [.tmu, .pio, .sup] s') ∧
      (chosen → x.ch[c].edges < fld x.ch[c].cfg 22 8 → Completes (.captureEdge t u c rising first) s fun s' =>
        s'.dev.tmu[u].ch[c] = { x.ch[c] with edges := x.ch[c].edges + 1, accAt := some first } ∧
        (∀ w, w ≠ u → s'.dev.tmu[w] = s.dev.tmu[w]) ∧ s.touches [.tmu, .pio, .sup] s') ∧
      (chosen → fld x.ch[c].cfg 22 8 ≤ x.ch[c].edges → Completes (.captureEdge t u c rising first) s fun s' =>
        let y := s'.dev.tmu[u].ch[c]
        act x.ch[c] y ∧ y.val = x.cnt ∧ y.capt = first / 25 * 25 ∧ y.unread = true ∧ y.edges = 0 ∧
        y.capOvr = (x.ch[c].capOvr || x.ch[c].unread) ∧ s'.dev.tmu[u].cnt = x.cnt ∧ (∀ w, w ≠ u → s'.dev.tmu[w] = s.dev.tmu[w]) ∧
        s.touches [.tmu, .pio, .calc, .sup] s')))

/-- R295, R297, R302: LOAD, COUNT, GO, PAUSE, RAISE, PIO_DRIVE, SHIFT and PIO_SAMPLE, executed by a machine that runs and does
not wait, in a step that its accumulator gives and it has not taken; before its next step a machine does nothing. PC passes
on but for an injected instruction, or where COUNT and GO jump. A lane writes a pin that the machine owns and the timers
leave alone. No timer unit counts edges of pins or is reset by them here; one that does counts the edge of a driven pin in the
same command (R284, R286). -/
def Obligations.PioInstructions : Prop :=
  ∀ (s : State) (m : Fin 8) (w : BitVec 16) (t : Ns) (levels : BitVec 16), s.clean → s.dev.pioRuns m = true →
    s.dev.pioWord m = w → s.dev.pio[m].wait = .none →
    let x := s.dev.pio[m]
    let step := x.steps (s.now t)
    let deaf (u : Fin 8) : Prop := (s.dev.tmu[u].clk = false ∧ s.dev.tmu[u].slave ≠ 2) ∨ s.dev.tmu[u].src < 40 ∨ 56 ≤ s.dev.tmu[u].src
    (step ≤ x.step → ∀ i ∈ ([.load t m, .count t m, .pause t m, .raise t m, .pioDrive t m, .shift t m, .take t m, .give t m,
      .stamp t m] : List Instr), Completes i s (s.touches [])) ∧
    (x.step < step → (∀ u : Fin 8, s.dev.tmu[u].running = true → s.dev.tmu[u].cnt ≠ 0 ∧ s.dev.tmu[u].resetAt ≠ some (s.now t)) →
      (∀ (u : Fin 8) (c : Fin 4), s.dev.tmu[u].ch[c].mode = 0) → pf w 12 4 = 1 → Completes (.pioDrive t m) s fun s' =>
      ∀ (u : Fin 8) (n : Fin 16), (∀ v, v ≠ u → deaf v) → s.dev.tmu[u].clk = true → s.dev.tmu[u].src = 40 + n.val →
        s.dev.tmu[u].running = true → s.dev.pinLevel n = bit s.dev.tmu[u].cfg 1 → s'.dev.pinLevel n = !bit s.dev.tmu[u].cfg 1 →
        s'.dev.tmu[u].cnt = s.dev.tmu[u].cnt - 1) ∧
    (x.step < step → (∀ u : Fin 8, deaf u) →
    let others (s' : State) : Prop := (∀ j, j ≠ m → s'.dev.pio[j] = s.dev.pio[j]) ∧ s.touches [.pio] s'
    let next (s' : State) : Prop := others s' ∧ s'.dev.pio[m].pc = (if x.inject.isSome then x.pc else x.pc + 1) ∧
      s'.dev.pio[m].inject = none ∧ s'.dev.pio[m].wait = .none
    let jump (s' : State) : Prop := others s' ∧ s'.dev.pio[m] = { x with pc := BitVec.ofNat 6 (pf w 0 6), inject := none, wait := .none, step := step }
    let seen (s' : State) : Prop := s'.dev.pios = { s.dev.pios with ext := levels, extAt := s'.dev.pios.extAt }
    let lane (i : Nat) : Bool := ({ s.dev with pios := { s.dev.pios with ext := levels } } : Dev).lane m i
    let pins (first n : Nat) (v : Nat → Bool) (a b : BitVec 16) : Prop :=
      (∀ j, j < n → s.dev.mayDrive' m (first + j) = true → (∀ i, i < n → i ≠ j → x.lanePin (first + i) ≠ x.lanePin (first + j)) →
        b.getLsbD (x.lanePin (first + j)) = v j) ∧
      (∀ q, (∀ i, i < n → s.dev.mayDrive' m (first + i) = true → x.lanePin (first + i) ≠ q) → b.getLsbD q = a.getLsbD q)
    (pf w 12 4 = 10 → Completes (.load t m) s fun s' => next s' ∧ s'.dev.pios = s.dev.pios ∧
      s'.dev.pio[m].x = (if pf w 11 1 = 1 then x.x else BitVec.ofNat 32 (pf w 0 11)) ∧
      s'.dev.pio[m].y = (if pf w 11 1 = 1 then BitVec.ofNat 32 (pf w 0 11) else x.y)) ∧
    (pf w 12 4 = 6 → Completes (.count t m) s fun s' => s'.dev.pios = s.dev.pios ∧ (x.x = 0 → jump s') ∧
      (x.x ≠ 0 → next s' ∧ s'.dev.pio[m].x = x.x - 1)) ∧
    (pf w 12 4 = 7 → Completes (.go t m levels) s fun s' => seen s' ∧
      let c := match pf w 6 3 with
        | 0 => true | 1 => decide (x.x = 0) | 2 => decide (x.x ≠ 0) | 3 => decide (x.y = 0) | 4 => decide (x.x.toNat < x.y.toNat)
        | 5 => lane (fld x.laneCfg 16 4) | 6 => decide (x.ocnt = 0) | _ => decide (x.icnt = 32)
      (c = true → jump s') ∧ (c = false → next s')) ∧
    (pf w 12 4 = 11 → Completes (.pause t m) s fun s' => others s' ∧ s'.dev.pios = s.dev.pios ∧
      (pf w 0 12 = 0 → next s') ∧ (pf w 0 12 ≠ 0 → s'.dev.pio[m] = { x with wait := .pause (step + pf w 0 12), step := step })) ∧
    (pf w 12 4 = 9 → Completes (.raise t m) s fun s' => next s' ∧
      let a := if pf w 3 1 = 1 then s.dev.pios.lines else s.dev.pios.flags
      let b := if pf w 3 1 = 1 then s'.dev.pios.lines else s'.dev.pios.flags
      b = a ||| BitVec.ofNat 8 (2 ^ pf w 0 3) ∧ s'.dev.pios.out = s.dev.pios.out ∧ s'.dev.pios.dir = s.dev.pios.dir ∧
      s'.dev.pios.merged = s.dev.pios.merged + (if a.getLsbD (pf w 0 3) then 1 else 0)) ∧
    (pf w 12 4 = 1 → Completes (.pioDrive t m) s fun s' => next s' ∧
      let v := if pf w 10 1 = 1 then x.x.toNat % 256 else pf w 0 8
      (pf w 11 1 = 0 → pins (8 * pf w 8 1) 8 v.testBit s.dev.pios.out s'.dev.pios.out ∧ s'.dev.pios.dir = s.dev.pios.dir) ∧
      (pf w 11 1 = 1 → pins (8 * pf w 8 1) 8 v.testBit s.dev.pios.dir s'.dev.pios.dir ∧ s'.dev.pios.out = s.dev.pios.out)) ∧
    (pf w 12 4 = 3 → pf w 0 5 ≤ 16 → Completes (.shift t m) s fun s' => next s' ∧
      let n := pf w 0 5
      let msb := bit x.cfg 44
      s'.dev.pio[m].ow = (if msb then x.ow <<< n else x.ow >>> n) ∧ s'.dev.pio[m].ocnt = x.ocnt - n ∧ s'.dev.pios.dir = s.dev.pios.dir ∧
      pins 0 n (fun j => x.ow.getLsbD (if msb then 31 - j else j)) s.dev.pios.out s'.dev.pios.out) ∧
    (pf w 12 4 = 2 → pf w 0 5 ≤ 16 → Completes (.pioSample t m levels) s fun s' => next s' ∧
      let n := pf w 0 5
      let msb := bit x.cfg 43
      s'.dev.pio[m].icnt = min 32 (x.icnt + n) ∧ seen s' ∧
      (∀ i, i < n → s'.dev.pio[m].iw.getLsbD (if msb then 32 - n + i else n - 1 - i) = lane i) ∧
      (∀ j, j < 32 - n → s'.dev.pio[m].iw.getLsbD (if msb then j else j + n) = x.iw.getLsbD (if msb then j + n else j))))

/-- R298, R300, R301: TAKE, GIVE, STAMP and HOLD, and the ends of their waits and of PAUSE. A word goes to its
destination, to the receive queue, or to the receive slot with VALID. A queue without words, or without room, is flagged
and counted; the instruction then waits where its B bit is set, else it is passed. An instruction takes a step of its
machine, and so does each look at the condition of a wait; PAUSE is over as the step of its count comes (R295). No timer
unit counts edges of pins or is reset by them here. -/
def Obligations.PioQueuesAndWaits : Prop :=
  ∀ (s : State) (m : Fin 8) (w : BitVec 16) (t : Ns) (levels : BitVec 16), s.clean → s.dev.pioRuns m = true → s.dev.pioWord m = w →
    (∀ u : Fin 8, (s.dev.tmu[u].clk = false ∧ s.dev.tmu[u].slave ≠ 2) ∨ s.dev.tmu[u].src < 40 ∨ 56 ≤ s.dev.tmu[u].src) →
    let x := s.dev.pio[m]
    let step := x.steps (s.now t)
    let others (s' : State) : Prop := (∀ j, j ≠ m → s'.dev.pio[j] = s.dev.pio[j]) ∧ s.touches [.pio, .mems] s'
    let looked (s' : State) : Prop := s'.dev.pio[m] = { x with step := step } ∧ others s'
    let next (s' : State) : Prop := others s' ∧ s'.dev.pio[m].pc = (if x.inject.isSome then x.pc else x.pc + 1) ∧
      s'.dev.pio[m].inject = none ∧ s'.dev.pio[m].wait = .none
    let lane (i : Nat) : Bool := ({ s.dev with pios := { s.dev.pios with ext := levels } } : Dev).lane m i
    let taken (v : W32) (l : List W32) (s' : State) : Prop := next s' ∧ s'.mems = s.mems ∧ s'.dev.pio[m].tx = l ∧
      (pf w 1 2 = 0 → s'.dev.pio[m].ow = v ∧ s'.dev.pio[m].ocnt = 32) ∧ (pf w 1 2 = 1 → s'.dev.pio[m].x = v) ∧
      (pf w 1 2 = 2 → s'.dev.pio[m].y = v)
    let pushed (v : W32) (s' : State) : Prop := next s' ∧
      (bit x.rxSlot 14 = false → s'.mems = s.mems ∧ s'.dev.pio[m].rx = x.rx ++ [v]) ∧
      (bit x.rxSlot 14 = true → s'.slot (fld x.rxSlot 0 14) = v.setWidth 64 ∧ (s'.attr (fld x.rxSlot 0 14)).tag.getLsbD 0 = true ∧
        s'.dev.pio[m].rx = x.rx ∧ s'.dev.pio[m].lastRx = s.now t ∧ s'.dev.pio[m].stale = false)
    let fits := (bit x.rxSlot 14 = false ∧ x.rx.length < x.rxCap) ∨ (bit x.rxSlot 14 = true ∧ (s.attr (fld x.rxSlot 0 14)).cls = 1 ∧
      (s.attr (fld x.rxSlot 0 14)).writer = 8)
    let full := bit x.rxSlot 14 = false ∧ x.rxCap ≤ x.rx.length
    let source : W32 := if pf w 1 2 = 0 then x.iw else if pf w 1 2 = 1 then x.x else x.y
    let time : W32 := if pf w 1 1 = 0 then BitVec.ofNat 32 (s.now t) else
      if s.dev.pos.synced then BitVec.ofNat 32 (s.dev.poswAt (s.now t)).2 else 0xFFFFFFFF
    (x.step < step →
    (x.wait = .none →
      (pf w 12 4 = 4 → ∀ v l, x.tx = v :: l → Completes (.take t m) s (taken v l)) ∧
      (pf w 12 4 = 4 → x.tx = [] → Completes (.take t m) s fun s' => others s' ∧ s'.dev.pio[m].runout = true ∧
        s'.dev.pio[m].runouts = x.runouts + 1 ∧ (pf w 0 1 = 0 → next s') ∧
        (pf w 0 1 = 1 → s'.dev.pio[m].wait = .block none ∧ s'.dev.pio[m].pc = x.pc)) ∧
      (pf w 12 4 = 5 → fits → Completes (.give t m) s fun s' => pushed source s' ∧
        (pf w 1 2 = 0 → s'.dev.pio[m].iw = 0 ∧ s'.dev.pio[m].icnt = 0) ∧ (pf w 1 2 ≠ 0 → s'.dev.pio[m].iw = x.iw)) ∧
      (pf w 12 4 = 5 → full → Completes (.give t m) s fun s' => others s' ∧ s'.dev.pio[m].pileup = true ∧ s'.dev.pio[m].rx = x.rx ∧
        s'.dev.pio[m].pileups = x.pileups + 1 ∧ (pf w 0 1 = 0 → next s') ∧
        (pf w 0 1 = 1 → s'.dev.pio[m].wait = .block none ∧ s'.dev.pio[m].pc = x.pc)) ∧
      (pf w 12 4 = 8 → fits → Completes (.stamp t m) s (pushed time)) ∧
      (pf w 12 4 = 8 → full → pf w 0 1 = 1 → Completes (.stamp t m) s fun s' => others s' ∧
        s'.dev.pio[m] = { x with pileup := true, pileups := x.pileups + 1, wait := .block (some time), step := step }) ∧
      (pf w 12 4 = 0 → pf w 9 3 = 0 → Completes (.hold t m levels) s fun s' => others s' ∧
        (lane (pf w 0 4) = (pf w 8 1 == 1) → next s') ∧
        (lane (pf w 0 4) ≠ (pf w 8 1 == 1) → s'.dev.pio[m] = { x with wait := .hold (lane (pf w 0 4)), step := step })) ∧
      (pf w 12 4 = 0 → pf w 9 3 = 2 → pf w 0 4 < 8 → s.dev.pios.flags.getLsbD (pf w 0 4) = true → Completes (.hold t m levels) s fun s' =>
        next s' ∧ s'.dev.pios.flags.getLsbD (pf w 0 4) = (pf w 7 1 == 0))) ∧
    (∀ last, x.wait = .hold last → pf w 9 3 < 2 → Completes (.pioHoldEnd t m levels) s fun s' => others s' ∧
      let pol := pf w 8 1 == 1
      let met := lane (pf w 0 4) = pol ∧ (pf w 9 3 = 1 → last ≠ pol)
      (met → next s') ∧ (¬met → s'.dev.pio[m] = { x with wait := .hold (lane (pf w 0 4)), step := step })) ∧
    (∀ a v l, x.wait = .block a → pf w 12 4 = 4 → x.tx = v :: l → Completes (.pioBlockEnd t m) s (taken v l)) ∧
    (∀ a, x.wait = .block a → pf w 12 4 = 4 → x.tx = [] → Completes (.pioBlockEnd t m) s looked) ∧
    (x.wait = .block none → pf w 12 4 = 5 → fits → Completes (.pioBlockEnd t m) s (pushed source)) ∧
    (∀ v, x.wait = .block (some v) → pf w 12 4 = 8 → fits → Completes (.pioBlockEnd t m) s (pushed v)) ∧
    (∀ a, x.wait = .block a → pf w 12 4 ∈ [5, 8] → full → Completes (.pioBlockEnd t m) s looked)) ∧
    (step ≤ x.step → Completes (.pioBlockEnd t m) s (s.touches [])) ∧
    (∀ n, x.wait = .pause n → n ≤ x.steps (s.now t) → Completes (.pioPauseEnd t m) s next) ∧
    (∀ n, x.wait = .pause n → x.steps (s.now t) < n → Completes (.pioPauseEnd t m) s (s.touches []))

/-- R285, R289, R290, R293: TMU_START starts the named units that do not run, from their RELOAD; a VALUE written arms a
compare channel and is refused by a capture channel; one written in the clock of an EMIT to it does not stand; reading a capture makes room for the next one. R295, R299 to R303:
what reaches a PIO machine from its registers: an injected instruction, RUN, RESTART, the queues, the flags; and the
receive slot that goes stale. -/
def Obligations.TimerAndPioRegisters : Prop :=
  (∀ (s : State) (t : Ns) (p : Path) (v : W64), s.dev.settled →
     let u : Fin 8 := Fin.ofNat 8 (fld (s.dev.ctx p).tmuSel 0 3)
     let c : Fin 4 := Fin.ofNat 4 (fld (s.dev.ctx p).tmuSel 8 2)
     let x := s.dev.tmu[u].ch[c]
     let rest (s' : State) : Prop := (∀ w, w ≠ u → s'.dev.tmu[w] = s.dev.tmu[w]) ∧ (∀ j, j ≠ c → s'.dev.tmu[u].ch[j] = s.dev.tmu[u].ch[j])
     (Completes (.tmuStart t p v) s fun s' => s.touches [.tmu, .paths] s' ∧ ∀ w : Fin 8,
       let a := s.dev.tmu[w]
       let b := s'.dev.tmu[w]
       (bit v w.val = true → a.running = false → b.running = true ∧ b.from_ = s.now t ∧ b.cnt = a.reload - 1 ∧ b.reload = a.reload ∧
         ∀ j : Fin 4, b.ch[j] = if a.ch[j].mode = 1 then { a.ch[j] with armed := true } else a.ch[j]) ∧
       (bit v w.val = false ∨ a.running = true → b = a)) ∧
     (x.mode ≠ 2 → sameClock x.emitAt (s.now t) = true → Completes (.compareValueWrite t p v) s (s.touches [.paths])) ∧
     (x.mode ≠ 2 → sameClock x.emitAt (s.now t) = false → s.dev.tmu[u].tickedAt ≠ some (s.now t) →
       Completes (.compareValueWrite t p v) s fun s' =>
       s'.dev.tmu[u].ch[c] = { x with val := v.setWidth 32, armed := x.armed || decide (x.mode = 1) } ∧ rest s' ∧ s.touches [.tmu, .paths] s') ∧
     (x.mode = 2 → Completes (.compareValueWrite t p v) s fun s' =>
       s'.dev.tmu[u] = { s.dev.tmu[u] with cfgIgn := true } ∧ rest s' ∧ s.touches [.tmu, .paths] s') ∧
     (x.mode = 2 → Completes (.captureRead t p) s fun s' =>
       s'.dev.tmu[u].ch[c] = { x with unread := false } ∧ rest s' ∧ s.touches [.tmu] s') ∧
     (x.mode ≠ 2 → Completes (.captureRead t p) s (s.touches []))) ∧
  (∀ (s : State) (t : Ns) (p : Path), s.dev.settled →
     let m : Fin 8 := Fin.ofNat 8 (fld (s.dev.ctx p).pioSel 0 3)
     let x := s.dev.pio[m]
     let one (y : Pio) (s' : State) : Prop := s'.dev.pio[m] = y ∧ (∀ j, j ≠ m → s'.dev.pio[j] = s.dev.pio[j]) ∧ s'.dev.pios = s.dev.pios ∧
       s.touches [.pio, .paths] s'
     (∀ v : W64, s.dev.pioRuns m = true → x.inject = none → pioWordOk (v.setWidth 16) = true →
       Completes (.pioInject t p v) s (one { x with inject := some (v.setWidth 16), wait := .none })) ∧
     (∀ v : W64, s.dev.pioRuns m = false ∨ x.inject ≠ none ∨ pioWordOk (v.setWidth 16) = false →
       Completes (.pioInject t p v) s (one { x with injIgn := true })) ∧
     (x.run = false → Completes (.pioRun t p true) s (one { x with run := true, runAt := s.now t, step := 0, wait := .none, inject := none, fresh := false,
                                                                       pc := if x.fresh then BitVec.ofNat 6 (fld x.cfg 8 6) else x.pc })) ∧
     (x.run = true → Completes (.pioRun t p true) s (one x)) ∧
     Completes (.pioRun t p false) s (one { x with run := false }) ∧
     Completes (.pioRestart t p) s (one { x with pc := BitVec.ofNat 6 (fld x.cfg 8 6), ow := 0, ocnt := 0, iw := 0, icnt := 0,
                                                 wait := .none, inject := none }) ∧
     (∀ v : W64, x.tx.length < x.txCap → Completes (.pioTxqWrite t p v) s (one { x with tx := x.tx ++ [v.setWidth 32] })) ∧
     (∀ v : W64, x.txCap ≤ x.tx.length → Completes (.pioTxqWrite t p v) s (one { x with hostLost := x.hostLost + 1 })) ∧
     (Completes (.pioRxqRead t p) s fun s' => one { x with rx := x.rx.tail } s' ∧ s'.dev.paths = s.dev.paths) ∧
     (∀ v : W64, Completes (.pioFlagSet t p v) s fun s' => s'.dev.pio = s.dev.pio ∧ s.touches [.pio, .paths] s' ∧
       s'.dev.pios.flags = s.dev.pios.flags ||| v.setWidth 8 ∧ s'.dev.pios.lines = s.dev.pios.lines) ∧
     (∀ n : Fin 8, let y := s.dev.pio[n]
       let due := y.lastRx + 1000 * fld y.rxSlot 16 16 ≤ s.now t
       let i := fld y.rxSlot 0 14
       (bit y.rxSlot 14 = true → (s.attr i).cls = 1 → (s.attr i).writer = 8 → fld y.rxSlot 16 16 ≠ 0 → y.stale = false → due → s.dev.memu.deadTags = [] →
         Completes (.pioSlotStale t n) s fun s' => s'.dev.pio[n] = { y with stale := true } ∧
           s'.attr i = { s.attr i with tag := ((s.attr i).tag ||| 2) &&& 0xFE } ∧
           s'.mems.sram = s.mems.sram ∧ s.touches [.pio, .mems] s') ∧
       (bit y.rxSlot 14 = false ∨ fld y.rxSlot 16 16 = 0 ∨ y.stale = true ∨ ¬due → Completes (.pioSlotStale t n) s (s.touches []))))

/-! ### CAN, rope, two-wire port -/

/-- R313 to R315, R318, R319: a valid frame at an active controller. A request joins the service queue, which holds
four; another frame goes to the first receive object in ascending index that it matches, which keeps its payload, writes
its signal scaled to its slot with VALID, and starts the lists that wait for it; a frame that is too short, or that
nothing matches, is counted. A frame that is too short ends staleness all the same (R315), and an XL frame shows on
CAN_k_MODE where XL_TRX is set (R305). -/
def Obligations.CanReception : Prop :=
  ∀ (s : State) (t : Ns) (k : Fin 4) (f : CanFrame), s.clean →
    let high := if bit s.dev.can[k].cfg 2 = true ∧ f.format = .xl then some f.phase else s.dev.can[k].modeHigh
    let c : Can := { s.dev.can[k] with modeHigh := high }
    let quiet (r : SvcReq) : Prop := svcUnknown r.op = false ∧ r.op.getLsbD 6 = false
    let others (s' : State) : Prop := ∀ j, j ≠ k → s'.dev.can[j] = s.dev.can[j]
    (s.dev.canActive k = false → Completes (.canFrameReceived t k f) s (s.touches [])) ∧
    (s.dev.canActive k = true → c.recCnt = 0 → s.dev.isRequest k f = true → 4 ≤ c.svcQ.length → Completes (.canFrameReceived t k f) s fun s' =>
      s'.dev.can[k] = { c with dropped := c.dropped + 1, lastReq := s.now t } ∧ others s' ∧ s.touches [.can] s') ∧
    (s.dev.canActive k = true → c.recCnt = 0 → s.dev.isRequest k f = true → c.svcQ.length < 4 → quiet (requestOf f) →
      (∀ j : Fin 4, ∀ r ∈ s.dev.can[j].svcQ, quiet r) → Completes (.canFrameReceived t k f) s fun s' =>
        s'.dev.can[k] = { c with svcQ := c.svcQ ++ [requestOf f], lastReq := s.now t } ∧ others s' ∧ s.touches [.can] s') ∧
    (s.dev.canActive k = true → c.recCnt = 0 → s.dev.isRequest k f = false →
      f.remote = true ∨ s.dev.objMode k = false ∨ (∀ i, i < 128 → (s.env.obj k i).matches_ f = false) →
      Completes (.canFrameReceived t k f) s fun s' =>
        s'.dev.can[k] = { c with strangers := c.strangers + 1 } ∧ others s' ∧ s.touches [.can] s') ∧
    (∀ i, i < 128 → s.dev.canActive k = true → c.recCnt = 0 → s.dev.isRequest k f = false → f.remote = false → s.dev.objMode k = true →
      (∀ j, j < i → (s.env.obj k j).matches_ f = false) → (s.env.obj k i).matches_ f = true →
      let o := s.env.obj k i
      (f.data.length < o.len → Completes (.canFrameReceived t k f) s fun s' =>
        s'.dev.can[k].obj i = { c.obj i with short := (c.obj i).short + 1, stale := false, from_ := s.now t } ∧ s'.dev.can[k].rx = c.rx ∧ others s' ∧ s.touches [.can] s') ∧
      (o.len ≤ f.data.length → msgAddr k (o.buf + o.len) ≤ sysBase → s.room [3] → ∀ n, o.sigs = [n] →
        let w := s.env.sig k n
        let z := (s.env.scale k (fld w 40 8)).2 + (s.env.scale k (fld w 40 8)).1 * sigRaw w (f.data.take o.len)
        let slot := fld w 24 14
        (s.attr slot).cls = 1 → (s.attr slot).writer = 8 → Completes (.canFrameReceived t k f) s fun s' =>
          s'.slot slot = slotNumber z ∧
          s'.attr slot = { s.attr slot with tag := (if outOfRange z then 5 else 1) ||| ((s.attr slot).tag &&& 0x10) } ∧
          (∀ j, j < o.len → s'.mems.byte (msgAddr k o.buf + j) = (f.data[j]?).getD 0) ∧
          s'.dev.can[k].obj i = { c.obj i with stale := false, frames := (c.obj i).frames + 1, time := f.sof, from_ := s.now t } ∧
          s'.dev.can[k].rx = c.rx + 1 ∧ others s' ∧ s.touches [.can, .mems, .calc] s'))

/-- R315 to R317: a receive object goes stale; a transmit object whose period ends, or whose packed value changed,
queues its frame, but not while a source it needs is not VALID; of the frames queued before the start of frame the one
that wins the arbitration among those that the mode lets out (R307) is sent, and a frame that lost it, or met an error, is
offered again. R306: an error of a receiver is counted, 255 at most, and its kind kept; bus-off, at a transmit error count
above 255, is flagged and reported as CAN_BUSOFF; it ends at once with the 128 sequences, or, under policy 1, only after
RECOVER, with both counters at 0. -/
def Obligations.CanTransmission : Prop :=
  (∀ (s : State) (t : Ns) (k : Fin 4), s.clean →
     let c := s.dev.can[k]
     let others (s' : State) : Prop := ∀ j, j ≠ k → s'.dev.can[j] = s.dev.can[j]
     (∀ i : Fin 128,
       let o := s.env.obj k i.val
       let x := c.obj i.val
       let queued (s' : State) : Prop := others s' ∧ s.touches [.can, .mems] s' ∧
         (bit o.w0 6 = true ∧ s.dev.sourcesValid s.env k o = false →
           s'.dev.can[k].txq = c.txq ∧ (s'.dev.can[k].obj i.val).skipped = x.skipped + 1 ∧ s'.mems = s.mems) ∧
         (bit o.w0 6 = false ∨ s.dev.sourcesValid s.env k o = true → (∀ y ∈ c.txq, y.src ≠ .object i.val) →
           ∃ y, s'.dev.can[k].txq = c.txq ++ [y] ∧ y.src = .object i.val ∧ y.at_ = s.now t ∧
             y.frame = o.frame ((s.dev.packed s.env k o).foldl (fun p z => sigPut z.1 z.2.1 p) (List.replicate o.len 0)) ∧
             (s'.dev.can[k].obj i.val).queued = (s.dev.packed s.env k o).map (·.2.1) ∧ (s'.dev.can[k].obj i.val).skipped = x.skipped)
       let due := max x.from_ c.startAt + o.time ≤ s.now t
       (s.dev.objMode k = true → o.kind = 1 → o.time ≠ 0 → x.stale = false → due → Completes (.receiveStale t k i) s fun s' =>
         s'.dev.can[k].obj i.val = { x with stale := true } ∧ s'.mems.sram = s.mems.sram ∧
         (∀ n ∈ o.sigs, let j := fld (s.env.sig k n) 24 14; (s.attr j).cls = 1 → (s.attr j).writer = 8 → s'.attr j = { s.attr j with tag := ((s.attr j).tag ||| 2) &&& 0xFE }) ∧
         others s' ∧ s.touches [.can, .mems] s') ∧
       (x.stale = true ∨ ¬due → Completes (.receiveStale t k i) s (s.touches [])) ∧
       (s.dev.objMode k = true → bit c.cfg 0 = true → o.kind = 2 → o.time ≠ 0 → due → Completes (.transmitPeriod t k i) s fun s' =>
         queued s' ∧ (s'.dev.can[k].obj i.val).from_ = max x.from_ c.startAt + o.time) ∧
       (¬due → Completes (.transmitPeriod t k i) s (s.touches [])) ∧
       (s.dev.objMode k = true → o.kind = 2 → bit o.w2 24 = true → (∀ a, x.sentAt = some a → a + o.inhibit ≤ s.now t) →
         x.lastSent ≠ some ((s.dev.packed s.env k o).map (·.2.1)) → Completes (.transmitOnChange t k i) s queued) ∧
       (x.lastSent = some ((s.dev.packed s.env k o).map (·.2.1)) → Completes (.transmitOnChange t k i) s (s.touches []))) ∧
     (∀ (sof : Ns) (f : TxFrame), s.dev.canActive k = true → f ∈ c.txq → f.at_ ≤ sof → s.dev.mayOffer k f = true →
       (∀ g ∈ c.txq, g ≠ f → g.at_ ≤ sof → s.dev.mayOffer k g = true → f.key < g.key) →
       (∀ phase, Completes (.canFrameTransmitted t k sof (.sent phase)) s fun s' =>
         let d := s'.dev.can[k]
         d.last = some { f.frame with sof := sof, esi := f.frame.format == .fd && c.passive, phase := phase } ∧
         d.modeHigh = (if bit c.cfg 2 = true ∧ f.frame.format = .xl then some phase else c.modeHigh) ∧
         d.txq = c.txq.erase f ∧ d.tx = c.tx + 1 ∧ d.tec = c.tec - 1 ∧ d.rx = c.rx ∧ others s' ∧ s.touches [.can, .sup] s' ∧
         (f.src ≠ .gasp → s'.dev.sup = s.dev.sup) ∧ (f.src = .gasp → s'.dev.sup.gaspSent = true) ∧
         (∀ i, f.src = .object i → (d.obj i).lastSent = some (c.obj i).queued ∧ (d.obj i).sentAt = some sof ∧ (d.obj i).frames = (c.obj i).frames + 1)) ∧
       Completes (.canFrameTransmitted t k sof .lost) s (s.touches []) ∧
       (Completes (.canFrameTransmitted t k sof .stuffLost) s fun s' =>
         s'.dev.can[k] = { c with lec := errorCode .stuff } ∧ others s' ∧ s.touches [.can] s') ∧
       (∀ (e : CanError) (more : Nat), e ≠ .ack ∨ c.tec ≤ 127 → Completes (.canFrameTransmitted t k sof (.error e more)) s fun s' =>
         s'.dev.can[k] = { c with tec := c.tec + 8 + 8 * more, lec := errorCode e } ∧ others s' ∧ s.touches [.can] s')) ∧
     (∀ (sof : Ns) (r : TxOutcome), s.dev.canActive k = false ∨ (∀ f ∈ c.txq, sof < f.at_ ∨ s.dev.mayOffer k f = false) →
       Completes (.canFrameTransmitted t k sof r) s (s.touches []))) ∧
  (∀ (s : State) (t : Ns) (k : Fin 4), s.dev.settled →
     let c := s.dev.can[k]
     let only (x : Can) (s' : State) : Prop := s'.dev.can[k] = x ∧ ∀ j, j ≠ k → s'.dev.can[j] = s.dev.can[j]
     (∀ (e : CanError) (more : Nat), s.dev.canActive k = true → Completes (.canBusError t k ⟨e, more⟩) s fun s' =>
       only { c with lec := errorCode e, recCnt := min 255 (c.recCnt + 1 + 8 * more) } s' ∧ s.touches [.can] s') ∧
     (∀ (e : CanError) (more : Nat), s.dev.canActive k = false → Completes (.canBusError t k ⟨e, more⟩) s (s.touches [])) ∧
     (s.dev.canActive k = true → 255 < c.tec → s.onlyNoted 19 → Completes (.busOff t k) s fun s' =>
       only { c with busOff := true, busoffSeen := true, recovering := !bit c.cfg 1 } s' ∧ s.reported 19 s' ∧
       s.touches [.can, .flt, .recs, .snap] s') ∧
     (s.dev.canActive k = false ∨ c.tec ≤ 255 → Completes (.busOff t k) s (s.touches [])) ∧
     (c.busOff = true → c.recovering = true → Completes (.busOffRecovery t k) s fun s' =>
       only { c with busOff := false, recovering := false, tec := 0, recCnt := 0 } s' ∧ s.touches [.can] s') ∧
     (c.busOff = false ∨ c.recovering = false → Completes (.busOffRecovery t k) s (s.touches [])) ∧
     (∀ p : Path, c.busOff = true → bit c.cfg 1 = true → Completes (.recover t p k) s fun s' =>
       only { c with recovering := true } s' ∧ s.touches [.can, .paths] s') ∧
     (∀ p : Path, c.busOff = false ∨ bit c.cfg 1 = false → Completes (.recover t p k) s (s.touches [.paths])))

/-- R318, R320: the register requests of the service channel. Each is answered by one response that repeats operation
and number; reading needs a session with key 0 but on page 0x00, writing one with key 1; READ_HI and WRITE_HI fit the
address of the access before them, or are answered 4; READ and WRITE need the FD layout. A locked channel answers 6.
(Where a register's read or write has an effect of its own, that register's rules say it; here page 0x00 is read and
PAGE written.) R21: while a request of another controller that comes before this one in the round waits at the port, it
stays where it is. -/
def Obligations.ServiceAccess : Prop :=
  (∀ (s : State) (t : Ns) (k : Fin 4), s.dev.settled → s.dev.portTurn k = false →
    ∀ i ∈ ([.readLo t k, .svcRead t k, .writeHi t k, .svcWrite t k] : List Instr), Completes i s (s.touches [])) ∧
  ∀ (s : State) (t : Ns) (k : Fin 4) (r : SvcReq), s.dev.settled → s.dev.svcRuns k = true → s.dev.can[k].svcQ = [r] →
    s.dev.can[k].busOff = false → (∀ j, j ≠ k → s.dev.can[j].svcQ = []) →
    let c := s.dev.can[k]
    let d := (s.dev.at t).svcTake k
    let v := (d.regRead s.env (canPath k) r.addr).1
    let assigned := (regRow r.addr).isSome
    let page0 := r.addr.toNat < 256
    let isPage := r.addr.toNat % 256 = 0xF8
    let answered (status : Nat) (data : Option W64) (s' : State) : Prop :=
      s'.dev.can[k].svcQ = [] ∧ s'.dev.can[k].reqs = c.reqs + 1 ∧ (∀ j, j ≠ k → s'.dev.can[j] = s.dev.can[j]) ∧
      ∃ x, s'.dev.can[k].txq = c.txq ++ [x] ∧ x.src = .service ∧ x.at_ = s.now t ∧ x.frame.id = BitVec.ofNat 29 (fld c.svc 32 29) ∧
        x.frame.format = (if r.fd then .fd else .classical) ∧ x.frame.data.take 4 = [r.op ||| 0x80, r.seq, BitVec.ofNat 8 status, 0] ∧
        ∀ y, data = some y → x.frame.data.drop 4 = leBytes (if r.fd then 8 else 4) y.toNat
    let written (w : W64) (s' : State) : Prop := s'.dev.ctx (canPath k) = { s.dev.ctx (canPath k) with
        page := w.setWidth 8, armedAt := none, served := s.dev.nextTurn } ∧
      (∀ q, q ≠ canPath k → s'.dev.ctx q = s.dev.ctx q) ∧ s.touches [.can, .paths] s'
    let still (s' : State) : Prop := s'.dev.can[k].level = c.level ∧ s.touches [.can] s'
    let turned (s' : State) : Prop := s'.dev.can[k].level = c.level ∧ s.touches [.can, .paths] s' ∧
      s'.dev.ctx (canPath k) = { s.dev.ctx (canPath k) with served := s.dev.nextTurn } ∧ ∀ q, q ≠ canPath k → s'.dev.ctx q = s.dev.ctx q
    (∀ (i : Instr) (op : Byte), (i, op) ∈ [(Instr.readLo t k, (0x10 : Byte)), (.readHi t k, 0x11), (.svcRead t k, 0x12), (.writeLo t k, 0x20),
        (.writeHi t k, 0x21), (.svcWrite t k, 0x22)] → r.op = op →
      (c.lockEnd ≠ none → Completes i s fun s' => answered 6 none s' ∧ still s') ∧
      (c.lockEnd = none → (r.fd = true ∨ (op ≠ 0x12 ∧ op ≠ 0x22)) → c.level < svcNeeds r → Completes i s fun s' => answered 2 none s' ∧ still s') ∧
      (c.lockEnd = none → r.fd = false → op = 0x12 ∨ op = 0x22 → Completes i s fun s' => answered 3 none s' ∧ still s') ∧
      svcNeeds r = (if op = 0x20 ∨ op = 0x21 ∨ op = 0x22 then 2 else if page0 then 0 else 1)) ∧
    (c.lockEnd = none →
      (r.op = 0x10 → page0 → Completes (.readLo t k) s fun s' => answered (if assigned then 0 else 1) (some (lowHalf v)) s' ∧ turned s' ∧
        s'.dev.can[k].sample = some (r.addr, v)) ∧
      (r.op = 0x11 → page0 → assigned = true → ∀ x, c.sample = some (r.addr, x) → Completes (.readHi t k) s fun s' =>
        answered 0 (some (highHalf x)) s' ∧ still s') ∧
      (r.op = 0x11 → page0 → (∀ x, c.sample ≠ some (r.addr, x)) → Completes (.readHi t k) s fun s' => answered 4 none s' ∧ still s') ∧
      (r.op = 0x12 → r.fd = true → page0 → Completes (.svcRead t k) s fun s' => answered (if assigned then 0 else 1) (some v) s' ∧ turned s') ∧
      (r.op = 0x20 → c.level = 2 → Completes (.writeLo t k) s fun s' => answered 0 none s' ∧ still s' ∧
        s'.dev.can[k].staged = some (r.addr, r.data.setWidth 32)) ∧
      (r.op = 0x21 → c.level = 2 → isPage → ∀ lo, c.staged = some (r.addr, lo) → Completes (.writeHi t k) s fun s' =>
        answered 0 none s' ∧ written (lo.setWidth 64 ||| (r.data <<< 32)) s') ∧
      (r.op = 0x21 → c.level = 2 → (∀ lo, c.staged ≠ some (r.addr, lo)) → Completes (.writeHi t k) s fun s' => answered 4 none s' ∧ still s') ∧
      (r.op = 0x22 → r.fd = true → c.level = 2 → isPage → Completes (.svcWrite t k) s fun s' => answered 0 none s' ∧ written r.data s'))

/-- R320: CHALLENGE hands out a nonce; AUTH with the tag that the key gives over it opens the session, any other tag
counts, and the third failure in a row locks the channel for 10 s; a nonce serves once. CLOSE, and 5 s without a
request, end the session. -/
def Obligations.ServiceSessions : Prop :=
  ∀ (s : State) (t : Ns) (k : Fin 4), s.dev.settled →
    let c := s.dev.can[k]
    let others (s' : State) : Prop := (∀ j, j ≠ k → s'.dev.can[j] = s.dev.can[j]) ∧ s.touches [.can] s'
    (∀ r : SvcReq, s.dev.svcRuns k = true → c.busOff = false → c.svcQ = [r] → (∀ j, j ≠ k → s.dev.can[j].svcQ = []) → c.lockEnd = none →
      let answered (status : Nat) (s' : State) : Prop := others s' ∧ s'.dev.can[k].svcQ = [] ∧
        ∃ x, s'.dev.can[k].txq = c.txq ++ [x] ∧ x.src = .service ∧ x.frame.data.take 4 = [r.op ||| 0x80, r.seq, BitVec.ofNat 8 status, 0]
      (r.op = 0x30 → r.fd = true → Completes (.challenge t k) s fun s' => others s' ∧ ∃ (n : W64) (x : TxFrame),
        s'.dev.can[k].nonce = some n ∧ s'.dev.can[k].authParts = [] ∧ s'.dev.can[k].txq = c.txq ++ [x] ∧
        x.frame.data = [0xB0, r.seq, 0, 0] ++ leBytes 8 n.toNat) ∧
      (r.op = 0x30 → r.fd = false → Completes (.challenge t k) s fun s' => others s' ∧ ∃ (n : W64) (x y : TxFrame),
        s'.dev.can[k].nonce = some n ∧ s'.dev.can[k].txq = c.txq ++ [x, y] ∧ x.frame.data = [0xB0, r.seq, 0, 0] ++ leBytes 4 n.toNat ∧
        y.frame.data = [0xB0, r.seq, 1, 0] ++ leBytes 4 (n >>> 32).toNat) ∧
      (r.op = 0x31 → r.fd = true → Completes (.auth t k) s fun s' =>
        let key := r.addr.toNat / 256 % 2
        let secret := if key = 0 then s.fuses.svcKey0 else s.fuses.svcKey1
        let good := ∃ n z, c.nonce = some n ∧ secret = some z ∧ (Config.hmac z (authMessage s.env n k key)).take 16 = r.tag
        let y := s'.dev.can[k]
        y.nonce = none ∧ y.authParts = [] ∧
        (good → answered 0 s' ∧ y.level = key + 1 ∧ y.failRow = 0 ∧ y.fails = c.fails ∧ y.lockEnd = none) ∧
        (¬good → answered 5 s' ∧ y.level = c.level ∧ y.fails = c.fails + 1 ∧
          (c.failRow < 2 → y.failRow = c.failRow + 1 ∧ y.lockEnd = none) ∧
          (2 ≤ c.failRow → y.failRow = 0 ∧ y.lockEnd = some (s.now t + 10000000000)))) ∧
      (r.op = 0x31 → r.fd = false → c.authParts = [] → Completes (.auth t k) s fun s' => answered 0 s' ∧ s'.dev.can[k].level = c.level ∧
        s'.dev.can[k].authParts = [(4 * (r.addr.toNat / 256 % 2) + r.addr.toNat % 4, r.tag)] ∧ s'.dev.can[k].nonce = c.nonce) ∧
      (r.op = 0x3F → Completes (.close t k) s fun s' => answered 0 s' ∧ s'.dev.can[k].level = 0)) ∧
    (c.lastReq + 5000000000 ≤ s.now t → Completes (.sessionTimeout t k) s fun s' => s'.dev.can[k] = { c with level := 0 } ∧ others s') ∧
    (s.now t < c.lastReq + 5000000000 → Completes (.sessionTimeout t k) s (s.touches [])) ∧
    (∀ a, c.lockEnd = some a → a ≤ s.now t → Completes (.lockoutEnd t k) s fun s' => s'.dev.can[k] = { c with lockEnd := none } ∧ others s') ∧
    (∀ a, c.lockEnd = some a → s.now t < a → Completes (.lockoutEnd t k) s (s.touches []))

/-- R324 to R326, R328, R329: a frame that leaves carries count, role, sync state and position; frames that arrive bring
the link up after eight good ones in a row, a damaged one is counted; on a link that is up each receive entry of the
frame's group is written to its slot. Three frame slots without a good frame lose the link, also one that has not come up
yet: its slots go stale, ROPE_LOST is reported, and DEF_MS later the entries take their defaults with DEFAULT. In LOCKED the
link is down without a fault. R280: a frame tells a snapshot of the device's own, once. -/
def Obligations.RopeLink : Prop :=
  ∀ (s : State) (t : Ns), s.clean →
    let r := s.dev.rope
    let now := s.now t
    let ours (i : Nat) : Prop := (s.attr i).cls = 1 ∧ (s.attr i).writer = 8
    (s.dev.ropeRuns = true → r.tunnel.out = [] → Completes (.ropeFrameSend t) s fun s' => ∃ f,
      s'.dev.rope = { r with sent := some f, fcnt := r.fcnt + 1 } ∧ s'.dev.snap = { s.dev.snap with ropeSend := none } ∧
      fld f.w0 0 4 = 1 ∧ fld f.w0 4 4 = r.fcnt.toNat ∧ bit f.w0 8 = r.role ∧ fld f.w0 9 3 = s.dev.pos.sync.code ∧
      bit f.w0 13 = s.dev.snap.ropeSend.isSome ∧ (∀ n, s.dev.snap.ropeSend = some n → fld f.w0 32 16 = n.toNat) ∧ bit f.w0 14 = s.dev.flt.valid ∧ f.tunnel = 0 ∧ f.values.length = 8 ∧
      s.touches [.rope, .snap] s') ∧
    (s.dev.ropeRuns = false → Completes (.ropeFrameSend t) s (s.touches [])) ∧
    (∀ f : RopeFrame, s.dev.ropeRuns = true → r.slotsPassed f.arrive ≤ 1 → f.ok = false → Completes (.ropeFrameReceived t f) s fun s' =>
      s'.dev.rope = { r with bad := r.bad + 1, slotAt := f.arrive, goodRun := 0 } ∧ s.touches [.rope] s') ∧
    (∀ f : RopeFrame, s.dev.ropeRuns = true → r.slotsPassed f.arrive ≤ 1 → f.ok = true → r.up = false → Completes (.ropeFrameReceived t f) s fun s' =>
      let y := s'.dev.rope
      y.goodRun = r.goodRun + 1 ∧ y.lastGood = f.arrive ∧ y.slotAt = f.arrive ∧ y.bad = r.bad ∧ y.up = decide (7 ≤ r.goodRun) ∧
      (7 ≤ r.goodRun → y.lostAt = none ∧ y.xchkFrom = now + 80000) ∧ s.touches [.rope] s') ∧
    (∀ f : RopeFrame, s.dev.ropeRuns = true → r.slotsPassed f.arrive ≤ 1 → f.ok = true → r.up = true → bit f.w0 13 = false →
      bit f.w0 14 = false → fld f.w0 9 3 ≠ 3 → f.tunnel.getLsbD 0 = false →
      let e (j : Fin 8) : W64 := (r.mirror[Fin.ofNat 64 (8 * (fld f.w0 4 4 % 8) + j.val)]).1
      (∀ j, bit (e j) 30 = true → ours (fld (e j) 16 14) ∧ ∀ i, i ≠ j → bit (e i) 30 = true → fld (e i) 16 14 ≠ fld (e j) 16 14) →
      Completes (.ropeFrameReceived t f) s fun s' => s'.dev.rope.up = true ∧ s'.dev.rope.lastGood = f.arrive ∧
        (∀ j, bit (e j) 30 = true → s'.slot (fld (e j) 16 14) = (f.values[j.val]?).getD 0 ∧
          (s'.attr (fld (e j) 16 14)).tag = BitVec.ofNat 8 (fld f.tags (8 * j.val) 8) ||| ((s.attr (fld (e j) 16 14)).tag &&& 0x10)) ∧
        (∀ i, (∀ j, bit (e j) 30 = true → fld (e j) 16 14 ≠ i) → s'.attr i = s.attr i ∧ (i < 16384 → s'.slot i = s.slot i)) ∧
        s.touches [.rope, .mems] s') ∧
    (s.dev.ropeRuns = true → r.up = true ∨ r.lostAt = none → r.lastGood + 30000 ≤ now → s.onlyNoted 20 → Completes (.ropeLost t) s fun s' =>
      let y := s'.dev.rope
      y.up = false ∧ y.losses = r.losses + 1 ∧ y.lostSeen = true ∧ y.lostAt = some now ∧ y.goodRun = 0 ∧ y.defDone = false ∧ y.tunnel.client = none ∧
      s.reported 20 s' ∧ s'.mems.sram = s.mems.sram ∧
      (∀ x ∈ r.rxEntries, let i := fld x.1 16 14; ours i → s'.attr i = { s.attr i with tag := ((s.attr i).tag ||| 2) &&& 0xFE }) ∧
      s.touches [.rope, .mems, .can, .flt, .recs, .snap] s') ∧
    (s.dev.sup.mode = .locked → r.up = true → r.lastGood + 30000 ≤ now → Completes (.ropeLost t) s fun s' =>
      s'.dev.rope.up = false ∧ s'.dev.rope.tunnel.client = none ∧ s'.dev.rope.losses = r.losses ∧ s.touches [.rope, .can] s') ∧
    ((r.up = false ∧ r.lostAt ≠ none) ∨ now < r.lastGood + 30000 → Completes (.ropeLost t) s (s.touches [])) ∧
    (∀ a, s.dev.ropeRuns = true → r.lostAt = some a → r.defDone = false → a + fld r.cfg 48 16 * 1000000 ≤ now →
      (∀ x ∈ r.rxEntries, ours (fld x.1 16 14)) → (r.rxEntries.map fun x => fld x.1 16 14).Nodup → Completes (.mirrorDefault t) s fun s' =>
        s'.dev.rope = { r with defDone := true } ∧ s.touches [.rope, .mems] s' ∧
        ∀ x ∈ r.rxEntries, s'.slot (fld x.1 16 14) = x.2 ∧ (s'.attr (fld x.1 16 14)).tag = 8 ||| ((s.attr (fld x.1 16 14)).tag &&& 0x10)) ∧
    (r.lostAt = none ∨ r.defDone = true → Completes (.mirrorDefault t) s (s.touches []))

/-- R278, R332 to R339: a transaction at the port. A probe shows whether the address is the port's; a whole register
written at once takes effect, a part of one is discarded and flagged; a register is read in its byte order; the log
stream gives the pending records, consumes those read to their end, and refuses writes; a timeout keeps the pointer; a
pending attention is sent on an idle bus, and again after ATTN_REP, unless SCL falls within the pulse. PAGE stands for the
registers here. While the port stretches the clock no transaction begins (R337). -/
def Obligations.TwoWirePort : Prop :=
  (∀ (s : State) (t : Ns) (a : BitVec 7) (l : List Byte) (n : Nat), s.dev.settled → s.dev.twp.stretch ≠ none →
    ∀ i ∈ ([.twpProbe t a, .twpRegisterWrite t a l true, .twpRegisterRead t a n true, .twpLogRead t a n, .twpLogWrite t a l] : List Instr),
      Completes i s (s.touches [])) ∧
  ∀ (s : State) (t : Ns) (a : BitVec 7), s.clean → s.dev.sup.filled = true → s.dev.twp.stretch = none →
    let x := s.dev.twp
    let now := s.now t
    let reg := x.isReg a
    let log := x.isLog a
    let ended (s' : State) : Prop := s'.dev.twp.busy = false ∧ s'.dev.twp.open_ = false ∧ s'.dev.twp.idleAt = now ∧ s'.dev.twp.staging = none ∧
      s'.dev.twp.xfers = x.xfers + (if (reg || log) && !x.busy then 1 else 0)
    (Completes (.twpProbe t a) s fun s' => ended s' ∧ s'.dev.twp.ack = (reg || log) ∧ s'.dev.twp.ptr = x.ptr ∧
      s'.dev.twp.addr = x.addrNew.getD x.addr ∧ s.touches [.twp] s') ∧
    (∀ l : List Byte, reg = true → l.length = 8 → Completes (.twpRegisterWrite t a (0xF8 :: l) true) s fun s' =>
      ended s' ∧ s'.dev.twp.ptr = 0 ∧ s'.dev.twp.partial_ = (x.partial_ || x.staging.isSome) ∧
      s'.dev.ctx .twp = { s.dev.ctx .twp with page := l.headD 0, armedAt := none, served := s.dev.nextTurn } ∧ s.touches [.twp, .paths] s') ∧
    (∀ (p : Byte) (l : List Byte), reg = true → p.toNat % 8 = 0 → 1 ≤ l.length → l.length < 8 → Completes (.twpRegisterWrite t a (p :: l) true) s
      fun s' => ended s' ∧ s'.dev.twp.ptr.toNat = p.toNat + l.length ∧ s'.dev.twp.partial_ = true ∧ s.touches [.twp] s') ∧
    (∀ n, reg = true → x.ptr = 0xF8 → n ≤ 4 → Completes (.twpRegisterRead t a n true) s fun s' => ended s' ∧
      s'.dev.twp.out = (leBytes 8 (put 0 8 (s.dev.ctx .twp).page.toNat ||| put 8 4 s.dev.sup.mode.code).toNat).take n ∧
      s'.dev.twp.ptr.toNat = 0xF8 + n ∧ s.touches [.twp, .paths] s') ∧
    (log = true → s.dev.recm.stood = none → ∀ n, s.dev.pendingOf 0 = [] → Completes (.twpLogRead t a n) s fun s' => ended s' ∧
      s'.dev.twp.out = List.replicate n 0 ∧ s'.dev.twp.ack = true ∧ s.touches [.twp] s') ∧
    (log = true → s.dev.recm.stood = none → ∀ k z l n, s.dev.pendingOf 0 = (k, z) :: l → n < z.size → Completes (.twpLogRead t a n) s fun s' =>
      ended s' ∧ s'.dev.twp.out = (wordsBytes z.words).take n ∧ s.touches [.twp] s') ∧
    (log = true → s.dev.recm.stood = none → ∀ k z l, s.dev.pendingOf 0 = (k, z) :: l → z.words ≠ [] → Completes (.twpLogRead t a z.size) s fun s' =>
      ended s' ∧ s'.dev.twp.out = wordsBytes z.words ∧ s.touches [.twp, .recs] s' ∧ s'.dev.recm.logRead = s.dev.recm.logRead + 1 ∧
      s'.dev.recm.rings[k].pending = s.dev.recm.rings[k].pending.filter (fun y => y.ord != z.ord) ∧
      ∀ j, j ≠ k → s'.dev.recm.rings[j] = s.dev.recm.rings[j]) ∧
    (∀ l : List Byte, log = true → Completes (.twpLogWrite t a l) s fun s' => ended s' ∧ s'.dev.twp.logWr = true ∧ s'.dev.twp.ptr = x.ptr ∧
      s.touches [.twp] s') ∧
    (Completes (.twpTimeout t) s fun s' => s'.dev.twp.timeout = true ∧ s'.dev.twp.timeouts = x.timeouts + 1 ∧ s'.dev.twp.busy = false ∧
      s'.dev.twp.staging = none ∧ s'.dev.twp.partial_ = (x.partial_ || x.staging.isSome) ∧ s'.dev.twp.ptr = x.ptr ∧ s.touches [.twp] s') ∧
    (let idle := x.busy = false ∧ x.open_ = false ∧ x.idleAt + 100000 ≤ now
      let rep := fld x.cfg 8 8
      (idle → x.attnPend = true → x.sentAt = none → Completes (.attentionRequest t false) s fun s' =>
        s'.dev.twp = { x with attns := x.attns + 1, sentAt := some now, idleAt := now } ∧ s.touches [.twp] s') ∧
      (idle → x.attnPend = true → x.sentAt = none → Completes (.attentionRequest t true) s fun s' =>
        s'.dev.twp = { x with idleAt := now } ∧ s.touches [.twp] s') ∧
      (¬idle ∨ x.attnPend = false → ∀ b, Completes (.attentionRequest t b) s (s.touches []) ∧ Completes (.attnRepeat ⟨t, b⟩) s (s.touches [])) ∧
      (∀ u, idle → x.attnPend = true → x.sentAt = some u → rep ≠ 0 → u + 1000000 * rep ≤ now → (Completes (.attnRepeat ⟨t, false⟩) s fun s' =>
        s'.dev.twp = { x with attns := x.attns + 1, sentAt := some now, idleAt := now } ∧ s.touches [.twp] s') ∧
        Completes (.attnRepeat ⟨t, true⟩) s fun s' => s'.dev.twp = { x with idleAt := now } ∧ s.touches [.twp] s') ∧
      (rep = 0 → ∀ b, Completes (.attnRepeat ⟨t, b⟩) s (s.touches [])))

/-! ### Flash bridge and registers -/

/-- R361 to R363: an operation of the bridge starts where the bridge is open to its path, idle, and length and address
are in range, else it fails with its code; it sends its commands in mode 0, the first operation after steps 1 and 2 of the
boot probe (R343); READ fills the buffer, and a read of the two-wire port that waits for it goes on (R337); PROGRAM and the
erases end once the flash is no longer busy, or with TIMEOUT after their limit, VERIFY tells what it found. -/
def Obligations.FlashBridge : Prop :=
  ∀ (s : State) (t : Ns) (p : Path), s.dev.settled →
    let n := s.dev.nvi
    let now := s.now t
    let may := (s.dev.sup.mode = .service ∧ s.dev.pos.sync = .stopped ∧ bit s.dev.sup.svc 0 = false) ∧ (p = .twp → n.twpEn = true)
    let started (op len addr : Nat) (s' : State) : Prop := s'.dev.nvi = { n with
        brOp := op, brLen := len, brAddr := addr, brBusy := true, brAt := now, brErr := 0, brProbed := true, mode := 0, div := 0,
        sent := (if n.brProbed then [] else probeReset) ++ brCmds op len addr (n.buf.toList.flatMap wordBytes),
        flashBusy := decide (2 ≤ op) && decide (op ≤ 4) } ∧ s.touches [.nvi, .paths] s'
    let failed (code : Nat) (s' : State) : Prop := s'.dev.nvi.brErr = code ∧ s'.dev.nvi.brBusy = n.brBusy ∧ s'.dev.nvi.buf = n.buf ∧
      s.touches [.nvi, .paths] s'
    let ended (err : Nat) (s' : State) : Prop := s'.dev.nvi.brBusy = false ∧ s'.dev.nvi.brDone = true ∧ s'.dev.nvi.brErr = err ∧
      s'.dev.nvi.flashBusy = false ∧ s.touches [.nvi] s'
    let apart := s.dev.twp.stretch = none
    let dataIdx : Fin 32 := Fin.ofNat 32 (fld (s.dev.ctx p).brIdx 0 5)
    (∀ (len : BitVec 9) (addr : BitVec 21), ∀ x ∈ [(Instr.bridgeRead t p len addr, 1, len.toNat, decide (1 ≤ len.toNat ∧ len.toNat ≤ 128 ∧ addr.toNat + len.toNat ≤ 0x200000)),
        (.program t p len addr, 2, len.toNat, decide (1 ≤ len.toNat ∧ addr.toNat % 256 + len.toNat ≤ 256)),
        (.erase4k t p addr, 3, 0, decide (addr.toNat % 4096 = 0)), (.erase64k t p addr, 4, 0, decide (addr.toNat % 65536 = 0)),
        (.verify t p addr, 5, 0, true)],
      (may → n.brBusy = false → x.2.2.2 = true → Completes x.1 s (started x.2.1 x.2.2.1 addr.toNat)) ∧
      (may → n.brBusy = false → x.2.2.2 = false → Completes x.1 s (failed 2)) ∧
      (may → n.brBusy = true → Completes x.1 s (failed 3)) ∧
      (s.dev.sup.mode ≠ .service → s.dev.sup.mode ≠ .safe → Completes x.1 s (failed 1))) ∧
    (∀ busy : Bool, n.brBusy = true → 2 ≤ n.brOp → n.brOp ≤ 4 → Completes (.bridgeStatusPoll t busy) s fun s' =>
      s'.dev.nvi.flashBusy = busy ∧ s'.dev.nvi.brBusy = true ∧ .single 0x05 [] [] ∈ s'.dev.nvi.sent ∧ s.touches [.nvi] s') ∧
    (∀ l : List Byte, apart → n.brBusy = true → n.brOp = 1 → l.length = n.brLen → n.brLen ≤ 128 → Completes (.bridgeOperationDone t (.bytes l)) s fun s' =>
      ended 0 s' ∧ ∀ i, i < n.brLen → fld s'.dev.nvi.buf[Fin.ofNat 32 (i / 8)] (8 * (i % 8)) 8 = ((l[i]?).getD 0).toNat) ∧
    (∀ l : List Byte, s.clean → n.brBusy = true → n.brOp = 1 → l.length = n.brLen → n.brLen ≤ 128 → 1 ≤ n.brLen →
      s.dev.twp.stretch = some (.read 1 none true) → s.dev.sup.filled = true → s.dev.twp.ptr = 0x68 → (s.dev.ctx .twp).page = 0x68 →
      (s.dev.ctx .twp).brIdx = 0 → Completes (.bridgeOperationDone t (.bytes l)) s fun s' =>
        s'.dev.nvi.brBusy = false ∧ s'.dev.twp.stretch = none ∧ s'.dev.twp.out = s.dev.twp.out ++ [l.headD 0] ∧
        s'.dev.twp.busy = false ∧ s'.dev.twp.ptr = 0x69) ∧
    (apart → n.brBusy = true → 2 ≤ n.brOp → n.brOp ≤ 4 → n.flashBusy = false → Completes (.bridgeOperationDone t .none) s (ended 0)) ∧
    (apart → n.brBusy = true → 2 ≤ n.brOp → n.brOp ≤ 4 → n.flashBusy = true → Completes (.bridgeOperationDone t .none) s (s.touches [])) ∧
    (∀ f : FlashSlot, apart → n.brBusy = true → n.brOp = 5 → Completes (.bridgeOperationDone t (.slot f)) s fun s' =>
      ended (if s'.dev.nvi.vCode = 0 then 0 else 5) s' ∧ ((bootCheck f.boot).code ≠ 0 → s'.dev.nvi.vCode = (bootCheck f.boot).code)) ∧
    (n.brBusy = true → n.flashBusy = true → n.brAt + (if n.brOp = 2 then 5000000 else if n.brOp = 3 then 400000000 else 2000000000) ≤ now →
      Completes (.bridgeTimeout t) s (ended 4)) ∧
    (n.brBusy = false ∨ n.flashBusy = false ∨ now < n.brAt + (if n.brOp = 2 then 5000000 else if n.brOp = 3 then 400000000 else 2000000000) →
      Completes (.bridgeTimeout t) s (s.touches [])) ∧
    (∀ v : W64, may → Completes (.nviBrDataAccess t p (some v)) s fun s' => s'.dev.nvi = { n with buf := n.buf.set dataIdx.val v dataIdx.isLt } ∧
      fld (s'.dev.ctx p).brIdx 0 5 = (dataIdx.val + 1) % 32 ∧ s.touches [.nvi, .paths] s') ∧
    (n.brBusy = false ∨ p = .twp → Completes (.nviBrDataAccess t p none) s fun s' =>
      fld (s'.dev.ctx p).brIdx 0 5 = (dataIdx.val + 1) % 32 ∧ s.touches [.paths] s') ∧
    (n.brBusy = true → p ≠ .twp → Completes (.nviBrDataAccess t p none) s fun s' =>
      s'.dev.nvi.brErr = 6 ∧ s'.dev.nvi.brBusy = true ∧ s.touches [.nvi, .paths] s')

/-- R33 to R35, R413, R22: PAGE of a path is its own, through PAGE_WRITE and through a write to offset 0xF8 of any page;
a write to an address without a register has no effect, but is shown to the two-wire port; a register takes its RW bits
and drops the others; a select of a path is its own. -/
def Obligations.RegisterWrites : Prop :=
  ∀ (s : State) (t : Ns) (p : Path) (addr : BitVec 16) (v : W64), s.dev.settled →
    let own (c : PathCtx) (s' : State) : Prop := s'.dev.ctx p = { c with armedAt := none, served := s.dev.nextTurn } ∧ (∀ q, q ≠ p → s'.dev.ctx q = s.dev.ctx q) ∧
      s.touches [.paths] s'
    let u : Fin 8 := Fin.ofNat 8 (fld (s.dev.ctx p).tmuSel 0 3)
    Completes (.pageWrite t p v) s (own { s.dev.ctx p with page := v.setWidth 8 }) ∧
    (p ≠ .loader → addr.toNat % 256 = 0xF8 → Completes (.registerWrite t p addr v) s (own { s.dev.ctx p with page := v.setWidth 8 })) ∧
    (p ≠ .loader → p ≠ .twp → regRow addr = none → Completes (.registerWrite t p addr v) s (own (s.dev.ctx p))) ∧
    (p = .twp → regRow addr = none → Completes (.registerWrite t p addr v) s fun s' => s'.dev.twp.noreg = true ∧ s.touches [.paths, .twp] s') ∧
    (p = .loader → s.dev.nvi.phase = .idle → Completes (.registerWrite t p addr v) s (s.touches [])) ∧
    (p ≠ .loader → addr = 0x5000 → Completes (.registerWrite t p addr v) s (own { s.dev.ctx p with tmuSel := v &&& 0x307 })) ∧
    (p ≠ .loader → addr = 0x5018 → sameClock s.dev.tmu[u].emitAt (s.now t) = false →
      Completes (.registerWrite t p addr v) s fun s' =>
      s'.dev.tmu[u] = { s.dev.tmu[u] with reload := v.setWidth 32 } ∧ (∀ w, w ≠ u → s'.dev.tmu[w] = s.dev.tmu[w]) ∧ s.touches [.tmu, .paths] s') ∧
    (p ≠ .loader → addr = 0x6008 → Completes (.registerWrite t p addr v) s fun s' => s'.dev.twp.cfg = v &&& 0xFFFFFF01 ∧ s.touches [.twp, .paths] s')
end

