-- ==== Sys2Proof/Laws/Memory.lean ====
section
/-! SUPPORT. The sparse memories: a read after a write, the canonical form that every write keeps, words and their
bytes. -/

namespace Sys2Proof.Machine

/-! ### Sparse tables -/

section
variable {α : Type} [DecidableEq α] {d : α}

theorem swf_mono {hi : Nat} : ∀ {l : List (Nat × α)} {lo lo' : Nat}, lo' ≤ lo → swf d hi lo l = true → swf d hi lo' l = true
  | [], _, _, _, _ => rfl
  | (k, x) :: l, lo, lo', h, hw => by
    simp only [swf, Bool.and_eq_true, decide_eq_true_eq] at hw ⊢
    exact ⟨⟨⟨Nat.le_trans h hw.1.1.1, hw.1.1.2⟩, hw.1.2⟩, hw.2⟩

/-- A table in canonical form reads as `d` below its first key. -/
theorem sget_below {hi : Nat} : ∀ {l : List (Nat × α)} {lo a : Nat}, swf d hi lo l = true → a < lo → sget d l a = d
  | [], _, _, _, _ => rfl
  | (k, x) :: l, lo, a, hw, h => by
    simp only [swf, Bool.and_eq_true, decide_eq_true_eq] at hw
    have hk : a ≠ k := by omega
    simp only [sget, hk, if_false]
    exact sget_below hw.2 (by omega)

/-- A read after a write: the value written at that key, every other key as before. -/
theorem sget_sput {hi : Nat} : ∀ {l : List (Nat × α)} {lo : Nat}, swf d hi lo l = true → ∀ (a b : Nat) (v : α),
    sget d (sput d l a v) b = if b = a then v else sget d l b
  | [], _, _, a, b, v => by
    unfold sput
    split
    · next h => simp [sget, h]
    · simp [sget]
  | (k, x) :: l, lo, hw, a, b, v => by
    simp only [swf, Bool.and_eq_true, decide_eq_true_eq] at hw
    have ih := sget_sput hw.2 a b v
    unfold sput
    split
    · next hak =>
      split
      · next hv =>
        by_cases hb : b = a
        · subst hb
          have hne : b ≠ k := by omega
          simp only [if_pos, sget, hne, if_false, hv]
          exact sget_below hw.2 (by omega)
        · simp [hb]
      · simp [sget]
    · split
      · next hak =>
        subst hak
        split
        · next hv =>
          by_cases hb : b = a
          · subst hb
            simp only [if_pos, hv]
            exact sget_below hw.2 (by omega)
          · simp [hb, sget]
        · by_cases hb : b = a <;> simp [hb, sget]
      · next h1 h2 =>
        by_cases hb : b = k
        · have hba : b ≠ a := by omega
          simp [sget, hb] at *
          intro h
          omega
        · simp only [sget, hb, if_false]
          exact ih

/-- A write keeps the canonical form. -/
theorem swf_sput {hi : Nat} : ∀ {l : List (Nat × α)} {lo : Nat}, swf d hi lo l = true → ∀ (a : Nat) (v : α), lo ≤ a → a < hi →
    swf d hi lo (sput d l a v) = true
  | [], lo, _, a, v, h1, h2 => by
    unfold sput
    split
    · rfl
    · next hv => simp [swf, h1, h2, hv]
  | (k, x) :: l, lo, hw, a, v, h1, h2 => by
    have hw' := hw
    simp only [swf, Bool.and_eq_true, decide_eq_true_eq] at hw'
    obtain ⟨⟨⟨w1, w2⟩, w3⟩, w4⟩ := hw'
    unfold sput
    split
    · next hak =>
      split
      · exact hw
      · next hv =>
        simp only [swf, Bool.and_eq_true, decide_eq_true_eq]
        exact ⟨⟨⟨h1, h2⟩, hv⟩, ⟨⟨by omega, w2⟩, w3⟩, w4⟩
    · split
      · next hak =>
        split
        · exact swf_mono (by omega) w4
        · next hv =>
          simp only [swf, Bool.and_eq_true, decide_eq_true_eq]
          exact ⟨⟨⟨h1, h2⟩, hv⟩, hak ▸ w4⟩
      · next h3 h4 =>
        simp only [swf, Bool.and_eq_true, decide_eq_true_eq]
        exact ⟨⟨⟨w1, w2⟩, w3⟩, swf_sput w4 a v (by omega) h2⟩

/-- Entries taken away leave the canonical form. -/
theorem swf_filter {hi : Nat} (p : Nat × α → Bool) : ∀ {l : List (Nat × α)} {lo : Nat}, swf d hi lo l = true →
    swf d hi lo (l.filter p) = true
  | [], _, _ => rfl
  | (k, x) :: l, lo, hw => by
    simp only [swf, Bool.and_eq_true, decide_eq_true_eq] at hw
    obtain ⟨⟨⟨w1, w2⟩, w3⟩, w4⟩ := hw
    have ih := swf_filter p w4
    rw [List.filter_cons]
    split
    · simp only [swf, Bool.and_eq_true, decide_eq_true_eq]
      exact ⟨⟨⟨w1, w2⟩, w3⟩, ih⟩
    · exact swf_mono (by omega) ih

end

/-! ### Bytes -/

theorem putBytes_wf {m : List Host.Cell} (h : Memory.wf m = true) (l : List Byte) : ∀ (a : Nat),
    Memory.wf (putBytes m a l) = true := by
  induction l generalizing m with
  | nil => exact fun _ => h
  | cons b l ih =>
    intro a
    unfold putBytes
    split
    · next ha => exact ih (swf_sput h a b (Nat.zero_le a) ha) (a + 1)
    · exact ih h (a + 1)

/-- A byte after a write of bytes: the byte written there, every other byte as before. -/
theorem sget_putBytes {m : List Host.Cell} (h : Memory.wf m = true) (l : List Byte) : ∀ (a b : Nat), a + l.length ≤ sramSize →
    sget 0 (putBytes m a l) b = if a ≤ b ∧ b < a + l.length then l.getD (b - a) 0 else sget 0 m b := by
  induction l generalizing m with
  | nil => intro a b _; simp [putBytes]
  | cons x l ih =>
    intro a b ha
    simp only [List.length_cons] at ha
    have has : a < sramSize := by omega
    unfold putBytes
    rw [if_pos has, ih (swf_sput h a x (Nat.zero_le a) has) (a + 1) b (by omega), sget_sput h a b x]
    simp only [List.length_cons]
    by_cases h1 : b = a
    · subst h1
      rw [if_neg (by omega), if_pos rfl, if_pos (by omega)]
      simp
    · by_cases h2 : a + 1 ≤ b ∧ b < a + 1 + l.length
      · rw [if_pos h2, if_pos (by omega)]
        obtain ⟨n, rfl⟩ : ∃ n, b = a + 1 + n := ⟨b - (a + 1), by omega⟩
        have e1 : a + 1 + n - (a + 1) = n := by omega
        have e2 : a + 1 + n - a = n + 1 := by omega
        rw [e1, e2]
        rfl
      · rw [if_neg h2, if_neg h1, if_neg (by omega)]

/-! ### Words and their bytes -/

theorem leBytes_length : ∀ (n x : Nat), (leBytes n x).length = n
  | 0, _ => rfl
  | n + 1, x => by simp [leBytes, leBytes_length n]

theorem leNat_leBytes : ∀ (n x : Nat), x < 256 ^ n → leNat (leBytes n x) = x
  | 0, x, h => by
    have : x = 0 := by simpa using h
    subst this
    rfl
  | n + 1, x, h => by
    have h' : x / 256 < 256 ^ n := by
      rw [Nat.pow_succ] at h
      exact Nat.div_lt_of_lt_mul (by omega)
    simp only [leBytes, leNat, leNat_leBytes n _ h', BitVec.toNat_ofNat]
    omega

theorem wordBytes_length (w : W64) : (wordBytes w).length = 8 := leBytes_length 8 _

/-- A word of 64 bits is the value of its bytes. -/
theorem leNat_wordBytes (w : W64) : leNat (wordBytes w) = w.toNat :=
  leNat_leBytes 8 _ (by have := w.isLt; omega)

/-- The word at an address whose bytes are known. -/
theorem word_of_bytes {m : Mems} {a : Nat} {w : W64} (h : m.bytes a 8 = wordBytes w) : m.word a = w := by
  simp [Mems.word, h, leNat_wordBytes]

/-! ### The writes of a command -/

@[simp] theorem Mems.note_sram (m : Mems) : m.note.sram = m.sram := by
  unfold Mems.note
  split <;> rfl

@[simp] theorem Mems.note_attrs (m : Mems) : m.note.attrs = m.attrs := by
  unfold Mems.note
  split <;> rfl

@[simp] theorem Mems.note_wf (m : Mems) : m.note.wf = m.wf := by simp [Mems.wf]

@[simp] theorem Mems.note_byte (m : Mems) (a : Nat) : m.note.byte a = m.byte a := by simp [Mems.byte]

@[simp] theorem Mems.note_word (m : Mems) (a : Nat) : m.note.word a = m.word a := by simp [Mems.word, Mems.bytes]

/-- What a write does to the bytes and the attributes is `MemOp.put`'s; beside it only the watched permit slot moves
(R78). -/
@[simp] theorem MemOp.apply_sram (m : Mems) (w : MemOp) : (w.apply m).sram = (w.put m).sram := Mems.note_sram _
@[simp] theorem MemOp.apply_attrs (m : Mems) (w : MemOp) : (w.apply m).attrs = (w.put m).attrs := Mems.note_attrs _
@[simp] theorem MemOp.apply_byte (m : Mems) (w : MemOp) (a : Nat) : (w.apply m).byte a = (w.put m).byte a := Mems.note_byte _ a
@[simp] theorem MemOp.apply_word (m : Mems) (w : MemOp) (a : Nat) : (w.apply m).word a = (w.put m).word a := Mems.note_word _ a

/-- Every write keeps the canonical form of both memories. -/
theorem Mems.wf_put {m : Mems} (h : m.wf = true) (w : MemOp) : (w.put m).wf = true := by
  simp only [Mems.wf, Bool.and_eq_true] at h ⊢
  obtain ⟨h1, h2⟩ := h
  cases w with
  | slot i v g =>
    simp only [MemOp.put]
    split
    · next hi => exact ⟨putBytes_wf h1 _ _, swf_sput h2 _ _ (Nat.zero_le _) hi⟩
    · exact ⟨h1, h2⟩
  | tag i g =>
    simp only [MemOp.put]
    split
    · next hi => exact ⟨h1, swf_sput h2 _ _ (Nat.zero_le _) hi⟩
    · exact ⟨h1, h2⟩
  | stale i =>
    simp only [MemOp.put]
    split
    · next hi => exact ⟨h1, swf_sput h2 _ _ (Nat.zero_le _) hi.1⟩
    · exact ⟨h1, h2⟩
  | bytes a l => exact ⟨putBytes_wf h1 _ _, h2⟩
  | fill lo hi => exact ⟨swf_filter _ h1, h2⟩
  | clearAttrs => exact ⟨h1, rfl⟩
  | attr i a =>
    simp only [MemOp.put]
    split
    · next hi => exact ⟨h1, swf_sput h2 _ _ (Nat.zero_le _) hi⟩
    · exact ⟨h1, h2⟩
  | watch x => exact ⟨h1, h2⟩

theorem Mems.wf_apply {m : Mems} (h : m.wf = true) (w : MemOp) : (w.apply m).wf = true :=
  (Mems.note_wf _).trans (Mems.wf_put h w)

theorem Mems.wf_foldl {m : Mems} (h : m.wf = true) (l : List MemOp) : (l.foldl (fun m w => w.apply m) m).wf = true := by
  induction l generalizing m with
  | nil => exact h
  | cons w l ih => exact ih (Mems.wf_apply h w)

/-- A slot written: every byte outside its eight stays. -/
theorem byte_slot {m : Mems} (h : m.wf = true) {i : Nat} (hi : i < 16384) (v : W64) (g : Byte) (a : Nat)
    (ha : a < slotAddr i ∨ slotAddr i + 8 ≤ a) : ((MemOp.slot i v g).apply m).byte a = m.byte a := by
  simp only [Mems.wf, Bool.and_eq_true] at h
  rw [MemOp.apply_byte]
  simp only [MemOp.put, if_pos hi, Mems.byte]
  rw [sget_putBytes h.1 _ _ _ (by simp [wordBytes_length, slotAddr, slotBase, sramSize]; omega), wordBytes_length, if_neg (by omega)]

/-- A slot written reads as the value written. -/
theorem word_slot {m : Mems} (h : m.wf = true) {i : Nat} (hi : i < 16384) (v : W64) (g : Byte) :
    ((MemOp.slot i v g).apply m).word (slotAddr i) = v := by
  apply word_of_bytes
  simp only [Mems.wf, Bool.and_eq_true] at h
  apply List.ext_getElem
  · simp [Mems.bytes, wordBytes_length]
  · intro n h1 h2
    have hn : n < 8 := by simpa [wordBytes_length] using h2
    simp only [Mems.bytes, List.getElem_map, List.getElem_range, Mems.byte, MemOp.apply_sram, MemOp.put, if_pos hi]
    rw [sget_putBytes h.1 _ _ _ (by simp [wordBytes_length, slotAddr, slotBase, sramSize]; omega), wordBytes_length, if_pos (by omega),
      List.getD_eq_getElem?_getD, Nat.add_sub_cancel_left, List.getElem?_eq_getElem h2]
    rfl

/-- Another slot keeps its value. -/
theorem word_slot_other {m : Mems} (h : m.wf = true) {i j : Nat} (hi : i < 16384) (hij : j ≠ i) (v : W64) (g : Byte) :
    ((MemOp.slot i v g).apply m).word (slotAddr j) = m.word (slotAddr j) := by
  simp only [Mems.word, Mems.bytes]
  congr 2
  apply List.map_congr_left
  intro n hn
  rw [List.mem_range] at hn
  exact byte_slot h hi v g _ (by simp only [slotAddr]; omega)

/-- Tag, class and writer of a slot after a write of it. -/
theorem attr_slot {m : Mems} (h : m.wf = true) {i : Nat} (hi : i < 16384) (v : W64) (g : Byte) (j : Nat) :
    sget {} ((MemOp.slot i v g).apply m).attrs j = if j = i then { sget {} m.attrs i with tag := g } else sget {} m.attrs j := by
  simp only [Mems.wf, Bool.and_eq_true] at h
  simp only [MemOp.apply_attrs, MemOp.put, if_pos hi]
  exact sget_sput h.2 _ _ _

/-- An input slot made stale: STALE set, VALID clear, all else of its attributes as before, every other slot's too. -/
theorem attr_stale {m : Mems} (h : m.wf = true) {i : Nat} (hi : i < 16384) (hc : (sget {} m.attrs i).cls = 1)
    (hw : (sget {} m.attrs i).writer = 8) (j : Nat) :
    sget {} ((MemOp.stale i).apply m).attrs j
      = if j = i then { sget {} m.attrs i with tag := ((sget {} m.attrs i).tag ||| 2) &&& 0xFE } else sget {} m.attrs j := by
  simp only [Mems.wf, Bool.and_eq_true] at h
  simp only [MemOp.apply_attrs, MemOp.put, if_pos (And.intro hi (And.intro hc hw))]
  exact sget_sput h.2 _ _ _

end Sys2Proof.Machine
end

