-- ==== Sys2Proof/Laws/State.lean ====
section
/-! SUPPORT. What each update of the device leaves as it was, field by field, and what it puts into the field that it
changes: no later proof unfolds a record update. -/

namespace Sys2Proof.Machine

/-! ### One element of a vector -/

@[simp] theorem upd_same {α : Type} {n : Nat} (v : Vector α n) (i : Fin n) (f : α → α) : (upd v i f)[i] = f v[i] := by
  simp [upd]

@[simp] theorem upd_same_val {α : Type} {n : Nat} (v : Vector α n) (i : Fin n) (f : α → α) : (upd v i f)[i.val] = f v[i.val] := by
  simp [upd]

theorem upd_other {α : Type} {n : Nat} (v : Vector α n) (i j : Fin n) (f : α → α) (h : j ≠ i) : (upd v i f)[j] = v[j] := by
  simp only [upd, Fin.getElem_fin]
  exact Vector.getElem_set_ne _ _ (fun hc => h (Fin.ext hc.symm))

theorem upd_upd {α : Type} {n : Nat} (v : Vector α n) (i : Fin n) (f g : α → α) : upd (upd v i f) i g = upd v i fun x => g (f x) := by
  simp [upd]

/-! ### `modCtx` -/

@[simp] theorem Dev.modCtx_dtime (p : Path) (f : PathCtx → PathCtx) (d : Dev) : (d.modCtx p f).dtime = d.dtime := rfl
@[simp] theorem Dev.modCtx_sup (p : Path) (f : PathCtx → PathCtx) (d : Dev) : (d.modCtx p f).sup = d.sup := rfl
@[simp] theorem Dev.modCtx_nvi (p : Path) (f : PathCtx → PathCtx) (d : Dev) : (d.modCtx p f).nvi = d.nvi := rfl
@[simp] theorem Dev.modCtx_flt (p : Path) (f : PathCtx → PathCtx) (d : Dev) : (d.modCtx p f).flt = d.flt := rfl
@[simp] theorem Dev.modCtx_memu (p : Path) (f : PathCtx → PathCtx) (d : Dev) : (d.modCtx p f).memu = d.memu := rfl
@[simp] theorem Dev.modCtx_paths (p : Path) (f : PathCtx → PathCtx) (d : Dev) : (d.modCtx p f).paths = upd d.paths (pathIndex p) f := rfl
@[simp] theorem Dev.modCtx_pos (p : Path) (f : PathCtx → PathCtx) (d : Dev) : (d.modCtx p f).pos = d.pos := rfl
@[simp] theorem Dev.modCtx_adm (p : Path) (f : PathCtx → PathCtx) (d : Dev) : (d.modCtx p f).adm = d.adm := rfl
@[simp] theorem Dev.modCtx_loft (p : Path) (f : PathCtx → PathCtx) (d : Dev) : (d.modCtx p f).loft = d.loft := rfl
@[simp] theorem Dev.modCtx_banks (p : Path) (f : PathCtx → PathCtx) (d : Dev) : (d.modCtx p f).banks = d.banks := rfl
@[simp] theorem Dev.modCtx_bst (p : Path) (f : PathCtx → PathCtx) (d : Dev) : (d.modCtx p f).bst = d.bst := rfl
@[simp] theorem Dev.modCtx_pfi (p : Path) (f : PathCtx → PathCtx) (d : Dev) : (d.modCtx p f).pfi = d.pfi := rfl
@[simp] theorem Dev.modCtx_ign (p : Path) (f : PathCtx → PathCtx) (d : Dev) : (d.modCtx p f).ign = d.ign := rfl
@[simp] theorem Dev.modCtx_gate (p : Path) (f : PathCtx → PathCtx) (d : Dev) : (d.modCtx p f).gate = d.gate := rfl
@[simp] theorem Dev.modCtx_diag (p : Path) (f : PathCtx → PathCtx) (d : Dev) : (d.modCtx p f).diag = d.diag := rfl
@[simp] theorem Dev.modCtx_ce (p : Path) (f : PathCtx → PathCtx) (d : Dev) : (d.modCtx p f).ce = d.ce := rfl
@[simp] theorem Dev.modCtx_ces (p : Path) (f : PathCtx → PathCtx) (d : Dev) : (d.modCtx p f).ces = d.ces := rfl
@[simp] theorem Dev.modCtx_cnv (p : Path) (f : PathCtx → PathCtx) (d : Dev) : (d.modCtx p f).cnv = d.cnv := rfl
@[simp] theorem Dev.modCtx_cnvs (p : Path) (f : PathCtx → PathCtx) (d : Dev) : (d.modCtx p f).cnvs = d.cnvs := rfl
@[simp] theorem Dev.modCtx_recm (p : Path) (f : PathCtx → PathCtx) (d : Dev) : (d.modCtx p f).recm = d.recm := rfl
@[simp] theorem Dev.modCtx_snap (p : Path) (f : PathCtx → PathCtx) (d : Dev) : (d.modCtx p f).snap = d.snap := rfl
@[simp] theorem Dev.modCtx_tmu (p : Path) (f : PathCtx → PathCtx) (d : Dev) : (d.modCtx p f).tmu = d.tmu := rfl
@[simp] theorem Dev.modCtx_pio (p : Path) (f : PathCtx → PathCtx) (d : Dev) : (d.modCtx p f).pio = d.pio := rfl
@[simp] theorem Dev.modCtx_pios (p : Path) (f : PathCtx → PathCtx) (d : Dev) : (d.modCtx p f).pios = d.pios := rfl
@[simp] theorem Dev.modCtx_can (p : Path) (f : PathCtx → PathCtx) (d : Dev) : (d.modCtx p f).can = d.can := rfl
@[simp] theorem Dev.modCtx_rope (p : Path) (f : PathCtx → PathCtx) (d : Dev) : (d.modCtx p f).rope = d.rope := rfl
@[simp] theorem Dev.modCtx_twp (p : Path) (f : PathCtx → PathCtx) (d : Dev) : (d.modCtx p f).twp = d.twp := rfl
@[simp] theorem Dev.modCtx_writes (p : Path) (f : PathCtx → PathCtx) (d : Dev) : (d.modCtx p f).writes = d.writes := rfl
@[simp] theorem Dev.modCtx_free (p : Path) (f : PathCtx → PathCtx) (d : Dev) : (d.modCtx p f).free = d.free := rfl

/-! ### `modSup` -/

@[simp] theorem Dev.modSup_dtime (f : Sup → Sup) (d : Dev) : (d.modSup f).dtime = d.dtime := rfl
@[simp] theorem Dev.modSup_sup (f : Sup → Sup) (d : Dev) : (d.modSup f).sup = f d.sup := rfl
@[simp] theorem Dev.modSup_nvi (f : Sup → Sup) (d : Dev) : (d.modSup f).nvi = d.nvi := rfl
@[simp] theorem Dev.modSup_flt (f : Sup → Sup) (d : Dev) : (d.modSup f).flt = d.flt := rfl
@[simp] theorem Dev.modSup_memu (f : Sup → Sup) (d : Dev) : (d.modSup f).memu = d.memu := rfl
@[simp] theorem Dev.modSup_paths (f : Sup → Sup) (d : Dev) : (d.modSup f).paths = d.paths := rfl
@[simp] theorem Dev.modSup_pos (f : Sup → Sup) (d : Dev) : (d.modSup f).pos = d.pos := rfl
@[simp] theorem Dev.modSup_adm (f : Sup → Sup) (d : Dev) : (d.modSup f).adm = d.adm := rfl
@[simp] theorem Dev.modSup_loft (f : Sup → Sup) (d : Dev) : (d.modSup f).loft = d.loft := rfl
@[simp] theorem Dev.modSup_banks (f : Sup → Sup) (d : Dev) : (d.modSup f).banks = d.banks := rfl
@[simp] theorem Dev.modSup_bst (f : Sup → Sup) (d : Dev) : (d.modSup f).bst = d.bst := rfl
@[simp] theorem Dev.modSup_pfi (f : Sup → Sup) (d : Dev) : (d.modSup f).pfi = d.pfi := rfl
@[simp] theorem Dev.modSup_ign (f : Sup → Sup) (d : Dev) : (d.modSup f).ign = d.ign := rfl
@[simp] theorem Dev.modSup_gate (f : Sup → Sup) (d : Dev) : (d.modSup f).gate = d.gate := rfl
@[simp] theorem Dev.modSup_diag (f : Sup → Sup) (d : Dev) : (d.modSup f).diag = d.diag := rfl
@[simp] theorem Dev.modSup_ce (f : Sup → Sup) (d : Dev) : (d.modSup f).ce = d.ce := rfl
@[simp] theorem Dev.modSup_ces (f : Sup → Sup) (d : Dev) : (d.modSup f).ces = d.ces := rfl
@[simp] theorem Dev.modSup_cnv (f : Sup → Sup) (d : Dev) : (d.modSup f).cnv = d.cnv := rfl
@[simp] theorem Dev.modSup_cnvs (f : Sup → Sup) (d : Dev) : (d.modSup f).cnvs = d.cnvs := rfl
@[simp] theorem Dev.modSup_recm (f : Sup → Sup) (d : Dev) : (d.modSup f).recm = d.recm := rfl
@[simp] theorem Dev.modSup_snap (f : Sup → Sup) (d : Dev) : (d.modSup f).snap = d.snap := rfl
@[simp] theorem Dev.modSup_tmu (f : Sup → Sup) (d : Dev) : (d.modSup f).tmu = d.tmu := rfl
@[simp] theorem Dev.modSup_pio (f : Sup → Sup) (d : Dev) : (d.modSup f).pio = d.pio := rfl
@[simp] theorem Dev.modSup_pios (f : Sup → Sup) (d : Dev) : (d.modSup f).pios = d.pios := rfl
@[simp] theorem Dev.modSup_can (f : Sup → Sup) (d : Dev) : (d.modSup f).can = d.can := rfl
@[simp] theorem Dev.modSup_rope (f : Sup → Sup) (d : Dev) : (d.modSup f).rope = d.rope := rfl
@[simp] theorem Dev.modSup_twp (f : Sup → Sup) (d : Dev) : (d.modSup f).twp = d.twp := rfl
@[simp] theorem Dev.modSup_writes (f : Sup → Sup) (d : Dev) : (d.modSup f).writes = d.writes := rfl
@[simp] theorem Dev.modSup_free (f : Sup → Sup) (d : Dev) : (d.modSup f).free = d.free := rfl

/-! ### `modNvi` -/

@[simp] theorem Dev.modNvi_dtime (f : Nvi → Nvi) (d : Dev) : (d.modNvi f).dtime = d.dtime := rfl
@[simp] theorem Dev.modNvi_sup (f : Nvi → Nvi) (d : Dev) : (d.modNvi f).sup = d.sup := rfl
@[simp] theorem Dev.modNvi_nvi (f : Nvi → Nvi) (d : Dev) : (d.modNvi f).nvi = f d.nvi := rfl
@[simp] theorem Dev.modNvi_flt (f : Nvi → Nvi) (d : Dev) : (d.modNvi f).flt = d.flt := rfl
@[simp] theorem Dev.modNvi_memu (f : Nvi → Nvi) (d : Dev) : (d.modNvi f).memu = d.memu := rfl
@[simp] theorem Dev.modNvi_paths (f : Nvi → Nvi) (d : Dev) : (d.modNvi f).paths = d.paths := rfl
@[simp] theorem Dev.modNvi_pos (f : Nvi → Nvi) (d : Dev) : (d.modNvi f).pos = d.pos := rfl
@[simp] theorem Dev.modNvi_adm (f : Nvi → Nvi) (d : Dev) : (d.modNvi f).adm = d.adm := rfl
@[simp] theorem Dev.modNvi_loft (f : Nvi → Nvi) (d : Dev) : (d.modNvi f).loft = d.loft := rfl
@[simp] theorem Dev.modNvi_banks (f : Nvi → Nvi) (d : Dev) : (d.modNvi f).banks = d.banks := rfl
@[simp] theorem Dev.modNvi_bst (f : Nvi → Nvi) (d : Dev) : (d.modNvi f).bst = d.bst := rfl
@[simp] theorem Dev.modNvi_pfi (f : Nvi → Nvi) (d : Dev) : (d.modNvi f).pfi = d.pfi := rfl
@[simp] theorem Dev.modNvi_ign (f : Nvi → Nvi) (d : Dev) : (d.modNvi f).ign = d.ign := rfl
@[simp] theorem Dev.modNvi_gate (f : Nvi → Nvi) (d : Dev) : (d.modNvi f).gate = d.gate := rfl
@[simp] theorem Dev.modNvi_diag (f : Nvi → Nvi) (d : Dev) : (d.modNvi f).diag = d.diag := rfl
@[simp] theorem Dev.modNvi_ce (f : Nvi → Nvi) (d : Dev) : (d.modNvi f).ce = d.ce := rfl
@[simp] theorem Dev.modNvi_ces (f : Nvi → Nvi) (d : Dev) : (d.modNvi f).ces = d.ces := rfl
@[simp] theorem Dev.modNvi_cnv (f : Nvi → Nvi) (d : Dev) : (d.modNvi f).cnv = d.cnv := rfl
@[simp] theorem Dev.modNvi_cnvs (f : Nvi → Nvi) (d : Dev) : (d.modNvi f).cnvs = d.cnvs := rfl
@[simp] theorem Dev.modNvi_recm (f : Nvi → Nvi) (d : Dev) : (d.modNvi f).recm = d.recm := rfl
@[simp] theorem Dev.modNvi_snap (f : Nvi → Nvi) (d : Dev) : (d.modNvi f).snap = d.snap := rfl
@[simp] theorem Dev.modNvi_tmu (f : Nvi → Nvi) (d : Dev) : (d.modNvi f).tmu = d.tmu := rfl
@[simp] theorem Dev.modNvi_pio (f : Nvi → Nvi) (d : Dev) : (d.modNvi f).pio = d.pio := rfl
@[simp] theorem Dev.modNvi_pios (f : Nvi → Nvi) (d : Dev) : (d.modNvi f).pios = d.pios := rfl
@[simp] theorem Dev.modNvi_can (f : Nvi → Nvi) (d : Dev) : (d.modNvi f).can = d.can := rfl
@[simp] theorem Dev.modNvi_rope (f : Nvi → Nvi) (d : Dev) : (d.modNvi f).rope = d.rope := rfl
@[simp] theorem Dev.modNvi_twp (f : Nvi → Nvi) (d : Dev) : (d.modNvi f).twp = d.twp := rfl
@[simp] theorem Dev.modNvi_writes (f : Nvi → Nvi) (d : Dev) : (d.modNvi f).writes = d.writes := rfl
@[simp] theorem Dev.modNvi_free (f : Nvi → Nvi) (d : Dev) : (d.modNvi f).free = d.free := rfl

/-! ### `modFlt` -/

@[simp] theorem Dev.modFlt_dtime (f : Flt → Flt) (d : Dev) : (d.modFlt f).dtime = d.dtime := rfl
@[simp] theorem Dev.modFlt_sup (f : Flt → Flt) (d : Dev) : (d.modFlt f).sup = d.sup := rfl
@[simp] theorem Dev.modFlt_nvi (f : Flt → Flt) (d : Dev) : (d.modFlt f).nvi = d.nvi := rfl
@[simp] theorem Dev.modFlt_flt (f : Flt → Flt) (d : Dev) : (d.modFlt f).flt = f d.flt := rfl
@[simp] theorem Dev.modFlt_memu (f : Flt → Flt) (d : Dev) : (d.modFlt f).memu = d.memu := rfl
@[simp] theorem Dev.modFlt_paths (f : Flt → Flt) (d : Dev) : (d.modFlt f).paths = d.paths := rfl
@[simp] theorem Dev.modFlt_pos (f : Flt → Flt) (d : Dev) : (d.modFlt f).pos = d.pos := rfl
@[simp] theorem Dev.modFlt_adm (f : Flt → Flt) (d : Dev) : (d.modFlt f).adm = d.adm := rfl
@[simp] theorem Dev.modFlt_loft (f : Flt → Flt) (d : Dev) : (d.modFlt f).loft = d.loft := rfl
@[simp] theorem Dev.modFlt_banks (f : Flt → Flt) (d : Dev) : (d.modFlt f).banks = d.banks := rfl
@[simp] theorem Dev.modFlt_bst (f : Flt → Flt) (d : Dev) : (d.modFlt f).bst = d.bst := rfl
@[simp] theorem Dev.modFlt_pfi (f : Flt → Flt) (d : Dev) : (d.modFlt f).pfi = d.pfi := rfl
@[simp] theorem Dev.modFlt_ign (f : Flt → Flt) (d : Dev) : (d.modFlt f).ign = d.ign := rfl
@[simp] theorem Dev.modFlt_gate (f : Flt → Flt) (d : Dev) : (d.modFlt f).gate = d.gate := rfl
@[simp] theorem Dev.modFlt_diag (f : Flt → Flt) (d : Dev) : (d.modFlt f).diag = d.diag := rfl
@[simp] theorem Dev.modFlt_ce (f : Flt → Flt) (d : Dev) : (d.modFlt f).ce = d.ce := rfl
@[simp] theorem Dev.modFlt_ces (f : Flt → Flt) (d : Dev) : (d.modFlt f).ces = d.ces := rfl
@[simp] theorem Dev.modFlt_cnv (f : Flt → Flt) (d : Dev) : (d.modFlt f).cnv = d.cnv := rfl
@[simp] theorem Dev.modFlt_cnvs (f : Flt → Flt) (d : Dev) : (d.modFlt f).cnvs = d.cnvs := rfl
@[simp] theorem Dev.modFlt_recm (f : Flt → Flt) (d : Dev) : (d.modFlt f).recm = d.recm := rfl
@[simp] theorem Dev.modFlt_snap (f : Flt → Flt) (d : Dev) : (d.modFlt f).snap = d.snap := rfl
@[simp] theorem Dev.modFlt_tmu (f : Flt → Flt) (d : Dev) : (d.modFlt f).tmu = d.tmu := rfl
@[simp] theorem Dev.modFlt_pio (f : Flt → Flt) (d : Dev) : (d.modFlt f).pio = d.pio := rfl
@[simp] theorem Dev.modFlt_pios (f : Flt → Flt) (d : Dev) : (d.modFlt f).pios = d.pios := rfl
@[simp] theorem Dev.modFlt_can (f : Flt → Flt) (d : Dev) : (d.modFlt f).can = d.can := rfl
@[simp] theorem Dev.modFlt_rope (f : Flt → Flt) (d : Dev) : (d.modFlt f).rope = d.rope := rfl
@[simp] theorem Dev.modFlt_twp (f : Flt → Flt) (d : Dev) : (d.modFlt f).twp = d.twp := rfl
@[simp] theorem Dev.modFlt_writes (f : Flt → Flt) (d : Dev) : (d.modFlt f).writes = d.writes := rfl
@[simp] theorem Dev.modFlt_free (f : Flt → Flt) (d : Dev) : (d.modFlt f).free = d.free := rfl

/-! ### `modMem` -/

@[simp] theorem Dev.modMem_dtime (f : MemU → MemU) (d : Dev) : (d.modMem f).dtime = d.dtime := rfl
@[simp] theorem Dev.modMem_sup (f : MemU → MemU) (d : Dev) : (d.modMem f).sup = d.sup := rfl
@[simp] theorem Dev.modMem_nvi (f : MemU → MemU) (d : Dev) : (d.modMem f).nvi = d.nvi := rfl
@[simp] theorem Dev.modMem_flt (f : MemU → MemU) (d : Dev) : (d.modMem f).flt = d.flt := rfl
@[simp] theorem Dev.modMem_memu (f : MemU → MemU) (d : Dev) : (d.modMem f).memu = f d.memu := rfl
@[simp] theorem Dev.modMem_paths (f : MemU → MemU) (d : Dev) : (d.modMem f).paths = d.paths := rfl
@[simp] theorem Dev.modMem_pos (f : MemU → MemU) (d : Dev) : (d.modMem f).pos = d.pos := rfl
@[simp] theorem Dev.modMem_adm (f : MemU → MemU) (d : Dev) : (d.modMem f).adm = d.adm := rfl
@[simp] theorem Dev.modMem_loft (f : MemU → MemU) (d : Dev) : (d.modMem f).loft = d.loft := rfl
@[simp] theorem Dev.modMem_banks (f : MemU → MemU) (d : Dev) : (d.modMem f).banks = d.banks := rfl
@[simp] theorem Dev.modMem_bst (f : MemU → MemU) (d : Dev) : (d.modMem f).bst = d.bst := rfl
@[simp] theorem Dev.modMem_pfi (f : MemU → MemU) (d : Dev) : (d.modMem f).pfi = d.pfi := rfl
@[simp] theorem Dev.modMem_ign (f : MemU → MemU) (d : Dev) : (d.modMem f).ign = d.ign := rfl
@[simp] theorem Dev.modMem_gate (f : MemU → MemU) (d : Dev) : (d.modMem f).gate = d.gate := rfl
@[simp] theorem Dev.modMem_diag (f : MemU → MemU) (d : Dev) : (d.modMem f).diag = d.diag := rfl
@[simp] theorem Dev.modMem_ce (f : MemU → MemU) (d : Dev) : (d.modMem f).ce = d.ce := rfl
@[simp] theorem Dev.modMem_ces (f : MemU → MemU) (d : Dev) : (d.modMem f).ces = d.ces := rfl
@[simp] theorem Dev.modMem_cnv (f : MemU → MemU) (d : Dev) : (d.modMem f).cnv = d.cnv := rfl
@[simp] theorem Dev.modMem_cnvs (f : MemU → MemU) (d : Dev) : (d.modMem f).cnvs = d.cnvs := rfl
@[simp] theorem Dev.modMem_recm (f : MemU → MemU) (d : Dev) : (d.modMem f).recm = d.recm := rfl
@[simp] theorem Dev.modMem_snap (f : MemU → MemU) (d : Dev) : (d.modMem f).snap = d.snap := rfl
@[simp] theorem Dev.modMem_tmu (f : MemU → MemU) (d : Dev) : (d.modMem f).tmu = d.tmu := rfl
@[simp] theorem Dev.modMem_pio (f : MemU → MemU) (d : Dev) : (d.modMem f).pio = d.pio := rfl
@[simp] theorem Dev.modMem_pios (f : MemU → MemU) (d : Dev) : (d.modMem f).pios = d.pios := rfl
@[simp] theorem Dev.modMem_can (f : MemU → MemU) (d : Dev) : (d.modMem f).can = d.can := rfl
@[simp] theorem Dev.modMem_rope (f : MemU → MemU) (d : Dev) : (d.modMem f).rope = d.rope := rfl
@[simp] theorem Dev.modMem_twp (f : MemU → MemU) (d : Dev) : (d.modMem f).twp = d.twp := rfl
@[simp] theorem Dev.modMem_writes (f : MemU → MemU) (d : Dev) : (d.modMem f).writes = d.writes := rfl
@[simp] theorem Dev.modMem_free (f : MemU → MemU) (d : Dev) : (d.modMem f).free = d.free := rfl

/-! ### `modPos` -/

@[simp] theorem Dev.modPos_dtime (f : Pos → Pos) (d : Dev) : (d.modPos f).dtime = d.dtime := rfl
@[simp] theorem Dev.modPos_sup (f : Pos → Pos) (d : Dev) : (d.modPos f).sup = d.sup := rfl
@[simp] theorem Dev.modPos_nvi (f : Pos → Pos) (d : Dev) : (d.modPos f).nvi = d.nvi := rfl
@[simp] theorem Dev.modPos_flt (f : Pos → Pos) (d : Dev) : (d.modPos f).flt = d.flt := rfl
@[simp] theorem Dev.modPos_memu (f : Pos → Pos) (d : Dev) : (d.modPos f).memu = d.memu := rfl
@[simp] theorem Dev.modPos_paths (f : Pos → Pos) (d : Dev) : (d.modPos f).paths = d.paths := rfl
@[simp] theorem Dev.modPos_pos (f : Pos → Pos) (d : Dev) : (d.modPos f).pos = f d.pos := rfl
@[simp] theorem Dev.modPos_adm (f : Pos → Pos) (d : Dev) : (d.modPos f).adm = d.adm := rfl
@[simp] theorem Dev.modPos_loft (f : Pos → Pos) (d : Dev) : (d.modPos f).loft = d.loft := rfl
@[simp] theorem Dev.modPos_banks (f : Pos → Pos) (d : Dev) : (d.modPos f).banks = d.banks := rfl
@[simp] theorem Dev.modPos_bst (f : Pos → Pos) (d : Dev) : (d.modPos f).bst = d.bst := rfl
@[simp] theorem Dev.modPos_pfi (f : Pos → Pos) (d : Dev) : (d.modPos f).pfi = d.pfi := rfl
@[simp] theorem Dev.modPos_ign (f : Pos → Pos) (d : Dev) : (d.modPos f).ign = d.ign := rfl
@[simp] theorem Dev.modPos_gate (f : Pos → Pos) (d : Dev) : (d.modPos f).gate = d.gate := rfl
@[simp] theorem Dev.modPos_diag (f : Pos → Pos) (d : Dev) : (d.modPos f).diag = d.diag := rfl
@[simp] theorem Dev.modPos_ce (f : Pos → Pos) (d : Dev) : (d.modPos f).ce = d.ce := rfl
@[simp] theorem Dev.modPos_ces (f : Pos → Pos) (d : Dev) : (d.modPos f).ces = d.ces := rfl
@[simp] theorem Dev.modPos_cnv (f : Pos → Pos) (d : Dev) : (d.modPos f).cnv = d.cnv := rfl
@[simp] theorem Dev.modPos_cnvs (f : Pos → Pos) (d : Dev) : (d.modPos f).cnvs = d.cnvs := rfl
@[simp] theorem Dev.modPos_recm (f : Pos → Pos) (d : Dev) : (d.modPos f).recm = d.recm := rfl
@[simp] theorem Dev.modPos_snap (f : Pos → Pos) (d : Dev) : (d.modPos f).snap = d.snap := rfl
@[simp] theorem Dev.modPos_tmu (f : Pos → Pos) (d : Dev) : (d.modPos f).tmu = d.tmu := rfl
@[simp] theorem Dev.modPos_pio (f : Pos → Pos) (d : Dev) : (d.modPos f).pio = d.pio := rfl
@[simp] theorem Dev.modPos_pios (f : Pos → Pos) (d : Dev) : (d.modPos f).pios = d.pios := rfl
@[simp] theorem Dev.modPos_can (f : Pos → Pos) (d : Dev) : (d.modPos f).can = d.can := rfl
@[simp] theorem Dev.modPos_rope (f : Pos → Pos) (d : Dev) : (d.modPos f).rope = d.rope := rfl
@[simp] theorem Dev.modPos_twp (f : Pos → Pos) (d : Dev) : (d.modPos f).twp = d.twp := rfl
@[simp] theorem Dev.modPos_writes (f : Pos → Pos) (d : Dev) : (d.modPos f).writes = d.writes := rfl
@[simp] theorem Dev.modPos_free (f : Pos → Pos) (d : Dev) : (d.modPos f).free = d.free := rfl

/-! ### `modAdm` -/

@[simp] theorem Dev.modAdm_dtime (f : Adm → Adm) (d : Dev) : (d.modAdm f).dtime = d.dtime := rfl
@[simp] theorem Dev.modAdm_sup (f : Adm → Adm) (d : Dev) : (d.modAdm f).sup = d.sup := rfl
@[simp] theorem Dev.modAdm_nvi (f : Adm → Adm) (d : Dev) : (d.modAdm f).nvi = d.nvi := rfl
@[simp] theorem Dev.modAdm_flt (f : Adm → Adm) (d : Dev) : (d.modAdm f).flt = d.flt := rfl
@[simp] theorem Dev.modAdm_memu (f : Adm → Adm) (d : Dev) : (d.modAdm f).memu = d.memu := rfl
@[simp] theorem Dev.modAdm_paths (f : Adm → Adm) (d : Dev) : (d.modAdm f).paths = d.paths := rfl
@[simp] theorem Dev.modAdm_pos (f : Adm → Adm) (d : Dev) : (d.modAdm f).pos = d.pos := rfl
@[simp] theorem Dev.modAdm_adm (f : Adm → Adm) (d : Dev) : (d.modAdm f).adm = f d.adm := rfl
@[simp] theorem Dev.modAdm_loft (f : Adm → Adm) (d : Dev) : (d.modAdm f).loft = d.loft := rfl
@[simp] theorem Dev.modAdm_banks (f : Adm → Adm) (d : Dev) : (d.modAdm f).banks = d.banks := rfl
@[simp] theorem Dev.modAdm_bst (f : Adm → Adm) (d : Dev) : (d.modAdm f).bst = d.bst := rfl
@[simp] theorem Dev.modAdm_pfi (f : Adm → Adm) (d : Dev) : (d.modAdm f).pfi = d.pfi := rfl
@[simp] theorem Dev.modAdm_ign (f : Adm → Adm) (d : Dev) : (d.modAdm f).ign = d.ign := rfl
@[simp] theorem Dev.modAdm_gate (f : Adm → Adm) (d : Dev) : (d.modAdm f).gate = d.gate := rfl
@[simp] theorem Dev.modAdm_diag (f : Adm → Adm) (d : Dev) : (d.modAdm f).diag = d.diag := rfl
@[simp] theorem Dev.modAdm_ce (f : Adm → Adm) (d : Dev) : (d.modAdm f).ce = d.ce := rfl
@[simp] theorem Dev.modAdm_ces (f : Adm → Adm) (d : Dev) : (d.modAdm f).ces = d.ces := rfl
@[simp] theorem Dev.modAdm_cnv (f : Adm → Adm) (d : Dev) : (d.modAdm f).cnv = d.cnv := rfl
@[simp] theorem Dev.modAdm_cnvs (f : Adm → Adm) (d : Dev) : (d.modAdm f).cnvs = d.cnvs := rfl
@[simp] theorem Dev.modAdm_recm (f : Adm → Adm) (d : Dev) : (d.modAdm f).recm = d.recm := rfl
@[simp] theorem Dev.modAdm_snap (f : Adm → Adm) (d : Dev) : (d.modAdm f).snap = d.snap := rfl
@[simp] theorem Dev.modAdm_tmu (f : Adm → Adm) (d : Dev) : (d.modAdm f).tmu = d.tmu := rfl
@[simp] theorem Dev.modAdm_pio (f : Adm → Adm) (d : Dev) : (d.modAdm f).pio = d.pio := rfl
@[simp] theorem Dev.modAdm_pios (f : Adm → Adm) (d : Dev) : (d.modAdm f).pios = d.pios := rfl
@[simp] theorem Dev.modAdm_can (f : Adm → Adm) (d : Dev) : (d.modAdm f).can = d.can := rfl
@[simp] theorem Dev.modAdm_rope (f : Adm → Adm) (d : Dev) : (d.modAdm f).rope = d.rope := rfl
@[simp] theorem Dev.modAdm_twp (f : Adm → Adm) (d : Dev) : (d.modAdm f).twp = d.twp := rfl
@[simp] theorem Dev.modAdm_writes (f : Adm → Adm) (d : Dev) : (d.modAdm f).writes = d.writes := rfl
@[simp] theorem Dev.modAdm_free (f : Adm → Adm) (d : Dev) : (d.modAdm f).free = d.free := rfl

/-! ### `modLoft` -/

@[simp] theorem Dev.modLoft_dtime (f : Loft → Loft) (d : Dev) : (d.modLoft f).dtime = d.dtime := rfl
@[simp] theorem Dev.modLoft_sup (f : Loft → Loft) (d : Dev) : (d.modLoft f).sup = d.sup := rfl
@[simp] theorem Dev.modLoft_nvi (f : Loft → Loft) (d : Dev) : (d.modLoft f).nvi = d.nvi := rfl
@[simp] theorem Dev.modLoft_flt (f : Loft → Loft) (d : Dev) : (d.modLoft f).flt = d.flt := rfl
@[simp] theorem Dev.modLoft_memu (f : Loft → Loft) (d : Dev) : (d.modLoft f).memu = d.memu := rfl
@[simp] theorem Dev.modLoft_paths (f : Loft → Loft) (d : Dev) : (d.modLoft f).paths = d.paths := rfl
@[simp] theorem Dev.modLoft_pos (f : Loft → Loft) (d : Dev) : (d.modLoft f).pos = d.pos := rfl
@[simp] theorem Dev.modLoft_adm (f : Loft → Loft) (d : Dev) : (d.modLoft f).adm = d.adm := rfl
@[simp] theorem Dev.modLoft_loft (f : Loft → Loft) (d : Dev) : (d.modLoft f).loft = f d.loft := rfl
@[simp] theorem Dev.modLoft_banks (f : Loft → Loft) (d : Dev) : (d.modLoft f).banks = d.banks := rfl
@[simp] theorem Dev.modLoft_bst (f : Loft → Loft) (d : Dev) : (d.modLoft f).bst = d.bst := rfl
@[simp] theorem Dev.modLoft_pfi (f : Loft → Loft) (d : Dev) : (d.modLoft f).pfi = d.pfi := rfl
@[simp] theorem Dev.modLoft_ign (f : Loft → Loft) (d : Dev) : (d.modLoft f).ign = d.ign := rfl
@[simp] theorem Dev.modLoft_gate (f : Loft → Loft) (d : Dev) : (d.modLoft f).gate = d.gate := rfl
@[simp] theorem Dev.modLoft_diag (f : Loft → Loft) (d : Dev) : (d.modLoft f).diag = d.diag := rfl
@[simp] theorem Dev.modLoft_ce (f : Loft → Loft) (d : Dev) : (d.modLoft f).ce = d.ce := rfl
@[simp] theorem Dev.modLoft_ces (f : Loft → Loft) (d : Dev) : (d.modLoft f).ces = d.ces := rfl
@[simp] theorem Dev.modLoft_cnv (f : Loft → Loft) (d : Dev) : (d.modLoft f).cnv = d.cnv := rfl
@[simp] theorem Dev.modLoft_cnvs (f : Loft → Loft) (d : Dev) : (d.modLoft f).cnvs = d.cnvs := rfl
@[simp] theorem Dev.modLoft_recm (f : Loft → Loft) (d : Dev) : (d.modLoft f).recm = d.recm := rfl
@[simp] theorem Dev.modLoft_snap (f : Loft → Loft) (d : Dev) : (d.modLoft f).snap = d.snap := rfl
@[simp] theorem Dev.modLoft_tmu (f : Loft → Loft) (d : Dev) : (d.modLoft f).tmu = d.tmu := rfl
@[simp] theorem Dev.modLoft_pio (f : Loft → Loft) (d : Dev) : (d.modLoft f).pio = d.pio := rfl
@[simp] theorem Dev.modLoft_pios (f : Loft → Loft) (d : Dev) : (d.modLoft f).pios = d.pios := rfl
@[simp] theorem Dev.modLoft_can (f : Loft → Loft) (d : Dev) : (d.modLoft f).can = d.can := rfl
@[simp] theorem Dev.modLoft_rope (f : Loft → Loft) (d : Dev) : (d.modLoft f).rope = d.rope := rfl
@[simp] theorem Dev.modLoft_twp (f : Loft → Loft) (d : Dev) : (d.modLoft f).twp = d.twp := rfl
@[simp] theorem Dev.modLoft_writes (f : Loft → Loft) (d : Dev) : (d.modLoft f).writes = d.writes := rfl
@[simp] theorem Dev.modLoft_free (f : Loft → Loft) (d : Dev) : (d.modLoft f).free = d.free := rfl

/-! ### `modBox` -/

@[simp] theorem Dev.modBox_dtime (b : Fin 128) (f : Box → Box) (d : Dev) : (d.modBox b f).dtime = d.dtime := rfl
@[simp] theorem Dev.modBox_sup (b : Fin 128) (f : Box → Box) (d : Dev) : (d.modBox b f).sup = d.sup := rfl
@[simp] theorem Dev.modBox_nvi (b : Fin 128) (f : Box → Box) (d : Dev) : (d.modBox b f).nvi = d.nvi := rfl
@[simp] theorem Dev.modBox_flt (b : Fin 128) (f : Box → Box) (d : Dev) : (d.modBox b f).flt = d.flt := rfl
@[simp] theorem Dev.modBox_memu (b : Fin 128) (f : Box → Box) (d : Dev) : (d.modBox b f).memu = d.memu := rfl
@[simp] theorem Dev.modBox_paths (b : Fin 128) (f : Box → Box) (d : Dev) : (d.modBox b f).paths = d.paths := rfl
@[simp] theorem Dev.modBox_pos (b : Fin 128) (f : Box → Box) (d : Dev) : (d.modBox b f).pos = d.pos := rfl
@[simp] theorem Dev.modBox_adm (b : Fin 128) (f : Box → Box) (d : Dev) : (d.modBox b f).adm = d.adm := rfl
@[simp] theorem Dev.modBox_loft (b : Fin 128) (f : Box → Box) (d : Dev) : (d.modBox b f).loft = { d.loft with boxes := upd d.loft.boxes b f } := rfl
@[simp] theorem Dev.modBox_banks (b : Fin 128) (f : Box → Box) (d : Dev) : (d.modBox b f).banks = d.banks := rfl
@[simp] theorem Dev.modBox_bst (b : Fin 128) (f : Box → Box) (d : Dev) : (d.modBox b f).bst = d.bst := rfl
@[simp] theorem Dev.modBox_pfi (b : Fin 128) (f : Box → Box) (d : Dev) : (d.modBox b f).pfi = d.pfi := rfl
@[simp] theorem Dev.modBox_ign (b : Fin 128) (f : Box → Box) (d : Dev) : (d.modBox b f).ign = d.ign := rfl
@[simp] theorem Dev.modBox_gate (b : Fin 128) (f : Box → Box) (d : Dev) : (d.modBox b f).gate = d.gate := rfl
@[simp] theorem Dev.modBox_diag (b : Fin 128) (f : Box → Box) (d : Dev) : (d.modBox b f).diag = d.diag := rfl
@[simp] theorem Dev.modBox_ce (b : Fin 128) (f : Box → Box) (d : Dev) : (d.modBox b f).ce = d.ce := rfl
@[simp] theorem Dev.modBox_ces (b : Fin 128) (f : Box → Box) (d : Dev) : (d.modBox b f).ces = d.ces := rfl
@[simp] theorem Dev.modBox_cnv (b : Fin 128) (f : Box → Box) (d : Dev) : (d.modBox b f).cnv = d.cnv := rfl
@[simp] theorem Dev.modBox_cnvs (b : Fin 128) (f : Box → Box) (d : Dev) : (d.modBox b f).cnvs = d.cnvs := rfl
@[simp] theorem Dev.modBox_recm (b : Fin 128) (f : Box → Box) (d : Dev) : (d.modBox b f).recm = d.recm := rfl
@[simp] theorem Dev.modBox_snap (b : Fin 128) (f : Box → Box) (d : Dev) : (d.modBox b f).snap = d.snap := rfl
@[simp] theorem Dev.modBox_tmu (b : Fin 128) (f : Box → Box) (d : Dev) : (d.modBox b f).tmu = d.tmu := rfl
@[simp] theorem Dev.modBox_pio (b : Fin 128) (f : Box → Box) (d : Dev) : (d.modBox b f).pio = d.pio := rfl
@[simp] theorem Dev.modBox_pios (b : Fin 128) (f : Box → Box) (d : Dev) : (d.modBox b f).pios = d.pios := rfl
@[simp] theorem Dev.modBox_can (b : Fin 128) (f : Box → Box) (d : Dev) : (d.modBox b f).can = d.can := rfl
@[simp] theorem Dev.modBox_rope (b : Fin 128) (f : Box → Box) (d : Dev) : (d.modBox b f).rope = d.rope := rfl
@[simp] theorem Dev.modBox_twp (b : Fin 128) (f : Box → Box) (d : Dev) : (d.modBox b f).twp = d.twp := rfl
@[simp] theorem Dev.modBox_writes (b : Fin 128) (f : Box → Box) (d : Dev) : (d.modBox b f).writes = d.writes := rfl
@[simp] theorem Dev.modBox_free (b : Fin 128) (f : Box → Box) (d : Dev) : (d.modBox b f).free = d.free := rfl

/-! ### `modBank` -/

@[simp] theorem Dev.modBank_dtime (k : Fin 4) (f : Bank → Bank) (d : Dev) : (d.modBank k f).dtime = d.dtime := rfl
@[simp] theorem Dev.modBank_sup (k : Fin 4) (f : Bank → Bank) (d : Dev) : (d.modBank k f).sup = d.sup := rfl
@[simp] theorem Dev.modBank_nvi (k : Fin 4) (f : Bank → Bank) (d : Dev) : (d.modBank k f).nvi = d.nvi := rfl
@[simp] theorem Dev.modBank_flt (k : Fin 4) (f : Bank → Bank) (d : Dev) : (d.modBank k f).flt = d.flt := rfl
@[simp] theorem Dev.modBank_memu (k : Fin 4) (f : Bank → Bank) (d : Dev) : (d.modBank k f).memu = d.memu := rfl
@[simp] theorem Dev.modBank_paths (k : Fin 4) (f : Bank → Bank) (d : Dev) : (d.modBank k f).paths = d.paths := rfl
@[simp] theorem Dev.modBank_pos (k : Fin 4) (f : Bank → Bank) (d : Dev) : (d.modBank k f).pos = d.pos := rfl
@[simp] theorem Dev.modBank_adm (k : Fin 4) (f : Bank → Bank) (d : Dev) : (d.modBank k f).adm = d.adm := rfl
@[simp] theorem Dev.modBank_loft (k : Fin 4) (f : Bank → Bank) (d : Dev) : (d.modBank k f).loft = d.loft := rfl
@[simp] theorem Dev.modBank_banks (k : Fin 4) (f : Bank → Bank) (d : Dev) : (d.modBank k f).banks = upd d.banks k f := rfl
@[simp] theorem Dev.modBank_bst (k : Fin 4) (f : Bank → Bank) (d : Dev) : (d.modBank k f).bst = d.bst := rfl
@[simp] theorem Dev.modBank_pfi (k : Fin 4) (f : Bank → Bank) (d : Dev) : (d.modBank k f).pfi = d.pfi := rfl
@[simp] theorem Dev.modBank_ign (k : Fin 4) (f : Bank → Bank) (d : Dev) : (d.modBank k f).ign = d.ign := rfl
@[simp] theorem Dev.modBank_gate (k : Fin 4) (f : Bank → Bank) (d : Dev) : (d.modBank k f).gate = d.gate := rfl
@[simp] theorem Dev.modBank_diag (k : Fin 4) (f : Bank → Bank) (d : Dev) : (d.modBank k f).diag = d.diag := rfl
@[simp] theorem Dev.modBank_ce (k : Fin 4) (f : Bank → Bank) (d : Dev) : (d.modBank k f).ce = d.ce := rfl
@[simp] theorem Dev.modBank_ces (k : Fin 4) (f : Bank → Bank) (d : Dev) : (d.modBank k f).ces = d.ces := rfl
@[simp] theorem Dev.modBank_cnv (k : Fin 4) (f : Bank → Bank) (d : Dev) : (d.modBank k f).cnv = d.cnv := rfl
@[simp] theorem Dev.modBank_cnvs (k : Fin 4) (f : Bank → Bank) (d : Dev) : (d.modBank k f).cnvs = d.cnvs := rfl
@[simp] theorem Dev.modBank_recm (k : Fin 4) (f : Bank → Bank) (d : Dev) : (d.modBank k f).recm = d.recm := rfl
@[simp] theorem Dev.modBank_snap (k : Fin 4) (f : Bank → Bank) (d : Dev) : (d.modBank k f).snap = d.snap := rfl
@[simp] theorem Dev.modBank_tmu (k : Fin 4) (f : Bank → Bank) (d : Dev) : (d.modBank k f).tmu = d.tmu := rfl
@[simp] theorem Dev.modBank_pio (k : Fin 4) (f : Bank → Bank) (d : Dev) : (d.modBank k f).pio = d.pio := rfl
@[simp] theorem Dev.modBank_pios (k : Fin 4) (f : Bank → Bank) (d : Dev) : (d.modBank k f).pios = d.pios := rfl
@[simp] theorem Dev.modBank_can (k : Fin 4) (f : Bank → Bank) (d : Dev) : (d.modBank k f).can = d.can := rfl
@[simp] theorem Dev.modBank_rope (k : Fin 4) (f : Bank → Bank) (d : Dev) : (d.modBank k f).rope = d.rope := rfl
@[simp] theorem Dev.modBank_twp (k : Fin 4) (f : Bank → Bank) (d : Dev) : (d.modBank k f).twp = d.twp := rfl
@[simp] theorem Dev.modBank_writes (k : Fin 4) (f : Bank → Bank) (d : Dev) : (d.modBank k f).writes = d.writes := rfl
@[simp] theorem Dev.modBank_free (k : Fin 4) (f : Bank → Bank) (d : Dev) : (d.modBank k f).free = d.free := rfl

/-! ### `modPsq` -/

@[simp] theorem Dev.modPsq_dtime (k : Fin 4) (f : Psq → Psq) (d : Dev) : (d.modPsq k f).dtime = d.dtime := rfl
@[simp] theorem Dev.modPsq_sup (k : Fin 4) (f : Psq → Psq) (d : Dev) : (d.modPsq k f).sup = d.sup := rfl
@[simp] theorem Dev.modPsq_nvi (k : Fin 4) (f : Psq → Psq) (d : Dev) : (d.modPsq k f).nvi = d.nvi := rfl
@[simp] theorem Dev.modPsq_flt (k : Fin 4) (f : Psq → Psq) (d : Dev) : (d.modPsq k f).flt = d.flt := rfl
@[simp] theorem Dev.modPsq_memu (k : Fin 4) (f : Psq → Psq) (d : Dev) : (d.modPsq k f).memu = d.memu := rfl
@[simp] theorem Dev.modPsq_paths (k : Fin 4) (f : Psq → Psq) (d : Dev) : (d.modPsq k f).paths = d.paths := rfl
@[simp] theorem Dev.modPsq_pos (k : Fin 4) (f : Psq → Psq) (d : Dev) : (d.modPsq k f).pos = d.pos := rfl
@[simp] theorem Dev.modPsq_adm (k : Fin 4) (f : Psq → Psq) (d : Dev) : (d.modPsq k f).adm = d.adm := rfl
@[simp] theorem Dev.modPsq_loft (k : Fin 4) (f : Psq → Psq) (d : Dev) : (d.modPsq k f).loft = d.loft := rfl
@[simp] theorem Dev.modPsq_banks (k : Fin 4) (f : Psq → Psq) (d : Dev) : (d.modPsq k f).banks = upd d.banks k fun b => { b with psq := f b.psq } := rfl
@[simp] theorem Dev.modPsq_bst (k : Fin 4) (f : Psq → Psq) (d : Dev) : (d.modPsq k f).bst = d.bst := rfl
@[simp] theorem Dev.modPsq_pfi (k : Fin 4) (f : Psq → Psq) (d : Dev) : (d.modPsq k f).pfi = d.pfi := rfl
@[simp] theorem Dev.modPsq_ign (k : Fin 4) (f : Psq → Psq) (d : Dev) : (d.modPsq k f).ign = d.ign := rfl
@[simp] theorem Dev.modPsq_gate (k : Fin 4) (f : Psq → Psq) (d : Dev) : (d.modPsq k f).gate = d.gate := rfl
@[simp] theorem Dev.modPsq_diag (k : Fin 4) (f : Psq → Psq) (d : Dev) : (d.modPsq k f).diag = d.diag := rfl
@[simp] theorem Dev.modPsq_ce (k : Fin 4) (f : Psq → Psq) (d : Dev) : (d.modPsq k f).ce = d.ce := rfl
@[simp] theorem Dev.modPsq_ces (k : Fin 4) (f : Psq → Psq) (d : Dev) : (d.modPsq k f).ces = d.ces := rfl
@[simp] theorem Dev.modPsq_cnv (k : Fin 4) (f : Psq → Psq) (d : Dev) : (d.modPsq k f).cnv = d.cnv := rfl
@[simp] theorem Dev.modPsq_cnvs (k : Fin 4) (f : Psq → Psq) (d : Dev) : (d.modPsq k f).cnvs = d.cnvs := rfl
@[simp] theorem Dev.modPsq_recm (k : Fin 4) (f : Psq → Psq) (d : Dev) : (d.modPsq k f).recm = d.recm := rfl
@[simp] theorem Dev.modPsq_snap (k : Fin 4) (f : Psq → Psq) (d : Dev) : (d.modPsq k f).snap = d.snap := rfl
@[simp] theorem Dev.modPsq_tmu (k : Fin 4) (f : Psq → Psq) (d : Dev) : (d.modPsq k f).tmu = d.tmu := rfl
@[simp] theorem Dev.modPsq_pio (k : Fin 4) (f : Psq → Psq) (d : Dev) : (d.modPsq k f).pio = d.pio := rfl
@[simp] theorem Dev.modPsq_pios (k : Fin 4) (f : Psq → Psq) (d : Dev) : (d.modPsq k f).pios = d.pios := rfl
@[simp] theorem Dev.modPsq_can (k : Fin 4) (f : Psq → Psq) (d : Dev) : (d.modPsq k f).can = d.can := rfl
@[simp] theorem Dev.modPsq_rope (k : Fin 4) (f : Psq → Psq) (d : Dev) : (d.modPsq k f).rope = d.rope := rfl
@[simp] theorem Dev.modPsq_twp (k : Fin 4) (f : Psq → Psq) (d : Dev) : (d.modPsq k f).twp = d.twp := rfl
@[simp] theorem Dev.modPsq_writes (k : Fin 4) (f : Psq → Psq) (d : Dev) : (d.modPsq k f).writes = d.writes := rfl
@[simp] theorem Dev.modPsq_free (k : Fin 4) (f : Psq → Psq) (d : Dev) : (d.modPsq k f).free = d.free := rfl

/-! ### `modBst` -/

@[simp] theorem Dev.modBst_dtime (f : Bst → Bst) (d : Dev) : (d.modBst f).dtime = d.dtime := rfl
@[simp] theorem Dev.modBst_sup (f : Bst → Bst) (d : Dev) : (d.modBst f).sup = d.sup := rfl
@[simp] theorem Dev.modBst_nvi (f : Bst → Bst) (d : Dev) : (d.modBst f).nvi = d.nvi := rfl
@[simp] theorem Dev.modBst_flt (f : Bst → Bst) (d : Dev) : (d.modBst f).flt = d.flt := rfl
@[simp] theorem Dev.modBst_memu (f : Bst → Bst) (d : Dev) : (d.modBst f).memu = d.memu := rfl
@[simp] theorem Dev.modBst_paths (f : Bst → Bst) (d : Dev) : (d.modBst f).paths = d.paths := rfl
@[simp] theorem Dev.modBst_pos (f : Bst → Bst) (d : Dev) : (d.modBst f).pos = d.pos := rfl
@[simp] theorem Dev.modBst_adm (f : Bst → Bst) (d : Dev) : (d.modBst f).adm = d.adm := rfl
@[simp] theorem Dev.modBst_loft (f : Bst → Bst) (d : Dev) : (d.modBst f).loft = d.loft := rfl
@[simp] theorem Dev.modBst_banks (f : Bst → Bst) (d : Dev) : (d.modBst f).banks = d.banks := rfl
@[simp] theorem Dev.modBst_bst (f : Bst → Bst) (d : Dev) : (d.modBst f).bst = f d.bst := rfl
@[simp] theorem Dev.modBst_pfi (f : Bst → Bst) (d : Dev) : (d.modBst f).pfi = d.pfi := rfl
@[simp] theorem Dev.modBst_ign (f : Bst → Bst) (d : Dev) : (d.modBst f).ign = d.ign := rfl
@[simp] theorem Dev.modBst_gate (f : Bst → Bst) (d : Dev) : (d.modBst f).gate = d.gate := rfl
@[simp] theorem Dev.modBst_diag (f : Bst → Bst) (d : Dev) : (d.modBst f).diag = d.diag := rfl
@[simp] theorem Dev.modBst_ce (f : Bst → Bst) (d : Dev) : (d.modBst f).ce = d.ce := rfl
@[simp] theorem Dev.modBst_ces (f : Bst → Bst) (d : Dev) : (d.modBst f).ces = d.ces := rfl
@[simp] theorem Dev.modBst_cnv (f : Bst → Bst) (d : Dev) : (d.modBst f).cnv = d.cnv := rfl
@[simp] theorem Dev.modBst_cnvs (f : Bst → Bst) (d : Dev) : (d.modBst f).cnvs = d.cnvs := rfl
@[simp] theorem Dev.modBst_recm (f : Bst → Bst) (d : Dev) : (d.modBst f).recm = d.recm := rfl
@[simp] theorem Dev.modBst_snap (f : Bst → Bst) (d : Dev) : (d.modBst f).snap = d.snap := rfl
@[simp] theorem Dev.modBst_tmu (f : Bst → Bst) (d : Dev) : (d.modBst f).tmu = d.tmu := rfl
@[simp] theorem Dev.modBst_pio (f : Bst → Bst) (d : Dev) : (d.modBst f).pio = d.pio := rfl
@[simp] theorem Dev.modBst_pios (f : Bst → Bst) (d : Dev) : (d.modBst f).pios = d.pios := rfl
@[simp] theorem Dev.modBst_can (f : Bst → Bst) (d : Dev) : (d.modBst f).can = d.can := rfl
@[simp] theorem Dev.modBst_rope (f : Bst → Bst) (d : Dev) : (d.modBst f).rope = d.rope := rfl
@[simp] theorem Dev.modBst_twp (f : Bst → Bst) (d : Dev) : (d.modBst f).twp = d.twp := rfl
@[simp] theorem Dev.modBst_writes (f : Bst → Bst) (d : Dev) : (d.modBst f).writes = d.writes := rfl
@[simp] theorem Dev.modBst_free (f : Bst → Bst) (d : Dev) : (d.modBst f).free = d.free := rfl

/-! ### `modPfi` -/

@[simp] theorem Dev.modPfi_dtime (n : Fin 16) (f : Pfi → Pfi) (d : Dev) : (d.modPfi n f).dtime = d.dtime := rfl
@[simp] theorem Dev.modPfi_sup (n : Fin 16) (f : Pfi → Pfi) (d : Dev) : (d.modPfi n f).sup = d.sup := rfl
@[simp] theorem Dev.modPfi_nvi (n : Fin 16) (f : Pfi → Pfi) (d : Dev) : (d.modPfi n f).nvi = d.nvi := rfl
@[simp] theorem Dev.modPfi_flt (n : Fin 16) (f : Pfi → Pfi) (d : Dev) : (d.modPfi n f).flt = d.flt := rfl
@[simp] theorem Dev.modPfi_memu (n : Fin 16) (f : Pfi → Pfi) (d : Dev) : (d.modPfi n f).memu = d.memu := rfl
@[simp] theorem Dev.modPfi_paths (n : Fin 16) (f : Pfi → Pfi) (d : Dev) : (d.modPfi n f).paths = d.paths := rfl
@[simp] theorem Dev.modPfi_pos (n : Fin 16) (f : Pfi → Pfi) (d : Dev) : (d.modPfi n f).pos = d.pos := rfl
@[simp] theorem Dev.modPfi_adm (n : Fin 16) (f : Pfi → Pfi) (d : Dev) : (d.modPfi n f).adm = d.adm := rfl
@[simp] theorem Dev.modPfi_loft (n : Fin 16) (f : Pfi → Pfi) (d : Dev) : (d.modPfi n f).loft = d.loft := rfl
@[simp] theorem Dev.modPfi_banks (n : Fin 16) (f : Pfi → Pfi) (d : Dev) : (d.modPfi n f).banks = d.banks := rfl
@[simp] theorem Dev.modPfi_bst (n : Fin 16) (f : Pfi → Pfi) (d : Dev) : (d.modPfi n f).bst = d.bst := rfl
@[simp] theorem Dev.modPfi_pfi (n : Fin 16) (f : Pfi → Pfi) (d : Dev) : (d.modPfi n f).pfi = upd d.pfi n f := rfl
@[simp] theorem Dev.modPfi_ign (n : Fin 16) (f : Pfi → Pfi) (d : Dev) : (d.modPfi n f).ign = d.ign := rfl
@[simp] theorem Dev.modPfi_gate (n : Fin 16) (f : Pfi → Pfi) (d : Dev) : (d.modPfi n f).gate = d.gate := rfl
@[simp] theorem Dev.modPfi_diag (n : Fin 16) (f : Pfi → Pfi) (d : Dev) : (d.modPfi n f).diag = d.diag := rfl
@[simp] theorem Dev.modPfi_ce (n : Fin 16) (f : Pfi → Pfi) (d : Dev) : (d.modPfi n f).ce = d.ce := rfl
@[simp] theorem Dev.modPfi_ces (n : Fin 16) (f : Pfi → Pfi) (d : Dev) : (d.modPfi n f).ces = d.ces := rfl
@[simp] theorem Dev.modPfi_cnv (n : Fin 16) (f : Pfi → Pfi) (d : Dev) : (d.modPfi n f).cnv = d.cnv := rfl
@[simp] theorem Dev.modPfi_cnvs (n : Fin 16) (f : Pfi → Pfi) (d : Dev) : (d.modPfi n f).cnvs = d.cnvs := rfl
@[simp] theorem Dev.modPfi_recm (n : Fin 16) (f : Pfi → Pfi) (d : Dev) : (d.modPfi n f).recm = d.recm := rfl
@[simp] theorem Dev.modPfi_snap (n : Fin 16) (f : Pfi → Pfi) (d : Dev) : (d.modPfi n f).snap = d.snap := rfl
@[simp] theorem Dev.modPfi_tmu (n : Fin 16) (f : Pfi → Pfi) (d : Dev) : (d.modPfi n f).tmu = d.tmu := rfl
@[simp] theorem Dev.modPfi_pio (n : Fin 16) (f : Pfi → Pfi) (d : Dev) : (d.modPfi n f).pio = d.pio := rfl
@[simp] theorem Dev.modPfi_pios (n : Fin 16) (f : Pfi → Pfi) (d : Dev) : (d.modPfi n f).pios = d.pios := rfl
@[simp] theorem Dev.modPfi_can (n : Fin 16) (f : Pfi → Pfi) (d : Dev) : (d.modPfi n f).can = d.can := rfl
@[simp] theorem Dev.modPfi_rope (n : Fin 16) (f : Pfi → Pfi) (d : Dev) : (d.modPfi n f).rope = d.rope := rfl
@[simp] theorem Dev.modPfi_twp (n : Fin 16) (f : Pfi → Pfi) (d : Dev) : (d.modPfi n f).twp = d.twp := rfl
@[simp] theorem Dev.modPfi_writes (n : Fin 16) (f : Pfi → Pfi) (d : Dev) : (d.modPfi n f).writes = d.writes := rfl
@[simp] theorem Dev.modPfi_free (n : Fin 16) (f : Pfi → Pfi) (d : Dev) : (d.modPfi n f).free = d.free := rfl

/-! ### `modIgn` -/

@[simp] theorem Dev.modIgn_dtime (n : Fin 16) (f : Ign → Ign) (d : Dev) : (d.modIgn n f).dtime = d.dtime := rfl
@[simp] theorem Dev.modIgn_sup (n : Fin 16) (f : Ign → Ign) (d : Dev) : (d.modIgn n f).sup = d.sup := rfl
@[simp] theorem Dev.modIgn_nvi (n : Fin 16) (f : Ign → Ign) (d : Dev) : (d.modIgn n f).nvi = d.nvi := rfl
@[simp] theorem Dev.modIgn_flt (n : Fin 16) (f : Ign → Ign) (d : Dev) : (d.modIgn n f).flt = d.flt := rfl
@[simp] theorem Dev.modIgn_memu (n : Fin 16) (f : Ign → Ign) (d : Dev) : (d.modIgn n f).memu = d.memu := rfl
@[simp] theorem Dev.modIgn_paths (n : Fin 16) (f : Ign → Ign) (d : Dev) : (d.modIgn n f).paths = d.paths := rfl
@[simp] theorem Dev.modIgn_pos (n : Fin 16) (f : Ign → Ign) (d : Dev) : (d.modIgn n f).pos = d.pos := rfl
@[simp] theorem Dev.modIgn_adm (n : Fin 16) (f : Ign → Ign) (d : Dev) : (d.modIgn n f).adm = d.adm := rfl
@[simp] theorem Dev.modIgn_loft (n : Fin 16) (f : Ign → Ign) (d : Dev) : (d.modIgn n f).loft = d.loft := rfl
@[simp] theorem Dev.modIgn_banks (n : Fin 16) (f : Ign → Ign) (d : Dev) : (d.modIgn n f).banks = d.banks := rfl
@[simp] theorem Dev.modIgn_bst (n : Fin 16) (f : Ign → Ign) (d : Dev) : (d.modIgn n f).bst = d.bst := rfl
@[simp] theorem Dev.modIgn_pfi (n : Fin 16) (f : Ign → Ign) (d : Dev) : (d.modIgn n f).pfi = d.pfi := rfl
@[simp] theorem Dev.modIgn_ign (n : Fin 16) (f : Ign → Ign) (d : Dev) : (d.modIgn n f).ign = upd d.ign n f := rfl
@[simp] theorem Dev.modIgn_gate (n : Fin 16) (f : Ign → Ign) (d : Dev) : (d.modIgn n f).gate = d.gate := rfl
@[simp] theorem Dev.modIgn_diag (n : Fin 16) (f : Ign → Ign) (d : Dev) : (d.modIgn n f).diag = d.diag := rfl
@[simp] theorem Dev.modIgn_ce (n : Fin 16) (f : Ign → Ign) (d : Dev) : (d.modIgn n f).ce = d.ce := rfl
@[simp] theorem Dev.modIgn_ces (n : Fin 16) (f : Ign → Ign) (d : Dev) : (d.modIgn n f).ces = d.ces := rfl
@[simp] theorem Dev.modIgn_cnv (n : Fin 16) (f : Ign → Ign) (d : Dev) : (d.modIgn n f).cnv = d.cnv := rfl
@[simp] theorem Dev.modIgn_cnvs (n : Fin 16) (f : Ign → Ign) (d : Dev) : (d.modIgn n f).cnvs = d.cnvs := rfl
@[simp] theorem Dev.modIgn_recm (n : Fin 16) (f : Ign → Ign) (d : Dev) : (d.modIgn n f).recm = d.recm := rfl
@[simp] theorem Dev.modIgn_snap (n : Fin 16) (f : Ign → Ign) (d : Dev) : (d.modIgn n f).snap = d.snap := rfl
@[simp] theorem Dev.modIgn_tmu (n : Fin 16) (f : Ign → Ign) (d : Dev) : (d.modIgn n f).tmu = d.tmu := rfl
@[simp] theorem Dev.modIgn_pio (n : Fin 16) (f : Ign → Ign) (d : Dev) : (d.modIgn n f).pio = d.pio := rfl
@[simp] theorem Dev.modIgn_pios (n : Fin 16) (f : Ign → Ign) (d : Dev) : (d.modIgn n f).pios = d.pios := rfl
@[simp] theorem Dev.modIgn_can (n : Fin 16) (f : Ign → Ign) (d : Dev) : (d.modIgn n f).can = d.can := rfl
@[simp] theorem Dev.modIgn_rope (n : Fin 16) (f : Ign → Ign) (d : Dev) : (d.modIgn n f).rope = d.rope := rfl
@[simp] theorem Dev.modIgn_twp (n : Fin 16) (f : Ign → Ign) (d : Dev) : (d.modIgn n f).twp = d.twp := rfl
@[simp] theorem Dev.modIgn_writes (n : Fin 16) (f : Ign → Ign) (d : Dev) : (d.modIgn n f).writes = d.writes := rfl
@[simp] theorem Dev.modIgn_free (n : Fin 16) (f : Ign → Ign) (d : Dev) : (d.modIgn n f).free = d.free := rfl

/-! ### `modGate` -/

@[simp] theorem Dev.modGate_dtime (n : Fin 8) (f : Gate → Gate) (d : Dev) : (d.modGate n f).dtime = d.dtime := rfl
@[simp] theorem Dev.modGate_sup (n : Fin 8) (f : Gate → Gate) (d : Dev) : (d.modGate n f).sup = d.sup := rfl
@[simp] theorem Dev.modGate_nvi (n : Fin 8) (f : Gate → Gate) (d : Dev) : (d.modGate n f).nvi = d.nvi := rfl
@[simp] theorem Dev.modGate_flt (n : Fin 8) (f : Gate → Gate) (d : Dev) : (d.modGate n f).flt = d.flt := rfl
@[simp] theorem Dev.modGate_memu (n : Fin 8) (f : Gate → Gate) (d : Dev) : (d.modGate n f).memu = d.memu := rfl
@[simp] theorem Dev.modGate_paths (n : Fin 8) (f : Gate → Gate) (d : Dev) : (d.modGate n f).paths = d.paths := rfl
@[simp] theorem Dev.modGate_pos (n : Fin 8) (f : Gate → Gate) (d : Dev) : (d.modGate n f).pos = d.pos := rfl
@[simp] theorem Dev.modGate_adm (n : Fin 8) (f : Gate → Gate) (d : Dev) : (d.modGate n f).adm = d.adm := rfl
@[simp] theorem Dev.modGate_loft (n : Fin 8) (f : Gate → Gate) (d : Dev) : (d.modGate n f).loft = d.loft := rfl
@[simp] theorem Dev.modGate_banks (n : Fin 8) (f : Gate → Gate) (d : Dev) : (d.modGate n f).banks = d.banks := rfl
@[simp] theorem Dev.modGate_bst (n : Fin 8) (f : Gate → Gate) (d : Dev) : (d.modGate n f).bst = d.bst := rfl
@[simp] theorem Dev.modGate_pfi (n : Fin 8) (f : Gate → Gate) (d : Dev) : (d.modGate n f).pfi = d.pfi := rfl
@[simp] theorem Dev.modGate_ign (n : Fin 8) (f : Gate → Gate) (d : Dev) : (d.modGate n f).ign = d.ign := rfl
@[simp] theorem Dev.modGate_gate (n : Fin 8) (f : Gate → Gate) (d : Dev) : (d.modGate n f).gate = upd d.gate n f := rfl
@[simp] theorem Dev.modGate_diag (n : Fin 8) (f : Gate → Gate) (d : Dev) : (d.modGate n f).diag = d.diag := rfl
@[simp] theorem Dev.modGate_ce (n : Fin 8) (f : Gate → Gate) (d : Dev) : (d.modGate n f).ce = d.ce := rfl
@[simp] theorem Dev.modGate_ces (n : Fin 8) (f : Gate → Gate) (d : Dev) : (d.modGate n f).ces = d.ces := rfl
@[simp] theorem Dev.modGate_cnv (n : Fin 8) (f : Gate → Gate) (d : Dev) : (d.modGate n f).cnv = d.cnv := rfl
@[simp] theorem Dev.modGate_cnvs (n : Fin 8) (f : Gate → Gate) (d : Dev) : (d.modGate n f).cnvs = d.cnvs := rfl
@[simp] theorem Dev.modGate_recm (n : Fin 8) (f : Gate → Gate) (d : Dev) : (d.modGate n f).recm = d.recm := rfl
@[simp] theorem Dev.modGate_snap (n : Fin 8) (f : Gate → Gate) (d : Dev) : (d.modGate n f).snap = d.snap := rfl
@[simp] theorem Dev.modGate_tmu (n : Fin 8) (f : Gate → Gate) (d : Dev) : (d.modGate n f).tmu = d.tmu := rfl
@[simp] theorem Dev.modGate_pio (n : Fin 8) (f : Gate → Gate) (d : Dev) : (d.modGate n f).pio = d.pio := rfl
@[simp] theorem Dev.modGate_pios (n : Fin 8) (f : Gate → Gate) (d : Dev) : (d.modGate n f).pios = d.pios := rfl
@[simp] theorem Dev.modGate_can (n : Fin 8) (f : Gate → Gate) (d : Dev) : (d.modGate n f).can = d.can := rfl
@[simp] theorem Dev.modGate_rope (n : Fin 8) (f : Gate → Gate) (d : Dev) : (d.modGate n f).rope = d.rope := rfl
@[simp] theorem Dev.modGate_twp (n : Fin 8) (f : Gate → Gate) (d : Dev) : (d.modGate n f).twp = d.twp := rfl
@[simp] theorem Dev.modGate_writes (n : Fin 8) (f : Gate → Gate) (d : Dev) : (d.modGate n f).writes = d.writes := rfl
@[simp] theorem Dev.modGate_free (n : Fin 8) (f : Gate → Gate) (d : Dev) : (d.modGate n f).free = d.free := rfl

/-! ### `modDiag` -/

@[simp] theorem Dev.modDiag_dtime (f : Diag → Diag) (d : Dev) : (d.modDiag f).dtime = d.dtime := rfl
@[simp] theorem Dev.modDiag_sup (f : Diag → Diag) (d : Dev) : (d.modDiag f).sup = d.sup := rfl
@[simp] theorem Dev.modDiag_nvi (f : Diag → Diag) (d : Dev) : (d.modDiag f).nvi = d.nvi := rfl
@[simp] theorem Dev.modDiag_flt (f : Diag → Diag) (d : Dev) : (d.modDiag f).flt = d.flt := rfl
@[simp] theorem Dev.modDiag_memu (f : Diag → Diag) (d : Dev) : (d.modDiag f).memu = d.memu := rfl
@[simp] theorem Dev.modDiag_paths (f : Diag → Diag) (d : Dev) : (d.modDiag f).paths = d.paths := rfl
@[simp] theorem Dev.modDiag_pos (f : Diag → Diag) (d : Dev) : (d.modDiag f).pos = d.pos := rfl
@[simp] theorem Dev.modDiag_adm (f : Diag → Diag) (d : Dev) : (d.modDiag f).adm = d.adm := rfl
@[simp] theorem Dev.modDiag_loft (f : Diag → Diag) (d : Dev) : (d.modDiag f).loft = d.loft := rfl
@[simp] theorem Dev.modDiag_banks (f : Diag → Diag) (d : Dev) : (d.modDiag f).banks = d.banks := rfl
@[simp] theorem Dev.modDiag_bst (f : Diag → Diag) (d : Dev) : (d.modDiag f).bst = d.bst := rfl
@[simp] theorem Dev.modDiag_pfi (f : Diag → Diag) (d : Dev) : (d.modDiag f).pfi = d.pfi := rfl
@[simp] theorem Dev.modDiag_ign (f : Diag → Diag) (d : Dev) : (d.modDiag f).ign = d.ign := rfl
@[simp] theorem Dev.modDiag_gate (f : Diag → Diag) (d : Dev) : (d.modDiag f).gate = d.gate := rfl
@[simp] theorem Dev.modDiag_diag (f : Diag → Diag) (d : Dev) : (d.modDiag f).diag = f d.diag := rfl
@[simp] theorem Dev.modDiag_ce (f : Diag → Diag) (d : Dev) : (d.modDiag f).ce = d.ce := rfl
@[simp] theorem Dev.modDiag_ces (f : Diag → Diag) (d : Dev) : (d.modDiag f).ces = d.ces := rfl
@[simp] theorem Dev.modDiag_cnv (f : Diag → Diag) (d : Dev) : (d.modDiag f).cnv = d.cnv := rfl
@[simp] theorem Dev.modDiag_cnvs (f : Diag → Diag) (d : Dev) : (d.modDiag f).cnvs = d.cnvs := rfl
@[simp] theorem Dev.modDiag_recm (f : Diag → Diag) (d : Dev) : (d.modDiag f).recm = d.recm := rfl
@[simp] theorem Dev.modDiag_snap (f : Diag → Diag) (d : Dev) : (d.modDiag f).snap = d.snap := rfl
@[simp] theorem Dev.modDiag_tmu (f : Diag → Diag) (d : Dev) : (d.modDiag f).tmu = d.tmu := rfl
@[simp] theorem Dev.modDiag_pio (f : Diag → Diag) (d : Dev) : (d.modDiag f).pio = d.pio := rfl
@[simp] theorem Dev.modDiag_pios (f : Diag → Diag) (d : Dev) : (d.modDiag f).pios = d.pios := rfl
@[simp] theorem Dev.modDiag_can (f : Diag → Diag) (d : Dev) : (d.modDiag f).can = d.can := rfl
@[simp] theorem Dev.modDiag_rope (f : Diag → Diag) (d : Dev) : (d.modDiag f).rope = d.rope := rfl
@[simp] theorem Dev.modDiag_twp (f : Diag → Diag) (d : Dev) : (d.modDiag f).twp = d.twp := rfl
@[simp] theorem Dev.modDiag_writes (f : Diag → Diag) (d : Dev) : (d.modDiag f).writes = d.writes := rfl
@[simp] theorem Dev.modDiag_free (f : Diag → Diag) (d : Dev) : (d.modDiag f).free = d.free := rfl

/-! ### `modCe` -/

@[simp] theorem Dev.modCe_dtime (k : Fin 8) (f : Ce → Ce) (d : Dev) : (d.modCe k f).dtime = d.dtime := rfl
@[simp] theorem Dev.modCe_sup (k : Fin 8) (f : Ce → Ce) (d : Dev) : (d.modCe k f).sup = d.sup := rfl
@[simp] theorem Dev.modCe_nvi (k : Fin 8) (f : Ce → Ce) (d : Dev) : (d.modCe k f).nvi = d.nvi := rfl
@[simp] theorem Dev.modCe_flt (k : Fin 8) (f : Ce → Ce) (d : Dev) : (d.modCe k f).flt = d.flt := rfl
@[simp] theorem Dev.modCe_memu (k : Fin 8) (f : Ce → Ce) (d : Dev) : (d.modCe k f).memu = d.memu := rfl
@[simp] theorem Dev.modCe_paths (k : Fin 8) (f : Ce → Ce) (d : Dev) : (d.modCe k f).paths = d.paths := rfl
@[simp] theorem Dev.modCe_pos (k : Fin 8) (f : Ce → Ce) (d : Dev) : (d.modCe k f).pos = d.pos := rfl
@[simp] theorem Dev.modCe_adm (k : Fin 8) (f : Ce → Ce) (d : Dev) : (d.modCe k f).adm = d.adm := rfl
@[simp] theorem Dev.modCe_loft (k : Fin 8) (f : Ce → Ce) (d : Dev) : (d.modCe k f).loft = d.loft := rfl
@[simp] theorem Dev.modCe_banks (k : Fin 8) (f : Ce → Ce) (d : Dev) : (d.modCe k f).banks = d.banks := rfl
@[simp] theorem Dev.modCe_bst (k : Fin 8) (f : Ce → Ce) (d : Dev) : (d.modCe k f).bst = d.bst := rfl
@[simp] theorem Dev.modCe_pfi (k : Fin 8) (f : Ce → Ce) (d : Dev) : (d.modCe k f).pfi = d.pfi := rfl
@[simp] theorem Dev.modCe_ign (k : Fin 8) (f : Ce → Ce) (d : Dev) : (d.modCe k f).ign = d.ign := rfl
@[simp] theorem Dev.modCe_gate (k : Fin 8) (f : Ce → Ce) (d : Dev) : (d.modCe k f).gate = d.gate := rfl
@[simp] theorem Dev.modCe_diag (k : Fin 8) (f : Ce → Ce) (d : Dev) : (d.modCe k f).diag = d.diag := rfl
@[simp] theorem Dev.modCe_ce (k : Fin 8) (f : Ce → Ce) (d : Dev) : (d.modCe k f).ce = upd d.ce k f := rfl
@[simp] theorem Dev.modCe_ces (k : Fin 8) (f : Ce → Ce) (d : Dev) : (d.modCe k f).ces = d.ces := rfl
@[simp] theorem Dev.modCe_cnv (k : Fin 8) (f : Ce → Ce) (d : Dev) : (d.modCe k f).cnv = d.cnv := rfl
@[simp] theorem Dev.modCe_cnvs (k : Fin 8) (f : Ce → Ce) (d : Dev) : (d.modCe k f).cnvs = d.cnvs := rfl
@[simp] theorem Dev.modCe_recm (k : Fin 8) (f : Ce → Ce) (d : Dev) : (d.modCe k f).recm = d.recm := rfl
@[simp] theorem Dev.modCe_snap (k : Fin 8) (f : Ce → Ce) (d : Dev) : (d.modCe k f).snap = d.snap := rfl
@[simp] theorem Dev.modCe_tmu (k : Fin 8) (f : Ce → Ce) (d : Dev) : (d.modCe k f).tmu = d.tmu := rfl
@[simp] theorem Dev.modCe_pio (k : Fin 8) (f : Ce → Ce) (d : Dev) : (d.modCe k f).pio = d.pio := rfl
@[simp] theorem Dev.modCe_pios (k : Fin 8) (f : Ce → Ce) (d : Dev) : (d.modCe k f).pios = d.pios := rfl
@[simp] theorem Dev.modCe_can (k : Fin 8) (f : Ce → Ce) (d : Dev) : (d.modCe k f).can = d.can := rfl
@[simp] theorem Dev.modCe_rope (k : Fin 8) (f : Ce → Ce) (d : Dev) : (d.modCe k f).rope = d.rope := rfl
@[simp] theorem Dev.modCe_twp (k : Fin 8) (f : Ce → Ce) (d : Dev) : (d.modCe k f).twp = d.twp := rfl
@[simp] theorem Dev.modCe_writes (k : Fin 8) (f : Ce → Ce) (d : Dev) : (d.modCe k f).writes = d.writes := rfl
@[simp] theorem Dev.modCe_free (k : Fin 8) (f : Ce → Ce) (d : Dev) : (d.modCe k f).free = d.free := rfl

/-! ### `modCes` -/

@[simp] theorem Dev.modCes_dtime (f : CeShared → CeShared) (d : Dev) : (d.modCes f).dtime = d.dtime := rfl
@[simp] theorem Dev.modCes_sup (f : CeShared → CeShared) (d : Dev) : (d.modCes f).sup = d.sup := rfl
@[simp] theorem Dev.modCes_nvi (f : CeShared → CeShared) (d : Dev) : (d.modCes f).nvi = d.nvi := rfl
@[simp] theorem Dev.modCes_flt (f : CeShared → CeShared) (d : Dev) : (d.modCes f).flt = d.flt := rfl
@[simp] theorem Dev.modCes_memu (f : CeShared → CeShared) (d : Dev) : (d.modCes f).memu = d.memu := rfl
@[simp] theorem Dev.modCes_paths (f : CeShared → CeShared) (d : Dev) : (d.modCes f).paths = d.paths := rfl
@[simp] theorem Dev.modCes_pos (f : CeShared → CeShared) (d : Dev) : (d.modCes f).pos = d.pos := rfl
@[simp] theorem Dev.modCes_adm (f : CeShared → CeShared) (d : Dev) : (d.modCes f).adm = d.adm := rfl
@[simp] theorem Dev.modCes_loft (f : CeShared → CeShared) (d : Dev) : (d.modCes f).loft = d.loft := rfl
@[simp] theorem Dev.modCes_banks (f : CeShared → CeShared) (d : Dev) : (d.modCes f).banks = d.banks := rfl
@[simp] theorem Dev.modCes_bst (f : CeShared → CeShared) (d : Dev) : (d.modCes f).bst = d.bst := rfl
@[simp] theorem Dev.modCes_pfi (f : CeShared → CeShared) (d : Dev) : (d.modCes f).pfi = d.pfi := rfl
@[simp] theorem Dev.modCes_ign (f : CeShared → CeShared) (d : Dev) : (d.modCes f).ign = d.ign := rfl
@[simp] theorem Dev.modCes_gate (f : CeShared → CeShared) (d : Dev) : (d.modCes f).gate = d.gate := rfl
@[simp] theorem Dev.modCes_diag (f : CeShared → CeShared) (d : Dev) : (d.modCes f).diag = d.diag := rfl
@[simp] theorem Dev.modCes_ce (f : CeShared → CeShared) (d : Dev) : (d.modCes f).ce = d.ce := rfl
@[simp] theorem Dev.modCes_ces (f : CeShared → CeShared) (d : Dev) : (d.modCes f).ces = f d.ces := rfl
@[simp] theorem Dev.modCes_cnv (f : CeShared → CeShared) (d : Dev) : (d.modCes f).cnv = d.cnv := rfl
@[simp] theorem Dev.modCes_cnvs (f : CeShared → CeShared) (d : Dev) : (d.modCes f).cnvs = d.cnvs := rfl
@[simp] theorem Dev.modCes_recm (f : CeShared → CeShared) (d : Dev) : (d.modCes f).recm = d.recm := rfl
@[simp] theorem Dev.modCes_snap (f : CeShared → CeShared) (d : Dev) : (d.modCes f).snap = d.snap := rfl
@[simp] theorem Dev.modCes_tmu (f : CeShared → CeShared) (d : Dev) : (d.modCes f).tmu = d.tmu := rfl
@[simp] theorem Dev.modCes_pio (f : CeShared → CeShared) (d : Dev) : (d.modCes f).pio = d.pio := rfl
@[simp] theorem Dev.modCes_pios (f : CeShared → CeShared) (d : Dev) : (d.modCes f).pios = d.pios := rfl
@[simp] theorem Dev.modCes_can (f : CeShared → CeShared) (d : Dev) : (d.modCes f).can = d.can := rfl
@[simp] theorem Dev.modCes_rope (f : CeShared → CeShared) (d : Dev) : (d.modCes f).rope = d.rope := rfl
@[simp] theorem Dev.modCes_twp (f : CeShared → CeShared) (d : Dev) : (d.modCes f).twp = d.twp := rfl
@[simp] theorem Dev.modCes_writes (f : CeShared → CeShared) (d : Dev) : (d.modCes f).writes = d.writes := rfl
@[simp] theorem Dev.modCes_free (f : CeShared → CeShared) (d : Dev) : (d.modCes f).free = d.free := rfl

/-! ### `modCnv` -/

@[simp] theorem Dev.modCnv_dtime (c : Fin 2) (f : Cnv → Cnv) (d : Dev) : (d.modCnv c f).dtime = d.dtime := rfl
@[simp] theorem Dev.modCnv_sup (c : Fin 2) (f : Cnv → Cnv) (d : Dev) : (d.modCnv c f).sup = d.sup := rfl
@[simp] theorem Dev.modCnv_nvi (c : Fin 2) (f : Cnv → Cnv) (d : Dev) : (d.modCnv c f).nvi = d.nvi := rfl
@[simp] theorem Dev.modCnv_flt (c : Fin 2) (f : Cnv → Cnv) (d : Dev) : (d.modCnv c f).flt = d.flt := rfl
@[simp] theorem Dev.modCnv_memu (c : Fin 2) (f : Cnv → Cnv) (d : Dev) : (d.modCnv c f).memu = d.memu := rfl
@[simp] theorem Dev.modCnv_paths (c : Fin 2) (f : Cnv → Cnv) (d : Dev) : (d.modCnv c f).paths = d.paths := rfl
@[simp] theorem Dev.modCnv_pos (c : Fin 2) (f : Cnv → Cnv) (d : Dev) : (d.modCnv c f).pos = d.pos := rfl
@[simp] theorem Dev.modCnv_adm (c : Fin 2) (f : Cnv → Cnv) (d : Dev) : (d.modCnv c f).adm = d.adm := rfl
@[simp] theorem Dev.modCnv_loft (c : Fin 2) (f : Cnv → Cnv) (d : Dev) : (d.modCnv c f).loft = d.loft := rfl
@[simp] theorem Dev.modCnv_banks (c : Fin 2) (f : Cnv → Cnv) (d : Dev) : (d.modCnv c f).banks = d.banks := rfl
@[simp] theorem Dev.modCnv_bst (c : Fin 2) (f : Cnv → Cnv) (d : Dev) : (d.modCnv c f).bst = d.bst := rfl
@[simp] theorem Dev.modCnv_pfi (c : Fin 2) (f : Cnv → Cnv) (d : Dev) : (d.modCnv c f).pfi = d.pfi := rfl
@[simp] theorem Dev.modCnv_ign (c : Fin 2) (f : Cnv → Cnv) (d : Dev) : (d.modCnv c f).ign = d.ign := rfl
@[simp] theorem Dev.modCnv_gate (c : Fin 2) (f : Cnv → Cnv) (d : Dev) : (d.modCnv c f).gate = d.gate := rfl
@[simp] theorem Dev.modCnv_diag (c : Fin 2) (f : Cnv → Cnv) (d : Dev) : (d.modCnv c f).diag = d.diag := rfl
@[simp] theorem Dev.modCnv_ce (c : Fin 2) (f : Cnv → Cnv) (d : Dev) : (d.modCnv c f).ce = d.ce := rfl
@[simp] theorem Dev.modCnv_ces (c : Fin 2) (f : Cnv → Cnv) (d : Dev) : (d.modCnv c f).ces = d.ces := rfl
@[simp] theorem Dev.modCnv_cnv (c : Fin 2) (f : Cnv → Cnv) (d : Dev) : (d.modCnv c f).cnv = upd d.cnv c f := rfl
@[simp] theorem Dev.modCnv_cnvs (c : Fin 2) (f : Cnv → Cnv) (d : Dev) : (d.modCnv c f).cnvs = d.cnvs := rfl
@[simp] theorem Dev.modCnv_recm (c : Fin 2) (f : Cnv → Cnv) (d : Dev) : (d.modCnv c f).recm = d.recm := rfl
@[simp] theorem Dev.modCnv_snap (c : Fin 2) (f : Cnv → Cnv) (d : Dev) : (d.modCnv c f).snap = d.snap := rfl
@[simp] theorem Dev.modCnv_tmu (c : Fin 2) (f : Cnv → Cnv) (d : Dev) : (d.modCnv c f).tmu = d.tmu := rfl
@[simp] theorem Dev.modCnv_pio (c : Fin 2) (f : Cnv → Cnv) (d : Dev) : (d.modCnv c f).pio = d.pio := rfl
@[simp] theorem Dev.modCnv_pios (c : Fin 2) (f : Cnv → Cnv) (d : Dev) : (d.modCnv c f).pios = d.pios := rfl
@[simp] theorem Dev.modCnv_can (c : Fin 2) (f : Cnv → Cnv) (d : Dev) : (d.modCnv c f).can = d.can := rfl
@[simp] theorem Dev.modCnv_rope (c : Fin 2) (f : Cnv → Cnv) (d : Dev) : (d.modCnv c f).rope = d.rope := rfl
@[simp] theorem Dev.modCnv_twp (c : Fin 2) (f : Cnv → Cnv) (d : Dev) : (d.modCnv c f).twp = d.twp := rfl
@[simp] theorem Dev.modCnv_writes (c : Fin 2) (f : Cnv → Cnv) (d : Dev) : (d.modCnv c f).writes = d.writes := rfl
@[simp] theorem Dev.modCnv_free (c : Fin 2) (f : Cnv → Cnv) (d : Dev) : (d.modCnv c f).free = d.free := rfl

/-! ### `modCnvs` -/

@[simp] theorem Dev.modCnvs_dtime (f : CnvShared → CnvShared) (d : Dev) : (d.modCnvs f).dtime = d.dtime := rfl
@[simp] theorem Dev.modCnvs_sup (f : CnvShared → CnvShared) (d : Dev) : (d.modCnvs f).sup = d.sup := rfl
@[simp] theorem Dev.modCnvs_nvi (f : CnvShared → CnvShared) (d : Dev) : (d.modCnvs f).nvi = d.nvi := rfl
@[simp] theorem Dev.modCnvs_flt (f : CnvShared → CnvShared) (d : Dev) : (d.modCnvs f).flt = d.flt := rfl
@[simp] theorem Dev.modCnvs_memu (f : CnvShared → CnvShared) (d : Dev) : (d.modCnvs f).memu = d.memu := rfl
@[simp] theorem Dev.modCnvs_paths (f : CnvShared → CnvShared) (d : Dev) : (d.modCnvs f).paths = d.paths := rfl
@[simp] theorem Dev.modCnvs_pos (f : CnvShared → CnvShared) (d : Dev) : (d.modCnvs f).pos = d.pos := rfl
@[simp] theorem Dev.modCnvs_adm (f : CnvShared → CnvShared) (d : Dev) : (d.modCnvs f).adm = d.adm := rfl
@[simp] theorem Dev.modCnvs_loft (f : CnvShared → CnvShared) (d : Dev) : (d.modCnvs f).loft = d.loft := rfl
@[simp] theorem Dev.modCnvs_banks (f : CnvShared → CnvShared) (d : Dev) : (d.modCnvs f).banks = d.banks := rfl
@[simp] theorem Dev.modCnvs_bst (f : CnvShared → CnvShared) (d : Dev) : (d.modCnvs f).bst = d.bst := rfl
@[simp] theorem Dev.modCnvs_pfi (f : CnvShared → CnvShared) (d : Dev) : (d.modCnvs f).pfi = d.pfi := rfl
@[simp] theorem Dev.modCnvs_ign (f : CnvShared → CnvShared) (d : Dev) : (d.modCnvs f).ign = d.ign := rfl
@[simp] theorem Dev.modCnvs_gate (f : CnvShared → CnvShared) (d : Dev) : (d.modCnvs f).gate = d.gate := rfl
@[simp] theorem Dev.modCnvs_diag (f : CnvShared → CnvShared) (d : Dev) : (d.modCnvs f).diag = d.diag := rfl
@[simp] theorem Dev.modCnvs_ce (f : CnvShared → CnvShared) (d : Dev) : (d.modCnvs f).ce = d.ce := rfl
@[simp] theorem Dev.modCnvs_ces (f : CnvShared → CnvShared) (d : Dev) : (d.modCnvs f).ces = d.ces := rfl
@[simp] theorem Dev.modCnvs_cnv (f : CnvShared → CnvShared) (d : Dev) : (d.modCnvs f).cnv = d.cnv := rfl
@[simp] theorem Dev.modCnvs_cnvs (f : CnvShared → CnvShared) (d : Dev) : (d.modCnvs f).cnvs = f d.cnvs := rfl
@[simp] theorem Dev.modCnvs_recm (f : CnvShared → CnvShared) (d : Dev) : (d.modCnvs f).recm = d.recm := rfl
@[simp] theorem Dev.modCnvs_snap (f : CnvShared → CnvShared) (d : Dev) : (d.modCnvs f).snap = d.snap := rfl
@[simp] theorem Dev.modCnvs_tmu (f : CnvShared → CnvShared) (d : Dev) : (d.modCnvs f).tmu = d.tmu := rfl
@[simp] theorem Dev.modCnvs_pio (f : CnvShared → CnvShared) (d : Dev) : (d.modCnvs f).pio = d.pio := rfl
@[simp] theorem Dev.modCnvs_pios (f : CnvShared → CnvShared) (d : Dev) : (d.modCnvs f).pios = d.pios := rfl
@[simp] theorem Dev.modCnvs_can (f : CnvShared → CnvShared) (d : Dev) : (d.modCnvs f).can = d.can := rfl
@[simp] theorem Dev.modCnvs_rope (f : CnvShared → CnvShared) (d : Dev) : (d.modCnvs f).rope = d.rope := rfl
@[simp] theorem Dev.modCnvs_twp (f : CnvShared → CnvShared) (d : Dev) : (d.modCnvs f).twp = d.twp := rfl
@[simp] theorem Dev.modCnvs_writes (f : CnvShared → CnvShared) (d : Dev) : (d.modCnvs f).writes = d.writes := rfl
@[simp] theorem Dev.modCnvs_free (f : CnvShared → CnvShared) (d : Dev) : (d.modCnvs f).free = d.free := rfl

/-! ### `modRecm` -/

@[simp] theorem Dev.modRecm_dtime (f : RecM → RecM) (d : Dev) : (d.modRecm f).dtime = d.dtime := rfl
@[simp] theorem Dev.modRecm_sup (f : RecM → RecM) (d : Dev) : (d.modRecm f).sup = d.sup := rfl
@[simp] theorem Dev.modRecm_nvi (f : RecM → RecM) (d : Dev) : (d.modRecm f).nvi = d.nvi := rfl
@[simp] theorem Dev.modRecm_flt (f : RecM → RecM) (d : Dev) : (d.modRecm f).flt = d.flt := rfl
@[simp] theorem Dev.modRecm_memu (f : RecM → RecM) (d : Dev) : (d.modRecm f).memu = d.memu := rfl
@[simp] theorem Dev.modRecm_paths (f : RecM → RecM) (d : Dev) : (d.modRecm f).paths = d.paths := rfl
@[simp] theorem Dev.modRecm_pos (f : RecM → RecM) (d : Dev) : (d.modRecm f).pos = d.pos := rfl
@[simp] theorem Dev.modRecm_adm (f : RecM → RecM) (d : Dev) : (d.modRecm f).adm = d.adm := rfl
@[simp] theorem Dev.modRecm_loft (f : RecM → RecM) (d : Dev) : (d.modRecm f).loft = d.loft := rfl
@[simp] theorem Dev.modRecm_banks (f : RecM → RecM) (d : Dev) : (d.modRecm f).banks = d.banks := rfl
@[simp] theorem Dev.modRecm_bst (f : RecM → RecM) (d : Dev) : (d.modRecm f).bst = d.bst := rfl
@[simp] theorem Dev.modRecm_pfi (f : RecM → RecM) (d : Dev) : (d.modRecm f).pfi = d.pfi := rfl
@[simp] theorem Dev.modRecm_ign (f : RecM → RecM) (d : Dev) : (d.modRecm f).ign = d.ign := rfl
@[simp] theorem Dev.modRecm_gate (f : RecM → RecM) (d : Dev) : (d.modRecm f).gate = d.gate := rfl
@[simp] theorem Dev.modRecm_diag (f : RecM → RecM) (d : Dev) : (d.modRecm f).diag = d.diag := rfl
@[simp] theorem Dev.modRecm_ce (f : RecM → RecM) (d : Dev) : (d.modRecm f).ce = d.ce := rfl
@[simp] theorem Dev.modRecm_ces (f : RecM → RecM) (d : Dev) : (d.modRecm f).ces = d.ces := rfl
@[simp] theorem Dev.modRecm_cnv (f : RecM → RecM) (d : Dev) : (d.modRecm f).cnv = d.cnv := rfl
@[simp] theorem Dev.modRecm_cnvs (f : RecM → RecM) (d : Dev) : (d.modRecm f).cnvs = d.cnvs := rfl
@[simp] theorem Dev.modRecm_recm (f : RecM → RecM) (d : Dev) : (d.modRecm f).recm = f d.recm := rfl
@[simp] theorem Dev.modRecm_snap (f : RecM → RecM) (d : Dev) : (d.modRecm f).snap = d.snap := rfl
@[simp] theorem Dev.modRecm_tmu (f : RecM → RecM) (d : Dev) : (d.modRecm f).tmu = d.tmu := rfl
@[simp] theorem Dev.modRecm_pio (f : RecM → RecM) (d : Dev) : (d.modRecm f).pio = d.pio := rfl
@[simp] theorem Dev.modRecm_pios (f : RecM → RecM) (d : Dev) : (d.modRecm f).pios = d.pios := rfl
@[simp] theorem Dev.modRecm_can (f : RecM → RecM) (d : Dev) : (d.modRecm f).can = d.can := rfl
@[simp] theorem Dev.modRecm_rope (f : RecM → RecM) (d : Dev) : (d.modRecm f).rope = d.rope := rfl
@[simp] theorem Dev.modRecm_twp (f : RecM → RecM) (d : Dev) : (d.modRecm f).twp = d.twp := rfl
@[simp] theorem Dev.modRecm_writes (f : RecM → RecM) (d : Dev) : (d.modRecm f).writes = d.writes := rfl
@[simp] theorem Dev.modRecm_free (f : RecM → RecM) (d : Dev) : (d.modRecm f).free = d.free := rfl

/-! ### `modSnap` -/

@[simp] theorem Dev.modSnap_dtime (f : Snap → Snap) (d : Dev) : (d.modSnap f).dtime = d.dtime := rfl
@[simp] theorem Dev.modSnap_sup (f : Snap → Snap) (d : Dev) : (d.modSnap f).sup = d.sup := rfl
@[simp] theorem Dev.modSnap_nvi (f : Snap → Snap) (d : Dev) : (d.modSnap f).nvi = d.nvi := rfl
@[simp] theorem Dev.modSnap_flt (f : Snap → Snap) (d : Dev) : (d.modSnap f).flt = d.flt := rfl
@[simp] theorem Dev.modSnap_memu (f : Snap → Snap) (d : Dev) : (d.modSnap f).memu = d.memu := rfl
@[simp] theorem Dev.modSnap_paths (f : Snap → Snap) (d : Dev) : (d.modSnap f).paths = d.paths := rfl
@[simp] theorem Dev.modSnap_pos (f : Snap → Snap) (d : Dev) : (d.modSnap f).pos = d.pos := rfl
@[simp] theorem Dev.modSnap_adm (f : Snap → Snap) (d : Dev) : (d.modSnap f).adm = d.adm := rfl
@[simp] theorem Dev.modSnap_loft (f : Snap → Snap) (d : Dev) : (d.modSnap f).loft = d.loft := rfl
@[simp] theorem Dev.modSnap_banks (f : Snap → Snap) (d : Dev) : (d.modSnap f).banks = d.banks := rfl
@[simp] theorem Dev.modSnap_bst (f : Snap → Snap) (d : Dev) : (d.modSnap f).bst = d.bst := rfl
@[simp] theorem Dev.modSnap_pfi (f : Snap → Snap) (d : Dev) : (d.modSnap f).pfi = d.pfi := rfl
@[simp] theorem Dev.modSnap_ign (f : Snap → Snap) (d : Dev) : (d.modSnap f).ign = d.ign := rfl
@[simp] theorem Dev.modSnap_gate (f : Snap → Snap) (d : Dev) : (d.modSnap f).gate = d.gate := rfl
@[simp] theorem Dev.modSnap_diag (f : Snap → Snap) (d : Dev) : (d.modSnap f).diag = d.diag := rfl
@[simp] theorem Dev.modSnap_ce (f : Snap → Snap) (d : Dev) : (d.modSnap f).ce = d.ce := rfl
@[simp] theorem Dev.modSnap_ces (f : Snap → Snap) (d : Dev) : (d.modSnap f).ces = d.ces := rfl
@[simp] theorem Dev.modSnap_cnv (f : Snap → Snap) (d : Dev) : (d.modSnap f).cnv = d.cnv := rfl
@[simp] theorem Dev.modSnap_cnvs (f : Snap → Snap) (d : Dev) : (d.modSnap f).cnvs = d.cnvs := rfl
@[simp] theorem Dev.modSnap_recm (f : Snap → Snap) (d : Dev) : (d.modSnap f).recm = d.recm := rfl
@[simp] theorem Dev.modSnap_snap (f : Snap → Snap) (d : Dev) : (d.modSnap f).snap = f d.snap := rfl
@[simp] theorem Dev.modSnap_tmu (f : Snap → Snap) (d : Dev) : (d.modSnap f).tmu = d.tmu := rfl
@[simp] theorem Dev.modSnap_pio (f : Snap → Snap) (d : Dev) : (d.modSnap f).pio = d.pio := rfl
@[simp] theorem Dev.modSnap_pios (f : Snap → Snap) (d : Dev) : (d.modSnap f).pios = d.pios := rfl
@[simp] theorem Dev.modSnap_can (f : Snap → Snap) (d : Dev) : (d.modSnap f).can = d.can := rfl
@[simp] theorem Dev.modSnap_rope (f : Snap → Snap) (d : Dev) : (d.modSnap f).rope = d.rope := rfl
@[simp] theorem Dev.modSnap_twp (f : Snap → Snap) (d : Dev) : (d.modSnap f).twp = d.twp := rfl
@[simp] theorem Dev.modSnap_writes (f : Snap → Snap) (d : Dev) : (d.modSnap f).writes = d.writes := rfl
@[simp] theorem Dev.modSnap_free (f : Snap → Snap) (d : Dev) : (d.modSnap f).free = d.free := rfl

/-! ### `modTmu` -/

@[simp] theorem Dev.modTmu_dtime (u : Fin 8) (f : Tmu → Tmu) (d : Dev) : (d.modTmu u f).dtime = d.dtime := rfl
@[simp] theorem Dev.modTmu_sup (u : Fin 8) (f : Tmu → Tmu) (d : Dev) : (d.modTmu u f).sup = d.sup := rfl
@[simp] theorem Dev.modTmu_nvi (u : Fin 8) (f : Tmu → Tmu) (d : Dev) : (d.modTmu u f).nvi = d.nvi := rfl
@[simp] theorem Dev.modTmu_flt (u : Fin 8) (f : Tmu → Tmu) (d : Dev) : (d.modTmu u f).flt = d.flt := rfl
@[simp] theorem Dev.modTmu_memu (u : Fin 8) (f : Tmu → Tmu) (d : Dev) : (d.modTmu u f).memu = d.memu := rfl
@[simp] theorem Dev.modTmu_paths (u : Fin 8) (f : Tmu → Tmu) (d : Dev) : (d.modTmu u f).paths = d.paths := rfl
@[simp] theorem Dev.modTmu_pos (u : Fin 8) (f : Tmu → Tmu) (d : Dev) : (d.modTmu u f).pos = d.pos := rfl
@[simp] theorem Dev.modTmu_adm (u : Fin 8) (f : Tmu → Tmu) (d : Dev) : (d.modTmu u f).adm = d.adm := rfl
@[simp] theorem Dev.modTmu_loft (u : Fin 8) (f : Tmu → Tmu) (d : Dev) : (d.modTmu u f).loft = d.loft := rfl
@[simp] theorem Dev.modTmu_banks (u : Fin 8) (f : Tmu → Tmu) (d : Dev) : (d.modTmu u f).banks = d.banks := rfl
@[simp] theorem Dev.modTmu_bst (u : Fin 8) (f : Tmu → Tmu) (d : Dev) : (d.modTmu u f).bst = d.bst := rfl
@[simp] theorem Dev.modTmu_pfi (u : Fin 8) (f : Tmu → Tmu) (d : Dev) : (d.modTmu u f).pfi = d.pfi := rfl
@[simp] theorem Dev.modTmu_ign (u : Fin 8) (f : Tmu → Tmu) (d : Dev) : (d.modTmu u f).ign = d.ign := rfl
@[simp] theorem Dev.modTmu_gate (u : Fin 8) (f : Tmu → Tmu) (d : Dev) : (d.modTmu u f).gate = d.gate := rfl
@[simp] theorem Dev.modTmu_diag (u : Fin 8) (f : Tmu → Tmu) (d : Dev) : (d.modTmu u f).diag = d.diag := rfl
@[simp] theorem Dev.modTmu_ce (u : Fin 8) (f : Tmu → Tmu) (d : Dev) : (d.modTmu u f).ce = d.ce := rfl
@[simp] theorem Dev.modTmu_ces (u : Fin 8) (f : Tmu → Tmu) (d : Dev) : (d.modTmu u f).ces = d.ces := rfl
@[simp] theorem Dev.modTmu_cnv (u : Fin 8) (f : Tmu → Tmu) (d : Dev) : (d.modTmu u f).cnv = d.cnv := rfl
@[simp] theorem Dev.modTmu_cnvs (u : Fin 8) (f : Tmu → Tmu) (d : Dev) : (d.modTmu u f).cnvs = d.cnvs := rfl
@[simp] theorem Dev.modTmu_recm (u : Fin 8) (f : Tmu → Tmu) (d : Dev) : (d.modTmu u f).recm = d.recm := rfl
@[simp] theorem Dev.modTmu_snap (u : Fin 8) (f : Tmu → Tmu) (d : Dev) : (d.modTmu u f).snap = d.snap := rfl
@[simp] theorem Dev.modTmu_tmu (u : Fin 8) (f : Tmu → Tmu) (d : Dev) : (d.modTmu u f).tmu = upd d.tmu u f := rfl
@[simp] theorem Dev.modTmu_pio (u : Fin 8) (f : Tmu → Tmu) (d : Dev) : (d.modTmu u f).pio = d.pio := rfl
@[simp] theorem Dev.modTmu_pios (u : Fin 8) (f : Tmu → Tmu) (d : Dev) : (d.modTmu u f).pios = d.pios := rfl
@[simp] theorem Dev.modTmu_can (u : Fin 8) (f : Tmu → Tmu) (d : Dev) : (d.modTmu u f).can = d.can := rfl
@[simp] theorem Dev.modTmu_rope (u : Fin 8) (f : Tmu → Tmu) (d : Dev) : (d.modTmu u f).rope = d.rope := rfl
@[simp] theorem Dev.modTmu_twp (u : Fin 8) (f : Tmu → Tmu) (d : Dev) : (d.modTmu u f).twp = d.twp := rfl
@[simp] theorem Dev.modTmu_writes (u : Fin 8) (f : Tmu → Tmu) (d : Dev) : (d.modTmu u f).writes = d.writes := rfl
@[simp] theorem Dev.modTmu_free (u : Fin 8) (f : Tmu → Tmu) (d : Dev) : (d.modTmu u f).free = d.free := rfl

/-! ### `modPio` -/

@[simp] theorem Dev.modPio_dtime (m : Fin 8) (f : Pio → Pio) (d : Dev) : (d.modPio m f).dtime = d.dtime := rfl
@[simp] theorem Dev.modPio_sup (m : Fin 8) (f : Pio → Pio) (d : Dev) : (d.modPio m f).sup = d.sup := rfl
@[simp] theorem Dev.modPio_nvi (m : Fin 8) (f : Pio → Pio) (d : Dev) : (d.modPio m f).nvi = d.nvi := rfl
@[simp] theorem Dev.modPio_flt (m : Fin 8) (f : Pio → Pio) (d : Dev) : (d.modPio m f).flt = d.flt := rfl
@[simp] theorem Dev.modPio_memu (m : Fin 8) (f : Pio → Pio) (d : Dev) : (d.modPio m f).memu = d.memu := rfl
@[simp] theorem Dev.modPio_paths (m : Fin 8) (f : Pio → Pio) (d : Dev) : (d.modPio m f).paths = d.paths := rfl
@[simp] theorem Dev.modPio_pos (m : Fin 8) (f : Pio → Pio) (d : Dev) : (d.modPio m f).pos = d.pos := rfl
@[simp] theorem Dev.modPio_adm (m : Fin 8) (f : Pio → Pio) (d : Dev) : (d.modPio m f).adm = d.adm := rfl
@[simp] theorem Dev.modPio_loft (m : Fin 8) (f : Pio → Pio) (d : Dev) : (d.modPio m f).loft = d.loft := rfl
@[simp] theorem Dev.modPio_banks (m : Fin 8) (f : Pio → Pio) (d : Dev) : (d.modPio m f).banks = d.banks := rfl
@[simp] theorem Dev.modPio_bst (m : Fin 8) (f : Pio → Pio) (d : Dev) : (d.modPio m f).bst = d.bst := rfl
@[simp] theorem Dev.modPio_pfi (m : Fin 8) (f : Pio → Pio) (d : Dev) : (d.modPio m f).pfi = d.pfi := rfl
@[simp] theorem Dev.modPio_ign (m : Fin 8) (f : Pio → Pio) (d : Dev) : (d.modPio m f).ign = d.ign := rfl
@[simp] theorem Dev.modPio_gate (m : Fin 8) (f : Pio → Pio) (d : Dev) : (d.modPio m f).gate = d.gate := rfl
@[simp] theorem Dev.modPio_diag (m : Fin 8) (f : Pio → Pio) (d : Dev) : (d.modPio m f).diag = d.diag := rfl
@[simp] theorem Dev.modPio_ce (m : Fin 8) (f : Pio → Pio) (d : Dev) : (d.modPio m f).ce = d.ce := rfl
@[simp] theorem Dev.modPio_ces (m : Fin 8) (f : Pio → Pio) (d : Dev) : (d.modPio m f).ces = d.ces := rfl
@[simp] theorem Dev.modPio_cnv (m : Fin 8) (f : Pio → Pio) (d : Dev) : (d.modPio m f).cnv = d.cnv := rfl
@[simp] theorem Dev.modPio_cnvs (m : Fin 8) (f : Pio → Pio) (d : Dev) : (d.modPio m f).cnvs = d.cnvs := rfl
@[simp] theorem Dev.modPio_recm (m : Fin 8) (f : Pio → Pio) (d : Dev) : (d.modPio m f).recm = d.recm := rfl
@[simp] theorem Dev.modPio_snap (m : Fin 8) (f : Pio → Pio) (d : Dev) : (d.modPio m f).snap = d.snap := rfl
@[simp] theorem Dev.modPio_tmu (m : Fin 8) (f : Pio → Pio) (d : Dev) : (d.modPio m f).tmu = d.tmu := rfl
@[simp] theorem Dev.modPio_pio (m : Fin 8) (f : Pio → Pio) (d : Dev) : (d.modPio m f).pio = upd d.pio m f := rfl
@[simp] theorem Dev.modPio_pios (m : Fin 8) (f : Pio → Pio) (d : Dev) : (d.modPio m f).pios = d.pios := rfl
@[simp] theorem Dev.modPio_can (m : Fin 8) (f : Pio → Pio) (d : Dev) : (d.modPio m f).can = d.can := rfl
@[simp] theorem Dev.modPio_rope (m : Fin 8) (f : Pio → Pio) (d : Dev) : (d.modPio m f).rope = d.rope := rfl
@[simp] theorem Dev.modPio_twp (m : Fin 8) (f : Pio → Pio) (d : Dev) : (d.modPio m f).twp = d.twp := rfl
@[simp] theorem Dev.modPio_writes (m : Fin 8) (f : Pio → Pio) (d : Dev) : (d.modPio m f).writes = d.writes := rfl
@[simp] theorem Dev.modPio_free (m : Fin 8) (f : Pio → Pio) (d : Dev) : (d.modPio m f).free = d.free := rfl

/-! ### `modPios` -/

@[simp] theorem Dev.modPios_dtime (f : PioShared → PioShared) (d : Dev) : (d.modPios f).dtime = d.dtime := rfl
@[simp] theorem Dev.modPios_sup (f : PioShared → PioShared) (d : Dev) : (d.modPios f).sup = d.sup := rfl
@[simp] theorem Dev.modPios_nvi (f : PioShared → PioShared) (d : Dev) : (d.modPios f).nvi = d.nvi := rfl
@[simp] theorem Dev.modPios_flt (f : PioShared → PioShared) (d : Dev) : (d.modPios f).flt = d.flt := rfl
@[simp] theorem Dev.modPios_memu (f : PioShared → PioShared) (d : Dev) : (d.modPios f).memu = d.memu := rfl
@[simp] theorem Dev.modPios_paths (f : PioShared → PioShared) (d : Dev) : (d.modPios f).paths = d.paths := rfl
@[simp] theorem Dev.modPios_pos (f : PioShared → PioShared) (d : Dev) : (d.modPios f).pos = d.pos := rfl
@[simp] theorem Dev.modPios_adm (f : PioShared → PioShared) (d : Dev) : (d.modPios f).adm = d.adm := rfl
@[simp] theorem Dev.modPios_loft (f : PioShared → PioShared) (d : Dev) : (d.modPios f).loft = d.loft := rfl
@[simp] theorem Dev.modPios_banks (f : PioShared → PioShared) (d : Dev) : (d.modPios f).banks = d.banks := rfl
@[simp] theorem Dev.modPios_bst (f : PioShared → PioShared) (d : Dev) : (d.modPios f).bst = d.bst := rfl
@[simp] theorem Dev.modPios_pfi (f : PioShared → PioShared) (d : Dev) : (d.modPios f).pfi = d.pfi := rfl
@[simp] theorem Dev.modPios_ign (f : PioShared → PioShared) (d : Dev) : (d.modPios f).ign = d.ign := rfl
@[simp] theorem Dev.modPios_gate (f : PioShared → PioShared) (d : Dev) : (d.modPios f).gate = d.gate := rfl
@[simp] theorem Dev.modPios_diag (f : PioShared → PioShared) (d : Dev) : (d.modPios f).diag = d.diag := rfl
@[simp] theorem Dev.modPios_ce (f : PioShared → PioShared) (d : Dev) : (d.modPios f).ce = d.ce := rfl
@[simp] theorem Dev.modPios_ces (f : PioShared → PioShared) (d : Dev) : (d.modPios f).ces = d.ces := rfl
@[simp] theorem Dev.modPios_cnv (f : PioShared → PioShared) (d : Dev) : (d.modPios f).cnv = d.cnv := rfl
@[simp] theorem Dev.modPios_cnvs (f : PioShared → PioShared) (d : Dev) : (d.modPios f).cnvs = d.cnvs := rfl
@[simp] theorem Dev.modPios_recm (f : PioShared → PioShared) (d : Dev) : (d.modPios f).recm = d.recm := rfl
@[simp] theorem Dev.modPios_snap (f : PioShared → PioShared) (d : Dev) : (d.modPios f).snap = d.snap := rfl
@[simp] theorem Dev.modPios_tmu (f : PioShared → PioShared) (d : Dev) : (d.modPios f).tmu = d.tmu := rfl
@[simp] theorem Dev.modPios_pio (f : PioShared → PioShared) (d : Dev) : (d.modPios f).pio = d.pio := rfl
@[simp] theorem Dev.modPios_pios (f : PioShared → PioShared) (d : Dev) : (d.modPios f).pios = f d.pios := rfl
@[simp] theorem Dev.modPios_can (f : PioShared → PioShared) (d : Dev) : (d.modPios f).can = d.can := rfl
@[simp] theorem Dev.modPios_rope (f : PioShared → PioShared) (d : Dev) : (d.modPios f).rope = d.rope := rfl
@[simp] theorem Dev.modPios_twp (f : PioShared → PioShared) (d : Dev) : (d.modPios f).twp = d.twp := rfl
@[simp] theorem Dev.modPios_writes (f : PioShared → PioShared) (d : Dev) : (d.modPios f).writes = d.writes := rfl
@[simp] theorem Dev.modPios_free (f : PioShared → PioShared) (d : Dev) : (d.modPios f).free = d.free := rfl

/-! ### `modCan` -/

@[simp] theorem Dev.modCan_dtime (k : Fin 4) (f : Can → Can) (d : Dev) : (d.modCan k f).dtime = d.dtime := rfl
@[simp] theorem Dev.modCan_sup (k : Fin 4) (f : Can → Can) (d : Dev) : (d.modCan k f).sup = d.sup := rfl
@[simp] theorem Dev.modCan_nvi (k : Fin 4) (f : Can → Can) (d : Dev) : (d.modCan k f).nvi = d.nvi := rfl
@[simp] theorem Dev.modCan_flt (k : Fin 4) (f : Can → Can) (d : Dev) : (d.modCan k f).flt = d.flt := rfl
@[simp] theorem Dev.modCan_memu (k : Fin 4) (f : Can → Can) (d : Dev) : (d.modCan k f).memu = d.memu := rfl
@[simp] theorem Dev.modCan_paths (k : Fin 4) (f : Can → Can) (d : Dev) : (d.modCan k f).paths = d.paths := rfl
@[simp] theorem Dev.modCan_pos (k : Fin 4) (f : Can → Can) (d : Dev) : (d.modCan k f).pos = d.pos := rfl
@[simp] theorem Dev.modCan_adm (k : Fin 4) (f : Can → Can) (d : Dev) : (d.modCan k f).adm = d.adm := rfl
@[simp] theorem Dev.modCan_loft (k : Fin 4) (f : Can → Can) (d : Dev) : (d.modCan k f).loft = d.loft := rfl
@[simp] theorem Dev.modCan_banks (k : Fin 4) (f : Can → Can) (d : Dev) : (d.modCan k f).banks = d.banks := rfl
@[simp] theorem Dev.modCan_bst (k : Fin 4) (f : Can → Can) (d : Dev) : (d.modCan k f).bst = d.bst := rfl
@[simp] theorem Dev.modCan_pfi (k : Fin 4) (f : Can → Can) (d : Dev) : (d.modCan k f).pfi = d.pfi := rfl
@[simp] theorem Dev.modCan_ign (k : Fin 4) (f : Can → Can) (d : Dev) : (d.modCan k f).ign = d.ign := rfl
@[simp] theorem Dev.modCan_gate (k : Fin 4) (f : Can → Can) (d : Dev) : (d.modCan k f).gate = d.gate := rfl
@[simp] theorem Dev.modCan_diag (k : Fin 4) (f : Can → Can) (d : Dev) : (d.modCan k f).diag = d.diag := rfl
@[simp] theorem Dev.modCan_ce (k : Fin 4) (f : Can → Can) (d : Dev) : (d.modCan k f).ce = d.ce := rfl
@[simp] theorem Dev.modCan_ces (k : Fin 4) (f : Can → Can) (d : Dev) : (d.modCan k f).ces = d.ces := rfl
@[simp] theorem Dev.modCan_cnv (k : Fin 4) (f : Can → Can) (d : Dev) : (d.modCan k f).cnv = d.cnv := rfl
@[simp] theorem Dev.modCan_cnvs (k : Fin 4) (f : Can → Can) (d : Dev) : (d.modCan k f).cnvs = d.cnvs := rfl
@[simp] theorem Dev.modCan_recm (k : Fin 4) (f : Can → Can) (d : Dev) : (d.modCan k f).recm = d.recm := rfl
@[simp] theorem Dev.modCan_snap (k : Fin 4) (f : Can → Can) (d : Dev) : (d.modCan k f).snap = d.snap := rfl
@[simp] theorem Dev.modCan_tmu (k : Fin 4) (f : Can → Can) (d : Dev) : (d.modCan k f).tmu = d.tmu := rfl
@[simp] theorem Dev.modCan_pio (k : Fin 4) (f : Can → Can) (d : Dev) : (d.modCan k f).pio = d.pio := rfl
@[simp] theorem Dev.modCan_pios (k : Fin 4) (f : Can → Can) (d : Dev) : (d.modCan k f).pios = d.pios := rfl
@[simp] theorem Dev.modCan_can (k : Fin 4) (f : Can → Can) (d : Dev) : (d.modCan k f).can = upd d.can k f := rfl
@[simp] theorem Dev.modCan_rope (k : Fin 4) (f : Can → Can) (d : Dev) : (d.modCan k f).rope = d.rope := rfl
@[simp] theorem Dev.modCan_twp (k : Fin 4) (f : Can → Can) (d : Dev) : (d.modCan k f).twp = d.twp := rfl
@[simp] theorem Dev.modCan_writes (k : Fin 4) (f : Can → Can) (d : Dev) : (d.modCan k f).writes = d.writes := rfl
@[simp] theorem Dev.modCan_free (k : Fin 4) (f : Can → Can) (d : Dev) : (d.modCan k f).free = d.free := rfl

/-! ### `modRope` -/

@[simp] theorem Dev.modRope_dtime (f : Rope → Rope) (d : Dev) : (d.modRope f).dtime = d.dtime := rfl
@[simp] theorem Dev.modRope_sup (f : Rope → Rope) (d : Dev) : (d.modRope f).sup = d.sup := rfl
@[simp] theorem Dev.modRope_nvi (f : Rope → Rope) (d : Dev) : (d.modRope f).nvi = d.nvi := rfl
@[simp] theorem Dev.modRope_flt (f : Rope → Rope) (d : Dev) : (d.modRope f).flt = d.flt := rfl
@[simp] theorem Dev.modRope_memu (f : Rope → Rope) (d : Dev) : (d.modRope f).memu = d.memu := rfl
@[simp] theorem Dev.modRope_paths (f : Rope → Rope) (d : Dev) : (d.modRope f).paths = d.paths := rfl
@[simp] theorem Dev.modRope_pos (f : Rope → Rope) (d : Dev) : (d.modRope f).pos = d.pos := rfl
@[simp] theorem Dev.modRope_adm (f : Rope → Rope) (d : Dev) : (d.modRope f).adm = d.adm := rfl
@[simp] theorem Dev.modRope_loft (f : Rope → Rope) (d : Dev) : (d.modRope f).loft = d.loft := rfl
@[simp] theorem Dev.modRope_banks (f : Rope → Rope) (d : Dev) : (d.modRope f).banks = d.banks := rfl
@[simp] theorem Dev.modRope_bst (f : Rope → Rope) (d : Dev) : (d.modRope f).bst = d.bst := rfl
@[simp] theorem Dev.modRope_pfi (f : Rope → Rope) (d : Dev) : (d.modRope f).pfi = d.pfi := rfl
@[simp] theorem Dev.modRope_ign (f : Rope → Rope) (d : Dev) : (d.modRope f).ign = d.ign := rfl
@[simp] theorem Dev.modRope_gate (f : Rope → Rope) (d : Dev) : (d.modRope f).gate = d.gate := rfl
@[simp] theorem Dev.modRope_diag (f : Rope → Rope) (d : Dev) : (d.modRope f).diag = d.diag := rfl
@[simp] theorem Dev.modRope_ce (f : Rope → Rope) (d : Dev) : (d.modRope f).ce = d.ce := rfl
@[simp] theorem Dev.modRope_ces (f : Rope → Rope) (d : Dev) : (d.modRope f).ces = d.ces := rfl
@[simp] theorem Dev.modRope_cnv (f : Rope → Rope) (d : Dev) : (d.modRope f).cnv = d.cnv := rfl
@[simp] theorem Dev.modRope_cnvs (f : Rope → Rope) (d : Dev) : (d.modRope f).cnvs = d.cnvs := rfl
@[simp] theorem Dev.modRope_recm (f : Rope → Rope) (d : Dev) : (d.modRope f).recm = d.recm := rfl
@[simp] theorem Dev.modRope_snap (f : Rope → Rope) (d : Dev) : (d.modRope f).snap = d.snap := rfl
@[simp] theorem Dev.modRope_tmu (f : Rope → Rope) (d : Dev) : (d.modRope f).tmu = d.tmu := rfl
@[simp] theorem Dev.modRope_pio (f : Rope → Rope) (d : Dev) : (d.modRope f).pio = d.pio := rfl
@[simp] theorem Dev.modRope_pios (f : Rope → Rope) (d : Dev) : (d.modRope f).pios = d.pios := rfl
@[simp] theorem Dev.modRope_can (f : Rope → Rope) (d : Dev) : (d.modRope f).can = d.can := rfl
@[simp] theorem Dev.modRope_rope (f : Rope → Rope) (d : Dev) : (d.modRope f).rope = f d.rope := rfl
@[simp] theorem Dev.modRope_twp (f : Rope → Rope) (d : Dev) : (d.modRope f).twp = d.twp := rfl
@[simp] theorem Dev.modRope_writes (f : Rope → Rope) (d : Dev) : (d.modRope f).writes = d.writes := rfl
@[simp] theorem Dev.modRope_free (f : Rope → Rope) (d : Dev) : (d.modRope f).free = d.free := rfl

/-! ### `modTwp` -/

@[simp] theorem Dev.modTwp_dtime (f : Twp → Twp) (d : Dev) : (d.modTwp f).dtime = d.dtime := rfl
@[simp] theorem Dev.modTwp_sup (f : Twp → Twp) (d : Dev) : (d.modTwp f).sup = d.sup := rfl
@[simp] theorem Dev.modTwp_nvi (f : Twp → Twp) (d : Dev) : (d.modTwp f).nvi = d.nvi := rfl
@[simp] theorem Dev.modTwp_flt (f : Twp → Twp) (d : Dev) : (d.modTwp f).flt = d.flt := rfl
@[simp] theorem Dev.modTwp_memu (f : Twp → Twp) (d : Dev) : (d.modTwp f).memu = d.memu := rfl
@[simp] theorem Dev.modTwp_paths (f : Twp → Twp) (d : Dev) : (d.modTwp f).paths = d.paths := rfl
@[simp] theorem Dev.modTwp_pos (f : Twp → Twp) (d : Dev) : (d.modTwp f).pos = d.pos := rfl
@[simp] theorem Dev.modTwp_adm (f : Twp → Twp) (d : Dev) : (d.modTwp f).adm = d.adm := rfl
@[simp] theorem Dev.modTwp_loft (f : Twp → Twp) (d : Dev) : (d.modTwp f).loft = d.loft := rfl
@[simp] theorem Dev.modTwp_banks (f : Twp → Twp) (d : Dev) : (d.modTwp f).banks = d.banks := rfl
@[simp] theorem Dev.modTwp_bst (f : Twp → Twp) (d : Dev) : (d.modTwp f).bst = d.bst := rfl
@[simp] theorem Dev.modTwp_pfi (f : Twp → Twp) (d : Dev) : (d.modTwp f).pfi = d.pfi := rfl
@[simp] theorem Dev.modTwp_ign (f : Twp → Twp) (d : Dev) : (d.modTwp f).ign = d.ign := rfl
@[simp] theorem Dev.modTwp_gate (f : Twp → Twp) (d : Dev) : (d.modTwp f).gate = d.gate := rfl
@[simp] theorem Dev.modTwp_diag (f : Twp → Twp) (d : Dev) : (d.modTwp f).diag = d.diag := rfl
@[simp] theorem Dev.modTwp_ce (f : Twp → Twp) (d : Dev) : (d.modTwp f).ce = d.ce := rfl
@[simp] theorem Dev.modTwp_ces (f : Twp → Twp) (d : Dev) : (d.modTwp f).ces = d.ces := rfl
@[simp] theorem Dev.modTwp_cnv (f : Twp → Twp) (d : Dev) : (d.modTwp f).cnv = d.cnv := rfl
@[simp] theorem Dev.modTwp_cnvs (f : Twp → Twp) (d : Dev) : (d.modTwp f).cnvs = d.cnvs := rfl
@[simp] theorem Dev.modTwp_recm (f : Twp → Twp) (d : Dev) : (d.modTwp f).recm = d.recm := rfl
@[simp] theorem Dev.modTwp_snap (f : Twp → Twp) (d : Dev) : (d.modTwp f).snap = d.snap := rfl
@[simp] theorem Dev.modTwp_tmu (f : Twp → Twp) (d : Dev) : (d.modTwp f).tmu = d.tmu := rfl
@[simp] theorem Dev.modTwp_pio (f : Twp → Twp) (d : Dev) : (d.modTwp f).pio = d.pio := rfl
@[simp] theorem Dev.modTwp_pios (f : Twp → Twp) (d : Dev) : (d.modTwp f).pios = d.pios := rfl
@[simp] theorem Dev.modTwp_can (f : Twp → Twp) (d : Dev) : (d.modTwp f).can = d.can := rfl
@[simp] theorem Dev.modTwp_rope (f : Twp → Twp) (d : Dev) : (d.modTwp f).rope = d.rope := rfl
@[simp] theorem Dev.modTwp_twp (f : Twp → Twp) (d : Dev) : (d.modTwp f).twp = f d.twp := rfl
@[simp] theorem Dev.modTwp_writes (f : Twp → Twp) (d : Dev) : (d.modTwp f).writes = d.writes := rfl
@[simp] theorem Dev.modTwp_free (f : Twp → Twp) (d : Dev) : (d.modTwp f).free = d.free := rfl

/-! ### `write` -/

@[simp] theorem Dev.write_dtime (w : MemOp) (d : Dev) : (d.write w).dtime = d.dtime := rfl
@[simp] theorem Dev.write_sup (w : MemOp) (d : Dev) : (d.write w).sup = d.sup := rfl
@[simp] theorem Dev.write_nvi (w : MemOp) (d : Dev) : (d.write w).nvi = d.nvi := rfl
@[simp] theorem Dev.write_flt (w : MemOp) (d : Dev) : (d.write w).flt = d.flt := rfl
@[simp] theorem Dev.write_memu (w : MemOp) (d : Dev) : (d.write w).memu = d.memu := rfl
@[simp] theorem Dev.write_paths (w : MemOp) (d : Dev) : (d.write w).paths = d.paths := rfl
@[simp] theorem Dev.write_pos (w : MemOp) (d : Dev) : (d.write w).pos = d.pos := rfl
@[simp] theorem Dev.write_adm (w : MemOp) (d : Dev) : (d.write w).adm = d.adm := rfl
@[simp] theorem Dev.write_loft (w : MemOp) (d : Dev) : (d.write w).loft = d.loft := rfl
@[simp] theorem Dev.write_banks (w : MemOp) (d : Dev) : (d.write w).banks = d.banks := rfl
@[simp] theorem Dev.write_bst (w : MemOp) (d : Dev) : (d.write w).bst = d.bst := rfl
@[simp] theorem Dev.write_pfi (w : MemOp) (d : Dev) : (d.write w).pfi = d.pfi := rfl
@[simp] theorem Dev.write_ign (w : MemOp) (d : Dev) : (d.write w).ign = d.ign := rfl
@[simp] theorem Dev.write_gate (w : MemOp) (d : Dev) : (d.write w).gate = d.gate := rfl
@[simp] theorem Dev.write_diag (w : MemOp) (d : Dev) : (d.write w).diag = d.diag := rfl
@[simp] theorem Dev.write_ce (w : MemOp) (d : Dev) : (d.write w).ce = d.ce := rfl
@[simp] theorem Dev.write_ces (w : MemOp) (d : Dev) : (d.write w).ces = d.ces := rfl
@[simp] theorem Dev.write_cnv (w : MemOp) (d : Dev) : (d.write w).cnv = d.cnv := rfl
@[simp] theorem Dev.write_cnvs (w : MemOp) (d : Dev) : (d.write w).cnvs = d.cnvs := rfl
@[simp] theorem Dev.write_recm (w : MemOp) (d : Dev) : (d.write w).recm = d.recm := rfl
@[simp] theorem Dev.write_snap (w : MemOp) (d : Dev) : (d.write w).snap = d.snap := rfl
@[simp] theorem Dev.write_tmu (w : MemOp) (d : Dev) : (d.write w).tmu = d.tmu := rfl
@[simp] theorem Dev.write_pio (w : MemOp) (d : Dev) : (d.write w).pio = d.pio := rfl
@[simp] theorem Dev.write_pios (w : MemOp) (d : Dev) : (d.write w).pios = d.pios := rfl
@[simp] theorem Dev.write_can (w : MemOp) (d : Dev) : (d.write w).can = d.can := rfl
@[simp] theorem Dev.write_rope (w : MemOp) (d : Dev) : (d.write w).rope = d.rope := rfl
@[simp] theorem Dev.write_twp (w : MemOp) (d : Dev) : (d.write w).twp = d.twp := rfl
@[simp] theorem Dev.write_writes (w : MemOp) (d : Dev) : (d.write w).writes = d.writes ++ [w] := rfl
@[simp] theorem Dev.write_free (w : MemOp) (d : Dev) : (d.write w).free = d.free := rfl

/-! ### `raise` -/

@[simp] theorem Dev.raise_dtime (r : FaultReq) (d : Dev) : (d.raise r).dtime = d.dtime := rfl
@[simp] theorem Dev.raise_sup (r : FaultReq) (d : Dev) : (d.raise r).sup = d.sup := rfl
@[simp] theorem Dev.raise_nvi (r : FaultReq) (d : Dev) : (d.raise r).nvi = d.nvi := rfl
@[simp] theorem Dev.raise_flt (r : FaultReq) (d : Dev) : (d.raise r).flt = { d.flt with raised := d.flt.raised ++ [r] } := rfl
@[simp] theorem Dev.raise_memu (r : FaultReq) (d : Dev) : (d.raise r).memu = d.memu := rfl
@[simp] theorem Dev.raise_paths (r : FaultReq) (d : Dev) : (d.raise r).paths = d.paths := rfl
@[simp] theorem Dev.raise_pos (r : FaultReq) (d : Dev) : (d.raise r).pos = d.pos := rfl
@[simp] theorem Dev.raise_adm (r : FaultReq) (d : Dev) : (d.raise r).adm = d.adm := rfl
@[simp] theorem Dev.raise_loft (r : FaultReq) (d : Dev) : (d.raise r).loft = d.loft := rfl
@[simp] theorem Dev.raise_banks (r : FaultReq) (d : Dev) : (d.raise r).banks = d.banks := rfl
@[simp] theorem Dev.raise_bst (r : FaultReq) (d : Dev) : (d.raise r).bst = d.bst := rfl
@[simp] theorem Dev.raise_pfi (r : FaultReq) (d : Dev) : (d.raise r).pfi = d.pfi := rfl
@[simp] theorem Dev.raise_ign (r : FaultReq) (d : Dev) : (d.raise r).ign = d.ign := rfl
@[simp] theorem Dev.raise_gate (r : FaultReq) (d : Dev) : (d.raise r).gate = d.gate := rfl
@[simp] theorem Dev.raise_diag (r : FaultReq) (d : Dev) : (d.raise r).diag = d.diag := rfl
@[simp] theorem Dev.raise_ce (r : FaultReq) (d : Dev) : (d.raise r).ce = d.ce := rfl
@[simp] theorem Dev.raise_ces (r : FaultReq) (d : Dev) : (d.raise r).ces = d.ces := rfl
@[simp] theorem Dev.raise_cnv (r : FaultReq) (d : Dev) : (d.raise r).cnv = d.cnv := rfl
@[simp] theorem Dev.raise_cnvs (r : FaultReq) (d : Dev) : (d.raise r).cnvs = d.cnvs := rfl
@[simp] theorem Dev.raise_recm (r : FaultReq) (d : Dev) : (d.raise r).recm = d.recm := rfl
@[simp] theorem Dev.raise_snap (r : FaultReq) (d : Dev) : (d.raise r).snap = d.snap := rfl
@[simp] theorem Dev.raise_tmu (r : FaultReq) (d : Dev) : (d.raise r).tmu = d.tmu := rfl
@[simp] theorem Dev.raise_pio (r : FaultReq) (d : Dev) : (d.raise r).pio = d.pio := rfl
@[simp] theorem Dev.raise_pios (r : FaultReq) (d : Dev) : (d.raise r).pios = d.pios := rfl
@[simp] theorem Dev.raise_can (r : FaultReq) (d : Dev) : (d.raise r).can = d.can := rfl
@[simp] theorem Dev.raise_rope (r : FaultReq) (d : Dev) : (d.raise r).rope = d.rope := rfl
@[simp] theorem Dev.raise_twp (r : FaultReq) (d : Dev) : (d.raise r).twp = d.twp := rfl
@[simp] theorem Dev.raise_writes (r : FaultReq) (d : Dev) : (d.raise r).writes = d.writes := rfl
@[simp] theorem Dev.raise_free (r : FaultReq) (d : Dev) : (d.raise r).free = d.free := rfl

/-! ### `at` -/

@[simp] theorem Dev.at_sup (t : Ns) (d : Dev) : (d.at t).sup = d.sup := rfl
@[simp] theorem Dev.at_nvi (t : Ns) (d : Dev) : (d.at t).nvi = d.nvi := rfl
@[simp] theorem Dev.at_flt (t : Ns) (d : Dev) : (d.at t).flt = d.flt := rfl
@[simp] theorem Dev.at_memu (t : Ns) (d : Dev) : (d.at t).memu = d.memu := rfl
@[simp] theorem Dev.at_paths (t : Ns) (d : Dev) : (d.at t).paths = d.paths := rfl
@[simp] theorem Dev.at_pos (t : Ns) (d : Dev) : (d.at t).pos = d.pos := rfl
@[simp] theorem Dev.at_adm (t : Ns) (d : Dev) : (d.at t).adm = d.adm := rfl
@[simp] theorem Dev.at_loft (t : Ns) (d : Dev) : (d.at t).loft = d.loft := rfl
@[simp] theorem Dev.at_banks (t : Ns) (d : Dev) : (d.at t).banks = d.banks := rfl
@[simp] theorem Dev.at_bst (t : Ns) (d : Dev) : (d.at t).bst = d.bst := rfl
@[simp] theorem Dev.at_pfi (t : Ns) (d : Dev) : (d.at t).pfi = d.pfi := rfl
@[simp] theorem Dev.at_ign (t : Ns) (d : Dev) : (d.at t).ign = d.ign := rfl
@[simp] theorem Dev.at_gate (t : Ns) (d : Dev) : (d.at t).gate = d.gate := rfl
@[simp] theorem Dev.at_diag (t : Ns) (d : Dev) : (d.at t).diag = d.diag := rfl
@[simp] theorem Dev.at_ce (t : Ns) (d : Dev) : (d.at t).ce = d.ce := rfl
@[simp] theorem Dev.at_ces (t : Ns) (d : Dev) : (d.at t).ces = d.ces := rfl
@[simp] theorem Dev.at_cnv (t : Ns) (d : Dev) : (d.at t).cnv = d.cnv := rfl
@[simp] theorem Dev.at_cnvs (t : Ns) (d : Dev) : (d.at t).cnvs = d.cnvs := rfl
@[simp] theorem Dev.at_recm (t : Ns) (d : Dev) : (d.at t).recm = d.recm := rfl
@[simp] theorem Dev.at_snap (t : Ns) (d : Dev) : (d.at t).snap = d.snap := rfl
@[simp] theorem Dev.at_tmu (t : Ns) (d : Dev) : (d.at t).tmu = d.tmu := rfl
@[simp] theorem Dev.at_pio (t : Ns) (d : Dev) : (d.at t).pio = d.pio := rfl
@[simp] theorem Dev.at_pios (t : Ns) (d : Dev) : (d.at t).pios = d.pios := rfl
@[simp] theorem Dev.at_can (t : Ns) (d : Dev) : (d.at t).can = d.can := rfl
@[simp] theorem Dev.at_rope (t : Ns) (d : Dev) : (d.at t).rope = d.rope := rfl
@[simp] theorem Dev.at_twp (t : Ns) (d : Dev) : (d.at t).twp = d.twp := rfl
@[simp] theorem Dev.at_writes (t : Ns) (d : Dev) : (d.at t).writes = d.writes := rfl
@[simp] theorem Dev.at_free (t : Ns) (d : Dev) : (d.at t).free = d.free := rfl

/-! ### `disarm` -/

@[simp] theorem Dev.disarm_dtime (p : Path) (d : Dev) : (d.disarm p).dtime = d.dtime := rfl
@[simp] theorem Dev.disarm_sup (p : Path) (d : Dev) : (d.disarm p).sup = d.sup := rfl
@[simp] theorem Dev.disarm_nvi (p : Path) (d : Dev) : (d.disarm p).nvi = d.nvi := rfl
@[simp] theorem Dev.disarm_flt (p : Path) (d : Dev) : (d.disarm p).flt = d.flt := rfl
@[simp] theorem Dev.disarm_memu (p : Path) (d : Dev) : (d.disarm p).memu = d.memu := rfl
@[simp] theorem Dev.disarm_paths (p : Path) (d : Dev) : (d.disarm p).paths = upd d.paths (pathIndex p) fun c => { c with armedAt := none, served := d.nextTurn } := rfl
@[simp] theorem Dev.disarm_pos (p : Path) (d : Dev) : (d.disarm p).pos = d.pos := rfl
@[simp] theorem Dev.disarm_adm (p : Path) (d : Dev) : (d.disarm p).adm = d.adm := rfl
@[simp] theorem Dev.disarm_loft (p : Path) (d : Dev) : (d.disarm p).loft = d.loft := rfl
@[simp] theorem Dev.disarm_banks (p : Path) (d : Dev) : (d.disarm p).banks = d.banks := rfl
@[simp] theorem Dev.disarm_bst (p : Path) (d : Dev) : (d.disarm p).bst = d.bst := rfl
@[simp] theorem Dev.disarm_pfi (p : Path) (d : Dev) : (d.disarm p).pfi = d.pfi := rfl
@[simp] theorem Dev.disarm_ign (p : Path) (d : Dev) : (d.disarm p).ign = d.ign := rfl
@[simp] theorem Dev.disarm_gate (p : Path) (d : Dev) : (d.disarm p).gate = d.gate := rfl
@[simp] theorem Dev.disarm_diag (p : Path) (d : Dev) : (d.disarm p).diag = d.diag := rfl
@[simp] theorem Dev.disarm_ce (p : Path) (d : Dev) : (d.disarm p).ce = d.ce := rfl
@[simp] theorem Dev.disarm_ces (p : Path) (d : Dev) : (d.disarm p).ces = d.ces := rfl
@[simp] theorem Dev.disarm_cnv (p : Path) (d : Dev) : (d.disarm p).cnv = d.cnv := rfl
@[simp] theorem Dev.disarm_cnvs (p : Path) (d : Dev) : (d.disarm p).cnvs = d.cnvs := rfl
@[simp] theorem Dev.disarm_recm (p : Path) (d : Dev) : (d.disarm p).recm = d.recm := rfl
@[simp] theorem Dev.disarm_snap (p : Path) (d : Dev) : (d.disarm p).snap = d.snap := rfl
@[simp] theorem Dev.disarm_tmu (p : Path) (d : Dev) : (d.disarm p).tmu = d.tmu := rfl
@[simp] theorem Dev.disarm_pio (p : Path) (d : Dev) : (d.disarm p).pio = d.pio := rfl
@[simp] theorem Dev.disarm_pios (p : Path) (d : Dev) : (d.disarm p).pios = d.pios := rfl
@[simp] theorem Dev.disarm_can (p : Path) (d : Dev) : (d.disarm p).can = d.can := rfl
@[simp] theorem Dev.disarm_rope (p : Path) (d : Dev) : (d.disarm p).rope = d.rope := rfl
@[simp] theorem Dev.disarm_twp (p : Path) (d : Dev) : (d.disarm p).twp = d.twp := rfl
@[simp] theorem Dev.disarm_writes (p : Path) (d : Dev) : (d.disarm p).writes = d.writes := rfl
@[simp] theorem Dev.disarm_free (p : Path) (d : Dev) : (d.disarm p).free = d.free := rfl

/-! ### `takeTurn` -/

@[simp] theorem Dev.takeTurn_dtime (p : Path) (d : Dev) : (d.takeTurn p).dtime = d.dtime := rfl
@[simp] theorem Dev.takeTurn_sup (p : Path) (d : Dev) : (d.takeTurn p).sup = d.sup := rfl
@[simp] theorem Dev.takeTurn_nvi (p : Path) (d : Dev) : (d.takeTurn p).nvi = d.nvi := rfl
@[simp] theorem Dev.takeTurn_flt (p : Path) (d : Dev) : (d.takeTurn p).flt = d.flt := rfl
@[simp] theorem Dev.takeTurn_memu (p : Path) (d : Dev) : (d.takeTurn p).memu = d.memu := rfl
@[simp] theorem Dev.takeTurn_paths (p : Path) (d : Dev) : (d.takeTurn p).paths = upd d.paths (pathIndex p) fun c => { c with served := d.nextTurn } := rfl
@[simp] theorem Dev.takeTurn_pos (p : Path) (d : Dev) : (d.takeTurn p).pos = d.pos := rfl
@[simp] theorem Dev.takeTurn_adm (p : Path) (d : Dev) : (d.takeTurn p).adm = d.adm := rfl
@[simp] theorem Dev.takeTurn_loft (p : Path) (d : Dev) : (d.takeTurn p).loft = d.loft := rfl
@[simp] theorem Dev.takeTurn_banks (p : Path) (d : Dev) : (d.takeTurn p).banks = d.banks := rfl
@[simp] theorem Dev.takeTurn_bst (p : Path) (d : Dev) : (d.takeTurn p).bst = d.bst := rfl
@[simp] theorem Dev.takeTurn_pfi (p : Path) (d : Dev) : (d.takeTurn p).pfi = d.pfi := rfl
@[simp] theorem Dev.takeTurn_ign (p : Path) (d : Dev) : (d.takeTurn p).ign = d.ign := rfl
@[simp] theorem Dev.takeTurn_gate (p : Path) (d : Dev) : (d.takeTurn p).gate = d.gate := rfl
@[simp] theorem Dev.takeTurn_diag (p : Path) (d : Dev) : (d.takeTurn p).diag = d.diag := rfl
@[simp] theorem Dev.takeTurn_ce (p : Path) (d : Dev) : (d.takeTurn p).ce = d.ce := rfl
@[simp] theorem Dev.takeTurn_ces (p : Path) (d : Dev) : (d.takeTurn p).ces = d.ces := rfl
@[simp] theorem Dev.takeTurn_cnv (p : Path) (d : Dev) : (d.takeTurn p).cnv = d.cnv := rfl
@[simp] theorem Dev.takeTurn_cnvs (p : Path) (d : Dev) : (d.takeTurn p).cnvs = d.cnvs := rfl
@[simp] theorem Dev.takeTurn_recm (p : Path) (d : Dev) : (d.takeTurn p).recm = d.recm := rfl
@[simp] theorem Dev.takeTurn_snap (p : Path) (d : Dev) : (d.takeTurn p).snap = d.snap := rfl
@[simp] theorem Dev.takeTurn_tmu (p : Path) (d : Dev) : (d.takeTurn p).tmu = d.tmu := rfl
@[simp] theorem Dev.takeTurn_pio (p : Path) (d : Dev) : (d.takeTurn p).pio = d.pio := rfl
@[simp] theorem Dev.takeTurn_pios (p : Path) (d : Dev) : (d.takeTurn p).pios = d.pios := rfl
@[simp] theorem Dev.takeTurn_can (p : Path) (d : Dev) : (d.takeTurn p).can = d.can := rfl
@[simp] theorem Dev.takeTurn_rope (p : Path) (d : Dev) : (d.takeTurn p).rope = d.rope := rfl
@[simp] theorem Dev.takeTurn_twp (p : Path) (d : Dev) : (d.takeTurn p).twp = d.twp := rfl
@[simp] theorem Dev.takeTurn_writes (p : Path) (d : Dev) : (d.takeTurn p).writes = d.writes := rfl
@[simp] theorem Dev.takeTurn_free (p : Path) (d : Dev) : (d.takeTurn p).free = d.free := rfl

end Sys2Proof.Machine
end

