-- ==== Sys2Proof/Laws/Run.lean ====
section
/-! SUPPORT. What every command does around its own effect: time, the faults of the command, the attention events and
the writes. A claim about one command cites `runAt_quiet` and then speaks of the command's body alone. -/

namespace Sys2Proof.Machine

/-! ### Time -/

/-- DTIME never steps backward (R26). -/
theorem Dev.at_mono (t : Ns) (d : Dev) : d.dtime ≤ (d.at t).dtime := by
  unfold Dev.at
  by_cases h : d.dtime < (if d.sup.dstep = 0 then t else t - t % d.sup.dstep)
  · simpa only [h, if_true] using Nat.le_of_lt h
  · simp only [h, if_false, Nat.le_refl]

/-- With the step of 1 ns, a command later than the device's time sets DTIME to its own. -/
theorem Dev.at_time {t : Ns} {d : Dev} (h : d.sup.dstep ≤ 1) (ht : d.dtime ≤ t) : (d.at t).dtime = t := by
  have hq : (if d.sup.dstep = 0 then t else t - t % d.sup.dstep) = t := by
    rcases Nat.le_one_iff_eq_zero_or_eq_one.mp h with h | h <;> simp [h, Nat.mod_one]
  unfold Dev.at
  simp only [hq]
  by_cases hl : d.dtime < t
  · simp only [hl, if_true]
  · simp only [hl, if_false]
    exact Nat.le_antisymm ht (Nat.le_of_not_lt hl)

/-! ### Faults -/

/-- A command that raises no fault settles as it is. -/
theorem Dev.settle_quiet {d : Dev} (h : d.flt.raised = []) (e : Env) : d.settle e = d := by
  have hd : d = { d with flt := { d.flt with raised := [] } } := by rw [← h]
  simp only [Dev.settle, h, List.isEmpty_nil, if_true, Dev.modFlt]
  exact hd.symm

/-! ### What the end of a command may touch -/

/-- Two devices that differ at most in TWP_EN, in the attention fields of the two-wire port and in the damaged bytes. -/
structure Near (d d' : Dev) : Prop where
  dtime : d'.dtime = d.dtime
  sup : d'.sup = d.sup
  nvi : ∃ x, d'.nvi = { d.nvi with twpEn := x }
  flt : d'.flt = d.flt
  memu : ∃ x, d'.memu = { d.memu with errs := x }
  clean : d.memu.errs = [] → d'.memu = d.memu
  paths : d'.paths = d.paths
  pos : d'.pos = d.pos
  adm : d'.adm = d.adm
  loft : d'.loft = d.loft
  banks : d'.banks = d.banks
  bst : d'.bst = d.bst
  pfi : d'.pfi = d.pfi
  ign : d'.ign = d.ign
  gate : d'.gate = d.gate
  diag : d'.diag = d.diag
  ce : d'.ce = d.ce
  ces : d'.ces = d.ces
  cnv : d'.cnv = d.cnv
  cnvs : d'.cnvs = d.cnvs
  recm : d'.recm = d.recm
  snap : d'.snap = d.snap
  tmu : d'.tmu = d.tmu
  pio : d'.pio = d.pio
  pios : d'.pios = d.pios
  can : d'.can = d.can
  rope : d'.rope = d.rope
  twp : ∃ v p q, d'.twp = { d.twp with attnEvt := v, attnPend := p, sentAt := q }
  writes : d'.writes = d.writes
  free : d'.free = d.free

theorem Near.refl (d : Dev) : Near d d := by
  constructor <;> first | rfl | exact fun _ => rfl | exact ⟨_, rfl⟩ | exact ⟨_, _, _, rfl⟩

theorem Near.trans {a b c : Dev} (h : Near a b) (g : Near b c) : Near a c where
  dtime := g.dtime.trans h.dtime
  sup := g.sup.trans h.sup
  nvi := by
    obtain ⟨x, hx⟩ := h.nvi
    obtain ⟨y, hy⟩ := g.nvi
    exact ⟨y, by rw [hy, hx]⟩
  flt := g.flt.trans h.flt
  memu := by
    obtain ⟨x, hx⟩ := h.memu
    obtain ⟨y, hy⟩ := g.memu
    exact ⟨y, by rw [hy, hx]⟩
  clean := fun e => by
    have hb := h.clean e
    rw [g.clean (by rw [hb]; exact e), hb]
  paths := g.paths.trans h.paths
  pos := g.pos.trans h.pos
  adm := g.adm.trans h.adm
  loft := g.loft.trans h.loft
  banks := g.banks.trans h.banks
  bst := g.bst.trans h.bst
  pfi := g.pfi.trans h.pfi
  ign := g.ign.trans h.ign
  gate := g.gate.trans h.gate
  diag := g.diag.trans h.diag
  ce := g.ce.trans h.ce
  ces := g.ces.trans h.ces
  cnv := g.cnv.trans h.cnv
  cnvs := g.cnvs.trans h.cnvs
  recm := g.recm.trans h.recm
  snap := g.snap.trans h.snap
  tmu := g.tmu.trans h.tmu
  pio := g.pio.trans h.pio
  pios := g.pios.trans h.pios
  can := g.can.trans h.can
  rope := g.rope.trans h.rope
  twp := by
    obtain ⟨v, p, q, hx⟩ := h.twp
    obtain ⟨v', p', q', hy⟩ := g.twp
    exact ⟨v', p', q', by rw [hy, hx]⟩
  writes := g.writes.trans h.writes
  free := g.free.trans h.free

theorem Near.ite {c : Prop} [Decidable c] {a x y : Dev} (hx : Near a x) (hy : Near a y) : Near a (if c then x else y) := by
  by_cases h : c
  · rw [if_pos h]; exact hx
  · rw [if_neg h]; exact hy

theorem near_attn (i : Nat) (d : Dev) : Near d (d.attn i) := by
  constructor <;> first | rfl | exact fun _ => rfl | exact ⟨_, rfl⟩ | exact ⟨_, _, _, rfl⟩

theorem near_twpEn (x : Bool) (d : Dev) : Near d { d with nvi := { d.nvi with twpEn := x } } := by
  constructor <;> first | rfl | exact fun _ => rfl | exact ⟨_, rfl⟩ | exact ⟨_, _, _, rfl⟩

theorem near_pend (x : Bool) (q : Option Ns) (d : Dev) : Near d { d with twp := { d.twp with attnPend := x, sentAt := q } } := by
  constructor <;> first | rfl | exact fun _ => rfl | exact ⟨_, rfl⟩ | exact ⟨_, _, _, rfl⟩

theorem near_clearErrs (a n : Nat) (d : Dev) : Near d (d.clearErrs a n) := by
  unfold Dev.clearErrs
  by_cases h : d.memu.errs.isEmpty
  · rw [if_pos h]; exact Near.refl d
  · rw [if_neg h]
    constructor <;> first | rfl | exact ⟨_, rfl⟩ | exact ⟨_, _, _, rfl⟩ | skip
    intro e
    exact absurd (by simp [e]) h

/-- The attention events touch TWP_EN and the attention fields of the two-wire port alone. -/
theorem near_attend (d b : Dev) : Near d (d.attend b) := by
  unfold Dev.attend
  extract_lets src x x1 x2 x3 thr x4 tw
  have h0 : Near d x := Near.ite (Near.refl d) (near_twpEn false d)
  have step : ∀ (c : Prop) [Decidable c] (i : Nat) (y : Dev), Near d y → Near d (if c then y.attn i else y) :=
    fun c _ i y hy => Near.ite (hy.trans (near_attn i y)) hy
  refine Near.ite h0 ?_
  have h4 : Near d x4 := step _ 4 x3 (step _ 3 x2 (step _ 2 x1 (step _ 1 x h0)))
  exact Near.ite (h4.trans (near_pend true none x4)) h4

/-- The bytes that a command writes are no longer damaged. -/
theorem near_clear (l : List MemOp) : ∀ (d : Dev), Near d (l.foldl (init := d) (fun d w => match w.range with
    | some (a, n) => d.clearErrs a n | none => d)) := by
  induction l with
  | nil => exact Near.refl
  | cons w l ih =>
    intro d
    simp only [List.foldl_cons]
    refine Near.trans ?_ (ih _)
    cases w.range with
    | none => exact Near.refl d
    | some x => exact near_clearErrs x.1 x.2 d

/-! ### A whole command -/

/-- The device after the body of a command. -/
def State.after (s : State) (t : Ns) (body : Env → Dev → Dev) : Dev := body s.env (s.dev.at t)

/-- Where no work is due, a command finds the state itself. -/
theorem State.due_rests {s : State} {t : Ns} (h : s.rests t) : s.due t = s := by
  unfold State.due
  cases hw : s.dev.pos.work with
  | nil => rfl
  | cons x l =>
    have hx : s.now t < x.1 := by simpa [State.rests, hw] using h
    exact if_neg (Nat.not_le_of_lt hx)

/-- Work that is done leaves the queue, the fuses and the canonical form. -/
theorem State.due_kept (s : State) (t : Ns) : (s.due t).pending = s.pending ∧ (s.due t).fuses = s.fuses
    ∧ (s.mems.wf = true → (s.due t).mems.wf = true) := by
  unfold State.due
  cases s.dev.pos.work with
  | nil => exact ⟨rfl, rfl, id⟩
  | cons x l =>
    simp only
    split
    · exact ⟨rfl, rfl, fun h => Mems.wf_foldl h _⟩
    · exact ⟨rfl, rfl, id⟩

/-- A command is its body on the state that the work due leaves. -/
theorem runAt_due (t : Ns) (body : Env → Dev → Dev) (s : State) : runAt t body s = .next (runBody t body (s.due t)) := rfl

theorem runAt_eq {t : Ns} {s : State} (h : s.rests t) (body : Env → Dev → Dev) :
    runAt t body s = .next (commit s (((s.after t body).settle s.env).attend s.dev)) := by
  rw [runAt_due, State.due_rests h]
  rfl

/-- Every command leaves the queue, the fuses and an invariant state. -/
theorem runAt_inv (t : Ns) (body : Env → Dev → Dev) (s : State) : ∃ s', runAt t body s = .next s' ∧ s'.pending = s.pending ∧
    s'.fuses = s.fuses ∧ s'.dev.settled ∧ (s.mems.wf = true → s'.mems.wf = true) := by
  obtain ⟨h1, h2, h3⟩ := s.due_kept t
  exact ⟨_, runAt_due t body s, h1, h2, ⟨rfl, rfl⟩, fun h => Mems.wf_foldl (h3 h) _⟩

/-- The state after a command, `d` being the device once the command's faults are settled: the writes of `d` are made,
and beside them only TWP_EN, the attention fields and the damaged bytes may differ from `d`. -/
structure Follows (s : State) (d : Dev) (s' : State) : Prop where
  pending : s'.pending = s.pending
  fuses : s'.fuses = s.fuses
  mems : s'.mems = d.writes.foldl (fun m w => w.apply m) s.mems
  dev : ∃ d', Near d d' ∧ s'.dev = { d' with writes := [], flt := { d'.flt with raised := [] } }

/-- A command ends as its device stands once its faults are settled. -/
theorem runAt_follows {t : Ns} {s : State} (hq : s.rests t) (body : Env → Dev → Dev) :
    ∃ s', runAt t body s = .next s' ∧ Follows s ((s.after t body).settle s.env) s' := by
  refine ⟨_, runAt_eq hq body, ?_⟩
  generalize (s.after t body).settle s.env = d
  have h := near_attend d s.dev
  generalize d.attend s.dev = x at h ⊢
  have h' := h.trans (near_clear x.writes x)
  refine ⟨rfl, rfl, ?_, _, h', rfl⟩
  show x.writes.foldl _ _ = _
  rw [h.writes]

/-- A command that raises no fault ends as its body leaves the device. -/
theorem runAt_quiet {t : Ns} {s : State} (hq : s.rests t) {body : Env → Dev → Dev} (h : (s.after t body).flt.raised = []) :
    ∃ s', runAt t body s = .next s' ∧ Follows s (s.after t body) s' := by
  have := runAt_follows hq body
  rwa [Dev.settle_quiet h s.env] at this

/-! ### One field of the device after a command -/

section
variable {s s' : State} {d : Dev} (h : Follows s d s')
include h

theorem Follows.dtime : s'.dev.dtime = d.dtime := by
  obtain ⟨x, hn, e⟩ := h.dev
  rw [e]
  exact hn.dtime

theorem Follows.sup : s'.dev.sup = d.sup := by
  obtain ⟨x, hn, e⟩ := h.dev
  rw [e]
  exact hn.sup

theorem Follows.paths : s'.dev.paths = d.paths := by
  obtain ⟨x, hn, e⟩ := h.dev
  rw [e]
  exact hn.paths

theorem Follows.pos : s'.dev.pos = d.pos := by
  obtain ⟨x, hn, e⟩ := h.dev
  rw [e]
  exact hn.pos

theorem Follows.adm : s'.dev.adm = d.adm := by
  obtain ⟨x, hn, e⟩ := h.dev
  rw [e]
  exact hn.adm

theorem Follows.loft : s'.dev.loft = d.loft := by
  obtain ⟨x, hn, e⟩ := h.dev
  rw [e]
  exact hn.loft

theorem Follows.banks : s'.dev.banks = d.banks := by
  obtain ⟨x, hn, e⟩ := h.dev
  rw [e]
  exact hn.banks

theorem Follows.bst : s'.dev.bst = d.bst := by
  obtain ⟨x, hn, e⟩ := h.dev
  rw [e]
  exact hn.bst

theorem Follows.pfi : s'.dev.pfi = d.pfi := by
  obtain ⟨x, hn, e⟩ := h.dev
  rw [e]
  exact hn.pfi

theorem Follows.ign : s'.dev.ign = d.ign := by
  obtain ⟨x, hn, e⟩ := h.dev
  rw [e]
  exact hn.ign

theorem Follows.gate : s'.dev.gate = d.gate := by
  obtain ⟨x, hn, e⟩ := h.dev
  rw [e]
  exact hn.gate

theorem Follows.diag : s'.dev.diag = d.diag := by
  obtain ⟨x, hn, e⟩ := h.dev
  rw [e]
  exact hn.diag

theorem Follows.ce : s'.dev.ce = d.ce := by
  obtain ⟨x, hn, e⟩ := h.dev
  rw [e]
  exact hn.ce

theorem Follows.ces : s'.dev.ces = d.ces := by
  obtain ⟨x, hn, e⟩ := h.dev
  rw [e]
  exact hn.ces

theorem Follows.cnv : s'.dev.cnv = d.cnv := by
  obtain ⟨x, hn, e⟩ := h.dev
  rw [e]
  exact hn.cnv

theorem Follows.cnvs : s'.dev.cnvs = d.cnvs := by
  obtain ⟨x, hn, e⟩ := h.dev
  rw [e]
  exact hn.cnvs

theorem Follows.recm : s'.dev.recm = d.recm := by
  obtain ⟨x, hn, e⟩ := h.dev
  rw [e]
  exact hn.recm

theorem Follows.snap : s'.dev.snap = d.snap := by
  obtain ⟨x, hn, e⟩ := h.dev
  rw [e]
  exact hn.snap

theorem Follows.tmu : s'.dev.tmu = d.tmu := by
  obtain ⟨x, hn, e⟩ := h.dev
  rw [e]
  exact hn.tmu

theorem Follows.pio : s'.dev.pio = d.pio := by
  obtain ⟨x, hn, e⟩ := h.dev
  rw [e]
  exact hn.pio

theorem Follows.pios : s'.dev.pios = d.pios := by
  obtain ⟨x, hn, e⟩ := h.dev
  rw [e]
  exact hn.pios

theorem Follows.can : s'.dev.can = d.can := by
  obtain ⟨x, hn, e⟩ := h.dev
  rw [e]
  exact hn.can

theorem Follows.rope : s'.dev.rope = d.rope := by
  obtain ⟨x, hn, e⟩ := h.dev
  rw [e]
  exact hn.rope

theorem Follows.free : s'.dev.free = d.free := by
  obtain ⟨x, hn, e⟩ := h.dev
  rw [e]
  exact hn.free

theorem Follows.writes : s'.dev.writes = [] := by
  obtain ⟨x, hn, e⟩ := h.dev
  rw [e]

theorem Follows.nvi : ∃ x, s'.dev.nvi = { d.nvi with twpEn := x } := by
  obtain ⟨x, hn, e⟩ := h.dev
  rw [e]
  exact hn.nvi

theorem Follows.twp : ∃ v p q, s'.dev.twp = { d.twp with attnEvt := v, attnPend := p, sentAt := q } := by
  obtain ⟨x, hn, e⟩ := h.dev
  rw [e]
  exact hn.twp

theorem Follows.memu : ∃ x, s'.dev.memu = { d.memu with errs := x } := by
  obtain ⟨x, hn, e⟩ := h.dev
  rw [e]
  exact hn.memu

theorem Follows.clean (hc : d.memu.errs = []) : s'.dev.memu = d.memu := by
  obtain ⟨x, hn, e⟩ := h.dev
  rw [e]
  exact hn.clean hc

theorem Follows.flt : s'.dev.flt = { d.flt with raised := [] } := by
  obtain ⟨x, hn, e⟩ := h.dev
  rw [e]
  exact congrArg (fun f : Flt => { f with raised := [] }) hn.flt

end

end Sys2Proof.Machine
end

