-- ==== Sys2Proof/Laws/Calc.lean ====
section
/-! SUPPORT. The calculation engines: reads of undamaged memory, the operation at PC, and what an operation that writes one
slot leaves. -/

namespace Sys2Proof.Machine

/-! ### Undamaged memory -/

theorem Dev.readWord_clean {d : Dev} (h : d.memu.errs = []) (b w : Nat) : d.readWord b w = (false, d) := by
  simp [Dev.readWord, h]

theorem Dev.readAt_clean {d : Dev} (h : d.memu.errs = []) (a : Nat) : d.readAt a = (false, d) := by
  simp only [Dev.readAt]
  exact Dev.readWord_clean h _ _

theorem Dev.tagDead_clean {d : Dev} (h : d.memu.deadTags = []) (i : Nat) : d.tagDead i = false := by
  simp [Dev.tagDead, h]

/-! ### What an engine reads -/

section
variable {s : State} {k : Fin 8} {t : Ns} (hc : s.clean)
include hc

theorem slotRead_clean (i : Nat) : Dev.slotRead s.env k i (s.dev.at t) = ((s.operand k i).1, (s.operand k i).2, false, s.dev.at t) := by
  obtain ⟨hi, he, hd⟩ := hc
  have he' : (s.dev.at t).memu.errs = [] := he
  have hd' : (s.dev.at t).memu.deadTags = [] := hd
  unfold Dev.slotRead State.operand
  simp only [Dev.at_ce]
  cases hf : s.dev.ce[k].pub.find? (·.1 == i) with
  | some x => rfl
  | none =>
    by_cases h : i < 16384
    · have h' : ¬ 16384 ≤ i := by omega
      simp only [h, h', if_true, if_false, Dev.readAt_clean he', Dev.tagDead_clean hd', Dev.readWord_clean he',
        Bool.false_eq_true]
      rfl
    · have h' : 16384 ≤ i := by omega
      simp only [h, h', if_true, if_false]

theorem slotReads_clean (l : List Nat) : Dev.slotReads s.env k l (s.dev.at t) = (l.map (s.operand k), false, s.dev.at t) := by
  induction l with
  | nil => rfl
  | cons i l ih => simp only [Dev.slotReads, slotRead_clean hc i, ih, List.map_cons]

theorem opAB_clean (raw : Bool) (w : W64) : Dev.opAB s.env k raw w (s.dev.at t)
    = (some (s.operand k (opA w), s.operandB k raw w), s.dev.at t) := by
  unfold Dev.opAB State.operandB
  simp only [slotRead_clean hc]
  split <;> rfl

/-- The operation at PC executes. -/
theorem ceOp_at {w : W64} {op : Nat} (f : W64 → Dev → Dev) (ha : s.engineAt k w) (hw : fld w 0 8 = op) :
    Dev.ceOp s.env k op f (s.dev.at t) = f w (s.dev.at t) := by
  obtain ⟨h1, h2, h3⟩ := ha
  have he : (s.dev.at t).memu.errs = [] := hc.2.1
  have hcond : (!((s.dev.at t).ce[k].state == .running || ((s.dev.at t).ce[k].state == .halted && (s.dev.at t).ce[k].stepReq))
      || !(s.dev.at t).sup.mode.engines || fld (s.env.mems.word (8 * (s.dev.at t).ce[k].pc)) 0 8 != op) = false := by
    have e1 : (s.dev.at t).ce = s.dev.ce := rfl
    have e2 : (s.dev.at t).sup = s.dev.sup := rfl
    have e3 : s.env.mems = s.mems := rfl
    rw [e1, e2, e3, h3, hw, h2]
    obtain h | ⟨h, h'⟩ := h1
    · simp [h, -Fin.getElem_fin]
    · simp [h, h', -Fin.getElem_fin]
  unfold Dev.ceOp
  simp only [hcond, Bool.false_eq_true, if_false, Dev.readAt_clean he]
  rw [show s.env.mems.word (8 * (s.dev.at t).ce[k].pc) = w from h3]

end

/-! ### What an operation writes -/

@[simp] theorem Ce.boundary_pc (now : Ns) (pc : Nat) (c : Ce) : (c.boundary now pc).pc = pc := by
  unfold Ce.boundary Ce.haltAt
  simp only
  split
  · rfl
  · split <;> rfl

@[simp] theorem Ce.boundary_pub (now : Ns) (pc : Nat) (c : Ce) : (c.boundary now pc).pub = c.pub := by
  unfold Ce.boundary Ce.haltAt
  simp only
  split
  · rfl
  · split <;> rfl

@[simp] theorem Ce.boundary_sat (now : Ns) (pc : Nat) (c : Ce) : (c.boundary now pc).sat = c.sat := by
  unfold Ce.boundary Ce.haltAt
  simp only
  split
  · rfl
  · split <;> rfl

@[simp] theorem Ce.boundary_sats (now : Ns) (pc : Nat) (c : Ce) : (c.boundary now pc).sats = c.sats := by
  unfold Ce.boundary Ce.haltAt
  simp only
  split
  · rfl
  · split <;> rfl

@[simp] theorem Ce.boundary_flag (now : Ns) (pc : Nat) (c : Ce) : (c.boundary now pc).flag = c.flag := by
  unfold Ce.boundary Ce.haltAt
  simp only
  split
  · rfl
  · split <;> rfl

@[simp] theorem Ce.boundary_div0 (now : Ns) (pc : Nat) (c : Ce) : (c.boundary now pc).div0 = c.div0 := by
  unfold Ce.boundary Ce.haltAt
  simp only
  split
  · rfl
  · split <;> rfl

/-- A device that differs from that of `s` at `t` at most in engine `k`. -/
structure OnlyCe (s : State) (t : Ns) (k : Fin 8) (d : Dev) : Prop where
  eq : ∃ c, d = { s.dev.at t with ce := upd s.dev.ce k fun _ => c }
  pub : d.ce[k].pub = s.dev.ce[k].pub
  pc : d.ce[k].pc = s.dev.ce[k].pc

theorem OnlyCe.refl (s : State) (t : Ns) (k : Fin 8) : OnlyCe s t k (s.dev.at t) :=
  ⟨⟨s.dev.ce[k], by
    have : upd s.dev.ce k (fun _ => s.dev.ce[k]) = s.dev.ce := by simp [upd]
    rw [this]
    rfl⟩, rfl, rfl⟩

theorem OnlyCe.mod {s : State} {t : Ns} {k : Fin 8} {d : Dev} (h : OnlyCe s t k d) (f : Ce → Ce)
    (hp : (f d.ce[k]).pub = d.ce[k].pub) (hq : (f d.ce[k]).pc = d.ce[k].pc) : OnlyCe s t k (d.modCe k f) := by
  obtain ⟨⟨c, hd⟩, h1, h2⟩ := h
  refine ⟨⟨f d.ce[k], ?_⟩, ?_, ?_⟩
  · rw [hd]
    simp [Dev.modCe, upd]
  · rw [Dev.modCe_ce, upd_same, hp, h1]
  · rw [Dev.modCe_ce, upd_same, hq, h2]

/-- One slot written by an engine that may write it, and the next operation. -/
theorem wrote_of_ceWrites {s : State} {t : Ns} {k : Fin 8} {body : Env → Dev → Dev} {d : Dev} {i : Nat} {v : W64} {g : Byte}
    (hc : s.clean) (hq : s.rests t) (hd : OnlyCe s t k d) (hm : s.mayWrite k i) (hb : s.after t body = d.ceWrites s.env k [(i, v, g)]) :
    ∃ s', runAt t body s = .next s' ∧ s.wrote k i v g s' ∧ s'.dev.ce[k].pc = s.dev.ce[k].pc + 1
      ∧ s'.dev.ce[k].sat = d.ce[k].sat ∧ s'.dev.ce[k].sats = d.ce[k].sats ∧ s'.dev.ce[k].flag = d.ce[k].flag
      ∧ s'.dev.ce[k].div0 = d.ce[k].div0 := by
  obtain ⟨⟨hwf, hraised, hwrites⟩, herrs, hdead⟩ := hc
  obtain ⟨hi, hwr, hcls⟩ := hm
  obtain ⟨⟨c, hdc⟩, hpub, hpc⟩ := hd
  have hdead' : d.tagDead i = false := by
    rw [hdc]
    exact Dev.tagDead_clean (d := { s.dev.at t with ce := upd s.dev.ce k fun _ => c }) hdead i
  have hattr : s.env.attr i = s.attr i := rfl
  have hnot : ¬ (16384 ≤ i ∨ (s.attr i).writer.toNat ≠ k.val ∨ (s.attr i).cls = 1) := by
    rintro (h | h | h)
    · omega
    · exact h hwr
    · exact hcls h
  by_cases h2 : (s.attr i).cls = 2
  · have hb' : s.after t body = (d.modCe k fun c => { c with pub := stagePub i v g c.pub }).ceNext k 1 := by
      rw [hb]
      simp only [Dev.ceWrites, Dev.slotWrite, hdead', Bool.false_and, Bool.false_eq_true, if_false, hattr]
      rw [if_neg hnot, if_pos h2]
    have hr : (s.after t body).flt.raised = [] := by
      rw [hb', hdc]
      exact hraised
    obtain ⟨s', hs', hf⟩ := runAt_quiet hq hr
    refine ⟨s', hs', ?_, ?_, ?_, ?_, ?_, ?_⟩
    · unfold State.wrote
      rw [if_pos h2]
      refine ⟨?_, ?_⟩
      · rw [hf.ce, hb']
        simp [Dev.ceNext, hpub, -Fin.getElem_fin]
      · rw [hf.mems, hb', hdc]
        show List.foldl _ _ s.dev.writes = _
        rw [hwrites]
        rfl
    all_goals
      rw [hf.ce, hb']
      simp [Dev.ceNext, hpc, -Fin.getElem_fin]
  · have hb' : s.after t body = (d.write (.slot i v (g ||| ((s.attr i).tag &&& 0x10)))).ceNext k 1 := by
      rw [hb]
      simp only [Dev.ceWrites, Dev.slotWrite, hdead', Bool.false_and, Bool.false_eq_true, if_false, hattr]
      rw [if_neg hnot, if_neg h2]
    have hr : (s.after t body).flt.raised = [] := by
      rw [hb', hdc]
      exact hraised
    obtain ⟨s', hs', hf⟩ := runAt_quiet hq hr
    have hmems : s'.mems = (MemOp.slot i v (g ||| ((s.attr i).tag &&& 0x10))).apply s.mems := by
      rw [hf.mems, hb', hdc]
      show List.foldl _ _ (s.dev.writes ++ [_]) = _
      rw [hwrites]
      rfl
    refine ⟨s', hs', ?_, ?_, ?_, ?_, ?_, ?_⟩
    · unfold State.wrote
      rw [if_neg h2]
      refine ⟨?_, ?_, ?_, ?_, ?_⟩
      · rw [hf.ce, hb']
        simp [Dev.ceNext, hpub, -Fin.getElem_fin]
      · rw [State.slot, hmems]
        exact word_slot hwf hi v _
      · rw [State.attr, hmems, attr_slot hwf hi, if_pos rfl]
        rfl
      · intro a ha
        rw [hmems]
        exact byte_slot hwf hi v _ a ha
      · intro j hj
        rw [State.attr, hmems, attr_slot hwf hi, if_neg hj]
        rfl
    all_goals
      rw [hf.ce, hb']
      simp [Dev.ceNext, hpc, -Fin.getElem_fin]

/-! ### Numbers -/

theorem qSat_eq (x : Int) : qSat x = (slotNumber x, outOfRange x) := by
  have h : clampI qMin qMax x = max (-(2 ^ 63)) (min (2 ^ 63 - 1) x) := by
    unfold clampI qMin qMax
    split
    · omega
    · split <;> omega
  rw [qSat, h]
  rfl

theorem qRound_eq (x : Int) : qRound x 32 = (slotNumber (round32 x), outOfRange (round32 x)) := by
  have h : divRound x (2 ^ 32) = round32 x := by
    unfold divRound round32
    omega
  rw [qRound, h, qSat_eq]

theorem slotNumber_toInt (v : W64) : slotNumber v.toInt = v := by
  have h1 := BitVec.toInt_lt (x := v)
  have h2 := BitVec.le_toInt (x := v)
  have h : max (-(2 ^ 63)) (min (2 ^ 63 - 1) v.toInt) = v.toInt := by omega
  rw [slotNumber, h, BitVec.ofInt_toInt]

theorem outOfRange_toInt (v : W64) : outOfRange v.toInt = false := by
  have h1 := BitVec.toInt_lt (x := v)
  have h2 := BitVec.le_toInt (x := v)
  simp [outOfRange]
  omega

/-- An operation that ends in a result in raw units. -/
theorem computed_of_opResult {s : State} {t : Ns} {k : Fin 8} {body : Env → Dev → Dev} {w : W64} {ops : List Byte} {x : Int}
    (hc : s.clean) (hq : s.rests t) (hm : s.mayWrite k (opDst w))
    (hb : s.after t body = Dev.opResult s.env k w ops (slotNumber x, outOfRange x) (s.dev.at t)) :
    ∃ s', runAt t body s = .next s' ∧ s.computed k w ops x s' := by
  unfold Dev.opResult at hb
  have hd : OnlyCe s t k (Dev.noteSat k (outOfRange x) (s.dev.at t)) := by
    unfold Dev.noteSat
    cases outOfRange x
    · exact OnlyCe.refl s t k
    · exact (OnlyCe.refl s t k).mod _ rfl rfl
  obtain ⟨s', h1, h2, h3, h4, h5, _⟩ := wrote_of_ceWrites hc hq hd hm hb
  refine ⟨s', h1, h2, h3, ?_, ?_⟩
  · rw [h4]
    unfold Dev.noteSat
    cases outOfRange x <;> simp [-Fin.getElem_fin]
  · rw [h5]
    unfold Dev.noteSat
    cases outOfRange x <;> simp [-Fin.getElem_fin]

/-- An operation that ends in a raw pattern. -/
theorem computedRaw_of_opResult {s : State} {t : Ns} {k : Fin 8} {body : Env → Dev → Dev} {w : W64} {ops : List Byte} {v : W64}
    (hc : s.clean) (hq : s.rests t) (hm : s.mayWrite k (opDst w))
    (hb : s.after t body = Dev.opResult s.env k w ops (v, false) (s.dev.at t)) :
    ∃ s', runAt t body s = .next s' ∧ s.computedRaw k w ops v s' := by
  unfold Dev.opResult at hb
  obtain ⟨s', h1, h2, h3, h4, h5, _⟩ := wrote_of_ceWrites hc hq (OnlyCe.refl s t k) hm hb
  exact ⟨s', h1, h2, h3, h4, h5⟩

/-- The body of an operation, executed at PC. -/
theorem after_ceOp {s : State} {k : Fin 8} {w : W64} {t : Ns} {op : Nat} {f : Env → W64 → Dev → Dev} {x : Dev}
    (hc : s.clean) (ha : s.engineAt k w) (hw : fld w 0 8 = op) (h : f s.env w (s.dev.at t) = x) :
    s.after t (fun e d => d.ceOp e k op (f e)) = x := by
  rw [← h]
  exact ceOp_at hc (f s.env) ha hw

end Sys2Proof.Machine
end

