-- ==== Sys2Proof/Laws/Exec.lean ====
section
/-! SUPPORT. The meaning of each command, by name: `exec` of a constructor is its meaning. -/

namespace Sys2Proof.Machine

open Sys2Proof

@[simp] theorem exec_powerOnReset (t : Ns) (s0 : State) : exec (.powerOnReset t) s0 = execPowerOnReset t s0 := rfl
@[simp] theorem exec_brownOutReset (t : Ns) (s0 : State) : exec (.brownOutReset t) s0 = execBrownOutReset t s0 := rfl
@[simp] theorem exec_pinReset (t : Ns) (s0 : State) : exec (.pinReset t) s0 = execPinReset t s0 := rfl
@[simp] theorem exec_resetRelease (t : Ns) (ropeRole asel0 asel1 : Bool) (boot : List Byte) (s0 : State) : exec (.resetRelease t ropeRole asel0 asel1 boot) s0 = execResetRelease t ropeRole asel0 asel1 boot s0 := rfl
@[simp] theorem exec_hardwareFillEnd (t : Ns) (lockUs : BitVec 16) (extClk posFlagged admFlagged : Bool) (s0 : State) : exec (.hardwareFillEnd t lockUs extClk posFlagged admFlagged) s0 = execHardwareFillEnd t lockUs extClk posFlagged admFlagged s0 := rfl
@[simp] theorem exec_sectionLoaded (t : Ns) (sec : FlashSection) (s0 : State) : exec (.sectionLoaded t sec) s0 = execSectionLoaded t sec s0 := rfl
@[simp] theorem exec_signatureVerified (t : Ns) (s0 : State) : exec (.signatureVerified t) s0 = execSignatureVerified t s0 := rfl
@[simp] theorem exec_initRecordDelay (t : Ns) (s0 : State) : exec (.initRecordDelay t) s0 = execInitRecordDelay t s0 := rfl
@[simp] theorem exec_finalisation (t : Ns) (s0 : State) : exec (.finalisation t) s0 = execFinalisation t s0 := rfl
@[simp] theorem exec_borWarning (t : Ns) (s0 : State) : exec (.borWarning t) s0 = execBorWarning t s0 := rfl
@[simp] theorem exec_vsupRecovery (t : Ns) (s0 : State) : exec (.vsupRecovery t) s0 = execVsupRecovery t s0 := rfl
@[simp] theorem exec_vgdUndervoltage (t : Ns) (s0 : State) : exec (.vgdUndervoltage t) s0 = execVgdUndervoltage t s0 := rfl
@[simp] theorem exec_vgdRecovery (t : Ns) (s0 : State) : exec (.vgdRecovery t) s0 = execVgdRecovery t s0 := rfl
@[simp] theorem exec_clkXtalLost (t : Ns) (s0 : State) : exec (.clkXtalLost t) s0 = execClkXtalLost t s0 := rfl
@[simp] theorem exec_clkPllLost (t : Ns) (s0 : State) : exec (.clkPllLost t) s0 = execClkPllLost t s0 := rfl
@[simp] theorem exec_lockstepMismatch (t : Ns) (unit : LockstepUnit) (s0 : State) : exec (.lockstepMismatch t unit) s0 = execLockstepMismatch t unit s0 := rfl
@[simp] theorem exec_supVcore (t : Ns) (s0 : State) : exec (.supVcore t) s0 = execSupVcore t s0 := rfl
@[simp] theorem exec_crankEdge (t : Ns) (e : WheelEdge) (s0 : State) : exec (.crankEdge t e) s0 = execCrankEdge t e s0 := rfl
@[simp] theorem exec_directionPulse (t : Ns) (input : Fin 6) (lead trail : Ns) (s0 : State) : exec (.directionPulse t input lead trail) s0 = execDirectionPulse t input lead trail s0 := rfl
@[simp] theorem exec_syntheticEdge (t : Ns) (s0 : State) : exec (.syntheticEdge t) s0 = execSyntheticEdge t s0 := rfl
@[simp] theorem exec_camEdge (t : Ns) (e : WheelEdge) (s0 : State) : exec (.camEdge t e) s0 = execCamEdge t e s0 := rfl
@[simp] theorem exec_toothTimeout (t : Ns) (s0 : State) : exec (.toothTimeout t) s0 = execToothTimeout t s0 := rfl
@[simp] theorem exec_stall (t : Ns) (s0 : State) : exec (.stall t) s0 = execStall t s0 := rfl
@[simp] theorem exec_edgeIssue (t : Ns) (src : EdgeSource) (s0 : State) : exec (.edgeIssue t src) s0 = execEdgeIssue t src s0 := rfl
@[simp] theorem exec_resultWrite (t : Ns) (src : ResultSource) (s0 : State) : exec (.resultWrite t src) s0 = execResultWrite t src s0 := rfl
@[simp] theorem exec_admNetSubmit (t : Ns) (p : Path) (s0 : State) : exec (.admNetSubmit t p) s0 = execAdmNetSubmit t p s0 := rfl
@[simp] theorem exec_standingSubmission (t : Ns) (s0 : State) : exec (.standingSubmission t) s0 = execStandingSubmission t s0 := rfl
@[simp] theorem exec_admissionDecision (t : Ns) (s0 : State) : exec (.admissionDecision t) s0 = execAdmissionDecision t s0 := rfl
@[simp] theorem exec_psqDrive (t : Ns) (k : Fin 4) (s0 : State) : exec (.psqDrive t k) s0 = execPsqDrive t k s0 := rfl
@[simp] theorem exec_untilAbove (t : Ns) (k : Fin 4) (s0 : State) : exec (.untilAbove t k) s0 = execUntilAbove t k s0 := rfl
@[simp] theorem exec_untilBelow (t : Ns) (k : Fin 4) (s0 : State) : exec (.untilBelow t k) s0 = execUntilBelow t k s0 := rfl
@[simp] theorem exec_wait (t : Ns) (k : Fin 4) (s0 : State) : exec (.wait t k) s0 = execWait t k s0 := rfl
@[simp] theorem exec_chop (t : Ns) (k : Fin 4) (s0 : State) : exec (.chop t k) s0 = execChop t k s0 := rfl
@[simp] theorem exec_chopToEnd (t : Ns) (k : Fin 4) (s0 : State) : exec (.chopToEnd t k) s0 = execChopToEnd t k s0 := rfl
@[simp] theorem exec_branch (t : Ns) (k : Fin 4) (cmpHi cmpLo : Bool) (s0 : State) : exec (.branch t k cmpHi cmpLo) s0 = execBranch t k cmpHi cmpLo s0 := rfl
@[simp] theorem exec_loop (t : Ns) (k : Fin 4) (s0 : State) : exec (.loop t k) s0 = execLoop t k s0 := rfl
@[simp] theorem exec_psqSample (t : Ns) (k : Fin 4) (s0 : State) : exec (.psqSample t k) s0 = execPsqSample t k s0 := rfl
@[simp] theorem exec_mark (t : Ns) (k : Fin 4) (s0 : State) : exec (.mark t k) s0 = execMark t k s0 := rfl
@[simp] theorem exec_psqEnd (t : Ns) (k : Fin 4) (s0 : State) : exec (.psqEnd t k) s0 = execPsqEnd t k s0 := rfl
@[simp] theorem exec_waitConditionMet (t : Ns) (k : Fin 4) (s0 : State) : exec (.waitConditionMet t k) s0 = execWaitConditionMet t k s0 := rfl
@[simp] theorem exec_waitTimeout (t : Ns) (k : Fin 4) (s0 : State) : exec (.waitTimeout t k) s0 = execWaitTimeout t k s0 := rfl
@[simp] theorem exec_chopSwitch (t : Ns) (k : Fin 4) (s0 : State) : exec (.chopSwitch t k) s0 = execChopSwitch t k s0 := rfl
@[simp] theorem exec_commandedEnd (t : Ns) (k : Fin 4) (s0 : State) : exec (.commandedEnd t k) s0 = execCommandedEnd t k s0 := rfl
@[simp] theorem exec_bankRelease (t : Ns) (k : Fin 4) (s0 : State) : exec (.bankRelease t k) s0 = execBankRelease t k s0 := rfl
@[simp] theorem exec_endTimeout (t : Ns) (k : Fin 4) (s0 : State) : exec (.endTimeout t k) s0 = execEndTimeout t k s0 := rfl
@[simp] theorem exec_bankSample (t : Ns) (k : Fin 4) (shuntNv : Nat) (s0 : State) : exec (.bankSample t k shuntNv) s0 = execBankSample t k shuntNv s0 := rfl
@[simp] theorem exec_vdsFault (t : Ns) (x : VdsTrip) (s0 : State) : exec (.vdsFault t x) s0 = execVdsFault t x s0 := rfl
@[simp] theorem exec_diOffStateTest (t : Ns) (k : Fin 4) (s0 : State) : exec (.diOffStateTest t k) s0 = execDiOffStateTest t k s0 := rfl
@[simp] theorem exec_pfiOffStateTest (t : Ns) (n : Fin 16) (s0 : State) : exec (.pfiOffStateTest t n) s0 = execPfiOffStateTest t n s0 := rfl
@[simp] theorem exec_offTestRead (t : Ns) (o : OffTest) (nodeMv vbatMv : Nat) (s0 : State) : exec (.offTestRead t o nodeMv vbatMv) s0 = execOffTestRead t o nodeMv vbatMv s0 := rfl
@[simp] theorem exec_drainDelayMeasured (t : Ns) (n : Fin 16) (isOn : Bool) (s0 : State) : exec (.drainDelayMeasured t n isOn) s0 = execDrainDelayMeasured t n isOn s0 := rfl
@[simp] theorem exec_drainDelaySaturated (t : Ns) (n : Fin 16) (isOn : Bool) (s0 : State) : exec (.drainDelaySaturated t n isOn) s0 = execDrainDelaySaturated t n isOn s0 := rfl
@[simp] theorem exec_softShutdownEnd (t : Ns) (n : Fin 16) (s0 : State) : exec (.softShutdownEnd t n) s0 = execSoftShutdownEnd t n s0 := rfl
@[simp] theorem exec_maxDwellGuard (t : Ns) (n : Fin 16) (s0 : State) : exec (.maxDwellGuard t n) s0 = execMaxDwellGuard t n s0 := rfl
@[simp] theorem exec_bstVoltUpdate (t : Ns) (vsUv : Nat) (s0 : State) : exec (.bstVoltUpdate t vsUv) s0 = execBstVoltUpdate t vsUv s0 := rfl
@[simp] theorem exec_bstCsPeak (t : Ns) (s0 : State) : exec (.bstCsPeak t) s0 = execBstCsPeak t s0 := rfl
@[simp] theorem exec_tOnMax (t : Ns) (s0 : State) : exec (.tOnMax t) s0 = execTOnMax t s0 := rfl
@[simp] theorem exec_tOffEnd (t : Ns) (s0 : State) : exec (.tOffEnd t) s0 = execTOffEnd t s0 := rfl
@[simp] theorem exec_boostOverVoltage (t : Ns) (s0 : State) : exec (.boostOverVoltage t) s0 = execBoostOverVoltage t s0 := rfl
@[simp] theorem exec_boostUnderVoltage (t : Ns) (s0 : State) : exec (.boostUnderVoltage t) s0 = execBoostUnderVoltage t s0 := rfl
@[simp] theorem exec_runStart (t : Ns) (k : Fin 8) (s0 : State) : exec (.runStart t k) s0 = execRunStart t k s0 := rfl
@[simp] theorem exec_overrun (t : Ns) (k : Fin 8) (i : Fin 17) (s0 : State) : exec (.overrun t k i) s0 = execOverrun t k i s0 := rfl
@[simp] theorem exec_ceEnd (t : Ns) (k : Fin 8) (s0 : State) : exec (.ceEnd t k) s0 = execCeEnd t k s0 := rfl
@[simp] theorem exec_mov (t : Ns) (k : Fin 8) (s0 : State) : exec (.mov t k) s0 = execMov t k s0 := rfl
@[simp] theorem exec_add (t : Ns) (k : Fin 8) (s0 : State) : exec (.add t k) s0 = execAdd t k s0 := rfl
@[simp] theorem exec_sub (t : Ns) (k : Fin 8) (s0 : State) : exec (.sub t k) s0 = execSub t k s0 := rfl
@[simp] theorem exec_mul (t : Ns) (k : Fin 8) (s0 : State) : exec (.mul t k) s0 = execMul t k s0 := rfl
@[simp] theorem exec_div (t : Ns) (k : Fin 8) (s0 : State) : exec (.div t k) s0 = execDiv t k s0 := rfl
@[simp] theorem exec_mac (t : Ns) (k : Fin 8) (s0 : State) : exec (.mac t k) s0 = execMac t k s0 := rfl
@[simp] theorem exec_min (t : Ns) (k : Fin 8) (s0 : State) : exec (.min t k) s0 = execMin t k s0 := rfl
@[simp] theorem exec_max (t : Ns) (k : Fin 8) (s0 : State) : exec (.max t k) s0 = execMax t k s0 := rfl
@[simp] theorem exec_clamp (t : Ns) (k : Fin 8) (s0 : State) : exec (.clamp t k) s0 = execClamp t k s0 := rfl
@[simp] theorem exec_abs (t : Ns) (k : Fin 8) (s0 : State) : exec (.abs t k) s0 = execAbs t k s0 := rfl
@[simp] theorem exec_neg (t : Ns) (k : Fin 8) (s0 : State) : exec (.neg t k) s0 = execNeg t k s0 := rfl
@[simp] theorem exec_and (t : Ns) (k : Fin 8) (s0 : State) : exec (.and t k) s0 = execAnd t k s0 := rfl
@[simp] theorem exec_or (t : Ns) (k : Fin 8) (s0 : State) : exec (.or t k) s0 = execOr t k s0 := rfl
@[simp] theorem exec_xor (t : Ns) (k : Fin 8) (s0 : State) : exec (.xor t k) s0 = execXor t k s0 := rfl
@[simp] theorem exec_shl (t : Ns) (k : Fin 8) (s0 : State) : exec (.shl t k) s0 = execShl t k s0 := rfl
@[simp] theorem exec_shr (t : Ns) (k : Fin 8) (s0 : State) : exec (.shr t k) s0 = execShr t k s0 := rfl
@[simp] theorem exec_cmp (t : Ns) (k : Fin 8) (s0 : State) : exec (.cmp t k) s0 = execCmp t k s0 := rfl
@[simp] theorem exec_sel (t : Ns) (k : Fin 8) (s0 : State) : exec (.sel t k) s0 = execSel t k s0 := rfl
@[simp] theorem exec_lut1 (t : Ns) (k : Fin 8) (s0 : State) : exec (.lut1 t k) s0 = execLut1 t k s0 := rfl
@[simp] theorem exec_lut2 (t : Ns) (k : Fin 8) (s0 : State) : exec (.lut2 t k) s0 = execLut2 t k s0 := rfl
@[simp] theorem exec_lut3 (t : Ns) (k : Fin 8) (s0 : State) : exec (.lut3 t k) s0 = execLut3 t k s0 := rfl
@[simp] theorem exec_lag (t : Ns) (k : Fin 8) (s0 : State) : exec (.lag t k) s0 = execLag t k s0 := rfl
@[simp] theorem exec_rate (t : Ns) (k : Fin 8) (s0 : State) : exec (.rate t k) s0 = execRate t k s0 := rfl
@[simp] theorem exec_integ (t : Ns) (k : Fin 8) (s0 : State) : exec (.integ t k) s0 = execInteg t k s0 := rfl
@[simp] theorem exec_pi (t : Ns) (k : Fin 8) (s0 : State) : exec (.pi t k) s0 = execPi t k s0 := rfl
@[simp] theorem exec_angt (t : Ns) (k : Fin 8) (s0 : State) : exec (.angt t k) s0 = execAngt t k s0 := rfl
@[simp] theorem exec_tang (t : Ns) (k : Fin 8) (s0 : State) : exec (.tang t k) s0 = execTang t k s0 := rfl
@[simp] theorem exec_req (t : Ns) (k : Fin 8) (s0 : State) : exec (.req t k) s0 = execReq t k s0 := rfl
@[simp] theorem exec_reqResult (t : Ns) (k : Fin 8) (s0 : State) : exec (.reqResult t k) s0 = execReqResult t k s0 := rfl
@[simp] theorem exec_jmpf (t : Ns) (k : Fin 8) (s0 : State) : exec (.jmpf t k) s0 = execJmpf t k s0 := rfl
@[simp] theorem exec_emitCanSignal (t : Ns) (k : Fin 8) (s0 : State) : exec (.emitCanSignal t k) s0 = execEmitCanSignal t k s0 := rfl
@[simp] theorem exec_emitTimerBuffer (t : Ns) (k : Fin 8) (s0 : State) : exec (.emitTimerBuffer t k) s0 = execEmitTimerBuffer t k s0 := rfl
@[simp] theorem exec_emitPioQueue (t : Ns) (k : Fin 8) (s0 : State) : exec (.emitPioQueue t k) s0 = execEmitPioQueue t k s0 := rfl
@[simp] theorem exec_emitNote (t : Ns) (k : Fin 8) (s0 : State) : exec (.emitNote t k) s0 = execEmitNote t k s0 := rfl
@[simp] theorem exec_emitUrgent (t : Ns) (k : Fin 8) (s0 : State) : exec (.emitUrgent t k) s0 = execEmitUrgent t k s0 := rfl
@[simp] theorem exec_halt (t : Ns) (p : Path) (k : Fin 8) (s0 : State) : exec (.halt t p k) s0 = execHalt t p k s0 := rfl
@[simp] theorem exec_step (t : Ns) (p : Path) (k : Fin 8) (s0 : State) : exec (.step t p k) s0 = execStep t p k s0 := rfl
@[simp] theorem exec_resume (t : Ns) (p : Path) (k : Fin 8) (s0 : State) : exec (.resume t p k) s0 = execResume t p k s0 := rfl
@[simp] theorem exec_slotValWrite (t : Ns) (p : Path) (v : W64) (s0 : State) : exec (.slotValWrite t p v) s0 = execSlotValWrite t p v s0 := rfl
@[simp] theorem exec_scanResult (t : Ns) (c : Fin 2) (sample : Ns) (x : Conversion) (ovr : Bool) (s0 : State) : exec (.scanResult t c sample x ovr) s0 = execScanResult t c sample x ovr s0 := rfl
@[simp] theorem exec_cnvScanWrite (t : Ns) (p : Path) (c : Fin 2) (v : W64) (s0 : State) : exec (.cnvScanWrite t p c v) s0 = execCnvScanWrite t p c v s0 := rfl
@[simp] theorem exec_urgentStart (t : Ns) (c : Fin 2) (s0 : State) : exec (.urgentStart t c) s0 = execUrgentStart t c s0 := rfl
@[simp] theorem exec_urgentResult (t : Ns) (c : Fin 2) (sample : Ns) (x : Conversion) (ovr : Bool) (s0 : State) : exec (.urgentResult t c sample x ovr) s0 = execUrgentResult t c sample x ovr s0 := rfl
@[simp] theorem exec_refOk (t : Ns) (s0 : State) : exec (.refOk t) s0 = execRefOk t s0 := rfl
@[simp] theorem exec_recordWrite (t : Ns) (s0 : State) : exec (.recordWrite t) s0 = execRecordWrite t s0 := rfl
@[simp] theorem exec_streamMaxWait (t : Ns) (i : Fin 2) (s0 : State) : exec (.streamMaxWait t i) s0 = execStreamMaxWait t i s0 := rfl
@[simp] theorem exec_streamFrameTransmitted (t : Ns) (i : Fin 2) (s0 : State) : exec (.streamFrameTransmitted t i) s0 = execStreamFrameTransmitted t i s0 := rfl
@[simp] theorem exec_clrLost (t : Ns) (p : Path) (s0 : State) : exec (.clrLost t p) s0 = execClrLost t p s0 := rfl
@[simp] theorem exec_discard (t : Ns) (p : Path) (s0 : State) : exec (.discard t p) s0 = execDiscard t p s0 := rfl
@[simp] theorem exec_snapInEdge (t : Ns) (rising : Bool) (samples : Nat) (s0 : State) : exec (.snapInEdge t rising samples) s0 = execSnapInEdge t rising samples s0 := rfl
@[simp] theorem exec_snapCmdTrig (t : Ns) (p : Path) (s0 : State) : exec (.snapCmdTrig t p) s0 = execSnapCmdTrig t p s0 := rfl
@[simp] theorem exec_mergeWindowClose (t : Ns) (s0 : State) : exec (.mergeWindowClose t) s0 = execMergeWindowClose t s0 := rfl
@[simp] theorem exec_snapOutEnd (t : Ns) (s0 : State) : exec (.snapOutEnd t) s0 = execSnapOutEnd t s0 := rfl
@[simp] theorem exec_tmuTick (t : Ns) (u : Fin 8) (s0 : State) : exec (.tmuTick t u) s0 = execTmuTick t u s0 := rfl
@[simp] theorem exec_captureEdge (t : Ns) (u : Fin 8) (c : Fin 4) (rising : Bool) (first : Ns) (s0 : State) : exec (.captureEdge t u c rising first) s0 = execCaptureEdge t u c rising first s0 := rfl
@[simp] theorem exec_tmuStart (t : Ns) (p : Path) (v : W64) (s0 : State) : exec (.tmuStart t p v) s0 = execTmuStart t p v s0 := rfl
@[simp] theorem exec_compareValueWrite (t : Ns) (p : Path) (v : W64) (s0 : State) : exec (.compareValueWrite t p v) s0 = execCompareValueWrite t p v s0 := rfl
@[simp] theorem exec_captureRead (t : Ns) (p : Path) (s0 : State) : exec (.captureRead t p) s0 = execCaptureRead t p s0 := rfl
@[simp] theorem exec_hold (t : Ns) (m : Fin 8) (levels : BitVec 16) (s0 : State) : exec (.hold t m levels) s0 = execHold t m levels s0 := rfl
@[simp] theorem exec_pioHoldEnd (t : Ns) (m : Fin 8) (levels : BitVec 16) (s0 : State) : exec (.pioHoldEnd t m levels) s0 = execPioHoldEnd t m levels s0 := rfl
@[simp] theorem exec_pioDrive (t : Ns) (m : Fin 8) (s0 : State) : exec (.pioDrive t m) s0 = execPioDrive t m s0 := rfl
@[simp] theorem exec_pioSample (t : Ns) (m : Fin 8) (levels : BitVec 16) (s0 : State) : exec (.pioSample t m levels) s0 = execPioSample t m levels s0 := rfl
@[simp] theorem exec_shift (t : Ns) (m : Fin 8) (s0 : State) : exec (.shift t m) s0 = execShift t m s0 := rfl
@[simp] theorem exec_take (t : Ns) (m : Fin 8) (s0 : State) : exec (.take t m) s0 = execTake t m s0 := rfl
@[simp] theorem exec_give (t : Ns) (m : Fin 8) (s0 : State) : exec (.give t m) s0 = execGive t m s0 := rfl
@[simp] theorem exec_pioBlockEnd (t : Ns) (m : Fin 8) (s0 : State) : exec (.pioBlockEnd t m) s0 = execPioBlockEnd t m s0 := rfl
@[simp] theorem exec_count (t : Ns) (m : Fin 8) (s0 : State) : exec (.count t m) s0 = execCount t m s0 := rfl
@[simp] theorem exec_go (t : Ns) (m : Fin 8) (levels : BitVec 16) (s0 : State) : exec (.go t m levels) s0 = execGo t m levels s0 := rfl
@[simp] theorem exec_stamp (t : Ns) (m : Fin 8) (s0 : State) : exec (.stamp t m) s0 = execStamp t m s0 := rfl
@[simp] theorem exec_raise (t : Ns) (m : Fin 8) (s0 : State) : exec (.raise t m) s0 = execRaise t m s0 := rfl
@[simp] theorem exec_load (t : Ns) (m : Fin 8) (s0 : State) : exec (.load t m) s0 = execLoad t m s0 := rfl
@[simp] theorem exec_pause (t : Ns) (m : Fin 8) (s0 : State) : exec (.pause t m) s0 = execPause t m s0 := rfl
@[simp] theorem exec_pioPauseEnd (t : Ns) (m : Fin 8) (s0 : State) : exec (.pioPauseEnd t m) s0 = execPioPauseEnd t m s0 := rfl
@[simp] theorem exec_pioInject (t : Ns) (p : Path) (v : W64) (s0 : State) : exec (.pioInject t p v) s0 = execPioInject t p v s0 := rfl
@[simp] theorem exec_pioRun (t : Ns) (p : Path) (run : Bool) (s0 : State) : exec (.pioRun t p run) s0 = execPioRun t p run s0 := rfl
@[simp] theorem exec_pioRestart (t : Ns) (p : Path) (s0 : State) : exec (.pioRestart t p) s0 = execPioRestart t p s0 := rfl
@[simp] theorem exec_pioTxqWrite (t : Ns) (p : Path) (v : W64) (s0 : State) : exec (.pioTxqWrite t p v) s0 = execPioTxqWrite t p v s0 := rfl
@[simp] theorem exec_pioRxqRead (t : Ns) (p : Path) (s0 : State) : exec (.pioRxqRead t p) s0 = execPioRxqRead t p s0 := rfl
@[simp] theorem exec_pioFlagSet (t : Ns) (p : Path) (v : W64) (s0 : State) : exec (.pioFlagSet t p v) s0 = execPioFlagSet t p v s0 := rfl
@[simp] theorem exec_pioSlotStale (t : Ns) (m : Fin 8) (s0 : State) : exec (.pioSlotStale t m) s0 = execPioSlotStale t m s0 := rfl
@[simp] theorem exec_canFrameReceived (t : Ns) (k : Fin 4) (f : CanFrame) (s0 : State) : exec (.canFrameReceived t k f) s0 = execCanFrameReceived t k f s0 := rfl
@[simp] theorem exec_readLo (t : Ns) (k : Fin 4) (s0 : State) : exec (.readLo t k) s0 = execReadLo t k s0 := rfl
@[simp] theorem exec_readHi (t : Ns) (k : Fin 4) (s0 : State) : exec (.readHi t k) s0 = execReadHi t k s0 := rfl
@[simp] theorem exec_svcRead (t : Ns) (k : Fin 4) (s0 : State) : exec (.svcRead t k) s0 = execSvcRead t k s0 := rfl
@[simp] theorem exec_writeLo (t : Ns) (k : Fin 4) (s0 : State) : exec (.writeLo t k) s0 = execWriteLo t k s0 := rfl
@[simp] theorem exec_writeHi (t : Ns) (k : Fin 4) (s0 : State) : exec (.writeHi t k) s0 = execWriteHi t k s0 := rfl
@[simp] theorem exec_svcWrite (t : Ns) (k : Fin 4) (s0 : State) : exec (.svcWrite t k) s0 = execSvcWrite t k s0 := rfl
@[simp] theorem exec_challenge (t : Ns) (k : Fin 4) (s0 : State) : exec (.challenge t k) s0 = execChallenge t k s0 := rfl
@[simp] theorem exec_auth (t : Ns) (k : Fin 4) (s0 : State) : exec (.auth t k) s0 = execAuth t k s0 := rfl
@[simp] theorem exec_close (t : Ns) (k : Fin 4) (s0 : State) : exec (.close t k) s0 = execClose t k s0 := rfl
@[simp] theorem exec_sessionTimeout (t : Ns) (k : Fin 4) (s0 : State) : exec (.sessionTimeout t k) s0 = execSessionTimeout t k s0 := rfl
@[simp] theorem exec_lockoutEnd (t : Ns) (k : Fin 4) (s0 : State) : exec (.lockoutEnd t k) s0 = execLockoutEnd t k s0 := rfl
@[simp] theorem exec_receiveStale (t : Ns) (k : Fin 4) (obj : Fin 128) (s0 : State) : exec (.receiveStale t k obj) s0 = execReceiveStale t k obj s0 := rfl
@[simp] theorem exec_transmitPeriod (t : Ns) (k : Fin 4) (obj : Fin 128) (s0 : State) : exec (.transmitPeriod t k obj) s0 = execTransmitPeriod t k obj s0 := rfl
@[simp] theorem exec_transmitOnChange (t : Ns) (k : Fin 4) (obj : Fin 128) (s0 : State) : exec (.transmitOnChange t k obj) s0 = execTransmitOnChange t k obj s0 := rfl
@[simp] theorem exec_canFrameTransmitted (t : Ns) (k : Fin 4) (sof : Ns) (r : TxOutcome) (s0 : State) : exec (.canFrameTransmitted t k sof r) s0 = execCanFrameTransmitted t k sof r s0 := rfl
@[simp] theorem exec_busOff (t : Ns) (k : Fin 4) (s0 : State) : exec (.busOff t k) s0 = execBusOff t k s0 := rfl
@[simp] theorem exec_busOffRecovery (t : Ns) (k : Fin 4) (s0 : State) : exec (.busOffRecovery t k) s0 = execBusOffRecovery t k s0 := rfl
@[simp] theorem exec_recover (t : Ns) (p : Path) (k : Fin 4) (s0 : State) : exec (.recover t p k) s0 = execRecover t p k s0 := rfl
@[simp] theorem exec_canWakeMatch (t : Ns) (k : Fin 4) (ide : Bool) (id : BitVec 29) (s0 : State) : exec (.canWakeMatch t k ide id) s0 = execCanWakeMatch t k ide id s0 := rfl
@[simp] theorem exec_ropeFrameSend (t : Ns) (s0 : State) : exec (.ropeFrameSend t) s0 = execRopeFrameSend t s0 := rfl
@[simp] theorem exec_ropeFrameReceived (t : Ns) (f : RopeFrame) (s0 : State) : exec (.ropeFrameReceived t f) s0 = execRopeFrameReceived t f s0 := rfl
@[simp] theorem exec_ropeLost (t : Ns) (s0 : State) : exec (.ropeLost t) s0 = execRopeLost t s0 := rfl
@[simp] theorem exec_mirrorDefault (t : Ns) (s0 : State) : exec (.mirrorDefault t) s0 = execMirrorDefault t s0 := rfl
@[simp] theorem exec_twpProbe (t : Ns) (adr : BitVec 7) (s0 : State) : exec (.twpProbe t adr) s0 = execTwpProbe t adr s0 := rfl
@[simp] theorem exec_twpRegisterWrite (t : Ns) (adr : BitVec 7) (bytes : List Byte) (stop : Bool) (s0 : State) : exec (.twpRegisterWrite t adr bytes stop) s0 = execTwpRegisterWrite t adr bytes stop s0 := rfl
@[simp] theorem exec_twpRegisterRead (t : Ns) (adr : BitVec 7) (n : Nat) (stop : Bool) (s0 : State) : exec (.twpRegisterRead t adr n stop) s0 = execTwpRegisterRead t adr n stop s0 := rfl
@[simp] theorem exec_twpLogRead (t : Ns) (adr : BitVec 7) (n : Nat) (s0 : State) : exec (.twpLogRead t adr n) s0 = execTwpLogRead t adr n s0 := rfl
@[simp] theorem exec_twpLogWrite (t : Ns) (adr : BitVec 7) (bytes : List Byte) (s0 : State) : exec (.twpLogWrite t adr bytes) s0 = execTwpLogWrite t adr bytes s0 := rfl
@[simp] theorem exec_twpTimeout (t : Ns) (s0 : State) : exec (.twpTimeout t) s0 = execTwpTimeout t s0 := rfl
@[simp] theorem exec_attentionRequest (t : Ns) (sclFell : Bool) (s0 : State) : exec (.attentionRequest t sclFell) s0 = execAttentionRequest t sclFell s0 := rfl
@[simp] theorem exec_attnRepeat (a : AttnPulse) (s0 : State) : exec (.attnRepeat a) s0 = execAttnRepeat a s0 := rfl
@[simp] theorem exec_bridgeRead (t : Ns) (p : Path) (len : BitVec 9) (addr : BitVec 21) (s0 : State) : exec (.bridgeRead t p len addr) s0 = execBridgeRead t p len addr s0 := rfl
@[simp] theorem exec_program (t : Ns) (p : Path) (len : BitVec 9) (addr : BitVec 21) (s0 : State) : exec (.program t p len addr) s0 = execProgram t p len addr s0 := rfl
@[simp] theorem exec_erase4k (t : Ns) (p : Path) (addr : BitVec 21) (s0 : State) : exec (.erase4k t p addr) s0 = execErase4k t p addr s0 := rfl
@[simp] theorem exec_erase64k (t : Ns) (p : Path) (addr : BitVec 21) (s0 : State) : exec (.erase64k t p addr) s0 = execErase64k t p addr s0 := rfl
@[simp] theorem exec_verify (t : Ns) (p : Path) (addr : BitVec 21) (s0 : State) : exec (.verify t p addr) s0 = execVerify t p addr s0 := rfl
@[simp] theorem exec_bridgeStatusPoll (t : Ns) (busy : Bool) (s0 : State) : exec (.bridgeStatusPoll t busy) s0 = execBridgeStatusPoll t busy s0 := rfl
@[simp] theorem exec_bridgeOperationDone (t : Ns) (r : BridgeResult) (s0 : State) : exec (.bridgeOperationDone t r) s0 = execBridgeOperationDone t r s0 := rfl
@[simp] theorem exec_bridgeTimeout (t : Ns) (s0 : State) : exec (.bridgeTimeout t) s0 = execBridgeTimeout t s0 := rfl
@[simp] theorem exec_nviBrDataAccess (t : Ns) (p : Path) (w : Option W64) (s0 : State) : exec (.nviBrDataAccess t p w) s0 = execNviBrDataAccess t p w s0 := rfl
@[simp] theorem exec_softwareReset (t : Ns) (p : Path) (key : Byte) (s0 : State) : exec (.softwareReset t p key) s0 = execSoftwareReset t p key s0 := rfl
@[simp] theorem exec_restart (t : Ns) (p : Path) (key : Byte) (posFlagged admFlagged : Bool) (s0 : State) : exec (.restart t p key posFlagged admFlagged) s0 = execRestart t p key posFlagged admFlagged s0 := rfl
@[simp] theorem exec_enterService (t : Ns) (p : Path) (key : Byte) (s0 : State) : exec (.enterService t p key) s0 = execEnterService t p key s0 := rfl
@[simp] theorem exec_endAfterrun (t : Ns) (p : Path) (key : Byte) (s0 : State) : exec (.endAfterrun t p key) s0 = execEndAfterrun t p key s0 := rfl
@[simp] theorem exec_keyOff (t : Ns) (s0 : State) : exec (.keyOff t) s0 = execKeyOff t s0 := rfl
@[simp] theorem exec_keyOn (t : Ns) (s0 : State) : exec (.keyOn t) s0 = execKeyOn t s0 := rfl
@[simp] theorem exec_afterrunEnd (t : Ns) (s0 : State) : exec (.afterrunEnd t) s0 = execAfterrunEnd t s0 := rfl
@[simp] theorem exec_arMax (t : Ns) (s0 : State) : exec (.arMax t) s0 = execArMax t s0 := rfl
@[simp] theorem exec_wake (t : Ns) (sources : List WakeSource) (s0 : State) : exec (.wake t sources) s0 = execWake t sources s0 := rfl
@[simp] theorem exec_stop1s (t : Ns) (s0 : State) : exec (.stop1s t) s0 = execStop1s t s0 := rfl
@[simp] theorem exec_aliveToggle (t : Ns) (s0 : State) : exec (.aliveToggle t) s0 = execAliveToggle t s0 := rfl
@[simp] theorem exec_fltForceKey (t : Ns) (p : Path) (v : W64) (s0 : State) : exec (.fltForceKey t p v) s0 = execFltForceKey t p v s0 := rfl
@[simp] theorem exec_fltForce (t : Ns) (p : Path) (v : W64) (s0 : State) : exec (.fltForce t p v) s0 = execFltForce t p v s0 := rfl
@[simp] theorem exec_forceDisarm (t : Ns) (p : Path) (s0 : State) : exec (.forceDisarm t p) s0 = execForceDisarm t p s0 := rfl
@[simp] theorem exec_firstFaultClear (t : Ns) (p : Path) (s0 : State) : exec (.firstFaultClear t p) s0 = execFirstFaultClear t p s0 := rfl
@[simp] theorem exec_fltDisClear (t : Ns) (p : Path) (v : W64) (s0 : State) : exec (.fltDisClear t p v) s0 = execFltDisClear t p v s0 := rfl
@[simp] theorem exec_diagDisabledClear (t : Ns) (p : Path) (v : W64) (s0 : State) : exec (.diagDisabledClear t p v) s0 = execDiagDisabledClear t p v s0 := rfl
@[simp] theorem exec_scrubStep (t : Ns) (upsets : List Upset) (s0 : State) : exec (.scrubStep t upsets) s0 = execScrubStep t upsets s0 := rfl
@[simp] theorem exec_memTestWriteCoded (t : Ns) (p : Path) (word : Fin 16) (flipAp : Bool) (s0 : State) : exec (.memTestWriteCoded t p word flipAp) s0 = execMemTestWriteCoded t p word flipAp s0 := rfl
@[simp] theorem exec_memTestWriteRaw (t : Ns) (p : Path) (word : Fin 16) (flipAp : Bool) (s0 : State) : exec (.memTestWriteRaw t p word flipAp) s0 = execMemTestWriteRaw t p word flipAp s0 := rfl
@[simp] theorem exec_memTestRead (t : Ns) (p : Path) (word : Fin 16) (flipAp : Bool) (s0 : State) : exec (.memTestRead t p word flipAp) s0 = execMemTestRead t p word flipAp s0 := rfl
@[simp] theorem exec_pageWrite (t : Ns) (p : Path) (v : W64) (s0 : State) : exec (.pageWrite t p v) s0 = execPageWrite t p v s0 := rfl
@[simp] theorem exec_posResidClr (t : Ns) (p : Path) (s0 : State) : exec (.posResidClr t p) s0 = execPosResidClr t p s0 := rfl
@[simp] theorem exec_registerWrite (t : Ns) (p : Path) (addr : BitVec 16) (v : W64) (s0 : State) : exec (.registerWrite t p addr v) s0 = execRegisterWrite t p addr v s0 := rfl
@[simp] theorem exec_canBusError (t : Ns) (k : Fin 4) (e : RxError) (s0 : State) : exec (.canBusError t k e) s0 = execCanBusError t k e s0 := rfl
@[simp] theorem exec_imageHeaderRead (t : Ns) (boot header : List Byte) (s0 : State) : exec (.imageHeaderRead t boot header) s0 = execImageHeaderRead t boot header s0 := rfl

end Sys2Proof.Machine
end

