-- ==== Sys2Proof/Laws/Fault.lean ====
section
/-! SUPPORT. A command that raises one fault whose reaction is the FAULT_N pin alone, or none: the fault is counted, captured
or merged and recorded, and nothing else of the device changes. -/

namespace Sys2Proof.Machine

/-- Two devices that differ at most in the fault unit, the records, the snapshots and the attention fields. -/
structure Noted (d d' : Dev) : Prop where
  dtime : d'.dtime = d.dtime
  sup : d'.sup = d.sup
  nvi : d'.nvi = d.nvi
  memu : d'.memu = d.memu
  paths : d'.paths = d.paths
  pos : d'.pos = d.pos
  adm : d'.adm = d.adm
  loft : d'.loft = d.loft
  banks : d'.banks = d.banks
  bst : d'.bst = d.bst
  pfi : d'.pfi = d.pfi
  ign : d'.ign = d.ign
  gate : d'.gate = d.gate
  diag : d'.diag = d.diag
  ce : d'.ce = d.ce
  ces : d'.ces = d.ces
  cnv : d'.cnv = d.cnv
  cnvs : d'.cnvs = d.cnvs
  tmu : d'.tmu = d.tmu
  pio : d'.pio = d.pio
  pios : d'.pios = d.pios
  can : d'.can = d.can
  rope : d'.rope = d.rope
  twp : ∃ v, d'.twp = { d.twp with attnEvt := v }
  writes : d'.writes = d.writes
  free : d'.free = d.free
  raised : d'.flt.raised = d.flt.raised
  react : d'.flt.react = d.flt.react
  dis : d'.flt.dis = d.flt.dis

theorem Noted.refl (d : Dev) : Noted d d := by
  constructor <;> first | rfl | exact ⟨_, rfl⟩

theorem Noted.trans {a b c : Dev} (h : Noted a b) (g : Noted b c) : Noted a c where
  dtime := g.dtime.trans h.dtime
  sup := g.sup.trans h.sup
  nvi := g.nvi.trans h.nvi
  memu := g.memu.trans h.memu
  paths := g.paths.trans h.paths
  pos := g.pos.trans h.pos
  adm := g.adm.trans h.adm
  loft := g.loft.trans h.loft
  banks := g.banks.trans h.banks
  bst := g.bst.trans h.bst
  pfi := g.pfi.trans h.pfi
  ign := g.ign.trans h.ign
  gate := g.gate.trans h.gate
  diag := g.diag.trans h.diag
  ce := g.ce.trans h.ce
  ces := g.ces.trans h.ces
  cnv := g.cnv.trans h.cnv
  cnvs := g.cnvs.trans h.cnvs
  tmu := g.tmu.trans h.tmu
  pio := g.pio.trans h.pio
  pios := g.pios.trans h.pios
  can := g.can.trans h.can
  rope := g.rope.trans h.rope
  twp := by
    obtain ⟨v, hv⟩ := h.twp
    obtain ⟨u, hu⟩ := g.twp
    exact ⟨u, by rw [hu, hv]⟩
  writes := g.writes.trans h.writes
  free := g.free.trans h.free
  raised := g.raised.trans h.raised
  react := g.react.trans h.react
  dis := g.dis.trans h.dis

theorem Noted.ite {c : Prop} [Decidable c] {a x y : Dev} (hx : Noted a x) (hy : Noted a y) : Noted a (if c then x else y) := by
  by_cases h : c
  · rw [if_pos h]; exact hx
  · rw [if_neg h]; exact hy

/-- A change of the fault unit that keeps what is raised, configured and disabled. -/
theorem noted_modFlt {f : Flt → Flt} (d : Dev) (h : (f d.flt).raised = d.flt.raised) (g : (f d.flt).react = d.flt.react)
    (k : (f d.flt).dis = d.flt.dis) : Noted d (d.modFlt f) := by
  constructor <;> first | rfl | exact h | exact g | exact k | exact ⟨_, rfl⟩

theorem noted_attn (i : Nat) (d : Dev) : Noted d (d.attn i) := by
  constructor <;> first | rfl | exact ⟨_, rfl⟩

theorem noted_present (r : Rec) (d : Dev) : Noted d (d.present r) := by
  unfold Dev.present
  refine Noted.ite ?_ ?_ <;> constructor <;> first | rfl | exact ⟨_, rfl⟩

theorem noted_snapshot (i : Nat) (c : BitVec 16) (x : W64) (n : BitVec 16) (d : Dev) : Noted d (d.snapshot i c x n) := by
  unfold Dev.snapshot
  refine Noted.ite (Noted.refl d) (Noted.ite ?_ ?_) <;> constructor <;> first | rfl | exact ⟨_, rfl⟩

theorem noted_count (s : Nat) (d : Dev) : Noted d (d.countFault s) := by
  unfold Dev.countFault
  by_cases h : s < 64
  · rw [dif_pos h]
    exact noted_modFlt d rfl rfl rfl
  · rw [dif_neg h]
    exact Noted.refl d

theorem noted_capture (r : FaultReq) (c n : Nat) (d : Dev) : Noted d (d.capture r c n) := by
  unfold Dev.capture
  refine Noted.ite (noted_modFlt d rfl rfl rfl) ?_
  exact ((noted_modFlt d rfl rfl rfl).trans (noted_present _ _)).trans (noted_attn _ _)

/-- A fault reported: the fault unit, the records, the snapshots and the attention fields. -/
theorem noted_report (r : FaultReq) (d : Dev) : Noted d (d.report r) := by
  unfold Dev.report
  refine Noted.ite ?_ ?_
  · refine ((noted_count r.source d).trans (Noted.ite ?_ (Noted.refl _))).trans (noted_snapshot _ _ _ _ _)
    exact noted_present _ _
  · refine ((noted_count r.source d).trans (Noted.ite ?_ (Noted.refl _))).trans
      ((noted_capture _ _ _ _).trans (noted_snapshot _ _ _ _ _))
    exact noted_modFlt _ rfl rfl rfl

/-! ### What a report leaves in the fault unit -/

@[simp] theorem present_flt (r : Rec) (d : Dev) : (d.present r).flt = d.flt := by
  unfold Dev.present
  simp only
  split <;> rfl

@[simp] theorem snapshot_flt (i : Nat) (c : BitVec 16) (x : W64) (n : BitVec 16) (d : Dev) : (d.snapshot i c x n).flt = d.flt := by
  unfold Dev.snapshot
  split
  · rfl
  · simp only
    split <;> rfl

@[simp] theorem attn_flt (i : Nat) (d : Dev) : (d.attn i).flt = d.flt := rfl

theorem capture_flt (r : FaultReq) (c n : Nat) (d : Dev) : (d.capture r c n).flt.valid = true
    ∧ (d.capture r c n).flt.cnt = d.flt.cnt ∧ (d.flt.valid = false → (d.capture r c n).flt.source = r.source
      ∧ (d.capture r c n).flt.cls = c ∧ (d.capture r c n).flt.reaction = n ∧ (d.capture r c n).flt.ctrl = r.ctrl
      ∧ (d.capture r c n).flt.merged = 0 ∧ (d.capture r c n).flt.mergeCnt = 0)
    ∧ (d.flt.valid = true → (d.capture r c n).flt.source = d.flt.source
      ∧ (d.capture r c n).flt.merged = d.flt.merged ||| putB r.source true
      ∧ (d.capture r c n).flt.mergeCnt = satN 65535 (d.flt.mergeCnt + 1)) := by
  unfold Dev.capture
  by_cases h : d.flt.valid = true
  · simp [h]
  · simp [h, Dev.faultRecord]

/-- A contained or fatal fault is counted and is captured as the first one, or merged into it (R395 to R397). -/
theorem report_flt {r : FaultReq} {d : Dev} (hc : ¬ srcClass r.source < 2) : (d.report r).flt.valid = true
    ∧ (d.report r).flt.cnt = (d.countFault r.source).flt.cnt ∧ (d.flt.valid = false → (d.report r).flt.source = r.source
      ∧ (d.report r).flt.cls = srcClass r.source ∧ (d.report r).flt.reaction = (r.resolve (d.reactionOf r)).1
      ∧ (d.report r).flt.ctrl = r.ctrl ∧ (d.report r).flt.merged = 0 ∧ (d.report r).flt.mergeCnt = 0)
    ∧ (d.flt.valid = true → (d.report r).flt.source = d.flt.source
      ∧ (d.report r).flt.merged = d.flt.merged ||| putB r.source true
      ∧ (d.report r).flt.mergeCnt = satN 65535 (d.flt.mergeCnt + 1)) := by
  have hv : (d.countFault r.source).flt.valid = d.flt.valid ∧ (d.countFault r.source).flt.merged = d.flt.merged
      ∧ (d.countFault r.source).flt.mergeCnt = d.flt.mergeCnt ∧ (d.countFault r.source).flt.source = d.flt.source := by
    unfold Dev.countFault
    split <;> simp
  unfold Dev.report
  simp only [hc, if_false, snapshot_flt]
  generalize hx : d.countFault r.source = x at hv ⊢
  obtain ⟨h1, h2, h3, h4⟩ := hv
  have key : ∀ y : Dev, y.flt.valid = x.flt.valid → y.flt.cnt = x.flt.cnt → y.flt.merged = x.flt.merged →
      y.flt.mergeCnt = x.flt.mergeCnt → y.flt.source = x.flt.source →
      (y.capture r (srcClass r.source) (r.resolve (d.reactionOf r)).1).flt.valid = true
      ∧ (y.capture r (srcClass r.source) (r.resolve (d.reactionOf r)).1).flt.cnt = x.flt.cnt
      ∧ (d.flt.valid = false → (y.capture r (srcClass r.source) (r.resolve (d.reactionOf r)).1).flt.source = r.source
        ∧ (y.capture r (srcClass r.source) (r.resolve (d.reactionOf r)).1).flt.cls = srcClass r.source
        ∧ (y.capture r (srcClass r.source) (r.resolve (d.reactionOf r)).1).flt.reaction = (r.resolve (d.reactionOf r)).1
        ∧ (y.capture r (srcClass r.source) (r.resolve (d.reactionOf r)).1).flt.ctrl = r.ctrl
        ∧ (y.capture r (srcClass r.source) (r.resolve (d.reactionOf r)).1).flt.merged = 0
        ∧ (y.capture r (srcClass r.source) (r.resolve (d.reactionOf r)).1).flt.mergeCnt = 0)
      ∧ (d.flt.valid = true → (y.capture r (srcClass r.source) (r.resolve (d.reactionOf r)).1).flt.source = d.flt.source
        ∧ (y.capture r (srcClass r.source) (r.resolve (d.reactionOf r)).1).flt.merged = d.flt.merged ||| putB r.source true
        ∧ (y.capture r (srcClass r.source) (r.resolve (d.reactionOf r)).1).flt.mergeCnt = satN 65535 (d.flt.mergeCnt + 1)) := by
    intro y e1 e2 e3 e4 e5
    obtain ⟨c1, c2, c3, c4⟩ := capture_flt r (srcClass r.source) (r.resolve (d.reactionOf r)).1 y
    rw [e1, h1] at c3 c4
    rw [e3, h2, e4, h3, e5, h4] at c4
    exact ⟨c1, c2.trans e2, c3, c4⟩
  split
  · exact key _ rfl rfl rfl rfl rfl
  · exact key _ rfl rfl rfl rfl rfl

/-- The report of a contained source, as claims name it. -/
theorem reported_of {s s' : State} {d : Dev} {r : FaultReq} {src : Fin 64} (hsrc : r.source = src.val)
    (hc : ¬ srcClass r.source < 2)
    (hd : d.flt.cnt = s.dev.flt.cnt ∧ d.flt.valid = s.dev.flt.valid ∧ d.flt.merged = s.dev.flt.merged
      ∧ d.flt.source = s.dev.flt.source)
    (h : s'.dev.flt = { (d.report r).flt with raised := [] }) : s.reported src s' := by
  obtain ⟨h1, h2, h3, h4⟩ := report_flt (d := d) hc
  obtain ⟨e1, e2, e3, e4⟩ := hd
  unfold State.reported
  rw [h]
  refine ⟨?_, h1, ?_, ?_⟩
  · show (d.report r).flt.cnt[src] = _
    rw [h2]
    unfold Dev.countFault
    rw [dif_pos (by omega)]
    have hs : (⟨r.source, by omega⟩ : Fin 64) = src := Fin.ext hsrc
    rw [hs]
    simp [-Fin.getElem_fin, e1]
  · intro hv
    have hx := h3 (e2.trans hv)
    exact ⟨hx.1.trans hsrc, hx.2.2.2.2.1⟩
  · intro hv
    have hx := h4 (e2.trans hv)
    refine ⟨hx.1.trans e4, ?_⟩
    show bit (d.report r).flt.merged src.val = true
    rw [hx.2.1, hsrc]
    have hlt := src.isLt
    simp only [bit, putB, if_true, BitVec.getLsbD_or, BitVec.getLsbD_ofNat, Nat.testBit_two_pow_self]
    simp [hlt]

/-! ### Settling -/

/-- Faults that ask for no reaction beside FAULT_N are followed by none. -/
theorem reactAll_none (e : Env) (l : List FaultReq) (d : Dev)
    (h : ∀ r ∈ l, srcClass r.source < 2 ∨ (r.resolve (d.reactionOf r)).1 < 2) : d.reactAll e l = d := by
  have quiet : ∀ (due : List (Nat × Nat × ReactObj)), (∀ x ∈ due, x.2.1 < 2) → ∀ c, 2 ≤ c →
      due.foldl (init := d) (fun d x => if x.2.1 = c then d.react e x.1 c x.2.2 else d) = d := by
    intro due
    induction due with
    | nil => intros; rfl
    | cons y due ih =>
      intro hy c hc
      have := hy y (by simp)
      rw [List.foldl_cons, if_neg (by omega)]
      exact ih (fun x hx => hy x (by simp [hx])) c hc
  unfold Dev.reactAll
  simp only
  generalize hd : l.filterMap _ = due
  have hdue : ∀ x ∈ due, x.2.1 < 2 := by
    intro x hx
    rw [← hd, List.mem_filterMap] at hx
    obtain ⟨r, hr, hx⟩ := hx
    split at hx
    · cases hx
    · next hn =>
      cases hx
      exact (h r hr).resolve_left fun hc => hn (.inl hc)
  simp [quiet due hdue]

/-- One fault that asks for no reaction beside FAULT_N, or for none at all. -/
theorem settle_one {d : Dev} {r : FaultReq} (h : d.flt.raised = [r]) (e : Env)
    (hr : srcClass r.source < 2 ∨ d.reactionOf r = 0 ∨ d.reactionOf r = 1) :
    d.settle e = (d.modFlt fun f => { f with raised := [] }).report r := by
  have hround : d.round e = (d.modFlt fun f => { f with raised := [] }).report r := by
    unfold Dev.round
    simp only [h, List.foldl_cons, List.foldl_nil, faultInsert]
    refine reactAll_none e [r] _ fun x hx => ?_
    obtain rfl := List.mem_singleton.mp hx
    have hreact : ((d.modFlt fun f => { f with raised := [] }).report x).reactionOf x = d.reactionOf x := by
      unfold Dev.reactionOf
      rw [(noted_report x (d.modFlt fun f => { f with raised := [] })).react]
      rfl
    obtain hr | hr | hr := hr
    · exact .inl hr
    · rw [hreact, hr]; exact .inr Nat.zero_lt_two
    · rw [hreact, hr]; exact .inr Nat.one_lt_two
  have hq : ((d.modFlt fun f => { f with raised := [] }).report r).flt.raised = [] :=
    (noted_report r _).raised
  have step : d.settle e = ((d.modFlt fun f => { f with raised := [] }).report r).settle e := by
    unfold Dev.settle
    simp only [h, hround, hq, List.isEmpty_cons, List.isEmpty_nil, if_true, Bool.false_eq_true, if_false]
  rw [step, Dev.settle_quiet hq]

end Sys2Proof.Machine
end

