-- ==== Sys2Proof/WellFormed.lean ====
section
/-! DEFINITION. Commands that the outside world can send: checks that the types of their operands do not make. `exec`
does not depend on them. -/

namespace Sys2Proof

/-- Paths through which registers are accessed from outside (R34); the loader is not one of them. -/
def Path.external : Path → Bool
  | .loader => false
  | _ => true

/-- The crank inputs, and the cam inputs (R36). -/
def crankInput (i : Fin 6) : Bool := decide (i.val < 2)
def camInput (i : Fin 6) : Bool := decide (2 ≤ i.val)

/-- A CAN frame's identifier and payload within its format (R305). -/
def CanFrame.wf (f : CanFrame) : Bool :=
  (f.ide || decide (f.id.toNat < 2048))
    && decide (f.data.length ≤ (match f.format with | .classical => 8 | .fd => 64 | .xl => 2048))
    && !(f.remote && !f.data.isEmpty)

/-- A flip names a word of its bank (R403). -/
def Upset.wf (u : Upset) : Bool :=
  decide (u.word < ([4096, 8192, 6144, 6144, 8192, 512, 512, 512, 512, 8192, 8192, 2048, 2048, 2048, 2048, 6144, 2048][u.bank.val]?).getD 0)
    && decide (u.flips ≠ 0)

/-- What the types leave open: which input an edge belongs to, the format's limits, the size of a transfer, the path of
a register access. -/
def Instr.wf : Instr → Bool
  | .crankEdge _ e => crankInput e.input
  | .camEdge _ e => camInput e.input
  | .directionPulse _ _ lead trail => decide (lead ≤ trail)
  | .canFrameReceived _ _ f => f.wf
  | .scrubStep _ l => l.all Upset.wf
  | .bridgeRead _ p _ _ | .program _ p _ _ => p.external
  | .erase4k _ p _ | .erase64k _ p _ | .verify _ p _ => p.external
  | .registerWrite _ p _ _ => p.external
  | .admNetSubmit _ p | .clrLost _ p | .discard _ p | .snapCmdTrig _ p | .posResidClr _ p | .pageWrite _ p _ => p.external
  | .tmuStart _ p _ | .compareValueWrite _ p _ | .captureRead _ p | .pioInject _ p _ | .pioRun _ p _ | .pioRestart _ p => p.external
  | .pioTxqWrite _ p _ | .pioRxqRead _ p | .pioFlagSet _ p _ | .cnvScanWrite _ p _ _ => p.external
  | .halt _ p _ | .step _ p _ | .resume _ p _ | .slotValWrite _ p _ | .recover _ p _ => p.external
  | .softwareReset _ p _ | .restart _ p _ _ _ | .enterService _ p _ | .endAfterrun _ p _ => p.external
  | .fltForceKey _ p _ | .fltForce _ p _ | .forceDisarm _ p | .firstFaultClear _ p | .fltDisClear _ p _ => p.external
  | .diagDisabledClear _ p _ | .nviBrDataAccess _ p _ => p.external
  | .memTestWriteCoded _ p _ _ | .memTestWriteRaw _ p _ _ | .memTestRead _ p _ _ => p.external
  | _ => true

end Sys2Proof
end

