-- ==== Sys2Proof/Tests/Slice0.lean ====
section
/-! SUPPORT. Tests: ill-formed commands, witnesses for the hypotheses of every statement, and single steps whose results
come from the rules of the manual. -/

namespace Sys2Proof.Tests

open Sys2Proof Sys2Proof.Machine

set_option Elab.async false

/-! ### Small states -/

/-- The state after reset with some of the device changed and some memory written. -/
def st (f : Dev → Dev) (l : List MemOp := []) : State :=
  { State.reset with dev := f State.reset.dev, mems := l.foldl (fun m w => w.apply m) {} }

/-- In a mode, at 1 ms. -/
def inMode (m : Mode) (d : Dev) : Dev := { d with dtime := 1000000, sup := { d.sup with mode := m, prev := .run } }

/-- An operation word. -/
def opw (c a b dst : Nat) (more : W64 := 0) : W64 := put 0 8 c ||| put 8 16 dst ||| put 24 16 a ||| put 40 16 b ||| more

/-- A word of the list memory. -/
def opAt (i : Nat) (w : W64) : MemOp := .bytes (8 * i) (wordBytes w)

/-- A slot value in Q32.32. -/
def q (x : Int) : W64 := BitVec.ofInt 64 (x * 2 ^ 32)

/-- Engine 0 runs, with the operation word at index 5. Slots 10 to 15 hold 7, −3, 2, 5, 1, 9; slots 30 and 31 are its own. -/
def engine (w : W64) (f : Ce → Ce := id) (l : List MemOp := []) : State :=
  st (fun d => { inMode .run d with
      ce := upd d.ce 0 fun c => f { c with state := .running, pc := 5, cfg := 1, cur := some { list := 5, arrival := 0, deadline := 2000000 } }
      pos := { d.pos with cycleNs := 40000000 } })
    ([opAt 5 w, .slot 10 (q 7) 1, .slot 11 (q (-3)) 1, .slot 12 (q 2) 1, .slot 13 (q 5) 1, .slot 14 (q 1) 1, .slot 15 (q 9) 1,
      .attr 30 { tag := 0x10, cls := 0, writer := 0 }, .attr 31 { tag := 0, cls := 0, writer := 0 }] ++ l)

/-- The answer to a command is a next state with a property. -/
def answers (i : Instr) (s : State) (P : State → Bool) : Bool := match exec i s with | .next s' => P s' | _ => false

/-! ### Ill-formed commands: one term for each check of `Instr.wf`, and some that pass -/

/-- An edge at an input. -/
def edge (input : Fin 6) (stamp : Ns) (rising : Bool := true) (samples : Nat := 20) : WheelEdge :=
  { input := input, stamp := stamp, rising := rising, samples := samples, peakMv := 5000 }

/-- A classical CAN frame. -/
def frame (id : BitVec 29) (data : List Byte) : CanFrame :=
  { format := .classical, ide := false, id := id, remote := false, brs := false, sdt := 0, vcid := 0, af := 0, data := data, sof := 0 }

theorem illformed_input : [Instr.crankEdge 0 (edge 2 0), .camEdge 0 (edge 1 0), .directionPulse 0 0 5 4].all (fun i => !i.wf) = true := by
  decide
theorem illformed_frame : [Instr.canFrameReceived 0 0 (frame 2048 []), .canFrameReceived 0 0 (frame 1 (List.replicate 9 0)),
    .canFrameReceived 0 0 { frame 1 (List.replicate 65 0) with format := .fd },
    .canFrameReceived 0 0 { frame 1 (List.replicate 2049 0) with format := .xl },
    .canFrameReceived 0 0 { frame 1 [0] with remote := true }].all (fun i => !i.wf) = true := by decide +kernel
theorem illformed_upset : [Instr.scrubStep 0 [⟨0, 4096, 0, 1⟩], .scrubStep 0 [⟨0, 0, 0, 0⟩]].all (fun i => !i.wf) = true := by decide
theorem illformed_path : [Instr.bridgeRead 0 .loader 1 0, .program 0 .loader 1 0, .erase4k 0 .loader 0, .erase64k 0 .loader 0,
    .verify 0 .loader 0, .nviBrDataAccess 0 .loader none, .registerWrite 0 .loader 0 0, .admNetSubmit 0 .loader, .clrLost 0 .loader,
    .discard 0 .loader, .snapCmdTrig 0 .loader, .posResidClr 0 .loader, .pageWrite 0 .loader 0, .tmuStart 0 .loader 0,
    .compareValueWrite 0 .loader 0, .captureRead 0 .loader, .pioInject 0 .loader 0, .pioRun 0 .loader true, .pioRestart 0 .loader,
    .pioTxqWrite 0 .loader 0, .pioRxqRead 0 .loader, .pioFlagSet 0 .loader 0, .cnvScanWrite 0 .loader 0 0, .halt 0 .loader 0,
    .step 0 .loader 0, .resume 0 .loader 0, .slotValWrite 0 .loader 0, .recover 0 .loader 0, .softwareReset 0 .loader 0,
    .restart 0 .loader 0 true true, .enterService 0 .loader 0, .endAfterrun 0 .loader 0, .fltForceKey 0 .loader 0, .fltForce 0 .loader 0,
    .forceDisarm 0 .loader, .firstFaultClear 0 .loader, .fltDisClear 0 .loader 0, .diagDisabledClear 0 .loader 0,
    .memTestWriteCoded 0 .loader 0 false, .memTestWriteRaw 0 .loader 0 false, .memTestRead 0 .loader 0 false].all (fun i => !i.wf) = true := by
  decide
theorem wellformed_some : [Instr.crankEdge 0 (edge 1 0), .camEdge 0 (edge 5 0), .directionPulse 0 0 4 4, .canFrameReceived 0 0 (frame 2047 [1]),
    .scrubStep 0 [⟨0, 4095, 0, 1⟩], .registerWrite 0 .twp 0 0].all Instr.wf = true := by decide

/-! ### The block -/

theorem witness_StepRunsFront : let s := { st (inMode .run) with pending := [.aliveToggle 2000000, .stop1s 3000000] }
    s.pending = [.aliveToggle 2000000, .stop1s 3000000] ∧ (match step s with | .next s' => s'.pending == [.stop1s 3000000] | _ => false) = true ∧
    State.reset.pending = [] ∧ (match step State.reset with | .next s' => s'.pending == [] && s'.dev.dtime == State.reset.dev.dtime && s'.mems == {} | _ => false) = true := by decide +kernel

theorem witness_StepKeepsInvariant : let s := { engine (opw 2 10 11 30) with pending := [.add 1000000 0] }
    s.Inv ∧ (match step s with | .next s' => decide s'.Inv && s'.mems != s.mems | _ => false) = true := by decide +kernel

theorem witness_EveryCommandAnswers : answers (.keyOff 5) State.reset (fun s' => s'.pending == [] && s'.fuses == {} && decide s'.dev.settled) = true := by
  decide +kernel

/-- A box whose solution is due at 1.0005 ms, as the last item of a pass: after it the state is at rest. -/
def passing : State := st fun d => let d := inMode .run d
  { d with pos := { d.pos with work := [(1000500, .solve 5)] } }

theorem witness_EveryCommandAnswers_due : ¬passing.rests (stampOf (.keyOff 1000500)) ∧
    (passing.due (stampOf (.keyOff 1000500))).rests (stampOf (.keyOff 1000500)) ∧
    answers (.keyOff 1000500) passing (fun s' => s'.dev.pos.work == []) = true ∧
    passing.rests 1000499 ∧ (passing.due 1000499).rests 1000499 := by decide +kernel

/-! ### Resets, modes, power -/

theorem witness_Resets : let s := st (fun d => let d := inMode .run d; { d with sup := { d.sup with cfg := 8 } })
    s.dev.settled ∧ s.dev.sup.mode ≠ .reset ∧ (Path.twp = .twp → bit s.dev.sup.cfg 3 = true) ∧
    answers (.powerOnReset 2000000) s (fun s' => s'.dev.dtime == 0 && s'.dev.sup.mode == .reset && s'.dev.sup.lastReset == 0) = true ∧
    answers (.brownOutReset 2000000) s (fun s' => s'.dev.dtime == 0 && s'.dev.sup.lastReset == 1) = true ∧
    answers (.pinReset 2000000) s (fun s' => s'.dev.dtime == 2000000 && s'.dev.sup.mode == .reset && s'.dev.sup.lastReset == 2) = true ∧
    answers (.softwareReset 2000000 .twp 0xC5) s (fun s' => s'.dev.dtime == 2000000 && s'.dev.sup.mode == .reset && s'.dev.sup.lastReset == 3) = true ∧
    (0xC4 : Byte) ≠ 0xC5 ∧ answers (.softwareReset 2000000 .twp 0xC4) s (fun s' => s'.dev.sup.mode == .run && s'.dev.sup.cmdIgn) = true := by decide +kernel

/-- A first fault stands, and the latch is set. -/
theorem witness_Resets_fault : let s := st (fun d => let d := inMode .locked d
      { d with sup := { d.sup with latch := true, lastFault := 3 }, flt := { d.flt with valid := true, source := 3, time := 7 } })
    s.dev.flt.valid = true ∧ s.dev.sup.mode ≠ .reset ∧
    answers (.pinReset 2000000) s (fun s' => s'.dev.sup.latch && s'.dev.sup.lastFault == 3 && s'.dev.flt.valid && s'.dev.flt.time == 7) = true := by
  decide +kernel

/-- Bytes with their CRC-32 behind them. -/
def withCrc (l : List Byte) : List Byte := l ++ leBytes 4 (crc32 l).toNat

/-- A boot header of R344 in mode 0. -/
def bootHdr : List Byte := withCrc ([0x46, 0x4E, 0x42, 0x31, 1] ++ List.replicate 55 0)

theorem witness_ReleaseAndFill_release : let s := st (inMode .reset)
    s.dev.settled ∧ s.dev.sup.mode = .reset ∧ (bootCheck bootHdr).code = 0 ∧ (bootCheck []).code ≠ 0 ∧ field [] 0 4 ≠ 0x31424E46 ∧
    answers (.resetRelease 2000000 true false true bootHdr) s (fun s' => s'.dev.sup.mode == .fill && s'.dev.sup.asel == 2 && s'.dev.rope.role &&
      s'.dev.nvi.phase == .header false && !s'.dev.nvi.slotB) = true ∧
    answers (.resetRelease 2000000 false false false []) s (fun s' => s'.dev.nvi.phase == .header true && s'.dev.nvi.slotB &&
      s'.dev.nvi.errA.code == 1) = true := by decide +kernel

theorem witness_ReleaseAndFill_fill : let s := st (fun d => { d with sup := { d.sup with mode := .fill, filled := false, asel := 3 } }) [.bytes 0 [7]]
    s.dev.settled ∧ s.dev.sup.mode = .fill ∧ s.dev.sup.filled = false ∧
    answers (.hardwareFillEnd 2000000 40 false true true) s (fun s' => s'.dev.sup.mode == .fill && s'.dev.sup.filled && s'.mems == {} &&
      fld s'.dev.twp.addr 0 7 == 0x43) = true ∧
    ¬(true = true ∧ false = true) ∧
    answers (.hardwareFillEnd 2000000 40 false true false) s (fun s' => s'.dev.sup.mode == .locked && s'.dev.sup.lastFault == 5) = true := by
  decide +kernel

/-- In SAFE, for a cause, with or without a first fault. -/
def inSafe (cause : Nat) (valid : Bool) : State :=
  st (fun d => let d := inMode .safe d; { d with sup := { d.sup with safeCause := cause }, flt := { d.flt with valid := valid } }) [.bytes 0 [7]]

theorem witness_RestartAndService_restart :
    (inSafe 1 false).dev.settled ∧ (inSafe 1 false).dev.sup.mode = .safe ∧ (inSafe 1 false).dev.flt.valid = false ∧
    answers (.restart 2000000 .can0 0xC5 true true) (inSafe 1 false) (fun s' => s'.mems == {} && s'.dev.sup.mode == .safe &&
      s'.dev.nvi.phase == .header true && s'.dev.nvi.isRestart) = true ∧
    (inSafe 2 true).dev.sup.safeCause = 2 ∧ (inSafe 2 true).dev.settled ∧ (inSafe 2 true).dev.sup.mode = .safe ∧
    answers (.restart 2000000 .can0 0xC5 true true) (inSafe 2 true) (fun s' => s'.dev.nvi.isRestart && s'.dev.flt.valid) = true := by decide +kernel

theorem witness_RestartAndService_refused :
    (st (inMode .run)).dev.settled ∧ (st (inMode .run)).dev.sup.mode ≠ .safe ∧
    answers (.restart 2000000 .can0 0xC5 true false) (st (inMode .run)) (fun s' => s'.dev.sup.cmdIgn && s'.dev.sup.mode == .run) = true ∧
    (inSafe 1 true).dev.settled ∧ (inSafe 1 true).dev.flt.valid = true ∧ (inSafe 1 true).dev.sup.safeCause ≠ 2 ∧
    answers (.restart 2000000 .can0 0xC5 true true) (inSafe 1 true) (fun s' => s'.dev.sup.cmdIgn && s'.mems == (inSafe 1 true).mems) = true := by decide +kernel

/-- Stopped for one second, with a session of key 1 at CAN_0. -/
def canServe (m : Mode) : State := st fun d => let d := inMode m d
  { d with sup := { d.sup with stop1s := true }, can := upd d.can 0 fun c => { c with level := 2 }, nvi := { d.nvi with valid := true } }

theorem witness_RestartAndService_service : let s := canServe .waitSync
    s.clean ∧ s.room [5] ∧ s.dev.trusted .can0 = true ∧ s.dev.pos.sync = .stopped ∧ s.dev.sup.stop1s = true ∧ s.dev.sup.mode = .waitSync ∧
    answers (.enterService 2000000 .can0 0xC5) s (fun s' => s'.dev.sup.mode == .service) = true ∧
    (canServe .safe).clean ∧ (canServe .safe).dev.nvi.valid = true ∧ (canServe .safe).dev.sup.safeCause ≠ 2 ∧ (canServe .safe).room [5] ∧
    answers (.enterService 2000000 .can0 0xC5) (canServe .safe) (fun s' => s'.dev.sup.mode == .service) = true ∧
    s.dev.trusted .can1 = false ∧
    answers (.enterService 2000000 .can1 0xC5) s (fun s' => s'.dev.sup.mode == .waitSync && s'.dev.sup.cmdIgn) = true := by decide +kernel

/-- One box ARMED, one COMMITTED, one descriptor WAITING, the key on. -/
def waiting (m : Mode) : State := st fun d => let d := inMode m d
  { d with
    sup := { d.sup with key := true }
    loft := { d.loft with
      boxes := upd (upd d.loft.boxes 3 fun b => { b with state := .armed, loft := 1, ev := { b.ev with type := .gate } }) 4 fun b =>
        { b with state := .committed, loft := 2, ev := { b.ev with type := .gate, output := 1 } }
      descrs := [(1, { state := .inBox, box := 3, ev := { type := .gate } }), (2, { state := .inBox, box := 4, ev := { type := .gate, output := 1 } }),
        (5, { state := .waiting, ev := { type := .gate, output := 2 } })] } }

theorem witness_KeyChanges_off : let s := waiting .run
    s.clean ∧ s.room [5] ∧ s.dev.sup.key = true ∧ s.dev.sup.mode ≠ .reset ∧ s.dev.sup.mode ∈ [Mode.basecamp, .waitSync, .crank, .run, .limp] ∧
    s.dev.loft.boxes[(3 : Fin 128)].state = .armed ∧ s.dev.loft.boxes[(4 : Fin 128)].state = .committed ∧
    (∃ x ∈ s.dev.loft.descrs, x.2.state = .waiting) ∧
    answers (.keyOff 2000000) s (fun s' => s'.dev.sup.mode == .afterrun && s'.dev.loft.boxes[(4 : Fin 128)].state == .closing &&
      s'.dev.loft.descrs.all fun x => x.1 != 5 || (x.2.state == .ending && x.2.ending.reason == 7)) = true ∧
    (waiting .safe).clean ∧ (waiting .safe).room [5] ∧ (waiting .safe).dev.sup.mode ∉ [Mode.basecamp, .waitSync, .crank, .run, .limp] ∧
    answers (.keyOff 2000000) (waiting .safe) (fun s' => s'.dev.sup.mode == .safe && !s'.dev.sup.key) = true := by decide +kernel

theorem witness_KeyChanges_on : let s := st (inMode .afterrun)
    let r := st fun d => let d := inMode .afterrun d; { d with sup := { d.sup with ready := true } }
    s.dev.settled ∧ s.room [5] ∧ s.dev.sup.key = false ∧ s.dev.sup.mode = .afterrun ∧ s.dev.sup.ready = false ∧
    answers (.keyOn 2000000) s (fun s' => s'.dev.sup.mode == .basecamp) = true ∧
    r.dev.settled ∧ r.room [5] ∧ r.dev.sup.ready = true ∧ r.dev.nvi.held = [] ∧ r.dev.sup.key = false ∧
    answers (.keyOn 2000000) r (fun s' => s'.dev.sup.mode == .waitSync) = true ∧
    (st (inMode .run)).dev.settled ∧ (st (inMode .run)).room [5] ∧ (st (inMode .run)).dev.sup.key = false ∧
    (st (inMode .run)).dev.sup.mode ∉ [Mode.reset, .afterrun, .bivouac] ∧ (st (inMode .run)).dev.sup.wokeAt ≠ some ((st (inMode .run)).now 2000000) ∧
    answers (.keyOn 2000000) (st (inMode .run)) (fun s' => s'.dev.sup.mode == .run && s'.dev.sup.key) = true := by decide +kernel

/-- In AFTERRUN, begun at a moment; with BIV_EN and TWP_SUP. -/
def afterrun (biv : Bool) : State := st fun d => let d := inMode .afterrun d
  { d with sup := { d.sup with cfg := 0x3C1408 ||| (if biv then 2 else 0), afterrunAt := 500000 } }

set_option maxRecDepth 20000 in
theorem witness_AfterrunEnds : ∀ biv : Bool, let s := afterrun biv
    s.clean ∧ s.dev.sup.mode = .afterrun ∧ s.dev.sup.afterrunEnded = false ∧ bit s.dev.sup.cfg 1 = biv ∧ bit s.dev.sup.cfg 3 = true ∧
    (s.dev.at 2000000).afterrunIdle s.env = true ∧ s.dev.sup.afterrunAt + fld s.dev.sup.cfg 16 16 * 1000000000 ≤ s.now 70000000000 ∧
    answers (.endAfterrun 2000000 .twp 0xC5) s (fun s' => s'.dev.sup.mode == (if biv then .bivouac else .afterrun)) = true ∧
    answers (.afterrunEnd 2000000) s (fun s' => s'.dev.sup.mode == .bivouac || s'.dev.sup.afterrunEnded) = true ∧
    answers (.arMax 70000000000) s (fun s' => s'.dev.sup.mode == .bivouac || s'.dev.sup.afterrunEnded) = true := by decide +kernel

/-- In BIVOUAC with all wake sources enabled, WAKE_IN on its rising edge, CAN_2 on identifier 5. -/
def asleep (wake : W64) : State := st fun d => let d := inMode .bivouac d
  { d with sup := { d.sup with wake := wake, dstep := 25, pllLock := false }, can := upd d.can 2 fun c => { c with wake := put 0 29 5 ||| put 30 1 1 ||| put 32 29 0x1FFFFFFF } }

theorem witness_WakesAndTimers_wake : let s := asleep 7
    s.dev.settled ∧ s.dev.sup.mode = .bivouac ∧ s.room [5] ∧ s.dev.nvi.earlyRecs = [] ∧ s.dev.sup.key = false ∧
    bit s.dev.sup.wake 0 = true ∧ bit s.dev.sup.wake 1 = true ∧ bit s.dev.sup.wake 2 = true ∧
    answers (.wake 2000000 [.wakeIn true]) s (fun s' => s'.dev.sup.mode == .waitSync && s'.dev.sup.wakeSrc == 4) = true ∧
    bit s.dev.sup.wake 1 ≠ false ∧ answers (.wake 2000000 [.wakeIn false]) s (fun s' => s'.dev.sup.mode == .bivouac) = true ∧
    bit (asleep 4).dev.sup.wake 0 = false ∧ answers (.wake 2000000 [.wakeIn true]) (asleep 4) (fun s' => s'.dev.sup.mode == .bivouac) = true ∧
    answers (.wake 2000000 [.keyIn]) s (fun s' => s'.dev.sup.wakeSrc == 8) = true ∧ answers (.keyOn 2000000) s (fun s' => s'.dev.sup.wakeSrc == 8) = true ∧
    bit s.dev.can[(2 : Fin 4)].wake 30 = true ∧ bit s.dev.can[(2 : Fin 4)].wake 29 = false ∧
    ((5 : BitVec 29) ^^^ BitVec.ofNat 29 (fld s.dev.can[(2 : Fin 4)].wake 0 29)) &&& BitVec.ofNat 29 (fld s.dev.can[(2 : Fin 4)].wake 32 29) = 0 ∧
    answers (.canWakeMatch 2000000 2 false 5) s (fun s' => s'.dev.sup.wakeSrc == 1) = true := by decide +kernel

theorem witness_WakesAndTimers_timers : let s := st (inMode .waitSync)
    s.dev.settled ∧ s.dev.pos.sync = .stopped ∧ s.dev.sup.stoppedAt + 1000000000 ≤ s.now 1000000000 ∧
    answers (.stop1s 1000000000) s (fun s' => s'.dev.sup.stop1s) = true ∧ answers (.aliveToggle 1000000000) s (fun s' => !s'.dev.sup.alive) = true ∧
    answers (.forceDisarm 1000000000 .can1) s (fun s' => (s'.dev.ctx .can1).armedAt == none) = true := by decide +kernel

/-- With GASP_EN on CAN_1, with or without RECOVER, with or without a warning. -/
def powered (warn recover : Bool) : State := st fun d => let d := inMode .run d
  { d with sup := { d.sup with warn := warn, pwrCfg := 3 ||| (if recover then 16 else 0) } }

theorem witness_Power : let s := powered false true
    s.dev.settled ∧ s.dev.memu.errs = [] ∧ s.dev.sup.warn = false ∧ s.dev.flt.react.toList[9]? = some 5 ∧ s.dev.sup.mode ≠ .safe ∧
    s.dev.sup.mode ≠ .locked ∧ bit s.dev.sup.pwrCfg 0 = true ∧ s.dev.can[(1 : Fin 4)].busOff = false ∧
    answers (.borWarning 2000000) s (fun s' => s'.dev.sup.mode == .safe && s'.dev.sup.lastFault == 9 && s'.dev.can[(1 : Fin 4)].txq.length == 1) = true ∧
    (powered true true).dev.sup.warn = true ∧ bit (powered true true).dev.sup.pwrCfg 4 = true ∧ (powered true true).dev.sup.mode ≠ .reset ∧
    answers (.vsupRecovery 2000000) (powered true true) (fun s' => s'.dev.sup.mode == .reset && s'.dev.sup.lastReset == 3) = true ∧
    (powered true false).dev.sup.warn = true ∧ bit (powered true false).dev.sup.pwrCfg 4 = false ∧ (powered true false).dev.sup.mode.converters = true ∧
    answers (.vsupRecovery 2000000) (powered true false) (fun s' => s'.dev.sup.mode == .run && !s'.dev.sup.warn) = true ∧
    answers (.vgdUndervoltage 2000000) s (fun s' => s'.dev.sup.vgdLow) = true ∧ answers (.vgdRecovery 2000000) s (fun s' => !s'.dev.sup.vgdLow) = true := by
  decide +kernel

/-! ### Faults and memory protection -/

theorem witness_FatalFaults : let s := st (inMode .run)
    s.dev.settled ∧ s.rests 2000000 ∧ s.dev.sup.mode ≠ .locked ∧ s.dev.flt.valid = false ∧
    answers (.clkXtalLost 2000000) s (fun s' => s'.dev.sup.mode == .locked && s'.dev.flt.source == 1 && s'.dev.sup.dstep == 125) = true ∧
    answers (.clkPllLost 2000000) s (fun s' => s'.dev.sup.lastFault == 2 && !s'.dev.sup.pllLock && s'.dev.sup.dstep == 25) = true ∧
    answers (.lockstepMismatch 2000000 .pos) s (fun s' => s'.dev.sup.lastFault == 3) = true ∧
    answers (.lockstepMismatch 2000000 .adm) s (fun s' => s'.dev.sup.lastFault == 4) = true ∧
    answers (.supVcore 2000000) s (fun s' => s'.dev.sup.lastFault == 8 && !s'.dev.sup.vcoreOk) = true := by decide +kernel

/-- In LOCKED too the fault is counted, and the first one stays. -/
theorem witness_FatalFaults_locked : let s := st fun d => let d := inMode .locked d
      { d with sup := { d.sup with latch := true, lastFault := 3 }, flt := { d.flt with valid := true, source := 3 } }
    s.dev.settled ∧ s.rests 2000000 ∧
    answers (.clkPllLost 2000000) s (fun s' => s'.dev.flt.source == 3 && s'.dev.flt.cnt[(2 : Fin 64)] == 1 && !s'.dev.sup.pllLock) = true := by
  decide +kernel

/-- A path armed for FLT_FORCE at 1 ms. -/
def armed (m : Mode) : State := st fun d => let d := inMode m d
  d.modCtx .can0 fun c => { c with armedAt := some 1000000 }

theorem witness_FaultControl : let s := armed .service
    s.dev.settled ∧ s.rests 1050000 ∧ s.dev.sup.mode = .service ∧ (s.dev.ctx .can0).armedAt = some 1000000 ∧ s.now 1050000 < 1000000 + 100000 ∧ s.onlyNoted 14 ∧
    answers (.fltForce 1050000 .can0 0x4000) s (fun s' => s'.dev.flt.source == 14 && s'.dev.flt.forced && s'.dev.sup.mode == .service) = true ∧
    answers (.fltForceKey 1050000 .can1 0xA5C3) s (fun s' => (s'.dev.ctx .can1).armedAt == some 1050000) = true ∧
    answers (.fltForceKey 1050000 .can0 0xA5C4) s (fun s' => (s'.dev.ctx .can0).armedAt == none) = true ∧
    (s.dev.ctx .can1).armedAt = none ∧ answers (.fltForce 1050000 .can1 0x4000) s (fun s' => s'.dev.flt.cfgIgn && !s'.dev.flt.valid) = true ∧
    ¬s.now 1100000 < 1000000 + 100000 ∧ answers (.fltForce 1100000 .can0 0x4000) s (fun s' => s'.dev.flt.cfgIgn && !s'.dev.flt.valid) = true ∧
    (armed .run).dev.sup.mode ≠ .service ∧ (armed .run).dev.sup.mode ≠ .locked ∧ (armed .run).dev.settled ∧
    answers (.firstFaultClear 1050000 .can0) (armed .run) (fun s' => !s'.dev.flt.valid && !s'.dev.flt.cfgIgn) = true ∧
    (armed .locked).dev.settled ∧ (armed .locked).dev.sup.mode = .locked ∧
    answers (.firstFaultClear 1050000 .can0) (armed .locked) (fun s' => s'.dev.flt.cfgIgn) = true ∧
    answers (.fltDisClear 1050000 .can0 3) (armed .run) (fun s' => s'.dev.flt.dis == 0) = true := by decide +kernel

/-- Two sources at once, and a value that names none. -/
theorem witness_FaultControl_sources : let s := armed .service
    let v : W64 := 0x404000
    s.rests 1050000 ∧ (∀ i, 1 ≤ i → i < 28 → bit v i = true → 26 ≤ i ∨ (9 ≤ i ∧ i ≠ 11 ∧ s.onlyNoted i)) ∧
    answers (.fltForce 1050000 .can0 v) s (fun s' => s'.dev.flt.cnt[(14 : Fin 64)] == 1 && s'.dev.flt.cnt[(22 : Fin 64)] == 1 &&
      s'.dev.flt.cnt[(15 : Fin 64)] == 0 && s'.dev.sup.mode == .service) = true ∧
    answers (.fltForce 1050000 .can0 0) s (fun s' => !s'.dev.flt.valid && (s'.dev.ctx .can0).armedAt == none) = true := by decide +kernel

/-- Every bank at the last but one, or at the last, of 4096 words. -/
def scrubAt (i : Nat) : State := st fun d => let d := inMode .service d
  { d with memu := { d.memu with banks := upd d.memu.banks 0 fun b => { b with idx := i } } }

theorem witness_MemoryProtection_scrub :
    (scrubAt 4094).clean ∧ (scrubAt 4094).dev.sup.filled = true ∧
    answers (.scrubStep 2000000 []) (scrubAt 4094) (fun s' => s'.dev.memu.banks[(0 : Fin 17)].idx == 4095) = true ∧
    (scrubAt 4095).clean ∧ (scrubAt 4095).dev.sup.filled = true ∧
    answers (.scrubStep 2000000 []) (scrubAt 4095) (fun s' => s'.dev.memu.banks[(0 : Fin 17)].idx == 0 && s'.dev.memu.banks[(0 : Fin 17)].passes == 1) = true ∧
    popcount (0x100 : BitVec 13).toNat 13 = 1 ∧
    answers (.scrubStep 2000000 [⟨0, 4095, 3, 0x100⟩]) (scrubAt 4095) (fun s' => s'.dev.memu.ce == 1 && s'.dev.memu.errs == [] &&
      s'.dev.flt.cnt[(27 : Fin 64)] == 1) = true := by decide +kernel

theorem witness_MemoryProtection_test : let s := st fun d => let d := inMode .service d
      { d with memu := { d.memu with d0 := 5, c0 := 9 } }
    s.dev.settled ∧ s.dev.sup.mode = .service ∧
    answers (.memTestWriteRaw 2000000 .can0 15 false) s (fun s' => s'.dev.memu.test[(15 : Fin 16)] == { d0 := 5, c0 := 9 }) = true ∧
    answers (.memTestWriteCoded 2000000 .can0 15 false) s (fun s' => s'.dev.memu.test[(15 : Fin 16)].d0 == 5) = true ∧
    (scrubAt 0).dev.sup.mode = .service ∧ (st (inMode .run)).dev.settled ∧ (st (inMode .run)).dev.sup.mode ≠ .service ∧
    answers (.memTestRead 2000000 .can0 15 false) (st (inMode .run)) (fun s' => s'.dev.memu.cfgIgn) = true := by decide +kernel

/-- A word of zeros at an even address holds its check bits, whatever the code's columns are. -/
theorem witness_MemoryProtection_read : let s := st (inMode .service)
    s.dev.settled ∧ s.dev.sup.mode = .service ∧
    (∀ j : Fin 16, s.dev.memu.test[(0 : Fin 16)].chk j.val = checkBits (s.dev.memu.test[(0 : Fin 16)].byte j.val) (wordParity 0)) ∧
    answers (.memTestRead 2000000 .can0 0 false) s (fun s' => s'.dev.memu.res == 0 && s'.dev.memu.d0 == 0) = true := by decide +kernel

/-! ### The loader -/

/-- An image header of R346 whose directory has these sections: id, offset, length. -/
def header (l : List (Nat × Nat × Nat)) : List Byte :=
  withCrc (([0x46, 0x4E, 0x49, 0x31, 1, 0, 0, 0] : List Byte) ++ leBytes 4 4096 ++ leBytes 4 7 ++ leBytes 2 0x1680 ++ List.replicate 14 (0 : Byte) ++
    ((List.range 14).flatMap fun i => match l.find? (·.1 == i + 1) with
      | some x => leBytes 4 x.2.1 ++ leBytes 4 x.2.2 ++ List.replicate 40 (0 : Byte)
      | none => List.replicate 48 (0 : Byte))) ++ List.replicate 4 (0 : Byte)

/-- The loader in a phase, in a mode. -/
def loader (m : Mode) (f : Nvi → Nvi) : State := st fun d => let d := inMode m d; { d with nvi := f d.nvi }

set_option maxRecDepth 50000 in
theorem witness_ImageHeader : let s := loader .fill fun n => { n with phase := .header true }
    let b := loader .fill fun n => { n with phase := .header false, slotB := true }
    let good := header [(3, 776, 16), (4, 800, 16), (5, 824, 16)]
    s.clean ∧ s.dev.nvi.phase = .header true ∧ s.dev.sup.filled = true ∧ s.dev.sup.mode = .fill ∧ (bootCheck bootHdr).code = 0 ∧
    (headerCheck s.fuses good).code = 0 ∧
    answers (.imageHeaderRead 2000000 bootHdr good) s (fun s' => s'.dev.nvi.phase == .early && s'.dev.nvi.sigDone) = true ∧
    field (List.replicate 4 0 : List Byte) 0 4 ≠ 0x31494E46 ∧ (headerCheck s.fuses (header [(3, 776, 16)])).code ≠ 0 ∧ s.dev.nvi.slotB = false ∧
    answers (.imageHeaderRead 2000000 bootHdr (header [(3, 776, 16)])) s (fun s' => s'.dev.nvi.slotB && s'.dev.nvi.errA.code == 12) = true ∧
    b.clean ∧ b.dev.nvi.phase = .header false ∧ b.dev.nvi.slotB = true ∧ b.dev.sup.latch = false ∧
    answers (.imageHeaderRead 2000000 [] []) b (fun s' => s'.dev.sup.mode == .safe && s'.dev.sup.safeCause == 2 && s'.dev.nvi.errB.code == 4) = true := by
  decide +kernel

/-- A section with its CRC. -/
def sect (id : Nat) (l : List W64) : FlashSection := { id := id, payload := l, crc := crc32 (wordsBytes l) }

theorem witness_Sections_crc : let s := loader .basecamp fun n => { n with phase := .stream, header := header [(12, 776, 8)], lastId := 10 }
    let x : FlashSection := { sect 12 [0] with crc := 0 }
    s.clean ∧ s.dev.loading = true ∧ s.dev.sup.filled = true ∧ s.dev.nvi.slotB = false ∧ nextId s.dev.nvi.header s.dev.nvi.lastId = some x.id ∧
    8 * x.payload.length = secLen s.dev.nvi.header x.id ∧ s.dev.nvi.phase = (if x.id ≤ 3 then LoadPhase.early else .stream) ∧
    crc32 (wordsBytes x.payload) ≠ x.crc ∧
    answers (.sectionLoaded 2000000 x) s (fun s' => s'.dev.nvi.slotB && s'.dev.nvi.errA == { code := 10, section_ := 12 }) = true := by decide +kernel

set_option maxRecDepth 50000 in
theorem witness_Sections_signature : let s := loader .fill fun n => { n with phase := .early, header := header [(1, 776, 128)] }
    let x := sect 1 (List.replicate 16 3)
    s.clean ∧ s.dev.loading = true ∧ s.dev.sup.filled = true ∧ s.dev.nvi.slotB = false ∧ nextId s.dev.nvi.header s.dev.nvi.lastId = some x.id ∧
    8 * x.payload.length = secLen s.dev.nvi.header x.id ∧ s.dev.nvi.phase = (if x.id ≤ 3 then LoadPhase.early else .stream) ∧
    crc32 (wordsBytes x.payload) = x.crc ∧ x.payload.length = 16 ∧
    answers (.sectionLoaded 2000000 x) s (fun s' => s'.dev.nvi.lastId == 1 && s'.dev.nvi.sig.length == 128) = true := by decide +kernel

/-- Whether the digest fits is free, like SHA-256 itself. -/
theorem witness_Sections_pio : ∀ latch : Bool,
    let s := st fun d => let d := inMode .basecamp d
      { d with sup := { d.sup with latch := latch }, nvi := { d.nvi with phase := .stream, header := header [(12, 776, 8)], lastId := 10 } }
    let x := sect 12 [0]
    s.clean ∧ s.dev.loading = true ∧ s.dev.sup.filled = true ∧ s.dev.nvi.slotB = false ∧ nextId s.dev.nvi.header s.dev.nvi.lastId = some x.id ∧
    8 * x.payload.length = secLen s.dev.nvi.header x.id ∧ s.dev.nvi.phase = (if x.id ≤ 3 then LoadPhase.early else .stream) ∧
    crc32 (wordsBytes x.payload) = x.crc ∧ x.id ∈ [4, 5, 6, 7, 8, 9, 10, 12, 13] ∧ s.dev.sup.latch = latch ∧
    (match parsePio x.payload with | .ok l => l.isEmpty | _ => false) = true := by decide +kernel

/-- A slot whose signature waits; the fuses hold a hash. -/
def signed (hash : Option (List Byte)) : State :=
  { loader .fill fun n => { n with phase := .early, header := header [(1, 776, 128)], lastId := 1, sig := List.replicate 128 3 } with
    fuses := { keyHash := hash } }

theorem witness_Sections_key : let key : List Byte := (signed none).dev.nvi.sig.take 64
    (signed none).clean ∧ (signed none).dev.nvi.phase = .early ∧ (signed none).dev.nvi.lastId ∈ [1, 2] ∧ (signed none).dev.nvi.sigDone = false ∧
    secPresent (signed none).dev.nvi.header 1 = true ∧ (signed none).dev.sup.mode = .fill ∧ (signed none).dev.sup.filled = true ∧
    (signed none).dev.nvi.slotB = false ∧ (signed none).fuses.keyHash = none ∧
    (signed (some (Config.sha256 key))).fuses.keyHash = some (Config.sha256 key) ∧
    Config.sha256 key ≠ Config.sha256 key ++ [0] ∧
    answers (.signatureVerified 2000000) (signed none) (fun s' => s'.dev.nvi.slotB && s'.dev.nvi.errA.code == 8) = true := by
  refine ⟨?_, ?_, ?_, ?_, ?_, ?_, ?_, ?_, rfl, rfl, by simp, ?_⟩ <;> decide +kernel

theorem witness_RecordsAndFinalisation_records : let r : InitRec := { addr := 0x0930, delay := 3, value := 5 }
    let s := loader .basecamp fun n => { n with phase := .applyInit, dueAt := 2000000, queue := [r] }
    let z := st fun d => let d := inMode .afterrun d; { d with nvi := { d.nvi with phase := .applyInit } }
    s.dev.settled ∧ s.dev.nvi.phase = .applyInit ∧ s.dev.loading = true ∧ s.now 1999999 < s.dev.nvi.dueAt ∧
    answers (.initRecordDelay 1999999) s (fun s' => s'.dev.nvi.queue == [r]) = true ∧
    s.dev.nvi.dueAt ≤ s.now 2000000 ∧ s.dev.nvi.queue = [r] ∧ r.delay ≠ 0 ∧ heldPage (r.addr.toNat / 256) = true ∧ r.addr.toNat % 256 ≠ 0xF8 ∧
    answers (.initRecordDelay 2000000) s (fun s' => s'.dev.nvi.held.length == 1 && s'.dev.nvi.dueAt == 2003000) = true ∧
    z.dev.settled ∧ z.dev.nvi.phase = .applyInit ∧ z.dev.loading = true ∧ z.dev.nvi.dueAt ≤ z.now 2000000 ∧ z.dev.nvi.queue = [] ∧
    z.dev.sup.latch = false ∧ z.dev.sup.mode = .afterrun ∧ z.dev.recm.stood = none ∧
    answers (.initRecordDelay 2000000) z (fun s' => s'.dev.sup.ready && s'.dev.nvi.phase == .done) = true := by decide +kernel

/-- All sections have streamed; SLOTS_INIT gave slot 9 a value; ring 1 is of some size. -/
def streamed (ring : Nat) (m : Mode) : State := st fun d => let d := inMode m d
  { d with nvi := { d.nvi with phase := .stream, slotRecs := [(9, { tag := 1, writer := 0 }, [q 3])] }
           recm := { d.recm with rings := upd d.recm.rings 1 fun r => { r with size := ring } }
           pos := { d.pos with sync := .full } }

theorem witness_RecordsAndFinalisation_finalisation : ∀ m ∈ [Mode.basecamp, .afterrun], let s := streamed 256 m
    let x := (s.dev.at 2000000).trialInit s.env
    s.clean ∧ s.dev.nvi.phase = .stream ∧ s.dev.loading = true ∧ s.dev.sup.latch = false ∧ nextId s.dev.nvi.header s.dev.nvi.lastId = none ∧
    x.2.spanChecks x.1 = none ∧ s.dev.nvi.tmuRecs = [] ∧ s.dev.nvi.regRecs = [] ∧ s.dev.recm.stood = none ∧ s.dev.pos.sync = .full ∧
    answers (.finalisation 2000000) s (fun s' => s'.dev.sup.ready && s'.slot 9 == q 3) = true := by decide +kernel

theorem witness_RecordsAndFinalisation_failed : let s := streamed 257 .basecamp
    let x := (s.dev.at 2000000).trialInit s.env
    s.clean ∧ s.dev.nvi.phase = .stream ∧ s.dev.loading = true ∧ s.dev.sup.latch = false ∧ nextId s.dev.nvi.header s.dev.nvi.lastId = none ∧
    (x.2.spanChecks x.1).isSome = true ∧ s.dev.nvi.slotB = false ∧ s.room [4] ∧
    answers (.finalisation 2000000) s (fun s' => s'.dev.nvi.slotB && !s'.dev.sup.ready && s'.dev.pos.sync == .stopped) = true := by decide +kernel

/-! ### Position -/

/-- Four positions a revolution, one of them missing; the tooth after it has its own band, 2.2 to 3.8 pitches. -/
def wheel (cams : List (Option CamTable) := []) : Wheel :=
  { crkPos := 4, camEn := if cams = [] then 0 else 1, cams := cams,
    teeth := [⟨0, true, 2, true, 563, 973⟩, ⟨90 * degree, true, 0, false, 0, 0⟩, ⟨180 * degree, true, 0, false, 0, 0⟩, ⟨270 * degree, false, 0, false, 0, 0⟩] }

/-- In a sync state at a position, the last tooth accepted at 1 ms, a pitch of 100 µs; the inputs configured alike. -/
def turning (y : SyncState) (x : Int) (cfg : W64) (cams : List (Option CamTable) := []) (f : Pos → Pos := id) : State :=
  st fun d => let d := inMode .run d
    { d with pos := f { d.pos with
        wheel := wheel cams, corr := [0, 0, 0, 0], sync := y, absPos := x, pos := x.toNat, angle := 90 * degree * x.toNat, nhat := 100000 * 65536,
        nk := 100000 * 65536, lastTooth := some 1000000, lastEdge := some 1000000,
        inputs := Vector.replicate 6 { d.pos.inputs[(0 : Fin 6)] with cfg := cfg } } }

/-- Hall mode, rising transitions, no filter. -/
def hall : W64 := 0x5A0F00A6002

/-- The premises of CrankEdge that all its clauses share. -/
abbrev crankReady (s : State) (x : WheelEdge) : Prop :=
  s.Inv ∧ s.dev.sup.mode.decodes = true ∧ s.dev.sup.mode ≠ .basecamp ∧ x.input = 0 ∧ s.dev.pos.active = 0 ∧
  fld s.dev.pos.inputs[(0 : Fin 6)].cfg 0 2 = 2 ∧ s.dev.pos.dualMode = 0 ∧ s.dev.synthetic = false ∧ bit s.dev.rope.cfg 2 = false ∧
  s.dev.pos.wheel.crkPos ≠ 0 ∧ s.dev.pos.work = []

/-- No cam of this wheel may lose sync: it has none. -/
theorem witness_CrankEdge_cams (y : SyncState) (x : Int) (cfg : W64) (c : Nat) (tb : CamTable) :
    (turning y x cfg).dev.pos.wheel.cam c = some tb → tb.loss = false := by
  intro h
  have : (turning y x cfg).dev.pos.wheel.cam c = none := by
    show ((wheel []).cam c) = none
    simp [Wheel.cam, wheel]
  rw [this] at h; cases h

/-- The edge is one that the input counts. -/
abbrev counts (s : State) (x : WheelEdge) : Prop :=
  let i := s.dev.pos.inputs[(0 : Fin 6)]
  fld i.cfg 4 8 ≤ x.samples ∧ (fld i.cfg 2 2 = 2 ∨ (fld i.cfg 2 2 = 0 ∧ x.rising = true) ∨ (fld i.cfg 2 2 = 1 ∧ x.rising = false))

theorem witness_CrankEdge_dropped : let s := turning .stopped 0 (hall ||| put 4 8 30)
    crankReady s (edge 0 1100000) ∧ (edge 0 1100000).samples < fld s.dev.pos.inputs[(0 : Fin 6)].cfg 4 8 ∧
    answers (.crankEdge 1100100 (edge 0 1100000)) s (fun s' => s'.dev.pos == s.dev.pos) = true ∧
    (let s := turning .stopped 0 hall
     crankReady s (edge 0 1100000 false) ∧ ¬counts s (edge 0 1100000 false) ∧ fld s.dev.pos.inputs[(0 : Fin 6)].cfg 4 8 ≤ 20 ∧
     answers (.crankEdge 1100100 (edge 0 1100000 false)) s (fun s' => s'.dev.pos.inputs[(0 : Fin 6)].edges == 0) = true) := by decide +kernel

theorem witness_CrankEdge_stopped : let s := turning .stopped 0 hall
    crankReady s (edge 0 1100000) ∧ counts s (edge 0 1100000) ∧ s.dev.pos.sync = .stopped ∧
    answers (.crankEdge 1100100 (edge 0 1100000)) s (fun s' => s'.dev.pos.sync == .counting) = true := by decide +kernel

theorem witness_CrankEdge_counting : let c := turning .counting 0 hall
    crankReady c (edge 0 1003999) ∧ counts c (edge 0 1003999) ∧ c.dev.pos.sync = .counting ∧ c.dev.pos.lastTooth = some 1000000 ∧ 1003999 < 1000000 + 4000 ∧
    answers (.crankEdge 1004100 (edge 0 1003999)) c (fun s' => s'.dev.pos.inputs[(0 : Fin 6)].noise == 1) = true ∧
    c.dev.pos.lastIntv = none ∧ c.dev.pos.refEdge = false ∧ crankReady c (edge 0 1004000) ∧ counts c (edge 0 1004000) := by decide +kernel

set_option maxRecDepth 50000 in
theorem witness_CrankEdge_full : let s := turning .full 0 hall
    let p := s.dev.pos
    let t1 := p.t1 (p.wheel.next p.absPos)
    p.sync = .full ∧ p.rev = false ∧ p.lastTooth = some 1000000 ∧
    crankReady s (edge 0 1020000) ∧ counts s (edge 0 1020000) ∧ qBelow 20000 t1 p.noiseLim = true ∧
    answers (.crankEdge 1020100 (edge 0 1020000)) s (fun s' => s'.dev.pos.inputs[(0 : Fin 6)].noise == 1 && s'.dev.pos.absPos == 0) = true ∧
    qBelow 100000 t1 p.noiseLim = false ∧ qIn 100000 t1 (p.bandOf (p.wheel.tooth 1)).1 (p.bandOf (p.wheel.tooth 1)).2 = true ∧
    p.bandBroken 1 1100000 = false ∧ p.wheel.next p.absPos = 1 ∧
    qIn 500000 t1 (p.bandOf (p.wheel.tooth 1)).1 (p.bandOf (p.wheel.tooth 1)).2 = false ∧ (p.wheel.tooth 1).cls ≠ 2 ∧ p.gapsAt 500000 t1 = [] ∧
    answers (.crankEdge 1500100 (edge 0 1500000)) s (fun s' => s'.dev.pos.sync == .counting && s'.dev.pos.lossCause == 1) = true := by decide +kernel

set_option maxRecDepth 50000 in
theorem witness_CrankEdge_gap : let s := turning .full 2 hall
    let p := s.dev.pos
    let t1 := p.t1 4
    crankReady s (edge 0 1100000) ∧ counts s (edge 0 1100000) ∧ p.sync = .full ∧ p.rev = false ∧ p.wheel.next p.absPos = 4 ∧
    qBelow 100000 t1 p.noiseLim = false ∧ qIn 100000 t1 (p.bandOf (p.wheel.tooth 4)).1 (p.bandOf (p.wheel.tooth 4)).2 = false ∧
    (p.wheel.tooth 4).cls = 2 ∧ qIn 100000 t1 p.normLo p.normHi = true ∧
    answers (.crankEdge 1100100 (edge 0 1100000)) s (fun s' => s'.dev.pos.sync == .counting && s'.dev.pos.lossCause == 3) = true := by decide +kernel

theorem witness_PulsesAndSyntheticEdges_pulse : let s := turning .stopped 0 0x5A0F00A6003
    let i := s.dev.pos.inputs[(0 : Fin 6)]
    s.Inv ∧ s.dev.sup.mode.decodes = true ∧ s.dev.sup.mode ≠ .basecamp ∧ fld i.cfg 0 2 = 3 ∧ s.dev.pos.dualMode = 0 ∧ s.dev.synthetic = false ∧
    s.dev.pos.wheel.crkPos ≠ 0 ∧ s.dev.pos.sync = .stopped ∧ bit s.dev.rope.cfg 2 = false ∧ s.dev.pos.work = [] ∧
    4 * fld i.cfg 4 8 ≤ 75000 ∧ ¬(75000 < fld i.cfg 24 10 * 250) ∧ ¬(fld i.cfg 34 10 * 250 < 75000) ∧
    answers (.directionPulse 2000000 0 1100000 1175000) s (fun s' => s'.dev.pos.inputs[(0 : Fin 6)].dirBad == 1 && s'.dev.pos.sync == .stopped) = true ∧
    40000 < fld i.cfg 24 10 * 250 ∧ fld i.cfg 34 10 * 250 < 100000 ∧
    answers (.directionPulse 2000000 0 1100000 1140000) s (fun s' => s'.dev.pos.sync == .counting && s'.dev.pos.lastTooth == some 1100000) = true ∧
    answers (.directionPulse 2000000 0 1100000 1200000) s (fun s' => s'.dev.pos.sync == .counting) = true := by decide +kernel

theorem witness_PulsesAndSyntheticEdges_synthetic : let s := st fun d => let d := inMode .service d
      { d with sup := { d.sup with svc := 0x3E80001 }, pos := { d.pos with wheel := wheel, synTime := some 1000000 } }
    let w := s.dev.pos.wheel
    s.Inv ∧ s.dev.sup.mode = .service ∧ bit s.dev.sup.svc 0 = true ∧ s.dev.pos.synTime = some 1000000 ∧
    (w.synAngles.map fun a => if w.ahead s.dev.pos.synAngle a = 0 then w.cycLen else w.ahead s.dev.pos.synAngle a).min? = some (90 * degree) ∧
    s.now 15999999 < 1000000 + divRoundN (90 * degree * 1000000000) (6 * fld s.dev.sup.svc 16 16 * degree) ∧
    answers (.syntheticEdge 15999999) s (fun s' => s'.dev.pos.synAngle == 0) = true ∧
    1000000 + divRoundN (90 * degree * 1000000000) (6 * fld s.dev.sup.svc 16 16 * degree) ≤ s.now 16000000 ∧
    answers (.syntheticEdge 16000000) s (fun s' => s'.dev.pos.synAngle == 90 * degree && s'.dev.pos.synTime == some 16000000) = true := by decide +kernel

/-- A cam with one entry at an angle. -/
def camTable (a : Angle) (loss : Bool) : CamTable := { phase := true, loss := loss, vvt := false, missMax := 3, entries := [⟨a, 1000, false, false⟩] }

/-- The premises of CamEdge that all its clauses share. -/
abbrev camReady (s : State) (x : WheelEdge) (tb : CamTable) : Prop :=
  s.Inv ∧ s.dev.sup.mode.decodes = true ∧ s.dev.sup.mode ≠ .basecamp ∧ x.input = 2 ∧ fld s.dev.pos.inputs[(2 : Fin 6)].cfg 0 2 = 2 ∧
  fld s.dev.pos.inputs[(2 : Fin 6)].cfg 2 2 = 2 ∧ fld s.dev.pos.inputs[(2 : Fin 6)].cfg 4 8 ≤ x.samples ∧ s.dev.synthetic = false ∧
  bit s.dev.rope.cfg 2 = false ∧ s.dev.pos.wheel.cam 0 = some tb

/-- The angle at which a cam edge falls. -/
def angleOf (s : State) (x : WheelEdge) : Angle := ((s.dev.pos.angle + s.dev.pos.offsetNear x.stamp) % (s.dev.pos.wheel.cycLen : Int)).toNat

/-- No pass is outstanding in any of these states. -/
theorem witness_CamEdge_work (y : SyncState) (x : Int) (cfg : W64) (l : List (Option CamTable)) : (turning y x cfg l).dev.pos.work = [] := rfl

set_option maxRecDepth 50000 in
theorem witness_CamEdge : let x := edge 2 1050000
    let near := camTable (45 * degree) true
    let far (loss : Bool) := camTable (300 * degree) loss
    let s (y : SyncState) (tb : CamTable) (f : Pos → Pos := id) := turning y 0 (hall ||| 8) [some tb] f
    camReady (s .stopped near) x near ∧ (s .stopped near).dev.pos.sync = .stopped ∧
    answers (.camEdge 1050100 x) (s .stopped near) (fun s' => s'.dev.pos.inputs[(2 : Fin 6)].edges == 1) = true ∧
    camReady (s .full near) x near ∧ (s .full near).dev.pos.sync = .full ∧ (s .full near).dev.pos.rev = false ∧
    near.windows (wheel [some near]) (angleOf (s .full near) x) (!x.rising) = [0] ∧
    answers (.camEdge 1050100 x) (s .full near) (fun s' => s'.dev.pos.cams[(0 : Fin 4)].hits == [0] && s'.dev.pos.sync == .full) = true ∧
    camReady (s .full (far false)) x (far false) ∧ (far false).windows (wheel [some (far false)]) (angleOf (s .full (far false)) x) (!x.rising) = [] ∧
    answers (.camEdge 1050100 x) (s .full (far false)) (fun s' => s'.dev.pos.inputs[(2 : Fin 6)].noise == 1 && s'.dev.pos.sync == .full) = true ∧
    camReady (s .full (far true)) x (far true) ∧ (far true).windows (wheel [some (far true)]) (angleOf (s .full (far true)) x) (!x.rising) = [] ∧
    answers (.camEdge 1050100 x) (s .full (far true)) (fun s' => s'.dev.pos.lossCause == 7 && s'.dev.pos.sync == .counting) = true ∧
    answers (.camEdge 1050100 x) (s .full (far true) fun p => { p with lossPolicy := 0x80 }) (fun s' => s'.dev.pos.sync == .half) = true := by decide +kernel

set_option maxRecDepth 50000 in
theorem witness_PositionTimeouts : let c := turning .counting 0 hall [] fun p => { p with lastIntv := some (100000, 2 ^ 24) }
    let f := turning .full 0 hall
    let ready (s : State) : Prop := s.Inv ∧ s.dev.sup.mode.decodes = true ∧ s.dev.sup.mode ≠ .basecamp ∧ s.dev.pos.primFailed = none ∧
      s.dev.pos.rev = false ∧ s.dev.pos.sync ≠ .stopped ∧ s.dev.pos.lastTooth = some 1000000
    ready c ∧ ready f ∧ f.dev.pos.timedOut 1 1000000 (f.now 1200000) = false ∧
    answers (.toothTimeout 1200000) f (fun s' => s'.dev.pos.sync == .full) = true ∧
    c.dev.pos.sync = .counting ∧ c.dev.pos.timedOut (c.dev.pos.wheel.next c.dev.pos.absPos) 1000000 (c.now 2000000) = true ∧
    answers (.toothTimeout 2000000) c (fun s' => s'.dev.pos.sync == .counting && s'.dev.pos.lastTooth == none) = true ∧
    f.dev.pos.sync = .full ∧ f.dev.pos.dualMode = 0 ∧ f.dev.pos.wheel.next f.dev.pos.absPos = 1 ∧ f.dev.pos.timedOut 1 1000000 (f.now 1250000) = true ∧
    answers (.toothTimeout 1250000) f (fun s' => s'.dev.pos.sync == .counting && s'.dev.pos.lossCause == 4) = true ∧
    c.dev.pos.lastEdge = some 1000000 ∧ fld c.dev.pos.syncCfg 8 8 ≠ 0 ∧ 1000000 + fld c.dev.pos.syncCfg 8 8 * 1000000 ≤ c.now 300000000 ∧
    answers (.stall 300000000) c (fun s' => s'.dev.pos.sync == .stopped && s'.dev.pos.lossCause == 11) = true ∧
    answers (.posResidClr 300000000 .can0) c (fun s' => s'.dev.pos.residMax == 0) = true := by decide +kernel

/-! ### Events and admission -/

/-- Box 7 is COMMITTED with an event, its edge fixed at 2 ms. -/
def committed (ev : Event) (f : Dev → Dev := id) : State := st fun d => let d := inMode .run d
  f { d with loft := { d.loft with
    boxes := upd d.loft.boxes 7 fun b => { b with state := .committed, loft := 1, ev := ev, a := { present := true, fixed := true, time := 2000000 } }
    descrs := [(1, { state := .inBox, box := 7, ev := ev })] } }

/-- The premises of EdgeIssue that all its clauses share. -/
abbrev issueReady (s : State) : Prop :=
  let x := s.dev.loft.boxes[(7 : Fin 128)]
  s.clean ∧ x.state = .committed ∧ x.ending = none ∧ x.a.present = true ∧ x.a.fixed = true ∧ x.a.issued = false ∧ x.first.present = false ∧
  x.b.fixed = false ∧ x.off.present = false ∧ x.ev.type ≠ .ign ∧ ¬(x.ev.type = .pfi ∧ x.ev.isEnd = true)

/-- The guard's detail for the edge at a moment. -/
def guardOf (s : State) (t : Ns) : Nat := (s.dev.at t).guardDetailOf s.dev.loft.boxes[(7 : Fin 128)].ev s.dev.loft.boxes[(7 : Fin 128)].a.time

theorem witness_EdgeIssue_drive : let g := committed { type := .gate, output := 2 }
    let p := committed { type := .pfi, output := 15, durA := 3000000 }
    let i := committed { type := .di, output := 6, durA := 500000 }
    issueReady g ∧ g.now 1999967 + 32 < 2000000 ∧
    answers (.edgeIssue 1999967 (.box 7)) g (fun s' => s'.dev.loft.boxes[(7 : Fin 128)].started == none) = true ∧
    2000000 ≤ g.now 1999968 + 32 ∧ guardOf g 1999968 = 0 ∧
    answers (.edgeIssue 1999968 (.box 7)) g (fun s' => s'.dev.loft.boxes[(7 : Fin 128)].state == .active && s'.dev.gate[(2 : Fin 8)].pin.on) = true ∧
    issueReady p ∧ guardOf p 1999968 = 0 ∧
    answers (.edgeIssue 1999968 (.box 7)) p (fun s' => s'.dev.pfi[(15 : Fin 16)].pin.on && s'.dev.pfi[(15 : Fin 16)].measOn == [2000000] &&
      s'.dev.loft.boxes[(7 : Fin 128)].off.time == 5000000) = true ∧
    issueReady i ∧ guardOf i 1999968 = 0 ∧
    answers (.edgeIssue 1999968 (.box 7)) i (fun s' => s'.dev.banks[(1 : Fin 4)].owner == .box 7 && s'.dev.banks[(1 : Fin 4)].ls == 2 &&
      s'.dev.banks[(1 : Fin 4)].psq.te == 2500000) = true := by decide +kernel

theorem witness_EdgeIssue_unit : let p := committed { type := .pio, output := 5 }
    let g := committed { type := .pfi, output := 15, durA := 3000000 } fun d => { d with pfi := upd d.pfi 15 fun x => { x with owner := .ended } }
    issueReady p ∧ 2000000 ≤ p.now 2000000 ∧
    answers (.edgeIssue 2000000 (.box 7)) p (fun s' => s'.dev.pios.lines == 0x20 && s'.dev.loft.boxes[(7 : Fin 128)].complete) = true ∧
    issueReady g ∧ guardOf g 2000000 ≠ 0 ∧ EvType.drives .pfi = true ∧ g.onlyNoted 10 ∧
    answers (.edgeIssue 2000000 (.box 7)) g (fun s' => s'.dev.loft.boxes[(7 : Fin 128)].state == .closing && s'.dev.flt.source == 10) = true := by
  decide +kernel

theorem witness_ResultWrite : let s := st fun d => let d := inMode .run d
      { d with loft := { d.loft with
        boxes := upd d.loft.boxes 127 fun b => { b with state := .closing, loft := 3, complete := true, resid := some none, ev := { type := .gate, tag := 9 } }
        descrs := [(3, { state := .inBox, box := 127 }), (2047, { state := .ending, ev := { tag := 8 }, ending := { result := .cancelled, time := 5 } })] } }
    s.Inv ∧ s.dev.resultReady 127 = true ∧
    answers (.resultWrite 2000000 (.box 127)) s (fun s' => s'.dev.loft.boxes[(127 : Fin 128)].state == .free && s'.dev.recm.resultQ.length == 1) = true ∧
    s.dev.resultReady 0 = false ∧ answers (.resultWrite 2000000 (.box 0)) s (fun s' => s'.dev.recm.resultQ == []) = true ∧
    answers (.resultWrite 2000000 (.descriptor 2047)) s (fun s' => (s'.dev.descr 2047).isNone && s'.dev.recm.resultQ.length == 2 &&
      s'.dev.loft.boxes[(127 : Fin 128)].state == .free) = true := by decide +kernel

theorem witness_ResultWrite_ending : let s := st fun d => let d := inMode .run d
      { d with loft := { d.loft with descrs := [(2047, { state := .ending, ev := { tag := 8 }, ending := { result := .cancelled, time := 5 } })] } }
    s.Inv ∧ (s.dev.descr (2047 : Fin 2048).val).isSome = true ∧ ((s.dev.descr (2047 : Fin 2048).val).map (·.state)) = some .ending ∧
    (∀ c : Fin 128, s.dev.resultReady c = false) ∧ (∀ x ∈ s.dev.loft.descrs, x.1 < 2047 → x.2.state ≠ .ending) ∧
    answers (.resultWrite 2000000 (.descriptor 2047)) s (fun s' => (s'.dev.descr 2047).isNone && s'.dev.recm.resultQ.length == 1) = true := by decide +kernel

theorem witness_Submissions : let s := st fun d => let d := inMode .run d
      { d with adm := { d.adm with standing := [{ hold := false }, { hold := true }], owed := [⟨0, some 4, 5⟩, ⟨1, some 4, 4⟩] } }
    let z := st fun d => let d := inMode .run d
      { d with adm := { d.adm with standing := [{ hold := false }, { hold := true }], owed := [⟨1, some 4, 4⟩], net := { d.adm.net with fill := 32 } } }
    let y := st fun d => let d := inMode .run d; { d with adm := { d.adm with placed := some (0, 4) } }
    s.Inv ∧ s.dev.adm.net.fill < 32 ∧ answers (.admNetSubmit 2000000 .can0) s (fun s' => s'.dev.adm.net.fill == 1) = true ∧
    z.Inv ∧ 32 ≤ z.dev.adm.net.fill ∧ answers (.admNetSubmit 2000000 .can0) z (fun s' => s'.dev.adm.netFull && s'.dev.adm.net.fill == 32) = true ∧
    s.dev.adm.placed = none ∧ s.dev.adm.owed = [⟨0, some 4, 5⟩, ⟨1, some 4, 4⟩] ∧ s.dev.adm.standing[0]? = some { hold := false } ∧
    (s.dev.at 2000000).owedCycle ⟨0, some 4, 5⟩ = 4 ∧
    answers (.standingSubmission 2000000) s (fun s' => s'.dev.adm.placed == some (0, 4) && s'.dev.adm.owed == [⟨0, some 5, 5⟩, ⟨1, some 4, 4⟩]) = true ∧
    z.dev.adm.placed = none ∧ z.dev.adm.owed = [⟨1, some 4, 4⟩] ∧ z.dev.adm.standing[1]? = some { hold := true } ∧
    answers (.standingSubmission 2000000) z (fun s' => s'.dev.adm.placed == none && s'.dev.adm.owed == []) = true ∧
    y.Inv ∧ y.dev.adm.placed ≠ none ∧ answers (.standingSubmission 2000000) y (fun s' => s'.dev.adm.placed == some (0, 4)) = true := by decide +kernel

/-- Engine 7 waits for the answer to a PIO request; its first word is given. -/
def asking (m : Mode) (y : SyncState) (w0 : W64) : State := st fun d => let d := inMode m d
  { d with
    adm := { d.adm with ce := upd d.adm.ce 7 fun z => { z with fill := 1, entries := upd z.entries 0 fun e =>
      { e with waiting := true, words := #v[w0, 0x55, BitVec.ofNat 64 (400 * degree), 0, 0, 0, 0, 0] } }, turn := 6 }
    ce := upd d.ce 7 fun c => { c with state := .waitReq, reqEntry := some 0 }
    pos := { d.pos with wheel := wheel, corr := [0, 0, 0, 0], sync := y, nhat := 100000 * 65536, nk := 100000 * 65536, lastTooth := some 1000000, cycleNs := 800000 } }

/-- A request for PIO line 3. -/
def pioRequest : W64 := put 0 4 8 ||| put 8 8 3 ||| put 16 5 0x1F

theorem witness_AdmissionDecision : (st (inMode .run)).clean ∧ (st (inMode .run)).dev.pos.work = [] ∧ (st (inMode .run)).dev.nextSource = none ∧
    answers (.admissionDecision 1000000) (st (inMode .run)) (fun s' => s'.dev.adm.acc == 0) = true ∧
    (let s := asking .run .full 0
     s.clean ∧ s.dev.nextSource = some (7 : Fin 8).val ∧ s.dev.fieldDetail (s.dev.offered 7) false ≠ 0 ∧
     answers (.admissionDecision 1000000) s (fun s' => fld s'.dev.adm.last 0 4 == 4 && s'.dev.adm.rej == 1) = true) ∧
    (let s := asking .basecamp .full pioRequest
     s.clean ∧ s.dev.nextSource = some (7 : Fin 8).val ∧ s.dev.fieldDetail (s.dev.offered 7) false = 0 ∧ s.dev.modeAdmits .pio 7 = false ∧
     bit (reqWord (s.dev.offered 7) 0) 32 = false ∧ bit (reqWord (s.dev.offered 7) 0) 33 = false ∧
     answers (.admissionDecision 1000000) s (fun s' => fld s'.dev.adm.last 0 4 == 3) = true) ∧
    (let s := asking .run .counting pioRequest
     s.clean ∧ s.dev.nextSource = some (7 : Fin 8).val ∧ s.dev.fieldDetail (s.dev.offered 7) false = 0 ∧ s.dev.modeAdmits .pio 7 = true ∧
     s.dev.pos.synced = false ∧ answers (.admissionDecision 1000000) s (fun s' => fld s'.dev.adm.last 0 4 == 2) = true) := by decide +kernel

/-- An accepted request: which free descriptor it takes is free, so the answer is not computed here. -/
theorem witness_AdmissionDecision_full : let s := asking .run .full pioRequest
    s.clean ∧ s.dev.nextSource = some (7 : Fin 8).val ∧ s.dev.fieldDetail (s.dev.offered 7) false = 0 ∧ s.dev.modeAdmits .pio 7 = true ∧
    s.dev.pos.work = [] ∧ s.dev.pos.sync = .full ∧ s.dev.pos.synced = true := by decide +kernel

/-! ### Profile sequencers and banks -/

/-- Bank 2 runs a profile of eight words from index 4 on, PC 5 at a word; its step starts at 1 ms, t_e is at 2 ms. -/
def seq (w : W64) (f : Bank → Bank := id) (g : Dev → Dev := id) : State :=
  let q (p : Psq) : Psq := { p with phase := .ready, stepAt := 1000000, ts := 900000, te := 2000000, pc := 5, profStart := 4, profLen := 8 }
  let x (b : Box) : Box := { b with state := .active, ev := { type := .di, output := 8 } }
  st (fun d => let d := inMode .run d
    g { d with
      banks := upd d.banks 2 fun b => f { b with cfg := b.cfg ||| 0x1F, owner := .box 7, psq := q b.psq }
      loft := { d.loft with boxes := upd d.loft.boxes 7 x } })
    [.bytes (profAddr 2 5) (wordBytes w)]

theorem witness_PsqInstructions : let s (op : Nat) := seq (put 0 4 op ||| put 4 3 2)
    (s 0).clean ∧ (s 0).psqAt 2 1000000 (put 0 4 0 ||| put 4 3 2) ∧ (s 0).dev.banks[(2 : Fin 4)].sw ≠ SwState.ofCode 2 ∧
    answers (.psqDrive 1000000 2) (s 0) (fun s' => s'.dev.banks[(2 : Fin 4)].sw == SwState.ofCode 2 && s'.dev.banks[(2 : Fin 4)].lsPins[(0 : Fin 4)].on) = true ∧
    (seq 0).psqAt 2 999968 0 ∧ (seq 0).dev.banks[(2 : Fin 4)].sw = SwState.ofCode 0 ∧
    answers (.psqDrive 999968 2) (seq 0) (fun s' => s'.dev.banks[(2 : Fin 4)].sw == .decay) = true ∧
    (s 1).clean ∧ (s 1).psqAt 2 1000000 (put 0 4 1 ||| put 4 3 2) ∧ (s 1).dev.banks[(2 : Fin 4)].psq.stepAt ≤ (s 1).now 1000000 ∧
    answers (.untilAbove 1000000 2) (s 1) (fun s' => s'.dev.banks[(2 : Fin 4)].psq.phase == .waitHi 1000004) = true ∧
    (s 2).clean ∧ (s 2).psqAt 2 1000000 (put 0 4 2 ||| put 4 3 2) ∧
    answers (.untilBelow 1000000 2) (s 2) (fun s' => s'.dev.banks[(2 : Fin 4)].psq.phase == .waitLo 1000004) = true ∧
    (s 3).clean ∧ (s 3).psqAt 2 1000000 (put 0 4 3 ||| put 4 3 2) ∧
    answers (.wait 1000000 2) (s 3) (fun s' => s'.dev.banks[(2 : Fin 4)].psq.phase == .timed 1000004 (.seq 1)) = true := by decide +kernel

theorem witness_PsqInstructions_chop : let s (op : Nat) := seq (put 0 4 op ||| put 4 3 2 ||| put 7 3 3 ||| put 10 10 80 ||| put 23 10 60 ||| put 36 4 1)
    (s 4).clean ∧ (s 4).psqAt 2 1000000 (put 0 4 4 ||| put 4 3 2 ||| put 7 3 3 ||| put 10 10 80 ||| put 23 10 60 ||| put 36 4 1) ∧
    (s 4).dev.banks[(2 : Fin 4)].psq.args = 0 ∧
    answers (.chop 1000000 2) (s 4) (fun s' => s'.dev.banks[(2 : Fin 4)].psq.phase == .chop (some 1000004) && s'.dev.banks[(2 : Fin 4)].dacHi == 80 &&
      s'.dev.banks[(2 : Fin 4)].dacLo == 60) = true ∧
    (s 5).clean ∧ (s 5).psqAt 2 1000000 (put 0 4 5 ||| put 4 3 2 ||| put 7 3 3 ||| put 10 10 80 ||| put 23 10 60 ||| put 36 4 1) ∧
    answers (.chopToEnd 1000000 2) (s 5) (fun s' => s'.dev.banks[(2 : Fin 4)].psq.phase == .chop none && s'.dev.banks[(2 : Fin 4)].psq.minSw == 250) = true := by
  decide +kernel

/-- Bank 2 starts the step of a word at 1 ms. -/
abbrev ready (w : W64) : Prop := (seq w).clean ∧ (seq w).psqAt 2 1000000 w ∧ (seq w).dev.banks[(2 : Fin 4)].psq.stepAt ≤ (seq w).now 1000000

/-- A branch on F2, on LO, a loop of no and of three rounds, a sample, a mark, END. -/
theorem witness_PsqFlow : let br (c : Nat) : W64 := put 0 4 6 ||| put 4 4 c ||| put 9 10 6
    let lp (n : Nat) : W64 := put 0 4 7 ||| put 4 10 n ||| put 14 10 3 ||| put 24 1 1
    ready (br 2) ∧ fld (br 2) 4 4 < 10 ∧ answers (.branch 1000000 2 false false) (seq (br 2)) (fun s' => s'.dev.banks[(2 : Fin 4)].psq.phase == .timed 1000004 (.seq 1)) = true ∧
    ready (br 9) ∧ fld (br 9) 4 4 < 10 ∧ answers (.branch 1000000 2 false true) (seq (br 9)) (fun s' => s'.dev.banks[(2 : Fin 4)].psq.phase == .timed 1000004 (.jump 6)) = true ∧
    (let s := seq (br 9) (fun b => { b with lastSw := 1000000, cmpLo := false })
     s.clean ∧ s.psqAt 2 1000000 (br 9) ∧ ¬s.dev.banks[(2 : Fin 4)].lastSw + s.dev.banks[(2 : Fin 4)].blank ≤ s.dev.banks[(2 : Fin 4)].psq.stepAt ∧
     answers (.branch 1000000 2 false true) s (fun s' => s'.dev.banks[(2 : Fin 4)].psq.phase == .timed 1000004 (.seq 1) &&
       !s'.dev.banks[(2 : Fin 4)].cmpLo) = true) ∧
    ready (lp 0) ∧ fld (lp 0) 4 10 = 0 ∧ answers (.loop 1000000 2) (seq (lp 0)) (fun s' => s'.dev.banks[(2 : Fin 4)].psq.phase == .timed 1000004 (.seq 3)) = true ∧
    ready (lp 3) ∧ fld (lp 3) 4 10 ≠ 0 ∧ answers (.loop 1000000 2) (seq (lp 3)) (fun s' => s'.dev.banks[(2 : Fin 4)].psq.phase == .timed 1000004 (.jump 2) &&
      s'.dev.banks[(2 : Fin 4)].psq.lc[(1 : Fin 2)] == 3) = true := by decide +kernel

theorem witness_PsqFlow_marks :
    ready 8 ∧ answers (.psqSample 1000000 2) (seq 8) (fun s' => s'.dev.banks[(2 : Fin 4)].psq.phase == .timed 1000004 (.seq 1)) = true ∧
    ready 0x19 ∧ answers (.mark 1000000 2) (seq 0x19) (fun s' => s'.dev.banks[(2 : Fin 4)].psq.last.mark1 == 100000) = true ∧
    ready 10 ∧ answers (.psqEnd 1000000 2) (seq 10) (fun s' => s'.dev.banks[(2 : Fin 4)].sw == .decay && s'.dev.banks[(2 : Fin 4)].psq.last.early &&
      s'.dev.banks[(2 : Fin 4)].psq.endAt == some 1000000) = true := by decide +kernel

/-- Bank 2 is in a phase. -/
def waitingFor (p : PsqPhase) (w : W64 := 0) (f : Psq → Psq := id) (g : Dev → Dev := id) : State :=
  seq w (fun b => { b with psq := f { b.psq with phase := p } }) g

theorem witness_PsqWaits_met : let s := waitingFor (.waitHi 1500000)
    let l := waitingFor (.waitLo 1500000)
    let q := s.dev.banks[(2 : Fin 4)].psq
    s.clean ∧ q.phase = .waitHi 1500000 ∧ q.stepAt + 64 ≤ s.now 1000064 ∧ s.dev.banks[(2 : Fin 4)].lastSw + s.dev.banks[(2 : Fin 4)].blank ≤ s.now 1000064 ∧
    q.afterNext (s.now 1000064) ≤ 1500000 ∧ s.now 1000064 < q.te ∧
    answers (.waitConditionMet 1000064 2) s (fun s' => s'.dev.banks[(2 : Fin 4)].psq.phase == .timed 1000072 (.seq 1) && s'.dev.banks[(2 : Fin 4)].cmpHi) = true ∧
    l.clean ∧ l.dev.banks[(2 : Fin 4)].psq.phase = .waitLo 1500000 ∧
    answers (.waitConditionMet 1000064 2) l (fun s' => s'.dev.banks[(2 : Fin 4)].cmpLo) = true ∧
    ¬(q.stepAt + 64 ≤ s.now 1000063 ∧ s.dev.banks[(2 : Fin 4)].lastSw + s.dev.banks[(2 : Fin 4)].blank ≤ s.now 1000063) ∧
    answers (.waitConditionMet 1000063 2) s (fun s' => s'.dev.banks[(2 : Fin 4)].psq.phase == .waitHi 1500000) = true ∧
    answers (.chopSwitch 1000063 2) s (fun s' => s'.dev.banks[(2 : Fin 4)].psq.phase == .waitHi 1500000) = true := by decide +kernel

theorem witness_PsqWaits_timeout : let w : W64 := put 17 3 4 ||| put 20 1 1
    let s := waitingFor (.waitHi 1500000) w
    let l := waitingFor (.waitLo 1500000) (w ||| put 21 1 1 ||| put 22 10 7)
    s.clean ∧ s.dev.banks[(2 : Fin 4)].psq.phase = .waitHi 1500000 ∧ 1500000 ≤ s.now 1500000 ∧ 1500000 < s.dev.banks[(2 : Fin 4)].psq.te ∧
    bit w 21 = false ∧ s.dev.banks[(2 : Fin 4)].psq.lc = Vector.replicate 2 0 ∧ s.mems.word (profAddr 2 s.dev.banks[(2 : Fin 4)].psq.pc) = w ∧
    answers (.waitTimeout 1500000 2) s (fun s' => s'.dev.banks[(2 : Fin 4)].psq.pc == 6 && s'.dev.banks[(2 : Fin 4)].psq.flags == 0x10) = true ∧
    l.clean ∧ l.dev.banks[(2 : Fin 4)].psq.phase = .waitLo 1500000 ∧ bit (l.mems.word (profAddr 2 5)) 21 = true ∧
    answers (.waitTimeout 1500000 2) l (fun s' => s'.dev.banks[(2 : Fin 4)].psq.pc == 11) = true := by decide +kernel

theorem witness_PsqWaits_chop : let s := waitingFor (.chop (some 1500000)) 4 fun q => { q with chopAt := 1000000, minSw := 250, chopOn := true }
    s.clean ∧ s.dev.banks[(2 : Fin 4)].psq.phase = .chop (some 1500000) ∧ s.dev.banks[(2 : Fin 4)].psq.stepAt + 64 ≤ s.now 1000250 ∧
    s.dev.banks[(2 : Fin 4)].lastSw + s.dev.banks[(2 : Fin 4)].blank ≤ s.now 1000250 ∧
    s.dev.banks[(2 : Fin 4)].psq.ts + (s.now 1000250 - s.dev.banks[(2 : Fin 4)].psq.ts) / 4 * 4 + 4 = 1000252 ∧
    s.dev.banks[(2 : Fin 4)].psq.chopAt + s.dev.banks[(2 : Fin 4)].psq.minSw ≤ 1000252 ∧ 1000252 < s.dev.banks[(2 : Fin 4)].psq.te ∧ 1000252 < 1500000 ∧
    answers (.chopSwitch 1000250 2) s (fun s' => s'.dev.banks[(2 : Fin 4)].sw == .free && !s'.dev.banks[(2 : Fin 4)].psq.chopOn) = true := by decide +kernel

theorem witness_PsqWaits_end : ∀ p ∈ [PsqPhase.waitHi 2500000, .waitLo 2500000, .chop none], let s := waitingFor p 1
    s.clean ∧ s.now 1999967 + 32 < s.dev.banks[(2 : Fin 4)].psq.te ∧
    answers (.commandedEnd 1999967 2) s (fun s' => s'.dev.banks[(2 : Fin 4)].psq.phase == p) = true ∧
    s.dev.banks[(2 : Fin 4)].psq.phase = p ∧ s.dev.banks[(2 : Fin 4)].psq.te ≤ s.now 1999968 + 32 ∧ s.dev.banks[(2 : Fin 4)].psq.endAt = none ∧
    answers (.commandedEnd 1999968 2) s (fun s' => s'.dev.banks[(2 : Fin 4)].sw == .decay && s'.dev.banks[(2 : Fin 4)].psq.endAt == some 2000000) = true := by
  decide +kernel

theorem witness_BankEnds : let s := waitingFor (.waitEnd 1500000) 0 (fun q => { q with endAt := some 1000000 }) fun d => { d with diag := { d.diag with react := 0, cfg := 0 } }
    let b := s.dev.banks[(2 : Fin 4)]
    s.clean ∧ b.psq.phase = .waitEnd 1500000 ∧ b.owner = .box 7 ∧ b.psq.stepAt + 64 ≤ s.now 1200000 ∧ b.lastSw + b.blank ≤ s.now 1200000 ∧ s.now 1200000 ≤ 1500000 ∧
    fld s.dev.diag.flagMask (8 * (2 : Fin 4).val) 8 &&& b.psq.flags.toNat = 0 ∧ s.dev.loft.boxes[(7 : Fin 128)].state = .active ∧
    answers (.bankRelease 1200000 2) s (fun s' => s'.dev.banks[(2 : Fin 4)].owner == .none && s'.dev.banks[(2 : Fin 4)].rel == 1200000 &&
      s'.dev.loft.boxes[(7 : Fin 128)].state == .closing) = true ∧
    1500000 ≤ s.now 1500000 ∧ fld s.dev.diag.react 24 2 = 0 ∧
    answers (.endTimeout 1500000 2) s (fun s' => s'.dev.banks[(2 : Fin 4)].rel == 1500000 && s'.dev.diag.cnt[(12 : Fin 16)] == 1) = true ∧
    b.owner ≠ .none ∧ b.psq.ts ≤ s.now 1200000 ∧ bit s.dev.diag.cfg 0 = false ∧
    answers (.bankSample 1200000 2 125000000) s (fun s' => s'.dev.banks[(2 : Fin 4)].cur == 2048 && s'.dev.banks[(2 : Fin 4)].psq.last.peak == 2048) = true ∧
    (let z := waitingFor (.waitEnd 1500000) 0 (fun q => { q with last := { q.last with sampled := true, peak := 3000 } }) fun d => { d with diag := { d.diag with cfg := 0 } }
     answers (.bankSample 1200000 2 125000000) z (fun s' => s'.dev.banks[(2 : Fin 4)].cur == 2048 && s'.dev.banks[(2 : Fin 4)].psq.last.peak == 3000) = true) ∧
    s.dev.banks[(3 : Fin 4)].owner = .none ∧ answers (.bankSample 1200000 3 125000000) s (fun s' => s'.dev.banks[(3 : Fin 4)].cur == 0) = true := by decide +kernel

/-! ### Diagnostics, coils, boost -/

/-- Low side 3 of bank 1 on since 1 ms, held by box 7; DI_SCB_ON with a reaction. -/
def vds (react : Nat) : State := st fun d => let d := inMode .run d
  { d with
    banks := upd d.banks 1 fun b => { b with owner := .box 7, ls := 3, lsPins := upd b.lsPins 3 fun p => { p with on := true, since := 1000000 } }
    loft := { d.loft with boxes := upd d.loft.boxes 7 fun x => { x with state := .active, ev := { type := .di, output := 7 } } }
    diag := { d.diag with react := merge (mask64 2 2) d.diag.react (put 2 2 react) } }

theorem witness_DriveDiagnostics_vds : let s := vds 0
    let wait := (fld s.dev.diag.vds 24 8 + fld s.dev.diag.vds 32 8) * 100
    let lim := 50 * fld s.dev.diag.vds 0 8
    s.clean ∧ bit s.dev.diag.cfg 0 = true ∧ s.dev.banks[(1 : Fin 4)].lsPins[(0 : Fin 4)].on = false ∧
    answers (.vdsFault 1100000 ⟨.ls 1 0, 1000000, (lim + 1), 12000⟩) s (fun s' => s'.dev.diag.cnt[(1 : Fin 16)] == 0) = true ∧
    s.now 1000100 < s.dev.banks[(1 : Fin 4)].lsPins[(3 : Fin 4)].since + wait ∧
    answers (.vdsFault 1000100 ⟨.ls 1 3, 1000000, (lim + 1), 12000⟩) s (fun s' => s'.dev.diag.cnt[(1 : Fin 16)] == 0) = true ∧
    answers (.vdsFault 1100000 ⟨.ls 1 3, 1000000, lim, 12000⟩) s (fun s' => s'.dev.diag.cnt[(1 : Fin 16)] == 0) = true ∧
    answers (.vdsFault 1100000 ⟨.ls 1 3, 1099999, (lim + 1), 12000⟩) s (fun s' => s'.dev.diag.cnt[(1 : Fin 16)] == 0) = true ∧
    s.dev.banks[(1 : Fin 4)].lsPins[(3 : Fin 4)].on = true ∧ s.dev.banks[(1 : Fin 4)].lsPins[(3 : Fin 4)].since + wait ≤ s.now 1100000 ∧
    fld s.dev.diag.react 2 2 = 0 ∧ s.dev.banks[(1 : Fin 4)].owner = .box 7 ∧
    answers (.vdsFault 1100000 ⟨.ls 1 3, 1000000, (lim + 1), 12000⟩) s (fun s' => s'.dev.diag.cnt[(1 : Fin 16)] == 1 && s'.dev.loft.boxes[(7 : Fin 128)].part.dclass == 2 &&
      s'.dev.diag.disabled == 0) = true ∧
    (vds 1).clean ∧ fld (vds 1).dev.diag.react 2 2 = 1 ∧
    answers (.vdsFault 1100000 ⟨.ls 1 3, 1000000, (lim + 1), 12000⟩) (vds 1) (fun s' => bit s'.dev.diag.disabled 7 && s'.dev.flt.valid) = true := by decide +kernel

/-- The high sides of bank 1 and port injector 5 are on since 1 ms, with BST at 65 V. -/
theorem witness_DriveDiagnostics_high : let on : Pin := { on := true, since := 1000000 }
    let s := st fun d => let d := inMode .run d
      { d with
        banks := upd d.banks 1 fun b => { b with hsb := on, hsv := on }
        pfi := upd d.pfi 5 fun p => { p with pin := on }
        bst := { d.bst with volt := 6500 }
        diag := { d.diag with react := 0 } }
    let hs := 50 * fld s.dev.diag.vds 8 8
    let lim := 50 * fld s.dev.diag.vds 16 8
    s.clean ∧ bit s.dev.diag.cfg 0 = true ∧ 1000000 + fld s.dev.diag.vds 24 8 * 100 + fld s.dev.diag.vds 32 8 * 100 ≤ s.now 1100000 ∧
    answers (.vdsFault 1100000 ⟨.hsb 1, 1000000, (64999 - hs), 12000⟩) s (fun s' => s'.dev.diag.cnt[(3 : Fin 16)] == 1) = true ∧
    answers (.vdsFault 1100000 ⟨.hsb 1, 1000000, (65000 - hs), 12000⟩) s (fun s' => s'.dev.diag.cnt[(3 : Fin 16)] == 0) = true ∧
    answers (.vdsFault 1100000 ⟨.hsv 1, 1000000, (11999 - hs), 12000⟩) s (fun s' => s'.dev.diag.cnt[(3 : Fin 16)] == 1) = true ∧
    answers (.vdsFault 1100000 ⟨.pfi 5, 1000000, (lim + 1), 12000⟩) s (fun s' => s'.dev.diag.cnt[(6 : Fin 16)] == 1) = true := by decide +kernel

/-- Bank 0 is enabled and idle, its low sides too; PFI 4 is enabled. -/
def offState (f : Bank → Bank := id) (g : Pfi → Pfi := id) : State := st fun d => let d := inMode .run d
  { d with banks := upd d.banks 0 fun b => f { b with cfg := b.cfg ||| 0x1F }, pfi := upd d.pfi 4 fun p => g { p with cfg := p.cfg ||| 1 } }

theorem witness_DriveDiagnostics_bank : let a := offState
    let b := offState fun b => { b with testRun := true, testFrom := 1980000 }
    let c := offState fun b => { b with testRun := true, testB := some 3, testFrom := 1980000, biasAt := 1990000 }
    a.Inv ∧ bit a.dev.diag.cfg 1 = true ∧ a.dev.banks[(0 : Fin 4)].enabled = true ∧ a.dev.banks[(0 : Fin 4)].owner = .none ∧
    a.dev.banks[(0 : Fin 4)].testRun = false ∧ a.dev.banks[(0 : Fin 4)].testAt ≤ a.now 2000000 ∧ a.dev.banks[(0 : Fin 4)].everRel = false ∧
    answers (.diOffStateTest 2000000 0) a (fun s' => s'.dev.banks[(0 : Fin 4)].testRun) = true ∧
    b.Inv ∧ b.dev.banks[(0 : Fin 4)].testRun = true ∧ b.dev.banks[(0 : Fin 4)].testB = none ∧ 999 < 1000 ∧
    b.now 2025000 ≤ b.dev.banks[(0 : Fin 4)].testFrom + 45000 ∧ b.dev.banks[(0 : Fin 4)].testFrom + 45000 < b.now 2025001 ∧
    answers (.offTestRead 2025001 (.bank 0) 999 12000) b (fun s' => !s'.dev.banks[(0 : Fin 4)].testRun && s'.dev.diag.scgOff[(0 : Fin 4)] == 0) = true ∧
    b.dev.diag.scgOff[(0 : Fin 4)] + 1 < fld b.dev.diag.offCfg 16 4 ∧
    answers (.offTestRead 2000000 (.bank 0) 999 12000) b (fun s' => !s'.dev.banks[(0 : Fin 4)].testRun && s'.dev.diag.scgOff[(0 : Fin 4)] == 1) = true ∧
    1000 ≤ 4500 ∧ bit b.dev.banks[(0 : Fin 4)].cfg 1 = true ∧
    answers (.offTestRead 2000000 (.bank 0) 1000 12000) b (fun s' => s'.dev.banks[(0 : Fin 4)].testB == some 0) = true ∧
    answers (.offTestRead 2000000 (.bank 0) 4500 12000) b (fun s' => s'.dev.banks[(0 : Fin 4)].testB == some 0) = true ∧
    c.Inv ∧ c.dev.banks[(0 : Fin 4)].testB = some 3 ∧ c.dev.banks[(0 : Fin 4)].testBad = [] ∧ bit c.dev.banks[(0 : Fin 4)].cfg 4 = true ∧
    c.dev.banks[(0 : Fin 4)].biasAt + 10000 ≤ c.now 2000000 ∧ c.now 1999999 < c.dev.banks[(0 : Fin 4)].biasAt + 10000 ∧
    answers (.offTestRead 1999999 (.bank 0) 1000 12000) c (fun s' => s'.dev.banks[(0 : Fin 4)].testRun) = true ∧
    answers (.offTestRead 2000000 (.bank 0) 1000 12000) c (fun s' => s'.dev.diag.olOff[(3 : Fin 16)] == 1) = true ∧
    answers (.offTestRead 2000000 (.bank 0) 999 12000) c (fun s' => !s'.dev.banks[(0 : Fin 4)].testRun && s'.dev.diag.olOff[(3 : Fin 16)] == 0) = true := by
  decide +kernel

theorem witness_DriveDiagnostics_pfi : let a := offState
    let b := offState id fun p => { p with testRun := true, testFrom := 1985000, biasAt := 1990000 }
    let c := offState id fun p => { p with testRun := true, testFrom := 1985000, biasAt := 1990000, testPhase2 := true }
    a.Inv ∧ bit a.dev.diag.cfg 1 = true ∧ bit a.dev.pfi[(4 : Fin 16)].cfg 0 = true ∧ a.dev.pfi[(4 : Fin 16)].owner = .none ∧
    a.dev.pfi[(4 : Fin 16)].pin.on = false ∧ a.dev.pfi[(4 : Fin 16)].pin.since ≤ a.now 2000000 ∧ a.dev.pfi[(4 : Fin 16)].testRun = false ∧
    a.dev.pfi[(4 : Fin 16)].testAt ≤ a.now 2000000 ∧ a.dev.pfi[(4 : Fin 16)].lastOff = none ∧
    answers (.pfiOffStateTest 2000000 4) a (fun s' => s'.dev.pfi[(4 : Fin 16)].testRun) = true ∧
    b.Inv ∧ b.dev.pfi[(4 : Fin 16)].testRun = true ∧ b.dev.pfi[(4 : Fin 16)].testPhase2 = false ∧ 12000 ≤ 2 * 6000 ∧
    b.now 2000000 ≤ b.dev.pfi[(4 : Fin 16)].testFrom + 21000 ∧ b.dev.pfi[(4 : Fin 16)].biasAt + 10000 ≤ b.now 2000000 ∧
    answers (.offTestRead 2006001 (.pfi 4) 6000 12000) b (fun s' => !s'.dev.pfi[(4 : Fin 16)].testRun) = true ∧
    answers (.offTestRead 1999999 (.pfi 4) 6000 12000) b (fun s' => s'.dev.pfi[(4 : Fin 16)].testRun) = true ∧
    c.Inv ∧ c.dev.pfi[(4 : Fin 16)].testPhase2 = true ∧ c.dev.diag.pfiOl[(4 : Fin 16)] + 1 < fld c.dev.diag.offCfg 16 4 ∧
    c.dev.diag.pfiScg[(4 : Fin 16)] + 1 < fld c.dev.diag.offCfg 16 4 ∧
    answers (.offTestRead 2000000 (.pfi 4) 2000 12000) c (fun s' => s'.dev.diag.pfiOl[(4 : Fin 16)] == 1 && s'.dev.diag.pfiScg[(4 : Fin 16)] == 0) = true ∧
    answers (.offTestRead 2000000 (.pfi 4) 1999 12000) c (fun s' => s'.dev.diag.pfiOl[(4 : Fin 16)] == 0 && s'.dev.diag.pfiScg[(4 : Fin 16)] == 1) = true ∧
    answers (.offTestRead 2000000 (.pfi 4) 6000 12000) b (fun s' => !s'.dev.pfi[(4 : Fin 16)].testRun) = true ∧
    2 * 5999 < 12000 ∧ answers (.offTestRead 2000000 (.pfi 4) 5999 12000) b (fun s' => s'.dev.pfi[(4 : Fin 16)].testPhase2) = true ∧
    answers (.diagDisabledClear 2000000 .can0 1) a (fun s' => s'.dev.diag.disabled == 0) = true := by decide +kernel

theorem witness_DelaysAndCoils_delays : let s (on off : List Ns) := st fun d => let d := inMode .run d
      { d with pfi := upd d.pfi 9 fun p => { p with measOn := on, measOff := off }, diag := { d.diag with react := 0 } }
    (s [990000, 1000000] []).clean ∧ (s [990000, 1000000] []).dev.pfi[(9 : Fin 16)].measOn.getLast? = some 1000000 ∧ (s [990000, 1000000] []).now 1065534 < 1000000 + 65535 ∧
    answers (.drainDelayMeasured 1065534 9 true) (s [990000, 1000000] []) (fun s' => s'.dev.pfi[(9 : Fin 16)].donDly == 65534) = true ∧
    (s [] [1000000]).clean ∧ (s [] [1000000]).dev.pfi[(9 : Fin 16)].measOff.getLast? = some 1000000 ∧ (s [] [1000000]).now 1000300 < 1000000 + 65535 ∧
    answers (.drainDelayMeasured 1000300 9 false) (s [] [1000000]) (fun s' => s'.dev.pfi[(9 : Fin 16)].doffDly == 300) = true ∧
    1000000 + 65535 ≤ (s [] [1000000]).now 1065535 ∧ fld (s [] [1000000]).dev.diag.react 18 2 = 0 ∧
    answers (.drainDelaySaturated 1065535 9 false) (s [] [1000000]) (fun s' => s'.dev.pfi[(9 : Fin 16)].noOff && s'.dev.diag.cnt[(9 : Fin 16)] == 1) = true ∧
    (s [] []).clean ∧ (s [] []).dev.pfi[(9 : Fin 16)].measOn = [] ∧ (s [] []).dev.pfi[(9 : Fin 16)].measOff = [] ∧
    answers (.drainDelayMeasured 1000300 9 true) (s [] []) (fun s' => s'.dev.pfi[(9 : Fin 16)].donDly == 0) = true := by decide +kernel

/-- Coil 6 dwells since 1 ms for box 7, or ramps until 2 ms. -/
def coil (soft : Bool) : State := st fun d => let d := inMode .run d
  { d with
    ign := upd d.ign 6 fun g => { g with soft := soft, owner := .box 7, rampEnd := 2000000, dwellAt := 1000000, pin := { on := true, since := 1000000 } }
    loft := { d.loft with boxes := upd d.loft.boxes 7 fun x => { x with state := .active, ev := { type := .ign, output := 6 } } } }

theorem witness_DelaysAndCoils_coils : let r := coil true
    let s := coil false
    let most := fld s.dev.ign[(6 : Fin 16)].cfg 16 16 * 10000
    r.clean ∧ r.dev.ign[(6 : Fin 16)].soft = true ∧ r.dev.ign[(6 : Fin 16)].rampEnd ≤ r.now 2000000 ∧ r.dev.ign[(6 : Fin 16)].owner = .box 7 ∧
    answers (.softShutdownEnd 2000000 6) r (fun s' => s'.dev.ign[(6 : Fin 16)].owner == .none && s'.dev.loft.boxes[(7 : Fin 128)].complete) = true ∧
    r.now 1999999 < r.dev.ign[(6 : Fin 16)].rampEnd ∧ answers (.softShutdownEnd 1999999 6) r (fun s' => s'.dev.ign[(6 : Fin 16)].soft) = true ∧
    s.clean ∧ s.dev.ign[(6 : Fin 16)].soft = false ∧ s.dev.ign[(6 : Fin 16)].owner = .box 7 ∧ s.dev.ign[(6 : Fin 16)].pin.on = true ∧
    s.dev.ign[(6 : Fin 16)].pin.since ≤ s.now (1000000 + most) ∧ s.dev.ign[(6 : Fin 16)].dwellAt + most ≤ s.now (1000000 + most) ∧ s.onlyNoted 12 ∧
    answers (.maxDwellGuard (1000000 + most) 6) s (fun s' => s'.dev.ign[(6 : Fin 16)].soft && s'.dev.flt.source == 12 &&
      s'.dev.loft.boxes[(7 : Fin 128)].state == .closing) = true ∧
    (s.dev.at (1000000 + most)).sparkDue (.box 7) = false ∧
    s.now (999999 + most) < s.dev.ign[(6 : Fin 16)].dwellAt + most ∧
    answers (.maxDwellGuard (999999 + most) 6) s (fun s' => !s'.dev.ign[(6 : Fin 16)].soft) = true := by decide +kernel

/-- The spark of coil 6 is due in the clock in which its dwell reaches the limit. -/
theorem witness_DelaysAndCoils_spark : let most := fld (coil false).dev.ign[(6 : Fin 16)].cfg 16 16 * 10000
    let s := (coil false)
    let y : State := { s with dev := { s.dev with loft := { s.dev.loft with
      boxes := upd s.dev.loft.boxes 7 fun x => { x with first := { present := true, issued := true }, a := { present := true, fixed := true, time := 1000000 + most } } } } }
    y.clean ∧ (y.dev.at (1000000 + most)).sparkDue y.dev.ign[(6 : Fin 16)].owner = true ∧
    answers (.maxDwellGuard (1000000 + most) 6) y (fun s' => !s'.dev.ign[(6 : Fin 16)].soft) = true := by decide +kernel

/-- The boost controller at V_SET 65 V in a phase, with a voltage. -/
def boost (p : BstPhase) (volt : Nat) (f : Bst → Bst := id) : State := st fun d => let d := inMode .run d
  { d with
    bst := f { d.bst with cfg := d.bst.cfg ||| 0x3FF0001, set := put 0 16 6500 ||| put 16 16 100, phase := p, volt := volt }
    diag := { d.diag with react := 0 } }

/-- The premises of Boost that all its clauses share. -/
abbrev boostReady (s : State) : Prop := s.clean ∧ s.dev.bst.enabled = true ∧ s.dev.sup.mode.boost = true ∧ s.dev.bst.held = false

theorem witness_Boost_cycle : let i := boost .idle 6400
    let n := boost (.on 1000000) 6400
    let ton := fld n.dev.bst.cfg 32 16
    let e := { i with dev := { i.dev with banks := upd i.dev.banks 3 fun b => { b with psq := { b.psq with endAt := some 2000001 } } } }
    boostReady i ∧ i.dev.bst.phase = .idle ∧ boostReady e ∧
    answers (.bstVoltUpdate 2000000 600000) e (fun s' => s'.dev.banks[(3 : Fin 4)].vBst == s'.dev.bst.volt && s'.dev.banks[(2 : Fin 4)].vBst == 0) = true ∧
    answers (.bstVoltUpdate 2000000 600000) i (fun s' => s'.dev.bst.phase == .on 2000000 && s'.dev.bst.pin.on) = true ∧
    answers (.bstVoltUpdate 2000000 1000000) i (fun s' => s'.dev.bst.phase == .idle) = true ∧
    boostReady n ∧ n.dev.bst.phase = .on 1000000 ∧ answers (.bstCsPeak 1001000) n (fun s' => s'.dev.bst.phase == .off 1001000) = true ∧
    1000000 + ton ≤ n.now (1000000 + ton) ∧ answers (.tOnMax (1000000 + ton)) n (fun s' => s'.dev.bst.tonMax == 1) = true ∧
    n.now (999999 + ton) < 1000000 + ton ∧ answers (.tOnMax (999999 + ton)) n (fun s' => s'.dev.bst.phase == .on 1000000) = true := by decide +kernel

theorem witness_Boost_off : let l := boost (.off 1000000) 6499
    let h := boost (.off 1000000) 6500
    let toff := fld l.dev.bst.cfg 48 16
    boostReady l ∧ l.dev.bst.phase = .off 1000000 ∧ 1000000 + toff ≤ l.now (1000000 + toff) ∧ l.dev.bst.volt < fld l.dev.bst.set 0 16 ∧
    answers (.tOffEnd (1000000 + toff)) l (fun s' => s'.dev.bst.phase == .on (1000000 + toff)) = true ∧
    l.dev.bst.reached = false ∧
    answers (.tOffEnd (1000000 + toff)) (boost (.off 1000000) 6499 fun b => { b with reached := true }) (fun s' => s'.dev.bst.phase == .idle) = true ∧
    boostReady h ∧ h.dev.bst.phase = .off 1000000 ∧ fld h.dev.bst.set 0 16 ≤ h.dev.bst.volt ∧
    answers (.tOffEnd (1000000 + toff)) h (fun s' => s'.dev.bst.phase == .idle) = true := by decide +kernel

theorem witness_Boost_limits : let s := boost (.off 1000000) 9900 fun b => { b with ovSince := some 1000000, uvSince := some 1000000 }
    let z := boost .idle 6500
    let det := fld s.dev.bst.limits 32 8 * 1000
    boostReady s ∧ s.dev.bst.ovSince = some 1000000 ∧ s.dev.bst.ovDet = false ∧ s.dev.bst.uvSince = some 1000000 ∧ s.dev.bst.uvDet = false ∧ s.dev.bst.phase ≠ .idle ∧
    1000000 + det ≤ s.now (1000000 + det) ∧ fld s.dev.diag.react 20 2 = 0 ∧ fld s.dev.diag.react 22 2 = 0 ∧
    answers (.boostOverVoltage (1000000 + det)) s (fun s' => s'.dev.bst.ovDet && s'.dev.diag.cnt[(10 : Fin 16)] == 1) = true ∧
    answers (.boostUnderVoltage (1000000 + det)) s (fun s' => s'.dev.bst.uvDet && s'.dev.diag.cnt[(11 : Fin 16)] == 1) = true ∧
    boostReady z ∧ z.dev.bst.ovSince = none ∧ z.dev.bst.uvSince = none ∧
    answers (.boostOverVoltage 2000000) z (fun s' => !s'.dev.bst.ovDet) = true ∧ answers (.boostUnderVoltage 2000000) z (fun s' => !s'.dev.bst.uvDet) = true := by
  decide +kernel

/-! ### Calculation engines -/

/-- Engine 0 is about to execute `w`, whose opcode is `c` and whose destination it may write. -/
abbrev about (s : State) (w : W64) (c : Nat) : Prop :=
  s.clean ∧ s.engineAt 0 w ∧ fld w 0 8 = c ∧ s.mayWrite 0 (opDst w)

/-- Slot 30 holds `z` at first. -/
def engine30 (w : W64) (z : W64) : State := engine w id [.slot 30 z 0x11]

/-- The answer leaves a value and a tag in slot 30. -/
def in30 (v : W64) (g : Byte) (s' : State) : Bool := s'.slot 30 == v && (s'.attr 30).tag == (g ||| 0x10) && s'.dev.ce[(0 : Fin 8)].pc == 6

theorem witness_EngineArithmetic_plain : let w (c : Nat) := opw c 10 11 30
    (∀ c ∈ [0x01, 0x02, 0x03, 0x04, 0x07, 0x08, 0x0A, 0x0B], about (engine (w c)) (w c) c) ∧
    answers (.mov 0 0) (engine (w 1)) (in30 (q 7) 1) = true ∧ answers (.add 0 0) (engine (w 2)) (in30 (q 4) 1) = true ∧
    answers (.sub 0 0) (engine (w 3)) (in30 (q 10) 1) = true ∧ answers (.mul 0 0) (engine (w 4)) (in30 (q (-21)) 1) = true ∧
    answers (.min 0 0) (engine (w 7)) (in30 (q (-3)) 1) = true ∧ answers (.max 0 0) (engine (w 8)) (in30 (q 7) 1) = true ∧
    answers (.abs 0 0) (engine (opw 0x0A 11 0 30)) (in30 (q 3) 1) = true ∧
    answers (.neg 0 0) (engine (w 0x0B)) (in30 (q (-7)) 1) = true := by decide +kernel

/-- Operand B is the immediate −1 in the first sum. In the second, 2^31 − 1 + 1 saturates. -/
theorem test_add_immediate_and_saturation :
    answers (.add 0 0) (engine (opw 2 10 0xFFFF 30 (putB 59 true))) (in30 (q 6) 1) = true ∧
    answers (.add 0 0) (engine (opw 2 10 1 30 (putB 59 true)) id [.slot 10 (q (2 ^ 31 - 1)) 1]) (fun s' =>
      s'.slot 30 == 2 ^ 63 - 1 && (s'.attr 30).tag == 0x15 && s'.dev.ce[(0 : Fin 8)].sat && s'.dev.ce[(0 : Fin 8)].sats == 1) = true := by
  decide +kernel

theorem witness_EngineArithmetic_dynamic : let w (c : Nat) := opw c 10 11 30
    (∀ c ∈ [0x06, 0x09, 0x28, 0x29, 0x2A], about (engine30 (w c) (q 4)) (w c) c) ∧
    answers (.mac 0 0) (engine30 (w 6) (q 4)) (in30 (q (-17)) 1) = true ∧ answers (.clamp 0 0) (engine30 (w 9) (q 4)) (in30 (q 2) 1) = true ∧
    answers (.lag 0 0) (engine30 (opw 0x28 10 12 30) (q 4)) (in30 (q 10) 1) = true ∧
    answers (.rate 0 0) (engine30 (opw 0x29 10 12 30) (q 4)) (in30 (q 6) 1) = true ∧
    answers (.integ 0 0) (engine30 (opw 0x2A 10 12 30) (q (-4))) (in30 (q 3) 1) = true := by decide +kernel

theorem witness_EngineArithmetic_raw : let w (c : Nat) (more : W64 := 0) := opw c 10 5 30 (putB 59 true ||| more)
    (∀ c ∈ [0x10, 0x11, 0x12, 0x13, 0x14], about (engine (w c)) (w c) c) ∧
    answers (.and 0 0) (engine (opw 0x10 10 13 30)) (in30 (q 5) 1) = true ∧
    answers (.or 0 0) (engine (w 0x11)) (in30 0x0000000700000005 1) = true ∧
    answers (.xor 0 0) (engine (opw 0x12 10 13 30)) (in30 (q 2) 1) = true ∧
    answers (.shl 0 0) (engine (w 0x13)) (in30 (q 224) 1) = true ∧
    answers (.shr 0 0) (engine (opw 0x14 11 1 30 (putB 59 true))) (in30 0xFFFFFFFE80000000 1) = true ∧
    answers (.shr 0 0) (engine (opw 0x14 11 1 30 (putB 59 true ||| putB 60 true))) (in30 0x7FFFFFFE80000000 1) = true := by decide +kernel

/-- 7 / 2 = 3.5; 7 / 0 is the upper limit, −3 / 0 the lower one. -/
theorem witness_EngineDivision : let w (a b : Nat) := opw 5 a b 30
    about (engine (w 10 12)) (w 10 12) 5 ∧ about (engine (w 10 9)) (w 10 9) 5 ∧ ((engine (w 10 9)).operandB 0 false (w 10 9)).1 = 0 ∧
    answers (.div 0 0) (engine (w 10 12)) (in30 0x0000000380000000 1) = true ∧
    answers (.div 0 0) (engine (w 10 9)) (fun s' => s'.slot 30 == 2 ^ 63 - 1 && s'.dev.ce[(0 : Fin 8)].div0) = true ∧
    answers (.div 0 0) (engine (w 11 9)) (in30 (1 <<< 63) 4) = true := by decide +kernel

theorem witness_EngineFlow : let w (c : Nat) (cond : Nat) := opw c 10 11 30 (put 56 3 cond)
    about (engine (w 0x18 5)) (w 0x18 5) 0x18 ∧ opCond (w 0x18 5) < 6 ∧
    answers (.cmp 0 0) (engine (w 0x18 5)) (fun s' => s'.dev.ce[(0 : Fin 8)].flag) = true ∧
    answers (.cmp 0 0) (engine (w 0x18 2)) (fun s' => !s'.dev.ce[(0 : Fin 8)].flag) = true ∧
    about (engine (w 0x19 0)) (w 0x19 0) 0x19 ∧ answers (.sel 0 0) (engine (w 0x19 0)) (in30 (q (-3)) 1) = true ∧
    answers (.sel 0 0) (engine (w 0x19 0) fun c => { c with flag := true }) (in30 (q 7) 1) = true ∧
    about (engine (w 0x3C 6)) (w 0x3C 6) 0x3C ∧ opCond (w 0x3C 6) < 7 ∧
    answers (.jmpf 0 0) (engine (w 0x3C 6)) (fun s' => s'.dev.ce[(0 : Fin 8)].pc == 6) = true ∧
    answers (.jmpf 0 0) (engine (w 0x3C 2)) (fun s' => s'.dev.ce[(0 : Fin 8)].pc == 36) = true := by decide +kernel

/-- Map 3: two breakpoints 0 and 8 on each of its axes, entries 10, 20, 30, … of 16 bits, scale 1, offset 1. -/
def mapMem (ny nz : Nat) : List MemOp :=
  [.bytes (mapBase + 96) (wordsBytes [put 8 7 2 ||| put 16 7 ny ||| put 24 7 nz ||| put 32 18 0x800, q 1, q 1, put 0 18 0x400]),
   .bytes (mapBase + 0x400) (wordsBytes [q 0, q 8, q 0, q 8, q 0, q 8]),
   .bytes (mapBase + 0x800) ([10, 20, 30, 40, 50, 60, 70, 80].flatMap (leBytes 2))]

/-- x = 2 gives 12.5 and 13.5 with the offset; y = 4 and z = 8 add 10 and 40. -/
theorem witness_EngineLookup : let w (c : Nat) := opw c 20 3 30
    let s (c ny nz : Nat) := engine (w c) id (mapMem ny nz ++ [.slot 20 (q 2) 1, .slot 21 (q 4) 1, .slot 22 (q 100) 1])
    about (s 0x20 1 1) (w 0x20) 0x20 ∧ answers (.lut1 0 0) (s 0x20 1 1) (in30 0x0000000D80000000 1) = true ∧
    about (s 0x21 2 1) (w 0x21) 0x21 ∧ answers (.lut2 0 0) (s 0x21 2 1) (in30 0x0000001780000000 1) = true ∧
    about (s 0x22 2 2) (w 0x22) 0x22 ∧ answers (.lut3 0 0) (s 0x22 2 2) (in30 0x0000003F80000000 1) = true := by decide +kernel

/-- At the first and the last breakpoint, which also bound the range of the second clause. -/
theorem witness_EngineLookup_range : let m := (engine 0 id (mapMem 1 1)).mems
    let x := m.mapDesc 3
    let bp (i : Nat) : Int := (m.word (x.bpAt 0 i)).toInt
    bp 0 ≤ bp (2 - 1) ∧ bp 0 = 0 ∧ bp (2 - 1) = 8 * 2 ^ 32 ∧ x.locate m 0 2 (-5) = (0, 0) ∧
    x.locate m 0 2 (9 * 2 ^ 32) = (0, 2 ^ 32) := by decide +kernel

/-- KP 3, KI 1, the error at slot 20, LO and HI; the integral, slot 31, holds 4. -/
def ctrl (w : W64) (e lo hi : Int) : State :=
  engine w id [.slot 20 (q e) 1, .slot 21 (q 3) 1, .slot 22 (q 1) 1, .slot 23 (q lo) 1, .slot 24 (q hi) 1, .slot 31 (q 4) 1]

/-- 3 × 2 + 4 + 2 = 12 lies within 0 to 12, above 0 to 11, below 13 to 20; with limits the wrong way round, 13 is nearer
than 10. With an error of −2 the sum of −4 lies above −20 to −5 and the integral falls. -/
theorem witness_EngineController : let w := opw 0x2B 20 21 30
    let out (u i : Int) (s' : State) : Bool := s'.slot 30 == q u && s'.slot 31 == q i && s'.dev.ce[(0 : Fin 8)].pc == 6
    about (ctrl w 2 0 12) w 0x2B ∧ (ctrl w 2 0 12).mayWrite 0 31 ∧
    answers (.pi 0 0) (ctrl w 2 0 12) (out 12 6) = true ∧ answers (.pi 0 0) (ctrl w 2 0 11) (out 11 4) = true ∧
    answers (.pi 0 0) (ctrl w 2 13 20) (out 13 6) = true ∧ answers (.pi 0 0) (ctrl w 2 13 10) (out 13 6) = true ∧
    answers (.pi 0 0) (ctrl w (-2) (-20) (-5)) (out (-5) 2) = true ∧ answers (.pi 0 0) (ctrl w 2 5 5) (out 5 4) = true := by decide +kernel

/-- An output slot is staged. -/
theorem witness_EngineController_output : let w := opw 0x2B 20 21 30
    let s := engine w id [.slot 23 (q 0) 1, .slot 24 (q 9) 1, .attr 30 { cls := 2, writer := 0 }]
    about s w 0x2B ∧ s.mayWrite 0 31 ∧
    answers (.pi 0 0) s (fun s' => s'.dev.ce[(0 : Fin 8)].pub == [(30, 0, 0)] && s'.slot 31 == 0) = true := by decide +kernel

/-- 7 °CA of 720 in 40 ms: 388888.888… ns. 7 ns are 0.000126 °CA. -/
theorem witness_EngineAngleTime : let w (c : Nat) := opw c 10 0 30
    let still (s : State) : State := { s with dev := { s.dev with pos := { s.dev.pos with cycleNs := 0 } } }
    about (engine (w 0x30)) (w 0x30) 0x30 ∧ (engine (w 0x30)).dev.pos.cycleNs ≠ 0 ∧
    answers (.angt 0 0) (engine (w 0x30)) (in30 0x5EF18E38E38E4 0) = true ∧
    about (engine (w 0x31)) (w 0x31) 0x31 ∧ answers (.tang 0 0) (engine (w 0x31)) (in30 541166 0) = true ∧
    about (still (engine (w 0x30))) (w 0x30) 0x30 ∧ (still (engine (w 0x30))).dev.pos.cycleNs = 0 ∧
    answers (.angt 0 0) (still (engine (w 0x30))) (in30 (2 ^ 63 - 1) 4) = true ∧
    about (still (engine (w 0x31))) (w 0x31) 0x31 ∧ answers (.tang 0 0) (still (engine (w 0x31))) (in30 0 4) = true := by decide +kernel

/-- Engine 2 idle, on, with one trigger in its queue, for a list of length `n`. -/
def triggered (n : Nat) : State := st fun d => let d := inMode .run d
  { d with
    ce := upd d.ce 2 fun c => { c with cfg := 1, queue := [{ list := 64, entry := 3, arrival := 1999992, deadline := 1000 }] }
    ces := { d.ces with lists := [put 0 13 64 ||| put 16 14 n ||| put 32 3 2] } }

theorem witness_EngineRuns_start : let x : Trigger := { list := 64, entry := 3, arrival := 1999992, deadline := 1000 }
    (triggered 4).dev.settled ∧ (triggered 4).dev.ce[(2 : Fin 8)].state = .idle ∧ (triggered 4).dev.sup.mode.engines = true ∧
    (triggered 4).dev.ce[(2 : Fin 8)].queue = [x] ∧ bit (triggered 4).dev.ce[(2 : Fin 8)].cfg 0 = true ∧ x.arrival + 8 ≤ (triggered 4).now 2000000 ∧
    (triggered 4).dev.listEntry 2 64 = some (put 0 13 64 ||| put 16 14 4 ||| put 32 3 2) ∧
    answers (.runStart 2000000 2) (triggered 4) (fun s' => s'.dev.ce[(2 : Fin 8)].state == .running && s'.dev.ce[(2 : Fin 8)].pc == 64) = true ∧
    answers (.runStart 1999999 2) (triggered 4) (fun s' => s'.dev.ce[(2 : Fin 8)].state == .idle) = true ∧
    (triggered 0).dev.listEntry 2 64 = some (put 0 13 64 ||| put 32 3 2) ∧ (triggered 0).dev.settled ∧
    answers (.runStart 2000000 2) (triggered 0) (fun s' => s'.dev.ce[(2 : Fin 8)].state == .idle && s'.dev.ce[(2 : Fin 8)].runs == 1) = true := by
  decide +kernel

theorem witness_EngineRuns_end : let s := engine 0 fun c => { c with pub := [(31, q 5, 1), (30, q 6, 1)] }
    s.clean ∧ s.engineAt 0 0 ∧ fld (0 : W64) 0 8 = 0 ∧ s.dev.ce[(0 : Fin 8)].stepReq = false ∧ s.dev.ce[(0 : Fin 8)].haltReq = false ∧
    s.dev.ce[(0 : Fin 8)].cur = some { list := 5, arrival := 0, deadline := 2000000 } ∧
    answers (.ceEnd 0 0) s (fun s' => s'.slot 30 == q 6 && s'.slot 31 == q 5 && (s'.attr 30).tag == 0x11 && s'.dev.ce[(0 : Fin 8)].runs == 1) = true := by
  decide +kernel

theorem witness_EngineRuns_overrun : let s := engine (opw 2 10 11 30) fun c => { c with pub := [(31, q 5, 1)] }
    s.dev.settled ∧ s.dev.ce[(0 : Fin 8)].state = .running ∧ 0 + 0 + 2000000 ≤ s.now 2000000 ∧ s.onlyNoted 15 ∧
    answers (.overrun 2000000 0 0) s (fun s' => s'.dev.ce[(0 : Fin 8)].state == .idle && s'.dev.ce[(0 : Fin 8)].overrun &&
      s'.dev.flt.cnt[(15 : Fin 64)] == 1 && s'.slot 31 == 0) = true ∧
    answers (.overrun 1999999 0 0) s (fun s' => s'.dev.ce[(0 : Fin 8)].state == .running) = true := by decide +kernel

theorem witness_EngineRequest : let w := opw 0x38 10 0 30
    let s := engine w fun c => { c with state := .waitReq, reqDst := 30, reqRes := some 0x123 }
    about (engine w) w 0x38 ∧
    answers (.req 0 0) (engine w) (fun s' => s'.dev.ce[(0 : Fin 8)].state == .waitReq &&
      (s'.dev.adm.ce[(0 : Fin 8)].entries[(0 : Fin 16)]).words[(5 : Fin 8)] == q 9) = true ∧
    s.clean ∧ s.dev.ce[(0 : Fin 8)].state = .waitReq ∧ s.dev.ce[(0 : Fin 8)].reqRes = some 0x123 ∧ s.mayWrite 0 30 ∧
    answers (.reqResult 0 0) s (in30 0x123 1) = true := by decide +kernel

/-- EMIT of slot 10, or another, to item `i` of a kind of target. -/
def emitW (kind i : Nat) (a : Nat := 10) : W64 := opw 0x39 a 0 (kind * 2 ^ 13 + i)

/-- An engine at an EMIT, with its device changed. -/
def emitAt (kind i : Nat) (f : Dev → Dev := id) (a : Nat := 10) : State :=
  let s := engine (emitW kind i a) id [.slot 20 0x21 1]
  { s with dev := f s.dev }

abbrev emits (s : State) (w : W64) : Prop := s.clean ∧ s.engineAt 0 w ∧ fld w 0 8 = 0x39

def emitKept (s' : State) : Bool := s'.dev.ce[(0 : Fin 8)].pc == 6 && !s'.dev.ce[(0 : Fin 8)].emitLost
def emitLoses (s' : State) : Bool := s'.dev.ce[(0 : Fin 8)].pc == 6 && s'.dev.ce[(0 : Fin 8)].emitLosts == 1

theorem witness_EngineEmit_first : let full (d : Dev) : Dev := { d with pio := upd d.pio 3 fun x => { x with tx := [1, 2, 3, 4] } }
    emits (emitAt 0 8191) (emitW 0 8191) ∧
    answers (.emitCanSignal 0 0) (emitAt 0 8191) (fun s' => emitKept s' &&
      s'.dev.can[(3 : Fin 4)].emits.find? (·.1 == 2047) == some (2047, q 7, 1)) = true ∧
    emits (emitAt 1 35) (emitW 1 35) ∧ answers (.emitTimerBuffer 0 0) (emitAt 1 35) (fun s' => emitKept s' && s'.dev.tmu[(7 : Fin 8)].reload == 0) = true ∧
    emits (emitAt 1 39) (emitW 1 39) ∧ (emitAt 1 39).dev.tmu[(7 : Fin 8)].ch[(3 : Fin 4)].mode ≠ 2 ∧
    answers (.emitTimerBuffer 0 0) (emitAt 1 39 id 20) (fun s' => emitKept s' && s'.dev.tmu[(7 : Fin 8)].ch[(3 : Fin 4)].val == 0x21) = true ∧
    emits (emitAt 2 3) (emitW 2 3) ∧ answers (.emitPioQueue 0 0) (emitAt 2 3 id 20) (fun s' => emitKept s' && s'.dev.pio[(3 : Fin 8)].tx == [0x21]) = true ∧
    emits (emitAt 2 3 full) (emitW 2 3) ∧ answers (.emitPioQueue 0 0) (emitAt 2 3 full) (fun s' => emitLoses s' && s'.dev.pio[(3 : Fin 8)].tx == [1, 2, 3, 4]) = true := by
  decide +kernel

theorem witness_EngineEmit_second : let full (d : Dev) : Dev := { d with recm := { d.recm with staging := List.replicate 256 { type := 11 } } }
    let conv (n : Nat) (d : Dev) : Dev := { d with cnv := upd d.cnv 1 fun x => { x with cfg := x.cfg ||| 1, urgQ := List.replicate n {} } }
    emits (emitAt 3 9) (emitW 3 9) ∧ answers (.emitNote 2000000 0) (emitAt 3 9) (fun s' => emitKept s' &&
      s'.dev.recm.staging.map (·.body) == [[0x10009, q 7]]) = true ∧
    emits (emitAt 3 9 full) (emitW 3 9) ∧ answers (.emitNote 2000000 0) (emitAt 3 9 full) (fun s' => emitLoses s' && s'.dev.recm.staging.length == 256) = true ∧
    emits (emitAt 4 1 (conv 3) 20) (emitW 4 1 20) ∧ ((emitAt 4 1 (conv 3) 20).operand 0 20).1 = 0x21 ∧ (emitAt 4 1 (conv 3)).dev.convOn = true ∧
    bit (emitAt 4 1 (conv 3)).dev.cnv[(1 : Fin 2)].cfg 0 = true ∧
    answers (.emitUrgent 2000000 0) (emitAt 4 1 (conv 3) 20) (fun s' => emitKept s' && s'.dev.cnv[(1 : Fin 2)].urgQ.length == 4) = true ∧
    answers (.emitUrgent 2000000 0) (emitAt 4 1 (conv 4) 20) (fun s' => emitLoses s' && s'.dev.cnv[(1 : Fin 2)].urgQ.length == 4) = true := by
  decide +kernel

/-- The engine's state, in a mode, with SLOT_IDX of CAN_0 at 30 and the debugging bit. -/
def debugging (m : Mode) (run : Bool) (st : CeState) (l : List MemOp := []) : State :=
  let s := engine (opw 2 10 11 30) (fun c => { c with state := st, resumeTo := .running }) l
  { s with dev := (({ s.dev with sup := { s.dev.sup with mode := m } }).modCtx .can0 fun c => { c with slotIdx := 30 }).modCes fun c => { c with dbgRun := run } }

theorem witness_EngineDebug_engine : let a := debugging .run true .running
    let b := debugging .service false .halted
    let c := debugging .run false .running
    a.clean ∧ a.dev.debugMay = true ∧ a.dev.ce[(0 : Fin 8)].state = .running ∧
    answers (.halt 2000000 .can0 0) a (fun s' => s'.dev.ce[(0 : Fin 8)].state == .halted && s'.dev.ce[(0 : Fin 8)].haltedAt == 2000000) = true ∧
    b.clean ∧ b.dev.debugMay = true ∧ b.dev.ce[(0 : Fin 8)].state = .halted ∧ b.dev.ce[(0 : Fin 8)].resumeTo = .running ∧
    answers (.step 2000000 .can0 0) b (fun s' => s'.dev.ce[(0 : Fin 8)].stepReq) = true ∧
    answers (.resume 2000000 .can0 0) b (fun s' => s'.dev.ce[(0 : Fin 8)].state == .running && s'.dev.ce[(0 : Fin 8)].pc == 5) = true ∧
    c.clean ∧ c.dev.debugMay = false ∧ answers (.halt 2000000 .can0 0) c (fun s' => s'.dev.ce[(0 : Fin 8)].cfgIgn &&
      s'.dev.ce[(0 : Fin 8)].state == .running) = true := by decide +kernel

theorem witness_EngineDebug_slot : let a := debugging .service false .halted
    let b := debugging .service false .running [.attr 30 { writer := 15 }]
    let c := debugging .run true .halted
    a.clean ∧ fld (a.dev.ctx .can0).slotIdx 0 14 = 30 ∧ a.dev.sup.mode = .service ∧ (a.attr 30).cls = 0 ∧ (a.attr 30).writer.toNat = 0 ∧
    a.dev.ce[(0 : Fin 8)].state = .halted ∧
    answers (.slotValWrite 2000000 .can0 (q 8)) a (fun s' => s'.slot 30 == q 8 && (s'.attr 30).tag == 0x11) = true ∧
    b.clean ∧ b.dev.sup.mode = .service ∧ (b.attr 30).cls = 0 ∧ (b.attr 30).writer = 15 ∧
    answers (.slotValWrite 2000000 .can0 (q 8)) b (fun s' => s'.slot 30 == q 8 && (s'.attr 30).tag == 1) = true ∧
    c.clean ∧ c.dev.sup.mode ≠ .service ∧
    answers (.slotValWrite 2000000 .can0 (q 8)) c (fun s' => s'.slot 30 == 0 && s'.dev.ces.wrIgn) = true := by decide +kernel

theorem witness_EngineFrame : let w (c : Nat) := opw c 10 11 30
    about (engine (w 0x18)) (w 0x18) 0x18 ∧ about (engine (w 6)) (w 6) 6 ∧ about (engine (w 0x2B)) (w 0x2B) 0x2B ∧ (engine (w 0x2B)).mayWrite 0 31 ∧
    answers (.cmp 0 0) (engine (w 0x18)) (fun s' => s'.mems == (engine (w 0x18)).mems) = true ∧
    answers (.mac 0 0) (engine (w 6)) (fun s' => s'.slot 31 == 0 && s'.slot 10 == q 7) = true ∧
    answers (.pi 0 0) (engine (w 0x2B)) (fun s' => s'.slot 32 == 0 && s'.slot 10 == q 7) = true := by decide +kernel

/-! ### Converters -/

/-- A trim of gain 1 without offset. -/
def trimOne : W64 := 0x800000000000

/-- Such a trim changes no code, whatever its order and rounding. -/
theorem trimmed_one (code : BitVec 24) : trimmed trimOne code = code := by
  have h : codeOf (code.toNat : Int) = code := by
    have := code.isLt
    unfold codeOf
    rw [min_eq_left (by omega), max_eq_right (by omega), BitVec.ofInt_natCast, BitVec.ofNat_toNat, BitVec.setWidth_eq]
  have o : (trimOne.setWidth 24 : BitVec 24).toInt = 0 := by decide
  have g : ((trimOne >>> 24).setWidth 24 : BitVec 24).toNat = 2 ^ 23 := by decide
  simp [trimmed, o, g, h]

/-- In RUN with the reference good since reset, converter 1 scans inputs 2 and 7 with OSR 4; it is at input 7, whose
window is 100 to 200, has CNV_SLOT on base 40, and slot 47 is the converter's. The conversion under way ends at 2 ms. -/
def scanning (f : Cnv → Cnv := id) : State := st (fun d => let d := inMode .run d
  { d with
    cnvs := { d.cnvs with refEn := true, refOk := true }
    cnv := upd d.cnv 1 fun x => f { x with cfg := 1, scan := 0x40084, scanning := true, entry := 1, filtAt := 2000000 - 4 * outPeriod 4, slot := 40 ||| putB 14 true
                                           win := upd x.win 1 fun _ => { lo := 100, hi := 200, en := true } }
    ce := upd d.ce 3 fun c => { c with cfg := 1 }
    ces := { d.ces with trig := upd d.ces.trig 100 fun _ => 6 ||| put 3 13 3 ||| put 16 13 77 ||| put 32 16 5 } })
  [.attr 47 { cls := 1, writer := 8, tag := 0x10 }]

/-- The code of a result passes through the trim, whose order is free: what rests on it is not computed here. -/
theorem witness_ScanResults : let s := scanning
    let x := s.dev.cnv[(1 : Fin 2)]
    let r (code : BitVec 24) := s.dev.cnvResult 7 (fld x.scan 16 4) 2000000 code false
    s.clean ∧ x.scanning = true ∧ s.dev.convOn = true ∧ x.inputs[x.entry]? = some 7 ∧ fld x.cfg 24 8 = 0 ∧ bit x.slot 14 = true ∧
    fld x.slot 0 14 + 7 = 47 ∧ (s.attr 47).cls = 1 ∧ (s.attr 47).writer = 8 ∧ s.room [6] ∧ (r 100).unset = false ∧
    (s.dev.at 2000000).converted x.filtAt (fld x.scan 16 4) 2000000 = true ∧
    x.win[(1 : Fin 16)].inside = (decide (x.win[(1 : Fin 16)].lo ≤ 200) && decide (200 ≤ x.win[(1 : Fin 16)].hi)) ∧
    x.win[(1 : Fin 16)].en = true ∧ (decide (x.win[(1 : Fin 16)].lo ≤ 99)) = false := by decide +kernel

theorem witness_ScanResults_due : let s := scanning fun x => { x with win := upd x.win 1 fun w => { w with en := false } }
    s.clean ∧ (s.dev.at 2000500).converted s.dev.cnv[(1 : Fin 2)].filtAt 4 2000000 = true ∧
    answers (.scanResult 2000500 1 2000000 ⟨200, {}⟩ true) s (fun s' => (s'.attr 47).tag == 0x15 && s'.dev.cnv[(1 : Fin 2)].rounds == 1 &&
      s'.dev.cnv[(1 : Fin 2)].entry == 0 && s'.dev.cnv[(1 : Fin 2)].filtAt == 2000000 && s'.dev.cnv[(1 : Fin 2)].ovrs == 1) = true ∧
    (s.dev.at 2000000).scanDone 1 1999998 = false ∧ answers (.scanResult 2000000 1 1999998 ⟨200, {}⟩ false) s (fun s' => s'.dev.cnv == s.dev.cnv) = true ∧
    (s.dev.at 2000502).scanDone 1 2000000 = false ∧ answers (.scanResult 2000502 1 2000000 ⟨200, {}⟩ false) s (fun s' => s'.dev.cnv == s.dev.cnv) = true := by
  decide +kernel

theorem witness_Conversions : let s := scanning
    let u := scanning fun x => { x with urgQ := [{ mux := 9, osr := 0, seq := 6 }] }
    let v := scanning fun x => { x with urgRun := some { mux := 9, osr := 0, seq := 6 }, slot := put 16 14 47 ||| putB 30 true, cfg := 9,
                                        filtAt := 1000000 - 4 * outPeriod 0 }
    s.clean ∧ 8 < fld (0x90001 : W64) 16 4 ∧ answers (.cnvScanWrite 1000000 .can0 1 0x90001) s (fun s' => s'.dev.cnv[(1 : Fin 2)].cfgIgn) = true ∧
    fld (0x80000 : W64) 16 4 ≤ 8 ∧ answers (.cnvScanWrite 1000000 .can0 1 0x80000) s (fun s' => (s'.attr 47).tag == 0x12 &&
      !s'.dev.cnv[(1 : Fin 2)].scanning && s'.dev.cnv[(1 : Fin 2)].aborts == 1) = true ∧
    u.clean ∧ u.dev.cnv[(1 : Fin 2)].urgQ ≠ [] ∧ u.dev.cnv[(1 : Fin 2)].urgRun = none ∧ u.dev.cnv[(1 : Fin 2)].enabled = true ∧ u.dev.convOn = true ∧
    answers (.urgentStart 1000000 1) u (fun s' => s'.dev.cnv[(1 : Fin 2)].urgRun.isSome && !s'.dev.cnv[(1 : Fin 2)].scanning &&
      s'.dev.cnv[(1 : Fin 2)].cutAt.isSome) = true ∧
    s.dev.cnv[(1 : Fin 2)].urgQ = [] ∧ answers (.urgentStart 1000000 1) s (fun s' => s'.dev.cnv == s.dev.cnv) = true ∧
    v.clean ∧ bit v.dev.cnv[(1 : Fin 2)].slot 30 = true ∧ fld v.dev.cnv[(1 : Fin 2)].slot 16 14 = 47 ∧ bit v.dev.cnv[(1 : Fin 2)].cfg 3 = true ∧
    (v.dev.at 1000000).converted v.dev.cnv[(1 : Fin 2)].filtAt 0 1000000 = true ∧
    answers (.urgentResult 1000000 1 1000000 ⟨77, {}⟩ false) v (fun s' => (s'.attr 47).tag == 0x11 && s'.dev.cnv[(1 : Fin 2)].urgSeq == 6 &&
      s'.dev.recm.staging.map (·.tflags) == [2] && s'.dev.cnv[(1 : Fin 2)].filtAt == 1000000) = true ∧
    (v.dev.at 1000000).converted v.dev.cnv[(1 : Fin 2)].filtAt 0 999998 = false ∧
    answers (.urgentResult 1000000 1 999998 ⟨77, {}⟩ false) v (fun s' => s'.dev.cnv == v.dev.cnv) = true := by decide +kernel

theorem witness_Conversions_ref : let s (en : Bool) := st fun d => { d with cnvs := { d.cnvs with refEn := en, refAt := 7 } }
    (s true).clean ∧ (s true).dev.cnvs.refOk = false ∧ (s true).dev.cnvs.refAt + 5000000 ≤ (s true).now 5000007 ∧
    answers (.refOk 5000007) (s true) (fun s' => s'.dev.cnvs.refOk && s'.dev.cnvs.refOkAt == 5000007) = true ∧
    (s true).now 5000006 < (s true).dev.cnvs.refAt + 5000000 ∧ answers (.refOk 5000006) (s true) (fun s' => !s'.dev.cnvs.refOk) = true ∧
    (s false).clean ∧ answers (.refOk 5000007) (s false) (fun s' => !s'.dev.cnvs.refOk) = true := by decide +kernel

/-! ### Records and snapshots -/

/-- A ring of type 11 of 1024 bytes holds `n` records of 400 bytes; a note waits. -/
def ringState (n : Nat) (policy : Bool) (size : Nat := 1) : State := st fun d => let d := inMode .run d
  { d with recm := { d.recm with
      staging := [{ type := 11, dtime := 900000, pres := 900000, body := List.replicate 48 7 }]
      rings := upd d.recm.rings 11 fun r => { r with
        size := size, policy := policy, base := 0, wptr := 400 * n, next := 5
        pending := (List.range n).map fun i => { words := List.replicate 50 0, start := 400 * i, ord := i } } } }

abbrev recordWaits (s : State) : Prop := s.clean ∧ s.dev.recWrites = true ∧ s.dev.recm.next.isSome = true ∧
  (∀ i : Fin 2, s.dev.recm.streams[i].en = false)

def ring11 (s : State) : Ring := s.dev.recm.rings[(11 : Fin 12)]

theorem witness_RecordWriting_room :
    recordWaits (ringState 0 false 0) ∧ answers (.recordWrite 1000000) (ringState 0 false 0) (fun s' => s'.dev.recm.staging == [] &&
      (ring11 s').pending == []) = true ∧
    recordWaits (ringState 1 true) ∧ answers (.recordWrite 1000000) (ringState 1 true) (fun s' => (ring11 s').pending.length == 2 &&
      (ring11 s').wptr == 800 && (ring11 s').next == 6 && s'.mems.byte (recBase + 400) != 0) = true := by decide +kernel

theorem witness_RecordWriting_full : let n (l : List Stored) : Nat := (l.map Stored.size).sum
    recordWaits (ringState 2 true) ∧ 1024 < n (ring11 (ringState 2 true)).pending + 400 ∧
    answers (.recordWrite 1000000) (ringState 2 true) (fun s' => (ring11 s').pending.length == 2 && (ring11 s').lost == 1 &&
      (ring11 s').stopped) = true ∧
    recordWaits (ringState 2 false) ∧ answers (.recordWrite 1000000) (ringState 2 false) (fun s' => (ring11 s').pending.length == 2 &&
      (ring11 s').lost == 1 && (ring11 s').wptr == 176) = true := by decide +kernel

theorem witness_RecordWriting_commands : let s (k : Nat) := { ringState 2 true with dev := (ringState 2 true).dev.modCtx .can1 fun c => { c with ringSel := put 0 4 k } }
    (s 11).dev.settled ∧ fld ((s 11).dev.ctx .can1).ringSel 0 4 = 11 ∧ fld ((s 1).dev.ctx .can1).ringSel 0 4 = 1 ∧
    answers (.discard 1000000 .can1) (s 11) (fun s' => (ring11 s').pending == []) = true ∧
    answers (.clrLost 1000000 .can1) (s 11) (fun s' => (ring11 s').lost == 0) = true ∧
    (s 12).dev.settled ∧ fld ((s 12).dev.ctx .can1).ringSel 0 4 = 12 ∧ fld ((s 0).dev.ctx .can1).ringSel 0 4 = 0 ∧
    answers (.discard 1000000 .can1) (s 12) (fun s' => (ring11 s').pending.length == 2) = true := by decide +kernel

/-- Stream 0 on CAN_1 with one record pending in ring 11; its first record was taken at 0. -/
def streaming (f : Stream → Stream) (q : List TxFrame := []) : State :=
  let s := ringState 1 true
  { s with dev := { s.dev with
      can := upd s.dev.can 1 fun c => { c with cfg := c.cfg ||| 1, txq := q }
      recm := { s.dev.recm with
        staging := []
        rings := upd s.dev.recm.rings 11 fun r => { r with stream := 1 }
        streams := upd s.dev.recm.streams 0 fun x => f { x with cfg := x.cfg ||| 3, firstAt := some 0 } } } }

theorem witness_Streams : let a := streaming id
    let b := streaming fun x => { x with queued := some (408, [(11, 0)]), firstAt := none }
    let f : TxFrame := { src := .stream 0, frame := { frame 0x7F0 [] with format := .xl } }
    let c := streaming (fun x => { x with queued := some (408, [(11, 0)]), firstAt := none }) [f]
    let x := a.dev.recm.streams[(0 : Fin 2)]
    a.clean ∧ x.firstAt = some 0 ∧ x.en = true ∧ x.queued = none ∧ x.can = 1 ∧
    (takeFrame (fld x.cfg 8 11) 0 (a.dev.pendingOf (streamCode 0))).1 ≠ [] ∧ 0 + 1000 * fld x.cfg 32 16 ≤ a.now 1000000 ∧ a.dev.canSends 1 = true ∧
    answers (.streamMaxWait 1000000 0) a (fun s' => s'.dev.recm.streams[(0 : Fin 2)].queued == some (408, [(11, 0)]) &&
      s'.dev.can[(1 : Fin 4)].txq.length == 1) = true ∧
    (streaming fun x => { x with firstAt := some 5 }).clean ∧ a.now 1000000 < 5 + 1000 * fld x.cfg 32 16 ∧
    answers (.streamMaxWait 1000000 0) (streaming fun x => { x with firstAt := some 5 }) (fun s' => s'.dev.can[(1 : Fin 4)].txq == []) = true ∧
    b.clean ∧ b.dev.recm.streams[(0 : Fin 2)].queued = some (408, [(11, 0)]) ∧ b.dev.streamWaits 0 = false ∧
    answers (.streamFrameTransmitted 1000000 0) b (fun s' => (ring11 s').pending == [] && s'.dev.recm.streams[(0 : Fin 2)].frames == 1) = true ∧
    c.clean ∧ c.dev.streamWaits 0 = true ∧ answers (.streamFrameTransmitted 1000000 0) c (fun s' => (ring11 s').pending.length == 1) = true := by
  decide +kernel

/-- SNAP_CTRL has its sources on, a snapshot was latched at 1 ms, its window open or not. -/
def snapped (f : Snap → Snap) : State := st fun d => let d := inMode .run d
  { d with snap := f { d.snap with cfg := d.snap.cfg ||| 0x11, time := 1000000, num := 65535 } }

theorem witness_Snapshots_command : let a := snapped fun x => { x with open_ := true }
    let off := snapped fun x => { x with cfg := 0 }
    a.dev.settled ∧ bit a.dev.snap.cfg 4 = true ∧ a.dev.snap.time + 100 < a.now 1000101 ∧
    answers (.snapCmdTrig 1000101 .can0) a (fun s' => s'.dev.snap.num == 1 && s'.dev.snap.merged == 0 && s'.dev.snap.sources == 16) = true ∧
    a.dev.snap.open_ = true ∧ a.now 1000100 ≤ a.dev.snap.time + 100 ∧
    answers (.snapCmdTrig 1000100 .can0) a (fun s' => s'.dev.snap.num == 65535 && s'.dev.snap.merged == 1) = true ∧
    off.dev.settled ∧ bit off.dev.snap.cfg 4 = false ∧ answers (.snapCmdTrig 2000000 .can0) off (fun s' => s'.dev.snap == off.dev.snap) = true := by
  decide +kernel

theorem witness_Snapshots_edge : let a := snapped fun x => { x with cfg := 1 ||| put 6 2 2 ||| put 24 8 4 }
    a.dev.settled ∧ 3 < fld a.dev.snap.cfg 24 8 ∧ answers (.snapInEdge 2000000 true 3) a (fun s' => s'.dev.snap == a.dev.snap) = true ∧
    fld a.dev.snap.cfg 24 8 ≤ 4 ∧ bit a.dev.snap.cfg 0 = true ∧ fld a.dev.snap.cfg 6 2 = 2 ∧ a.dev.snap.open_ = false ∧
    (∀ u : Fin 8, a.dev.tmu[u].src ≠ 56) ∧
    answers (.snapInEdge 2000000 true 4) a (fun s' => s'.dev.snap.num == 1 && s'.dev.snap.sources == 1 && s'.dev.snap.inLevel) = true := by
  decide +kernel

theorem witness_Snapshots_ends : let a := snapped fun x => { x with open_ := true }
    let b := snapped fun x => { x with outUntil := some 1010000 }
    a.dev.settled ∧ a.dev.snap.open_ = true ∧ a.dev.snap.time + 100 < a.now 1000101 ∧
    answers (.mergeWindowClose 1000101) a (fun s' => !s'.dev.snap.open_ && s'.dev.recm.staging.map (·.type) == [8]) = true ∧
    a.now 1000100 ≤ a.dev.snap.time + 100 ∧ answers (.mergeWindowClose 1000100) a (fun s' => s'.dev.snap.open_) = true ∧
    b.dev.settled ∧ b.dev.snap.open_ = false ∧ b.dev.snap.outUntil = some 1010000 ∧
    answers (.snapOutEnd 1010000) b (fun s' => s'.dev.snap.outUntil == none) = true ∧
    answers (.snapOutEnd 1009999) b (fun s' => s'.dev.snap.outUntil == some 1010000) = true := by decide +kernel

/-! ### Timers and PIO -/

/-- Unit 2 runs at a count, its next tick due at 2 ms; its channel 1 compares with 4, sets OUT, and starts list 77 of engine 3; others stand still. -/
def timing (cnt : W32) (f : Tmu → Tmu := id) (g : Dev → Dev := id) : State := st fun d => let d := inMode .run d
  g { d with
    tmu := upd d.tmu 2 fun x => f { x with running := true, cnt := cnt, reload := 100, from_ := 1999975, ch := upd x.ch 1 fun c => { c with cfg := 5, val := 4, armed := true } }
    ce := upd d.ce 3 fun c => { c with cfg := 1 }
    ces := { d.ces with trig := upd d.ces.trig 100 fun _ => 2 ||| put 3 13 10 ||| put 16 13 77 ||| put 32 16 5 } }

def alone (s : State) : Bool := s.dev.tmu.toList.all fun x => !x.clk && x.slave != 2 &&
  x.ch.toList.all fun c => c.mode != 2 || decide (8 ≤ fld c.cfg 10 6)

theorem witness_TimerEvents_tick : let s := timing 5
    let z := timing 0 fun x => { x with ch := upd x.ch 1 fun c => { c with cfg := 1, val := 99, armed := false } }
    s.dev.settled ∧ s.dev.sup.mode ≠ .bivouac ∧ s.room [2] ∧ s.dev.tmu[(2 : Fin 8)].running = true ∧ s.dev.gateOpen s.dev.tmu[(2 : Fin 8)] = true ∧
    alone s = true ∧ s.dev.tmu[(2 : Fin 8)].from_ + s.dev.tmu[(2 : Fin 8)].period ≤ s.now 2000000 + s.dev.sup.dstep ∧
    s.dev.tmu[(2 : Fin 8)].resetAt = none ∧
    answers (.tmuTick 2000000 2) s (fun s' => s'.dev.tmu[(2 : Fin 8)].from_ == 2000000 && s'.dev.tmu[(2 : Fin 8)].cnt == 4 && (s'.dev.tmu[(2 : Fin 8)].ch[(1 : Fin 4)]).out &&
      (s'.dev.tmu[(2 : Fin 8)].ch[(1 : Fin 4)]).evt && (s'.dev.ce[(3 : Fin 8)].queue.map (·.list)) == [77]) = true ∧
    answers (.tmuTick 2000000 2) (timing 6) (fun s' => s'.dev.tmu[(2 : Fin 8)].cnt == 5 && !(s'.dev.tmu[(2 : Fin 8)].ch[(1 : Fin 4)]).evt) = true ∧
    z.dev.settled ∧ alone z = true ∧
    answers (.tmuTick 2000000 2) z (fun s' => s'.dev.tmu[(2 : Fin 8)].cnt == 99 && s'.dev.tmu[(2 : Fin 8)].zeros == 1 &&
      (s'.dev.tmu[(2 : Fin 8)].ch[(1 : Fin 4)]).events == 1) = true ∧
    (timing 5 fun x => { x with running := false }).dev.settled ∧
    answers (.tmuTick 2000000 2) (timing 5 fun x => { x with running := false }) (fun s' => s'.dev.tmu[(2 : Fin 8)].cnt == 5) = true := by
  decide +kernel

/-- Not yet due; the gate of unit 2, PIO pin 3, shut; reset in this clock. -/
theorem witness_TimerEvents_still : let s := timing 5
    let g := timing 5 fun x => { x with cfg := put 2 2 1 ||| put 8 6 43 }
    let r := timing 5 fun x => { x with resetAt := some 2000000 }
    ¬(s.dev.tmu[(2 : Fin 8)].from_ + s.dev.tmu[(2 : Fin 8)].period ≤ s.now 1999998 + s.dev.sup.dstep) ∧
    answers (.tmuTick 1999998 2) s (fun s' => s'.dev.tmu == s.dev.tmu) = true ∧
    g.dev.settled ∧ alone g = true ∧ g.dev.gateOpen g.dev.tmu[(2 : Fin 8)] = false ∧
    answers (.tmuTick 2000000 2) g (fun s' => s'.dev.tmu[(2 : Fin 8)].cnt == 5 && s'.dev.tmu[(2 : Fin 8)].from_ == 2000000) = true ∧
    r.dev.settled ∧ alone r = true ∧ r.dev.tmu[(2 : Fin 8)].resetAt = some (r.now 2000000) ∧
    answers (.tmuTick 2000000 2) r (fun s' => s'.dev.tmu[(2 : Fin 8)].cnt == 5) = true := by decide +kernel

/-- Unit 2 counts falling edges of pin 3, which nothing drives. -/
theorem witness_TimerEvents_pin : let s := timing 9 fun x => { x with cfg := 3 ||| put 8 6 43, ch := Vector.replicate 4 {} }
    s.dev.settled ∧ s.room [2] ∧ s.dev.tmu[(2 : Fin 8)].clk = true ∧ s.dev.tmu[(2 : Fin 8)].src = 43 ∧ s.dev.pinDriven 3 = false ∧
    s.dev.pios.extAt[(3 : Fin 16)] = none ∧ s.dev.tmu[(2 : Fin 8)].resetAt = none ∧
    (∀ v : Fin 8, v ≠ 2 → s.dev.tmu[v].clk = false ∧ s.dev.tmu[v].slave ≠ 2) ∧ (∀ (v : Fin 8) (c : Fin 4), (s.dev.tmu[v].ch[c]).mode = 0) ∧
    answers (.tmuTick 2000000 2) s (fun s' => s'.dev.tmu[(2 : Fin 8)].cnt == 8 && !s'.dev.pinLevel 3) = true := by decide +kernel

/-- Unit 6 is clocked by ZERO of unit 2. -/
theorem witness_TimerEvents_chain : let s := timing 0 (fun x => { x with ch := Vector.replicate 4 {} }) fun d =>
      { d with tmu := upd d.tmu 6 fun x => { x with cfg := 1 ||| put 8 6 2, running := true, cnt := 9 } }
    s.dev.settled ∧ s.room [2] ∧ s.dev.sup.mode ≠ .bivouac ∧ s.dev.tmu[(2 : Fin 8)].slave = 0 ∧ s.dev.tmu[(6 : Fin 8)].clk = true ∧ s.dev.tmu[(6 : Fin 8)].src = 2 ∧
    (∀ v : Fin 8, v ≠ 6 → s.dev.tmu[v].clk = false ∧ s.dev.tmu[v].slave ≠ 2) ∧ (∀ (v : Fin 8) (c : Fin 4), (s.dev.tmu[v].ch[c]).mode = 0) ∧
    answers (.tmuTick 2000000 2) s (fun s' => s'.dev.tmu[(6 : Fin 8)].cnt == 8 && s'.dev.tmu[(2 : Fin 8)].cnt == 99) = true := by decide +kernel

/-- Channel 1 captures falling edges of pin 3, every second one, filtered by four samples; the last was accepted at 1.9 ms. -/
def capturing (edges : Nat) : State := timing 5 fun x => { x with ch := upd x.ch 1 fun c =>
  { c with cfg := 2 ||| put 10 6 43 ||| put 16 2 1 ||| put 18 4 4 ||| put 22 8 1, edges := edges, accAt := some 1900000 } }

theorem witness_TimerEvents_capture : let s := capturing 0
    s.dev.settled ∧ s.dev.sup.mode ≠ .bivouac ∧ s.room [2] ∧ alone s = true ∧ (s.dev.tmu[(2 : Fin 8)].ch[(1 : Fin 4)]).mode = 2 ∧
    fld (s.dev.tmu[(2 : Fin 8)].ch[(1 : Fin 4)]).cfg 16 2 = 1 ∧ s.dev.pinDriven 3 = false ∧
    ¬(s.now 2000000 + s.dev.sup.dstep < 1999899 + 25 * 4) ∧ s.now 2000000 + s.dev.sup.dstep < 1999902 + 25 * 4 ∧
    answers (.captureEdge 2000000 2 1 false 1999902) s (fun s' => s'.dev.tmu == s.dev.tmu) = true ∧
    answers (.captureEdge 2000000 2 1 false 1900000) s (fun s' => s'.dev.tmu == s.dev.tmu) = true ∧
    answers (.captureEdge 2000000 2 1 true 1999899) s (fun s' => (s'.dev.tmu[(2 : Fin 8)].ch[(1 : Fin 4)]).edges == 0 &&
      (s'.dev.tmu[(2 : Fin 8)].ch[(1 : Fin 4)]).accAt == some 1999899) = true ∧
    answers (.captureEdge 2000000 2 1 false 1999899) s (fun s' => (s'.dev.tmu[(2 : Fin 8)].ch[(1 : Fin 4)]).edges == 1) = true ∧
    alone (capturing 1) = true ∧ fld ((capturing 1).dev.tmu[(2 : Fin 8)].ch[(1 : Fin 4)]).cfg 22 8 ≤ 1 ∧
    answers (.captureEdge 2000000 2 1 false 1999899) (capturing 1) (fun s' => (s'.dev.tmu[(2 : Fin 8)].ch[(1 : Fin 4)]).val == 5 &&
      (s'.dev.tmu[(2 : Fin 8)].ch[(1 : Fin 4)]).capt == 1999875) = true := by decide +kernel

/-- PIO machine 2 runs, about to execute a word at index 3 of area 0; lanes 0 to 15 are pins 0 to 15, all its own. -/
def pioAt (w : BitVec 16) (f : Pio → Pio := id) (g : PioShared → PioShared := id) (l : List MemOp := []) : State := st (fun d =>
  let d := inMode .run d
  { d with
    pio := upd d.pio 2 fun x => f { x with run := true, fresh := false, pc := 3, lanes := 0xFEDCBA9876543210, laneCfg := 0xFFFF }
    pios := g { d.pios with areas := upd d.pios.areas 0 fun _ => [0, 0, 0, w], own := 0xAAAAAAAAAAAAAAAA } }) l

/-- No unit listens to pins, and machine 2 has a step to take. -/
def stepDue (s : State) : Bool := (s.dev.tmu.toList.all fun x => !x.clk && x.slave != 2) &&
  decide (s.dev.pio[(2 : Fin 8)].step < s.dev.pio[(2 : Fin 8)].steps (s.now 0))

abbrev pioGo (s : State) (w : BitVec 16) (op : Nat) : Prop :=
  s.clean ∧ s.dev.pioRuns 2 = true ∧ s.dev.pioWord 2 = w ∧ pf w 12 4 = op ∧ (stepDue s && s.dev.pio[(2 : Fin 8)].wait == .none) = true

def pio2 (s : State) : Pio := s.dev.pio[(2 : Fin 8)]

theorem witness_PioInstructions_counts :
    pioGo (pioAt 0xAFFF) 0xAFFF 10 ∧ answers (.load 0 2) (pioAt 0xAFFF) (fun s' => (pio2 s').y == 2047 && (pio2 s').x == 0 && (pio2 s').pc == 4) = true ∧
    pioGo (pioAt 0x6009) 0x6009 6 ∧ answers (.count 0 2) (pioAt 0x6009) (fun s' => (pio2 s').pc == 9) = true ∧
    answers (.count 0 2) (pioAt 0x6009 fun x => { x with x := 1 }) (fun s' => (pio2 s').pc == 4 && (pio2 s').x == 0) = true ∧
    pioGo (pioAt 0x7149) 0x7149 7 ∧ answers (.go 0 2 0x10) (pioAt 0x7149 fun x => { x with laneCfg := put 16 4 4 }) (fun s' => (pio2 s').pc == 9) = true ∧
    answers (.go 0 2 0) (pioAt 0x7149 fun x => { x with laneCfg := put 16 4 4 }) (fun s' => (pio2 s').pc == 4) = true ∧
    pioGo (pioAt 0xB000) 0xB000 11 ∧ answers (.pause 0 2) (pioAt 0xB000) (fun s' => (pio2 s').pc == 4) = true ∧
    pioGo (pioAt 0xB005) 0xB005 11 ∧ answers (.pause 2000000 2) (pioAt 0xB005 fun x => { x with runAt := 1999992 }) (fun s' => (pio2 s').wait == .pause 7) = true ∧
    pioGo (pioAt 0x900B) 0x900B 9 ∧ answers (.raise 0 2) (pioAt 0x900B id fun g => { g with lines := 8 }) (fun s' => s'.dev.pios.lines == 8 &&
      s'.dev.pios.merged == 1) = true := by decide +kernel

/-- A machine whose step is taken waits for the next one; and unit 2 counts rising edges of pin 8, which PIO_DRIVE raises. -/
theorem witness_PioInstructions_steps : let done := pioAt 0xAFFF fun x => { x with step := x.steps 1000000 }
    let y := pioAt 0x11A5 id fun g => { g with dir := 0xFFFF }
    let s : State := { y with dev := { y.dev with tmu := upd y.dev.tmu 2 fun x => { x with cfg := 1 ||| put 8 6 48, running := true, cnt := 9 } } }
    done.clean ∧ done.dev.pioRuns 2 = true ∧ (pio2 done).steps (done.now 0) ≤ (pio2 done).step ∧
    answers (.load 0 2) done (fun s' => s'.dev.pio == done.dev.pio) = true ∧
    s.clean ∧ s.dev.pioWord 2 = 0x11A5 ∧ (∀ (u : Fin 8) (c : Fin 4), (s.dev.tmu[u].ch[c]).mode = 0) ∧ s.dev.pinLevel 8 = false ∧
    (∀ v : Fin 8, v ≠ 2 → s.dev.tmu[v].clk = false ∧ s.dev.tmu[v].slave ≠ 2) ∧
    answers (.pioDrive 0 2) s (fun s' => s'.dev.pinLevel 8 && s'.dev.tmu[(2 : Fin 8)].cnt == 8) = true := by decide +kernel

theorem witness_PioInstructions_pins :
    pioGo (pioAt 0x11A5) 0x11A5 1 ∧ answers (.pioDrive 0 2) (pioAt 0x11A5) (fun s' => s'.dev.pios.out == 0xA500) = true ∧
    pioGo (pioAt 0x18A5) 0x18A5 1 ∧ answers (.pioDrive 0 2) (pioAt 0x18A5) (fun s' => s'.dev.pios.dir == 0xA5) = true ∧
    (pioAt 0x11A5).dev.mayDrive' 2 8 = true ∧
    pioGo (pioAt 0x3010) 0x3010 3 ∧ pf 0x3010 0 5 ≤ 16 ∧
    answers (.shift 0 2) (pioAt 0x3010 fun x => { x with ow := 0x12345678, ocnt := 32 }) (fun s' => (pio2 s').ow == 0x1234 && s'.dev.pios.out == 0x5678) = true ∧
    answers (.shift 0 2) (pioAt 0x3004 fun x => { x with ow := 0x12345678, cfg := x.cfg ||| putB 44 true }) (fun s' => (pio2 s').ow == 0x23456780 &&
      s'.dev.pios.out == 8) = true ∧
    pioGo (pioAt 0x2004) 0x2004 2 ∧ answers (.pioSample 0 2 0xD) (pioAt 0x2004 fun x => { x with iw := 1 }) (fun s' => (pio2 s').iw == 0x1B &&
      (pio2 s').icnt == 4) = true ∧
    answers (.pioSample 0 2 0xD) (pioAt 0x2004 fun x => { x with iw := 1, cfg := x.cfg ||| putB 43 true }) (fun s' => (pio2 s').iw == 0xD0000000) = true := by
  decide +kernel

theorem witness_PioQueuesAndWaits_queues : let fed (x : Pio) : Pio := { x with tx := [9, 8], iw := 6, icnt := 3 }
    let full (x : Pio) : Pio := { x with rx := [1, 2, 3, 4] }
    pioGo (pioAt 0x4002 fed) 0x4002 4 ∧ answers (.take 0 2) (pioAt 0x4002 fed) (fun s' => (pio2 s').x == 9 && (pio2 s').tx == [8] && (pio2 s').pc == 4) = true ∧
    pioGo (pioAt 0x4003) 0x4003 4 ∧ answers (.take 0 2) (pioAt 0x4003) (fun s' => (pio2 s').runout && (pio2 s').wait == .block none) = true ∧
    answers (.take 0 2) (pioAt 0x4002) (fun s' => (pio2 s').runouts == 1 && (pio2 s').pc == 4) = true ∧
    pioGo (pioAt 0x5000 fed) 0x5000 5 ∧ (pio2 (pioAt 0x5000 fed)).rx.length < (pio2 (pioAt 0x5000 fed)).rxCap ∧
    answers (.give 0 2) (pioAt 0x5000 fed) (fun s' => (pio2 s').rx == [6] && (pio2 s').iw == 0 && (pio2 s').icnt == 0) = true ∧
    pioGo (pioAt 0x5001 full) 0x5001 5 ∧ (pio2 (pioAt 0x5001 full)).rxCap ≤ 4 ∧
    answers (.give 0 2) (pioAt 0x5001 full) (fun s' => (pio2 s').pileup && (pio2 s').wait == .block none) = true := by decide +kernel

/-- The receive slot is slot 40, the hardware's. -/
def rxSlot (x : Pio) : Pio := { x with rxSlot := 40 ||| putB 14 true ||| put 16 16 7, x := 5, runAt := 900000 }

theorem witness_PioQueuesAndWaits_stamp : let hw : List MemOp := [.attr 40 { cls := 1, writer := 8 }]
    let full (x : Pio) : Pio := { x with rx := [1, 2, 3, 4] }
    pioGo (pioAt 0x5002 rxSlot id hw) 0x5002 5 ∧ ((pioAt 0x5002 rxSlot id hw).attr 40).cls = 1 ∧ ((pioAt 0x5002 rxSlot id hw).attr 40).writer = 8 ∧
    answers (.give 2000000 2) (pioAt 0x5002 rxSlot id hw) (fun s' => s'.slot 40 == 5 && (s'.attr 40).tag == 1 && (pio2 s').lastRx == 2000000) = true ∧
    pioGo (pioAt 0x8000) 0x8000 8 ∧ answers (.stamp 2000000 2) (pioAt 0x8000) (fun s' => (pio2 s').rx == [2000000]) = true ∧
    pioGo (pioAt 0x8003 full) 0x8003 8 ∧ pf 0x8003 0 1 = 1 ∧
    answers (.stamp 2000000 2) (pioAt 0x8003 full) (fun s' => (pio2 s').wait == .block (some 0xFFFFFFFF)) = true ∧
    pioGo (pioAt 0x0103) 0x0103 0 ∧ pf 0x0103 9 3 = 0 ∧
    answers (.hold 0 2 8) (pioAt 0x0103) (fun s' => (pio2 s').pc == 4) = true ∧
    answers (.hold 0 2 0) (pioAt 0x0103) (fun s' => (pio2 s').wait == .hold false) = true ∧
    pioGo (pioAt 0x0487 id fun g => { g with flags := 0xC0 }) 0x0487 0 ∧ pf 0x0487 9 3 = 2 ∧ pf 0x0487 0 4 < 8 ∧
    answers (.hold 0 2 0) (pioAt 0x0487 id fun g => { g with flags := 0xC0 }) (fun s' => s'.dev.pios.flags == 0x40 && (pio2 s').pc == 4) = true := by
  decide +kernel

theorem witness_PioQueuesAndWaits_ends : let w (v : PioWait) (x : Pio) : Pio := { x with wait := v }
    let at' (o : BitVec 16) (v : PioWait) (f : Pio → Pio := id) := pioAt o fun x => f (w v x)
    let ready (s : State) (o : BitVec 16) : Prop := s.clean ∧ (s.dev.pioRuns 2 && s.dev.pioWord 2 == o && stepDue s) = true
    let full (x : Pio) : Pio := { x with rx := [1, 2, 3, 4] }
    (ready (at' 0x0303 (.hold false)) 0x0303 ∧ ready (at' 0x4002 (.block none) fun x => { x with tx := [9] }) 0x4002 ∧ ready (at' 0x4002 (.block none)) 0x4002 ∧
    ready (at' 0x5002 (.block none)) 0x5002 ∧ ready (at' 0x8000 (.block (some 3))) 0x8000 ∧ ready (at' 0x8000 (.block (some 3)) full) 0x8000 ∧
    ready (at' 0xB005 (.pause 5)) 0xB005) ∧
    pf 0x0303 9 3 = 1 ∧ answers (.pioHoldEnd 0 2 8) (at' 0x0303 (.hold false)) (fun s' => (pio2 s').pc == 4) = true ∧
    answers (.pioHoldEnd 0 2 8) (at' 0x0303 (.hold true)) (fun s' => (pio2 s').wait == .hold true) = true ∧
    answers (.pioBlockEnd 0 2) (at' 0x4002 (.block none) fun x => { x with tx := [9] }) (fun s' => (pio2 s').x == 9 && (pio2 s').pc == 4) = true ∧
    answers (.pioBlockEnd 0 2) (at' 0x4002 (.block none)) (fun s' => (pio2 s').pc == 3) = true ∧
    answers (.pioBlockEnd 0 2) (at' 0x5002 (.block none)) (fun s' => (pio2 s').rx == [0] && (pio2 s').pc == 4) = true ∧
    answers (.pioBlockEnd 0 2) (at' 0x8000 (.block (some 3))) (fun s' => (pio2 s').rx == [3]) = true ∧
    answers (.pioBlockEnd 0 2) (at' 0x8000 (.block (some 3)) full) (fun s' => (pio2 s').rx.length == 4 && (pio2 s').pc == 3) = true ∧
    5 ≤ (pio2 (at' 0xB005 (.pause 5))).steps 1000020 ∧ answers (.pioPauseEnd 1000020 2) (at' 0xB005 (.pause 5)) (fun s' => (pio2 s').pc == 4) = true ∧
    (let done := at' 0x4002 (.block none) fun x => { x with tx := [9], step := x.steps 1000000 }
     (pio2 done).steps (done.now 0) ≤ (pio2 done).step ∧ answers (.pioBlockEnd 0 2) done (fun s' => (pio2 s').pc == 3) = true) ∧
    (pio2 (at' 0xB005 (.pause 5000000))).steps 1000020 < 5000000 ∧
    answers (.pioPauseEnd 1000020 2) (at' 0xB005 (.pause 5000000)) (fun s' => (pio2 s').pc == 3) = true := by decide +kernel

/-- CAN_0 has selected unit 2, channel 1 and machine 2. -/
def selecting (s : State) : State := { s with dev := s.dev.modCtx .can0 fun c => { c with tmuSel := 0x102, pioSel := 2 } }

theorem witness_TimerAndPioRegisters_timers : let a := selecting (timing 5)
    let b := selecting (capturing 0)
    let e := selecting (timing 5 fun x => { x with ch := upd x.ch 1 fun c => { c with emitAt := some 2000001 } })
    e.dev.settled ∧ sameClock (some 2000001) (e.now 2000003) = true ∧
    answers (.compareValueWrite 2000003 .can0 7) e (fun s' => s'.dev.tmu == e.dev.tmu) = true ∧
    (a.dev.tmu[(2 : Fin 8)].ch[(1 : Fin 4)]).emitAt = none ∧ a.dev.tmu[(2 : Fin 8)].tickedAt = none ∧
    a.dev.settled ∧ bit (0x44 : W64) 6 = true ∧ a.dev.tmu[(6 : Fin 8)].running = false ∧ a.dev.tmu[(2 : Fin 8)].running = true ∧ bit (0x44 : W64) 1 = false ∧
    answers (.tmuStart 2000000 .can0 0x44) a (fun s' => s'.dev.tmu[(6 : Fin 8)].running && s'.dev.tmu[(2 : Fin 8)].cnt == 5 && !s'.dev.tmu[(1 : Fin 8)].running) = true ∧
    (a.dev.tmu[(2 : Fin 8)].ch[(1 : Fin 4)]).mode ≠ 2 ∧
    answers (.compareValueWrite 2000000 .can0 7) a (fun s' => (s'.dev.tmu[(2 : Fin 8)].ch[(1 : Fin 4)]).val == 7 && (s'.dev.tmu[(2 : Fin 8)].ch[(1 : Fin 4)]).armed) = true ∧
    answers (.captureRead 2000000 .can0) a (fun s' => s'.dev.tmu == a.dev.tmu) = true ∧
    b.dev.settled ∧ (b.dev.tmu[(2 : Fin 8)].ch[(1 : Fin 4)]).mode = 2 ∧
    answers (.compareValueWrite 2000000 .can0 7) b (fun s' => s'.dev.tmu[(2 : Fin 8)].cfgIgn && (s'.dev.tmu[(2 : Fin 8)].ch[(1 : Fin 4)]).val == 4) = true ∧
    answers (.captureRead 2000000 .can0) b (fun s' => !(s'.dev.tmu[(2 : Fin 8)].ch[(1 : Fin 4)]).unread) = true := by decide +kernel

theorem witness_TimerAndPioRegisters_inject : let a (f : Pio → Pio := id) := selecting (pioAt 0 f)
    let full (x : Pio) : Pio := { x with tx := [1, 2, 3, 4], rx := [5] }
    (a).dev.settled ∧ (a).dev.pioRuns 2 = true ∧ (pio2 (a)).inject = none ∧ pioWordOk 0xA001 = true ∧ pioWordOk 0xC000 = false ∧
    answers (.pioInject 2000000 .can0 0xA001) (a) (fun s' => (pio2 s').inject == some 0xA001) = true ∧
    answers (.pioInject 2000000 .can0 0xC000) (a) (fun s' => (pio2 s').injIgn) = true ∧
    (pio2 (a fun x => { x with run := false })).run = false ∧
    answers (.pioRun 2000000 .can0 true) (a fun x => { x with run := false }) (fun s' => (pio2 s').run && (pio2 s').runAt == 2000000 && (pio2 s').pc == 3) = true ∧
    answers (.pioRun 2000000 .can0 true) (a fun x => { x with run := false, fresh := true, cfg := x.cfg ||| put 8 6 9 }) (fun s' => (pio2 s').pc == 9) = true ∧
    (pio2 (a)).run = true ∧ answers (.pioRun 2000000 .can0 true) (a) (fun s' => (pio2 s').runAt == 0) = true ∧
    answers (.pioRun 2000000 .can0 false) (a) (fun s' => !(pio2 s').run) = true ∧
    answers (.pioRestart 2000000 .can0) (a) (fun s' => (pio2 s').pc == 0) = true ∧
    (pio2 (a)).tx.length < (pio2 (a)).txCap ∧ answers (.pioTxqWrite 2000000 .can0 7) (a) (fun s' => (pio2 s').tx == [7]) = true ∧
    (pio2 (a full)).txCap ≤ (pio2 (a full)).tx.length ∧ answers (.pioTxqWrite 2000000 .can0 7) (a full) (fun s' => (pio2 s').hostLost == 1) = true ∧
    answers (.pioRxqRead 2000000 .can0) (a full) (fun s' => (pio2 s').rx == []) = true ∧
    answers (.pioFlagSet 2000000 .can0 7) (a) (fun s' => s'.dev.pios.flags == 7 && s'.dev.pios.lines == 0) = true := by decide +kernel

theorem witness_TimerAndPioRegisters_stale : let f (x : Pio) : Pio := { rxSlot x with lastRx := 1000000 }
    let s := pioAt 0x5002 f id [.attr 40 { cls := 1, writer := 8 }, .slot 40 5 1]
    let y := pio2 s
    s.dev.settled ∧ bit y.rxSlot 14 = true ∧ fld y.rxSlot 16 16 ≠ 0 ∧ y.stale = false ∧ y.lastRx + 1000 * fld y.rxSlot 16 16 ≤ s.now 1007000 ∧
    s.dev.memu.deadTags = [] ∧ answers (.pioSlotStale 1007000 2) s (fun s' => (s'.attr 40).tag == 2 && (pio2 s').stale && s'.slot 40 == 5) = true ∧
    ¬(y.lastRx + 1000 * fld y.rxSlot 16 16 ≤ s.now 1006999) ∧
    answers (.pioSlotStale 1006999 2) s (fun s' => (s'.attr 40).tag == 1) = true := by decide +kernel

/-! ### CAN -/

/-- Message object `i` of CAN_2, with one signal, descriptor 9: 8 bits from bit 0, slot 40, scale 1 with offset 2. -/
def object (i : Nat) (w0 w2 : W64) : List MemOp :=
  [.bytes (msgAddr 2 (32 * i)) (wordsBytes [w0, put 0 29 0x7FF, w2 ||| put 32 11 9 ||| put 44 11 1, put 16 16 3]),
   .bytes (msgAddr 2 (0x1000 + 72)) (wordBytes (put 14 6 7 ||| put 24 14 40)), .bytes (msgAddr 2 0x5000) (wordsBytes [q 1, q 2])]

/-- CAN_2 is enabled, with its service channel at 0x700. -/
def canState (f : Can → Can) (l : List MemOp := []) (g : Dev → Dev := id) : State := st (fun d => let d := inMode .run d
  g { d with can := upd d.can 2 fun c => f { c with cfg := 1, svc := 0x700 ||| putB 31 true ||| put 32 29 0x701 } }) l

def can2 (s : State) : Can := s.dev.can[(2 : Fin 4)]

def request (op : Byte) (addr : BitVec 16 := 0) (data : W64 := 0) (fd : Bool := false) : SvcReq :=
  { op := op, seq := 5, addr := addr, data := data, fd := fd }

theorem witness_CanReception_requests : let f := frame 0x700 [0x10, 5, 0, 0, 0, 0, 0, 0]
    let full := canState fun c => { c with svcQ := List.replicate 4 (request 0x10) }
    let off := canState fun c => { c with cfg := 0 }
    off.clean ∧ off.dev.canActive 2 = false ∧ answers (.canFrameReceived 2000000 2 f) off (fun s' => s'.dev.can == off.dev.can) = true ∧
    full.clean ∧ full.dev.canActive 2 = true ∧ (can2 full).recCnt = 0 ∧ full.dev.isRequest 2 f = true ∧ 4 ≤ (can2 full).svcQ.length ∧
    answers (.canFrameReceived 2000000 2 f) full (fun s' => (can2 s').dropped == 1 && (can2 s').lastReq == 2000000) = true ∧
    (canState id).clean ∧ (canState id).dev.isRequest 2 f = true ∧ svcUnknown (requestOf f).op = false ∧ (requestOf f).op.getLsbD 6 = false ∧
    (∀ j : Fin 4, (canState id).dev.can[j].svcQ = []) ∧
    answers (.canFrameReceived 2000000 2 f) (canState id) (fun s' => (can2 s').svcQ == [{ request 0x10 with tag := [0, 0, 0, 0] }]) = true := by
  decide +kernel

theorem witness_CanReception_objects : let o := object 3 (1 ||| put 8 12 2 ||| put 32 29 0x123) 0 ++ [.attr 40 { cls := 1, writer := 8, tag := 0x10 }]
    let s := canState id o
    s.clean ∧ s.dev.isRequest 2 (frame 0x123 [7]) = false ∧ s.dev.objMode 2 = true ∧ (∀ j, j < 3 → (s.env.obj 2 j).matches_ (frame 0x123 [7, 8]) = false) ∧
    (s.env.obj 2 3).matches_ (frame 0x123 [7]) = true ∧ (s.env.obj 2 3).len = 2 ∧ (s.env.obj 2 3).sigs = [9] ∧ s.room [3] ∧ (s.attr 40).cls = 1 ∧
    msgAddr 2 ((s.env.obj 2 3).buf + 2) ≤ sysBase ∧
    answers (.canFrameReceived 2000000 2 (frame 0x123 [7])) s (fun s' => ((can2 s').obj 3).short == 1 && (can2 s').rx == 0) = true ∧
    answers (.canFrameReceived 2000000 2 (frame 0x123 [7, 8])) s (fun s' => s'.slot 40 == q 9 && (s'.attr 40).tag == 0x11 && (can2 s').rx == 1) = true ∧
    (∀ i ∈ [3, 4, 127], (s.env.obj 2 i).matches_ (frame 0x124 []) = false) ∧
    answers (.canFrameReceived 2000000 2 (frame 0x124 [7, 8])) s (fun s' => (can2 s').strangers == 1) = true := by decide +kernel

/-- A transmit object's state: period 100 µs × 4. -/
def sending (f : Can → Can := id) (tag : Byte := 1) (kind : Nat := 2) : State :=
  canState f (object 3 (put 0 2 kind ||| put 8 12 2 ||| put 32 29 0x123 ||| putB 6 true) (put 0 24 4 ||| putB 24 true) ++
    [.attr 40 { cls := 1, writer := 8 }, .slot 40 (q 9) tag])

theorem witness_CanTransmission_periods : let o := sending.env.obj 2 3
    let due := max ((can2 sending).obj 3).from_ (can2 sending).startAt + o.time
    sending.clean ∧ sending.dev.objMode 2 = true ∧ bit (can2 sending).cfg 0 = true ∧ o.kind = 2 ∧ o.time ≠ 0 ∧ due ≤ sending.now 400000 ∧
    sending.dev.sourcesValid sending.env 2 o = true ∧ bit o.w0 6 = true ∧
    answers (.transmitPeriod 400000 2 3) sending (fun s' => (can2 s').txq.map (·.frame.data) == [[7, 0]] && ((can2 s').obj 3).from_ == 400000) = true ∧
    (sending id 2).clean ∧ (sending id 2).dev.sourcesValid (sending id 2).env 2 o = false ∧
    answers (.transmitPeriod 400000 2 3) (sending id 2) (fun s' => (can2 s').txq == [] && ((can2 s').obj 3).skipped == 1) = true := by decide +kernel

theorem witness_CanTransmission_change : let sent := sending fun c => { c with objs := [(3, { lastSent := some [7], sentAt := some 1 })] }
    let early := sending fun c => { c with startAt := 1000000 }
    early.clean ∧ ¬(max ((can2 early).obj 3).from_ 1000000 + (early.env.obj 2 3).time ≤ early.now 1399999) ∧
    answers (.transmitPeriod 1399999 2 3) early (fun s' => (can2 s').txq == []) = true ∧
    bit (sending.env.obj 2 3).w2 24 = true ∧ ((can2 sending).obj 3).lastSent = none ∧ ((can2 sending).obj 3).sentAt = none ∧
    answers (.transmitOnChange 1000000 2 3) sending (fun s' => (can2 s').txq.length == 1) = true ∧
    sent.clean ∧ ((can2 sent).obj 3).lastSent = some ((sent.dev.packed sent.env 2 (sent.env.obj 2 3)).map (·.2.1)) ∧
    answers (.transmitOnChange 1000000 2 3) sent (fun s' => (can2 s').txq == []) = true := by decide +kernel

def early : State := sending (fun c => { c with startAt := 1000000 }) 1 1

theorem witness_CanTransmission_stale : let r := sending id 1 1
    r.clean ∧ r.dev.objMode 2 = true ∧ (r.env.obj 2 3).kind = 1 ∧ ((can2 r).obj 3).stale = false ∧
    answers (.receiveStale 400000 2 3) r (fun s' => (s'.attr 40).tag == 2 && ((can2 s').obj 3).stale) = true ∧
    ¬(max ((can2 early).obj 3).from_ (can2 early).startAt + (early.env.obj 2 3).time ≤ early.now 1399999) ∧
    answers (.receiveStale 1399999 2 3) early (fun s' => s'.mems == early.mems) = true := by decide +kernel

/-- Two frames wait: object 3's, queued at 5, and a service response of lower rank. -/
def offering (f : Can → Can := id) : State := canState fun c =>
  f { c with txq := [{ src := .service, frame := frame 0x701 [1], at_ := 5 }, { src := .object 3, frame := frame 0x123 [7], at_ := 5 }], tec := 9, objs := [(3, { queued := [7] })] }

theorem witness_CanTransmission_queue : let f : TxFrame := { src := .object 3, frame := frame 0x123 [7], at_ := 5 }
    offering.clean ∧ offering.dev.canActive 2 = true ∧ f ∈ (can2 offering).txq ∧ f.at_ ≤ 5 ∧
    (∀ g ∈ (can2 offering).txq, g ≠ f → g.at_ ≤ 5 → f.key < g.key) ∧ offering.dev.mayOffer 2 f = true ∧ (can2 offering).tec ≤ 127 ∧
    answers (.canFrameTransmitted 1000000 2 5 .stuffLost) offering (fun s' => (can2 s').tec == 9 && (can2 s').lec == 1) = true ∧
    answers (.canFrameTransmitted 1000000 2 5 (.sent (7, 9))) offering (fun s' => (can2 s').last.isSome && (can2 s').modeHigh == none && (can2 s').txq.map (·.src) == [.service] && (can2 s').tec == 8 &&
      ((can2 s').obj 3).lastSent == some [7]) = true ∧
    answers (.canFrameTransmitted 1000000 2 5 .lost) offering (fun s' => (can2 s').txq.length == 2) = true ∧
    answers (.canFrameTransmitted 1000000 2 5 (.error .form 1)) offering (fun s' => (can2 s').tec == 25 && (can2 s').lec == 2) = true ∧
    (∀ f ∈ (can2 offering).txq, 4 < f.at_) ∧ answers (.canFrameTransmitted 1000000 2 4 (.sent (7, 9))) offering (fun s' => (can2 s').tec == 9) = true := by
  decide +kernel

theorem witness_CanTransmission_errors : let off (n : W64) (r : Bool) := canState fun c => { c with cfg := n, busOff := true, recovering := r, tec := 256 }
    let high := canState fun c => { c with tec := 256 }
    high.dev.settled ∧ high.dev.canActive 2 = true ∧ high.onlyNoted 19 ∧ 255 < (can2 high).tec ∧ (canState id).dev.settled ∧
    (can2 (canState id)).tec ≤ 255 ∧ answers (.busOff 1000000 2) (canState id) (fun s' => !(can2 s').busOff) = true ∧
    answers (.canBusError 1000000 2 ⟨.crc, 1⟩) (canState id) (fun s' => (can2 s').recCnt == 9) = true ∧
    answers (.canBusError 1000000 2 ⟨.crc, 0⟩) (canState fun c => { c with recCnt := 255 }) (fun s' => (can2 s').recCnt == 255 && (can2 s').lec == 6) = true ∧
    (off 1 true).dev.settled ∧ (off 1 true).dev.canActive 2 = false ∧ answers (.canBusError 1000000 2 ⟨.crc, 0⟩) (off 1 true) (fun s' => (can2 s').lec == 0) = true ∧
    answers (.busOff 1000000 2) high (fun s' => (can2 s').busOff && (can2 s').recovering && s'.dev.flt.cnt[(19 : Fin 64)] == 1) = true ∧
    answers (.busOffRecovery 1000000 2) (off 1 true) (fun s' => !(can2 s').busOff && (can2 s').tec == 0) = true ∧
    (off 3 false).dev.settled ∧ bit (can2 (off 3 false)).cfg 1 = true ∧
    answers (.busOffRecovery 1000000 2) (off 3 false) (fun s' => (can2 s').busOff) = true ∧
    answers (.recover 1000000 .twp 2) (off 3 false) (fun s' => (can2 s').recovering) = true ∧
    answers (.recover 1000000 .twp 2) (canState id) (fun s' => !(can2 s').recovering) = true := by decide +kernel

/-! ### The service channel -/

/-- One request waits at CAN_2 in a session of a level. -/
def serving (r : SvcReq) (level : Nat) (f : Can → Can := id) : State := canState fun c => f { c with svcQ := [r], level := level }

abbrev served (s : State) (r : SvcReq) : Prop := s.dev.settled ∧ s.dev.svcRuns 2 = true ∧ (can2 s).svcQ = [r] ∧ (can2 s).busOff = false ∧ (∀ j : Fin 4, j ≠ 2 → s.dev.can[j].svcQ = [])

/-- Payloads of the answers, and their headers alone. -/
def replies (s : State) : List (List Byte) := (can2 s).txq.map (·.frame.data)
def heads (s : State) : List (List Byte) := (can2 s).txq.map (·.frame.data.take 4)

theorem witness_ServiceAccess_refused : let l (c : Can) : Can := { c with lockEnd := some 9 }
    served (serving (request 0x21) 2 l) (request 0x21) ∧ (can2 (serving (request 0x21) 2 l)).lockEnd ≠ none ∧
    answers (.writeHi 1000000 2) (serving (request 0x21) 2 l) (fun s' => heads s' == [[0xA1, 5, 6, 0]]) = true ∧
    served (serving (request 0x10 0x100) 0) (request 0x10 0x100) ∧ (can2 (serving (request 0x10 0x100) 0)).level < svcNeeds (request 0x10 0x100) ∧
    answers (.readLo 1000000 2) (serving (request 0x10 0x100) 0) (fun s' => heads s' == [[0x90, 5, 2, 0]]) = true ∧
    served (serving (request 0x12) 2) (request 0x12) ∧ (request 0x12).fd = false ∧
    answers (.svcRead 1000000 2) (serving (request 0x12) 2) (fun s' => heads s' == [[0x92, 5, 3, 0]]) = true := by decide +kernel

/-- CAN_0 and CAN_2 wait for the port, which served CAN_1 last: it is CAN_2's turn. -/
theorem witness_ServiceAccess_turn : let y := serving (request 0x12 0xF8 0 true) 0
    let s : State := { y with dev := ({ y.dev with can := upd y.dev.can 0 fun c => { c with cfg := 1, svcQ := [request 0x12 0xF8 0 true] } }).takeTurn .can1 }
    s.dev.settled ∧ s.dev.portTurn 0 = false ∧ answers (.svcRead 1000000 0) s (fun s' => s'.dev.can == s.dev.can) = true ∧
    s.dev.portTurn 2 = true ∧ answers (.svcRead 1000000 2) s (fun s' => (can2 s').svcQ == []) = true := by decide +kernel

theorem witness_ServiceAccess_read : let held (c : Can) : Can := { c with sample := some (0xF8, 0x2100000000) }
    served (serving (request 0x10 0xF8) 0) (request 0x10 0xF8) ∧ (request 0x10 0xF8).addr.toNat < 256 ∧ (regRow 0xF8).isSome = true ∧
    (can2 (serving (request 0x10 0xF8) 0)).lockEnd = none ∧
    answers (.readLo 1000000 2) (serving (request 0x10 0xF8) 0) (fun s' => replies s' == [[0x90, 5, 0, 0, 0, 5, 0, 0]] && (can2 s').sample == some (0xF8, 0x500)) = true ∧
    served (serving (request 0x11 0xF8) 0 held) (request 0x11 0xF8) ∧
    answers (.readHi 1000000 2) (serving (request 0x11 0xF8) 0 held) (fun s' => replies s' == [[0x91, 5, 0, 0, 0x21, 0, 0, 0]]) = true ∧
    served (serving (request 0x11 0x08) 0 held) (request 0x11 0x08) ∧
    answers (.readHi 1000000 2) (serving (request 0x11 0x08) 0 held) (fun s' => heads s' == [[0x91, 5, 4, 0]]) = true ∧
    served (serving (request 0x12 0xF8 0 true) 0) (request 0x12 0xF8 0 true) ∧
    answers (.svcRead 1000000 2) (serving (request 0x12 0xF8 0 true) 0) (fun s' => replies s' == [[0x92, 5, 0, 0, 0, 5, 0, 0, 0, 0, 0, 0]]) = true := by
  decide +kernel

theorem witness_ServiceAccess_write : let held (c : Can) : Can := { c with staged := some (0xF8, 0x2A) }
    served (serving (request 0x20 0xF8 7) 2) (request 0x20 0xF8 7) ∧ (can2 (serving (request 0x20 0xF8 7) 2)).level = 2 ∧
    answers (.writeLo 1000000 2) (serving (request 0x20 0xF8 7) 2) (fun s' => heads s' == [[0xA0, 5, 0, 0]] && (can2 s').staged == some (0xF8, 7)) = true ∧
    served (serving (request 0x21 0xF8) 2 held) (request 0x21 0xF8) ∧ (0xF8 : BitVec 16).toNat % 256 = 0xF8 ∧
    answers (.writeHi 1000000 2) (serving (request 0x21 0xF8) 2 held) (fun s' => (s'.dev.ctx .can2).page == 0x2A) = true ∧
    served (serving (request 0x21 0xF0) 2 held) (request 0x21 0xF0) ∧
    answers (.writeHi 1000000 2) (serving (request 0x21 0xF0) 2 held) (fun s' => heads s' == [[0xA1, 5, 4, 0]]) = true ∧
    served (serving (request 0x22 0xF8 0x33 true) 2) (request 0x22 0xF8 0x33 true) ∧
    answers (.svcWrite 1000000 2) (serving (request 0x22 0xF8 0x33 true) 2) (fun s' => (s'.dev.ctx .can2).page == 0x33) = true := by decide +kernel

/-- The nonce of CHALLENGE is free, so that only its hypotheses show; AUTH without a nonce fails. -/
theorem witness_ServiceSessions_requests : let third (c : Can) : Can := { c with failRow := 2 }
    served (serving (request 0x30 0 0 true) 0) (request 0x30 0 0 true) ∧ served (serving (request 0x30) 0) (request 0x30) ∧
    served (serving (request 0x31 0 0 true) 0) (request 0x31 0 0 true) ∧ (can2 (serving (request 0x31 0 0 true) 0)).lockEnd = none ∧
    (can2 (serving (request 0x31 0 0 true) 0)).nonce = none ∧
    answers (.auth 1000000 2) (serving (request 0x31 0 0 true) 0) (fun s' => (can2 s').failRow == 1 && (can2 s').lockEnd == none && (can2 s').level == 0) = true ∧
    served (serving (request 0x31 0 0 true) 0 third) (request 0x31 0 0 true) ∧
    answers (.auth 1000000 2) (serving (request 0x31 0 0 true) 0 third) (fun s' => (can2 s').failRow == 0 && (can2 s').lockEnd == some 10001000000) = true ∧
    served (serving (request 0x31 0x102) 0) (request 0x31 0x102) ∧ (can2 (serving (request 0x31 0x102) 0)).authParts = [] ∧
    answers (.auth 1000000 2) (serving (request 0x31 0x102) 0) (fun s' => (can2 s').authParts == [(6, [])]) = true ∧
    served (serving (request 0x3F) 2) (request 0x3F) ∧ answers (.close 1000000 2) (serving (request 0x3F) 2) (fun s' => (can2 s').level == 0) = true := by
  decide +kernel

theorem witness_ServiceSessions_ends : let s := canState fun c => { c with level := 2, lastReq := 7, lockEnd := some 5000000007 }
    s.dev.settled ∧ 7 + 5000000000 ≤ s.now 5000000007 ∧ answers (.sessionTimeout 5000000007 2) s (fun s' => (can2 s').level == 0) = true ∧
    s.now 5000000006 < 7 + 5000000000 ∧ answers (.sessionTimeout 5000000006 2) s (fun s' => (can2 s').level == 2) = true ∧
    (can2 s).lockEnd = some 5000000007 ∧ answers (.lockoutEnd 5000000007 2) s (fun s' => (can2 s').lockEnd == none) = true ∧
    answers (.lockoutEnd 5000000006 2) s (fun s' => (can2 s').lockEnd.isSome) = true := by decide +kernel

/-! ### Rope, two-wire port, flash bridge, registers -/

/-- The rope is on; group 0 of the mirror receives its entry 3 in slot 40, with the default 6; slot 40 is the hardware's. -/
def roped (f : Rope → Rope := id) : State := st (fun d => let d := inMode .run d
  { d with rope := f { d.rope with cfg := d.rope.cfg ||| 1, slotAt := 990000, mirror := upd d.rope.mirror 3 fun _ => (put 16 14 40 ||| putB 30 true, q 6) } })
  [.attr 40 { cls := 1, writer := 8, tag := 0x11 }]

/-- A frame that arrives at 1 ms. -/
def ropeIn (ok : Bool) (w0 : W64 := 1) : RopeFrame :=
  { ok := ok, w0 := w0, posw := 0, tags := 0x01010101FF010101, values := [0, 0, 0, q 8, 0, 0, 0, 0], tunnel := 0, arrive := 1000000 }

theorem witness_RopeLink_send : roped.clean ∧ roped.dev.ropeRuns = true ∧ roped.dev.rope.tunnel.out = [] ∧
    answers (.ropeFrameSend 1000000) (roped fun r => { r with fcnt := 15, role := true }) (fun s' => s'.dev.rope.fcnt == 0 &&
      (s'.dev.rope.sent.map fun f => fld f.w0 0 9) == some 0x1F1) = true ∧
    (st (inMode .run)).clean ∧ (st (inMode .run)).dev.ropeRuns = false ∧
    answers (.ropeFrameSend 1000000) (st (inMode .run)) (fun s' => s'.dev.rope.sent.isNone) = true := by decide +kernel

theorem witness_RopeLink_receive : let seven := roped fun r => { r with goodRun := 7 }
    let up := roped fun r => { r with up := true }
    roped.dev.rope.slotsPassed (ropeIn true).arrive ≤ 1 ∧ (ropeIn false).ok = false ∧
    answers (.ropeFrameReceived 1000000 (ropeIn false)) seven (fun s' => s'.dev.rope.bad == 1 && s'.dev.rope.goodRun == 0) = true ∧
    (ropeIn true).ok = true ∧ roped.dev.rope.up = false ∧
    answers (.ropeFrameReceived 1000000 (ropeIn true)) (roped fun r => { r with goodRun := 6 }) (fun s' => !s'.dev.rope.up && s'.dev.rope.goodRun == 7) = true ∧
    seven.clean ∧ answers (.ropeFrameReceived 1000000 (ropeIn true)) seven (fun s' => s'.dev.rope.up && s'.dev.rope.xchkFrom == 1080000) = true ∧
    up.clean ∧ up.dev.ropeRuns = true ∧ bit (ropeIn true).w0 13 = false ∧ bit (ropeIn true).w0 14 = false ∧ fld (ropeIn true).w0 9 3 ≠ 3 ∧
    fld (up.dev.rope.mirror[(3 : Fin 64)]).1 16 14 = 40 ∧ (up.attr 40).cls = 1 ∧ (up.attr 40).writer = 8 ∧
    (∀ i : Fin 8, i ≠ 3 → bit (up.dev.rope.mirror[Fin.ofNat 64 i.val]).1 30 = false) ∧
    answers (.ropeFrameReceived 1000000 (ropeIn true)) up (fun s' => s'.slot 40 == q 8 && s'.dev.rope.up) = true := by decide +kernel

theorem witness_RopeLink_lost : let up := roped fun r => { r with up := true, lastGood := 970000 }
    let near := roped fun r => { r with up := true, lastGood := 970001 }
    let lost (ms : W64) := roped fun r => { r with lostAt := some 970000, cfg := (r.cfg &&& 0xFFFFFFFFFFFF) ||| (ms <<< 48) }
    up.clean ∧ up.dev.ropeRuns = true ∧ up.dev.rope.lastGood + 30000 ≤ up.now 1000000 ∧ up.onlyNoted 20 ∧
    answers (.ropeLost 1000000) up (fun s' => !s'.dev.rope.up && (s'.attr 40).tag == 0x12 && s'.dev.flt.cnt[(20 : Fin 64)] == 1) = true ∧
    (let new := roped fun r => { r with lastGood := 970000 }
     new.clean ∧ new.dev.ropeRuns = true ∧ new.dev.rope.up = false ∧ new.dev.rope.lostAt = none ∧
     answers (.ropeLost 1000000) new (fun s' => s'.dev.rope.lostSeen && s'.dev.rope.losses == 1) = true) ∧
    (let l : State := { up with dev := { up.dev with sup := { up.dev.sup with mode := .locked } } }
     l.clean ∧ l.dev.rope.up = true ∧ answers (.ropeLost 1000000) l (fun s' => !s'.dev.rope.up && s'.dev.rope.losses == 0) = true) ∧
    (lost 1).dev.rope.lostAt ≠ none ∧ answers (.ropeLost 1000000) (lost 1) (fun s' => s'.dev.rope.losses == 0) = true ∧
    near.clean ∧ near.now 1000000 < near.dev.rope.lastGood + 30000 ∧ answers (.ropeLost 1000000) near (fun s' => s'.dev.rope.up) = true ∧
    (lost 1).clean ∧ (lost 1).dev.ropeRuns = true ∧ (lost 1).dev.rope.defDone = false ∧ 970000 + fld (lost 1).dev.rope.cfg 48 16 * 1000000 ≤ (lost 1).now 1970000 ∧
    ((lost 1).dev.rope.rxEntries.map fun x => fld x.1 16 14) = [40] ∧ ((lost 1).attr 40).writer = 8 ∧
    answers (.mirrorDefault 1970000) (lost 1) (fun s' => s'.slot 40 == q 6 && (s'.attr 40).tag == 0x18) = true ∧
    roped.dev.rope.lostAt = none ∧ answers (.mirrorDefault 1970000) roped (fun s' => s'.slot 40 == 0) = true := by decide +kernel

/-- The port at its reset addresses: 0x40 for registers, 0x48 for the log stream. -/
def port (f : Twp → Twp := id) (n : Nat := 0) : State := let s := ringState n true
  { s with dev := { s.dev with twp := f s.dev.twp, recm := { s.dev.recm with staging := [] } } }

theorem witness_TwoWirePort_registers : let at8 := port fun x => { x with ptr := 0xF8 }
    port.clean ∧ port.dev.sup.filled = true ∧ port.dev.twp.isReg 0x40 = true ∧ at8.clean ∧ at8.dev.twp.ptr = 0xF8 ∧
    answers (.twpProbe 2000000 0x40) port (fun s' => s'.dev.twp.ack && s'.dev.twp.xfers == 1) = true ∧
    answers (.twpProbe 2000000 0x41) port (fun s' => !s'.dev.twp.ack && s'.dev.twp.xfers == 0) = true ∧
    answers (.twpRegisterWrite 2000000 0x40 [0xF8, 9, 0, 0, 0, 0, 0, 0, 0] true) port (fun s' => (s'.dev.ctx .twp).page == 9 && s'.dev.twp.ptr == 0) = true ∧
    answers (.twpRegisterWrite 2000000 0x40 [0xF8, 9, 0, 0, 0, 0, 0, 0] true) port (fun s' => (s'.dev.ctx .twp).page == 0 && s'.dev.twp.partial_) = true ∧
    answers (.twpRegisterRead 2000000 0x40 4 true) at8 (fun s' => s'.dev.twp.out == [0, 5, 0, 0] && s'.dev.twp.ptr == 0xFC) = true := by decide +kernel

theorem witness_TwoWirePort_stretched : let s := port fun x => { x with stretch := some (.read 1 none true) }
    s.dev.settled ∧ s.dev.twp.stretch ≠ none ∧ answers (.twpProbe 2000000 0x40) s (fun s' => s'.dev.twp == s.dev.twp) = true := by decide +kernel

theorem witness_TwoWirePort_log : (port id 0).clean ∧ (port id 0).dev.twp.isLog 0x48 = true ∧ (port id 0).dev.recm.stood = none ∧ (port id 0).dev.pendingOf 0 = [] ∧
    answers (.twpLogRead 2000000 0x48 3) (port id 0) (fun s' => s'.dev.twp.out == [0, 0, 0]) = true ∧
    (port id 2).clean ∧ ((port id 2).dev.pendingOf 0).map (·.2.size) = [400, 400] ∧
    answers (.twpLogRead 2000000 0x48 399) (port id 2) (fun s' => (ring11 s').pending.length == 2 && s'.dev.twp.out.length == 399) = true ∧
    answers (.twpLogRead 2000000 0x48 400) (port id 2) (fun s' => (ring11 s').pending.map (·.ord) == [1] && s'.dev.recm.logRead == 1) = true ∧
    answers (.twpLogWrite 2000000 0x48 [1]) port (fun s' => s'.dev.twp.logWr && s'.dev.twp.ptr == 0) = true ∧
    answers (.twpTimeout 2000000) (port fun x => { x with busy := true, staging := some (8, [1]) }) (fun s' => s'.dev.twp.partial_ && s'.dev.twp.timeouts == 1) = true := by
  decide +kernel

theorem witness_TwoWirePort_attention : let a (sent : Option Ns) (rep : W64 := 2) := port fun x => { x with attnPend := true, attnMask := 31, attnEvt := 1, sentAt := sent, cfg := (x.cfg &&& 0xFFFFFFFFFFFF00FF) ||| (rep <<< 8), idleAt := 7 }
    (a none).clean ∧ (a none).dev.twp.busy = false ∧ (a none).dev.twp.idleAt + 100000 ≤ (a none).now 1000000 ∧ (a none).dev.twp.attnPend = true ∧
    answers (.attentionRequest 1000000 false) (a none) (fun s' => s'.dev.twp.attns == 1 && s'.dev.twp.sentAt == some 1000000) = true ∧
    answers (.attentionRequest 1000000 true) (a none) (fun s' => s'.dev.twp.attns == 0 && s'.dev.twp.idleAt == 1000000) = true ∧
    ¬(port.dev.twp.attnPend = true) ∧ answers (.attentionRequest 1000000 false) port (fun s' => s'.dev.twp.attns == 0) = true ∧
    (a none).dev.twp.open_ = false ∧ (a none).dev.twp.stretch = none ∧
    answers (.attnRepeat ⟨1000000, false⟩) port (fun s' => s'.dev.twp.attns == 0) = true ∧
    fld (a (some 1000000)).dev.twp.cfg 8 8 = 2 ∧ answers (.attnRepeat ⟨3000000, false⟩) (a (some 1000000)) (fun s' => s'.dev.twp.attns == 1) = true ∧
    answers (.attnRepeat ⟨3000000, true⟩) (a (some 1000000)) (fun s' => s'.dev.twp.attns == 0 && s'.dev.twp.idleAt == 3000000) = true ∧
    fld (a (some 1000000) 0).dev.twp.cfg 8 8 = 0 ∧ answers (.attnRepeat ⟨3000000, false⟩) (a (some 1000000) 0) (fun s' => s'.dev.twp.attns == 0) = true := by decide +kernel

/-- In SERVICE, stopped, with the bridge in a state. -/
def bridging (f : Nvi → Nvi := id) (m : Mode := .service) : State := st fun d => let d := inMode m d
  { d with nvi := f d.nvi }

theorem witness_FlashBridge_start : let busy := bridging fun n => { n with brBusy := true, brOp := 2 }
    let code (n : Nat) (s' : State) : Bool := s'.dev.nvi.brErr == n
    bridging.dev.settled ∧ bridging.dev.sup.mode = .service ∧ bridging.dev.pos.sync = .stopped ∧ bit bridging.dev.sup.svc 0 = false ∧
    answers (.bridgeRead 2000000 .can0 128 0x1FFF80) bridging (fun s' => s'.dev.nvi.brBusy && s'.dev.nvi.brOp == 1 && s'.dev.nvi.brLen == 128) = true ∧
    answers (.bridgeRead 2000000 .can0 129 0) bridging (code 2) = true ∧ answers (.program 2000000 .can0 256 0x100) bridging (fun s' => s'.dev.nvi.flashBusy) = true ∧
    answers (.program 2000000 .can0 256 0x101) bridging (code 2) = true ∧ answers (.erase4k 2000000 .can0 0x1000) bridging (fun s' => s'.dev.nvi.brOp == 3) = true ∧
    answers (.erase64k 2000000 .can0 0x1000) bridging (code 2) = true ∧ answers (.verify 2000000 .can0 1) bridging (fun s' => s'.dev.nvi.brOp == 5) = true ∧
    busy.dev.settled ∧ answers (.verify 2000000 .can0 1) busy (code 3) = true ∧
    (bridging id .run).dev.settled ∧ answers (.verify 2000000 .can0 1) (bridging id .run) (code 1) = true := by decide +kernel

theorem witness_FlashBridge_end : let b (op len : Nat) (fb : Bool) := bridging fun n => { n with brBusy := true, brOp := op, brLen := len, brAt := 1000000, flashBusy := fb }
    (b 2 9 true).dev.settled ∧ answers (.bridgeStatusPoll 2000000 false) (b 2 9 true) (fun s' => !s'.dev.nvi.flashBusy && s'.dev.nvi.brBusy) = true ∧
    answers (.bridgeOperationDone 2000000 (.bytes [1, 2, 3, 4, 5, 6, 7, 8, 9])) (b 1 9 false) (fun s' => s'.dev.nvi.buf[(1 : Fin 32)] == 9 && s'.dev.nvi.brDone) = true ∧
    answers (.bridgeOperationDone 2000000 .none) (b 2 9 false) (fun s' => s'.dev.nvi.brDone && !s'.dev.nvi.brBusy) = true ∧
    answers (.bridgeOperationDone 2000000 .none) (b 2 9 true) (fun s' => s'.dev.nvi.brBusy) = true ∧
    (bootCheck []).code ≠ 0 ∧ answers (.bridgeOperationDone 2000000 (.slot { boot := [], header := [], sections := [] })) (b 5 0 false) (fun s' =>
      s'.dev.nvi.brErr == 5 && s'.dev.nvi.vCode == (bootCheck []).code) = true ∧
    1000000 + 5000000 ≤ (b 2 9 true).now 6000000 ∧ answers (.bridgeTimeout 6000000) (b 2 9 true) (fun s' => s'.dev.nvi.brErr == 4 && !s'.dev.nvi.brBusy) = true ∧
    answers (.bridgeTimeout 5999999) (b 2 9 true) (fun s' => s'.dev.nvi.brBusy) = true := by decide +kernel

/-- A read of NVI_BR_DATA at the two-wire port waits for the READ. -/
theorem witness_FlashBridge_stretch : let b := bridging fun n => { n with brBusy := true, brOp := 1, brLen := 2 }
    let x : Twp := { b.dev.twp with ptr := 0x68, stretch := some (.read 1 none true) }
    let s : State := { b with dev := Dev.modCtx .twp (fun c => { c with page := 0x68 }) { b.dev with twp := x } }
    s.clean ∧ s.dev.settled ∧ s.dev.sup.filled = true ∧ (s.dev.ctx .twp).brIdx = 0 ∧
    answers (.bridgeOperationDone 2000000 (.bytes [5, 6])) s (fun s' => s'.dev.twp.stretch == none && s'.dev.twp.out == [5] && s'.dev.twp.ptr == 0x69) = true ∧
    bridging.dev.twp.stretch = none ∧ answers (.verify 2000000 .can0 0) bridging (fun s' => s'.dev.nvi.brProbed &&
      s'.dev.nvi.sent == probeReset ++ [.single 0x03 [0, 0, 0] []]) = true := by decide +kernel

theorem witness_FlashBridge_data : let idx (s : State) : State := { s with dev := s.dev.modCtx .can0 fun c => { c with brIdx := 31 } }
    let busy := idx (bridging fun n => { n with brBusy := true, brOp := 2 })
    (idx bridging).dev.settled ∧ fld ((idx bridging).dev.ctx .can0).brIdx 0 5 = 31 ∧
    answers (.nviBrDataAccess 2000000 .can0 (some 7)) (idx bridging) (fun s' => s'.dev.nvi.buf[(31 : Fin 32)] == 7 && fld (s'.dev.ctx .can0).brIdx 0 5 == 0) = true ∧
    answers (.nviBrDataAccess 2000000 .can0 none) (idx bridging) (fun s' => fld (s'.dev.ctx .can0).brIdx 0 5 == 0) = true ∧
    busy.dev.settled ∧ busy.dev.nvi.brBusy = true ∧ answers (.nviBrDataAccess 2000000 .can0 none) busy (fun s' => s'.dev.nvi.brErr == 6) = true := by decide +kernel

theorem witness_RegisterWrites : let s := st (inMode .run)
    s.dev.settled ∧ answers (.pageWrite 2000000 .can0 0x60) s (fun s' => (s'.dev.ctx .can0).page == 0x60 && (s'.dev.ctx .can1).page == 0) = true ∧
    (0x31F8 : BitVec 16).toNat % 256 = 0xF8 ∧ answers (.registerWrite 2000000 .can0 0x31F8 0x60) s (fun s' => (s'.dev.ctx .can0).page == 0x60) = true ∧
    regRow 0x00E0 = none ∧ answers (.registerWrite 2000000 .can0 0x00E0 1) s (fun s' => s'.dev.ctx .can0 == { s.dev.ctx .can0 with served := 1 }) = true ∧
    answers (.registerWrite 2000000 .twp 0x00E0 1) s (fun s' => s'.dev.twp.noreg) = true ∧
    answers (.registerWrite 2000000 .can0 0x5000 0xFFFF) s (fun s' => (s'.dev.ctx .can0).tmuSel == 0x307) = true ∧
    answers (.registerWrite 2000000 .can0 0x5018 77) s (fun s' => s'.dev.tmu[(0 : Fin 8)].reload == 77) = true ∧
    answers (.registerWrite 2000000 .can0 0x6008 0x1FFFF0003) s (fun s' => s'.dev.twp.cfg == 0xFFFF0001) = true := by decide +kernel

theorem witness_RegisterWrites_loader : let s := st fun d => let d := inMode .run d; { d with nvi := { d.nvi with phase := .idle } }
    s.dev.settled ∧ s.dev.nvi.phase = .idle ∧ answers (.registerWrite 2000000 .loader 0x5018 77) s (fun s' => s'.dev.tmu[(0 : Fin 8)].reload == 0) = true := by
  decide +kernel

end Sys2Proof.Tests
end

section
/-! The scope of the block (00_scope.md): every command acts, and on the state that the work due leaves (R2, R91, R139). -/

namespace Sys2Proof.Machine

open Sys2Proof

/-! ### A command is one body at its own DTIME -/

/-- A meaning that is one body acting at DTIME `t`, the same body whatever state it finds. -/
def ActsAt (t : Ns) (m : State → Host.Outcome State Fault Refusal) : Prop :=
  ∃ body : Env → Dev → Dev, ∀ s, m s = runAt t body s

/-- Each row's meaning is written with `runAt` or `runBy` at the row's own time operand, so that its definition names the
body. -/
theorem exec_actsAt (c : Instr) : ActsAt (stampOf c) (exec c) := by
  cases c <;> exact ⟨_, fun _ => rfl⟩

section
variable {t : Ns} {m : State → Host.Outcome State Fault Refusal}

theorem ActsAt.answers (h : ActsAt t m) (s : State) :
    ∃ s', m s = .next s' ∧ s'.pending = s.pending ∧ s'.fuses = s.fuses ∧ s'.dev.settled := by
  obtain ⟨body, hm⟩ := h
  obtain ⟨s', hrun, hpending, hfuses, hsettled, -⟩ := runAt_inv t body s
  exact ⟨s', (hm s).trans hrun, hpending, hfuses, hsettled⟩

/-- The work that is due is done once: where none is left after it, what the command finds in `s` and in `s.due t` is the
same state. -/
theorem ActsAt.eq_on_due (h : ActsAt t m) {s : State} (hrests : (s.due t).rests t) : m s = m (s.due t) := by
  obtain ⟨body, hm⟩ := h
  have hdue : (s.due t).due t = s.due t := State.due_rests hrests
  calc m s = .next (runBody t body (s.due t)) := (hm s).trans (runAt_due t body s)
    _ = .next (runBody t body ((s.due t).due t)) := by rw [hdue]
    _ = m (s.due t) := ((hm _).trans (runAt_due t body _)).symm

end

/-- Settles O4: every command is one body at its own DTIME (`exec_actsAt`), and both clauses hold of any such meaning. -/
theorem everyCommandAnswers : Obligations.EveryCommandAnswers := by
  unfold Obligations.EveryCommandAnswers
  exact ⟨fun c s => (exec_actsAt c).answers s, fun c _ hrests => (exec_actsAt c).eq_on_due hrests⟩

end Sys2Proof.Machine
end

section
/-! The invariant of every state between steps (R31, R388). -/

namespace Sys2Proof.Machine

open Sys2Proof

/-- A meaning that is one body leaves no fault and no write over, and keeps the canonical form of the memories. -/
theorem ActsAt.keeps_inv {t : Ns} {m : State → Host.Outcome State Fault Refusal} (h : ActsAt t m) {s s' : State}
    (hinv : s.Inv) (hm : m s = .next s') : s'.Inv := by
  obtain ⟨body, hbody⟩ := h
  obtain ⟨s₁, hrun, -, -, hsettled, hwf⟩ := runAt_inv t body s
  obtain rfl : s₁ = s' := Host.Outcome.next.inj (hrun.symm.trans ((hbody s).symm.trans hm))
  exact ⟨hwf hinv.1, hsettled⟩

/-- Every command keeps the invariant, in whatever state it comes. -/
theorem exec_keeps_inv {c : Instr} {s s' : State} (hinv : s.Inv) (hexec : exec c s = .next s') : s'.Inv :=
  (exec_actsAt c).keeps_inv hinv hexec

/-- Settles O3: a step idles or is one command, and the invariant does not speak of the queue that the command leaves. -/
theorem stepKeepsInvariant : Obligations.StepKeepsInvariant := by
  unfold Obligations.StepKeepsInvariant
  intro s s' hinv hstep
  unfold step at hstep
  split at hstep
  · obtain rfl : s = s' := Host.Outcome.next.inj hstep
    exact hinv
  · next c rest _ => exact exec_keeps_inv (s := { s with pending := rest }) hinv hstep

end Sys2Proof.Machine
end

section
/-! Completion and frames: what a command that raises no fault and writes no memory leaves, read off the device at the end of
its body. -/

namespace Sys2Proof.Machine

open Sys2Proof

/-! ### A part of the block that stays -/

theorem Group.same_refl (g : Group) (s : State) : g.same s s := by
  match g with
  | .nvi | .memu => exact ⟨_, rfl⟩
  | .twp => exact ⟨_, _, _, rfl⟩
  | .calc | .conv | .pio => exact ⟨rfl, rfl⟩
  | .pos | .adm | .loft | .banks | .bst | .pfi | .ign | .gate | .diag | .recs | .snap | .tmu | .can | .rope | .sup | .flt
  | .paths | .mems => rfl

theorem Group.same_trans {g : Group} {a b c : State} (h : g.same a b) (h' : g.same b c) : g.same a c := by
  match g, h, h' with
  | .nvi, ⟨_, hx⟩, ⟨y, hy⟩ | .memu, ⟨_, hx⟩, ⟨y, hy⟩ => exact ⟨y, by rw [hy, hx]⟩
  | .twp, ⟨_, _, _, hx⟩, ⟨v, p, q, hy⟩ => exact ⟨v, p, q, by rw [hy, hx]⟩
  | .calc, h, h' | .conv, h, h' | .pio, h, h' => exact ⟨h'.1.trans h.1, h'.2.trans h.2⟩
  | .pos, h, h' | .adm, h, h' | .loft, h, h' | .banks, h, h' | .bst, h, h' | .pfi, h, h' | .ign, h, h' | .gate, h, h'
  | .diag, h, h' | .recs, h, h' | .snap, h, h' | .tmu, h, h' | .can, h, h' | .rope, h, h' | .sup, h, h' | .flt, h, h'
  | .paths, h, h' | .mems, h, h' => exact Eq.trans h' h

section
variable (s : State) (d : Dev) {g : Group}

/-- DTIME belongs to no part. -/
theorem Group.same_at (t : Ns) : g.same s { s with dev := s.dev.at t } := by
  have hrefl := g.same_refl s
  cases g <;> exact hrefl

theorem Group.same_modCtx (hg : g ≠ .paths) (p : Path) (f : PathCtx → PathCtx) :
    g.same { s with dev := d } { s with dev := d.modCtx p f } := by
  have hrefl := g.same_refl { s with dev := d }
  cases g with
  | paths => exact absurd rfl hg
  | _ => exact hrefl

theorem Group.same_modTmu (hg : g ≠ .tmu) (u : Fin 8) (f : Tmu → Tmu) :
    g.same { s with dev := d } { s with dev := d.modTmu u f } := by
  have hrefl := g.same_refl { s with dev := d }
  cases g with
  | tmu => exact absurd rfl hg
  | _ => exact hrefl

theorem Group.same_modTwp (hg : g ≠ .twp) (f : Twp → Twp) :
    g.same { s with dev := d } { s with dev := d.modTwp f } := by
  have hrefl := g.same_refl { s with dev := d }
  cases g with
  | twp => exact absurd rfl hg
  | _ => exact hrefl

end

/-! ### After a command -/

section
variable {s s' : State} {d : Dev} (h : Follows s d s') (hraised : d.flt.raised = []) (hwrites : d.writes = [])
include h hraised hwrites

/-- Where a body leaves no fault and no write, the end of the command changes no part. -/
theorem Follows.same (g : Group) : g.same { s with dev := d } s' := by
  match g with
  | .pos => exact h.pos
  | .adm => exact h.adm
  | .loft => exact h.loft
  | .banks => exact h.banks
  | .bst => exact h.bst
  | .pfi => exact h.pfi
  | .ign => exact h.ign
  | .gate => exact h.gate
  | .diag => exact h.diag
  | .calc => exact ⟨h.ce, h.ces⟩
  | .conv => exact ⟨h.cnv, h.cnvs⟩
  | .recs => exact h.recm
  | .snap => exact h.snap
  | .tmu => exact h.tmu
  | .pio => exact ⟨h.pio, h.pios⟩
  | .can => exact h.can
  | .rope => exact h.rope
  | .twp => exact h.twp
  | .nvi => exact h.nvi
  | .sup => exact h.sup
  | .flt => exact h.flt.trans (by rw [← hraised])
  | .memu => exact h.memu
  | .paths => exact h.paths
  | .mems => exact h.mems.trans (by rw [hwrites]; rfl)

/-- The frame of a command is the frame of its body. -/
theorem Follows.touches {l : List Group} (hsame : ∀ g, g ∉ l → g.same s { s with dev := d }) : s.touches l s' :=
  ⟨h.pending, h.fuses, fun g hg => Group.same_trans (hsame g hg) (h.same hraised hwrites g)⟩

end

theorem State.touches.mono {s s' : State} {l l' : List Group} (h : s.touches l s') (hl : l ⊆ l') : s.touches l' s' :=
  ⟨h.1, h.2.1, fun g hg => h.2.2 g fun hmem => hg (hl hmem)⟩

theorem Completes.imp {c : Instr} {s : State} {P Q : State → Prop} (h : Completes c s P) (hPQ : ∀ s', P s' → Q s') :
    Completes c s Q := by
  obtain ⟨s', hexec, hP⟩ := h
  exact ⟨s', hexec, fun hrests => hPQ s' (hP hrests)⟩

/-- A command whose body raises no fault completes with what follows from the device at the end of the body. -/
theorem completes_of_after {c : Instr} {s : State} {body : Env → Dev → Dev} {d : Dev} {P : State → Prop}
    (hexec : exec c s = runAt (stampOf c) body s) (hbody : s.after (stampOf c) body = d) (hraised : d.flt.raised = [])
    (hP : ∀ s', Follows s d s' → P s') : Completes c s P := by
  subst hbody
  unfold Completes
  rw [hexec]
  by_cases hrests : s.rests (stampOf c)
  · obtain ⟨s', hrun, hfollows⟩ := runAt_quiet hrests hraised
    exact ⟨s', hrun, fun _ => hP s' hfollows⟩
  · exact ⟨_, runAt_due _ body s, fun h => absurd h hrests⟩

end Sys2Proof.Machine
end

section
/-! The register access port: contexts of the paths, and what a write through the port does (R33 to R35, R413, R353). -/

namespace Sys2Proof.Machine

open Sys2Proof

/-! ### The context of a path (R34) -/

theorem pathIndex_injective : Function.Injective pathIndex := by
  intro p q
  cases p <;> cases q <;> decide

theorem Dev.ctx_modCtx_same (p : Path) (f : PathCtx → PathCtx) (d : Dev) : (d.modCtx p f).ctx p = f (d.ctx p) :=
  upd_same d.paths (pathIndex p) f

theorem Dev.ctx_modCtx_other {p q : Path} (h : q ≠ p) (f : PathCtx → PathCtx) (d : Dev) : (d.modCtx p f).ctx q = d.ctx q :=
  upd_other d.paths (pathIndex p) (pathIndex q) f (pathIndex_injective.ne h)

/-- Disarming keeps the path's own selects. -/
theorem Dev.ctx_disarm_same (p : Path) (d : Dev) :
    (d.disarm p).ctx p = { d.ctx p with armedAt := none, served := d.nextTurn } := Dev.ctx_modCtx_same ..

theorem Dev.tmuSelOf_disarm (p : Path) (d : Dev) : (d.disarm p).tmuSelOf p = d.tmuSelOf p := by
  simp only [Dev.tmuSelOf, Dev.ctx_disarm_same]

theorem Dev.modCtx_modCtx (p : Path) (f g : PathCtx → PathCtx) (d : Dev) :
    (d.modCtx p f).modCtx p g = d.modCtx p fun c => g (f c) := by
  simp only [Dev.modCtx, upd_upd]

theorem Dev.modCtx_id (p : Path) (d : Dev) : d.modCtx p id = d := by
  simp [Dev.modCtx, upd]

/-! ### A write at the port -/

section
variable (e : Env) {p : Path} {addr : BitVec 16} (v : W64) (d : Dev)

/-- The loader's writes take effect only while it applies records (R353). -/
theorem Dev.portWrite_loader_idle (h : d.nvi.phase = .idle) : d.portWrite e .loader addr v = d := by
  simp [Dev.portWrite, Dev.mayWrite, h]

/-- A path other than the loader may always write. -/
theorem Dev.portWrite_of_ne_loader (hp : p ≠ .loader) :
    d.portWrite e p addr v = (d.regWrite e false p addr v).2.noReg p (d.regWrite e false p addr v).1 := by
  have hloader : (p == .loader) = false := beq_eq_false_iff_ne.mpr hp
  simp only [Dev.portWrite, Dev.mayWrite, bne, hloader, Bool.not_false, Bool.true_or, if_true]

theorem eq_of_forceAddr (h : forceAddr addr = true) : addr = 0x0128 ∨ addr = 0x0130 := by
  simpa only [forceAddr, Bool.or_eq_true, beq_iff_eq] using h

/-- The two registers of R401 are assigned, so that a write of an unassigned address disarms its path. -/
theorem forceAddr_of_unassigned (h : regRow addr = none) : forceAddr addr = false := by
  refine Bool.eq_false_iff.mpr fun hforce => ?_
  obtain rfl | rfl := eq_of_forceAddr hforce <;> exact absurd h (by decide)

theorem forceAddr_of_page (h : addr.toNat % 256 = 0xF8) : forceAddr addr = false := by
  refine Bool.eq_false_iff.mpr fun hforce => ?_
  obtain rfl | rfl := eq_of_forceAddr hforce <;> exact absurd h (by decide)

/-- R35: a write of an unassigned address only takes the path's turn, and is shown to the two-wire port. -/
theorem Dev.portWrite_unassigned (hp : p ≠ .loader) (h : regRow addr = none) :
    d.portWrite e p addr v = (d.disarm p).noReg p true := by
  simp [Dev.portWrite_of_ne_loader e v d hp, Dev.regWrite, h, forceAddr_of_unassigned h]

theorem Dev.noReg_of_ne_twp (hp : p ≠ .twp) (bad : Bool) : d.noReg p bad = d := by
  simp [Dev.noReg, hp]

/-- R413: PAGE is at offset 0xF8 of every page. -/
theorem Dev.portWrite_page (hp : p ≠ .loader) (h : addr.toNat % 256 = 0xF8) :
    d.portWrite e p addr v = (d.disarm p).pageWrite p v := by
  have hrow : regRow addr = some pageRow := by simp [regRow, h]
  simp [Dev.portWrite_of_ne_loader e v d hp, Dev.regWrite, hrow, h, forceAddr_of_page h, Dev.noReg]

/-- A write of an assigned register other than PAGE and those of R401 disarms the path and goes to the register's page. -/
theorem Dev.portWrite_assigned (hp : p ≠ .loader) (hassigned : regRow addr ≠ none) (hforce : forceAddr addr = false)
    (hpage : addr.toNat % 256 ≠ 0xF8) :
    d.portWrite e p addr v = (d.disarm p).writePage e false p (addr.toNat / 256) (addr.toNat % 256) v := by
  obtain ⟨row, hrow⟩ := Option.ne_none_iff_exists'.mp hassigned
  simp [Dev.portWrite_of_ne_loader e v d hp, Dev.regWrite, hrow, hforce, hpage, Dev.noReg]

end

theorem Dev.modTmu_congr {u : Fin 8} {f g : Tmu → Tmu} {d : Dev} (h : f d.tmu[u] = g d.tmu[u]) :
    d.modTmu u f = d.modTmu u g := by
  simp only [Dev.modTmu, upd, h]

/-! ### Three registers (R304, R341) -/

section
variable (e : Env) (loader : Bool) (p : Path) (v : W64) (d : Dev)

theorem Dev.writePage_tmuSel :
    d.writePage e loader p 0x50 0x00 v = d.modCtx p fun c => { c with tmuSel := v &&& 0x307 } := rfl

/-- RELOAD of the selected unit takes a path's write unless EMIT has written it in this core clock (R293). -/
theorem Dev.writePage_reload {u : Fin 8} (hu : (d.tmuSelOf p).1 = u) (h : sameClock d.tmu[u].emitAt d.dtime = false) :
    d.writePage e loader p 0x50 0x18 v = d.modTmu u fun x => { x with reload := v.setWidth 32 } := by
  subst hu
  exact Dev.modTmu_congr (if_neg (Bool.eq_false_iff.mp h))

theorem Dev.writePage_twpCfg :
    d.writePage e loader p 0x60 0x08 v = d.modTwp fun x => { x with cfg := v &&& 0xFFFFFF01 } := rfl

end

/-! ### Completion of writes at the port -/

section
variable {s : State} (hsettled : s.dev.settled) {p : Path}
include hsettled

/-- A command that changes nothing of the device but DTIME touches no part. -/
theorem completes_untouched {c : Instr} {body : Env → Dev → Dev} (hexec : exec c s = runAt (stampOf c) body s)
    (hbody : s.after (stampOf c) body = s.dev.at (stampOf c)) : Completes c s (s.touches []) :=
  completes_of_after hexec hbody hsettled.1 fun _ h => h.touches hsettled.1 hsettled.2 fun _ _ => Group.same_at s _

/-- A write through a path that changes the path's own context alone. -/
theorem completes_ctx {c : Instr} {body : Env → Dev → Dev} (f : PathCtx → PathCtx)
    (hexec : exec c s = runAt (stampOf c) body s)
    (hbody : s.after (stampOf c) body = ((s.dev.at (stampOf c)).disarm p).modCtx p f) :
    Completes c s fun s' => s'.dev.ctx p = f { s.dev.ctx p with armedAt := none, served := s.dev.nextTurn } ∧
      (∀ q, q ≠ p → s'.dev.ctx q = s.dev.ctx q) ∧ s.touches [.paths] s' := by
  refine completes_of_after hexec (hbody.trans (Dev.modCtx_modCtx ..)) hsettled.1 fun s' h => ?_
  have hctx (q : Path) : s'.dev.ctx q = (s.dev.modCtx p _).ctx q := congrArg (·[pathIndex q]) h.paths
  refine ⟨(hctx p).trans (Dev.ctx_modCtx_same ..), fun q hq => (hctx q).trans (Dev.ctx_modCtx_other hq ..), ?_⟩
  exact h.touches hsettled.1 hsettled.2 fun g hg =>
    Group.same_trans (Group.same_at s _) (Group.same_modCtx s _ (by simpa using hg) p _)

/-- A command that changes the context of its own path and the registers of the two-wire port. -/
theorem completes_ctx_twp {c : Instr} {body : Env → Dev → Dev} (f : Twp → Twp)
    (hexec : exec c s = runAt (stampOf c) body s)
    (hbody : s.after (stampOf c) body = ((s.dev.at (stampOf c)).disarm p).modTwp f) :
    Completes c s fun s' => (∃ evt pend sent, s'.dev.twp =
      { f s.dev.twp with attnEvt := evt, attnPend := pend, sentAt := sent }) ∧ s.touches [.twp, .paths] s' := by
  refine completes_of_after hexec hbody hsettled.1 fun s' h => ⟨h.twp, ?_⟩
  refine h.touches hsettled.1 hsettled.2 fun g hg => ?_
  obtain ⟨htwp, hpaths⟩ : g ≠ .twp ∧ g ≠ .paths := by simpa using hg
  exact Group.same_trans (Group.same_at s _)
    (Group.same_trans (Group.same_modCtx s _ hpaths p _) (Group.same_modTwp s _ htwp f))

/-- A command that changes the context of its own path and one timer unit. -/
theorem completes_ctx_tmu {c : Instr} {body : Env → Dev → Dev} (u : Fin 8) (f : Tmu → Tmu)
    (hexec : exec c s = runAt (stampOf c) body s)
    (hbody : s.after (stampOf c) body = ((s.dev.at (stampOf c)).disarm p).modTmu u f) :
    Completes c s fun s' => s'.dev.tmu[u] = f s.dev.tmu[u] ∧ (∀ w, w ≠ u → s'.dev.tmu[w] = s.dev.tmu[w]) ∧
      s.touches [.tmu, .paths] s' := by
  refine completes_of_after hexec hbody hsettled.1 fun s' h => ?_
  have htmu : s'.dev.tmu = upd s.dev.tmu u f := h.tmu
  refine ⟨htmu ▸ upd_same .., fun w hw => htmu ▸ upd_other _ _ _ _ hw, ?_⟩
  refine h.touches hsettled.1 hsettled.2 fun g hg => ?_
  obtain ⟨hgtmu, hpaths⟩ : g ≠ .tmu ∧ g ≠ .paths := by simpa using hg
  exact Group.same_trans (Group.same_at s _)
    (Group.same_trans (Group.same_modCtx s _ hpaths p _) (Group.same_modTmu s _ hgtmu u f))

end

/-- Settles O60: each write leaves the device with the path's own context changed, and with the one register that the
address names. -/
theorem registerWrites : Obligations.RegisterWrites := by
  unfold Obligations.RegisterWrites
  intro s t p addr v hsettled own u
  refine ⟨?pageWrite, ?page, ?unassigned, ?unassignedTwp, ?loader, ?tmuSel, ?reload, ?twpCfg⟩
  case pageWrite => exact completes_ctx (c := .pageWrite t p v) hsettled (fun c => { c with page := v.setWidth 8 }) rfl rfl
  case page =>
    intro hp hpage
    exact completes_ctx (c := .registerWrite t p addr v) hsettled (fun c => { c with page := v.setWidth 8 }) rfl
      (Dev.portWrite_page _ v _ hp hpage)
  case unassigned =>
    intro hp htwp hrow
    exact completes_ctx (c := .registerWrite t p addr v) hsettled id rfl
      ((Dev.portWrite_unassigned _ v _ hp hrow).trans
        ((Dev.noReg_of_ne_twp _ htwp _).trans (Dev.modCtx_id ..).symm))
  case unassignedTwp =>
    rintro rfl hrow
    refine (completes_ctx_twp (c := .registerWrite t .twp addr v) hsettled (fun x => { x with noreg := true }) rfl
      (Dev.portWrite_unassigned _ v _ (by decide) hrow)).imp fun s' ⟨⟨_, _, _, htwp⟩, htouches⟩ => ?_
    exact ⟨by rw [htwp], htouches.mono (by simp)⟩
  case loader =>
    rintro rfl hidle
    exact completes_untouched (c := .registerWrite t .loader addr v) hsettled rfl (Dev.portWrite_loader_idle _ v _ hidle)
  case tmuSel =>
    rintro hp rfl
    exact completes_ctx (c := .registerWrite t p 0x5000 v) hsettled (fun c => { c with tmuSel := v &&& 0x307 }) rfl
      ((Dev.portWrite_assigned (addr := 0x5000) _ v _ hp (by decide) (by decide) (by decide)).trans
        (Dev.writePage_tmuSel ..))
  case reload =>
    rintro hp rfl hclock
    refine completes_ctx_tmu (p := p) (c := .registerWrite t p 0x5018 v) hsettled u
      (fun x => { x with reload := v.setWidth 32 }) rfl ?_
    refine (Dev.portWrite_assigned (addr := 0x5018) _ v _ hp (by decide) (by decide) (by decide)).trans ?_
    have hsel : (((s.dev.at t).disarm p).tmuSelOf p).1 = u := congrArg Prod.fst (Dev.tmuSelOf_disarm p (s.dev.at t))
    exact Dev.writePage_reload _ _ p v _ hsel hclock
  case twpCfg =>
    rintro hp rfl
    refine (completes_ctx_twp (c := .registerWrite t p 0x6008 v) hsettled (fun x => { x with cfg := v &&& 0xFFFFFF01 }) rfl
      ((Dev.portWrite_assigned (addr := 0x6008) _ v _ hp (by decide) (by decide) (by decide)).trans
        (Dev.writePage_twpCfg ..))).imp fun s' ⟨⟨_, _, _, htwp⟩, htouches⟩ => ?_
    exact ⟨by rw [htwp], htouches⟩

end Sys2Proof.Machine
end

section
/-! The view that the position manager has of the block: its registers, the block's time, the mode and the stall times.
What raises a fault, records, measures, fires a list or ends an event leaves it (R61, R130, R148, R192). -/

namespace Sys2Proof.Machine
open Sys2Proof

/-- What the position manager and the timeouts read, and what no ending of an event touches. -/
structure PosView where
  pos : Pos
  dtime : Ns
  mode : Mode
  stop1s : Bool
  stoppedAt : Ns

def Dev.posView (d : Dev) : PosView := ⟨d.pos, d.dtime, d.sup.mode, d.sup.stop1s, d.sup.stoppedAt⟩

section
variable (d : Dev)

@[simp] theorem posView_write (w : MemOp) : (d.write w).posView = d.posView := rfl
@[simp] theorem posView_raise (r : FaultReq) : (d.raise r).posView = d.posView := rfl
@[simp] theorem posView_modFlt (f : Flt → Flt) : (d.modFlt f).posView = d.posView := rfl
@[simp] theorem posView_modRope (f : Rope → Rope) : (d.modRope f).posView = d.posView := rfl
@[simp] theorem posView_modLoft (f : Loft → Loft) : (d.modLoft f).posView = d.posView := rfl
@[simp] theorem posView_modDescr (i : Nat) (f : Descr → Descr) : (d.modDescr i f).posView = d.posView := rfl
@[simp] theorem posView_modBox (b : Fin 128) (f : Box → Box) : (d.modBox b f).posView = d.posView := rfl
@[simp] theorem posView_modBank (k : Fin 4) (f : Bank → Bank) : (d.modBank k f).posView = d.posView := rfl
@[simp] theorem posView_modPsq (k : Fin 4) (f : Psq → Psq) : (d.modPsq k f).posView = d.posView := rfl
@[simp] theorem posView_modPfi (n : Fin 16) (f : Pfi → Pfi) : (d.modPfi n f).posView = d.posView := rfl
@[simp] theorem posView_modIgn (n : Fin 16) (f : Ign → Ign) : (d.modIgn n f).posView = d.posView := rfl
@[simp] theorem posView_modGate (n : Fin 8) (f : Gate → Gate) : (d.modGate n f).posView = d.posView := rfl
@[simp] theorem posView_modCe (k : Fin 8) (f : Ce → Ce) : (d.modCe k f).posView = d.posView := rfl
@[simp] theorem posView_modCnv (c : Fin 2) (f : Cnv → Cnv) : (d.modCnv c f).posView = d.posView := rfl
@[simp] theorem posView_modTmu (u : Fin 8) (f : Tmu → Tmu) : (d.modTmu u f).posView = d.posView := rfl

/-- A change of the supervisor that keeps the mode and the stall times. -/
theorem posView_modSup {f : Sup → Sup}
    (h : ∀ s, (f s).mode = s.mode ∧ (f s).stop1s = s.stop1s ∧ (f s).stoppedAt = s.stoppedAt := by exact fun _ => ⟨rfl, rfl, rfl⟩) :
    (d.modSup f).posView = d.posView := by
  obtain ⟨hmode, hstop, hat⟩ := h d.sup
  simp only [Dev.posView, Dev.modSup, hmode, hstop, hat]

end

theorem posView_ite {c : Prop} [Decidable c] {x y : Dev} : (if c then x else y).posView = if c then x.posView else y.posView :=
  apply_ite ..

/-- A loop whose every round keeps the view keeps it. -/
theorem posView_foldl {α : Type} (l : List α) (f : Dev → α → Dev) (d : Dev) (h : ∀ d x, (f d x).posView = d.posView) :
    (l.foldl f d).posView = d.posView := by
  induction l generalizing d with
  | nil => rfl
  | cons x l ih => exact (ih _).trans (h d x)

/-- The same for a loop that carries something along with the device. -/
theorem posView_foldl_snd {α β : Type} (l : List α) (f : β × Dev → α → β × Dev) (a : β × Dev)
    (h : ∀ a x, (f a x).2.posView = a.2.posView) : (l.foldl f a).2.posView = a.2.posView := by
  induction l generalizing a with
  | nil => rfl
  | cons x l ih => exact (ih _).trans (h a x)

section
variable (e : Env) (d : Dev)

@[simp] theorem posView_present (r : Rec) : (d.present r).posView = d.posView := by
  unfold Dev.present
  simp only
  split <;> rfl

@[simp] theorem posView_snapshot (i : Nat) (c : BitVec 16) (x : W64) (n : BitVec 16) : (d.snapshot i c x n).posView = d.posView := by
  unfold Dev.snapshot
  split
  · rfl
  · simp only
    split <;> rfl

@[simp] theorem posView_hwSlot (i : Nat) (v : W64) (g : Byte) : (d.hwSlot e i v g).posView = d.posView := by
  unfold Dev.hwSlot
  split
  · rfl
  · split
    · rfl
    · split <;> rfl

@[simp] theorem posView_staleSlot (i : Nat) : (d.staleSlot i).posView = d.posView := by
  unfold Dev.staleSlot
  split
  · rfl
  · split <;> rfl

@[simp] theorem posView_measure (i : Nat) (v : Int) (b : Bool) : (d.measure e i v b).posView = d.posView := by
  unfold Dev.measure
  split
  · exact posView_hwSlot ..
  · rfl

@[simp] theorem posView_measureSpeed : (d.measureSpeed e).posView = d.posView := posView_measure ..

@[simp] theorem posView_trigger (k : Fin 8) (l i u : Nat) (t : Ns) : (d.trigger k l i u t).posView = d.posView := by
  unfold Dev.trigger
  split
  · rfl
  · simp only
    split <;> rfl

@[simp] theorem posView_fire (kind : Nat) (f : Nat → Bool) : (d.fire kind f).posView = d.posView := by
  unfold Dev.fire
  refine posView_foldl _ _ _ fun d k => posView_foldl _ _ _ fun d i => ?_
  simp only
  split
  · exact posView_trigger ..
  · rfl

/-! ### Reads of memory words -/

@[simp] theorem posView_modMemBank (b : Nat) (f : MemBank → MemBank) : (d.modMemBank b f).posView = d.posView := by
  unfold Dev.modMemBank
  split <;> rfl

@[simp] theorem posView_readWord (b w : Nat) : (d.readWord b w).2.posView = d.posView := by
  unfold Dev.readWord
  split
  · rfl
  · split
    · rfl
    · exact posView_modMemBank ..
    · exact posView_modMemBank ..

@[simp] theorem posView_fetchPsq (k : Fin 4) (i : Nat) : (d.fetchPsq e k i).2.2.posView = d.posView := by
  unfold Dev.fetchPsq Dev.readAt Dev.raiseProf
  simp only
  split <;> simp

/-! ### Safe ends -/

@[simp] theorem posView_modPart (o : Owner) (f : Part → Part) : (d.modPart o f).posView = d.posView := by
  unfold Dev.modPart
  split <;> rfl

@[simp] theorem posView_argBad (k : Fin 4) (b : Bool) : (d.argBad k b).posView = d.posView := by
  unfold Dev.argBad
  split <;> rfl

@[simp] theorem posView_beginEnd (k : Fin 4) (t tp : Ns) : (d.beginEnd e k t tp).posView = d.posView := by
  unfold Dev.beginEnd
  simp only
  split
  · simp
  · simp [Dev.drive, Dev.dacLo]

@[simp] theorem posView_bankSafeEnd (k : Fin 4) : (d.bankSafeEnd e k).2.posView = d.posView := by
  unfold Dev.bankSafeEnd
  simp only
  repeat' split
  all_goals simp [Dev.countSafeEnd]

@[simp] theorem posView_softShutdown (n : Fin 16) : (d.softShutdown n).posView = d.posView := by
  simp [Dev.softShutdown]

@[simp] theorem posView_ignLast (n : Fin 16) (w : Nat) (b : Bool) (p : Part) : (d.ignLast n w b p).posView = d.posView := rfl

@[simp] theorem posView_closeBox (b : Fin 128) (x : Ending) : (d.closeBox b x).posView = d.posView := rfl

@[simp] theorem posView_completeBox (b : Fin 128) : (d.completeBox b).posView = d.posView := rfl

@[simp] theorem posView_endOutput (o : Owner) (ev : Event) : (d.endOutput e o ev).2.posView = d.posView := by
  unfold Dev.endOutput
  simp only
  split
  case h_1 => exact posView_bankSafeEnd ..
  case h_2 => split <;> simp
  case h_3 => split <;> [skip; split] <;> simp
  case h_4 => split <;> simp
  case h_5 => rfl

@[simp] theorem posView_endBox (b : Fin 128) (r : EvResult) (n : Nat) : (d.endBox e b r n).posView = d.posView := by
  unfold Dev.endBox
  simp only
  split
  case h_3 =>
    have h := posView_endOutput e d (.box b) (d.box b).ev
    split
    · rfl
    · split <;> simp_all
  all_goals rfl

@[simp] theorem posView_flush (sel : Event → Bool) (r : EvResult) (n : Nat) : (d.flush e sel r n).posView = d.posView := by
  unfold Dev.flush
  refine posView_foldl _ _ _ fun d b => ?_
  split
  · exact posView_endBox ..
  · rfl

end

end Sys2Proof.Machine
end

section
/-! What a change of the mode stops and starts leaves the view of the position manager, but for the mode itself (R365,
R366). -/

namespace Sys2Proof.Machine
open Sys2Proof

theorem posView_when {c : Prop} [Decidable c] {x d : Dev} (h : x.posView = d.posView) : (if c then x else d).posView = d.posView := by
  split
  · exact h
  · rfl

section
variable (e : Env) (d : Dev)

@[simp] theorem posView_endTemplates : (d.endTemplates e).posView = d.posView := by
  unfold Dev.endTemplates
  refine posView_foldl _ _ _ fun d i => ?_
  split
  · split
    · rfl
    · refine (posView_modSup _).trans ?_
      split
      · exact posView_endOutput ..
      · rfl
  · rfl

@[simp] theorem posView_endTemplatesOf (sel : Event → Bool) : (d.endTemplatesOf e sel).posView = d.posView := by
  unfold Dev.endTemplatesOf
  refine posView_foldl _ _ _ fun d i => ?_
  split
  · split
    · exact (posView_modSup _).trans (posView_endOutput ..)
    · rfl
  · rfl

@[simp] theorem posView_endAllEvents (r : EvResult) (n : Nat) : (d.endAllEvents e r n).posView = d.posView := by
  simp [Dev.endAllEvents]

@[simp] theorem posView_dropResiduals : d.dropResiduals.posView = d.posView := rfl

@[simp] theorem posView_oweStanding (old new : Mode) (all_ : Bool) : (d.oweStanding old new all_).posView = d.posView := by
  unfold Dev.oweStanding
  split <;> rfl

/-! ### Timer units, as PIO machines that stop move their pins -/

theorem posView_wakeReq (f : Sup → BitVec 4) : (d.modSup fun s => { s with wakeReq := f s }).posView = d.posView := rfl

@[simp] theorem posView_chanEvent (u : Fin 8) (c : Fin 4) : (d.chanEvent u c).posView = d.posView := by
  unfold Dev.chanEvent
  simp only [posView_ite, posView_wakeReq, posView_fire, posView_modTmu, ite_self]

@[simp] theorem posView_fireCh (u : Fin 8) (c : Fin 4) : (d.fireCh u c).posView = d.posView := posView_chanEvent ..

@[simp] theorem posView_tickUnit (u : Fin 8) : (d.tickUnit u).2.posView = d.posView := by
  unfold Dev.tickUnit
  simp only
  split
  · rfl
  · refine (posView_foldl_snd (List.finRange 4) _ _ fun a c => ?_).trans (posView_modTmu d u _)
    split
    · exact posView_fireCh ..
    · rfl

@[simp] theorem posView_acceptEdge (u : Fin 8) (c : Fin 4) (r : Option Bool) (t : Ns) : (d.acceptEdge u c r t).2.posView = d.posView := by
  unfold Dev.acceptEdge
  simp only
  split
  · rfl
  · split
    · rfl
    · exact posView_chanEvent ..

@[simp] theorem posView_zeroCapture (code : Nat) : (d.zeroCapture code).2.posView = d.posView := by
  unfold Dev.zeroCapture
  refine posView_foldl_snd _ _ _ fun a u => posView_foldl_snd _ _ _ fun a c => ?_
  simp only
  split
  · exact posView_acceptEdge ..
  · rfl

@[simp] theorem posView_tmuEvents (n : Nat) (codes : List Nat) : (d.tmuEvents n codes).posView = d.posView := by
  induction n generalizing codes d with
  | zero => rfl
  | succ n ih =>
    unfold Dev.tmuEvents
    split
    · rfl
    · refine (ih ..).trans (posView_foldl_snd _ _ _ fun a code => (posView_zeroCapture ..).trans ?_)
      refine posView_foldl_snd _ _ _ fun a w => ?_
      simp only
      repeat' split
      · rfl
      · exact posView_tickUnit ..
      · rfl
      · rfl

@[simp] theorem posView_tmuLevel (code : Nat) (b : Bool) : (d.tmuLevel code b).posView = d.posView := by
  unfold Dev.tmuLevel
  refine posView_foldl _ _ _ fun d w => ?_
  simp only
  repeat' split
  · rfl
  · exact (posView_tmuEvents ..).trans (posView_tickUnit ..)
  · rfl
  · rfl

@[simp] theorem posView_pinEdges (n : Nat) (before : List Bool) : (d.pinEdges n before).posView = d.posView := by
  induction n generalizing before d with
  | zero => rfl
  | succ n ih =>
    unfold Dev.pinEdges
    simp only
    split
    · rfl
    · refine (ih ..).trans (posView_foldl _ _ _ fun d i => ?_)
      split
      · split
        · rfl
        · exact posView_tmuLevel ..
      · rfl

/-! ### What a mode change stops and starts -/

@[simp] theorem posView_dropRequest (k : Fin 8) : (d.dropRequest k).posView = d.posView := by
  unfold Dev.dropRequest
  simp only
  split <;> rfl

@[simp] theorem posView_stopEngine (k : Fin 8) : (d.stopEngine k).posView = d.posView := by
  simp [Dev.stopEngine]

@[simp] theorem posView_stopPio (b : Bool) : (d.stopPio b).posView = d.posView := posView_pinEdges ..

@[simp] theorem posView_stopConverter (c : Fin 2) : (d.stopConverter c).posView = d.posView :=
  posView_foldl _ _ _ fun d i => posView_staleSlot d i

@[simp] theorem posView_stopConverters : d.stopConverters.posView = d.posView :=
  (posView_stopConverter ..).trans (posView_stopConverter ..)

end

/-- A mode change keeps all of the view but the mode itself. -/
theorem posView_setMode (m : Mode) (d : Dev) : (d.setMode m).posView = { d.posView with mode := m } := by
  unfold Dev.setMode
  split
  · next h => subst h; rfl
  · extract_lets old d1 d2 d3 d4 cnvs d5 d6 d7 d8
    have h2 : d2.posView = d1.posView := posView_when (posView_foldl _ _ _ fun d k => posView_stopEngine d k)
    have h3 : d3.posView = d2.posView := posView_when rfl
    have h4 : d4.posView = d3.posView := posView_when ((posView_stopPio ..).trans (posView_stopConverters ..))
    have h5 : d5.posView = d4.posView := posView_when rfl
    have h6 : d6.posView = d5.posView := posView_when rfl
    have h7 : d7.posView = d6.posView := posView_when rfl
    calc (d8.fire 5 _).posView = d8.posView := posView_fire ..
      _ = d7.posView := rfl
      _ = d1.posView := by rw [h7, h6, h5, h4, h3, h2]
      _ = { d.posView with mode := m } := rfl

end Sys2Proof.Machine
end

section
/-! Faults with all that follows from them, and the mode that follows the sync state, leave the position registers
(R366, R389 to R391). -/

namespace Sys2Proof.Machine
open Sys2Proof

/-- The position manager is left alone: its registers and the stall times stay, and BASECAMP is not entered. -/
structure Stays (d d' : Dev) : Prop where
  pos : d'.pos = d.pos
  stop1s : d'.sup.stop1s = d.sup.stop1s
  stoppedAt : d'.sup.stoppedAt = d.sup.stoppedAt
  away : d.sup.mode ≠ .basecamp → d'.sup.mode ≠ .basecamp

theorem Stays.refl (d : Dev) : Stays d d := ⟨rfl, rfl, rfl, id⟩

theorem Stays.trans {a b c : Dev} (h : Stays a b) (g : Stays b c) : Stays a c :=
  ⟨g.pos.trans h.pos, g.stop1s.trans h.stop1s, g.stoppedAt.trans h.stoppedAt, fun ha => g.away (h.away ha)⟩

theorem Stays.of_view {d d' : Dev} (h : d'.posView = d.posView) : Stays d d' where
  pos := congrArg PosView.pos h
  stop1s := congrArg PosView.stop1s h
  stoppedAt := congrArg PosView.stoppedAt h
  away ha := by
    rw [show d'.sup.mode = d.sup.mode from congrArg PosView.mode h]
    exact ha

theorem Stays.ite {c : Prop} [Decidable c] {a x y : Dev} (hx : Stays a x) (hy : Stays a y) : Stays a (if c then x else y) := by
  split
  · exact hx
  · exact hy

theorem Stays.foldl {α : Type} (l : List α) (f : Dev → α → Dev) (d : Dev) (h : ∀ d x, Stays d (f d x)) : Stays d (l.foldl f d) := by
  induction l generalizing d with
  | nil => exact .refl d
  | cons x l ih => exact (h d x).trans (ih _)

section
variable (e : Env) (d : Dev)

theorem stays_at (t : Ns) : Stays d (d.at t) := ⟨rfl, rfl, rfl, id⟩

theorem stays_setMode {m : Mode} (hm : m ≠ .basecamp) : Stays d (d.setMode m) where
  pos := congrArg PosView.pos (posView_setMode m d)
  stop1s := congrArg PosView.stop1s (posView_setMode m d)
  stoppedAt := congrArg PosView.stoppedAt (posView_setMode m d)
  away _ := by
    rw [show (d.setMode m).sup.mode = m from congrArg PosView.mode (posView_setMode m d)]
    exact hm

/-! ### Reactions to faults (R389 to R391) -/

theorem posView_disableOutput (t : EvType) (n src : Nat) : (d.disableOutput e t n src).posView = d.posView := by
  unfold Dev.disableOutput
  extract_lets d1 sel
  have h : d1.posView = d.posView := by cases t <;> rfl
  rw [posView_flush, posView_endTemplatesOf, Dev.markDisabled, posView_modFlt, h]

theorem posView_disableBank (k src : Nat) : (d.disableBank e k src).posView = d.posView := by
  unfold Dev.disableBank
  extract_lets sel
  rw [posView_flush, posView_endTemplatesOf, Dev.markDisabled, posView_modFlt]
  rfl

theorem posView_disableCyl (c src : Nat) : (d.disableCyl e c src).posView = d.posView := by
  unfold Dev.disableCyl
  rw [posView_flush, Dev.markDisabled, posView_modFlt, Dev.setDis, posView_modFlt]

theorem posView_forceBank (k : Fin 4) : (d.forceBank k).posView = d.posView := by
  unfold Dev.forceBank
  simp only [posView_modBank]
  split
  · exact posView_when ((posView_completeBox ..).trans (posView_modPart ..))
  · rfl

theorem posView_bst (b : Bst) : ({ d with bst := b } : Dev).posView = d.posView := rfl

theorem stays_endAll (src cause : Nat) : Stays d (d.endAll e src cause) := by
  unfold Dev.endAll
  extract_lets d1 bst d2
  have h2 : Stays d d2 := .of_view ((posView_bst d1 _).trans (posView_endAllEvents ..))
  refine .ite h2 (h2.trans (.trans ?_ (stays_setMode _ (by decide))))
  exact .of_view (posView_modSup d2)

theorem stays_fatal (src : Nat) : Stays d (d.fatal e src) := by
  unfold Dev.fatal
  refine .ite (.refl d) ?_
  extract_lets ended d1 d2 bst d3
  have h0 : ended.posView = d.posView := posView_foldl _ _ _ fun d b => posView_when rfl
  have h1 : d1.posView = ended.posView := posView_foldl _ _ _ fun d k => posView_forceBank d k
  have h3 : d3.posView = d1.posView := (posView_bst d2 _).trans (posView_endAllEvents ..)
  refine .trans (.of_view (h3.trans (h1.trans h0))) (.trans ?_ (stays_setMode _ (by decide)))
  exact .of_view (posView_modSup d3)

theorem stays_react (src n : Nat) (obj : ReactObj) : Stays d (d.react e src n obj) := by
  unfold Dev.react
  split
  · exact .of_view (posView_disableOutput ..)
  · exact .of_view (posView_disableBank ..)
  · exact .of_view (posView_foldl _ _ _ fun d k => posView_disableBank e d k src)
  · exact .of_view (posView_disableCyl ..)
  · exact stays_endAll ..
  · exact stays_fatal ..
  · exact .refl d

theorem stays_reactAll (l : List FaultReq) : Stays d (d.reactAll e l) := by
  unfold Dev.reactAll
  exact .foldl _ _ _ fun d c => .foldl _ _ _ fun d x => .ite (stays_react ..) (.refl d)

theorem stays_report (r : FaultReq) : Stays d (d.report r) := by
  have h := noted_report r d
  exact ⟨h.pos, by rw [h.sup], by rw [h.sup], fun ha => by rwa [h.sup]⟩

theorem stays_round : Stays d (d.round e) := by
  unfold Dev.round
  exact ((Stays.of_view (posView_modFlt ..)).trans (.foldl _ _ _ fun d r => stays_report d r)).trans (stays_reactAll ..)

/-- The faults of a command, and what follows from them, leave the position manager alone. -/
theorem stays_settle : Stays d (d.settle e) := by
  have step (d : Dev) : Stays d (if d.flt.raised.isEmpty then d else d.round e) := .ite (.refl d) (stays_round e d)
  exact ((step _).trans ((step _).trans (step _))).trans (.of_view (posView_modFlt ..))

/-! ### The mode that follows the sync state (R366) -/

theorem syncMode_ne_basecamp : d.syncMode ≠ .basecamp := by
  unfold Dev.syncMode
  split
  · split
    · decide
    · split <;> decide
  · decide
  · decide

/-- Outside BASECAMP a change of the sync state changes the mode alone. -/
theorem stays_follow (h : d.sup.mode ≠ .basecamp) (all_ : Bool) : Stays d (d.follow e all_) := by
  have step : Stays d ((d.setMode d.syncMode).oweStanding d.sup.mode d.syncMode all_) :=
    (stays_setMode d (syncMode_ne_basecamp d)).trans (.of_view (posView_oweStanding ..))
  unfold Dev.follow
  split
  case h_1 hm => exact absurd hm h
  case h_6 => exact .refl d
  all_goals exact .ite (step.trans (.of_view (posView_endAllEvents ..))) step

@[simp] theorem posView_noteSync (s : SyncState) (c : Nat) (t : Ns) : (d.noteSync s c t).posView = d.posView := by
  unfold Dev.noteSync
  exact (posView_fire ..).trans (posView_present ..)

end
end Sys2Proof.Machine
end

section
/-! What issues edges and does the work of a pass leaves the place of the wheels as it is (R91 to R99, R139, R437). -/

namespace Sys2Proof.Machine
open Sys2Proof

/-! ### A part of the position registers that stays -/

/-- Outside BASECAMP, `d'` has kept a part `v` of the position registers of `d`, and has not entered BASECAMP. -/
structure Keeps {α : Type} (v : Pos → α) (d d' : Dev) : Prop where
  away : d.sup.mode ≠ .basecamp → d'.sup.mode ≠ .basecamp
  same : d.sup.mode ≠ .basecamp → v d'.pos = v d.pos

section
variable {α : Type} {v : Pos → α}

theorem Keeps.refl (d : Dev) : Keeps v d d := ⟨id, fun _ => rfl⟩

theorem Keeps.trans {a b c : Dev} (h : Keeps v a b) (g : Keeps v b c) : Keeps v a c :=
  ⟨fun ha => g.away (h.away ha), fun ha => (g.same (h.away ha)).trans (h.same ha)⟩

theorem Keeps.of_stays {d d' : Dev} (h : Stays d d') : Keeps v d d' := ⟨h.away, fun _ => congrArg v h.pos⟩

theorem Keeps.of_view {d d' : Dev} (h : d'.posView = d.posView) : Keeps v d d' := .of_stays (.of_view h)

/-- The mode may be used, since in BASECAMP nothing is claimed. -/
theorem Keeps.of_away {d d' : Dev} (h : d.sup.mode ≠ .basecamp → Keeps v d d') : Keeps v d d' :=
  ⟨fun ha => (h ha).away ha, fun ha => (h ha).same ha⟩

theorem Keeps.modPos {f : Pos → Pos} (d : Dev) (h : ∀ p, v (f p) = v p := by intro _; rfl) :
    Keeps v d (d.modPos f) := ⟨id, fun _ => h d.pos⟩

theorem Keeps.at (t : Ns) (d : Dev) : Keeps v d (d.at t) := .of_stays (stays_at d t)

theorem Keeps.follow (e : Env) (all_ : Bool) (d : Dev) : Keeps v d (d.follow e all_) where
  away h := (stays_follow e d h all_).away h
  same h := congrArg v (stays_follow e d h all_).pos

theorem Keeps.ite {c : Prop} [Decidable c] {a x y : Dev} (hx : Keeps v a x) (hy : Keeps v a y) : Keeps v a (if c then x else y) := by
  split
  · exact hx
  · exact hy

/-- A step that is taken under a condition. -/
theorem Keeps.when {c : Prop} [Decidable c] {x d : Dev} (h : Keeps v d x) : Keeps v d (if c then x else d) := .ite h (.refl d)

theorem Keeps.foldl {β : Type} (l : List β) (f : Dev → β → Dev) (d : Dev) (h : ∀ d x, Keeps v d (f d x)) : Keeps v d (l.foldl f d) := by
  induction l generalizing d with
  | nil => exact .refl d
  | cons x l ih => exact (h d x).trans (ih _)

theorem Keeps.foldl_snd {β γ : Type} (l : List β) (f : γ × Dev → β → γ × Dev) (a : γ × Dev)
    (h : ∀ a x, Keeps v a.2 (f a x).2) : Keeps v a.2 (l.foldl f a).2 := by
  induction l generalizing a with
  | nil => exact .refl a.2
  | cons x l ih => exact (h a x).trans (ih _)

end

/-- Where the decoder stands: all that a tooth, a loss or a cam edge is judged by and shows. -/
structure Place where
  inputs : Vector WheelInput 6
  wheel : Wheel
  sync : SyncState
  absPos : Int
  lastTooth : Option Ns
  nkPosn : Nat
  lossCount : BitVec 16
  dual : W64
  angle : Angle
  synAngle : Angle
  synTime : Option Ns

def Pos.place (p : Pos) : Place :=
  ⟨p.inputs, p.wheel, p.sync, p.absPos, p.lastTooth, p.nkPosn, p.lossCount, p.dual, p.angle, p.synAngle, p.synTime⟩

theorem place_work (p : Pos) (t : Ns) (l : List (Ns × PassWork)) : ({ p with passEnd := t, work := l } : Pos).place = p.place := rfl

/-! ### Edges (R95 to R98) -/

section
variable (d : Dev)

theorem posView_urgentLost (c : Fin 2) (k : Option (Fin 8)) : (d.urgentLost c k).posView = d.posView := by
  cases k <;> rfl

theorem posView_urgent (c : Fin 2) (m o : Nat) (t : Ns) (k : Option (Fin 8)) : (d.urgent c m o t k).2.2.2.posView = d.posView := by
  unfold Dev.urgent
  simp only
  split
  · exact posView_urgentLost ..
  · rw [posView_modCnv]
    split
    · exact posView_urgentLost ..
    · rfl

theorem posView_issueUnit (o : Owner) (ev : Event) (t : Ns) : (d.issueUnit o ev t).posView = d.posView := by
  unfold Dev.issueUnit
  split
  · exact (posView_modPart ..).trans (posView_urgent ..)
  · rw [posView_modPart]
    split
    · exact posView_trigger ..
    · rfl
  · exact (posView_modPart ..).trans (posView_snapshot ..)
  · rfl
  · rfl

@[simp] theorem posView_startPfi (o : Owner) (n : Fin 16) (t : Ns) : (d.startPfi o n t).posView = d.posView := by
  simp [Dev.startPfi]

@[simp] theorem posView_stopPfi (o : Owner) (n : Fin 16) (t : Ns) : (d.stopPfi o n t).posView = d.posView := by
  simp [Dev.stopPfi]

@[simp] theorem posView_closeGate (o : Owner) (n : Fin 8) (t : Ns) : (d.closeGate o n t).posView = d.posView := rfl

theorem keeps_countLate (b : Bool) : Keeps Pos.place d (d.countLate b) := by
  unfold Dev.countLate
  exact .when ⟨id, fun _ => rfl⟩

theorem keeps_issueFirst (b : Fin 128) (t : Ns) (late : Bool) : Keeps Pos.place d (d.issueFirst b t late) := by
  unfold Dev.issueFirst
  extract_lets x ev det o timed d1
  refine .ite (.of_view rfl) (.trans (b := d1) ((keeps_countLate ..).trans (.of_view rfl)) (.of_view ?_))
  split
  · rfl
  · rw [posView_modBox, posView_startPfi]
  · rfl
  · rfl
  · rw [posView_completeBox, posView_issueUnit]

theorem keeps_issueSpark (b : Fin 128) (t : Ns) (late : Bool) : Keeps Pos.place d (d.issueSpark b t late) := by
  unfold Dev.issueSpark
  extract_lets x ev n o g d1 d2
  have h1 : d1.posView = d.posView := (posView_modPart ..).trans (posView_softShutdown ..)
  have h2 : Keeps Pos.place d d2 := (keeps_countLate ..).trans (.of_view (posView_modBox ..))
  refine .ite (.ite (.of_view ?unbegun) ((keeps_countLate ..).trans (.of_view rfl))) (.ite (.of_view ?short) (h2.trans (.of_view ?spark)))
  case unbegun => simp
  case short => simp [h1]
  case spark => simp

theorem keeps_issueClose (b : Fin 128) (t : Ns) (late : Bool) : Keeps Pos.place d (d.issueClose b t late) :=
  (keeps_countLate d late).trans (.of_view rfl)

theorem posView_issueOff (b : Fin 128) (t : Ns) : (d.issueOff b t).posView = d.posView := by
  simp [Dev.issueOff]

theorem keeps_issueA (b : Fin 128) (t : Ns) (late : Bool) : Keeps Pos.place d (d.issueA b t late) :=
  .ite (keeps_issueSpark ..) (keeps_issueFirst ..)

theorem keeps_issueDue (b : Fin 128) : Keeps Pos.place d (d.issueDue b) := by
  unfold Dev.issueDue
  exact .ite (.refl d) (.ite (keeps_issueFirst ..) (.ite (keeps_issueA ..) (.ite (keeps_issueClose ..)
    (.when (.of_view (posView_issueOff ..))))))

/-! ### Basecamp templates (R371) -/

@[simp] theorem posView_modTemplate (i : Nat) (f : Template → Template) : (d.modTemplate i f).posView = d.posView := rfl

theorem posView_templateStart (i : Nat) (t : Ns) : (d.templateStart i t).posView = d.posView := by
  unfold Dev.templateStart
  split
  · rfl
  · simp only
    split
    · rfl
    · split
      · rfl
      · rw [posView_modTemplate, posView_startPfi]; rfl
      · rfl
      · rfl
      · rw [posView_modTemplate, posView_issueUnit]; rfl

theorem posView_templateEnd (i : Nat) (t : Ns) : (d.templateEnd i t).posView = d.posView := by
  unfold Dev.templateEnd
  split
  · rfl
  · simp only
    split
    · simp
    · simp
    · split <;> simp
    · simp

theorem posView_templateTooth (t : Ns) (i : Nat) : (d.templateTooth t i).posView = d.posView := by
  unfold Dev.templateTooth
  split
  · rfl
  · simp only [posView_ite, posView_modTemplate, posView_templateStart, posView_templateEnd, ite_self]

theorem posView_templatesTooth (t : Ns) : (d.templatesTooth t).posView = d.posView :=
  posView_when (posView_foldl _ _ _ fun d i => posView_templateTooth d t i)

/-! ### The pass (R91) and the paging (R139) -/

theorem keeps_solveBox (b : Fin 128) (t : Ns) : Keeps Pos.place d (d.solveBox b t) := by
  unfold Dev.solveBox
  extract_lets z at_ f a d1 open_ d2 d3
  have h1 : Keeps Pos.place d d1 := .of_view rfl
  have h2 : Keeps Pos.place d1 d2 := .when (keeps_issueFirst ..)
  have h3 : Keeps Pos.place d2 d3 := .when (keeps_issueA ..)
  exact h1.trans (h2.trans (h3.trans (.when (keeps_issueClose ..))))

theorem keeps_pullBox (t : Ns) (b : Fin 128) : Keeps Pos.place d (d.pullBox t b) := by
  unfold Dev.pullBox
  extract_lets d1 x late hitA d2 y
  have h1 : Keeps Pos.place d d1 := (keeps_issueDue ..).trans ((keeps_issueDue ..).trans (keeps_issueDue ..))
  have h2 : Keeps Pos.place d1 d2 := .when (keeps_issueA ..)
  exact .ite h1 (h1.trans (h2.trans (.when (keeps_issueClose ..))))

theorem posView_noBox (i : Nat) (ev : Event) : (d.noBox i ev).posView = d.posView := rfl

theorem posView_noBoxes : d.noBoxes.posView = d.posView :=
  posView_foldl _ _ _ fun d _ => posView_when (posView_noBox d ..)

theorem keeps_pull (stamp t : Ns) : Keeps Pos.place d (d.pull stamp t) := by
  unfold Dev.pull
  extract_lets d1 d2 l end_
  have h1 : Keeps Pos.place d d1 := .trans (b := allBoxes.foldl (fun d b => d.pullBox t b) d)
    (.foldl _ _ _ fun d b => keeps_pullBox d t b) (.of_view (posView_templatesTooth ..))
  have h2 : Keeps Pos.place d1 d2 := .ite (.refl d1) (.of_view (posView_noBoxes ..))
  refine h1.trans (h2.trans ?_)
  exact .modPos d2 fun p => place_work p ..

theorem posView_readDescr (i : Nat) : (d.readDescr i).2.posView = d.posView :=
  posView_foldl_snd _ _ _ fun a _ => posView_readWord a.2 ..

theorem posView_loftError (e : Env) (i : Nat) (l : List Nat) : (d.loftError e i l).posView = d.posView := by
  unfold Dev.loftError
  simp only
  split
  · rfl
  · split
    · rfl
    · rw [posView_modBox, posView_endBox]; rfl
    · rfl

theorem posView_fillBox (b : Fin 128) (i : Nat) (ev : Event) : (d.fillBox b i ev).posView = d.posView := rfl

theorem posView_pageAll (e : Env) (l : List (Nat × Descr)) : (Dev.pageAll e l d).2.posView = d.posView := by
  induction l generalizing d with
  | nil => rfl
  | cons x l ih =>
    unfold Dev.pageAll
    have h := posView_readDescr d x.1
    generalize d.readDescr x.1 = y at h
    obtain ⟨bad, d1⟩ := y
    simp only at h ⊢
    rw [← h]
    split
    · exact (ih _).trans (posView_loftError ..)
    · split
      · exact ih _
      · split
        · exact (ih _).trans (posView_fillBox ..)
        · exact (ih _).trans ((posView_when (posView_noBox ..)).trans ((posView_modDescr ..).trans (posView_modLoft ..)))

theorem keeps_notePass (t : Ns) : Keeps Pos.place d (d.notePass t) := by
  unfold Dev.notePass
  exact .modPos d

theorem keeps_pagePass (e : Env) (stamp t : Ns) : Keeps Pos.place d (d.pagePass e stamp t) := by
  unfold Dev.pagePass
  have h : Keeps Pos.place d ((d.notePass t).page e).2 :=
    (keeps_notePass d t).trans (.of_view (posView_pageAll ..))
  exact h.trans (.modPos _)

end
end Sys2Proof.Machine
end

section
/-! What measures, learns and predicts at a tooth, and the work that follows it, leave the place of the wheels as it is
(R70 to R72, R77 to R85, R91, R139, R437). -/

namespace Sys2Proof.Machine
open Sys2Proof

/-! ### Measuring, learning, predicting -/

section
variable (p : Pos)

@[simp] theorem predictTooth_place (hold : Bool) : (p.predictTooth hold).place = p.place := by
  cases hold <;> rfl

@[simp] theorem speed_place : p.speed.place = p.place := rfl

end

section
variable (e : Env) (d : Dev)

theorem keeps_setBands (b : Bool) : Keeps Pos.place d (d.setBands e b) := by
  unfold Dev.setBands
  exact .ite (.refl d) ((Keeps.modPos d).trans (.follow ..))

theorem keeps_toothRecord (part rev : Bool) (c : W32) (t : Ns) : Keeps Pos.place d (d.toothRecord part rev c t) := by
  unfold Dev.toothRecord
  exact .ite ((Keeps.of_view (posView_present ..)).trans (.modPos _)) (.modPos d)

theorem keeps_stopPass : Keeps Pos.place d d.stopPass := by
  unfold Dev.stopPass
  extract_lets d1
  have h : Keeps Pos.place d d1 := by
    unfold d1
    split
    · exact keeps_notePass ..
    · exact .refl d
  exact h.trans (.modPos d1)

theorem keeps_learnTooth (n : Nat) (held : Bool) (t : Ns) : Keeps Pos.place d (d.learnTooth e n held t) := by
  unfold Dev.learnTooth
  extract_lets i ok d1 l rev steady ex k d2 full
  have h1 : Keeps Pos.place d d1 := .modPos d
  have h2 : Keeps Pos.place d1 d2 := by
    refine .when ?_
    split
    exact (Keeps.modPos d1).trans (.when (.of_view (posView_present ..)))
  exact .ite h1 (h1.trans (h2.trans (.modPos d2)))

theorem keeps_learnStart : Keeps Pos.place d (d.learnStart e) := by
  unfold Dev.learnStart
  exact .when ((Keeps.modPos d).trans (.of_view (posView_write ..)))

/-- A publication changes the cam's average alone. -/
theorem keeps_vvtPublish {α : Type} {v : Pos → α} (c : Fin 4) (n : W32) (t : Ns)
    (h : ∀ p x, v { p with vvt := x } = v p := by intro _ _; rfl) : Keeps v d (d.vvtPublish e c n t) := by
  unfold Dev.vvtPublish
  exact (Keeps.modPos d fun p => h p _).trans (.of_view ((posView_measure ..).trans (posView_present ..)))

theorem keeps_judgeCam (c : Fin 4) (tb : CamTable) (n : Nat) (t : Ns) : Keeps Pos.place d (d.judgeCam e c tb n t).2 := by
  unfold Dev.judgeCam
  refine .foldl_snd _ _ (false, d) fun acc x => ?_
  extract_lets d0 a r open_ counted hit missed lost d1 d2
  split
  · exact .refl _
  · have h1 : Keeps Pos.place d0 d1 := .modPos d0
    exact h1.trans (.when (keeps_vvtPublish ..))

theorem keeps_judgeCams (n : Nat) (t : Ns) : Keeps Pos.place d (d.judgeCams e n t).2 := by
  unfold Dev.judgeCams
  refine .foldl_snd _ _ (false, d) fun acc c => ?_
  split
  · exact keeps_judgeCam ..
  · exact .refl _

theorem keeps_segTooth (n : Nat) (t : Ns) : Keeps Pos.place d (d.segTooth e n t) := by
  unfold Dev.segTooth
  extract_lets cfg teeth d1 keep d2 w here before starts
  refine .ite (.refl d) ?_
  have h1 : Keeps Pos.place d d1 := .foldl _ _ _ fun d x =>
    .when (.of_view ((posView_measure ..).trans (posView_present ..)))
  have h2 : Keeps Pos.place d1 d2 := .modPos d1
  exact h1.trans (h2.trans (.modPos d2))

theorem keeps_toothInterval (n : Nat) (a : Angle) (c : W32) (u : Int) (t : Ns) : Keeps Pos.place d (d.toothInterval n a c u t) := by
  unfold Dev.toothInterval
  extract_lets d1
  have h1 : Keeps Pos.place d d1 := .modPos d
  exact h1.trans (.when (keeps_toothRecord ..))

/-! ### The work that follows a tooth -/

theorem posView_cycleRecord (t : Ns) : (d.cycleRecord t).posView = d.posView := by
  simp [Dev.cycleRecord, Dev.resetCycle]

theorem posView_cutWrap : (d.cutWrap e).posView = d.posView := by
  unfold Dev.cutWrap
  extract_lets r n v lost ahead takes base level d1
  have h1 : d1.posView = d.posView := posView_modRope ..
  split
  · rfl
  · split
    · exact (posView_hwSlot ..).trans h1
    · exact h1

theorem posView_oweCycles (lo hi : W32) : (d.oweCycles lo hi).posView = d.posView := by
  unfold Dev.oweCycles
  split <;> rfl

theorem keeps_wrapActions {α : Type} {v : Pos → α} (t : Ns) : Keeps v d (d.wrapActions e t) := by
  unfold Dev.wrapActions
  extract_lets d1 c d2 d3
  have h1 : d1.posView = d.posView := (posView_cutWrap ..).trans (posView_cycleRecord ..)
  have h2 : d2.posView = d1.posView := by
    unfold d2
    split
    · exact posView_when (posView_modSup d1)
    · rfl
  refine .of_away fun haway => ?_
  have hmode : d2.sup.mode ≠ .basecamp := (Stays.of_view (h2.trans h1)).away haway
  rw [if_neg (by simp [hmode])]
  exact .of_view ((posView_oweCycles ..).trans (h2.trans h1))

theorem keeps_wrapPass (t : Ns) : Keeps Pos.place d (d.wrapPass e t) := by
  unfold Dev.wrapPass
  exact .when ((Keeps.modPos d).trans (keeps_wrapActions ..))

theorem keeps_doWork (x : Ns × PassWork) : Keeps Pos.place d (d.doWork e x) := by
  unfold Dev.doWork
  extract_lets d1
  refine (Keeps.at x.1 d).trans (.trans ?_ (.of_stays (stays_settle ..)))
  split
  · exact keeps_pull ..
  · exact .when (keeps_solveBox ..)
  · exact keeps_pagePass ..
  · exact keeps_wrapPass ..

theorem keeps_runWork (lim : Ns) (n : Nat) : Keeps Pos.place d (d.runWork e lim n) := by
  induction n generalizing d with
  | zero => exact .refl d
  | succ n ih =>
    unfold Dev.runWork
    split
    · exact .refl d
    · exact .when ((Keeps.modPos d).trans ((keeps_doWork ..).trans (ih _)))

theorem keeps_endWork : Keeps Pos.place d (d.endWork e) := by
  have go (d : Dev) : Keeps Pos.place d (if d.pos.work.isEmpty then d else d.runWork e d.workEnd workMax) :=
    .ite (.refl d) (keeps_runWork ..)
  exact (go d).trans ((go _).trans (go _))

end
end Sys2Proof.Machine
end

section
/-! Changes of the sync state and losses (R52, R59 to R62). -/

namespace Sys2Proof.Machine
open Sys2Proof

/-- Angle and time of the synthetic wheel's last edge (R382). -/
def Pos.syn (p : Pos) : Angle × Option Ns := (p.synAngle, p.synTime)

theorem Keeps.syn {d d' : Dev} (h : Keeps Pos.place d d') : Keeps Pos.syn d d' :=
  ⟨h.away, fun ha => congrArg (fun x : Place => (x.synAngle, x.synTime)) (h.same ha)⟩

section
variable {α : Type} {v : Pos → α} (e : Env) (d : Dev)

/-- The record of a change of the sync state and the mode that follows it leave the position registers. -/
theorem keeps_noteFollow (old : SyncState) (c : Nat) (t : Ns) (all_ : Bool) : Keeps v d ((d.noteSync old c t).follow e all_) :=
  (Keeps.of_view (posView_noteSync ..)).trans (.follow ..)

theorem dtime_of_view {d d' : Dev} (h : d'.posView = d.posView) : d'.dtime = d.dtime := congrArg PosView.dtime h

theorem toothRecord_dtime (part rev : Bool) (c : W32) (t : Ns) : (d.toothRecord part rev c t).dtime = d.dtime := by
  unfold Dev.toothRecord
  extract_lets p
  split
  · exact (rfl : _ = (d.present _).dtime).trans (dtime_of_view (posView_present ..))
  · rfl

theorem stopPass_dtime : d.stopPass.dtime = d.dtime := by
  unfold Dev.stopPass
  extract_lets d1
  show d1.dtime = _
  unfold d1
  split <;> rfl

/-- The registers when FULL or HALF is entered, before anything follows from it. -/
def Pos.entered (st : SyncState) (x win : Int) (atTooth : Bool) (p : Pos) : Pos :=
  { p.toSynced st x win with
    judgeFrom := if st == .full && atTooth then some ((p.toSynced st x win).cycle, (p.toSynced st x win).angle) else none }

theorem keeps_enterSynced (st : SyncState) (x win : Int) (c : Nat) (t : Ns) (atTooth : Bool) :
    Keeps v (d.modPos (Pos.entered st x win atTooth)) (d.enterSynced e st x win c t atTooth) := by
  unfold Dev.enterSynced
  extract_lets from_ d1 d2 d3
  have h2 : Keeps v d1 d2 := .of_view (posView_modLoft ..)
  have h3 : Keeps v d2 d3 := .when (.of_view (posView_modSup _))
  exact h2.trans (h3.trans (keeps_noteFollow ..))

end

/-- What a loss notes (R60, R61); the inputs and the synthetic wheel are no part of it. -/
structure Lost (cause : Nat) (p q : Pos) : Prop where
  lossCause : q.lossCause = BitVec.ofNat 4 cause
  lossCount : q.lossCount = p.lossCount + 1
  lossSeen : q.lossSeen = true
  inputs : q.inputs = p.inputs
  syn : q.syn = p.syn

/-- The registers in COUNTING after a loss. -/
def Pos.recounting (start edge : Option Ns) (intv : Option (Nat × Nat)) (q : Pos) : Pos :=
  { q.unknown with sync := .counting, lastTooth := start, lastEdge := edge, lastIntv := intv }

/-- Where a loss of sync leads (R60): to STOPPED, to HALF, or to COUNTING. -/
theorem loseAny_pos {e : Env} {cs : List Nat} {tE : Ns} {start : Option Ns} {d : Dev} (haway : d.sup.mode ≠ .basecamp)
    (hsync : d.pos.sync ≠ .stopped) (hcam : cs.all camCause = true → d.pos.sync = .full) :
    let d' := d.loseAny e cs tE start
    let cause := cs.min?.getD 12
    let stopped := cause = 11 ∨ (cause = 12 ∧ d.sup.mode = .bivouac)
    let half := cs.all camCause = true ∧ cs.all d.pos.limpPolicy = true
    d'.sup.mode ≠ .basecamp ∧ ∃ q, Lost cause d.pos q ∧
      (stopped → d'.pos = q.toStopped ∧ d'.sup.stop1s = false ∧ d'.sup.stoppedAt = d.dtime) ∧
      (¬stopped → half → ∃ x, d'.pos = Pos.entered .half x (x + 1) false q) ∧
      (¬stopped → ¬half → ∃ tooth edge intv, (cs.all camCause = false → tooth = start) ∧ d'.pos = q.recounting tooth edge intv) := by
  intro d' cause stopped half
  have hgo : ¬(d.pos.sync = .stopped ∨ (cs.all camCause = true ∧ d.pos.sync ≠ .full)) := fun h =>
    h.elim hsync fun h => h.2 (hcam h.1)
  have hd : d' = d.loseAny e cs tE start := rfl
  clear_value d'
  unfold Dev.loseAny at hd
  extract_lets p cam from_ limp d1 d2 at hd
  rw [if_neg hgo] at hd
  have hview : d2.posView = d1.posView := by simp [d2]
  have hkeeps : Keeps Pos.place d d2 := (keeps_stopPass d).trans ((keeps_toothRecord ..).trans (.of_view hview))
  have htime : d2.dtime = d.dtime := calc
    d2.dtime = d1.dtime := dtime_of_view hview
    _ = d.stopPass.dtime := toothRecord_dtime ..
    _ = d.dtime := stopPass_dtime d
  have haway2 : d2.sup.mode ≠ .basecamp := hkeeps.away haway
  have hplace := hkeeps.same haway
  clear_value d2
  split at hd
  extract_lets d3 d4 w x last d5 at hd
  have hlost : Lost cause d.pos d3.pos :=
    ⟨rfl, congrArg (fun x : Place => x.lossCount + 1) hplace, rfl, congrArg Place.inputs hplace,
      congrArg (fun x : Place => (x.synAngle, x.synTime)) hplace⟩
  have haway3 : d3.sup.mode ≠ .basecamp := haway2
  have htime3 : d3.dtime = d.dtime := htime
  clear_value d3
  by_cases hstopped : stopped
  · rw [if_pos hstopped] at hd
    have haway4 : d4.sup.mode ≠ .basecamp := haway3
    have hpos : d4.pos = d3.pos.toStopped := rfl
    have hstop1s : d4.sup.stop1s = false := rfl
    have hat : d4.sup.stoppedAt = d.dtime := htime3
    clear_value d4
    have hnote : Stays d4 (d4.noteSync from_ cause tE) := .of_view (posView_noteSync ..)
    have hstays : Stays d4 d' := hd ▸ hnote.trans (stays_follow _ _ (hnote.away haway4) _)
    exact ⟨hstays.away haway4, d3.pos, hlost,
      fun _ => ⟨hstays.pos.trans hpos, hstays.stop1s.trans hstop1s, hstays.stoppedAt.trans hat⟩,
      fun h => absurd hstopped h, fun h => absurd hstopped h⟩
  · rw [if_neg hstopped] at hd
    by_cases hhalf : half
    · rw [if_pos hhalf] at hd
      have hkeeps : Keeps id (d3.modPos (Pos.entered .half x (x + 1) false)) d' := hd ▸ keeps_enterSynced ..
      exact ⟨hkeeps.away haway3, d3.pos, hlost, fun h => absurd h hstopped, fun _ _ => ⟨x, hkeeps.same haway3⟩,
        fun _ h => absurd hhalf h⟩
    · rw [if_neg hhalf] at hd
      have hkeeps : Keeps id d5 d' := hd ▸ keeps_noteFollow ..
      refine ⟨hkeeps.away haway3, d3.pos, hlost, fun h => absurd h hstopped, fun _ h => absurd h hhalf, fun _ _ => ?_⟩
      exact ⟨_, _, _, fun hc => by simp [cam, hc], hkeeps.same haway3⟩

end Sys2Proof.Machine
end

section
/-! The decoder at a tooth: what an accepted one moves, and that no edge touches the synthetic wheel (R48 to R55, R382). -/

namespace Sys2Proof.Machine
open Sys2Proof

section
variable (e : Env) (d : Dev)

/-! ### An accepted tooth -/

/-- Where the decoder stands after a tooth accepted at position `j` (R48). -/
def Pos.placeAt (stamp : Ns) (j shift : Int) (p : Pos) : Place :=
  { p.place with
    absPos := j, lastTooth := some stamp, nkPosn := p.wheel.entry j
    angle := if p.synced then
        ((p.angle + (p.wheel.absAngle j - p.wheel.absAngle p.absPos + shift)) % (p.wheel.cycLen : Int)).toNat
      else p.angle }

/-- A cam that cannot lose sync does not (R45). -/
theorem judgeCam_lost (c : Fin 4) {tb : CamTable} (n : Nat) (t : Ns) (h : tb.loss = false) : (d.judgeCam e c tb n t).1 = false := by
  unfold Dev.judgeCam
  refine List.foldlRecOn _ _ (motive := fun acc : Bool × Dev => acc.1 = false) rfl fun acc hacc x _ => ?_
  simp only
  split
  · exact hacc
  · simp [h, hacc]

theorem judgeCams_lost (n : Nat) (t : Ns) (h : ∀ c tb, d.pos.wheel.cam c = some tb → tb.loss = false) :
    (d.judgeCams e n t).1 = false := by
  unfold Dev.judgeCams
  refine List.foldlRecOn _ _ (motive := fun acc : Bool × Dev => acc.1 = false) rfl fun acc hacc c _ => ?_
  split
  · next tb hcam => simp [hacc, judgeCam_lost e acc.2 c n t (h _ _ hcam)]
  · exact hacc

/-- What an accepted tooth moves; learning, prediction and measurement leave it there. -/
theorem acceptCore_place (stamp : Ns) (j : Int) (t : Nat) (shift : Int) (haway : d.sup.mode ≠ .basecamp) :
    let x := d.acceptCore e stamp j t shift
    x.2.2.sup.mode ≠ .basecamp ∧ x.2.2.pos.place = d.pos.placeAt stamp j shift ∧
      ((∀ c tb, d.pos.wheel.cam c = some tb → tb.loss = false) → x.1 = false) := by
  unfold Dev.acceptCore
  extract_lets p w t1 resid hold step u n d1 d2 d3 d4 d5 a0 d6 d7 d8 x
  have h1 : d1.pos.place = d.pos.placeAt stamp j shift := by
    clear_value resid
    cases resid <;> rfl
  have h2 : Keeps Pos.place d1 d2 := keeps_learnTooth ..
  have h3 : Keeps Pos.place d2 d3 := (Keeps.modPos d2 fun q => (speed_place _).trans (predictTooth_place q hold)).trans
    (.of_view (posView_measureSpeed ..))
  have h4 : Keeps Pos.place d3 d4 := .ite (keeps_setBands ..) (.when (keeps_setBands ..))
  have h5 : Keeps Pos.place d4 d5 := keeps_learnStart ..
  have h6 : Keeps Pos.place d5 d6 := keeps_toothInterval ..
  have h7 : Keeps Pos.place d6 d7 := keeps_segTooth ..
  have h8 : Keeps Pos.place d7 d8 := .when (.modPos d7)
  have h16 : Keeps Pos.place d1 d6 := h2.trans (h3.trans (h4.trans (h5.trans h6)))
  have haway1 : d1.sup.mode ≠ .basecamp := haway
  have h68 : Keeps Pos.place d6 d8 := h7.trans h8
  clear_value d1 d6 d8
  have stands {d' : Dev} (h : Keeps Pos.place d1 d') : d'.sup.mode ≠ .basecamp ∧ d'.pos.place = d.pos.placeAt stamp j shift :=
    ⟨h.away haway1, (h.same haway1).trans h1⟩
  unfold x
  split
  · split
    · have h9 : Keeps Pos.place d1 (d8.judgeCams e step.toNat stamp).2 := h16.trans (h68.trans (keeps_judgeCams ..))
      refine ⟨(stands h9).1, (stands h9).2, fun hloss => judgeCams_lost e d8 _ _ ?_⟩
      rwa [show d8.pos.wheel = d.pos.wheel from congrArg Place.wheel (stands (h16.trans h68)).2]
    · exact ⟨(stands (h16.trans h7)).1, (stands (h16.trans h7)).2, fun _ => rfl⟩
  · exact ⟨(stands h16).1, (stands h16).2, fun _ => rfl⟩

end
end Sys2Proof.Machine
end

section
/-! No edge touches the angle and the time of the synthetic wheel's last edge (R382). -/

namespace Sys2Proof.Machine
open Sys2Proof

section
variable (e : Env) (d : Dev)

/-! ### Losses and changes of the sync state -/

theorem syn_loseAny (cs : List Nat) (tE : Ns) (start : Option Ns) : Keeps Pos.syn d (d.loseAny e cs tE start) := by
  refine .of_away fun haway => ?_
  by_cases hgo : d.pos.sync = .stopped ∨ (cs.all camCause = true ∧ d.pos.sync ≠ .full)
  · unfold Dev.loseAny
    simp only [hgo, if_true]
    exact .refl d
  · obtain ⟨haway', q, hlost, hstop, hhalf, hcount⟩ := loseAny_pos (e := e) (cs := cs) (tE := tE) (start := start) haway
      (fun h => hgo (.inl h)) (fun h => Classical.not_not.mp fun hn => hgo (.inr ⟨h, hn⟩))
    refine ⟨fun _ => haway', fun _ => Eq.trans ?_ hlost.syn⟩
    by_cases hs : cs.min?.getD 12 = 11 ∨ (cs.min?.getD 12 = 12 ∧ d.sup.mode = .bivouac)
    · rw [(hstop hs).1]; rfl
    · by_cases hh : cs.all camCause = true ∧ cs.all d.pos.limpPolicy = true
      · obtain ⟨x, hx⟩ := hhalf hs hh
        rw [hx]; rfl
      · obtain ⟨_, _, _, -, hx⟩ := hcount hs hh
        rw [hx]; rfl

theorem syn_lose (cause : Nat) (tE : Ns) (start : Option Ns) : Keeps Pos.syn d (d.lose e cause tE start) := syn_loseAny ..

theorem syn_noise (i : Fin 6) : Keeps Pos.syn d (d.noise i) := by
  unfold Dev.noise
  exact .modPos d

theorem syn_startPass (stamp t : Ns) : Keeps Pos.syn d (d.startPass stamp t) := by
  unfold Dev.startPass
  exact .modPos d

theorem syn_enterSynced (st : SyncState) (x win : Int) (c : Nat) (t : Ns) (b : Bool) :
    Keeps Pos.syn d (d.enterSynced e st x win c t b) :=
  (Keeps.modPos d).trans (keeps_enterSynced ..)

theorem syn_recount (start : Option Ns) (t : Ns) : Keeps Pos.syn d (d.recount e start t) := by
  unfold Dev.recount
  extract_lets from_ d1 d2
  have h1 : Keeps Pos.syn d d1 := (keeps_toothRecord ..).syn
  have h2 : Keeps Pos.syn d1 d2 := .modPos d1
  exact h1.trans (h2.trans (.ite (.refl d2) (keeps_noteFollow ..)))

/-! ### Accepted teeth -/

theorem predictTooth_syn (p : Pos) (hold : Bool) : (p.predictTooth hold).syn = p.syn :=
  congrArg (fun x : Place => (x.synAngle, x.synTime)) (predictTooth_place p hold)

theorem syn_syncAtTooth (st : SyncState) (x : Int) (n : BitVec 16) (stamp t : Ns) :
    Keeps Pos.syn d (d.syncAtTooth e st x n stamp t) := by
  unfold Dev.syncAtTooth
  extract_lets d1
  have h1 : Keeps Pos.syn d d1 := syn_enterSynced ..
  refine h1.trans (.trans (.modPos d1 fun p => ?_) (syn_startPass ..))
  split
  · rfl
  · exact predictTooth_syn _ false

theorem syn_gapTooth (n : BitVec 16) (stamp t : Ns) : Keeps Pos.syn d (d.gapTooth e n stamp t) := by
  unfold Dev.gapTooth
  extract_lets d1 p d2
  have h1 : Keeps Pos.syn d d1 := .when (.modPos d)
  have h2 : Keeps Pos.syn d1 d2 := .modPos d1
  exact .ite (h1.trans (h2.trans (.ite (syn_syncAtTooth ..) (.ite (syn_syncAtTooth ..) (syn_startPass ..)))))
    (h1.trans (.ite (syn_syncAtTooth ..) (syn_startPass ..)))

theorem syn_accept (stamp t : Ns) (j : Int) (n : Nat) (shift : Int) : Keeps Pos.syn d (d.accept e stamp t j n shift) := by
  refine .of_away fun haway => ?_
  obtain ⟨haway1, hplace, -⟩ := acceptCore_place e d stamp j n shift haway
  unfold Dev.accept
  generalize d.acceptCore e stamp j n shift = y at haway1 hplace
  obtain ⟨lost, resid, d1⟩ := y
  have h1 : Keeps Pos.syn d d1 := ⟨fun _ => haway1, fun _ => congrArg (fun x : Place => (x.synAngle, x.synTime)) hplace⟩
  have h2 : Keeps Pos.syn d1 (d1.takeResiduals resid) := .of_view (posView_modLoft ..)
  refine h1.trans (h2.trans ?_)
  simp only
  split
  · exact syn_loseAny ..
  · exact .ite (syn_gapTooth ..) (syn_startPass ..)

/-! ### Teeth that are not the expected ones -/

theorem syn_relaySwitch (b : Bool) : Keeps Pos.syn d (d.relaySwitch b) := by
  unfold Dev.relaySwitch
  exact .ite (.refl d) (.modPos d)

theorem syn_voteSwitch (stamp t : Ns) (j : Int) : Keeps Pos.syn d (d.voteSwitch e stamp t j) := by
  unfold Dev.voteSwitch
  extract_lets o n level d1 d2
  have h1 : Keeps Pos.syn d d1 := .modPos d
  have h2 : Keeps Pos.syn d1 d2 := .of_view (posView_raise ..)
  exact h1.trans (h2.trans ((Keeps.follow ..).trans ((syn_relaySwitch ..).trans (syn_accept ..))))

theorem syn_crankCause (cause : Nat) (tE t : Ns) (start : Option Ns) (j : Int) :
    Keeps Pos.syn d (d.crankCause e cause tE t start j) := by
  unfold Dev.crankCause
  extract_lets p
  split
  · split
    · exact .ite (syn_voteSwitch ..) (.modPos d)
    · exact syn_lose ..
  · exact syn_lose ..

theorem syn_gapFound (stamp t : Ns) (n i : Nat) (prov : Bool) : Keeps Pos.syn d (d.gapFound e stamp t n i prov) := by
  unfold Dev.gapFound
  extract_lets p gap place finish d1 d2
  have hplace (q : Pos) : (place q).syn = q.syn := rfl
  have hfinish (q : Pos) : (finish q).syn = q.syn := predictTooth_syn q false
  refine .ite ?_ ?_
  · have h1 : Keeps Pos.syn d d1 := .modPos d
    exact h1.trans ((keeps_noteFollow ..).trans ((Keeps.modPos _ hfinish).trans (syn_startPass ..)))
  · have h2 : Keeps Pos.syn d d2 := (Keeps.modPos d hplace).trans (.modPos _)
    exact h2.trans ((syn_enterSynced ..).trans ((Keeps.modPos _ hfinish).trans (syn_startPass ..)))

theorem syn_countTooth (stamp t : Ns) (n : Nat) (ratio : Bool) : Keeps Pos.syn d (d.countTooth e stamp t n ratio) := by
  unfold Dev.countTooth
  extract_lets d1 d2 d3 here second d4 d5
  have h1 : Keeps Pos.syn d d1 := .modPos d
  have h2 : Keeps Pos.syn d1 d2 := .of_view (posView_measureSpeed ..)
  have h3 : Keeps Pos.syn d2 d3 := .when (keeps_setBands ..).syn
  have h4 : Keeps Pos.syn d3 d4 := .modPos d3
  have h5 : Keeps Pos.syn d4 d5 := .modPos d4
  have h6 (q : Pos) : ({ ({ q with nk := normPeriod n (q.shape 0) } : Pos).predictTooth false with
      refFirst := none, toothFirst := some 0, toothPeriods := [n] } : Pos).syn = q.syn := predictTooth_syn _ false
  refine h1.trans (h2.trans (h3.trans (.ite (h4.trans (.ite (h5.trans ?_) (syn_startPass ..))) (syn_startPass ..))))
  exact (syn_enterSynced ..).trans ((Keeps.modPos _ h6).trans (syn_startPass ..))

theorem syn_counting (stamp t : Ns) (fwd : Bool) : Keeps Pos.syn d (d.counting e stamp t fwd) := by
  unfold Dev.counting
  extract_lets p restart d1
  have hrestart (d : Dev) : Keeps Pos.syn d (restart d) := .modPos d
  have h1 : Keeps Pos.syn d d1 := .ite (.refl d) (.modPos d)
  refine h1.trans ?_
  split
  · exact hrestart d1
  · refine .ite ((Keeps.modPos d1).trans (syn_noise ..)) (.ite (hrestart d1) ?_)
    split
    · exact syn_countTooth ..
    · refine .ite (syn_noise ..) ?_
      split
      · exact .ite (syn_gapFound ..) (.ite (syn_countTooth ..) (hrestart d1))
      · exact .ite (syn_countTooth ..) (hrestart d1)

theorem posView_reverseEnds : (d.reverseEnds e).posView = d.posView := by
  unfold Dev.reverseEnds
  refine Eq.trans (posView_foldl _ _ _ fun d b => ?_) (posView_endTemplates e d)
  simp only
  split
  · rfl
  · exact posView_endBox ..
  · exact posView_endBox ..
  · rfl

theorem syn_reverseTooth (stamp : Ns) : Keeps Pos.syn d (d.reverseTooth e stamp) := by
  unfold Dev.reverseTooth
  extract_lets p w hw x lim d1 u back d2
  have h1 : Keeps Pos.syn d d1 := .modPos d
  have hback (q : Pos) : (back q).syn = q.syn := rfl
  have h2 : Keeps Pos.syn d1 d2 := .ite (.refl d1) (.of_view (posView_reverseEnds ..))
  refine .ite ((Keeps.modPos d).trans (syn_recount ..)) (h1.trans (.ite ((Keeps.modPos d1 hback).trans (syn_lose ..)) ?_))
  exact h2.trans ((Keeps.modPos d2 hback).trans (.modPos _))

theorem syn_forwardInReverse (stamp : Ns) : Keeps Pos.syn d (d.forwardInReverse stamp) := by
  unfold Dev.forwardInReverse
  extract_lets p w x u d1
  have h1 : Keeps Pos.syn d d1 := .modPos d
  exact h1.trans (.when (.modPos d1))

theorem syn_known (stamp t : Ns) (b : Bool) : Keeps Pos.syn d (d.known e stamp t b) := by
  unfold Dev.known
  extract_lets p w j x n t1
  refine .ite (syn_noise ..) (.ite (syn_forwardInReverse ..) (.ite (.ite (syn_crankCause ..) (syn_accept ..))
    (.ite (syn_crankCause ..) (.ite (.ite ?_ (syn_crankCause ..)) (syn_crankCause ..)))))
  exact (Keeps.modPos d).trans (syn_crankCause ..)

/-- No edge of the crank touches the synthetic wheel. -/
theorem syn_tooth (stamp t : Ns) (fwd b : Bool) : Keeps Pos.syn d (d.tooth e stamp t fwd b) := by
  unfold Dev.tooth
  extract_lets d1 tD d2 p d3 n
  have h2 : Keeps Pos.syn d d2 := (keeps_endWork ..).syn.trans (.at ..)
  refine .ite h2 (h2.trans ?_)
  split
  · have h3 : Keeps Pos.syn d2 d3 := .modPos d2
    exact h3.trans (keeps_noteFollow ..)
  · exact syn_counting ..
  · exact .ite (syn_noise ..) (.ite (syn_known ..) (.ite (syn_noise ..) (syn_reverseTooth ..)))

/-! ### Cams -/

theorem syn_camFull (c : Fin 4) (tb : CamTable) (stamp : Ns) (b : Bool) : Keeps Pos.syn d (d.camFull e c tb stamp b) := by
  unfold Dev.camFull
  extract_lets p w u a cyc d1
  split
  · have h1 : Keeps Pos.syn d d1 := syn_noise ..
    exact h1.trans (.when (syn_lose ..))
  · extract_lets d1 dev d2 d3
    have h1 : Keeps Pos.syn d d1 := .modPos d
    have h2 : Keeps Pos.syn d1 d2 := .modPos d1
    have h3 : Keeps Pos.syn d2 d3 := .of_view ((posView_measure ..).trans (posView_measure ..))
    exact h1.trans (.when (h2.trans (h3.trans (.when (keeps_vvtPublish ..).syn))))

theorem syn_camGap (tb : CamTable) (stamp : Ns) (b : Bool) : Keeps Pos.syn d (d.camGap e tb stamp b) := by
  unfold Dev.camGap
  extract_lets p w at_ ok
  split
  extract_lets d1 x
  have h1 : Keeps Pos.syn d d1 := .modPos d
  exact h1.trans (.when (syn_enterSynced ..))

/-- No edge of a cam touches the synthetic wheel. -/
theorem syn_camIn (c : Fin 4) (stamp : Ns) (b : Bool) : Keeps Pos.syn d (d.camIn e c stamp b) := by
  unfold Dev.camIn
  split
  · exact .refl d
  · split
    · exact .ite (.refl d) (syn_camFull ..)
    · exact .when (syn_camGap ..)
    · exact .when (.modPos d)
    · exact .refl d

end
end Sys2Proof.Machine
end

section
/-! Front ends in Hall mode and the decoder while no pass is outstanding (R36 to R40, R48, R52). -/

namespace Sys2Proof.Machine
open Sys2Proof

/-! ### Commands that claim position registers -/

theorem Group.same_modPos {g : Group} (hg : g ≠ .pos) (s : State) (d : Dev) (f : Pos → Pos) :
    g.same { s with dev := d } { s with dev := d.modPos f } := by
  have hrefl := g.same_refl { s with dev := d }
  cases g with
  | pos => exact absurd rfl hg
  | _ => exact hrefl

section
variable {s : State} {c : Instr} {body : Env → Dev → Dev} {d : Dev} {P : State → Prop}

/-- Whatever faults a command raises, it completes with what follows from the position registers at the end of its body. -/
theorem completes_of_stays (hexec : exec c s = runAt (stampOf c) body s) (hbody : s.after (stampOf c) body = d)
    (hP : ∀ s', Stays d s'.dev → P s') : Completes c s P := by
  subst hbody
  unfold Completes
  rw [hexec]
  by_cases hrests : s.rests (stampOf c)
  · obtain ⟨s', hrun, hfollows⟩ := runAt_follows hrests body
    have hend : Stays ((s.after (stampOf c) body).settle s.env) s'.dev :=
      ⟨hfollows.pos, by rw [hfollows.sup], by rw [hfollows.sup], fun h => by rwa [hfollows.sup]⟩
    exact ⟨s', hrun, fun _ => hP s' ((stays_settle ..).trans hend)⟩
  · exact ⟨_, runAt_due _ body s, fun h => absurd h hrests⟩

/-- A command that changes position registers alone. -/
theorem completes_pos (hsettled : s.dev.settled) {q : Pos} {τ : Ns} (hexec : exec c s = runAt (stampOf c) body s)
    (hbody : s.after (stampOf c) body = { s.dev with dtime := τ, pos := q })
    (hP : ∀ s', s'.dev.pos = q → s.touches [.pos] s' → P s') : Completes c s P := by
  refine completes_of_after hexec hbody hsettled.1 fun s' h => hP s' h.pos ?_
  exact h.touches hsettled.1 hsettled.2 fun g hg =>
    Group.same_modPos (by simpa using hg) s { s.dev with dtime := τ } fun _ => q

end

/-! ### Front ends -/

/-- An input as it counts a transition (R40). -/
def WheelInput.counted (level : Bool) (stamp : Ns) (i : WheelInput) : WheelInput :=
  { i with level := level, edges := i.edges + 1, last := stamp }

section
variable (d : Dev)

@[simp] theorem modInput_inputs (i : Fin 6) (f : WheelInput → WheelInput) :
    (d.modInput i f).pos.inputs[i] = f d.pos.inputs[i] := upd_same ..

theorem noise_inputs (i : Fin 6) : (d.noise i).pos.inputs[i] = { d.pos.inputs[i] with noise := d.pos.inputs[i].noise + 1 } :=
  upd_same ..

theorem modInput_modInput (i : Fin 6) (f g : WheelInput → WheelInput) :
    (d.modInput i f).modInput i g = d.modInput i fun x => g (f x) := by
  simp only [Dev.modInput, Dev.modPos, upd_upd]

/-- R323: without relay the outputs stay, and no time is taken off. -/
theorem relay_off (h : bit d.rope.cfg 2 = false) (i : Fin 6) (b : Bool) (t : Ns) : d.relay i b t = d := by
  simp [Dev.relay, h]

theorem unrelay_off (h : bit d.rope.cfg 2 = false) (i : Fin 6) (t : Ns) : d.unrelay i t = t := by
  simp [Dev.unrelay, h]

section
variable {d} {x : WheelEdge} {i : Fin 6} (hinput : x.input = i) (hkind : fld d.pos.inputs[i].cfg 0 2 = 2)
  (hrope : bit d.rope.cfg 2 = false)
include hinput hkind

/-- R39: a level that does not stay for FILT samples passes no filter. -/
theorem frontEdge_filtered (h : x.samples < fld d.pos.inputs[i].cfg 4 8) : d.frontEdge x = (none, d) := by
  subst hinput
  simp [Dev.frontEdge, hkind, h, -Fin.getElem_fin]

include hrope

/-- R37: a transition that EDGE does not select is seen and not counted. -/
theorem frontEdge_unselected (h : fld d.pos.inputs[i].cfg 4 8 ≤ x.samples)
    (hsel : edgeSelected 2 (fld d.pos.inputs[i].cfg 2 2) x.rising = false) :
    d.frontEdge x = (none, d.modInput i fun i => { i with level := x.rising }) := by
  subst hinput
  have hrelay := relay_off (d.modInput x.input fun i => { i with level := x.rising }) hrope
  simp [Dev.frontEdge, hkind, Nat.not_lt_of_le h, hsel, hrelay, -Fin.getElem_fin]

/-- R40: a selected transition counts, and the decoder gets its stamp. -/
theorem frontEdge_selected (h : fld d.pos.inputs[i].cfg 4 8 ≤ x.samples)
    (hsel : edgeSelected 2 (fld d.pos.inputs[i].cfg 2 2) x.rising = true) :
    d.frontEdge x = (some x.stamp, d.modInput i fun i => i.counted x.rising x.stamp) := by
  subst hinput
  have hrelay := relay_off (d.modInput x.input fun i => { i with level := x.rising }) hrope
  have hunrelay := unrelay_off (d.modInput x.input fun i => { i with level := x.rising }) hrope
  simp [Dev.frontEdge, hkind, Nat.not_lt_of_le h, hsel, hrelay, hunrelay, modInput_modInput, -Fin.getElem_fin, WheelInput.counted]

end

/-! ### No pass outstanding -/

variable {d}

theorem runWork_idle (e : Env) (t : Ns) (n : Nat) (h : d.pos.work = []) : d.runWork e t n = d := by
  cases n with
  | zero => rfl
  | succ n =>
    unfold Dev.runWork
    split
    · rfl
    · next x l hw => simp [h] at hw

theorem goto_idle (e : Env) (t : Ns) (h : d.pos.work = []) : d.goto e t = d.at t := by
  unfold Dev.goto
  rw [runWork_idle e t workMax h]

theorem endWork_idle (e : Env) (h : d.pos.work = []) : d.endWork e = d := by
  unfold Dev.endWork
  simp [h]

/-- One crank input in use: its edges are the decoder's (R67). -/
theorem crankIn_primary (e : Env) (stamp t : Ns) (fwd b : Bool) (hsyn : d.synthetic = false) (hdual : d.pos.dualMode = 0) :
    d.crankIn e 0 stamp t fwd b = d.tooth e stamp t fwd b := by
  unfold Dev.crankIn
  simp [hsyn, hdual]

section
variable (e : Env) (stamp t : Ns)

section
variable (hwork : d.pos.work = []) (hcrk : d.pos.wheel.crkPos ≠ 0)
include hwork hcrk

/-- R52: an edge leads out of STOPPED. -/
theorem tooth_stopped (fwd b : Bool) (haway : d.sup.mode ≠ .basecamp) (hsync : d.pos.sync = .stopped) :
    (d.tooth e stamp t fwd b).pos =
      { d.pos.unknown with sync := .counting, runBands := false, lastTooth := some stamp, lastEdge := some stamp, lastIntv := none } := by
  unfold Dev.tooth
  rw [endWork_idle e hwork]
  simp only [Dev.at_pos, hcrk, if_false, hsync]
  exact (keeps_noteFollow (v := id) ..).same haway

theorem tooth_counting (fwd b : Bool) (hsync : d.pos.sync = .counting) :
    d.tooth e stamp t fwd b = (d.at (max t d.pos.passEnd)).counting e stamp (max t d.pos.passEnd) fwd := by
  unfold Dev.tooth
  rw [endWork_idle e hwork]
  simp only [Dev.at_pos, hcrk, if_false, hsync]

theorem tooth_known (b : Bool) {a : Ns} (hsync : d.pos.sync = .full) (hlast : d.pos.lastTooth = some a) (hstamp : a + 4000 ≤ stamp) :
    d.tooth e stamp t true b = (d.at (max t d.pos.passEnd)).known e stamp (max t d.pos.passEnd) b := by
  unfold Dev.tooth
  rw [endWork_idle e hwork]
  have hn : ¬ stamp - a < 4000 := Nat.not_lt.mpr (Nat.le_sub_of_add_le' hstamp)
  simp only [Dev.at_pos, hcrk, if_false, hsync, hlast, Option.getD_some, hn, if_true]

end

/-! ### COUNTING (R40, R52) -/

theorem sub_lt_of_lt_add {a b c : Nat} (hc : 0 < c) (h : b < a + c) : b - a < c := by omega

/-- R40: an edge within 4 µs of the last one is noise. -/
theorem counting_bounce {a : Ns} (hlast : d.pos.lastTooth = some a) (hstamp : stamp < a + 4000) :
    d.counting e stamp t true = d.noise d.pos.activeInput := by
  have hn : stamp - a < 4000 := sub_lt_of_lt_add (by decide) hstamp
  unfold Dev.counting
  simp only [hlast, if_true, hn]
  rfl

/-- R52: the second edge gives the first interval. -/
theorem counting_second {a : Ns} (hlast : d.pos.lastTooth = some a) (hstamp : a + 4000 ≤ stamp) (hintv : d.pos.lastIntv = none)
    (href : d.pos.refEdge = false) :
    let p := (d.counting e stamp t true).pos
    p.inputs = d.pos.inputs ∧ p.sync = d.pos.sync ∧ p.lastTooth = some stamp ∧ p.lastIntv = some (stamp - a, 2 ^ 24) := by
  have hn : ¬ stamp - a < 4000 := Nat.not_lt.mpr (Nat.le_sub_of_add_le' hstamp)
  unfold Dev.counting
  simp only [hlast, if_true, hn, if_false, hintv, Bool.not_true, Bool.false_eq_true]
  unfold Dev.countTooth
  extract_lets d1 d2 d3 here second d4 d5
  have h2 : d2.pos = d1.pos := congrArg PosView.pos (posView_measureSpeed e d1)
  have hidle : (d3.pos.wheel.nogap && d3.pos.refEdge) = false := by
    show (d2.pos.wheel.nogap && d2.pos.refEdge) = false
    rw [h2, show d1.pos.refEdge = d.pos.refEdge from rfl, href, Bool.and_false]
  simp only [hidle, Bool.false_eq_true, if_false]
  show d2.pos.inputs = _ ∧ d2.pos.sync = _ ∧ d2.pos.lastTooth = _ ∧ d2.pos.lastIntv = _
  rw [h2]
  exact ⟨rfl, rfl, rfl, rfl⟩

/-! ### A known position (R48, R50, R60) -/

section
variable (b : Bool) {a : Ns} (hlast : d.pos.lastTooth = some a)
include hlast

theorem known_noise (h : qBelow (stamp - a) (d.pos.t1 (d.pos.wheel.next d.pos.absPos)) d.pos.noiseLim = true) :
    d.known e stamp t b = d.noise d.pos.activeInput := by
  unfold Dev.known
  simp only [hlast, Option.getD_some, h, if_true]

variable (hnoise : qBelow (stamp - a) (d.pos.t1 (d.pos.wheel.next d.pos.absPos)) d.pos.noiseLim = false) (hrev : d.pos.rev = false)
include hnoise hrev

theorem known_accept
    (hin : qIn (stamp - a) (d.pos.t1 (d.pos.wheel.next d.pos.absPos))
      (d.pos.bandOf (d.pos.wheel.tooth (d.pos.wheel.next d.pos.absPos))).1
      (d.pos.bandOf (d.pos.wheel.tooth (d.pos.wheel.next d.pos.absPos))).2 = true)
    (hband : d.pos.bandBroken (d.pos.wheel.next d.pos.absPos) stamp = false) :
    d.known e stamp t b = d.accept e stamp t (d.pos.wheel.next d.pos.absPos) (stamp - a) 0 := by
  unfold Dev.known
  simp only [hlast, Option.getD_some, hnoise, hrev, hin, hband, if_true, Bool.false_eq_true, if_false]

variable (hout : qIn (stamp - a) (d.pos.t1 (d.pos.wheel.next d.pos.absPos))
      (d.pos.bandOf (d.pos.wheel.tooth (d.pos.wheel.next d.pos.absPos))).1
      (d.pos.bandOf (d.pos.wheel.tooth (d.pos.wheel.next d.pos.absPos))).2 = false)
include hout

/-- R60: no band holds the interval. -/
theorem known_misfit (hcls : (d.pos.wheel.tooth (d.pos.wheel.next d.pos.absPos)).cls ≠ 2)
    (hgaps : d.pos.gapsAt (stamp - a) (d.pos.t1 (d.pos.wheel.next d.pos.absPos)) = []) :
    d.known e stamp t b = d.crankCause e 1 stamp t (some stamp) (d.pos.wheel.next d.pos.absPos) := by
  unfold Dev.known
  simp only [hlast, Option.getD_some, hnoise, hrev, hout, hcls, hgaps, List.isEmpty_nil, Bool.not_true, Bool.false_eq_true, if_false]

/-- R60: a normal interval where the gap was expected. -/
theorem known_gapMissing (hcls : (d.pos.wheel.tooth (d.pos.wheel.next d.pos.absPos)).cls = 2)
    (hnorm : qIn (stamp - a) (d.pos.t1 (d.pos.wheel.next d.pos.absPos)) d.pos.normLo d.pos.normHi = true) :
    d.known e stamp t b = d.crankCause e 3 stamp t (some stamp) (d.pos.wheel.next d.pos.absPos) := by
  unfold Dev.known
  simp only [hlast, Option.getD_some, hnoise, hrev, hout, hcls, hnorm, Bool.false_eq_true, if_false, if_true]

end

theorem crankCause_single (cause : Nat) (start : Option Ns) (j : Int) (h : d.pos.dualMode ≠ 2) :
    d.crankCause e cause stamp t start j = d.lose e cause stamp start := by
  unfold Dev.crankCause
  simp [h]

/-- R60: a crank cause leads to COUNTING, which `start` begins. -/
theorem lose_crank {cause : Nat} (start : Option Ns) (haway : d.sup.mode ≠ .basecamp) (hsync : d.pos.sync ≠ .stopped)
    (hcause : 1 ≤ cause ∧ cause ≤ 6) :
    ∃ q edge intv, Lost cause d.pos q ∧ (d.lose e cause stamp start).pos = q.recounting start edge intv := by
  have hcam : [cause].all camCause = false := by
    simp [camCause]; omega
  obtain ⟨-, q, hlost, -, -, hcount⟩ := loseAny_pos (e := e) (cs := [cause]) (tE := stamp) (start := start) haway hsync
    (fun h => absurd h (by simp [hcam]))
  obtain ⟨tooth, edge, intv, htooth, hpos⟩ := hcount (by simp; omega) (by simp [hcam])
  obtain rfl := htooth hcam
  exact ⟨q, edge, intv, hlost, hpos⟩

/-- R48, R91: an accepted tooth in FULL, where no cam may lose sync, moves the position on, and its pass begins. -/
theorem accept_full (j : Int) (n : Nat) (haway : d.sup.mode ≠ .basecamp) (hsync : d.pos.sync = .full) (hdual : d.pos.dualMode = 0)
    (hloss : ∀ c tb, d.pos.wheel.cam c = some tb → tb.loss = false) :
    let p := (d.accept e stamp t j n 0).pos
    p.place = d.pos.placeAt stamp j 0 ∧ p.passEnd = t + 28 ∧ p.work = [(t + 28, .pull stamp t)] := by
  obtain ⟨-, hplace, hlost⟩ := acceptCore_place e d stamp j n 0 haway
  have hlost := hlost hloss
  unfold Dev.accept
  generalize d.acceptCore e stamp j n 0 = y at hplace hlost
  obtain ⟨lost, resid, d1⟩ := y
  simp only at hlost hplace
  subst hlost
  have hdual1 : d1.pos.dualMode = 0 := by
    rw [Pos.dualMode, show d1.pos.dual = d.pos.dual from congrArg Place.dual hplace]
    exact hdual
  have hsync1 : d1.pos.sync = .full := (congrArg Place.sync hplace).trans hsync
  have hpos : (d1.takeResiduals resid).pos = d1.pos := rfl
  simp only [hpos, hdual1, hsync1, Dev.startPass]
  exact ⟨hplace, rfl, rfl⟩

end
end
end Sys2Proof.Machine
end

section
/-! An edge at CRK_0: the front end, the decoder, and what each of its decisions leaves (R38, R39, R48 to R52, R60, R91). -/

namespace Sys2Proof.Machine
open Sys2Proof

/-! ### An edge at CRK_0 -/

/-- EDGE of Hall mode, as the statements spell it (R37). -/
theorem edgeSelected_hall (n : Nat) (b : Bool) :
    edgeSelected 2 n b = true ↔ n = 2 ∨ (n = 0 ∧ b = true) ∨ (n = 1 ∧ b = false) := by
  simp [edgeSelected, or_assoc]

/-- The body of CRANK_EDGE. -/
def crankBody (x : WheelEdge) (e : Env) (d : Dev) : Dev :=
  if d.sup.mode.decodes = false ∨ 2 ≤ x.input.val then d
  else
    match d.frontEdge x with
    | (some stamp, d) => d.crankIn e x.input stamp (x.stamp + d.latency x.input) true false
    | (none, d) => d

theorem exec_crankEdge_body (t : Ns) (x : WheelEdge) (s : State) : exec (.crankEdge t x) s = runAt t (crankBody x) s := rfl

section
variable {s : State} {t : Ns} {x : WheelEdge} (hdecodes : s.dev.sup.mode.decodes = true) (hinput : x.input = 0)
include hdecodes hinput

theorem crankBody_none {d : Dev} (h : (s.dev.at t).frontEdge x = (none, d)) : s.after t (crankBody x) = d := by
  simp [State.after, crankBody, hdecodes, hinput, h]

/-- A counted edge of CRK_0 is the decoder's. -/
theorem crankBody_some {d : Dev} {stamp : Ns} (h : (s.dev.at t).frontEdge x = (some stamp, d)) (hsyn : d.synthetic = false)
    (hdual : d.pos.dualMode = 0) :
    s.after t (crankBody x) = d.tooth s.env stamp (x.stamp + d.latency 0) true false := by
  simp [State.after, crankBody, hdecodes, hinput, h, crankIn_primary _ _ _ _ _ hsyn hdual]

end

/-- R48: the angle moves on with a known position. -/
theorem placeAt_angle {p : Pos} (h : p.synced = true) (stamp : Ns) (k : Int) :
    (p.placeAt stamp k 0).angle =
      ((p.angle + (p.wheel.absAngle k - p.wheel.absAngle p.absPos)) % (p.wheel.cycLen : Int)).toNat := by
  simp [Pos.placeAt, h]

/-- Settles O18: the front end gives the edge to the decoder or not, and each clause is one branch of the decoder (`tooth_stopped`,
`counting_bounce`, `counting_second`, `known_noise`, `accept_full`, `lose_crank`). -/
theorem crankEdge : Obligations.CrankEdge := by
  unfold Obligations.CrankEdge
  intro s t x hinv hdecodes haway hinput hactive hkind hdual hsyn hrope hcrk hloss hwork p tD i taken counted noise lost
  let d := (s.dev.at t).modInput 0 fun i => i.counted x.rising x.stamp
  have hi : d.pos.inputs[(0 : Fin 6)] = i.counted x.rising x.stamp := modInput_inputs ..
  have htD : max (x.stamp + d.latency 0) d.pos.passEnd = tD := by
    unfold Dev.latency
    rw [hi]
    rfl
  have hbody (h : taken) : s.after t (crankBody x) = d.tooth s.env x.stamp (x.stamp + d.latency 0) true false :=
    crankBody_some hdecodes hinput (frontEdge_selected hinput hkind hrope h.1 ((edgeSelected_hall ..).mpr h.2)) hsyn hdual
  have hcompletes {d' : Dev} {P : State → Prop} (h : s.after t (crankBody x) = d') (hP : ∀ s', Stays d' s'.dev → P s') :
      Completes (.crankEdge t x) s P := completes_of_stays (exec_crankEdge_body ..) h hP
  have hcounted {s' : State} (h : s'.dev.pos.inputs = d.pos.inputs) : counted s' := by
    unfold counted
    rw [h, hi]
    exact ⟨rfl, rfl⟩
  have hnoise {s' : State} (h : Stays ((d.at tD).noise d.pos.activeInput) s'.dev) : noise s' := by
    have hact : d.pos.activeInput = 0 := if_neg (by simp [d, Dev.modInput, hactive])
    have hin : s'.dev.pos.inputs[(0 : Fin 6)] = { i.counted x.rising x.stamp with noise := i.noise + 1 } := by
      rw [h.pos, hact, noise_inputs, Dev.at_pos, hi]
      rfl
    unfold noise counted
    rw [hin, h.pos]
    exact ⟨⟨rfl, rfl⟩, rfl, rfl, rfl, rfl⟩
  have hlost {cause : Nat} {s' : State} (hcause : 1 ≤ cause ∧ cause ≤ 6) (hfull : p.sync = .full)
      (h : Stays ((d.at tD).lose s.env cause x.stamp (some x.stamp)) s'.dev) : lost cause s' := by
    obtain ⟨q, edge, intv, hq, hpos⟩ := lose_crank (d := d.at tD) s.env x.stamp (some x.stamp) haway
      (fun hs => absurd (hfull.symm.trans hs) (by decide)) hcause
    have hpos := h.pos.trans hpos
    refine ⟨hcounted ?_, ?_⟩
    · rw [hpos]; exact hq.inputs
    · rw [hpos]; exact ⟨rfl, hq.lossCause, hq.lossCount, hq.lossSeen, rfl⟩
  refine ⟨?dropped, ?unselected, ?stopped, ?bounce, ?second, ?full⟩
  case dropped =>
    intro hfilt
    exact completes_untouched (c := .crankEdge t x) hinv.2 (exec_crankEdge_body ..)
      (crankBody_none hdecodes hinput (frontEdge_filtered hinput hkind hfilt))
  case unselected =>
    intro hfilt hnot
    have hsel : edgeSelected 2 (fld i.cfg 2 2) x.rising = false :=
      Bool.eq_false_iff.mpr fun h => hnot ⟨hfilt, (edgeSelected_hall ..).mp h⟩
    refine completes_pos (c := .crankEdge t x) hinv.2 (exec_crankEdge_body ..)
      (crankBody_none hdecodes hinput (frontEdge_unselected hinput hkind hrope hfilt hsel)) fun s' hpos htouches => ⟨?_, htouches⟩
    rw [hpos]
    exact modInput_inputs ..
  case stopped =>
    intro htaken hsync
    refine hcompletes (hbody htaken) fun s' h => ?_
    have hpos := h.pos.trans (tooth_stopped (d := d) s.env _ _ hwork hcrk true false haway hsync)
    refine ⟨hcounted ?_, ?_⟩
    · rw [hpos]; rfl
    · rw [hpos]; exact ⟨rfl, rfl, rfl, rfl⟩
  case bounce =>
    intro htaken hsync a hlast hstamp hle
    refine hcompletes (hbody htaken) fun s' h => hnoise ?_
    rwa [tooth_counting (d := d) s.env _ _ hwork hcrk true false hsync, htD,
      counting_bounce (d := d.at tD) s.env _ _ hlast hstamp] at h
  case second =>
    intro htaken hsync hintv href a hlast hstamp
    refine hcompletes (hbody htaken) fun s' h => ?_
    rw [tooth_counting (d := d) s.env _ _ hwork hcrk true false hsync, htD] at h
    obtain ⟨hin, hs, ht, hn⟩ := counting_second (d := d.at tD) s.env x.stamp tD hlast hstamp hintv href
    refine ⟨hcounted ?_, ?_⟩
    · rw [h.pos]; exact hin
    · rw [h.pos]; exact ⟨hs.trans hsync, ht, hn⟩
  case full =>
    intro htaken hsync hrev a hlast hstamp j n t1 band
    have hknown : s.after t (crankBody x) = (d.at tD).known s.env x.stamp tD false := by
      rw [hbody htaken, tooth_known (d := d) s.env _ _ hwork hcrk false hsync hlast hstamp, htD]
    have hlose {cause : Nat} (hcause : 1 ≤ cause ∧ cause ≤ 6)
        (h : (d.at tD).known s.env x.stamp tD false = (d.at tD).crankCause s.env cause x.stamp tD (some x.stamp) j) :
        Completes (.crankEdge t x) s (lost cause) := by
      have hsingle : (d.at tD).pos.dualMode ≠ 2 := fun h2 => absurd (hdual.symm.trans h2) (by decide)
      rw [crankCause_single _ _ _ _ _ _ hsingle] at h
      exact hcompletes (hknown.trans h) fun s' => hlost hcause hsync
    refine ⟨fun hq => ?noise, fun hq hin hband => ?accepted, fun hq hout hcls hgaps => ?misfit, fun hq hout hcls hnorm => ?gapMissing⟩
    case noise =>
      have hbody := hknown.trans (known_noise (d := d.at tD) s.env _ _ false hlast hq)
      exact hcompletes hbody fun s' => hnoise
    case accepted =>
      have hbody : s.after t (crankBody x) = (d.at tD).accept s.env x.stamp tD j n 0 :=
        hknown.trans (known_accept (d := d.at tD) s.env _ _ false hlast hq hrev hin hband)
      refine hcompletes hbody fun s' h => ?_
      obtain ⟨hplace, hend, hwork'⟩ := accept_full (d := d.at tD) s.env x.stamp tD j n haway hsync hdual hloss
      rw [← h.pos] at hplace hend hwork'
      have hsynced : p.synced = true := by simp [Pos.synced, hsync]
      exact ⟨hcounted (congrArg Place.inputs hplace), (congrArg Place.sync hplace).trans hsync, congrArg Place.absPos hplace,
        congrArg Place.lastTooth hplace, congrArg Place.nkPosn hplace, congrArg Place.lossCount hplace, hend, hwork',
        (congrArg Place.angle hplace).trans (placeAt_angle hsynced x.stamp j)⟩
    case misfit => exact hlose (by decide) (known_misfit (d := d.at tD) s.env _ _ false hlast hq hrev hout hcls hgaps)
    case gapMissing => exact hlose (by decide) (known_gapMissing (d := d.at tD) s.env _ _ false hlast hq hrev hout hcls hnorm)

end Sys2Proof.Machine
end

section
/-! Timeouts of the teeth, stall, and POS_RESID.CLR (R49, R62, R100). -/

namespace Sys2Proof.Machine
open Sys2Proof

/-! ### TOOTH_TIMEOUT -/

/-- The body of TOOTH_TIMEOUT. -/
def toothTimeoutBody (e : Env) (d : Dev) : Dev :=
  let p := d.pos
  if d.sup.mode.decodes = false ∨ p.rev = true ∨ p.sync = .stopped then d
  else
    match p.primFailed, p.lastTooth with
    | some (_, c), _ =>
      match p.secPos, p.secLast with
      | some x, some a => if p.timedOut (p.wheel.next x) a d.dtime then d.lose e c d.dtime none else d
      | _, _ => d.lose e c d.dtime none
    | none, some a =>
      let j := p.wheel.next p.absPos
      if p.timedOut j a d.dtime then
        if p.sync = .counting then
          d.modPos fun p => { p with lastTooth := none, lastIntv := none, normals := 0, refFirst := none, refEdge := false }
        else d.crankCause e 4 d.dtime d.dtime none j
      else d
    | none, none => d

theorem exec_toothTimeout_body (t : Ns) (s : State) : exec (.toothTimeout t) s = runAt t toothTimeoutBody s := rfl

section
variable (e : Env) {d : Dev} (hdecodes : d.sup.mode.decodes = true) (hprim : d.pos.primFailed = none) (hrev : d.pos.rev = false)
  (hsync : d.pos.sync ≠ .stopped) {a : Ns} (hlast : d.pos.lastTooth = some a)
include hdecodes hprim hrev hsync hlast

/-- R49: before the band's upper limit nothing happens. -/
theorem toothTimeoutBody_early (h : d.pos.timedOut (d.pos.wheel.next d.pos.absPos) a d.dtime = false) :
    toothTimeoutBody e d = d := by
  simp [toothTimeoutBody, hdecodes, hprim, hrev, hsync, hlast, h]

variable (h : d.pos.timedOut (d.pos.wheel.next d.pos.absPos) a d.dtime = true)
include h

omit hsync in
/-- COUNTING starts over. -/
theorem toothTimeoutBody_counting (hcount : d.pos.sync = .counting) :
    toothTimeoutBody e d =
      d.modPos fun p => { p with lastTooth := none, lastIntv := none, normals := 0, refFirst := none, refEdge := false } := by
  simp [toothTimeoutBody, hdecodes, hprim, hrev, hlast, h, hcount]

theorem toothTimeoutBody_known (hknown : d.pos.sync ≠ .counting) :
    toothTimeoutBody e d = d.crankCause e 4 d.dtime d.dtime none (d.pos.wheel.next d.pos.absPos) := by
  simp [toothTimeoutBody, hdecodes, hprim, hrev, hsync, hlast, h, hknown]

end

/-! ### STALL -/

/-- The body of STALL. -/
def stallBody (e : Env) (d : Dev) : Dev :=
  let ms := fld d.pos.syncCfg 8 8
  match d.pos.lastEdge with
  | some a =>
    if d.sup.mode.decodes = true ∧ d.pos.sync ≠ .stopped ∧ ms ≠ 0 ∧ a + ms * 1000000 ≤ d.dtime then d.lose e 11 d.dtime none else d
  | none => d

theorem exec_stall_body (t : Ns) (s : State) : exec (.stall t) s = runAt t stallBody s := rfl

/-- R62: no edge for STALL ms. -/
theorem stallBody_due (e : Env) {d : Dev} {a : Ns} (hdecodes : d.sup.mode.decodes = true) (hsync : d.pos.sync ≠ .stopped)
    (hlast : d.pos.lastEdge = some a) (hms : fld d.pos.syncCfg 8 8 ≠ 0) (h : a + fld d.pos.syncCfg 8 8 * 1000000 ≤ d.dtime) :
    stallBody e d = d.lose e 11 d.dtime none := by
  simp only [stallBody, hlast]
  exact if_pos ⟨hdecodes, hsync, hms, h⟩

/-- A stall leads to STOPPED, whatever the mode. -/
theorem lose_stall (e : Env) {d : Dev} (tE : Ns) (haway : d.sup.mode ≠ .basecamp) (hsync : d.pos.sync ≠ .stopped) :
    ∃ q, Lost 11 d.pos q ∧ (d.lose e 11 tE none).pos = q.toStopped ∧ (d.lose e 11 tE none).sup.stop1s = false ∧
      (d.lose e 11 tE none).sup.stoppedAt = d.dtime := by
  obtain ⟨-, q, hlost, hstopped, -⟩ := loseAny_pos (e := e) (cs := [11]) (tE := tE) (start := none) haway hsync
    (fun h => absurd h (by decide))
  obtain ⟨hpos, hstop1s, hat⟩ := hstopped (.inl rfl)
  exact ⟨q, hlost, hpos, hstop1s, hat⟩

/-- Settles O21: before its limit TOOTH_TIMEOUT leaves the device, after it COUNTING starts over and a known position is lost
(`lose_crank`); STALL is a loss that leads to STOPPED (`lose_stall`). -/
theorem positionTimeouts : Obligations.PositionTimeouts := by
  unfold Obligations.PositionTimeouts
  intro s t hinv hdecodes haway hprim p j
  refine ⟨?early, ?counting, ?full, ?stall, ?clear⟩
  case early =>
    intro a hrev hsync hlast htime
    exact completes_untouched (c := .toothTimeout t) hinv.2 (exec_toothTimeout_body ..)
      (toothTimeoutBody_early (d := s.dev.at t) s.env hdecodes hprim hrev hsync hlast htime)
  case counting =>
    intro a hrev hsync hlast htime
    refine completes_pos (c := .toothTimeout t) hinv.2 (exec_toothTimeout_body ..)
      (toothTimeoutBody_counting (d := s.dev.at t) s.env hdecodes hprim hrev hlast htime hsync)
      fun s' hpos htouches => ?_
    rw [hpos]
    exact ⟨hsync, rfl, rfl, htouches⟩
  case full =>
    intro a hrev hsync hdual hlast htime
    have hnot {x : SyncState} (hx : .full ≠ x) : p.sync ≠ x := hsync ▸ hx
    have hbody := (toothTimeoutBody_known (d := s.dev.at t) s.env hdecodes hprim hrev (hnot (by decide)) hlast htime
      (hnot (by decide))).trans
      (crankCause_single (d := s.dev.at t) _ _ _ _ _ _ fun h2 => absurd (hdual.symm.trans h2) (by decide))
    refine completes_of_stays (c := .toothTimeout t) (exec_toothTimeout_body ..) hbody fun s' h => ?_
    obtain ⟨q, edge, intv, hq, hpos⟩ := lose_crank (d := s.dev.at t) s.env (s.dev.at t).dtime none haway (hnot (by decide))
      (by decide : 1 ≤ 4 ∧ 4 ≤ 6)
    rw [h.pos.trans hpos]
    exact ⟨rfl, hq.lossCause, hq.lossCount, rfl⟩
  case stall =>
    intro a hsync hlast hms htime
    refine completes_of_stays (c := .stall t) (exec_stall_body ..)
      (stallBody_due (d := s.dev.at t) s.env hdecodes hsync hlast hms htime) fun s' h => ?_
    obtain ⟨q, hq, hpos, hstop1s, hat⟩ := lose_stall (d := s.dev.at t) s.env (s.dev.at t).dtime haway hsync
    rw [h.pos.trans hpos]
    exact ⟨rfl, hq.lossCause, hq.lossCount, rfl, rfl, h.stop1s.trans hstop1s, h.stoppedAt.trans hat⟩
  case clear =>
    intro q
    refine completes_of_after (c := .posResidClr t q) rfl (d := ((s.dev.at t).disarm q).clearResid) rfl hinv.2.1 fun s' h => ?_
    refine ⟨h.pos, h.touches hinv.2.1 hinv.2.2 fun g hg => ?_⟩
    obtain ⟨hgpos, hpaths⟩ : g ≠ .pos ∧ g ≠ .paths := by simpa using hg
    exact Group.same_trans (Group.same_at s t) (Group.same_trans (Group.same_modCtx s _ hpaths q _)
      (Group.same_modPos hgpos s ((s.dev.at t).disarm q) _))

end Sys2Proof.Machine
end

section
/-! An edge at CAM_0 (R45, R54, R60). -/

namespace Sys2Proof.Machine
open Sys2Proof

/-! ### An edge of a cam in FULL -/

/-- What a hit in FULL leaves but for the cam's average. -/
def Pos.judged (p : Pos) : Place × Vector CamRun 4 := (p.place, p.cams)

/-- The angle at which an edge of a cam falls. -/
def Pos.camAngle (p : Pos) (stamp : Ns) : Angle := ((p.angle + p.offsetNear stamp) % (p.wheel.cycLen : Int)).toNat

theorem invert_congr {p q : Pos} (hnhat : q.nhat = p.nhat) (hdelta : q.delta = p.delta) (sp n : Nat) (el : Int) (k lo : Nat) :
    q.invert sp n el k lo = p.invert sp n el k lo := by
  induction k generalizing lo with
  | zero => rfl
  | succ k ih => simp only [Pos.invert, hnhat, hdelta, ih]

theorem offsetAt_congr {p q : Pos} (hlast : q.lastTooth = p.lastTooth) (hwheel : q.wheel = p.wheel) (habs : q.absPos = p.absPos)
    (hshape : q.shape = p.shape) (hnhat : q.nhat = p.nhat) (hdelta : q.delta = p.delta) (t : Ns) : q.offsetAt t = p.offsetAt t := by
  unfold Pos.offsetAt
  simp only [hlast, hwheel, habs, hshape, invert_congr hnhat hdelta]

/-- The counts of the inputs are no part of the model of the crank's motion. -/
theorem camAngle_inputs (p : Pos) (x : Vector WheelInput 6) (stamp : Ns) :
    ({ p with inputs := x } : Pos).camAngle stamp = p.camAngle stamp := by
  have hat (t : Ns) : ({ p with inputs := x } : Pos).offsetAt t = p.offsetAt t :=
    offsetAt_congr (q := { p with inputs := x }) (p := p) rfl rfl rfl rfl rfl rfl t
  simp only [Pos.camAngle, Pos.offsetNear, hat]

section
variable (e : Env) {d : Dev} (c : Fin 4) {tb : CamTable} (stamp : Ns) {falling : Bool}

/-- R45: an edge in a window hits it, and is measured where VVT asks for it. -/
theorem camFull_hit {i : Nat} {l : List Nat} (h : tb.windows d.pos.wheel (d.pos.camAngle stamp) falling = i :: l) :
    Keeps Pos.judged (d.modPos fun p => { p with cams := upd p.cams c fun r => { r with hits := (i :: l) ++ r.hits } })
      (d.camFull e c tb stamp falling) := by
  unfold Dev.camFull
  extract_lets p w u a cyc d1
  split
  · next hw => exact absurd (h.symm.trans hw) (List.cons_ne_nil i l)
  · next _ _ hw =>
    obtain ⟨rfl, rfl⟩ := List.cons.inj (h.symm.trans hw)
    extract_lets d2 dev d3 d4
    have h3 : Keeps Pos.judged d2 d3 := .modPos d2
    have h4 : Keeps Pos.judged d3 d4 := .of_view ((posView_measure ..).trans (posView_measure ..))
    exact .when (h3.trans (h4.trans (.when (keeps_vvtPublish ..))))

/-- R45: an edge in no window is noise, and where the cam may lose sync a loss. -/
theorem camFull_spurious (h : tb.windows d.pos.wheel (d.pos.camAngle stamp) falling = []) :
    d.camFull e c tb stamp falling =
      if tb.loss then (d.noise (Fin.ofNat 6 (2 + c.val))).lose e 7 stamp none else d.noise (Fin.ofNat 6 (2 + c.val)) := by
  unfold Dev.camFull
  extract_lets p w u a cyc d1
  rw [show tb.windows w a falling = [] from h]

theorem camIn_full (hcam : d.pos.wheel.cam c.val = some tb) (hsync : d.pos.sync = .full) (hrev : d.pos.rev = false) :
    d.camIn e c stamp falling = d.camFull e c tb stamp falling := by
  unfold Dev.camIn
  simp [hcam, hsync, hrev]

theorem camIn_stopped (hsync : d.pos.sync = .stopped) : d.camIn e c stamp falling = d := by
  unfold Dev.camIn
  simp only [hsync]
  split <;> rfl

/-- A spurious edge of a cam leads to HALF where the policy has LIMP for it, else to COUNTING (R60). -/
theorem lose_camSpurious (haway : d.sup.mode ≠ .basecamp) (hsync : d.pos.sync = .full) :
    ∃ q, Lost 7 d.pos q ∧
      (d.pos.limpPolicy 7 = true → ∃ x, (d.lose e 7 stamp none).pos = Pos.entered .half x (x + 1) false q) ∧
      (d.pos.limpPolicy 7 = false → ∃ tooth edge intv, (d.lose e 7 stamp none).pos = q.recounting tooth edge intv) := by
  obtain ⟨-, q, hlost, -, hhalf, hcount⟩ := loseAny_pos (e := e) (cs := [7]) (tE := stamp) (start := none) haway
    (fun h => absurd (hsync.symm.trans h) (by decide)) (fun _ => hsync)
  have hgoes : ¬([7].min?.getD 12 = 11 ∨ ([7].min?.getD 12 = 12 ∧ d.sup.mode = .bivouac)) := by simp
  refine ⟨q, hlost, fun hlimp => hhalf hgoes ⟨by decide, by simp [hlimp]⟩, fun hlimp => ?_⟩
  obtain ⟨tooth, edge, intv, -, hpos⟩ := hcount hgoes (by simp [hlimp])
  exact ⟨tooth, edge, intv, hpos⟩

end

/-! ### CAM_EDGE -/

/-- The body of CAM_EDGE. -/
def camBody (x : WheelEdge) (e : Env) (d : Dev) : Dev :=
  if d.sup.mode.decodes = false ∨ x.input.val < 2 then d
  else match d.frontEdge x with
    | (some stamp, d) =>
      if d.synthetic then d
      else (d.goto e (x.stamp + d.latency x.input)).camIn e (Fin.ofNat 4 (x.input.val - 2)) stamp (!x.rising)
    | (none, d) => d

theorem exec_camEdge_body (t : Ns) (x : WheelEdge) (s : State) : exec (.camEdge t x) s = runAt t (camBody x) s := rfl

/-- A counted edge of CAM_0 is the decoder's, at the moment it is received. -/
theorem camBody_some {s : State} {t : Ns} {x : WheelEdge} {d : Dev} {stamp : Ns} (hdecodes : s.dev.sup.mode.decodes = true)
    (hinput : x.input = 2) (h : (s.dev.at t).frontEdge x = (some stamp, d)) (hsyn : d.synthetic = false) (hwork : d.pos.work = []) :
    s.after t (camBody x) = (d.at (x.stamp + d.latency 2)).camIn s.env 0 stamp (!x.rising) := by
  simp [State.after, camBody, hdecodes, hinput, h, hsyn, goto_idle _ _ hwork]

/-- Settles O20: a counted edge of CAM_0 hits a window (`camFull_hit`) or none (`camFull_spurious`), and then may lose sync
(`lose_camSpurious`). -/
theorem camEdge : Obligations.CamEdge := by
  unfold Obligations.CamEdge
  intro s t x tb hinv hdecodes haway hinput hkind hedge hfilt hsyn hrope hcam hwork p a counted
  let d := (s.dev.at t).modInput 2 fun i => i.counted x.rising x.stamp
  let d1 := d.at (x.stamp + d.latency 2)
  have hbody : s.after t (camBody x) = d1.camIn s.env 0 x.stamp (!x.rising) :=
    camBody_some hdecodes hinput (frontEdge_selected hinput hkind hrope hfilt ((edgeSelected_hall ..).mpr (.inl hedge))) hsyn hwork
  have hi : d1.pos.inputs[(2 : Fin 6)] = p.inputs[(2 : Fin 6)].counted x.rising x.stamp := modInput_inputs ..
  have hangle : d1.pos.camAngle x.stamp = a := camAngle_inputs ..
  have hwindows {l : List Nat} (h : tb.windows p.wheel a (!x.rising) = l) :
      tb.windows d1.pos.wheel (d1.pos.camAngle x.stamp) (!x.rising) = l := by
    rw [hangle]
    exact h
  have hcounted {s' : State} (h : s'.dev.pos.inputs = d1.pos.inputs) : counted s' := by
    unfold counted
    rw [h, hi]
    rfl
  have hspurious {s' : State} (h : s'.dev.pos.inputs = (d1.noise 2).pos.inputs) :
      counted s' ∧ s'.dev.pos.inputs[(2 : Fin 6)].noise = p.inputs[(2 : Fin 6)].noise + 1 := by
    unfold counted
    rw [h, noise_inputs, hi]
    exact ⟨rfl, rfl⟩
  have hfull (hsync : p.sync = .full) (hrev : p.rev = false) (hwin : tb.windows p.wheel a (!x.rising) = []) :
      s.after t (camBody x) = if tb.loss then (d1.noise 2).lose s.env 7 x.stamp none else d1.noise 2 :=
    (hbody.trans (camIn_full (d := d1) s.env 0 x.stamp hcam hsync hrev)).trans
      (camFull_spurious (d := d1) s.env 0 x.stamp (hwindows hwin))
  refine ⟨?stopped, ?hit, ?noise, ?loss⟩
  case stopped =>
    intro hsync
    refine completes_pos (c := .camEdge t x) hinv.2 (exec_camEdge_body ..) (hbody.trans (camIn_stopped (d := d1) _ _ _ hsync))
      fun s' hpos htouches => ⟨hcounted (congrArg Pos.inputs hpos), ?_, htouches⟩
    rw [hpos]
    exact hsync
  case hit =>
    intro hsync hrev i l hwin
    refine completes_of_stays (c := .camEdge t x) (exec_camEdge_body ..)
      (hbody.trans (camIn_full (d := d1) _ _ _ hcam hsync hrev)) fun s' h => ?_
    have hjudged := (camFull_hit (d := d1) s.env 0 x.stamp (hwindows hwin)).same haway
    rw [← h.pos] at hjudged
    have hplace := congrArg Prod.fst hjudged
    have hcams := congrArg Prod.snd hjudged
    refine ⟨hcounted (congrArg Place.inputs hplace), (congrArg Place.sync hplace).trans hsync, ?_, congrArg Place.absPos hplace⟩
    rw [show s'.dev.pos.cams = _ from hcams]
    exact congrArg CamRun.hits (upd_same ..)
  case noise =>
    intro hsync hrev hwin hloss
    refine completes_pos (c := .camEdge t x) hinv.2 (exec_camEdge_body ..)
      ((hfull hsync hrev hwin).trans (if_neg (by simp [hloss]))) fun s' hpos htouches => ?_
    obtain ⟨hcount, hnoise⟩ := hspurious (congrArg Pos.inputs hpos)
    refine ⟨hcount, ?_, hnoise, htouches⟩
    rw [hpos]
    exact hsync
  case loss =>
    intro hsync hrev hwin hloss
    refine completes_of_stays (c := .camEdge t x) (exec_camEdge_body ..)
      ((hfull hsync hrev hwin).trans (if_pos hloss)) fun s' h => ?_
    obtain ⟨q, hq, hhalf, hcount⟩ := lose_camSpurious (d := d1.noise 2) s.env x.stamp haway hsync
    have hinputs {s' : State} (h : s'.dev.pos.inputs = q.inputs) : counted s' := (hspurious (h.trans hq.inputs)).1
    have hlimp : (d1.noise 2).pos.limpPolicy 7 = p.limpPolicy 7 := rfl
    rw [hlimp] at hhalf hcount
    cases hp : p.limpPolicy 7 with
    | true =>
      obtain ⟨y, hpos⟩ := hhalf hp
      have hpos := h.pos.trans hpos
      have hin : s'.dev.pos.inputs = q.inputs := by rw [hpos]; rfl
      rw [hpos]
      exact ⟨hinputs hin, hq.lossCause, hq.lossCount, rfl⟩
    | false =>
      obtain ⟨tooth, edge, intv, hpos⟩ := hcount hp
      have hpos := h.pos.trans hpos
      have hin : s'.dev.pos.inputs = q.inputs := by rw [hpos]; rfl
      rw [hpos]
      exact ⟨hinputs hin, hq.lossCause, hq.lossCount, rfl⟩

end Sys2Proof.Machine
end

section
/-! Direction-coded pulses and the edges of the synthetic wheel (R39, R41, R52, R382). -/

namespace Sys2Proof.Machine
open Sys2Proof

/-! ### DIRECTION_PULSE -/

/-- The body of DIRECTION_PULSE. -/
def pulseBody (input : Fin 6) (lead trail : Ns) (e : Env) (d : Dev) : Dev :=
  let i := d.pos.inputs[input]
  let width := trail - lead
  let falling := fld i.cfg 2 2 == 1
  if d.sup.mode.decodes = false ∨ fld i.cfg 0 2 ≠ 3 ∨ width < 4 * fld i.cfg 4 8 then d
  else
    let d := (((d.modInput input fun i => { i with level := falling }).relay input (!falling) lead).relay input falling trail)
    let fwd := decide (width < fld i.cfg 24 10 * 250)
    if !fwd ∧ width ≤ fld i.cfg 34 10 * 250 then d.modInput input fun i => { i with dirBad := i.dirBad + 1 }
    else
      let stamp := d.unrelay input lead
      let tD := trail + d.latency input
      let d := d.modInput input fun i => { i with edges := i.edges + 1, last := stamp }
      if input.val < 2 then d.crankIn e input stamp tD fwd true
      else if d.synthetic then d
      else (d.goto e tD).camIn e (Fin.ofNat 4 (input.val - 2)) stamp falling

theorem exec_directionPulse_body (t : Ns) (input : Fin 6) (lead trail : Ns) (s : State) :
    exec (.directionPulse t input lead trail) s = runAt t (pulseBody input lead trail) s := rfl

theorem relay_modInput {d : Dev} (h : bit d.rope.cfg 2 = false) (i j : Fin 6) (f : WheelInput → WheelInput) (b : Bool) (t : Ns) :
    (d.modInput i f).relay j b t = d.modInput i f := relay_off (d.modInput i f) h j b t

theorem unrelay_modInput {d : Dev} (h : bit d.rope.cfg 2 = false) (i j : Fin 6) (f : WheelInput → WheelInput) (t : Ns) :
    (d.modInput i f).unrelay j t = t := unrelay_off (d.modInput i f) h j t

section
variable (e : Env) {lead trail : Ns} {d : Dev}

/-- R39: a pulse shorter than the filter is none. -/
theorem pulseBody_short {input : Fin 6} (h : trail - lead < 4 * fld d.pos.inputs[input].cfg 4 8) :
    pulseBody input lead trail e d = d := by
  unfold pulseBody
  exact if_pos (.inr (.inr h))

section
variable (hdecodes : d.sup.mode.decodes = true) (hkind : fld d.pos.inputs[(0 : Fin 6)].cfg 0 2 = 3)
  (hlong : ¬trail - lead < 4 * fld d.pos.inputs[(0 : Fin 6)].cfg 4 8) (hrope : bit d.rope.cfg 2 = false)
include hdecodes hkind hlong hrope

/-- R41: a width between the two limits says no direction. -/
theorem pulseBody_bad (hfwd : ¬trail - lead < fld d.pos.inputs[(0 : Fin 6)].cfg 24 10 * 250)
    (hrev : ¬fld d.pos.inputs[(0 : Fin 6)].cfg 34 10 * 250 < trail - lead) :
    pulseBody 0 lead trail e d = d.modInput 0 fun i =>
      { i with level := fld d.pos.inputs[(0 : Fin 6)].cfg 2 2 == 1, dirBad := i.dirBad + 1 } := by
  unfold pulseBody
  simp [hdecodes, hkind, hlong, relay_modInput hrope, hfwd, Nat.le_of_not_lt hrev, modInput_modInput, -Fin.getElem_fin]

/-- R41: one within a limit is an edge at its leading edge. -/
theorem pulseBody_edge (hsyn : d.synthetic = false) (hdual : d.pos.dualMode = 0)
    (hwidth : trail - lead < fld d.pos.inputs[(0 : Fin 6)].cfg 24 10 * 250 ∨
      fld d.pos.inputs[(0 : Fin 6)].cfg 34 10 * 250 < trail - lead) :
    pulseBody 0 lead trail e d =
      (d.modInput 0 fun i => i.counted (fld d.pos.inputs[(0 : Fin 6)].cfg 2 2 == 1) lead).tooth e lead (trail + d.latency 0)
        (decide (trail - lead < fld d.pos.inputs[(0 : Fin 6)].cfg 24 10 * 250)) true := by
  unfold pulseBody
  extract_lets i width falling d1 fwd stamp tD d2
  have hpass : ¬(d.sup.mode.decodes = false ∨ fld i.cfg 0 2 ≠ 3 ∨ width < 4 * fld i.cfg 4 8) := by
    rintro (h | h | h)
    · exact absurd (hdecodes.symm.trans h) (by decide)
    · exact h hkind
    · exact hlong h
  have hdir : ¬((!fwd) = true ∧ width ≤ fld i.cfg 34 10 * 250) := by
    rintro ⟨hfwd, hle⟩
    have hnot : ¬width < fld i.cfg 24 10 * 250 := by simpa [fwd] using hfwd
    exact hwidth.elim hnot (Nat.not_lt_of_le hle)
  have h1 : d1 = d.modInput 0 fun i => { i with level := falling } := by
    simp only [d1, relay_modInput hrope]
  have hstamp : stamp = lead := by
    simp only [stamp, h1, unrelay_modInput hrope]
  have htD : tD = trail + d.latency 0 := by
    simp only [tD, h1, Dev.latency, modInput_inputs]
  have h2 : d2 = d.modInput 0 fun i => i.counted falling lead := by
    simp only [d2, h1, hstamp, modInput_modInput]
    rfl
  clear_value d1 d2 stamp tD
  subst h2 hstamp htD
  rw [if_neg hpass, if_neg hdir, if_pos (by decide)]
  exact crankIn_primary (d := d.modInput 0 fun i => i.counted falling stamp) _ _ _ _ _ hsyn hdual

end
end

/-! ### SYNTHETIC_EDGE -/

/-- The edges of the synthetic wheel at one angle, crank first. -/
def Dev.edgesAt (e : Env) (w : Wheel) (a : Angle) (stamp : Ns) (d : Dev) : Dev :=
  let d := if (List.range w.cycPos).any fun i => (w.tooth i).present && w.angleAt i == a
    then d.tooth e stamp stamp true false else d
  (List.finRange 4).foldl (init := d) fun d c =>
    match w.cam c.val with
    | some tb => tb.entries.foldl (init := d) fun d x => if x.angle = a then d.camIn e c stamp x.falling else d
    | none => d

theorem syn_edgesAt (e : Env) (w : Wheel) (a : Angle) (stamp : Ns) (d : Dev) : Keeps Pos.syn d (d.edgesAt e w a stamp) := by
  unfold Dev.edgesAt
  extract_lets d1
  have h1 : Keeps Pos.syn d d1 := .when (syn_tooth ..)
  refine h1.trans (.foldl _ _ _ fun d c => ?_)
  split
  · exact .foldl _ _ _ fun d x => .when (syn_camIn ..)
  · exact .refl d

/-- Angle steps from the synthetic wheel's last edge to its edges (R382). -/
def Pos.synSteps (p : Pos) : List Nat :=
  p.wheel.synAngles.map fun a => if p.wheel.ahead p.synAngle a = 0 then p.wheel.cycLen else p.wheel.ahead p.synAngle a

/-- The body of SYNTHETIC_EDGE. -/
def syntheticBody (e : Env) (d : Dev) : Dev :=
  match d.pos.synTime with
  | none => d
  | some t0 =>
    match d.pos.synSteps.min? with
    | none => d
    | some n =>
      let stamp := t0 + divRoundN (n * 1000000000) (6 * fld d.sup.svc 16 16 * degree)
      if !d.synthetic ∨ d.dtime < stamp then d
      else
        let a := (d.pos.synAngle + n) % d.pos.wheel.cycLen
        (d.modPos fun p => { p with synAngle := a, synTime := some stamp }).edgesAt e d.pos.wheel a stamp

theorem exec_syntheticEdge_body (t : Ns) (s : State) : exec (.syntheticEdge t) s = runAt t syntheticBody s := rfl

section
variable (e : Env) {d : Dev} {t0 : Ns} {n : Nat} (htime : d.pos.synTime = some t0) (hmin : d.pos.synSteps.min? = some n)
include htime hmin

theorem syntheticBody_early (h : d.dtime < t0 + divRoundN (n * 1000000000) (6 * fld d.sup.svc 16 16 * degree)) :
    syntheticBody e d = d := by
  simp only [syntheticBody, htime, hmin]
  exact if_pos (.inr h)

/-- R382: the edge comes one angle step further on. -/
theorem syntheticBody_due (hsyn : d.synthetic = true)
    (h : t0 + divRoundN (n * 1000000000) (6 * fld d.sup.svc 16 16 * degree) ≤ d.dtime) :
    syntheticBody e d =
      (d.modPos fun p => { p with
        synAngle := (d.pos.synAngle + n) % d.pos.wheel.cycLen
        synTime := some (t0 + divRoundN (n * 1000000000) (6 * fld d.sup.svc 16 16 * degree)) }).edgesAt e d.pos.wheel
        ((d.pos.synAngle + n) % d.pos.wheel.cycLen)
        (t0 + divRoundN (n * 1000000000) (6 * fld d.sup.svc 16 16 * degree)) := by
  simp only [syntheticBody, htime, hmin]
  exact if_neg (not_or.mpr ⟨by simp [hsyn], Nat.not_lt_of_le h⟩)

end

/-! ### The obligation -/

/-- Settles O19: a pulse is no edge, a bad one, or an edge of the crank (`pulseBody_edge`); the synthetic wheel moves on before
its edges reach the decoder, which leaves it there (`syn_edgesAt`). -/
theorem pulsesAndSyntheticEdges : Obligations.PulsesAndSyntheticEdges := by
  unfold Obligations.PulsesAndSyntheticEdges
  constructor
  · intro s t lead trail hinv hdecodes haway hkind hdual hsyn hcrk hsync hrope hwork i level long fwd rev
    refine ⟨?short, ?bad, ?edge⟩
    case short =>
      intro hshort
      exact completes_untouched (c := .directionPulse t 0 lead trail) hinv.2 (exec_directionPulse_body ..)
        (pulseBody_short (d := s.dev.at t) s.env (Nat.lt_of_not_le hshort))
    case bad =>
      intro hlong hfwd hrev
      refine completes_pos (c := .directionPulse t 0 lead trail) hinv.2 (exec_directionPulse_body ..)
        (pulseBody_bad (d := s.dev.at t) s.env hdecodes hkind (Nat.not_lt_of_le hlong) hrope hfwd hrev)
        fun s' hpos htouches => ⟨?_, ?_, htouches⟩
      · rw [hpos]
        exact modInput_inputs ..
      · rw [hpos]
        exact hsync
    case edge =>
      intro hlong hwidth
      refine completes_of_stays (c := .directionPulse t 0 lead trail) (exec_directionPulse_body ..)
        (pulseBody_edge (d := s.dev.at t) s.env hdecodes hkind (Nat.not_lt_of_le hlong) hrope hsyn hdual hwidth) fun s' h => ?_
      have hpos := h.pos.trans
        (tooth_stopped (d := (s.dev.at t).modInput 0 fun i => i.counted level lead) s.env _ _ hwork hcrk _ true haway hsync)
      rw [hpos]
      exact ⟨modInput_inputs .., rfl, rfl⟩
  · intro s t t0 n hinv hservice hsvc htime hmin stamp
    refine ⟨fun hearly => ?_, fun hdue => ?_⟩
    · exact completes_untouched (c := .syntheticEdge t) hinv.2 (exec_syntheticEdge_body ..)
        (syntheticBody_early (d := s.dev.at t) s.env htime hmin hearly)
    · have hsyn : (s.dev.at t).synthetic = true := by
        show (s.dev.sup.mode == .service && bit s.dev.sup.svc 0) = true
        rw [hservice, hsvc]
        decide
      refine completes_of_stays (c := .syntheticEdge t) (exec_syntheticEdge_body ..)
        (syntheticBody_due (d := s.dev.at t) s.env htime hmin hsyn hdue) fun s' h => ?_
      have haway : s.dev.sup.mode ≠ .basecamp := hservice ▸ by decide
      have hkept := (congrArg Pos.syn h.pos).trans ((syn_edgesAt ..).same haway)
      exact ⟨congrArg Prod.fst hkept, congrArg Prod.snd hkept⟩

end Sys2Proof.Machine
end

section
/-! A command whose body raises one fault with no reaction beside FAULT_N (R388, R389, R395 to R397). -/

namespace Sys2Proof.Machine

open Sys2Proof

/-- A reported fault touches the fault unit, the records and the snapshots. -/
theorem Noted.same {d d' : Dev} (h : Noted d d') (s : State) {g : Group} (hg : g ∉ [Group.flt, .recs, .snap]) :
    g.same { s with dev := d } { s with dev := d' } := by
  match g with
  | .flt | .recs | .snap => simp at hg
  | .pos => exact h.pos
  | .adm => exact h.adm
  | .loft => exact h.loft
  | .banks => exact h.banks
  | .bst => exact h.bst
  | .pfi => exact h.pfi
  | .ign => exact h.ign
  | .gate => exact h.gate
  | .diag => exact h.diag
  | .calc => exact ⟨h.ce, h.ces⟩
  | .conv => exact ⟨h.cnv, h.cnvs⟩
  | .tmu => exact h.tmu
  | .pio => exact ⟨h.pio, h.pios⟩
  | .can => exact h.can
  | .rope => exact h.rope
  | .sup => exact h.sup
  | .paths => exact h.paths
  | .mems => rfl
  | .memu => exact ⟨_, h.memu⟩
  | .nvi => exact ⟨_, h.nvi⟩
  | .twp =>
    obtain ⟨evt, htwp⟩ := h.twp
    exact ⟨evt, _, _, htwp⟩

/-- A fault for which FAULT_N alone is driven settles as its report. -/
theorem settle_raise {d : Dev} (hraised : d.flt.raised = []) (r : FaultReq) (e : Env) (hreaction : d.reactionOf r = 1) :
    (d.raise r).settle e = d.report r := by
  have hone : (d.raise r).flt.raised = [r] := congrArg (· ++ [r]) hraised
  have hcleared : ((d.raise r).modFlt fun f => { f with raised := [] }) = d := by
    conv_rhs => rw [show d = { d with flt := { d.flt with raised := [] } } by rw [← hraised]]
    rfl
  rw [settle_one hone e (.inr (.inr hreaction)), hcleared]

/-- FAULT_N alone is what a configured source asks for. -/
theorem reactionOf_onlyNoted {s : State} {d : Dev} {r : FaultReq} (hflt : d.flt = s.dev.flt) (hreact : r.react = none)
    (hcls : srcClass r.source = 2) (hnoted : s.onlyNoted r.source) : d.reactionOf r = 1 := by
  simp [Dev.reactionOf, hreact, hcls, hflt, hnoted]

section
variable {s : State} {c : Instr} {body : Env → Dev → Dev} {d : Dev} {r : FaultReq} {src : Fin 64} {l : List Group}
  {P : State → Prop}

/-- A command that raises one contained fault, with FAULT_N alone for a reaction, completes with what its body leaves and with
the fault reported. -/
theorem completes_of_raise (hexec : exec c s = runAt (stampOf c) body s) (hbody : s.after (stampOf c) body = d.raise r)
    (hsettled : s.dev.settled) (hflt : d.flt = s.dev.flt) (hwrites : d.writes = s.dev.writes) (hsrc : r.source = src.val)
    (hcls : srcClass r.source = 2) (hreact : r.react = none) (hnoted : s.onlyNoted r.source)
    (hsame : ∀ g, g ∉ l → g.same s { s with dev := d })
    (hP : ∀ s', Follows s (d.report r) s' → s.reported src s' → s.touches ([.flt, .recs, .snap] ++ l) s' → P s') :
    Completes c s P := by
  have hraised : d.flt.raised = [] := (congrArg Flt.raised hflt).trans hsettled.1
  have hnote := noted_report r d
  unfold Completes
  rw [hexec]
  by_cases hrests : s.rests (stampOf c)
  · obtain ⟨s', hrun, h⟩ := runAt_follows hrests body
    rw [hbody, settle_raise hraised r s.env (reactionOf_onlyNoted hflt hreact hcls hnoted)] at h
    refine ⟨s', hrun, fun _ => hP s' h ?reported ?touches⟩
    case reported =>
      exact reported_of hsrc (by omega) ⟨by rw [hflt], by rw [hflt], by rw [hflt], by rw [hflt]⟩ h.flt
    case touches =>
      refine h.touches (hnote.raised.trans hraised) ((hnote.writes.trans hwrites).trans hsettled.2) fun g hg => ?_
      obtain ⟨hreport, hrest⟩ := not_or.mp (mt List.mem_append.mpr hg)
      exact Group.same_trans (hsame g hrest) (hnote.same s hreport)
  · exact ⟨_, runAt_due _ body s, fun h => absurd h hrests⟩

end

end Sys2Proof.Machine
end

section
/-! The first edge of a committed box: when it is issued, what it starts at each kind of output, and the guard that forbids it
(R95, R143, R146, R147). -/

namespace Sys2Proof.Machine

open Sys2Proof

/-! ### The edge that falls due (R95) -/

/-- A committed box of which edge A, its first, is fixed and alone to be issued. -/
structure Box.AwaitsFirst (x : Box) : Prop where
  committed : x.state = .committed
  goesOn : x.ending = none
  present : x.a.present = true
  fixed : x.a.fixed = true
  unissued : x.a.issued = false
  untimed : x.first.present = false
  noSecond : x.b.fixed = false
  noOff : x.off.present = false
  notCoil : x.ev.type ≠ .ign
  byStart : ¬(x.ev.type = .pfi ∧ x.ev.isEnd = true)

/-- The first edge has been issued for `tp`. -/
def Box.begun (tp : Ns) (x : Box) : Box :=
  { x with state := .active, started := some tp, a := { x.a with issued := true, fixed := true, time := tp } }

section
variable {d : Dev} {b : Fin 128}

/-- The first edge falls due 32 ns ahead of its time, or at it for an event that acts in a unit. -/
theorem issueDue_first (h : (d.box b).AwaitsFirst) :
    d.issueDue b = if (d.box b).a.time ≤ d.dtime + (if (d.box b).ev.type.drives then 32 else 0)
      then d.issueFirst b (d.box b).a.time false else d := by
  obtain ⟨hstate, hending, hpresent, hfixed, hissued, hfirst, hsecond, hoff, hcoil, hstart⟩ := h
  have hpfi : ((d.box b).ev.type == .pfi && (d.box b).ev.isEnd) = false := by
    simpa only [Bool.and_eq_false_iff, beq_eq_false_iff_ne, not_and_or, Bool.not_eq_true] using hstart
  simp [Dev.issueDue, Dev.issueA, hstate, hending, hpresent, hfixed, hissued, hfirst, hsecond, hoff, hcoil, hpfi]

/-! ### What the first edge starts -/

section
variable {tp : Ns} (hguard : d.guardDetailOf (d.box b).ev tp = 0) (hfirst : (d.box b).first.present = false)
include hguard hfirst

theorem issueFirst_gate (htype : (d.box b).ev.type = .gate) : d.issueFirst b tp false =
    (d.modBox b (Box.begun tp)).openGate (.box b) (Fin.ofNat 8 (d.box b).ev.output) tp := by
  simp only [Dev.issueFirst, hguard, hfirst, htype, ne_eq, not_true_eq_false, if_false, Bool.or_false]
  rfl

theorem issueFirst_pfi (htype : (d.box b).ev.type = .pfi) : d.issueFirst b tp false =
    ((d.modBox b (Box.begun tp)).startPfi (.box b) (Fin.ofNat 16 (d.box b).ev.output) tp).modBox b fun y =>
      { y with off := { present := true, fixed := true, time := tp + (d.box b).ev.durA } } := by
  simp only [Dev.issueFirst, hguard, hfirst, htype, ne_eq, not_true_eq_false, if_false, Bool.or_false]
  rfl

theorem issueFirst_di (htype : (d.box b).ev.type = .di) : d.issueFirst b tp false =
    (d.modBox b (Box.begun tp)).startDi (.box b) (d.box b).ev (fld (d.box b).ev.typeArg 0 5)
      (d.profile (d.box b).ev.output (fld (d.box b).ev.typeArg 0 5)) tp := by
  simp only [Dev.issueFirst, hguard, hfirst, htype, ne_eq, not_true_eq_false, if_false, Bool.or_false]
  rfl

end

theorem issueFirst_pio {tp : Ns} (hfirst : (d.box b).first.present = false) (htype : (d.box b).ev.type = .pio) :
    d.issueFirst b tp false = ((d.modBox b (Box.begun tp)).raiseLine (d.box b).ev.output).completeBox b := by
  simp only [Dev.issueFirst, Dev.guardDetailOf, Dev.issueUnit, hfirst, htype, ne_eq, not_true_eq_false, if_false,
    Bool.or_false]
  rfl

/-- A first edge that the guard forbids ends its event unstarted, and the guard's action is reported (R147). -/
theorem issueFirst_guarded {tp : Ns} (late : Bool) (hguard : d.guardDetailOf (d.box b).ev tp ≠ 0) : d.issueFirst b tp late =
    (d.closeBox b { result := .endedFault, reason := 10, unstarted := true, guard := true, time := d.dtime
                    ctrl := ctrl 2 3 b.val }).guardTrip (d.guardDetailOf (d.box b).ev tp) b.val (ctrl 2 3 b.val) (d.box b).ev :=
  if_pos hguard

end

@[simp] theorem Pin.set_on (v : Bool) (t : Ns) (low : Bool) (p : Pin) : (p.set v t low).on = v := by
  unfold Pin.set
  split
  case isTrue h => exact h
  case isFalse => split <;> rfl

/-- The opening edge leaves the output active, also where it withdraws a closing edge (R218). -/
theorem openGate_active (o : Owner) (n : Fin 8) (tp : Ns) (d : Dev) :
    ((d.openGate o n tp).gate[n]).pin.on = true ∧ ((d.openGate o n tp).gate[n]).owner = o ∧
      ((d.openGate o n tp).gate[n]).windows = (d.gate[n]).windows + 1 := by
  rw [show (d.openGate o n tp).gate[n] = _ from upd_same ..]
  refine ⟨?_, rfl, rfl⟩
  show (if _ then _ else _ : Pin).on = true
  split
  · rfl
  · exact Pin.set_on ..

theorem startPfi_output (b : Fin 128) (n : Fin 16) (tp : Ns) (d : Dev) :
    ((d.startPfi (.box b) n tp).pfi[n]).pin.on = true ∧ ((d.startPfi (.box b) n tp).pfi[n]).owner = .box b ∧
      ((d.startPfi (.box b) n tp).pfi[n]).measOn = (d.pfi[n]).measOn ++ [tp] := by
  rw [show (d.startPfi (.box b) n tp).pfi[n] = _ from upd_same ..]
  exact ⟨Pin.set_on .., rfl, rfl⟩

/-- The box of a pulse notes the on edge in its result and takes the off edge. -/
theorem startPfi_box (b : Fin 128) (n : Fin 16) (tp : Ns) (off : BoxEdge) (d : Dev) :
    ((d.startPfi (.box b) n tp).modBox b fun y => { y with off := off }).box b =
      { d.box b with part := { (d.box b).part with wasOn := true }, off := off } :=
  (upd_same ..).trans (congrArg (fun y : Box => { y with off := off }) (upd_same ..))

/-- The sequencer of the output's bank latches what the event gives it (R175). -/
theorem startDi_bank (o : Owner) (ev : Event) (num : Nat) (prof : Profile) (tp : Ns) (d : Dev) :
    let k := (d.startDi o ev num prof tp).banks[diBank ev.output]
    k.owner = o ∧ k.ls = diLs ev.output ∧ k.psq.phase = .ready ∧ k.psq.ts = tp ∧ k.psq.te = tp + ev.durA ∧
      k.psq.pc = prof.start ∧ k.psq.args = ev.profArg ∧ k.psq.runs = (d.banks[diBank ev.output]).psq.runs + 1 := by
  simp only [Dev.startDi, Dev.modPsq, Dev.modBank, upd_upd, upd_same, and_self]

/-- A line is set, whether it was before or not (R299). -/
theorem raiseLine_set {i : Nat} (hi : i < 8) (d : Dev) : (d.raiseLine i).pios.lines.getLsbD i = true := by
  unfold Dev.raiseLine
  simp only
  split
  case isTrue h => exact h
  case isFalse =>
    simp only [BitVec.getLsbD_or, BitVec.getLsbD_ofNat, Nat.testBit_two_pow_self, hi]
    simp

theorem closeBox_box (b : Fin 128) (y : Ending) (d : Dev) :
    (d.closeBox b y).box b = { d.box b with state := .closing, ending := some y, resid := some ((d.box b).resid.getD none) } :=
  upd_same ..

/-- A box that is ACTIVE closes when its event is complete (R142, R143). -/
theorem completeBox_active {d : Dev} {b : Fin 128} (h : (d.box b).state = .active) :
    (d.completeBox b).box b = { d.box b with state := .closing, executed := true, complete := true } :=
  (upd_same ..).trans (if_pos h)

/-! ### The command -/

/-- A device that differs from that of `s` in DTIME, the loft, the outputs and the lines alone is `s` in every other part. -/
theorem Group.same_issued (s : State) {l : List Group} {τ : Ns} {loft : Loft} {banks : Vector Bank 4} {pfi : Vector Pfi 16}
    {gate : Vector Gate 8} {pios : PioShared} (hloft : .loft ∈ l) (hbanks : .banks ∈ l ∨ banks = s.dev.banks := by exact .inr rfl)
    (hpfi : .pfi ∈ l ∨ pfi = s.dev.pfi := by exact .inr rfl) (hgate : .gate ∈ l ∨ gate = s.dev.gate := by exact .inr rfl)
    (hpios : .pio ∈ l ∨ pios = s.dev.pios := by exact .inr rfl) (g : Group) (hg : g ∉ l) :
    g.same s { s with dev := { s.dev with dtime := τ, loft := loft, banks := banks, pfi := pfi, gate := gate, pios := pios } } := by
  have hrefl := g.same_refl s
  cases g with
  | loft => exact absurd hloft hg
  | banks => exact hbanks.resolve_left hg
  | pfi => exact hpfi.resolve_left hg
  | gate => exact hgate.resolve_left hg
  | pio => exact ⟨rfl, hpios.resolve_left hg⟩
  | _ => exact hrefl

section
variable {s : State} {t : Ns} {b : Fin 128} (hsettled : s.dev.settled) (hx : s.dev.loft.boxes[b].AwaitsFirst)
include hsettled hx

/-- Before its moment an edge is not issued. -/
theorem completes_edge_early (hearly : s.now t + 32 < s.dev.loft.boxes[b].a.time) :
    Completes (.edgeIssue t (.box b)) s (s.touches []) := by
  refine completes_untouched (c := .edgeIssue t (.box b)) hsettled (body := fun _ d => d.issueDue b) rfl ?_
  have hlead : (if s.dev.loft.boxes[b].ev.type.drives then 32 else 0) ≤ 32 := by split <;> decide
  exact (issueDue_first (d := s.dev.at t) hx).trans
    (if_neg (Nat.not_le_of_lt (Nat.lt_of_le_of_lt (Nat.add_le_add_left hlead _) hearly)))

variable (hdue : s.dev.loft.boxes[b].a.time ≤ s.now t + if s.dev.loft.boxes[b].ev.type.drives then 32 else 0)
include hdue

/-- At its moment a first edge that raises no fault completes with what its issue leaves. -/
theorem completes_edge_first {d : Dev} {y : Box} {l : List Group} {P : State → Prop}
    (hissue : (s.dev.at t).issueFirst b s.dev.loft.boxes[b].a.time false = d) (hy : d.box b = y) (hflt : d.flt = s.dev.flt)
    (hwrites : d.writes = s.dev.writes) (hsame : ∀ g, g ∉ l → g.same s { s with dev := d })
    (hP : ∀ s', s'.dev.loft.boxes[b] = y → Follows s d s' → s.touches l s' → P s') :
    Completes (.edgeIssue t (.box b)) s P := by
  have hraised : d.flt.raised = [] := (congrArg Flt.raised hflt).trans hsettled.1
  refine completes_of_after (body := fun _ d => d.issueDue b) rfl
    (((issueDue_first (d := s.dev.at t) hx).trans (if_pos hdue)).trans hissue) hraised fun s' h => ?_
  exact hP s' ((congrArg (·.boxes[b]) h.loft).trans hy) h (h.touches hraised (hwrites.trans hsettled.2) hsame)

end

/-- Settles O22: before its moment the edge stays (`issueDue_first`); at it the box has begun, and the output or unit holds
what the equation of its type says (`issueFirst_gate`, `issueFirst_pfi`, `issueFirst_di`, `issueFirst_pio`), or the guard's
action is reported (`issueFirst_guarded`). -/
theorem edgeIssue : Obligations.EdgeIssue := by
  unfold Obligations.EdgeIssue
  intro s t b hclean x ev det hstate hending hpresent hfixed hissued hfirst hsecond hoff hcoil hstart started
  have hx : s.dev.loft.boxes[b].AwaitsFirst := ⟨hstate, hending, hpresent, hfixed, hissued, hfirst, hsecond, hoff, hcoil, hstart⟩
  obtain ⟨⟨_, hsettled⟩, _⟩ := hclean
  have hlead (h : x.a.time ≤ s.now t + 32) (hdrives : ev.type.drives = true) :
      x.a.time ≤ s.now t + if ev.type.drives then 32 else 0 := by rwa [if_pos hdrives]
  let begun := (s.dev.at t).modBox b (Box.begun x.a.time)
  have hbegun : begun.box b = x.begun x.a.time := upd_same ..
  have hstarted {s' : State} {y : Box} (hbox : s'.dev.loft.boxes[b] = y) (htime : y.started = some x.a.time)
      (hout : y.a.issued = true) (hnone : y.ending = none) : started s' := by
    subst hbox
    exact ⟨htime, hout, hnone⟩
  refine ⟨completes_edge_early hsettled hx, ?gate, ?pfi, ?di, ?pio, ?guard⟩
  case gate =>
    intro hdue hdet htype _
    refine completes_edge_first hsettled hx (hlead hdue (htype ▸ rfl)) (issueFirst_gate (d := s.dev.at t) hdet hfirst htype)
      hbegun rfl rfl
      (Group.same_issued s (l := [.loft, .gate]) (by simp) (hgate := .inl (by simp))) fun s' hbox h htouches => ?_
    obtain ⟨hon, howner, hwindows⟩ := openGate_active (.box b) (Fin.ofNat 8 ev.output) x.a.time begun
    rw [hbox, h.gate]
    exact ⟨hstarted hbox rfl rfl hending, rfl, hon, howner, hwindows, htouches⟩
  case pfi =>
    intro hdue hdet htype _
    refine completes_edge_first hsettled hx (hlead hdue (htype ▸ rfl)) (issueFirst_pfi (d := s.dev.at t) hdet hfirst htype)
      ((startPfi_box b _ _ _ begun).trans (by rw [hbegun])) rfl rfl
      (Group.same_issued s (l := [.loft, .pfi]) (by simp) (hpfi := .inl (by simp))) fun s' hbox h htouches => ?_
    obtain ⟨hon, howner, hmeas⟩ := startPfi_output b (Fin.ofNat 16 ev.output) x.a.time begun
    rw [hbox, h.pfi]
    exact ⟨hstarted hbox rfl rfl hending, rfl, hon, howner, rfl, rfl, hmeas, htouches⟩
  case di =>
    intro hdue hdet htype _
    refine completes_edge_first hsettled hx (hlead hdue (htype ▸ rfl)) (issueFirst_di (d := s.dev.at t) hdet hfirst htype)
      hbegun rfl rfl
      (Group.same_issued s (l := [.loft, .banks]) (by simp) (hbanks := .inl (by simp))) fun s' hbox h htouches => ?_
    obtain ⟨howner, hls, hphase, hts, hte, hpc, hargs, hruns⟩ := startDi_bank (.box b) ev (fld ev.typeArg 0 5)
      ((s.dev.at t).profile ev.output (fld ev.typeArg 0 5)) x.a.time begun
    rw [hbox, h.banks]
    exact ⟨hstarted hbox rfl rfl hending, rfl, howner, hls, hphase, hts, hte, hpc, hargs, hruns, htouches⟩
  case pio =>
    intro hdue htype hout
    have hraised : (begun.raiseLine ev.output).box b = x.begun x.a.time := hbegun
    refine completes_edge_first hsettled hx (by rwa [show x.ev.type = .pio from htype])
      (issueFirst_pio (d := s.dev.at t) hfirst htype)
      ((completeBox_active (congrArg Box.state hraised)).trans (by rw [hraised])) rfl rfl
      (Group.same_issued s (l := [.loft, .pio]) (by simp) (hpios := .inl (by simp))) fun s' hbox h htouches => ?_
    rw [hbox, h.pios]
    exact ⟨hstarted hbox rfl rfl hending, rfl, rfl, raiseLine_set hout begun, htouches⟩
  case guard =>
    intro hdue hdet hdrives hnoted
    have hissue := (issueDue_first (d := s.dev.at t) hx).trans (if_pos (hlead hdue hdrives))
    refine completes_of_raise (l := [.loft]) (src := 10) (c := .edgeIssue t (.box b)) (body := fun _ d => d.issueDue b) rfl
      (hissue.trans (issueFirst_guarded (d := s.dev.at t) false hdet)) hsettled rfl rfl rfl rfl rfl hnoted
      (Group.same_issued s (by simp)) fun s' h hreported htouches => ?_
    have hloft := h.loft.trans (noted_report ..).loft
    rw [show s'.dev.loft.boxes[b] = _ from (congrArg (·.boxes[b]) hloft).trans (closeBox_box ..), hloft]
    exact ⟨rfl, rfl, rfl, ⟨_, rfl, rfl, rfl, rfl, rfl⟩, hreported, htouches.mono (by simp)⟩

end Sys2Proof.Machine
end

section
/-! Submissions: what a path enters into the network yard, and what the device places at source 9 (R108, R109, R112, R113). -/

namespace Sys2Proof.Machine

open Sys2Proof

/-! ### Commands that claim the registers of admission -/

theorem Group.same_modAdm {g : Group} (hg : g ≠ .adm) (s : State) (d : Dev) (f : Adm → Adm) :
    g.same { s with dev := d } { s with dev := d.modAdm f } := by
  have hrefl := g.same_refl { s with dev := d }
  cases g with
  | adm => exact absurd rfl hg
  | _ => exact hrefl

section
variable {s : State} {c : Instr} {body : Env → Dev → Dev} (hsettled : s.dev.settled)
  (hexec : exec c s = runAt (stampOf c) body s)
include hsettled hexec

/-- A command that changes admission's registers alone. -/
theorem completes_adm {f : Adm → Adm} (hbody : s.after (stampOf c) body = (s.dev.at (stampOf c)).modAdm f) :
    Completes c s fun s' => s'.dev.adm = f s.dev.adm ∧ s.touches [.adm] s' := by
  refine completes_of_after hexec hbody hsettled.1 fun s' h => ⟨h.adm, ?_⟩
  exact h.touches hsettled.1 hsettled.2 fun g hg =>
    Group.same_trans (Group.same_at s _) (Group.same_modAdm (by simpa using hg) s _ f)

/-- A command that changes the context of its own path and admission's registers. -/
theorem completes_ctx_adm {p : Path} {f : PathCtx → PathCtx} {g : Adm → Adm}
    (hbody : s.after (stampOf c) body = (((s.dev.at (stampOf c)).disarm p).modCtx p f).modAdm g) :
    Completes c s fun s' => s'.dev.adm = g s.dev.adm ∧
      s'.dev.ctx p = f { s.dev.ctx p with armedAt := none, served := s.dev.nextTurn } ∧ s.touches [.adm, .paths] s' := by
  refine completes_of_after hexec hbody hsettled.1 fun s' h => ⟨h.adm, ?ctx, ?touches⟩
  case ctx =>
    have hctx : s'.dev.ctx p = (((s.dev.at (stampOf c)).disarm p).modCtx p f).ctx p := congrArg (·[pathIndex p]) h.paths
    rw [hctx, Dev.ctx_modCtx_same, Dev.ctx_disarm_same]
    rfl
  case touches =>
    refine h.touches hsettled.1 hsettled.2 fun k hk => ?_
    obtain ⟨hadm, hpaths⟩ : k ≠ .adm ∧ k ≠ .paths := by simpa using hk
    exact Group.same_trans (Group.same_at s _) (Group.same_trans (Group.same_modCtx s _ hpaths p _)
      (Group.same_trans (Group.same_modCtx s _ hpaths p f) (Group.same_modAdm hadm s _ g)))

end

/-! ### The network yard (R109) -/

/-- A request entered behind those that wait. -/
def Yard.enter (words : Vector W64 8) (p : Path) (y : Yard 32) : Yard 32 :=
  { y with
    entries := upd y.entries (Fin.ofNat 32 ((y.head + y.fill) % 32)) fun _ => { words := words, result := 15, waiting := true, path := p }
    fill := y.fill + 1, hwm := max y.hwm (y.fill + 1), submitted := y.submitted + 1 }

section
variable {d : Dev} (p : Path)

theorem netSubmit_room (h : d.adm.net.fill < 32) :
    d.netSubmit p = (d.modCtx p fun c => { c with netResult := put 0 4 15 }).modAdm fun a =>
      { a with net := a.net.enter (d.ctx p).netW p } := if_neg (Nat.not_le_of_lt h)

theorem netSubmit_full (h : 32 ≤ d.adm.net.fill) :
    d.netSubmit p = (d.modCtx p fun c => { c with netResult := put 0 4 14 }).modAdm fun a => { a with netFull := true } :=
  if_pos h

end

/-- Every other entry stays. -/
theorem Yard.enter_other (words : Vector W64 8) (p : Path) (y : Yard 32) {i : Fin 32} (h : i.val ≠ (y.head + y.fill) % 32) :
    (y.enter words p).entries[i] = y.entries[i] := by
  refine upd_other _ _ _ _ fun hi => h ?_
  rw [hi, Fin.val_ofNat, Nat.mod_mod]

/-! ### Standing submissions (R112, R113) -/

section
variable {d : Dev} {o : Owed} {l : List Owed} {x : Standing} (hplaced : d.adm.placed = none) (howed : d.adm.owed = o :: l)
  (hstanding : d.adm.standing[o.index]? = some x) (n : Nat)
include hplaced howed hstanding

/-- What is owed next is taken off the list, and passed over if its index is on HOLD or owes no cycle. -/
theorem placeStanding_next : d.placeStanding (n + 1) =
    if x.hold || decide ((o.upTo - d.owedCycle o).toInt < 0) then (d.modAdm fun a => { a with owed := l }).placeStanding n
    else d.modAdm fun a => { a with placed := some (o.index, d.owedCycle o), owed := o.rest (d.owedCycle o) ++ l } := by
  have howedCycle : (d.modAdm fun a => { a with owed := l }).owedCycle o = d.owedCycle o := rfl
  simp only [Dev.placeStanding, hplaced, howed, Dev.modAdm_adm, hstanding, howedCycle]
  rfl

theorem placeStanding_submits (hhold : x.hold = false) (hdue : 0 ≤ (o.upTo - d.owedCycle o).toInt) :
    d.placeStanding (n + 1) = d.modAdm fun a =>
      { a with placed := some (o.index, d.owedCycle o), owed := o.rest (d.owedCycle o) ++ l } := by
  rw [placeStanding_next hplaced howed hstanding, if_neg (by simp [hhold, Int.not_lt.mpr hdue, -BitVec.toInt_sub])]

theorem placeStanding_skips (h : x.hold = true ∨ (o.upTo - d.owedCycle o).toInt < 0) :
    d.placeStanding (n + 1) = (d.modAdm fun a => { a with owed := l }).placeStanding n := by
  rw [placeStanding_next hplaced howed hstanding, if_pos (by simpa [-BitVec.toInt_sub] using h)]

end

theorem placeStanding_idle {d : Dev} (h : d.adm.placed ≠ none ∨ d.adm.owed = []) (n : Nat) : d.placeStanding n = d := by
  cases n with
  | zero => rfl
  | succ n =>
    unfold Dev.placeStanding
    split
    case h_1 hplaced howed => simp [hplaced, howed] at h
    case h_2 => rfl

/-- Settles O24: the yard takes a submission or is full (`netSubmit_room`, `netSubmit_full`); source 9 takes the first
submission owed, passes its index over, or is occupied (`placeStanding_submits`, `placeStanding_skips`, `placeStanding_idle`). -/
theorem submissions : Obligations.Submissions := by
  unfold Obligations.Submissions
  intro s t hinv
  refine ⟨?room, ?full, ?submits, ?skips, ?occupied⟩
  case room =>
    intro p hroom
    refine (completes_ctx_adm (c := .admNetSubmit t p) hinv.2 rfl
      (netSubmit_room (d := (s.dev.at t).disarm p) p hroom)).imp fun s' ⟨hadm, hctx, htouches⟩ => ?_
    have hwords : (((s.dev.at t).disarm p).ctx p).netW = (s.dev.ctx p).netW := by rw [Dev.ctx_disarm_same]; rfl
    rw [hadm, hctx, hwords]
    refine ⟨rfl, rfl, rfl, congrArg YardEntry.words (upd_same ..), fun i hi => Yard.enter_other _ p _ hi, rfl, htouches⟩
  case full =>
    intro p hfull
    refine (completes_ctx_adm (c := .admNetSubmit t p) hinv.2 rfl
      (netSubmit_full (d := (s.dev.at t).disarm p) p hfull)).imp fun s' ⟨hadm, hctx, htouches⟩ => ⟨hadm, ?_, htouches⟩
    rw [hctx]
    rfl
  case submits =>
    intro o l x hplaced howed hstanding hhold c hdue
    exact completes_adm (c := .standingSubmission t) hinv.2 rfl
      (placeStanding_submits (d := s.dev.at t) hplaced howed hstanding _ hhold hdue)
  case skips =>
    intro o x hplaced howed hstanding hskips
    exact completes_adm (c := .standingSubmission t) hinv.2 rfl
      ((placeStanding_skips (d := s.dev.at t) hplaced howed hstanding _ hskips).trans (placeStanding_idle (.inr rfl) _))
  case occupied =>
    intro hplaced
    exact completes_untouched (c := .standingSubmission t) hinv.2 rfl (placeStanding_idle (d := s.dev.at t) (.inl hplaced) _)

end Sys2Proof.Machine
end

section
/-! Fields of a register word: what one field of a word put together from fields holds (R8). -/

namespace Sys2Proof.Machine

open Sys2Proof

theorem testBit_fld (w : W64) (lo n j : Nat) : (fld w lo n).testBit j = (decide (j < n) && w.getLsbD (lo + j)) := by
  simp [fld, Nat.testBit_mod_two_pow, BitVec.getLsbD]

theorem getLsbD_put (lo n x i : Nat) :
    (put lo n x).getLsbD i = (decide (i < 64) && (decide (lo ≤ i) && (decide (i - lo < n) && x.testBit (i - lo)))) := by
  simp [put, BitVec.getLsbD_ofNat, Nat.testBit_mul_two_pow, Nat.testBit_mod_two_pow]

theorem fld_or (a b : W64) (lo n : Nat) : fld (a ||| b) lo n = fld a lo n ||| fld b lo n := by
  refine Nat.eq_of_testBit_eq fun j => ?_
  simp only [Nat.testBit_or, testBit_fld, BitVec.getLsbD_or, Bool.and_or_distrib_left]

theorem fld_put_same {lo n : Nat} (h : lo + n ≤ 64) (x : Nat) : fld (put lo n x) lo n = x % 2 ^ n := by
  refine Nat.eq_of_testBit_eq fun j => ?_
  rw [testBit_fld, getLsbD_put, Nat.testBit_mod_two_pow]
  by_cases hj : j < n
  · simp [hj, show lo + j < 64 by omega]
  · simp [hj]

theorem fld_put_disjoint {lo n lo' n' : Nat} (h : lo' + n' ≤ lo ∨ lo + n ≤ lo') (x : Nat) : fld (put lo' n' x) lo n = 0 := by
  refine Nat.eq_of_testBit_eq fun j => ?_
  rw [testBit_fld, getLsbD_put, Nat.zero_testBit]
  by_cases hj : j < n
  · have hout : ¬(lo' ≤ lo + j ∧ lo + j - lo' < n') := by omega
    simp only [← Bool.and_assoc, Bool.and_eq_false_iff, decide_eq_false_iff_not]
    tauto
  · simp [hj]

/-- CODE of a result word (R124). -/
theorem resultWord_code (code detail source loft : Nat) (tag : W32) : fld (resultWord code detail source loft tag) 0 4 = code % 16 := by
  simp [resultWord, fld_or, fld_put_same, fld_put_disjoint]

/-- LOFT of a result word (R124). -/
theorem resultWord_loft (code detail source loft : Nat) (tag : W32) :
    fld (resultWord code detail source loft tag) 12 11 = loft % 2048 := by
  simp [resultWord, fld_or, fld_put_same, fld_put_disjoint]

end Sys2Proof.Machine
end

section
/-! The loft as admission writes it: descriptors by index, a free one taken, and what storing and cancelling events leaves of
the device (R122, R127, R128, R135, R144, R145). -/

namespace Sys2Proof.Machine

open Sys2Proof

/-! ### Descriptors by index -/

section
variable {l : List (Nat × Descr)} {i : Nat} (hfree : ∀ x ∈ l, x.1 ≠ i)
include hfree

theorem descr_none {d : Dev} (h : d.loft.descrs = l) : d.descr i = none := by
  unfold Dev.descr
  rw [h]
  clear h
  induction l with
  | nil => rfl
  | cons y l ih =>
    obtain ⟨hhead, htail⟩ := List.forall_mem_cons.mp hfree
    exact (if_neg hhead.symm).trans (ih htail)

/-- A free index that is written is listed beside the others. -/
theorem descrPut_length (z : Descr) : (descrPut l i z).length = l.length + 1 := by
  induction l with
  | nil => rfl
  | cons y l ih =>
    obtain ⟨hhead, htail⟩ := List.forall_mem_cons.mp hfree
    unfold descrPut
    split
    · rfl
    · rw [if_neg hhead.symm, List.length_cons, ih htail, List.length_cons]

theorem descr_put {d : Dev} (z : Descr) (h : d.loft.descrs = descrPut l i z) : d.descr i = some z := by
  unfold Dev.descr
  rw [h]
  clear h
  induction l with
  | nil => exact if_pos rfl
  | cons y l ih =>
    obtain ⟨hhead, htail⟩ := List.forall_mem_cons.mp hfree
    unfold descrPut
    split
    · exact if_pos rfl
    · rw [if_neg hhead.symm]
      exact (if_neg hhead.symm).trans (ih htail)

end

/-- While a descriptor is FREE, one is taken (R122, R135). -/
theorem allocate_free {d : Dev} (h : d.loft.descrs.length < 2048) :
    ∃ i, d.allocate = some (i, d.draw.2) ∧ i < 2048 ∧ ∀ x ∈ d.loft.descrs, x.1 ≠ i := by
  unfold Dev.allocate
  extract_lets used free
  have hfree : free ≠ [] := by
    intro hnil
    have hsub : List.range 2048 ⊆ used := fun i hi => by simpa using List.filter_eq_nil_iff.mp hnil i hi
    have hle := (List.nodup_range.subperm hsub).length_le
    rw [List.length_range, List.length_map] at hle
    omega
  have hmem : ∀ i ∈ free, i < 2048 ∧ i ∉ used := fun i hi => by simpa [free] using hi
  clear_value free
  have hlt : Config.loftPick d.draw.1 % free.length < free.length := Nat.mod_lt _ (List.length_pos_of_ne_nil hfree)
  obtain ⟨hrange, hunused⟩ := hmem _ (List.getElem_mem hlt)
  refine ⟨free[Config.loftPick d.draw.1 % free.length], ?_, hrange, fun x hx hi => hunused (hi ▸ List.mem_map_of_mem hx)⟩
  show (match free[Config.loftPick d.draw.1 % free.length]? with | some i => some (i, d.draw.2) | none => none) = _
  rw [List.getElem?_eq_getElem hlt]

/-! ### What admission may change -/

/-- Two devices that differ at most in the loft, the records, the damaged words and the count of free values. -/
def Booked (d d' : Dev) : Prop :=
  ∃ loft recm errs free, d' = { d with loft := loft, recm := recm, memu := { d.memu with errs := errs }, free := free }

theorem Booked.refl (d : Dev) : Booked d d := ⟨_, _, _, _, rfl⟩

theorem Booked.trans {a b c : Dev} (h : Booked a b) (g : Booked b c) : Booked a c := by
  obtain ⟨_, _, _, _, rfl⟩ := h
  obtain ⟨_, _, _, _, rfl⟩ := g
  exact ⟨_, _, _, _, rfl⟩

theorem Booked.foldl {α : Type} (l : List α) (f : Dev → α → Dev) (d : Dev) (h : ∀ d x, Booked d (f d x)) : Booked d (l.foldl f d) :=
  List.foldlRecOn (motive := Booked d) l f (.refl d) fun _ hb x _ => hb.trans (h _ x)

section
variable (d : Dev)

theorem booked_modLoft (f : Loft → Loft) : Booked d (d.modLoft f) := ⟨_, _, _, _, rfl⟩
theorem booked_modBox (b : Fin 128) (f : Box → Box) : Booked d (d.modBox b f) := ⟨_, _, _, _, rfl⟩

theorem booked_modDescr (i : Nat) (f : Descr → Descr) : Booked d (d.modDescr i f) := ⟨_, _, _, _, rfl⟩

theorem booked_present (r : Rec) : Booked d (d.present r) := by
  unfold Dev.present
  extract_lets r
  split <;> exact ⟨_, _, _, _, rfl⟩

theorem booked_clearWordErrs (b w : Nat) : Booked d (d.clearWordErrs b w) := ⟨_, _, _, _, rfl⟩

theorem booked_cancelMember (i : Nat) : Booked d (d.cancelMember i) := by
  unfold Dev.cancelMember
  split
  · extract_lets x
    split
    · exact booked_modBox ..
    · exact booked_modDescr ..
  · exact .refl d

theorem booked_reportReplaced (i : Nat) : Booked d (d.reportReplaced i) := by
  unfold Dev.reportReplaced
  split
  · extract_lets x
    split
    · exact ((booked_present ..).trans (booked_modLoft ..)).trans (booked_modBox ..)
    · exact (booked_present ..).trans (booked_modLoft ..)
  · exact .refl d

theorem booked_place (i : Nat) (e : Event) : Booked d (d.place i e) := by
  unfold Dev.place
  extract_lets e d1
  have h1 : Booked d d1 := (booked_modLoft ..).trans (.foldl _ _ _ fun d j => booked_clearWordErrs d 4 (4 * i + j))
  refine h1.trans ?_
  split
  · split
    · extract_lets b
      split <;> exact (booked_modLoft ..).trans (booked_modBox ..)
    · exact booked_modLoft ..
  · exact booked_modLoft ..

end

/-- A new event in an index that is free: as a fresh descriptor (R144). -/
theorem place_free {d : Dev} {i : Nat} (hfree : ∀ x ∈ d.loft.descrs, x.1 ≠ i) (e : Event) :
    (d.place i e).loft.descrs = descrPut d.loft.descrs i { ev := { e with order := d.loft.order } } := by
  unfold Dev.place
  extract_lets e d1
  have hdescrs : d1.loft.descrs = d.loft.descrs :=
    List.foldlRecOn (motive := fun x : Dev => x.loft.descrs = d.loft.descrs) (List.range 4) _ rfl fun _ h _ _ => h
  rw [descr_none hfree hdescrs, ← hdescrs]
  rfl

end Sys2Proof.Machine
end

section
/-! What admission decides of a request: a rejection, a cancellation, or an event stored (R114, R122, R124). -/

namespace Sys2Proof.Machine

open Sys2Proof

/-! ### Events stored -/

/-- One new event stored: in a descriptor kept from a target for it, or in a free one. -/
def storeNew (kept : List Nat) (acc : List Nat × Dev) (e : Event) : List Nat × Dev :=
  match kept[acc.1.length]? with
  | some i => (acc.1 ++ [i], acc.2.place i e)
  | none => match acc.2.allocate with
    | some (i, d) => (acc.1 ++ [i], d.place i e)
    | none => acc

/-- Descriptor `a` notes its twin in `b` (R123). -/
def linkTwin (a b : Nat) (d : Dev) : Dev :=
  d.modDescr a (fun x => { x with ev := { x.ev with partner := some b } })
  |>.modLoft fun l => { l with boxes := l.boxes.map fun (y : Box) =>
      if y.state ≠ BoxState.free ∧ y.loft = a then { y with ev := { y.ev with partner := some b } } else y }

/-- The members of a pair that has been stored note each other. -/
def linkStored (stored : List Nat × Dev) : Dev :=
  match stored.1 with
  | [i, j] => linkTwin j i (linkTwin i j stored.2)
  | _ => stored.2

/-- The results of a target pair, and the descriptors of it that `n` new events leave over set FREE (R127, R144). -/
def Dev.cede (skip : List Nat) (n : Nat) (d : Dev) : Dev :=
  (skip.drop n).foldl (init := skip.foldl (init := d) fun d i => d.reportReplaced i) fun d i =>
    match d.descr i with
    | some x => (if x.state = .inBox then d.modBox (Fin.ofNat 128 x.box) Box.release else d).freeDescr i
    | none => d

/-- What admission does for an accepted request: the target pair `skip` ends, and the new events `ev` are stored. -/
def Dev.book (skip : List Nat) (ev : List Event) (d : Dev) : List Nat × Dev :=
  let stored := ev.foldl (storeNew (skip.take ev.length)) ([], d.cede skip ev.length)
  (stored.1, (linkStored stored).notePeaks)

theorem booked_allocate {d d' : Dev} {i : Nat} (h : d.allocate = some (i, d')) : Booked d d' := by
  unfold Dev.allocate at h
  extract_lets used free at h
  dsimp only at h
  split at h
  · obtain ⟨-, rfl⟩ := Prod.mk.inj (Option.some.inj h)
    exact ⟨_, _, _, _, rfl⟩
  · cases h

theorem booked_storeNew (kept : List Nat) (acc : List Nat × Dev) (e : Event) : Booked acc.2 (storeNew kept acc e).2 := by
  unfold storeNew
  split
  · exact booked_place ..
  · split
    · next i d h => exact (booked_allocate h).trans (booked_place ..)
    · exact .refl _

theorem booked_freeDescr (i : Nat) (d : Dev) : Booked d (d.freeDescr i) := ⟨_, _, _, _, rfl⟩

theorem booked_notePeaks (d : Dev) : Booked d d.notePeaks := ⟨_, _, _, _, rfl⟩

theorem booked_linkTwin (a b : Nat) (d : Dev) : Booked d (linkTwin a b d) := (booked_modDescr ..).trans (booked_modLoft ..)

theorem booked_linkStored (stored : List Nat × Dev) : Booked stored.2 (linkStored stored) := by
  unfold linkStored
  split
  · exact (booked_linkTwin ..).trans (booked_linkTwin ..)
  · exact .refl _

theorem booked_cede (skip : List Nat) (n : Nat) (d : Dev) : Booked d (d.cede skip n) := by
  refine (Booked.foldl skip _ d booked_reportReplaced).trans (.foldl _ _ _ fun d i => ?_)
  split
  · next x _ =>
    have hbox : Booked d (if x.state = .inBox then d.modBox (Fin.ofNat 128 x.box) Box.release else d) := by
      split
      · exact booked_modBox ..
      · exact .refl d
    exact hbox.trans (booked_freeDescr ..)
  · exact .refl d

theorem booked_book (skip : List Nat) (ev : List Event) (d : Dev) : Booked d (d.book skip ev).2 := by
  unfold Dev.book
  extract_lets stored
  have hstored : Booked (d.cede skip ev.length) stored.2 :=
    List.foldlRecOn (motive := fun acc : List Nat × Dev => Booked (d.cede skip ev.length) acc.2) ev _ (.refl _)
      fun acc hb e _ => hb.trans (booked_storeNew _ acc e)
  exact (((booked_cede ..).trans hstored).trans (booked_linkStored stored)).trans (booked_notePeaks _)

/-- A single event that takes no target's place is stored in a descriptor that was free. -/
theorem book_single {d : Dev} (h : d.loft.descrs.length < 2048) (e : Event) :
    ∃ i, i < 2048 ∧ (∀ x ∈ d.loft.descrs, x.1 ≠ i) ∧ (d.book [] [e]).1 = [i] ∧
      (d.book [] [e]).2.loft.descrs = descrPut d.loft.descrs i { ev := { e with order := d.loft.order } } := by
  obtain ⟨i, halloc, hi, hfree⟩ := allocate_free h
  have hstore : storeNew [] ([], d) e = ([i], d.draw.2.place i e) := by
    simp only [storeNew, List.getElem?_nil, halloc, List.nil_append]
  have hbook : d.book [] [e] = ([i], (d.draw.2.place i e).notePeaks) := by
    simp only [Dev.book, Dev.cede, List.foldl_nil, List.drop_nil, List.take_nil, List.foldl_cons, hstore]
    rfl
  exact ⟨i, hi, hfree, by rw [hbook], by rw [hbook]; exact place_free (d := d.draw.2) hfree e⟩

/-! ### The decision (R114) -/

/-- An event as a request asks for it; admission gives its cycle, its arming tooth and its place in the order (R106, R138). -/
def Event.Asked (w : List W64) (source : Nat) (e : Event) : Prop :=
  ∃ cycle armAngle armCycle accTime order, e = { eventOf w source with
    cycle := cycle, armAngle := armAngle, armCycle := armCycle, accTime := accTime, order := order }

/-- Descriptor `id`, free in `d`, holds the event of a request in `d'`. -/
def Dev.Took (w : List W64) (source id : Nat) (d d' : Dev) : Prop :=
  id < 2048 ∧ (∀ x ∈ d.loft.descrs, x.1 ≠ id) ∧
    ∃ e : Event, e.Asked w source ∧ d'.loft.descrs = descrPut d.loft.descrs id { ev := e }

/-- What admission may answer to a request, and the device that it leaves. -/
inductive Verdict (w : List W64) (source : Nat) (d : Dev) : W64 × Dev → Prop
  | rejected {code detail : Nat} (hcode : code % 16 ≠ 0) :
      Verdict w source d (resultWord code detail source 0 (eventOf w source).tag, d)
  | cancelled {d' : Dev} (hcancel : bit (reqWord w 0) 33 = true) (hbooked : Booked d d') :
      Verdict w source d (resultWord 0 0 source 0 (eventOf w source).tag, d')
  | accepted {detail id : Nat} {d' : Dev} (hbooked : Booked d d')
      (htook : bit (reqWord w 0) 32 = false → d.pos.sync = .full → d.Took w source id d') :
      Verdict w source d (resultWord 0 detail source id (eventOf w source).tag, d')

theorem judge_verdict (w : List W64) (source : Nat) (d : Dev) : Verdict w source d (d.judge w source) := by
  unfold Dev.judge
  extract_lets e0 rej w0 replace cancel det pf c now cyc e1 twin e2 ev news link
  have reject {code detail : Nat} (hcode : code % 16 ≠ 0) : Verdict w source d (rej code detail) := .rejected hcode
  refine iteInduction (fun _ => reject (by decide)) fun _ => ?_
  generalize d.target pf e0 = target
  obtain ⟨found, tgt⟩ := target
  dsimp -zeta only
  iterate 3 refine iteInduction (fun _ => reject (by decide)) fun _ => ?_
  refine iteInduction (fun hcancel => ?cancel) fun _ => ?_
  case cancel =>
    cases tgt with
    | none => exact reject (by decide)
    | some x => exact .cancelled hcancel (.foldl _ (fun d i => d.cancelMember i) d booked_cancelMember)
  iterate 4 refine iteInduction (fun _ => reject (by decide)) fun _ => ?_
  extract_lets +onlyGivenNames skip olds against own off bnk need d1 kept d2 put
  iterate 5 refine iteInduction (fun _ => reject (by decide)) fun _ => ?_
  refine iteInduction (fun _ => reject (by decide)) fun hroom => ?_
  -- What is left is `Dev.book`. What it stores is generalised first: to compare it would compute the list of free descriptors.
  have hput : put = storeNew kept := by
    funext acc e
    cases hkept : kept[acc.1.length]? with
    | some i => simp only [put, storeNew, hkept]
    | none => cases halloc : acc.2.allocate <;> simp only [put, storeNew, hkept, halloc]
  have hd2 : d2 = d.cede skip ev.length := rfl
  clear_value put d2
  subst hput hd2
  have hbook : d.book skip ev =
      (let stored := ev.foldl (storeNew kept) ([], d.cede skip ev.length)
       (stored.1, (linkStored stored).notePeaks)) := rfl
  generalize ev.foldl (storeNew kept) ([], d.cede skip ev.length) = stored at hbook ⊢
  change Verdict w source d (resultWord 0 (if twin then 1 else 0) source (stored.1.headD 0) e0.tag, (linkStored stored).notePeaks)
  have hids : (d.book skip ev).1 = stored.1 := by rw [hbook]
  have hdev : (d.book skip ev).2 = (linkStored stored).notePeaks := by rw [hbook]
  rw [← hids, ← hdev]
  refine .accepted (booked_book ..) fun hreplace hfull => ?_
  have htwin : twin = false := by simp [twin, hfull]
  have hev : ev = [e1] := by simp [ev, htwin]
  have hskip : skip = [] := by cases tgt <;> simp [skip, replace, w0, hreplace]
  have hneed : need = 1 := by simp [need, replace, w0, hreplace, hev]
  have hlt : d.loft.descrs.length < 2048 := by omega
  obtain ⟨i, hi, hfree, hids, hdescrs⟩ := book_single hlt e1
  rw [hev, hskip, hids]
  exact ⟨hi, hfree, { e1 with order := d.loft.order }, ⟨_, _, _, _, _, rfl⟩, hdescrs⟩

end Sys2Proof.Machine
end

section
/-! A decision: the checks that come first, the counters, and the answer to the source served (R108, R110, R114, R116, R124,
R125). -/

namespace Sys2Proof.Machine

open Sys2Proof

/-! ### The checks in their order (R114) -/

section
variable {d : Dev} {w : List W64} {source : Nat}

theorem judge_field (hfield : d.fieldDetail w (source == 9) ≠ 0) :
    d.judge w source = (resultWord 4 (d.fieldDetail w (source == 9)) source 0 (eventOf w source).tag, d) := if_pos hfield

section
variable (hfield : d.fieldDetail w (source == 9) = 0) (hreplace : bit (reqWord w 0) 32 = false)
  (hcancel : bit (reqWord w 0) 33 = false)
include hfield hreplace hcancel

theorem judge_mode (hmode : d.modeAdmits (eventOf w source).type source = false) :
    d.judge w source = (resultWord 3 0 source 0 (eventOf w source).tag, d) := by
  simp [Dev.judge, hfield, hreplace, hcancel, hmode]

theorem judge_sync (hmode : d.modeAdmits (eventOf w source).type source = true) (hsync : d.pos.synced = false) :
    d.judge w source = (resultWord 2 0 source 0 (eventOf w source).tag, d) := by
  simp [Dev.judge, hfield, hreplace, hcancel, hmode, hsync]

end

/-! ### What a verdict leaves -/

theorem judge_booked (w : List W64) (source : Nat) (d : Dev) : Booked d (d.judge w source).2 := by
  have h := judge_verdict w source d
  generalize d.judge w source = x at h ⊢
  cases h with
  | rejected => exact .refl d
  | cancelled _ hbooked | accepted hbooked _ => exact hbooked

/-- A rejection changes nothing. -/
theorem judge_rejected (hcode : fld (d.judge w source).1 0 4 ≠ 0) : (d.judge w source).2 = d := by
  have h := judge_verdict w source d
  generalize d.judge w source = x at h hcode ⊢
  cases h with
  | rejected => rfl
  | cancelled | accepted => exact absurd (resultWord_code ..) hcode

/-- In FULL an accepted request that is no REPLACE and no CANCEL takes the descriptor that its result word names. -/
theorem judge_took (hcode : fld (d.judge w source).1 0 4 = 0) (hreplace : bit (reqWord w 0) 32 = false)
    (hcancel : bit (reqWord w 0) 33 = false) (hfull : d.pos.sync = .full) :
    d.Took w source (fld (d.judge w source).1 12 11) (d.judge w source).2 := by
  have h := judge_verdict w source d
  generalize d.judge w source = x at h hcode ⊢
  cases h with
  | rejected hrejected => exact absurd ((resultWord_code ..).symm.trans hcode) hrejected
  | cancelled h _ => exact absurd (hcancel.symm.trans h) (by decide)
  | accepted _ htook =>
    have hid := (htook hreplace hfull).1
    rw [resultWord_loft, Nat.mod_eq_of_lt hid]
    exact htook hreplace hfull

end

/-! ### Counters (R124, R125) -/

section
variable (w : List W64) (source : Nat) (d : Dev)

theorem decideRequest_result : (d.decideRequest w source).1 = (d.judge w source).1 := by
  unfold Dev.decideRequest
  dsimp only
  split <;> rfl

/-- What a decision changes: beside what is booked, the counters of admission and its last result. -/
theorem decideRequest_frame : ∃ loft recm errs free acc rej rejCnt, (d.decideRequest w source).2 =
    { d with loft := loft, recm := recm, memu := { d.memu with errs := errs }, free := free
             adm := { d.adm with last := (d.judge w source).1, acc := acc, rej := rej, rejCnt := rejCnt } } := by
  obtain ⟨loft, recm, errs, free, hjudge⟩ := judge_booked w source d
  unfold Dev.decideRequest
  dsimp only
  rw [hjudge]
  split
  · exact ⟨_, _, _, _, _, _, _, rfl⟩
  · dsimp only
    split
    · unfold Dev.present
      dsimp only
      split <;> exact ⟨_, _, _, _, _, _, _, rfl⟩
    · exact ⟨_, _, _, _, _, _, _, rfl⟩

variable {w source d}

/-- A rejection is counted and stores nothing. -/
theorem decideRequest_rejected (hcode : fld (d.judge w source).1 0 4 ≠ 0) :
    let d' := (d.decideRequest w source).2
    d'.adm.rej = d.adm.rej + 1 ∧ d'.adm.acc = d.adm.acc ∧ d'.loft.descrs = d.loft.descrs ∧ d'.loft.boxes = d.loft.boxes := by
  have hjudge := judge_rejected hcode
  unfold Dev.decideRequest
  simp only [hcode, if_false, hjudge]
  split
  · simp only [(noted_present ..).adm, (noted_present ..).loft, and_self]
  · exact ⟨rfl, rfl, rfl, rfl⟩

theorem decideRequest_accepted (hcode : fld (d.judge w source).1 0 4 = 0) :
    let d' := (d.decideRequest w source).2
    d'.adm.acc = d.adm.acc + 1 ∧ d'.adm.rej = d.adm.rej ∧ d'.loft.descrs = (d.judge w source).2.loft.descrs := by
  have hadm : (d.judge w source).2.adm = d.adm := by
    obtain ⟨_, _, _, _, hjudge⟩ := judge_booked w source d
    rw [hjudge]
  unfold Dev.decideRequest
  simp only [hcode, if_true, hadm, and_self]

/-- In FULL an accepted request that is no REPLACE and no CANCEL waits in a descriptor that was free (R122, R135). -/
theorem decideRequest_stores (hcode : fld (d.judge w source).1 0 4 = 0) (hreplace : bit (reqWord w 0) 32 = false)
    (hcancel : bit (reqWord w 0) 33 = false) (hfull : d.pos.sync = .full) :
    let d' := (d.decideRequest w source).2
    let id := fld (d.judge w source).1 12 11
    (∀ y ∈ d.loft.descrs, y.1 ≠ id) ∧ d'.loft.descrs.length = d.loft.descrs.length + 1 ∧
      ∃ z, d'.descr id = some z ∧ z.state = .waiting ∧ z.ev.Asked w source := by
  intro d' id
  obtain ⟨-, -, hbooked⟩ := decideRequest_accepted hcode
  obtain ⟨-, hfree, e, hasked, hdescrs⟩ := judge_took hcode hreplace hcancel hfull
  have hstored : d'.loft.descrs = descrPut d.loft.descrs id { ev := e } := hbooked.trans hdescrs
  exact ⟨hfree, by rw [hstored, descrPut_length hfree], { ev := e }, descr_put hfree _ hstored, rfl, hasked⟩

end

theorem Dev.descr_congr {d d' : Dev} (h : d'.loft = d.loft) (i : Nat) : d'.descr i = d.descr i := by
  simp only [Dev.descr, h]

/-! ### The source served (R108, R110) -/

/-- Where no pass is outstanding, the decision comes at once. -/
theorem passFirst_idle {d : Dev} (h : d.pos.work = []) (e : Env) (n : Nat) : d.passFirst e n = d := by
  cases n with
  | zero => rfl
  | succ n => simp only [Dev.passFirst, h]

/-- The answer to engine `k`: the result in its yard's oldest entry and in the engine, and the turn passed on. -/
def Dev.answered (k : Fin 8) (r : W64) (d : Dev) : Dev :=
  ((d.modAdm fun a => { a with ce := upd a.ce k (Yard.answer r) }).modCe k fun c => { c with reqRes := some r, reqLast := r }).modAdm
    fun a => { a with turn := (k.val + 1) % 10 }

section
variable (k : Fin 8) (r : W64) (d : Dev)

theorem answered_yard : (d.answered k r).adm.ce[k] = (d.adm.ce[k]).answer r := upd_same ..
theorem answered_engine : (d.answered k r).ce[k] = { d.ce[k] with reqRes := some r, reqLast := r } := upd_same ..
@[simp] theorem answered_turn : (d.answered k r).adm.turn = (k.val + 1) % 10 := rfl
@[simp] theorem answered_last : (d.answered k r).adm.last = d.adm.last := rfl
@[simp] theorem answered_acc : (d.answered k r).adm.acc = d.adm.acc := rfl
@[simp] theorem answered_rej : (d.answered k r).adm.rej = d.adm.rej := rfl
@[simp] theorem answered_loft : (d.answered k r).loft = d.loft := rfl
@[simp] theorem answered_flt : (d.answered k r).flt = d.flt := rfl
@[simp] theorem answered_writes : (d.answered k r).writes = d.writes := rfl

end

theorem decideOne_engine {d : Dev} {k : Fin 8} (hnext : d.nextSource = some k.val) (herrs : d.memu.errs = []) (e : Env) :
    d.decideOne e = (d.decideRequest (d.offered k.val) k.val).2.answered k (d.judge (d.offered k.val) k.val).1 := by
  have hk : Fin.ofNat 8 k.val = k := Fin.ext (Nat.mod_eq_of_lt k.isLt)
  have htarget : d.readTarget e (d.offered k.val) k.val = d := if_pos (by simp [herrs])
  simp only [Dev.decideOne, hnext, htarget, Dev.answer, k.isLt, if_true, hk, ← decideRequest_result]
  rfl

theorem decideOne_idle {d : Dev} (hnext : d.nextSource = none) (e : Env) : d.decideOne e = d := by
  simp only [Dev.decideOne, hnext]

/-! ### The command -/

/-- A device that differs from that of `s` in what a decision changes is `s` in every other part. -/
theorem Group.same_decided (s : State) {τ : Ns} {adm : Adm} {loft : Loft} {ce : Vector Ce 8} {recm : RecM} {errs : List Upset}
    {free : Nat} (g : Group) (hg : g ∉ [Group.adm, .loft, .calc, .recs, .memu]) :
    g.same s { s with dev := { s.dev with
      dtime := τ, adm := adm, loft := loft, ce := ce, recm := recm, memu := { s.dev.memu with errs := errs }, free := free } } := by
  match g with
  | .adm | .loft | .calc | .recs | .memu => simp at hg
  | .nvi => exact ⟨_, rfl⟩
  | .twp => exact ⟨_, _, _, rfl⟩
  | .conv | .pio => exact ⟨rfl, rfl⟩
  | .pos | .banks | .bst | .pfi | .ign | .gate | .diag | .snap | .tmu | .can | .rope | .sup | .flt | .paths | .mems => rfl

/-- After a decision for engine `k` with result word `r`: the oldest request answered and the turn passed on, and counters and
loft as in `x`. -/
structure Answered (s : State) (k : Fin 8) (r : W64) (x : Dev) (s' : State) : Prop where
  yard : s'.dev.adm.ce[k] = (s.dev.adm.ce[k]).answer r
  engine : s'.dev.ce[k] = { s.dev.ce[k] with reqRes := some r, reqLast := r }
  turn : s'.dev.adm.turn = (k.val + 1) % 10
  last : s'.dev.adm.last = r
  acc : s'.dev.adm.acc = x.adm.acc
  rej : s'.dev.adm.rej = x.adm.rej
  loft : s'.dev.loft = x.loft
  touches : s.touches [.adm, .loft, .calc, .recs, .memu] s'

section
variable {s : State} {t : Ns} (hsettled : s.dev.settled) (hwork : s.dev.pos.work = [])
include hsettled hwork

/-- Where no source offers a request, nothing is decided. -/
theorem completes_no_decision (hnone : s.dev.nextSource = none) : Completes (.admissionDecision t) s (s.touches []) :=
  completes_untouched (c := .admissionDecision t) hsettled rfl
    ((congrArg (Dev.decideOne s.env) (passFirst_idle (d := s.dev.at t) hwork ..)).trans (decideOne_idle (d := s.dev.at t) hnone _))

theorem completes_decision {k : Fin 8} (herrs : s.dev.memu.errs = []) (hnext : s.dev.nextSource = some k.val) :
    Completes (.admissionDecision t) s (Answered s k ((s.dev.at t).judge (s.dev.offered k.val) k.val).1
      ((s.dev.at t).decideRequest (s.dev.offered k.val) k.val).2) := by
  have hbody : s.after t (fun e d => (d.passFirst e workMax).decideOne e) =
      ((s.dev.at t).decideRequest (s.dev.offered k.val) k.val).2.answered k ((s.dev.at t).judge (s.dev.offered k.val) k.val).1 :=
    (congrArg (Dev.decideOne s.env) (passFirst_idle (d := s.dev.at t) hwork ..)).trans
      (decideOne_engine (d := s.dev.at t) hnext herrs s.env)
  obtain ⟨loft, recm, errs, free, acc, rej, rejCnt, hframe⟩ := decideRequest_frame (s.dev.offered k.val) k.val (s.dev.at t)
  generalize ((s.dev.at t).decideRequest (s.dev.offered k.val) k.val).2 = x at hbody hframe ⊢
  generalize ((s.dev.at t).judge (s.dev.offered k.val) k.val).1 = r at hbody hframe ⊢
  have hraised : (x.answered k r).flt.raised = [] := by rw [answered_flt, hframe]; exact hsettled.1
  have hwrites : (x.answered k r).writes = [] := by rw [answered_writes, hframe]; exact hsettled.2
  refine completes_of_after (c := .admissionDecision t) rfl hbody hraised fun s' h => ?_
  exact {
    yard := by rw [h.adm, answered_yard, hframe]; rfl
    engine := by rw [h.ce, answered_engine, hframe]; rfl
    turn := by rw [h.adm, answered_turn]
    last := by rw [h.adm, answered_last, hframe]
    acc := by rw [h.adm, answered_acc]
    rej := by rw [h.adm, answered_rej]
    loft := by rw [h.loft, answered_loft]
    touches := h.touches hraised hwrites fun g hg => by rw [hframe]; exact Group.same_decided s g hg }

end

/-- Settles O25: the first check that fails gives the result (`judge_field`, `judge_mode`, `judge_sync`); the counters and the loft
follow the verdict (`decideRequest_rejected`, `decideRequest_accepted`, `decideRequest_stores`), and the source served has its
answer (`completes_decision`). -/
theorem admissionDecision : Obligations.AdmissionDecision := by
  unfold Obligations.AdmissionDecision
  intro s t k ⟨⟨_, hsettled⟩, herrs, _⟩ hwork
  refine ⟨completes_no_decision hsettled hwork, fun hnext => ?_⟩
  refine (completes_decision hsettled hwork herrs hnext).imp fun s' h => ?_
  have hsource : (k.val == 9) = false := beq_eq_false_iff_ne.mpr (by omega)
  rw [h.yard, h.engine, h.turn, h.last, h.acc, h.rej, h.loft]
  refine ⟨rfl, rfl, rfl, rfl, rfl, ?field, ?mode, ?sync, ?rejected, ?accepted, ?stored, h.touches⟩
  case field =>
    intro hfield
    rw [judge_field (d := s.dev.at t) (by rwa [hsource]), hsource]
    rfl
  case mode =>
    intro hfield ⟨hreplace, hcancel⟩ hmode
    rw [judge_mode (d := s.dev.at t) (by rwa [hsource]) hreplace hcancel hmode]
    rfl
  case sync =>
    intro hfield ⟨hreplace, hcancel⟩ hmode hsync
    rw [judge_sync (d := s.dev.at t) (by rwa [hsource]) hreplace hcancel hmode hsync]
    rfl
  case rejected => exact fun hcode => decideRequest_rejected hcode
  case accepted =>
    intro hcode
    obtain ⟨hacc, hrej, -⟩ := decideRequest_accepted hcode
    exact ⟨hacc, hrej⟩
  case stored =>
    intro hcode ⟨hreplace, hcancel⟩ hfull
    obtain ⟨hfree, hlength, z, hz, hwaits, hasked⟩ := decideRequest_stores hcode hreplace hcancel hfull
    obtain ⟨_, _, _, _, _, hev⟩ := hasked
    refine ⟨hfree, hlength, z, (Dev.descr_congr h.loft _).trans hz, hwaits, ?_⟩
    rw [hev]
    exact ⟨rfl, rfl, rfl, rfl, rfl, rfl⟩

end Sys2Proof.Machine
end

section
/-! Results: what the result of a box or of a descriptor in ENDING leaves in the loft, in the result queue and at the outputs
(R144, R148, R151, R271). -/

namespace Sys2Proof.Machine

open Sys2Proof

/-! ### The EVENT record of a result (R271) -/

theorem fld_putB_disjoint {lo n i : Nat} (h : i + 1 ≤ lo ∨ lo + n ≤ i) (b : Bool) : fld (putB i b) lo n = 0 := by
  have hput : putB i b = put i 1 b.toNat := by cases b <;> simp [putB, put]
  rw [hput, fld_put_disjoint h]

theorem EvResult.code_lt (r : EvResult) : r.code < 16 := by cases r <;> decide

/-- `r` is the EVENT record of `ev` with result `res`: presented at `now`, and stamped `time`. -/
structure Rec.Reports (r : Rec) (now time : Ns) (ev : Event) (res : EvResult) : Prop where
  type : r.type = 4
  pres : r.pres = now
  dtime : r.dtime = time
  tag : fld (reqWord r.body 0) 0 32 = ev.tag.toNat
  code : fld (reqWord r.body 1) 30 4 = res.code

/-- The EVENT record of a result enters the result queue (R268). -/
theorem present_eventRec (half : Bool) (ev : Event) (loft : Nat) (ending : Option Ending) (late : Bool) (resid : Option Int)
    (time : Ns) (unit : BitVec 16) (p : Part) (d : Dev) : ∃ r, r.Reports d.dtime time ev (resultOf ending late p.dclass) ∧
      d.present (eventRec half ev loft ending late resid time unit p) =
        { d with recm := { d.recm with resultQ := d.recm.resultQ ++ [r] } } := by
  have hcode := EvResult.code_lt (resultOf ending late p.dclass)
  refine ⟨{ eventRec half ev loft ending late resid time unit p with pres := d.dtime }, ⟨rfl, rfl, rfl, ?tag, ?code⟩, rfl⟩
  case tag => simpa [eventRec, reqWord, fld_or, fld_put_same, fld_put_disjoint] using ev.tag.isLt
  case code => simp [eventRec, reqWord, fld_or, fld_put_same, fld_put_disjoint, fld_putB_disjoint, Nat.mod_eq_of_lt hcode]

/-! ### What a result may change -/

/-- Two devices that differ at most in the loft, the records and the outputs. -/
def Presented (d d' : Dev) : Prop :=
  ∃ loft recm banks pfi ign gate, d' = { d with loft := loft, recm := recm, banks := banks, pfi := pfi, ign := ign, gate := gate }

theorem Presented.refl (d : Dev) : Presented d d := ⟨_, _, _, _, _, _, rfl⟩

theorem Presented.trans {a b c : Dev} (h : Presented a b) (g : Presented b c) : Presented a c := by
  obtain ⟨_, _, _, _, _, _, rfl⟩ := h
  obtain ⟨_, _, _, _, _, _, rfl⟩ := g
  exact ⟨_, _, _, _, _, _, rfl⟩

/-- A device that differs from that of `s` in DTIME, the loft, the records and the outputs alone is `s` in every other part. -/
theorem Group.same_presented (s : State) {l : List Group} {τ : Ns} {loft : Loft} {recm : RecM} {banks : Vector Bank 4}
    {pfi : Vector Pfi 16} {ign : Vector Ign 16} {gate : Vector Gate 8} (hloft : .loft ∈ l) (hrecs : .recs ∈ l)
    (hbanks : .banks ∈ l ∨ banks = s.dev.banks := by exact .inr rfl) (hpfi : .pfi ∈ l ∨ pfi = s.dev.pfi := by exact .inr rfl)
    (hign : .ign ∈ l ∨ ign = s.dev.ign := by exact .inr rfl) (hgate : .gate ∈ l ∨ gate = s.dev.gate := by exact .inr rfl)
    (g : Group) (hg : g ∉ l) : g.same s { s with dev := { s.dev with
      dtime := τ, loft := loft, recm := recm, banks := banks, pfi := pfi, ign := ign, gate := gate } } := by
  have hrefl := g.same_refl s
  cases g with
  | loft => exact absurd hloft hg
  | recs => exact absurd hrecs hg
  | banks => exact hbanks.resolve_left hg
  | pfi => exact hpfi.resolve_left hg
  | ign => exact hign.resolve_left hg
  | gate => exact hgate.resolve_left hg
  | _ => exact hrefl

section
variable (d : Dev)

/-- An output that still finishes goes on without the box: nothing but who holds it changes (R144). -/
theorem detach_frame (b : Fin 128) : ∃ banks pfi ign gate,
    d.detach b = { d with banks := banks, pfi := pfi, ign := ign, gate := gate } := by
  unfold Dev.detach
  extract_lets n
  split <;> exact ⟨_, _, _, _, rfl⟩

theorem freeDescr_box (i : Nat) (c : Fin 128) :
    (d.freeDescr i).box c = { d.box c with ev := (d.box c).ev.widow i (d.committed i) } := by
  simp [Dev.freeDescr, Dev.box, Dev.modLoft]

theorem freeDescr_freed (i : Nat) : ∀ x ∈ (d.freeDescr i).loft.descrs, x.1 ≠ i := by
  simp only [Dev.freeDescr, Dev.modLoft, List.mem_map, List.mem_filter]
  rintro _ ⟨x, ⟨-, hx⟩, rfl⟩
  simpa using hx

end

/-! ### The result of a box (R144) -/

@[simp] theorem widow_type (i : Nat) (done : Bool) (e : Event) : (e.widow i done).type = e.type := by
  unfold Event.widow
  split <;> rfl

/-- A box is as ready as before where only its event's partner is gone. -/
theorem resultReady_widow {d d' : Dev} {c : Fin 128} {i : Nat} {done : Bool}
    (h : d'.box c = { d.box c with ev := (d.box c).ev.widow i done }) : d'.resultReady c = d.resultReady c := by
  simp only [Dev.resultReady, h, widow_type]

/-- The event of a box as its result shows it: fields that memory errors make unreadable are 0 (R150). -/
def Dev.shownEvent (b : Fin 128) (d : Dev) : Event :=
  if (d.box b).ending.any (·.memErr) then (d.box b).ev.blank (((d.descr (d.box b).loft).map (·.bad)).getD []) else (d.box b).ev

/-- The result of a box's event as it stands (R130). -/
def Dev.shownResult (b : Fin 128) (d : Dev) : EvResult := resultOf (d.box b).ending (d.box b).late (d.partOf b).dclass

/-- The result of box `b` has been presented; the box and its descriptor are FREE, and the other boxes have at most lost a
partner. -/
structure ResultWritten (b : Fin 128) (d d' : Dev) : Prop where
  freed : d'.box b = { gen := (d.box b).gen, lastResult := BitVec.ofNat 4 (d.shownResult b).code, lastTag := (d.shownEvent b).tag }
  others : ∀ c, c ≠ b → ∃ i done, d'.box c = { d.box c with ev := (d.box c).ev.widow i done }
  descrs : ∀ y ∈ d'.loft.descrs, y.1 ≠ (d.box b).loft
  queued : ∃ r time, r.Reports d.dtime time (d.shownEvent b) (d.shownResult b) ∧ d'.recm.resultQ = d.recm.resultQ ++ [r]
  frame : Presented d d'

/-- BOX_LAST takes the code and the tag of the result (R144). -/
def Box.noteLast (ev : Event) (res : EvResult) (x : Box) : Box :=
  { x with lastResult := BitVec.ofNat 4 res.code, lastTag := ev.tag }

theorem reportBox_eq (b : Fin 128) (d : Dev) : ∃ r time loft, r.Reports d.dtime time (d.shownEvent b) (d.shownResult b) ∧
    loft.boxes = upd d.loft.boxes b (Box.noteLast (d.shownEvent b) (d.shownResult b)) ∧
    d.reportBox b (d.box b).ending ((d.box b).resid.getD none) =
      { d with loft := loft, recm := { d.recm with resultQ := d.recm.resultQ ++ [r] } } := by
  unfold Dev.reportBox
  extract_lets x p ev time unit res
  obtain ⟨r, hreports, hpresent⟩ := present_eventRec d.half ev x.loft x.ending x.late (x.resid.getD none) time unit p d
  rw [hpresent]
  exact ⟨r, time, _, hreports, rfl, rfl⟩

/-- A box's result reported and its output detached; box and descriptor are still held. -/
def Dev.presentBox (b : Fin 128) (d : Dev) : Dev := (d.reportBox b (d.box b).ending ((d.box b).resid.getD none)).detach b

/-- The record is queued, BOX_LAST is set, and the boxes stay otherwise. -/
theorem presentBox_presents (b : Fin 128) (d : Dev) : ∃ r time,
    r.Reports d.dtime time (d.shownEvent b) (d.shownResult b) ∧ (d.presentBox b).recm.resultQ = d.recm.resultQ ++ [r] ∧
      (d.presentBox b).loft.boxes = upd d.loft.boxes b (Box.noteLast (d.shownEvent b) (d.shownResult b)) ∧
      Presented d (d.presentBox b) := by
  unfold Dev.presentBox
  obtain ⟨r, time, loft, hreports, hboxes, hreport⟩ := reportBox_eq b d
  obtain ⟨banks, pfi, ign, gate, hdetach⟩ := detach_frame (d.reportBox b (d.box b).ending ((d.box b).resid.getD none)) b
  rw [hdetach, hreport]
  exact ⟨r, time, hreports, rfl, hboxes, _, _, _, _, _, _, rfl⟩

theorem writeBox_ready {d : Dev} {b : Fin 128} (h : d.resultReady b = true) : ResultWritten b d (d.writeBox b) := by
  have hwrite : d.writeBox b = ((d.presentBox b).freeDescr (d.box b).loft).modBox b Box.release := if_pos h
  obtain ⟨r, time, hreports, hqueued, hboxes, hframe⟩ := presentBox_presents b d
  have hself : (d.presentBox b).box b = (d.box b).noteLast (d.shownEvent b) (d.shownResult b) :=
    (congrArg (·[b]) hboxes).trans (upd_same ..)
  have hother {c : Fin 128} (hc : c ≠ b) : (d.presentBox b).box c = d.box c :=
    (congrArg (·[c]) hboxes).trans (upd_other _ _ _ _ hc)
  rw [hwrite]
  exact {
    freed := (upd_same ..).trans ((congrArg Box.release (freeDescr_box ..)).trans (by rw [hself]; rfl))
    others := fun c hc => ⟨_, _, (upd_other _ _ _ _ hc).trans ((freeDescr_box ..).trans (by rw [hother hc]))⟩
    descrs := freeDescr_freed _ _
    queued := ⟨r, time, hreports, hqueued⟩
    frame := hframe.trans ⟨_, _, _, _, _, _, rfl⟩ }

section
variable {b : Fin 128} {d d' : Dev} (h : ResultWritten b d d') (c : Fin 128)
include h

theorem ResultWritten.state : (d'.box c).state = if c = b then .free else (d.box c).state := by
  split
  case isTrue hc => rw [hc, h.freed]
  case isFalse hc =>
    obtain ⟨_, _, hbox⟩ := h.others c hc
    rw [hbox]

theorem ResultWritten.gen : (d'.box c).gen = (d.box c).gen := by
  by_cases hc : c = b
  · rw [hc, h.freed]
  · obtain ⟨_, _, hbox⟩ := h.others c hc
    rw [hbox]

variable {c}

theorem ResultWritten.ready (hc : c ≠ b) : d'.resultReady c = d.resultReady c := by
  obtain ⟨_, _, hbox⟩ := h.others c hc
  exact resultReady_widow hbox

end

/-- The results of the boxes of a list have been presented: those boxes are FREE, and the others in their states. -/
structure ResultsWritten (l : List (Fin 128)) (d d' : Dev) : Prop where
  state : ∀ c, (d'.box c).state = if c ∈ l then .free else (d.box c).state
  gen : ∀ c, (d'.box c).gen = (d.box c).gen
  queued : d'.recm.resultQ.length = d.recm.resultQ.length + l.length
  frame : Presented d d'

/-- Boxes that are ready write their results one after another: a result leaves the boxes after it ready. -/
theorem foldl_writeBox {l : List (Fin 128)} (hnodup : l.Nodup) {d : Dev} (hready : ∀ c ∈ l, d.resultReady c = true) :
    ResultsWritten l d (l.foldl (fun d x => d.writeBox x) d) := by
  induction l generalizing d with
  | nil => exact ⟨fun _ => rfl, fun _ => rfl, rfl, .refl d⟩
  | cons b l ih =>
    obtain ⟨hb, hnodup⟩ := List.nodup_cons.mp hnodup
    obtain ⟨hreadyb, hreadyl⟩ := List.forall_mem_cons.mp hready
    have hwritten := writeBox_ready hreadyb
    obtain ⟨r, _, -, hqueued⟩ := hwritten.queued
    have hrest := ih hnodup (d := d.writeBox b) fun c hc =>
      (hwritten.ready (ne_of_mem_of_not_mem hc hb)).trans (hreadyl c hc)
    exact {
      state := fun c => (hrest.state c).trans (by rw [hwritten.state]; by_cases hc : c = b <;> simp [hc])
      gen := fun c => (hrest.gen c).trans (hwritten.gen c)
      queued := hrest.queued.trans (by simp only [hqueued, List.length_append, List.length_cons, List.length_nil]; omega)
      frame := hwritten.frame.trans hrest.frame }

/-! ### The boxes that are ready up to an index (R145) -/

/-- The boxes up to `b` whose results are ready, in ascending order. -/
def Dev.readyUpTo (b : Fin 128) (d : Dev) : List (Fin 128) := allBoxes.filter fun c => c ≤ b && d.resultReady c

section
variable {d : Dev} {b : Fin 128}

theorem mem_readyUpTo {c : Fin 128} : c ∈ d.readyUpTo b ↔ c ≤ b ∧ d.resultReady c = true := by
  simp [Dev.readyUpTo, allBoxes]

theorem readyUpTo_nodup : (d.readyUpTo b).Nodup := (List.nodup_finRange 128).filter _

theorem writeBoxes_results (b : Fin 128) (d : Dev) : ResultsWritten (d.readyUpTo b) d (d.writeBoxes b) :=
  foldl_writeBox readyUpTo_nodup fun _ hc => (mem_readyUpTo.mp hc).2

theorem writeBoxes_none (h : ∀ c : Fin 128, c ≤ b → d.resultReady c = false) : d.writeBoxes b = d := by
  have hnil : d.readyUpTo b = [] := List.eq_nil_iff_forall_not_mem.mpr fun c hc => by
    obtain ⟨hle, hready⟩ := mem_readyUpTo.mp hc
    exact absurd hready (by simp [h c hle])
  exact congrArg (List.foldl (fun d x => d.writeBox x) d) hnil

theorem writeBoxes_first (hfirst : ∀ c : Fin 128, c < b → d.resultReady c = false) (hready : d.resultReady b = true) :
    d.writeBoxes b = d.writeBox b := by
  have hsingle : d.readyUpTo b = [b] := by
    refine List.perm_singleton.mp ((List.perm_ext_iff_of_nodup readyUpTo_nodup (List.nodup_singleton b)).mpr fun c => ?_)
    rw [mem_readyUpTo, List.mem_singleton]
    constructor
    · rintro ⟨hle, hc⟩
      by_contra hne
      exact absurd hc (by simp [hfirst c (lt_of_le_of_ne hle hne)])
    · rintro rfl
      exact ⟨le_rfl, hready⟩
  exact congrArg (List.foldl (fun d x => d.writeBox x) d) hsingle

end

/-! ### The result of a descriptor in ENDING (R148) -/

theorem mem_of_descr {d : Dev} {i : Nat} {y : Descr} (h : d.descr i = some y) : (i, y) ∈ d.loft.descrs := by
  unfold Dev.descr at h
  generalize d.loft.descrs = l at h ⊢
  induction l with
  | nil => exact absurd h (by simp [sget])
  | cons x l ih =>
    simp only [List.map_cons, sget] at h
    split at h
    case isTrue heq =>
      obtain rfl : x.2 = y := Option.some.inj h
      exact heq ▸ List.mem_cons_self
    case isFalse => exact List.mem_cons_of_mem _ (ih h)

section
variable {d : Dev} {i : Nat} {y : Descr}

theorem writeEnding_none (h : d.descr i = none) : d.writeEnding i = d := by
  simp only [Dev.writeEnding, h]

/-- The event of a descriptor in ENDING as its result shows it (R150). -/
def Descr.shownEvent (y : Descr) : Event := if y.ending.memErr then y.ev.blank y.bad else y.ev

variable (hdescr : d.descr i = some y) (hending : y.state = .ending)
include hdescr hending

theorem writeEnding_ending : ∃ r loft, r.Reports d.dtime y.ending.time y.shownEvent y.ending.result ∧
    (∀ x ∈ loft.descrs, x.1 ≠ i) ∧
    d.writeEnding i = { d with loft := loft, recm := { d.recm with resultQ := d.recm.resultQ ++ [r] } } := by
  obtain ⟨r, hreports, hpresent⟩ :=
    present_eventRec d.half y.shownEvent i (some y.ending) false none y.ending.time y.ending.ctrl {} d
  have hwrite : d.writeEnding i = ((d.present (eventRec d.half y.shownEvent i (some y.ending) false none y.ending.time
      y.ending.ctrl {})).countResult y.ending.result none).freeDescr i := by
    simp only [Dev.writeEnding, hdescr, hending, if_true]
    rfl
  rw [hpresent] at hwrite
  exact ⟨r, _, hreports, freeDescr_freed _ i, hwrite⟩

/-- Where no box is ready and no lower descriptor is in ENDING, the result of the one named is written, once. -/
theorem writeEndings_first (hready : ∀ c : Fin 128, d.resultReady c = false)
    (hfirst : ∀ x ∈ d.loft.descrs, x.1 < i → x.2.state ≠ .ending) : d.writeEndings i = d.writeEnding i := by
  unfold Dev.writeEndings
  rw [writeBoxes_none fun c _ => hready c]
  have hindex : ∀ x ∈ d.loft.descrs.filter (fun x => decide (x.1 ≤ i) && x.2.state == .ending), x.1 = i := by
    intro x hx
    obtain ⟨hmem, hle, hstate⟩ : x ∈ d.loft.descrs ∧ x.1 ≤ i ∧ x.2.state = .ending := by simpa using hx
    exact (Nat.lt_or_eq_of_le hle).resolve_left fun hlt => hfirst x hmem hlt hstate
  have hmem : (i, y) ∈ d.loft.descrs.filter (fun x => decide (x.1 ≤ i) && x.2.state == .ending) := by
    simpa [hending] using mem_of_descr hdescr
  refine (List.foldl_ext _ (fun d _ => d.writeEnding i) d fun _ x hx => by rw [hindex x hx]).trans ?_
  match d.loft.descrs.filter _, hmem with
  | _ :: l, _ =>
    obtain ⟨_, _, -, hfreed, hwrite⟩ := writeEnding_ending hdescr hending
    have hfreed : (d.writeEnding i).descr i = none := descr_none hfreed (congrArg (·.loft.descrs) hwrite)
    exact List.foldl_fixed' (fun _ => writeEnding_none hfreed) l

end

/-! ### The command -/

/-- The results up to box `b` complete with what they leave. -/
theorem completes_boxes {s : State} {t : Ns} {b : Fin 128} {d : Dev} {P : State → Prop} (hsettled : s.dev.settled)
    (hbody : (s.dev.at t).writeBoxes b = d) (hframe : Presented (s.dev.at t) d)
    (hP : ∀ s', s'.dev.loft = d.loft → s'.dev.recm = d.recm → s.touches [.loft, .recs, .banks, .pfi, .ign, .gate] s' → P s') :
    Completes (.resultWrite t (.box b)) s P := by
  obtain ⟨_, _, _, _, _, _, rfl⟩ := hframe
  refine completes_of_after (c := .resultWrite t (.box b)) (body := fun _ d => d.writeBoxes b) rfl hbody hsettled.1 fun s' h => ?_
  exact hP s' h.loft h.recm (h.touches hsettled.1 hsettled.2 (Group.same_presented s (by simp) (by simp)
    (.inl (by simp)) (.inl (by simp)) (.inl (by simp)) (.inl (by simp))))

/-- Settles O23: the boxes that are ready write one after another (`writeBoxes_results`); the first of them alone leaves what
`writeBox_ready` says, and a descriptor in ENDING follows when no box is ready (`writeEndings_first`). -/
theorem resultWrite : Obligations.ResultWrite := by
  unfold Obligations.ResultWrite
  intro s t ⟨_, hsettled⟩
  refine ⟨?boxes, ?first, ?none, ?ending⟩
  case boxes =>
    intro b
    have hwritten := writeBoxes_results b (s.dev.at t)
    refine completes_boxes hsettled rfl hwritten.frame fun s' hloft hrecm htouches => ?_
    rw [hloft, hrecm]
    refine ⟨fun c hle hready => ⟨?_, hwritten.gen c⟩, fun c hc => ?_, hwritten.queued, htouches⟩
    · exact (hwritten.state c).trans (if_pos (mem_readyUpTo.mpr ⟨hle, hready⟩))
    · refine (hwritten.state c).trans (if_neg fun hmem => ?_)
      obtain ⟨hle, hready⟩ := mem_readyUpTo.mp hmem
      exact hc.elim (fun hlt => absurd hle (not_le_of_gt hlt)) fun h => absurd (hready.symm.trans h) (by decide)
  case first =>
    intro b hfirst hready
    have hwritten := writeBox_ready (d := s.dev.at t) hready
    obtain ⟨r, _, hreports, hqueued⟩ := hwritten.queued
    refine completes_boxes hsettled (writeBoxes_first (d := s.dev.at t) hfirst hready) hwritten.frame
      fun s' hloft hrecm htouches => ?_
    intro x ev y p res
    have hbox : y = _ := (congrArg (·.boxes[b]) hloft).trans hwritten.freed
    rw [hbox, hloft, hrecm]
    exact ⟨rfl, rfl, rfl, rfl, hwritten.descrs, ⟨r, hqueued, hreports.type, hreports.pres, hreports.tag, hreports.code⟩, htouches⟩
  case none =>
    intro b hnone
    exact completes_untouched (c := .resultWrite t (.box b)) hsettled rfl (writeBoxes_none (d := s.dev.at t) hnone)
  case ending =>
    intro i y hdescr hending hready hfirst
    obtain ⟨r, loft, hreports, hfreed, hwrite⟩ := writeEnding_ending (d := s.dev.at t) hdescr hending
    have hbody := (writeEndings_first (d := s.dev.at t) hdescr hending hready hfirst).trans hwrite
    refine completes_of_after (c := .resultWrite t (.descriptor i)) (body := fun _ d => d.writeEndings i.val) rfl hbody hsettled.1
      fun s' h => ⟨descr_none hfreed (congrArg Loft.descrs h.loft), ?_, ?_⟩
    · exact ⟨r, congrArg RecM.resultQ h.recm, hreports.type, hreports.dtime, hreports.tag, hreports.code⟩
    · exact h.touches hsettled.1 hsettled.2 (Group.same_presented s (by simp) (by simp))

end Sys2Proof.Machine
end

section
/-! Commands of the drive manager that raise no fault: the frame of a change of one bank, and the start of a sequencer's step
(R176, R178). -/

namespace Sys2Proof.Machine

open Sys2Proof

/-! ### Frames of the drive manager -/

/-- A device that differs from that of `s` in DTIME, the loft, banks, boost, port injectors, coils and diagnostics alone is `s`
in every other part. -/
theorem Group.same_drive (s : State) {l : List Group} {τ : Ns} {loft : Loft} {banks : Vector Bank 4} {bst : Bst}
    {pfi : Vector Pfi 16} {ign : Vector Ign 16} {diag : Diag} (hloft : .loft ∈ l ∨ loft = s.dev.loft := by exact .inr rfl)
    (hbanks : .banks ∈ l ∨ banks = s.dev.banks := by exact .inr rfl) (hbst : .bst ∈ l ∨ bst = s.dev.bst := by exact .inr rfl)
    (hpfi : .pfi ∈ l ∨ pfi = s.dev.pfi := by exact .inr rfl) (hign : .ign ∈ l ∨ ign = s.dev.ign := by exact .inr rfl)
    (hdiag : .diag ∈ l ∨ diag = s.dev.diag := by exact .inr rfl) (g : Group) (hg : g ∉ l) :
    g.same s { s with dev := { s.dev with
      dtime := τ, loft := loft, banks := banks, bst := bst, pfi := pfi, ign := ign, diag := diag } } := by
  have hrefl := g.same_refl s
  cases g with
  | loft => exact hloft.resolve_left hg
  | banks => exact hbanks.resolve_left hg
  | bst => exact hbst.resolve_left hg
  | pfi => exact hpfi.resolve_left hg
  | ign => exact hign.resolve_left hg
  | diag => exact hdiag.resolve_left hg
  | _ => exact hrefl

/-- A command that changes one bank alone. -/
theorem completes_bank {s : State} {c : Instr} {body : Env → Dev → Dev} {k : Fin 4} {f : Bank → Bank} (hsettled : s.dev.settled)
    (hexec : exec c s = runAt (stampOf c) body s) (hbody : s.after (stampOf c) body = (s.dev.at (stampOf c)).modBank k f) :
    Completes c s fun s' => s'.dev.banks[k] = f s.dev.banks[k] ∧ s.touches [.banks] s' ∧
      ∀ j, j ≠ k → s'.dev.banks[j] = s.dev.banks[j] := by
  refine completes_of_after hexec hbody hsettled.1 fun s' h => ?_
  have hbanks : s'.dev.banks = upd s.dev.banks k f := h.banks
  rw [hbanks]
  refine ⟨upd_same .., ?_, fun j hj => upd_other _ _ _ _ hj⟩
  exact h.touches hsettled.1 hsettled.2 (Group.same_drive s (hbanks := .inl (by simp)))

/-! ### Saturation, and one change of a bank -/

theorem satN_eq_min (hi x : Nat) : satN hi x = min hi x := by
  unfold satN
  split <;> omega

section
variable {k : Fin 4} {f : Bank → Bank} (d : Dev)

theorem upd_self {α : Type} {n : Nat} {v : Vector α n} {i : Fin n} {f : α → α} (h : f v[i] = v[i]) : upd v i f = v := by
  rw [upd, h]
  exact Vector.set_getElem_self ..

theorem upd_congr {α : Type} {n : Nat} {v : Vector α n} {i : Fin n} {f g : α → α} (h : f v[i] = g v[i]) : upd v i f = upd v i g := by
  rw [upd, upd, h]

theorem Dev.modBank_modBank (f g : Bank → Bank) : (d.modBank k f).modBank k g = d.modBank k fun b => g (f b) := by
  simp only [Dev.modBank, upd_upd]

theorem Dev.modBank_congr {g : Bank → Bank} (h : f (d.bank k) = g (d.bank k)) : d.modBank k f = d.modBank k g := by
  rw [Dev.modBank, Dev.modBank, upd_congr h]

theorem Dev.modBank_self (h : f (d.bank k) = d.bank k) : d.modBank k f = d := by
  rw [Dev.modBank, upd_self h]

@[simp] theorem Dev.bank_modBank : (d.modBank k f).bank k = f (d.bank k) := upd_same ..

end

/-- A switch state commanded on a bank; the state in force again changes nothing (R156; log 44 of the assumptions). -/
def Bank.driven (st : SwState) (t : Ns) (low : Bool) (b : Bank) : Bank := if b.sw = st then b else b.switch st t low

/-- The result fields that the sequencer gathers for its event (R194). -/
def Bank.noted (f : DiPart → DiPart) (b : Bank) : Bank := { b with psq := { b.psq with last := f b.psq.last } }

/-- An argument out of range is flagged in the result (R181). -/
def Bank.flagArg (bad : Bool) (b : Bank) : Bank := b.noted fun l => { l with argBad := l.argBad || bad }

section
variable (k : Fin 4) (d : Dev)

theorem drive_eq (st : SwState) (t : Ns) : d.drive k st t = d.modBank k (Bank.driven st t d.sup.vgdLow) := rfl

theorem modLast_eq (f : DiPart → DiPart) : d.modLast k f = d.modBank k (Bank.noted f) := rfl

theorem argBad_eq (bad : Bool) : d.argBad k bad = d.modBank k (Bank.flagArg bad) := by
  cases bad
  case false => exact (Dev.modBank_self d (by simp [Bank.flagArg, Bank.noted])).symm
  case true => exact Dev.modBank_congr d (by simp [Bank.flagArg, Bank.noted])

end

section
variable (st : SwState) (t : Ns) (low : Bool) (b : Bank)

@[simp] theorem driven_sw : (b.driven st t low).sw = st := by
  unfold Bank.driven
  split
  case isTrue h => exact h
  case isFalse => rfl

@[simp] theorem driven_psq : (b.driven st t low).psq = b.psq := by
  unfold Bank.driven
  split <;> rfl

@[simp] theorem driven_dacHi : (b.driven st t low).dacHi = b.dacHi := by
  unfold Bank.driven
  split <;> rfl

@[simp] theorem driven_dacLo : (b.driven st t low).dacLo = b.dacLo := by
  unfold Bank.driven
  split <;> rfl

@[simp] theorem driven_vBst : (b.driven st t low).vBst = b.vBst := by
  unfold Bank.driven
  split <;> rfl

@[simp] theorem driven_owner : (b.driven st t low).owner = b.owner := by
  unfold Bank.driven
  split <;> rfl

variable {st t low b}

theorem driven_same (h : b.sw = st) : b.driven st t low = b := if_pos h

/-- The pins after a change of switch state: the high side or the freewheel switch of the state alone, and the low side in
every state but DECAY (R155, R156). -/
theorem driven_pins (h : b.sw ≠ st) : (b.driven st t low).hsb.on = (decide (st = .boost) && b.enabled) ∧
    (b.driven st t low).hsv.on = (decide (st = .batt) && b.enabled) ∧
    (b.driven st t low).fw.on = (decide (st = .free) && b.enabled) ∧
    (b.driven st t low).lsPins[b.ls].on = (decide (st ≠ .decay) && b.enabled) := by
  rw [Bank.driven, if_neg h]
  refine ⟨Pin.set_on .., Pin.set_on .., Pin.set_on .., ?_⟩
  rw [show (b.switch st t low).lsPins[b.ls] = _ from upd_same .., Pin.set_on]
  cases st <;> rfl

end

/-! ### The start of a step (R176, R178) -/

theorem catchUp_ready {p : Psq} (h : p.phase = .ready) (t : Ns) : p.catchUp t = p := by
  simp only [Psq.catchUp, h]

theorem fetchPsq_clean {d : Dev} (h : d.memu.errs = []) (e : Env) (k : Fin 4) (i : Nat) :
    d.fetchPsq e k i = (e.mems.word (profAddr k.val i), false, d) := by
  simp only [Dev.fetchPsq, Dev.readAt_clean h]
  rfl

/-- A sequencer that is ready executes the instruction at its PC, once its step has come and before t_e. -/
theorem psqStep_ready {e : Env} {d : Dev} {k : Fin 4} {w : W64} {op lead : Nat} (herrs : d.memu.errs = [])
    (hphase : (d.bank k).psq.phase = .ready) (hstep : (d.bank k).psq.stepAt ≤ d.dtime + lead)
    (hend : (d.bank k).psq.stepAt < (d.bank k).psq.te) (hword : e.mems.word (profAddr k.val (d.bank k).psq.pc) = w)
    (hop : fld w 0 4 = op) (f : W64 → Dev → Dev) : d.psqStep e k op lead f = f w d := by
  have hcatch : d.modPsq k (Psq.catchUp (d.dtime + lead)) = d :=
    Dev.modBank_self d (congrArg (fun p : Psq => { d.bank k with psq := p }) (catchUp_ready hphase _))
  simp [Dev.psqStep, hcatch, hphase, hword, hop, Nat.not_lt_of_le hstep, Nat.not_le_of_lt hend, fetchPsq_clean herrs]

theorem after_psqStep {s : State} {k : Fin 4} {t : Ns} {w : W64} {op lead : Nat} (hclean : s.clean) (hat : s.psqAt k t w)
    (hlead : s.dev.banks[k].psq.stepAt ≤ s.now t + lead) (hop : fld w 0 4 = op) (f : Env → W64 → Dev → Dev) :
    s.after t (fun e d => d.psqStep e k op lead (f e)) = f s.env w (s.dev.at t) := by
  obtain ⟨hphase, -, hend, hword⟩ := hat
  exact psqStep_ready (e := s.env) (d := s.dev.at t) hclean.2.1 hphase hlead hend hword hop _

/-- A sequencer's instruction that changes its bank alone. -/
theorem completes_psq {s : State} {k : Fin 4} {w : W64} {c : Instr} {op lead : Nat} {f : Env → W64 → Dev → Dev} {g : Bank → Bank}
    (hclean : s.clean) (hat : s.psqAt k (stampOf c) w) (hlead : s.dev.banks[k].psq.stepAt ≤ s.now (stampOf c) + lead)
    (hop : fld w 0 4 = op) (hexec : exec c s = runAt (stampOf c) (fun e d => d.psqStep e k op lead (f e)) s)
    (hbody : f s.env w (s.dev.at (stampOf c)) = (s.dev.at (stampOf c)).modBank k g) :
    Completes c s fun s' => s'.dev.banks[k] = g s.dev.banks[k] ∧ s.touches [.banks] s' ∧
      ∀ j, j ≠ k → s'.dev.banks[j] = s.dev.banks[j] :=
  completes_bank hclean.1.2 hexec ((after_psqStep hclean hat hlead hop f).trans hbody)

end Sys2Proof.Machine
end

section
/-! The instructions of the profile sequencers: what each leaves of its bank at the start of its step (R156, R176 to R187). -/

namespace Sys2Proof.Machine

open Sys2Proof

/-- A one-step instruction ends, and the next one follows at `x` (R178). -/
def Bank.stepped (x : PsqNext) (b : Bank) : Bank := { b with psq := { b.psq with phase := .timed (b.psq.stepAt + 4) x } }

/-- The filtered comparator outputs at the start of a step; while BLANK runs they hold what they were (R158). -/
def Bank.latched (hi lo : Bool) (b : Bank) : Bank :=
  let open_ := b.compares b.psq.stepAt
  { b with cmpHi := if open_ then hi else b.cmpHi, cmpLo := if open_ then lo else b.cmpLo }

/-- The conditions 0 to 9 of a BRANCH: the profile flags and the comparator outputs (R183). -/
def Bank.cond (w : W64) (b : Bank) : Bool :=
  if fld w 4 4 = 8 then b.cmpHi else if fld w 4 4 = 9 then b.cmpLo else b.psq.flags.getLsbD (fld w 4 4)

/-- A chop begins in S_ON, for a number of steps or until t_e (R182). -/
def Bank.chopBegun (w : W64) (steps : Option Nat) (b : Bank) : Bank :=
  { b with psq := { b.psq with
    phase := .chop (steps.map fun n => b.psq.stepAt + 4 * max 1 n)
    sOn := SwState.ofCode (fld w 4 3), sOff := SwState.ofCode (fld w 7 3), minSw := fld w 36 4 * 250
    chopOn := true, chopAt := b.psq.stepAt, ahead := true } }

/-- The END block, with END's word `w`, begins in the step `t`; its DECAY is for the pins at `tp` (R160, R186, R187). -/
def Bank.endBegun (w : W64) (t tp : Ns) (volt : Nat) (low : Bool) (b : Bank) : Bank :=
  let q := b.psq
  let steps := psqTime q.args w
  let thr := psqThr q.args (fld w 14 3) (fld w 4 10)
  ({ b with
    vBst := volt, sumCodes := 0, endSamples := 0, dacLo := thr.1
    psq := { q.jumpTo (q.profLen - 1) with
      phase := .waitEnd (t + 4 * max 1 steps.1), stepAt := t, endAt := some t, last := { q.last with flags := q.flags } } }.driven
    .decay tp low).flagArg (steps.2 || thr.2)

/-! ### What an instruction leaves of its bank -/

section
variable (k : Fin 4) (w : W64) (d : Dev)

theorem oneStepSeq_eq : d.oneStepSeq k = d.modBank k fun b => b.stepped (.seq b.psq.rel) := Dev.modBank_congr d rfl

theorem psqDrive_eq : d.psqDrive k w = d.modBank k fun b =>
    (b.driven (SwState.ofCode (fld w 4 3)) ((d.psqOf k).pinAt (d.psqOf k).stepAt) d.sup.vgdLow).stepped (.seq b.psq.rel) := by
  simp only [Dev.psqDrive, drive_eq, oneStepSeq_eq, Dev.modBank_modBank, driven_psq]

theorem psqUntil_above : d.psqUntil k true w = d.modBank k fun b =>
    { b with dacHi := (psqThr (d.psqOf k).args (fld w 14 3) (fld w 4 10)).1, psq := { b.psq with
      phase := .waitHi ((d.psqOf k).stepAt + 4 * max 1 (psqTime (d.psqOf k).args w).1) } }.flagArg
    ((psqThr (d.psqOf k).args (fld w 14 3) (fld w 4 10)).2 || (psqTime (d.psqOf k).args w).2) := by
  simp only [Dev.psqUntil, argBad_eq, Dev.dacHi, Dev.modPsq, Dev.modBank_modBank, if_true]

theorem psqUntil_below : d.psqUntil k false w = d.modBank k fun b =>
    { b with dacLo := (psqThr (d.psqOf k).args (fld w 14 3) (fld w 4 10)).1, psq := { b.psq with
      phase := .waitLo ((d.psqOf k).stepAt + 4 * max 1 (psqTime (d.psqOf k).args w).1) } }.flagArg
    ((psqThr (d.psqOf k).args (fld w 14 3) (fld w 4 10)).2 || (psqTime (d.psqOf k).args w).2) := by
  simp only [Dev.psqUntil, argBad_eq, Dev.dacLo, Dev.modPsq, Dev.modBank_modBank, Bool.false_eq_true, if_false]

theorem psqWait_eq : d.psqWait k w = d.modBank k fun b =>
    { b with psq := { b.psq with
      phase := .timed (b.psq.stepAt + 4 * max 1 (psqTime (d.psqOf k).args w).1) (.seq b.psq.rel), ahead := true } }.flagArg
    (psqTime (d.psqOf k).args w).2 := by
  simp only [Dev.psqWait, argBad_eq, Dev.modPsq, Dev.modBank_modBank]

theorem psqSample_eq : d.psqSample k w = d.modBank k fun b =>
    (b.noted fun l => if bit w 4 then { l with sample1 := (d.bank k).cur } else { l with sample0 := (d.bank k).cur }).stepped
      (.seq b.psq.rel) := by
  simp only [Dev.psqSample, modLast_eq, oneStepSeq_eq, Dev.modBank_modBank]
  rfl

theorem psqMark_eq : d.psqMark k w = d.modBank k fun b =>
    (b.noted fun l => if bit w 4 then { l with mark1 := satN 0xFFFFFFFF ((d.psqOf k).stepAt - (d.psqOf k).ts) }
      else { l with mark0 := satN 0xFFFFFFFF ((d.psqOf k).stepAt - (d.psqOf k).ts) }).stepped (.seq b.psq.rel) := by
  simp only [Dev.psqMark, modLast_eq, oneStepSeq_eq, Dev.modBank_modBank]
  rfl

theorem psqLoop_skips (h : fld w 4 10 = 0) : d.psqLoop k w = d.modBank k (Bank.stepped (.seq (fld w 14 10))) := if_pos h

theorem psqLoop_enters (h : fld w 4 10 ≠ 0) : d.psqLoop k w = d.modBank k fun b =>
    { b with psq := { b.psq with
      lc := upd b.psq.lc (Fin.ofNat 2 (fld w 24 1)) fun _ => fld w 4 10
      body := upd b.psq.body (Fin.ofNat 2 (fld w 24 1)) fun _ => ((d.psqOf k).rel + 1, fld w 14 10) } }.stepped
    (.jump ((d.psqOf k).rel + 1)) :=
  (if_neg h).trans (Dev.modBank_modBank ..)

theorem psqCond_eq (h : fld w 4 4 < 10) : d.psqCond k w = ((d.bank k).cond w, false) := by
  unfold Dev.psqCond Bank.cond
  obtain hflag | hcmp | hcmp : fld w 4 4 < 8 ∨ fld w 4 4 = 8 ∨ fld w 4 4 = 9 := by omega
  · simp [hflag, Nat.ne_of_lt hflag, Nat.ne_of_lt (Nat.lt_succ_of_lt hflag)]
  · simp [hcmp]
  · simp [hcmp]

theorem psqBranch_eq (hi lo : Bool) (h : fld w 4 4 < 10) : d.psqBranch k hi lo w = d.modBank k fun b =>
    (b.latched hi lo).stepped (if (b.latched hi lo).cond w = bit w 8 then .seq b.psq.rel else .jump (fld w 9 10)) := by
  have hlatch : (d.modBank k fun b => if b.compares b.psq.stepAt then { b with cmpHi := hi, cmpLo := lo } else b) =
      d.modBank k (Bank.latched hi lo) := by
    congr 1
    funext b
    simp only [Bank.latched]
    split <;> rfl
  simp only [Dev.psqBranch, hlatch, psqCond_eq k w _ h, Dev.bank_modBank]
  by_cases hcond : ((d.bank k).latched hi lo).cond w = bit w 8
  · simp only [hcond, bne_self_eq_false, Bool.false_eq_true, if_false, oneStepSeq_eq]
    refine (Dev.modBank_modBank ..).trans (Dev.modBank_congr d ?_)
    exact congrArg (Bank.stepped · _) (if_pos hcond).symm
  · simp only [bne_iff_ne.mpr hcond, if_true]
    refine (Dev.modBank_modBank ..).trans (Dev.modBank_congr d ?_)
    exact congrArg (Bank.stepped · _) (if_neg hcond).symm

theorem psqThr_none (src imm : Nat) : psqThr 0 src imm = (imm, false) := by
  simp [psqThr, fld]

theorem psqChop_eq (toEnd : Bool) : ∃ hi lo bad, ((d.psqOf k).args = 0 → hi = fld w 10 10 ∧ lo = fld w 23 10) ∧
    d.psqChop k toEnd w = d.modBank k fun b => ((({ b with dacHi := hi, dacLo := lo }.driven (SwState.ofCode (fld w 4 3))
      ((d.psqOf k).pinAt (d.psqOf k).stepAt) d.sup.vgdLow).chopBegun w
      (if toEnd then none else some (psqTime (d.psqOf k).args w).1)).flagArg bad) := by
  let q := d.psqOf k
  let hi := psqThr q.args (fld w 20 3) (fld w 10 10)
  let lo := psqThr q.args (fld w 33 3) (fld w 23 10)
  let both := decide (hi.1 ≤ lo.1)
  let thr := if both then (fld w 10 10, fld w 23 10) else (hi.1, lo.1)
  refine ⟨thr.1, thr.2, hi.2 || lo.2 || (if toEnd then (0, false) else psqTime q.args w).2 || both, fun hargs => ?none, ?eq⟩
  case none => simp only [thr, hi, lo, q, hargs, psqThr_none, ite_self, and_self]
  case eq =>
    simp only [Dev.psqChop, argBad_eq, drive_eq, Dev.dacHi, Dev.dacLo, Dev.modPsq, Dev.modBank_modBank]
    cases toEnd
    · rfl
    · rfl

section
variable (steps : Option Nat) (bad : Bool) (b : Bank)

theorem chopBegun_bank : ((b.chopBegun w steps).flagArg bad).sw = b.sw ∧ ((b.chopBegun w steps).flagArg bad).dacHi = b.dacHi ∧
    ((b.chopBegun w steps).flagArg bad).dacLo = b.dacLo := ⟨rfl, rfl, rfl⟩

theorem chopBegun_psq : ((b.chopBegun w steps).flagArg bad).psq.phase = .chop (steps.map fun n => b.psq.stepAt + 4 * max 1 n) ∧
    ((b.chopBegun w steps).flagArg bad).psq.sOn = SwState.ofCode (fld w 4 3) ∧
    ((b.chopBegun w steps).flagArg bad).psq.sOff = SwState.ofCode (fld w 7 3) ∧
    ((b.chopBegun w steps).flagArg bad).psq.minSw = fld w 36 4 * 250 ∧
    ((b.chopBegun w steps).flagArg bad).psq.chopOn = true := ⟨rfl, rfl, rfl, rfl, rfl⟩

end

theorem psqChop_bank (toEnd : Bool) : ∃ f, d.psqChop k toEnd w = d.modBank k f ∧
    (let c := f (d.bank k)
     c.sw = SwState.ofCode (fld w 4 3) ∧ c.psq.phase = .chop (if toEnd then none else
       some ((d.psqOf k).stepAt + 4 * max 1 (psqTime (d.psqOf k).args w).1)) ∧
     c.psq.sOn = SwState.ofCode (fld w 4 3) ∧ c.psq.sOff = SwState.ofCode (fld w 7 3) ∧ c.psq.minSw = fld w 36 4 * 250 ∧
     c.psq.chopOn = true ∧ ((d.psqOf k).args = 0 → c.dacHi = fld w 10 10 ∧ c.dacLo = fld w 23 10)) := by
  obtain ⟨hi, lo, bad, hthr, heq⟩ := psqChop_eq k w d toEnd
  refine ⟨_, heq, ?_⟩
  let begun := { d.bank k with dacHi := hi, dacLo := lo }.driven (SwState.ofCode (fld w 4 3))
    ((d.psqOf k).pinAt (d.psqOf k).stepAt) d.sup.vgdLow
  let steps := if toEnd then none else some (psqTime (d.psqOf k).args w).1
  obtain ⟨hsw, hdacHi, hdacLo⟩ := chopBegun_bank w steps bad begun
  obtain ⟨hphase, hon, hoff, hmin, hchop⟩ := chopBegun_psq w steps bad begun
  refine ⟨hsw.trans (driven_sw ..), ?_, hon, hoff, hmin, hchop, fun hargs => ?_⟩
  · simp only [hphase, begun, driven_psq, steps]
    cases toEnd <;> rfl
  · obtain ⟨rfl, rfl⟩ := hthr hargs
    exact ⟨hdacHi.trans (driven_dacHi ..), hdacLo.trans (driven_dacLo ..)⟩

/-! ### The END block -/

theorem jumpTo_earlies (n : Nat) (p : Psq) : (p.jumpTo n).earlies = p.earlies := by
  simp only [Psq.jumpTo]
  split <;> split <;> rfl

theorem beginEnd_eq {e : Env} {d : Dev} (herrs : d.memu.errs = []) (k : Fin 4) (t tp : Ns) : d.beginEnd e k t tp =
    d.modBank k (Bank.endBegun (e.mems.word (profAddr k.val ((d.psqOf k).profStart + (d.psqOf k).profLen - 1))) t tp d.bst.volt
      d.sup.vgdLow) := by
  simp only [Dev.beginEnd, fetchPsq_clean herrs, Bool.false_eq_true, if_false, argBad_eq, drive_eq, Dev.dacLo, Dev.modPsq,
    Dev.modBank_modBank]
  rfl

theorem psqEnd_eq {e : Env} {d : Dev} (herrs : d.memu.errs = []) (k : Fin 4) : d.psqEnd e k = d.modBank k fun b =>
    { b with psq := { b.psq with earlies := b.psq.earlies + 1, last :=
      { b.psq.last with early := true, tEndCmd := (d.psqOf k).stepAt - (d.psqOf k).ts } } }.endBegun
        (e.mems.word (profAddr k.val ((d.psqOf k).profStart + (d.psqOf k).profLen - 1))) (d.psqOf k).stepAt
        ((d.psqOf k).pinAt (d.psqOf k).stepAt) d.bst.volt d.sup.vgdLow := by
  unfold Dev.psqEnd
  simp only [beginEnd_eq (d := d.modPsq k _) herrs]
  refine (Dev.modBank_modBank ..).trans (Dev.modBank_congr d ?_)
  simp only [Dev.psqOf, Dev.modPsq, Dev.bank_modBank]
  rfl

section
variable (w : W64) (t tp : Ns) (volt : Nat) (low : Bool) (b : Bank)

theorem endBegun_bank : (b.endBegun w t tp volt low).sw = .decay ∧ (b.endBegun w t tp volt low).vBst = volt ∧
    (b.endBegun w t tp volt low).dacLo = (psqThr b.psq.args (fld w 14 3) (fld w 4 10)).1 ∧
    (b.endBegun w t tp volt low).owner = b.owner :=
  ⟨driven_sw .., driven_vBst .., driven_dacLo .., driven_owner ..⟩

theorem endBegun_psq : (b.endBegun w t tp volt low).psq.endAt = some t ∧
    (b.endBegun w t tp volt low).psq.phase = .waitEnd (t + 4 * max 1 (psqTime b.psq.args w).1) ∧
    (b.endBegun w t tp volt low).psq.earlies = b.psq.earlies ∧
    (b.endBegun w t tp volt low).psq.last.early = b.psq.last.early ∧
    (b.endBegun w t tp volt low).psq.last.tEndCmd = b.psq.last.tEndCmd := by
  simp [Bank.endBegun, Bank.flagArg, Bank.noted, jumpTo_earlies]

end

end

end Sys2Proof.Machine
end

section
/-! The start of a sequencer's step: the instructions that drive the bank or wait, and those that choose where it goes on
(R156, R158, R176 to R187). -/

namespace Sys2Proof.Machine

open Sys2Proof

/-- Settles O26: each instruction changes its bank alone (`completes_psq`), as the equation of the instruction says
(`psqDrive_eq`, `psqUntil_above`, `psqUntil_below`, `psqWait_eq`, `psqChop_eq`); a switch state commanded shows at the pins
(`driven_pins`), and one in force already changes nothing (`driven_same`; log 44 of the assumptions). -/
theorem psqInstructions : Obligations.PsqInstructions := by
  unfold Obligations.PsqInstructions
  intro s k w t hclean hat b q st thr steps next
  have hissued : q.stepAt ≤ s.now t + 32 := hat.2.1
  refine ⟨?drive, ?above, ?below, ?wait, ?chop⟩
  case drive =>
    intro hop
    refine (completes_psq (c := .psqDrive t k) hclean hat hissued hop rfl (psqDrive_eq ..)).imp fun s' ⟨hbank, hnext⟩ => ?_
    rw [hbank]
    refine ⟨hnext, driven_sw .., ?phase, ?pc, fun h => driven_pins h, fun h => ?same⟩
    case phase => simp [Bank.stepped, q, b]
    case pc => simp [Bank.stepped, q, b]
    case same => rw [driven_same h]; rfl
  case above =>
    intro hop hstep
    refine (completes_psq (c := .untilAbove t k) hclean hat hstep hop rfl (psqUntil_above ..)).imp fun s' ⟨hbank, hnext⟩ => ?_
    rw [hbank]
    exact ⟨hnext, rfl, rfl, rfl, (Bool.or_assoc ..).symm⟩
  case below =>
    intro hop hstep
    refine (completes_psq (c := .untilBelow t k) hclean hat hstep hop rfl (psqUntil_below ..)).imp fun s' ⟨hbank, hnext⟩ => ?_
    rw [hbank]
    exact ⟨hnext, rfl, rfl, rfl⟩
  case wait =>
    intro hop hstep
    refine (completes_psq (c := .wait t k) hclean hat hstep hop rfl (psqWait_eq ..)).imp fun s' ⟨hbank, hnext⟩ => ?_
    rw [hbank]
    exact ⟨hnext, rfl, rfl⟩
  case chop =>
    intro chop
    refine ⟨fun hop => ?chop, fun hop => ?chopToEnd⟩
    case chop =>
      obtain ⟨f, hbody, hf⟩ := psqChop_bank k w (s.dev.at t) false
      refine (completes_psq (c := .chop t k) hclean hat hissued hop rfl hbody).imp fun s' ⟨hbank, hnext⟩ => ⟨hnext, ?_⟩
      rw [hbank]
      exact hf
    case chopToEnd =>
      obtain ⟨f, hbody, hf⟩ := psqChop_bank k w (s.dev.at t) true
      refine (completes_psq (c := .chopToEnd t k) hclean hat hissued hop rfl hbody).imp fun s' ⟨hbank, hnext⟩ => ⟨hnext, ?_⟩
      rw [hbank]
      exact hf


/-- Settles O27: each instruction changes its bank alone (`completes_psq`), and where the sequencer goes on is the argument of
`Bank.stepped` (`psqBranch_eq`, `psqLoop_skips`, `psqLoop_enters`, `psqSample_eq`, `psqMark_eq`); an END before t_e begins the
END block (`psqEnd_eq`), with the bank as `endBegun_bank` and `endBegun_psq` say. -/
theorem psqFlow : Obligations.PsqFlow := by
  unfold Obligations.PsqFlow
  intro s k w t hclean hat hstep b q next goes
  refine ⟨?branch, ?skip, ?enter, ?sample, ?mark, ?last⟩
  case branch =>
    intro hop hi lo hcond
    refine (completes_psq (c := .branch t k hi lo) hclean hat hstep hop rfl (psqBranch_eq k w (s.dev.at t) hi lo hcond)).imp
      fun s' ⟨hbank, hnext⟩ => ?_
    intro open_ hi' lo' c
    simp only [goes, hbank]
    exact ⟨⟨hnext, rfl, rfl⟩, rfl, rfl⟩
  case skip =>
    intro hop hcount
    refine (completes_psq (c := .loop t k) hclean hat hstep hop rfl (psqLoop_skips k w (s.dev.at t) hcount)).imp
      fun s' ⟨hbank, hnext⟩ => ?_
    simp only [goes, hbank]
    exact ⟨⟨hnext, rfl, rfl⟩, rfl⟩
  case enter =>
    intro hop hcount
    refine (completes_psq (c := .loop t k) hclean hat hstep hop rfl (psqLoop_enters k w (s.dev.at t) hcount)).imp
      fun s' ⟨hbank, hnext⟩ => ?_
    simp only [goes, hbank]
    exact ⟨⟨hnext, rfl, rfl⟩, upd_same .., upd_same ..⟩
  case sample =>
    intro hop
    refine (completes_psq (c := .psqSample t k) hclean hat hstep hop rfl (psqSample_eq k w (s.dev.at t))).imp
      fun s' ⟨hbank, hnext⟩ => ?_
    simp only [goes, hbank]
    refine ⟨⟨hnext, rfl, rfl⟩, ?_⟩
    cases bit w 4 <;> simp only [Bank.stepped, Bank.noted, if_true, Bool.false_eq_true, if_false] <;> rfl
  case mark =>
    intro hop
    refine (completes_psq (c := .mark t k) hclean hat hstep hop rfl (psqMark_eq k w (s.dev.at t))).imp
      fun s' ⟨hbank, hnext⟩ => ?_
    simp only [goes, hbank]
    refine ⟨⟨hnext, rfl, rfl⟩, ?_⟩
    cases bit w 4 <;>
      simp only [Bank.stepped, Bank.noted, if_true, Bool.false_eq_true, if_false, satN_eq_min] <;> rfl
  case last =>
    intro hop
    refine (completes_psq (c := .psqEnd t k) hclean hat hstep hop rfl (f := fun e _ d => d.psqEnd e k)
      (psqEnd_eq (d := s.dev.at t) hclean.2.1 k)).imp fun s' ⟨hbank, hnext⟩ => ⟨hnext, ?_⟩
    rw [hbank]
    obtain ⟨hsw, hvolt, hdac, howner⟩ := endBegun_bank _ _ _ _ _ _
    obtain ⟨hend, hphase, hearlies, hearly, hcmd⟩ := endBegun_psq _ _ _ _ _ _
    exact ⟨hsw, hend, hearly, hcmd, hearlies, hphase, hdac, hvolt, howner⟩

end Sys2Proof.Machine
end

section
/-! Diagnostic classes for which a report alone is configured (R203, R206). -/

namespace Sys2Proof.Machine

open Sys2Proof

/-- A class with reaction 0 is counted, latched and shown, and nothing else (R203). -/
theorem detect_reported {c : Nat} {d : Dev} (o : DiagObj) (co : W64) (hon : offClass c = false) (hreact : fld d.diag.react (2 * c) 2 = 0) :
    ∃ seen last, d.detect c o co =
      { d with diag := { d.diag with seen := seen, last := last, cnt := upd d.diag.cnt (Fin.ofNat 16 c) (· + 1) } } := by
  simp only [Dev.detect, hon, hreact, Bool.false_and, Bool.false_eq_true, if_false, if_true]
  exact ⟨_, _, rfl⟩

/-- A class attached to an event (R206). -/
def Box.attach (c : Nat) (x : Box) : Box := { x with part := { x.part with dclass := x.part.dclass ||| classBit c } }

/-- A class found while an event holds the bank attaches to it (R206). -/
theorem detectOn_reported {k : Fin 4} {c : Nat} {d : Dev} {x : Fin 128} (o : DiagObj) (howner : (d.bank k).owner = .box x)
    (hon : offClass c = false) (hreact : fld d.diag.react (2 * c) 2 = 0) :
    ∃ seen last, d.detectOn k c o =
      { (d.modBank k fun b => { b with dclass := b.dclass ||| classBit c }).modBox x (Box.attach c) with
        diag := { d.diag with seen := seen, last := last, cnt := upd d.diag.cnt (Fin.ofNat 16 c) (· + 1) } } := by
  have hbusy : (d.bank k).busy = true := by simp [Bank.busy, howner]
  simp only [Dev.detectOn, hbusy, if_true, howner]
  exact detect_reported (d := (d.modBank k _).modBox x (Box.attach c)) o _ hon hreact

theorem classBit_mem {c : Nat} (h : c < 16) (v : BitVec 16) : (v ||| classBit c).getLsbD c = true := by
  rw [classBit, BitVec.getLsbD_or, BitVec.getLsbD_ofNat, Nat.testBit_two_pow_self, decide_eq_true h]
  exact Bool.or_true _

end Sys2Proof.Machine
end

section
/-! The release of a bank, and the converter samples (R159 to R163). -/

namespace Sys2Proof.Machine

open Sys2Proof

/-! ### The release (R161, R163) -/

/-- The result of an event whose bank is released at `t` (R160, R194). -/
def Bank.endResult (t : Ns) (out : Bool) (b : Bank) (l : DiPart) : DiPart :=
  { l with endLen := t - b.psq.endAt.getD t, eRec := b.eRec, endTo := out, flags := b.psq.flags }

/-- A bank released at `t` after `e` µJ have been recovered (R160, R161). -/
def Bank.released (t : Ns) (e : Nat) (b : Bank) : Bank :=
  { b with
    rel := t, everRel := true, relLs := upd b.relLs b.ls fun _ => some t
    recLast := BitVec.ofNat 32 (satN (2 ^ 32 - 1) e), recTotal := b.recTotal + BitVec.ofNat 32 e
    owner := .none, tag := 0, ls := 0, sw := .decay, psq := { b.psq with phase := .idle, shown := b.psq.last } }

/-- END's timeout `t` is noted in the result, counted, and attached to the event as class 12 (R163, R206). -/
def Bank.timedOut (t : Ns) (b : Bank) : Bank :=
  { b.noted (b.endResult t true) with endTos := b.endTos + 1, dclass := b.dclass ||| classBit 12 }

/-- An event whose execution is complete, with its result (R142, R143). -/
def Box.completed (res : DiPart) (x : Box) : Box :=
  { x with
    state := if x.state = .active then .closing else x.state
    executed := true, complete := true, part := { x.part with di := res } }

theorem completeBox_di (x : Fin 128) (res : DiPart) (d : Dev) :
    (d.modPart (.box x) fun p => { p with di := res }).completeBox x = d.modBox x (Box.completed res) := by
  have hcomp : Box.completed res = fun y : Box => (fun x => if x.state = .active then
      { x with state := .closing, executed := true, complete := true } else { x with executed := true, complete := true })
      { y with part := { y.part with di := res } } := by
    funext y
    simp only [Box.completed]
    split <;> rfl
  simp only [hcomp, Dev.completeBox, Dev.modPart, Dev.modBox, upd_upd]

theorem modBox_modBank (x : Fin 128) (k : Fin 4) (f : Box → Box) (g : Bank → Bank) (d : Dev) :
    (d.modBox x f).modBank k g = (d.modBank k g).modBox x f := rfl

/-- What the release notes before it completes the event: the result's fields, and a timeout of END as class 12 (R163). -/
def Dev.endNoted (k : Fin 4) (t : Ns) (out : Bool) (d : Dev) : Dev :=
  let d' := d.modLast k ((d.bank k).endResult t out)
  if out then (d'.modBank k fun b => { b with endTos := b.endTos + 1 }).detectOn k 12 (.bank k) else d'

section
variable {k : Fin 4} {d : Dev} {x : Fin 128} (howner : (d.bank k).owner = .box x) (t : Ns)
include howner

/-- Where no profile flag asks for class 13, the release completes the event with the result noted, and frees the bank. -/
theorem releaseBank_unflagged {out : Bool}
    (hmask : fld (d.endNoted k t out).diag.flagMask (8 * k.val) 8 &&& (d.bank k).psq.flags.toNat = 0) :
    d.releaseBank k t out = ((d.endNoted k t out).modBox x (Box.completed ((d.endNoted k t out).psqOf k).last)).modBank k
      (Bank.released t (d.bank k).eRec) := by
  have hnone : ¬(fld (d.endNoted k t out).diag.flagMask (8 * k.val) 8 &&& (d.bank k).psq.flags.toNat ≠ 0) := not_not.mpr hmask
  rw [← completeBox_di]
  unfold Dev.releaseBank
  extract_lets b q d1 d2 d3 last d4 d5
  have h3 : d3 = d.endNoted k t out := if_neg hnone
  have h5 : d5 = (d.endNoted k t out |>.modPart (.box x) fun p => { p with di := ((d.endNoted k t out).psqOf k).last }).completeBox x := by
    simp only [d5, d4, last, h3, b, howner]
  rw [h5]
  rfl

theorem endNoted_timeout (hreact : fld d.diag.react 24 2 = 0) : ∃ seen last, d.endNoted k t true =
    { (d.modBank k (Bank.timedOut t)).modBox x (Box.attach 12) with
      diag := { d.diag with seen := seen, last := last, cnt := upd d.diag.cnt 12 (· + 1) } } := by
  let d' := (d.modLast k ((d.bank k).endResult t true)).modBank k fun b => { b with endTos := b.endTos + 1 }
  have howner' : (d'.bank k).owner = .box x := by simp only [d', modLast_eq, Dev.bank_modBank, Bank.noted, howner]
  obtain ⟨seen, last, hdetect⟩ := detectOn_reported (.bank k) howner' (c := 12) rfl hreact
  refine ⟨seen, last, (show d.endNoted k t true = d'.detectOn k 12 (.bank k) from rfl).trans (hdetect.trans ?_)⟩
  have hbank : (d'.modBank k fun b => { b with dclass := b.dclass ||| classBit 12 }) = d.modBank k (Bank.timedOut t) := by
    simp only [d', modLast_eq, Dev.modBank_modBank]
    exact Dev.modBank_congr d rfl
  rw [hbank]
  rfl

/-- END's current condition is met (R161, R187). -/
theorem bankRelease_due {out : Ns} (hphase : (d.bank k).psq.phase = .waitEnd out) (heval : (d.bank k).evaluates d.dtime = true)
    (hout : d.dtime ≤ out) (hmask : fld d.diag.flagMask (8 * k.val) 8 &&& (d.bank k).psq.flags.toNat = 0) :
    d.bankRelease k = (d.modBank k fun b =>
      ({ b with cmpLo := true }.noted (b.endResult d.dtime false)).released d.dtime b.eRec).modBox x
      (Box.completed ((d.bank k).endResult d.dtime false (d.bank k).psq.last)) := by
  let d' := d.modBank k fun b => { b with cmpLo := true }
  have hbank : d'.bank k = { d.bank k with cmpLo := true } := Dev.bank_modBank d
  have hgo : d.bankRelease k = d'.releaseBank k d.dtime false := by
    simp [Dev.bankRelease, hphase, heval, hout, d']
  have hnoted : d'.endNoted k d.dtime false = d.modBank k fun b =>
      { b with cmpLo := true }.noted ((d.bank k).endResult d.dtime false) :=
    (Dev.modBank_modBank ..).trans (by rw [hbank]; rfl)
  rw [hgo, releaseBank_unflagged (by rw [hbank]; exact howner) _ (by rw [hbank]; exact hmask), hnoted, modBox_modBank,
    Dev.modBank_modBank, hbank, Dev.psqOf, Dev.bank_modBank]
  exact congrArg (Dev.modBox x _) (Dev.modBank_congr d rfl)

/-- END's timeout expires first (R163). -/
theorem endTimeout_due {out : Ns} (hphase : (d.bank k).psq.phase = .waitEnd out) (hout : out ≤ d.dtime)
    (hreact : fld d.diag.react 24 2 = 0) (hmask : fld d.diag.flagMask (8 * k.val) 8 &&& (d.bank k).psq.flags.toNat = 0) :
    ∃ seen last, d.endTimeout k = { (d.modBank k fun b =>
      (b.timedOut out).released out b.eRec).modBox x
        fun y => (y.attach 12).completed ((d.bank k).endResult out true (d.bank k).psq.last) with
      diag := { d.diag with seen := seen, last := last, cnt := upd d.diag.cnt 12 (· + 1) } } := by
  obtain ⟨seen, last, hnoted⟩ := endNoted_timeout howner out hreact
  have hgo : d.endTimeout k = d.releaseBank k out true := by
    have hphase' : (d.psqOf k).phase = .waitEnd out := hphase
    simp [Dev.endTimeout, hphase', hout]
  refine ⟨seen, last, hgo.trans ?_⟩
  rw [releaseBank_unflagged howner out (by rw [hnoted]; exact hmask), hnoted]
  have hbank : (d.modBank k (Bank.timedOut out)).bank k = (d.bank k).timedOut out := Dev.bank_modBank d
  have hboxes : upd (upd d.loft.boxes x (Box.attach 12)) x
      (Box.completed ((d.modBank k (Bank.timedOut out)).psqOf k).last) = upd d.loft.boxes x fun y =>
      (y.attach 12).completed ((d.bank k).endResult out true (d.bank k).psq.last) := by
    rw [Dev.psqOf, hbank, upd_upd]
    rfl
  have hbanks : upd (upd d.banks k (Bank.timedOut out)) k (Bank.released out (d.bank k).eRec) =
      upd d.banks k fun b => (b.timedOut out).released out b.eRec :=
    (upd_upd ..).trans (upd_congr rfl)
  exact congrArg₂ (fun boxes banks => { d with
    loft := { d.loft with boxes := boxes }, banks := banks
    diag := { d.diag with seen := seen, last := last, cnt := upd d.diag.cnt 12 (· + 1) } }) hboxes hbanks

end

/-! ### A converter sample (R159) -/

section
variable {k : Fin 4} {d : Dev} (nv : Nat)

@[simp] theorem compare_psq (t : Ns) (b : Bank) : (b.compare nv t).psq = b.psq := by
  unfold Bank.compare
  split <;> rfl

@[simp] theorem compare_sw (t : Ns) (b : Bank) : (b.compare nv t).sw = b.sw := by
  unfold Bank.compare
  split <;> rfl

theorem bankSample_free (h : (d.bank k).owner = .none) : d.bankSample k nv = d := by
  simp [Dev.bankSample, Bank.busy, h]

theorem shuntCode_eq : shuntCode nv = min 4095 ((nv * 4096 + 125000000) / 250000000) := by
  rw [shuntCode, satN_eq_min, divRoundN]
  omega

/-- The peak is the highest code, with the time of its first sample (R159). -/
def DiPart.sample (code : Nat) (t : Nat) (l : DiPart) : DiPart :=
  if l.sampled = false ∨ l.peak < code then { l with sampled := true, peak := code, tPeak := satN 0xFFFFFFFF t } else l

theorem sample_peak (code t : Nat) (l : DiPart) : (l.sample code t).peak = if l.sampled then max l.peak code else code := by
  unfold DiPart.sample
  by_cases hfirst : l.sampled = false
  · simp [hfirst]
  · by_cases hhigh : l.peak < code
    · simp [hfirst, hhigh, Nat.le_of_lt]
    · simp [hfirst, hhigh, Nat.le_of_not_lt]

/-- What a sample leaves of its bank: the comparator outputs, the code, the sum of the END block, the peak (R159, R160). -/
def Bank.sampled (nv code : Nat) (now : Ns) (b : Bank) : Bank :=
  let inEnd := b.psq.endAt.any fun x => decide (x < now)
  { b.compare nv now with
    cur := code, sumCodes := if inEnd then b.sumCodes + code else b.sumCodes
    endSamples := if inEnd then b.endSamples + 1 else b.endSamples }.noted (DiPart.sample code (now - b.psq.ts))

section
variable (code : Nat) (now : Ns) (b : Bank)

theorem sampled_cur : (b.sampled nv code now).cur = code := rfl

theorem sampled_sw : (b.sampled nv code now).sw = b.sw := compare_sw ..

theorem sampled_psq : (b.sampled nv code now).psq = { b.psq with last := b.psq.last.sample code (now - b.psq.ts) } := by
  simp only [Bank.sampled, Bank.noted, compare_psq]

end

/-- Where the on-state monitors are off, a sample changes its bank alone. -/
theorem bankSample_taken (howner : (d.bank k).owner ≠ .none) (hstart : (d.bank k).psq.ts ≤ d.dtime) (hmon : bit d.diag.cfg 0 = false) :
    d.bankSample k nv = d.modBank k (Bank.sampled nv (shuntCode nv) d.dtime) := by
  have hbusy : (d.bank k).busy = true := by simpa [Bank.busy] using howner
  have hon (d' : Dev) (hdiag : d'.diag = d.diag) : d'.currentClasses k (shuntCode nv) = d' := by
    simp [Dev.currentClasses, Dev.onEn, hdiag, hmon]
  simp only [Dev.bankSample, hbusy, decide_eq_false (Nat.not_lt_of_le hstart), Bool.not_true, Bool.or_false,
    Bool.false_eq_true, if_false]
  refine (hon _ ?diag).trans ((Dev.modBank_modBank ..).trans (Dev.modBank_congr d ?bank))
  case diag => rfl
  case bank => rfl

end

end Sys2Proof.Machine
end

section
/-! The ends of an event on a bank, and a converter sample (R159 to R163). -/

namespace Sys2Proof.Machine

open Sys2Proof

/-- A command that changes one bank and one box, and may count a class. -/
theorem completes_bank_box {s : State} {c : Instr} {body : Env → Dev → Dev} {k : Fin 4} {x : Fin 128} {f : Bank → Bank}
    {g : Box → Box} {diag : Diag} {l : List Group} (hsettled : s.dev.settled) (hexec : exec c s = runAt (stampOf c) body s)
    (hbody : s.after (stampOf c) body = { ((s.dev.at (stampOf c)).modBank k f).modBox x g with diag := diag })
    (hl : [.banks, .loft] ⊆ l) (hdiag : .diag ∈ l ∨ diag = s.dev.diag) :
    Completes c s fun s' => s'.dev.banks[k] = f s.dev.banks[k] ∧ (∀ j, j ≠ k → s'.dev.banks[j] = s.dev.banks[j]) ∧
      s'.dev.loft.boxes[x] = g s.dev.loft.boxes[x] ∧ s'.dev.diag = diag ∧ s.touches l s' := by
  refine completes_of_after hexec hbody hsettled.1 fun s' h => ?_
  rw [h.banks, h.loft, h.diag]
  refine ⟨upd_same .., fun j hj => upd_other _ _ _ _ hj, upd_same .., rfl, ?_⟩
  exact h.touches hsettled.1 hsettled.2
    (Group.same_drive s (hloft := .inl (hl (by simp))) (hbanks := .inl (hl (by simp))) (hdiag := hdiag))

/-- Settles O29: the release leaves the bank and the event as `bankRelease_due` says, END's timeout as `endTimeout_due` says,
each in a bank and a box alone (`completes_bank_box`); a sample leaves its bank as `bankSample_taken` says, with the peak of
`sample_peak`, and does nothing on a bank that no event holds (`bankSample_free`). -/
theorem bankEnds : Obligations.BankEnds := by
  unfold Obligations.BankEnds
  intro s k t ⟨⟨_, hsettled⟩, _⟩ b q now freed
  refine ⟨?release, ?timeout, ?sample, ?free⟩
  case release =>
    intro out x hphase howner hsettle hblank hout hmask
    have heval : b.evaluates now = true := by
      simpa only [Bank.evaluates, Bank.compares, Bool.and_eq_true, decide_eq_true_eq] using ⟨hsettle, hblank⟩
    refine (completes_bank_box (c := .bankRelease t k) (diag := s.dev.diag) (l := [.banks, .loft]) hsettled rfl
      (bankRelease_due (d := s.dev.at t) howner hphase heval hout hmask) (by simp) (.inr rfl)).imp
      fun s' ⟨hbank, hother, hbox, _, htouches⟩ => ?_
    simp only [freed, hbank, hbox]
    exact ⟨⟨rfl, rfl, rfl, upd_same .., rfl, rfl, rfl, rfl, hother⟩, rfl, rfl, fun h => if_pos h, htouches⟩
  case timeout =>
    intro out x hphase howner hout hreact hmask
    obtain ⟨seen, last, hbody⟩ := endTimeout_due (d := s.dev.at t) howner hphase hout hreact hmask
    refine (completes_bank_box (c := .endTimeout t k) (l := [.banks, .loft, .diag]) hsettled rfl hbody (by simp)
      (.inl (by simp))).imp fun s' ⟨hbank, hother, hbox, hdiag, htouches⟩ => ?_
    simp only [freed, hbank, hbox, hdiag]
    exact ⟨⟨rfl, rfl, rfl, upd_same .., rfl, rfl, rfl, rfl, hother⟩, rfl, rfl, classBit_mem (by decide) _, upd_same .., htouches⟩
  case sample =>
    intro nv howner hstart hmon
    refine (completes_bank (c := .bankSample t k nv) hsettled rfl
      (bankSample_taken (d := s.dev.at t) nv howner hstart hmon)).imp fun s' ⟨hbank, htouches, hother⟩ => ?_
    rw [hbank, sampled_cur, sampled_sw, sampled_psq, ← shuntCode_eq]
    exact ⟨rfl, sample_peak .., rfl, rfl, htouches, hother⟩
  case free =>
    intro nv howner
    exact completes_untouched (c := .bankSample t k nv) hsettled rfl (bankSample_free (d := s.dev.at t) nv howner)

end Sys2Proof.Machine
end

section
/-! The drain delays of the port injectors (R170). -/

namespace Sys2Proof.Machine

open Sys2Proof

/-- Each step of a fold changes the loft alone, so the fold does. -/
theorem foldl_loft {α : Type} (l : List α) (f : Dev → α → Dev) (d : Dev) (h : ∀ d x, ∃ loft, f d x = { d with loft := loft }) :
    ∃ loft, l.foldl f d = { d with loft := loft } :=
  List.foldlRecOn (motive := fun d' => ∃ loft, d' = { d with loft := loft }) l f ⟨_, rfl⟩
    fun d' ⟨_, hd'⟩ x _ => (h d' x).imp fun _ hx => by rw [hx, hd']

/-- A class of a port injector with reaction 0 is counted, and attached to the events that it names (R203, R206). -/
theorem detectPfi_reported {c : Nat} {d : Dev} (n : Fin 16) (on : List (Fin 128)) (hon : offClass c = false)
    (hreact : fld d.diag.react (2 * c) 2 = 0) : ∃ loft seen last, d.detectPfi n c on =
      { d with
        loft := loft
        diag := { d.diag with seen := seen, last := last, cnt := upd d.diag.cnt (Fin.ofNat 16 c) (· + 1) } } := by
  unfold Dev.detectPfi
  extract_lets co
  obtain ⟨loft, hmarked⟩ := foldl_loft on (fun d b => d.modPart (.box b) fun p => { p with dclass := p.dclass ||| classBit c }) d
    fun _ _ => ⟨_, rfl⟩
  rw [hmarked]
  exact ⟨loft, detect_reported (d := { d with loft := loft }) (.pfi n) _ hon hreact⟩

/-! ### Drain delays -/

/-- The output once its drain-on delay is known. -/
def Pfi.onMeasured (sel : Ns → Bool) (x : Nat) (p : Pfi) : Pfi :=
  { p with measOn := p.measOn.filter (!sel ·), donDly := BitVec.ofNat 16 x, noOn := x == 65535, drain := p.drain || !(x == 65535) }

/-- The output once its drain-off delay is known. -/
def Pfi.offMeasured (sel : Ns → Bool) (x : Nat) (p : Pfi) : Pfi :=
  { p with measOff := p.measOff.filter (!sel ·), doffDly := BitVec.ofNat 16 x, noOff := x == 65535, drain := p.drain && x == 65535 }

section
variable {d : Dev} {n : Fin 16} {a : Ns} {sel : Ns → Bool}

theorem drainOn_none (h : d.pfi[n].measOn = []) : d.drainOn n sel = d := by
  simp only [Dev.drainOn, h, List.filter_nil, List.getLast?_nil]

theorem drainOff_none (h : d.pfi[n].measOff = []) : d.drainOff n sel = d := by
  simp only [Dev.drainOff, h, List.filter_nil, List.getLast?_nil]

/-- A drain-on delay that is not saturated is shown at the output, and each event that awaits one takes its own. -/
theorem drainOn_measured (hlast : (d.pfi[n].measOn.filter sel).getLast? = some a) (hdly : drainDly a d.dtime ≠ 65535) :
    ∃ loft, d.drainOn n sel = { d.modPfi n (Pfi.onMeasured sel (drainDly a d.dtime)) with loft := loft } := by
  unfold Dev.drainOn
  split
  case h_1 hnone => exact absurd (hnone.symm.trans hlast) (by simp)
  case h_2 b hb =>
    obtain rfl : a = b := Option.some.inj (hlast.symm.trans hb)
    extract_lets x sat waiting d1 d2
    have hsat : sat = false := beq_eq_false_iff_ne.mpr hdly
    obtain ⟨loft, h2⟩ : ∃ loft, d2 = { d1 with loft := loft } := foldl_loft _ _ _ fun _ _ => ⟨_, rfl⟩
    exact ⟨loft, by rw [hsat, h2]; rfl⟩

/-- The same for a drain-off delay, where a saturated one is found as class 9 besides. -/
theorem drainOff_last (hlast : (d.pfi[n].measOff.filter sel).getLast? = some a) : ∃ d' loft on,
    d' = { d.modPfi n (Pfi.offMeasured sel (drainDly a d.dtime)) with loft := loft } ∧
    d.drainOff n sel = if drainDly a d.dtime == 65535 then d'.detectPfi n 9 on else d' := by
  unfold Dev.drainOff
  split
  case h_1 hnone => exact absurd (hnone.symm.trans hlast) (by simp)
  case h_2 b hb =>
    obtain rfl : a = b := Option.some.inj (hlast.symm.trans hb)
    extract_lets src x sat waiting d1 d2
    obtain ⟨loft, h2⟩ : ∃ loft, d2 = { d1 with loft := loft } := foldl_loft _ _ _ fun _ _ => ⟨_, rfl⟩
    exact ⟨d2, loft, _, h2, rfl⟩

/-- Of a drain-off delay that is not saturated nothing more is found. -/
theorem drainOff_measured (hlast : (d.pfi[n].measOff.filter sel).getLast? = some a) (hdly : drainDly a d.dtime ≠ 65535) :
    ∃ loft, d.drainOff n sel = { d.modPfi n (Pfi.offMeasured sel (drainDly a d.dtime)) with loft := loft } := by
  obtain ⟨_, loft, _, rfl, hoff⟩ := drainOff_last hlast
  exact ⟨loft, hoff.trans (if_neg (by simpa using hdly))⟩

theorem drainOff_saturated (hlast : (d.pfi[n].measOff.filter sel).getLast? = some a) (hdly : drainDly a d.dtime = 65535)
    (hreact : fld d.diag.react 18 2 = 0) : ∃ loft seen last, d.drainOff n sel =
      { d.modPfi n (Pfi.offMeasured sel 65535) with
        loft := loft
        diag := { d.diag with seen := seen, last := last, cnt := upd d.diag.cnt 9 (· + 1) } } := by
  obtain ⟨d', loft', on, hd', hoff⟩ := drainOff_last hlast
  obtain ⟨loft, seen, last, hdetect⟩ := detectPfi_reported (c := 9) (d := d') n on rfl (by rw [hd']; exact hreact)
  refine ⟨loft, seen, last, (hoff.trans (if_pos (by rw [hdly]; rfl))).trans (hdetect.trans ?_)⟩
  rw [hd', hdly]
  rfl

end

end Sys2Proof.Machine
end

section
/-! The ends of the coils' dwells: the ramp of a soft shutdown, and the maximum-dwell guard (R209, R214). -/

namespace Sys2Proof.Machine

open Sys2Proof

section
variable {d : Dev} {n : Fin 16} {b : Fin 128}

/-- Before the ramp has ended, and where none runs, the output stays (R209). -/
theorem rampEnd_early (h : d.ign[n].soft = false ∨ d.dtime < d.ign[n].rampEnd) : d.rampEnd n = d :=
  if_pos (by simpa [-Fin.getElem_fin] using h)

/-- A coil without current, free since the end of its ramp (R209). -/
def Ign.ramped (g : Ign) : Ign :=
  { g with soft := false, owner := .none, tag := 0, lastOff := some g.rampEnd, pin := { on := false, since := g.rampEnd } }

theorem rampEnd_due (hsoft : d.ign[n].soft = true) (hramp : d.ign[n].rampEnd ≤ d.dtime) (howner : d.ign[n].owner = .box b) :
    d.rampEnd n = (d.completeBox b).modIgn n Ign.ramped := by
  unfold Dev.rampEnd
  extract_lets g
  rw [if_neg (by simp [-Fin.getElem_fin, g, hsoft, Nat.not_lt_of_le hramp])]
  simp only [g, howner]
  rfl

/-- Where a spark is due in the same clock, and before DWELL_MAX, the guard does nothing (R214). -/
theorem maxDwell_spark (h : d.sparkDue d.ign[n].owner = true) : d.maxDwell n = d :=
  if_pos (by simp [-Fin.getElem_fin, h])

theorem maxDwell_early (h : d.dtime < d.ign[n].dwellAt + fld d.ign[n].cfg 16 16 * 10000) : d.maxDwell n = d :=
  if_pos (by simp [-Fin.getElem_fin, h])

/-- A coil that the guard shuts down at `now` (R214). -/
def Ign.tripped (now : Ns) (dwell : W32) (flags : BitVec 5) (g : Ign) : Ign :=
  { g with
    soft := true, rampEnd := now + g.ramp, softEnds := g.softEnds + 1, trips := g.trips + 1
    lastDwell := dwell, lastFlags := flags }

/-- The event whose dwell the guard ends (R214). -/
def Box.tripped (now : Ns) (dwell : Nat) (unit : BitVec 16) (x : Box) : Box :=
  { x with
    state := .closing, resid := some (x.resid.getD none), part := { x.part with dwell := dwell, maxd := true, soft := false }
    ending := some { result := .endedFault, reason := 12, time := now, ctrl := unit } }

/-- A soft shutdown of an event's dwell: its delivered dwell is that since DWELL_AT (R209). -/
theorem softShutdown_box (howner : d.ign[n].owner = .box b) : d.softShutdown n =
    (d.modBox b fun x => { x with part := { x.part with dwell := d.dtime - d.ign[n].dwellAt, soft := true } }).modIgn n fun g =>
      { g with soft := true, rampEnd := d.dtime + g.ramp, softEnds := g.softEnds + 1 } := by
  simp only [Dev.softShutdown, howner]
  rfl

/-- A dwell has lasted DWELL_MAX without a spark: a soft shutdown, and IGN_DWELL (R214). -/
theorem maxDwell_trips (hsoft : d.ign[n].soft = false) (howner : d.ign[n].owner = .box b) (hon : d.ign[n].pin.on = true)
    (hsince : d.ign[n].pin.since ≤ d.dtime) (hdwell : d.ign[n].dwellAt + fld d.ign[n].cfg 16 16 * 10000 ≤ d.dtime)
    (hspark : d.sparkDue (.box b) = false) : ∃ dwell flags, d.maxDwell n =
      ((d.modIgn n (Ign.tripped d.dtime dwell flags)).modBox b (Box.tripped d.dtime (d.dtime - d.ign[n].dwellAt) (ctrl 3 6 n.val))).raise
        { source := 12, ctrl := ctrl 3 6 n.val, coord := d.ownerCoord (.box b) } := by
  unfold Dev.maxDwell
  extract_lets g co d1 d2 d3
  have hclosed (dwell : Nat) (dp : Bool) (p : Part) : (d3.ignLast n dwell dp p).closeBox b
      { result := .endedFault, reason := 12, time := d3.dtime, ctrl := ctrl 3 6 n.val } =
      ((d.modIgn n (Ign.tripped d.dtime (BitVec.ofNat 32 (satN (2 ^ 32 - 1) dwell)) (ignFlags dp p.short p.maxd p.soft p.sLate))).modBox b
        (Box.tripped d.dtime (d.dtime - d.ign[n].dwellAt) (ctrl 3 6 n.val))).raise
        { source := 12, ctrl := ctrl 3 6 n.val, coord := d.ownerCoord (.box b) } := by
    simp only [d3, d2, d1, co, g, softShutdown_box howner, howner, Dev.closeBox, Dev.ignLast, Dev.modIgn, Dev.modPart, Dev.modBox,
      Dev.raise, upd_upd]
    rfl
  rw [if_neg (by simp [-Fin.getElem_fin, g, hsoft, howner, Pin.level, hon, hsince, hspark, Nat.not_lt_of_le hdwell])]
  simp only [g, howner]
  exact ⟨_, _, hclosed ..⟩

end

end Sys2Proof.Machine
end

section
/-! The drain delays of the port injectors, and the ends of the coils' dwells (R170, R209, R214). -/

namespace Sys2Proof.Machine

open Sys2Proof

/-! ### Drain delays -/

theorem drainDly_eq (a now : Ns) : drainDly a now = min 65535 (now - a) := satN_eq_min ..

theorem drainDly_short {a now : Nat} (h : now < a + 65535) : drainDly a now ≠ 65535 := by
  rw [drainDly_eq]
  omega

theorem drainDly_saturated {a now : Nat} (h : a + 65535 ≤ now) : drainDly a now = 65535 := by
  rw [drainDly_eq]
  omega

section
variable {x : Nat} (h : x ≠ 65535) (p : Pfi)
include h

theorem onMeasured_all : p.onMeasured (fun _ => true) x =
    { p with measOn := [], donDly := BitVec.ofNat 16 x, noOn := false, drain := true } := by
  simp only [Pfi.onMeasured, Bool.not_true, List.filter_false, beq_eq_false_iff_ne.mpr h, Bool.not_false, Bool.or_true]

theorem offMeasured_all : p.offMeasured (fun _ => true) x =
    { p with measOff := [], doffDly := BitVec.ofNat 16 x, noOff := false, drain := false } := by
  simp only [Pfi.offMeasured, Bool.not_true, List.filter_false, beq_eq_false_iff_ne.mpr h, Bool.and_false]

end

section
variable {s : State} {c : Instr} {body : Env → Dev → Dev} {n : Fin 16} {loft : Loft} (hsettled : s.dev.settled)
  (hexec : exec c s = runAt (stampOf c) body s)
include hsettled hexec

/-- A command that changes one port injector's output, and what its events and the diagnostics tell of it. -/
theorem completes_pfi {f : Pfi → Pfi} {diag : Diag} {l : List Group}
    (hbody : s.after (stampOf c) body = { (s.dev.at (stampOf c)).modPfi n f with loft := loft, diag := diag })
    (hl : [.pfi, .loft] ⊆ l) (hdiag : .diag ∈ l ∨ diag = s.dev.diag) :
    Completes c s fun s' => s'.dev.pfi[n] = f s.dev.pfi[n] ∧ (∀ j, j ≠ n → s'.dev.pfi[j] = s.dev.pfi[j]) ∧
      s'.dev.diag = diag ∧ s.touches l s' := by
  refine completes_of_after hexec hbody hsettled.1 fun s' h => ?_
  rw [h.pfi, h.diag]
  refine ⟨upd_same .., fun j hj => upd_other _ _ _ _ hj, rfl, ?_⟩
  exact h.touches hsettled.1 hsettled.2
    (Group.same_drive s (hloft := .inl (hl (by simp))) (hpfi := .inl (hl (by simp))) (hdiag := hdiag))

/-- A command that changes one coil's output, and what its event keeps of it. -/
theorem completes_ign {f : Ign → Ign} (hbody : s.after (stampOf c) body = { (s.dev.at (stampOf c)).modIgn n f with loft := loft }) :
    Completes c s fun s' => s'.dev.ign[n] = f s.dev.ign[n] ∧ (∀ j, j ≠ n → s'.dev.ign[j] = s.dev.ign[j]) ∧
      s'.dev.loft = loft ∧ s.touches [.ign, .loft] s' := by
  refine completes_of_after hexec hbody hsettled.1 fun s' h => ?_
  rw [h.ign, h.loft]
  refine ⟨upd_same .., fun j hj => upd_other _ _ _ _ hj, rfl, ?_⟩
  exact h.touches hsettled.1 hsettled.2 (Group.same_drive s (hloft := .inl (by simp)) (hign := .inl (by simp)))

end

theorem completeBox_complete (b : Fin 128) (d : Dev) : (d.completeBox b).loft.boxes[b].complete = true := by
  rw [show (d.completeBox b).loft.boxes[b] = _ from upd_same ..]
  split <;> rfl

/-- Settles O31: the drain delays change their output as `Pfi.onMeasured` and `Pfi.offMeasured` say (`drainOn_measured`,
`drainOff_measured`, `drainOff_saturated`); the end of a ramp frees the coil (`rampEnd_due`); the guard shuts the coil down and
raises IGN_DWELL (`maxDwell_trips`, with `completes_of_raise`). -/
theorem delaysAndCoils : Obligations.DelaysAndCoils := by
  unfold Obligations.DelaysAndCoils
  refine ⟨?drain, ?coil⟩
  case drain =>
    intro s t a n ⟨⟨_, hsettled⟩, _⟩ p dly
    have hdly : drainDly a (s.now t) = dly := drainDly_eq ..
    refine ⟨?on, ?off, ?saturated, ?none⟩
    case on =>
      intro hlast hnow
      have hshort := drainDly_short hnow
      obtain ⟨loft, hbody⟩ := drainOn_measured (d := s.dev.at t) (n := n) (a := a) (sel := fun _ => true)
        ((congrArg _ (List.filter_true _)).trans hlast) hshort
      refine (completes_pfi (c := .drainDelayMeasured t n true) (diag := s.dev.diag) (l := [.pfi, .loft]) hsettled rfl hbody
        (by simp) (.inr rfl)).imp fun s' ⟨hpfi, hother, _, htouches⟩ => ⟨?_, hother, htouches⟩
      exact hpfi.trans ((onMeasured_all hshort _).trans (by rw [hdly]))
    case off =>
      intro hlast hnow
      have hshort := drainDly_short hnow
      obtain ⟨loft, hbody⟩ := drainOff_measured (d := s.dev.at t) (n := n) (a := a) (sel := fun _ => true)
        ((congrArg _ (List.filter_true _)).trans hlast) hshort
      refine (completes_pfi (c := .drainDelayMeasured t n false) (diag := s.dev.diag) (l := [.pfi, .loft]) hsettled rfl hbody
        (by simp) (.inr rfl)).imp fun s' ⟨hpfi, _, _, htouches⟩ => ⟨?_, htouches⟩
      exact hpfi.trans ((offMeasured_all hshort _).trans (by rw [hdly]))
    case saturated =>
      intro hlast hnow hreact
      obtain ⟨loft, seen, last, hbody⟩ := drainOff_saturated (d := s.dev.at t) (n := n) (a := a)
        (sel := fun x => decide (x + 65535 ≤ s.now t)) (by rw [show (s.dev.at t).pfi[n].measOff = [a] from hlast]; simp [hnow])
        (drainDly_saturated hnow) hreact
      refine (completes_pfi (c := .drainDelaySaturated t n false) (l := [.pfi, .loft, .diag]) hsettled rfl hbody
        (by simp) (.inl (by simp))).imp fun s' ⟨hpfi, _, hdiag, htouches⟩ => ?_
      rw [hpfi, hdiag]
      refine ⟨rfl, rfl, ?_, upd_same .., htouches⟩
      exact (congrArg _ hlast).trans (by simp [hnow])
    case none =>
      intro hon hoff on
      cases on
      case true =>
        exact ⟨completes_untouched (c := .drainDelayMeasured t n true) hsettled rfl (drainOn_none (d := s.dev.at t) hon),
          completes_untouched (c := .drainDelaySaturated t n true) hsettled rfl (drainOn_none (d := s.dev.at t) hon)⟩
      case false =>
        exact ⟨completes_untouched (c := .drainDelayMeasured t n false) hsettled rfl (drainOff_none (d := s.dev.at t) hoff),
          completes_untouched (c := .drainDelaySaturated t n false) hsettled rfl (drainOff_none (d := s.dev.at t) hoff)⟩
  case coil =>
    intro s t n ⟨⟨_, hsettled⟩, _⟩ g dwellMax
    refine ⟨?ended, ?early, ?trips, ?spark, ?short⟩
    case ended =>
      intro b hsoft hramp howner
      refine (completes_ign (c := .softShutdownEnd t n) hsettled rfl
        (rampEnd_due (d := s.dev.at t) hsoft hramp howner)).imp fun s' ⟨hign, hother, hloft, htouches⟩ => ?_
      rw [hign, hloft]
      exact ⟨rfl, completeBox_complete .., hother, htouches⟩
    case early =>
      exact fun h => completes_untouched (c := .softShutdownEnd t n) hsettled rfl (rampEnd_early (d := s.dev.at t) h)
    case trips =>
      intro b hsoft howner hon hsince hdwell hnoted hspark
      obtain ⟨dwell, flags, hbody⟩ := maxDwell_trips (d := s.dev.at t) hsoft howner hon hsince hdwell hspark
      refine completes_of_raise (l := [.ign, .loft]) (src := 12) (c := .maxDwellGuard t n) rfl hbody hsettled rfl rfl rfl rfl rfl
        hnoted (Group.same_drive s (hloft := .inl (by simp)) (hign := .inl (by simp))) fun s' h hreported htouches => ?_
      have hign : s'.dev.ign[n] = Ign.tripped (s.now t) dwell flags g := by
        rw [h.ign.trans (noted_report ..).ign]
        exact upd_same ..
      have hbox : s'.dev.loft.boxes[b] = Box.tripped (s.now t) (s.now t - g.dwellAt) (ctrl 3 6 n.val) s.dev.loft.boxes[b] := by
        rw [h.loft.trans (noted_report ..).loft]
        exact upd_same ..
      rw [hign, hbox]
      exact ⟨rfl, rfl, rfl, rfl, rfl, ⟨_, rfl, rfl, rfl⟩, hreported, htouches.mono (by simp)⟩
    case spark =>
      exact fun h => completes_untouched (c := .maxDwellGuard t n) hsettled rfl (maxDwell_spark (d := s.dev.at t) h)
    case short =>
      exact fun _ h => completes_untouched (c := .maxDwellGuard t n) hsettled rfl (maxDwell_early (d := s.dev.at t) h)

end Sys2Proof.Machine
end

section
/-! The boost controller (R160, R164, R165, R168). -/

namespace Sys2Proof.Machine

open Sys2Proof

/-! ### What the controller's rules leave of it -/

/-- A reading of BST_VS, whose voltage may have reached V_SET (R165). -/
def Bst.measured (code volt : Nat) (b : Bst) : Bst :=
  { b with code := code, volt := volt, reached := b.reached || (b.phase != .idle && decide (b.vSet ≤ volt)) }

/-- A switching cycle begins (R164). -/
def Bst.cycled (t : Ns) (low : Bool) (b : Bst) : Bst :=
  { b with
    phase := .on t, pin := b.pin.set true t low, cycles := b.cycles + 1, reached := b.phase != .idle && b.reached }

/-- A cycle's on-time ends, by its peak or by T_ON_MAX (R164). -/
def Bst.offAt (t : Ns) (longest : Bool) (b : Bst) : Bst :=
  { b with
    phase := .off t, pin := b.pin.set false t false, tonMax := if longest then b.tonMax + 1 else b.tonMax }

/-- Switching starts below V_SET - HYST (R164). -/
def Bst.regulated (t : Ns) (low : Bool) (b : Bst) : Bst :=
  if b.phase = .idle ∧ b.volt + b.hyst < b.vSet then b.cycled t low else b

/-- The persistence of the voltage's limits, with the voltage of `b` (R168). -/
def Bst.watched (t : Ns) (b : Bst) : Bst :=
  let high := decide (fld b.limits 0 16 < b.volt)
  let under := fld b.limits 16 16 != 0 && decide (b.volt < fld b.limits 16 16) && b.phase != .idle
  { b with
    ovSince := if high then some (b.ovSince.getD t) else none, ovDet := high && b.ovDet
    uvSince := if under then some (b.uvSince.getD t) else none, uvDet := under && b.uvDet }

section
variable {t : Ns} {low : Bool} {b : Bst}

theorem regulated_low (hidle : b.phase = .idle) (hlow : b.volt + b.hyst < b.vSet) : b.regulated t low = b.cycled t low :=
  if_pos ⟨hidle, hlow⟩

theorem regulated_high (h : b.vSet ≤ b.volt + b.hyst) : b.regulated t low = b := if_neg fun hlow => Nat.not_lt_of_le h hlow.2

theorem regulated_switching (h : b.phase ≠ .idle) : b.regulated t low = b := if_neg fun hidle => h hidle.1

end

/-- A reading taken: the voltage, the cycle that it may start, and the limits' persistence (R164, R165, R168). -/
def Bst.read (code volt : Nat) (t : Ns) (low : Bool) (b : Bst) : Bst := ((b.measured code volt).regulated t low).watched t

section
variable (code : Nat) {volt : Nat} {t : Ns} {low : Bool} {b : Bst}

theorem read_voltage : (b.read code volt t low).code = code ∧ (b.read code volt t low).volt = volt := by
  unfold Bst.read Bst.regulated
  split
  case isTrue => exact ⟨rfl, rfl⟩
  case isFalse => exact ⟨rfl, rfl⟩

theorem read_low (hidle : b.phase = .idle) (hlow : volt + b.hyst < b.vSet) : (b.read code volt t low).phase = .on t ∧
    (b.read code volt t low).pin.on = true ∧ (b.read code volt t low).cycles = b.cycles + 1 := by
  rw [Bst.read, regulated_low (b := b.measured code volt) hidle hlow]
  exact ⟨rfl, Pin.set_on .., rfl⟩

theorem read_high (h : b.vSet ≤ volt + b.hyst) : (b.read code volt t low).phase = b.phase ∧
    (b.read code volt t low).pin = b.pin ∧ (b.read code volt t low).cycles = b.cycles := by
  rw [Bst.read, regulated_high (b := b.measured code volt) h]
  exact ⟨rfl, rfl, rfl⟩

end

/-- A bank whose END block is still to begin takes the new voltage (R160). -/
def Bank.boosted (t : Ns) (volt : Nat) (b : Bank) : Bank :=
  if b.psq.endAt.any fun x => decide (t < x) then { b with vBst := volt } else b

/-! ### What its commands do -/

theorem bstCode_eq (uv : Nat) : bstCode uv = min 1023 ((uv * 1024 + 625000) / 1250000) := by
  rw [bstCode, satN_eq_min, divRoundN]
  omega

section
variable {d : Dev} {a : Ns}

theorem bstRegulate_may (h : d.bstMay = true) : d.bstRegulate = d.modBst (Bst.regulated d.dtime d.sup.vgdLow) := by
  unfold Dev.bstRegulate
  rw [if_neg (by simp [h])]
  unfold Dev.modBst Bst.regulated
  by_cases hlow : d.bst.phase = .idle ∧ d.bst.volt + d.bst.hyst < d.bst.vSet
  · rw [if_pos hlow, if_pos hlow]
    rfl
  · rw [if_neg hlow, if_neg hlow]

/-- A cycle's on-time ends, and the next cycle waits for T_OFF. -/
theorem bstOff_regulated (longest : Bool) (hmay : d.bstMay = true) :
    (d.bstOff longest).bstRegulate = d.modBst (Bst.offAt d.dtime longest) := by
  have hoff : d.bstOff longest = d.modBst (Bst.offAt d.dtime longest) := rfl
  have hstays (t : Ns) (low : Bool) : (d.bst.offAt d.dtime longest).regulated t low = d.bst.offAt d.dtime longest :=
    regulated_switching BstPhase.noConfusion
  rw [bstRegulate_may (d := d.bstOff longest) hmay, hoff, Dev.modBst, Dev.modBst, hstays]

theorem bstPeak_on (hmay : d.bstMay = true) (h : d.bst.phase = .on a) : d.bstPeak = d.modBst (Bst.offAt d.dtime false) := by
  simp only [Dev.bstPeak, h, bstOff_regulated false hmay]

theorem bstTonMax_early (h : d.bst.phase = .on a) (hton : d.dtime < a + fld d.bst.cfg 32 16) : d.bstTonMax = d := by
  simp only [Dev.bstTonMax, h, if_pos hton]

theorem bstTonMax_due (hmay : d.bstMay = true) (h : d.bst.phase = .on a) (hton : a + fld d.bst.cfg 32 16 ≤ d.dtime) :
    d.bstTonMax = d.modBst (Bst.offAt d.dtime true) := by
  simp only [Dev.bstTonMax, h, if_neg (Nat.not_lt_of_le hton), bstOff_regulated true hmay]

theorem bstToff_next (hmay : d.bstMay = true) (h : d.bst.phase = .off a) (htoff : a + fld d.bst.cfg 48 16 ≤ d.dtime)
    (hlow : d.bst.volt < d.bst.vSet) (hreached : d.bst.reached = false) :
    d.bstToff = d.modBst (Bst.cycled d.dtime d.sup.vgdLow) := by
  simp only [Dev.bstToff, h, if_neg (Nat.not_lt_of_le htoff)]
  exact if_neg (by simp [hmay, hlow, hreached])

theorem bstToff_reached (h : d.bst.phase = .off a) (htoff : a + fld d.bst.cfg 48 16 ≤ d.dtime)
    (hhigh : d.bst.vSet ≤ d.bst.volt ∨ d.bst.reached = true) :
    d.bstToff = d.modBst fun b => (b.halt d.dtime).watched d.dtime := by
  simp only [Dev.bstToff, h, if_neg (Nat.not_lt_of_le htoff)]
  exact if_pos (hhigh.elim (fun hv => .inr (.inl hv)) .inl)

/-- A reading is regulated and watched; code and voltage are variables here, which keeps their evaluation out of the proof. -/
theorem measured_regulated (code volt : Nat) (hmay : d.bstMay = true) :
    ((d.modBst (Bst.measured code volt)).bstRegulate).bstWatch = d.modBst (Bst.read code volt d.dtime d.sup.vgdLow) := by
  rw [bstRegulate_may (d := d.modBst (Bst.measured code volt)) hmay]
  rfl

theorem bstUpdate_read {code volt uv : Nat} (hcode : bstCode uv = code) (hvolt : bstVolt code (fld d.bst.cfg 8 8) = volt)
    (hmay : d.bstMay = true) : d.bstUpdate uv =
    { d.modBst (Bst.read code volt d.dtime d.sup.vgdLow) with banks := d.banks.map (Bank.boosted d.dtime volt) } := by
  subst hcode hvolt
  unfold Dev.bstUpdate
  extract_lets code volt d'
  exact measured_regulated (d := d') code volt hmay

/-! ### The limits (R168) -/

/-- A boost class with reaction 0 is counted once, and attached to the event of each bank (R203, R206). -/
theorem detectBoost_reported {c : Nat} (hon : offClass c = false) (hreact : fld d.diag.react (2 * c) 2 = 0) :
    ∃ banks loft seen last, d.detectBoost c =
      { d with
        banks := banks, loft := loft
        diag := { d.diag with seen := seen, last := last, cnt := upd d.diag.cnt (Fin.ofNat 16 c) (· + 1) } } := by
  unfold Dev.detectBoost
  extract_lets mark
  have hmark (d : Dev) (k : Fin 4) : ∃ banks loft, mark d k = { d with banks := banks, loft := loft } := by
    simp only [mark]
    split
    · cases (d.bank k).owner <;> exact ⟨_, _, rfl⟩
    · exact ⟨_, _, rfl⟩
  obtain ⟨banks, loft, hmarked⟩ : ∃ banks loft, (List.finRange 4).foldl mark d = { d with banks := banks, loft := loft } :=
    List.foldlRecOn (motive := fun d' => ∃ banks loft, d' = { d with banks := banks, loft := loft }) _ mark ⟨_, _, rfl⟩
      fun d' ⟨_, _, hd'⟩ k _ => (hmark d' k).imp fun _ => Exists.imp fun _ hk => by rw [hk, hd']
  rw [hmarked]
  exact ⟨banks, loft, detect_reported (d := { d with banks := banks, loft := loft }) .boost _ hon hreact⟩

theorem bstOver_due (h : d.bst.ovSince = some a) (hdet : d.bst.ovDet = false) (hlong : a + d.bstDet ≤ d.dtime) :
    d.bstOver = (d.modBst fun b => { b with ovDet := true, ovSeen := true }).detectBoost 10 := by
  simp only [Dev.bstOver, h]
  exact if_neg (by simp [hdet, hlong])

theorem bstUnder_due (hphase : d.bst.phase ≠ .idle) (h : d.bst.uvSince = some a) (hdet : d.bst.uvDet = false)
    (hlong : a + d.bstDet ≤ d.dtime) :
    d.bstUnder = (d.modBst fun b => { b with uvDet := true, uvSeen := true }).detectBoost 11 := by
  simp only [Dev.bstUnder, h]
  exact if_neg (by simp [hdet, hphase, hlong])

theorem bstOver_none (h : d.bst.ovSince = none) : d.bstOver = d := by
  simp only [Dev.bstOver, h]

theorem bstUnder_none (h : d.bst.uvSince = none ∨ d.bst.phase = .idle) : d.bstUnder = d := by
  unfold Dev.bstUnder
  split
  case h_1 a ha => exact if_pos (.inr (.inl (h.resolve_left (by simp [ha]))))
  case h_2 => rfl

end

/-! ### The obligation -/

section
variable {s : State} {c : Instr} {body : Env → Dev → Dev} {f : Bst → Bst} (hsettled : s.dev.settled)
  (hexec : exec c s = runAt (stampOf c) body s)
include hsettled hexec

/-- A command that changes the boost controller alone. -/
theorem completes_bst (hbody : s.after (stampOf c) body = (s.dev.at (stampOf c)).modBst f) :
    Completes c s fun s' => s'.dev.bst = f s.dev.bst ∧ s.touches [.bst] s' :=
  completes_of_after hexec hbody hsettled.1 fun _ h =>
    ⟨h.bst, h.touches hsettled.1 hsettled.2 (Group.same_drive s (hbst := .inl (by simp)))⟩

/-- A command that changes the boost controller and finds one of its classes, for which a report alone is configured. -/
theorem completes_boost_class {x : Nat} (hbody : s.after (stampOf c) body = ((s.dev.at (stampOf c)).modBst f).detectBoost x)
    (hon : offClass x = false) (hreact : fld s.dev.diag.react (2 * x) 2 = 0) :
    Completes c s fun s' => s'.dev.bst = f s.dev.bst ∧
      s'.dev.diag.cnt[Fin.ofNat 16 x] = s.dev.diag.cnt[Fin.ofNat 16 x] + 1 ∧ s.touches [.bst, .diag, .banks, .loft] s' := by
  obtain ⟨banks, loft, seen, last, hdetect⟩ := detectBoost_reported (d := (s.dev.at (stampOf c)).modBst f) hon hreact
  refine completes_of_after hexec (hbody.trans hdetect) hsettled.1 fun s' h => ⟨h.bst, ?_, ?_⟩
  · rw [h.diag]
    exact upd_same ..
  · exact h.touches hsettled.1 hsettled.2 (Group.same_drive s (hloft := .inl (by simp)) (hbanks := .inl (by simp))
      (hbst := .inl (by simp)) (hdiag := .inl (by simp)))

end

/-- A reading of BST_VS while switching is allowed. -/
theorem completes_read {s : State} {t : Ns} {uv code volt : Nat} (hsettled : s.dev.settled) (hcode : bstCode uv = code)
    (hvolt : bstVolt code (fld s.dev.bst.cfg 8 8) = volt) (hmay : (s.dev.at t).bstMay = true) :
    Completes (.bstVoltUpdate t uv) s fun s' => s'.dev.bst = s.dev.bst.read code volt (s.now t) s.dev.sup.vgdLow ∧
      (∀ k : Fin 4, s'.dev.banks[k] = s.dev.banks[k].boosted (s.now t) volt) ∧ s.touches [.bst, .banks] s' := by
  refine completes_of_after (c := .bstVoltUpdate t uv) rfl (bstUpdate_read (d := s.dev.at t) hcode hvolt hmay) hsettled.1
    fun s' h => ⟨h.bst, fun k => ?_, ?_⟩
  · rw [h.banks]
    exact Vector.getElem_map ..
  · exact h.touches hsettled.1 hsettled.2 (Group.same_drive s (hbanks := .inl (by simp)) (hbst := .inl (by simp)))

/-- Settles O32: a reading gives the voltage, the cycle and the banks of `bstUpdate_read` (the code half up and the voltage
rounded down are log 24 of the assumptions; `bstCode_eq`); a cycle ends and goes on as `bstPeak_on`, `bstTonMax_due`,
`bstToff_next` and `bstToff_reached` say; a voltage beyond its limit is detected as `completes_boost_class` says. -/
theorem boost : Obligations.Boost := by
  unfold Obligations.Boost
  intro s t ⟨⟨_, hsettled⟩, _⟩ henabled hmode hheld b now
  have hmay : (s.dev.at t).bstMay = true := by
    simp only [Dev.bstMay, Bool.and_eq_true, Bool.not_eq_true']
    exact ⟨⟨henabled, hmode⟩, hheld⟩
  refine ⟨?update, ?peak, ?longest, ?short, ?next, ?reached, ?above, ?below, ?noneAbove, ?noneBelow⟩
  case update =>
    intro uv hidle
    obtain ⟨code, hcode⟩ : ∃ code, bstCode uv = code := ⟨_, rfl⟩
    obtain ⟨volt, hvolt⟩ : ∃ volt, bstVolt code (fld b.cfg 8 8) = volt := ⟨_, rfl⟩
    refine (completes_read hsettled hcode hvolt hmay).imp fun s' ⟨hbst, hbanks, htouches⟩ => ?_
    intro c code'
    have hc : c = b.read code volt now s.dev.sup.vgdLow := hbst
    have hcode' : code = code' := hcode.symm.trans (bstCode_eq uv)
    obtain ⟨hreadCode, hreadVolt⟩ := read_voltage code (volt := volt) (t := now) (low := s.dev.sup.vgdLow) (b := b)
    rw [hc, hreadCode, hreadVolt]
    exact ⟨hcode', hvolt.symm.trans (congrArg (bstVolt · _) hcode'), read_low code hidle,
      fun hhigh => hidle ▸ read_high code hhigh, hbanks, htouches⟩
  case peak =>
    intro a hon
    refine (completes_bst (c := .bstCsPeak t) hsettled rfl (bstPeak_on (d := s.dev.at t) hmay hon)).imp fun s' ⟨hbst, htouches⟩ => ?_
    rw [hbst]
    exact ⟨rfl, Pin.set_on .., rfl, htouches⟩
  case longest =>
    intro a hon hton
    refine (completes_bst (c := .tOnMax t) hsettled rfl (bstTonMax_due (d := s.dev.at t) hmay hon hton)).imp
      fun s' ⟨hbst, htouches⟩ => ?_
    rw [hbst]
    exact ⟨rfl, Pin.set_on .., rfl, htouches⟩
  case short =>
    exact fun a hon hton => completes_untouched (c := .tOnMax t) hsettled rfl (bstTonMax_early (d := s.dev.at t) hon hton)
  case next =>
    intro a hoff htoff hlow hreached
    refine (completes_bst (c := .tOffEnd t) hsettled rfl
      (bstToff_next (d := s.dev.at t) hmay hoff htoff hlow hreached)).imp fun s' ⟨hbst, htouches⟩ => ?_
    rw [hbst]
    exact ⟨rfl, Pin.set_on .., rfl, htouches⟩
  case reached =>
    intro a hoff htoff hhigh
    refine (completes_bst (c := .tOffEnd t) hsettled rfl
      (bstToff_reached (d := s.dev.at t) hoff htoff hhigh)).imp fun s' ⟨hbst, htouches⟩ => ?_
    rw [hbst]
    exact ⟨rfl, Pin.set_on .., rfl, htouches⟩
  case above =>
    exact fun a hsince hdet hlong hreact => completes_boost_class (c := .boostOverVoltage t) hsettled rfl
      (bstOver_due (d := s.dev.at t) hsince hdet hlong) rfl hreact
  case below =>
    exact fun a hphase hsince hdet hlong hreact => completes_boost_class (c := .boostUnderVoltage t) hsettled rfl
      (bstUnder_due (d := s.dev.at t) hphase hsince hdet hlong) rfl hreact
  case noneAbove =>
    exact fun h => completes_untouched (c := .boostOverVoltage t) hsettled rfl (bstOver_none (d := s.dev.at t) h)
  case noneBelow =>
    exact fun h => completes_untouched (c := .boostUnderVoltage t) hsettled rfl (bstUnder_none (d := s.dev.at t) h)

end Sys2Proof.Machine
end

section
/-! How the waits of the profile sequencers end, how a chop switches, and the commanded end (R177, R180, R182, R185, R186). -/

namespace Sys2Proof.Machine

open Sys2Proof

/-- A wait whose comparator is valid at `t` ends in the step after the one that follows (R180; log 43 of the assumptions). -/
def Bank.waitMet (t : Ns) (b : Bank) : Bank :=
  { b with psq := { b.psq with phase := .timed (b.psq.afterNext t) (.seq b.psq.rel), ahead := false } }

/-- The profile flags after the timeout of a wait with the word `w` (R185). -/
def Psq.timeoutFlags (w : W64) (p : Psq) : Byte := if bit w 20 then p.flags ||| BitVec.ofNat 8 (2 ^ fld w 17 3) else p.flags

/-- A timeout of a wait with the word `w` is counted and sets its flag; the moment was known in advance (R179, R185). -/
def Psq.timeoutNoted (w : W64) (p : Psq) : Psq :=
  { p with
    timeouts := p.timeouts + 1, flags := p.timeoutFlags w, ahead := true, last := { p.last with flags := p.timeoutFlags w } }

/-- The timeout `out` of a wait with the word `w`: noted, and the sequencer goes on or jumps (R177). -/
def Psq.timedOut (w : W64) (out : Ns) (p : Psq) : Psq :=
  (p.timeoutNoted w).goOn (if bit w 21 then .jump (fld w 22 10) else .seq p.rel) out

/-- The comparator that a chop waits for: HI in S_ON, LO in S_OFF (R182). -/
def Bank.chopCompared (b : Bank) : Bank := if b.psq.chopOn then { b with cmpHi := true } else { b with cmpLo := true }

/-- A switch of a chop in the step `next`, at the pins one output latency later (R179, R182). -/
def Bank.chopSwitched (next : Ns) (low : Bool) (b : Bank) : Bank :=
  let c := b.chopCompared.driven (if b.psq.chopOn then b.psq.sOff else b.psq.sOn) (next + 32) low
  { c with psq := { b.psq with
    chopOn := !b.psq.chopOn, chopAt := next, last := { b.psq.last with chopCnt := satN 65535 (b.psq.last.chopCnt + 1) } } }

/-- PREEMPT of an event whose END block begins at t_e in an instruction of kind `op` (R194). -/
def Bank.preempted (op : Nat) (b : Bank) : Bank := b.noted fun l => { l with preempt := op != 5 && op != 10 }

/-! ### Where a sequencer goes on (R184) -/

section
variable (p : Psq)

/-- A jump changes the loop counters and PC alone. -/
theorem jumpTo_eq (target : Nat) : ∃ lc, p.jumpTo target = { p with lc := lc, pc := p.profStart + target } := by
  simp only [Psq.jumpTo]
  split <;> split <;> exact ⟨_, rfl⟩

/-- Going on in sequence changes the loop counters and PC alone. -/
theorem seqFrom_eq (last fuel : Nat) : ∃ lc pc, p.seqFrom last fuel = { p with lc := lc, pc := pc } := by
  induction fuel generalizing p with
  | zero => exact ⟨_, _, rfl⟩
  | succ n ih =>
    simp only [Psq.seqFrom]
    split
    case h_1 => exact ⟨_, _, rfl⟩
    case h_2 c _ =>
      split
      · exact ⟨_, _, rfl⟩
      · exact ih { p with lc := upd p.lc c fun _ => 0 }

/-- The next instruction begins at `t`, with nothing but the loop counters and PC changed besides. -/
theorem goOn_eq (x : PsqNext) (t : Ns) : ∃ lc pc, p.goOn x t = { p with lc := lc, pc := pc, phase := .ready, stepAt := t } := by
  cases x with
  | seq last =>
    obtain ⟨lc, pc, h⟩ := seqFrom_eq p last 2
    exact ⟨lc, pc, congrArg (fun q : Psq => { q with phase := .ready, stepAt := t }) h⟩
  | jump target =>
    obtain ⟨lc, h⟩ := jumpTo_eq p target
    exact ⟨lc, _, congrArg (fun q : Psq => { q with phase := .ready, stepAt := t }) h⟩

variable {p}

/-- While no loop runs, the next instruction in sequence follows. -/
theorem seqFrom_pc_of_no_loop (h : p.lc = Vector.replicate 2 0) (last fuel : Nat) :
    (p.seqFrom last fuel).pc = p.profStart + last + 1 := by
  have hinner (sel : Nat × Nat → Bool) : p.inner sel = none := by simp [Psq.inner, h]
  cases fuel with
  | zero => rfl
  | succ n => simp only [Psq.seqFrom, hinner]

end

/-! ### The timeout of a wait -/

section
variable (w : W64) (out : Ns) (p : Psq)

theorem timedOut_keeps : (p.timedOut w out).phase = .ready ∧ (p.timedOut w out).stepAt = out ∧
    (p.timedOut w out).timeouts = p.timeouts + 1 ∧ (p.timedOut w out).flags = p.timeoutFlags w := by
  unfold Psq.timedOut
  obtain ⟨lc, pc, h⟩ := goOn_eq (p.timeoutNoted w) (if bit w 21 then .jump (fld w 22 10) else .seq p.rel) out
  rw [h]
  exact ⟨rfl, rfl, rfl, rfl⟩

variable {w}

theorem timedOut_jumps (h : bit w 21 = true) : (p.timedOut w out).pc = p.profStart + fld w 22 10 := by
  simp only [Psq.timedOut, h, if_true]
  rfl

theorem timedOut_next {p : Psq} (h : bit w 21 = false) (hloop : p.lc = Vector.replicate 2 0) :
    (p.timedOut w out).pc = p.profStart + p.rel + 1 := by
  simp only [Psq.timedOut, h, Bool.false_eq_true, if_false]
  exact seqFrom_pc_of_no_loop (p := p.timeoutNoted w) hloop _ 2

end

/-! ### What a command leaves of its bank -/

theorem evaluates_iff (b : Bank) (t : Ns) : b.evaluates t = true ↔ b.psq.stepAt + 64 ≤ t ∧ b.lastSw + b.blank ≤ t := by
  simp [Bank.evaluates, Bank.compares]

section
variable {k : Fin 4} {d : Dev}

theorem conditionMet_unevaluated (heval : ¬(d.bank k).evaluates d.dtime = true) : d.conditionMet k = d := by
  simp only [Dev.conditionMet, heval, Bool.false_and, Bool.false_eq_true, if_false]
  split <;> rfl

theorem chopSwitch_unevaluated (heval : ¬(d.bank k).evaluates d.dtime = true) : d.chopSwitch k = d := by
  simp only [Dev.chopSwitch, heval, Bool.not_false, Bool.or_true, Bool.true_or, if_true]
  split <;> rfl

section
variable {out : Ns} (heval : (d.bank k).evaluates d.dtime = true) (hout : (d.bank k).psq.afterNext d.dtime ≤ out)
  (hte : d.dtime < (d.bank k).psq.te)
include heval hout hte

theorem conditionMet_high (hphase : (d.bank k).psq.phase = .waitHi out) :
    d.conditionMet k = d.modBank k fun b => { b with cmpHi := true }.waitMet d.dtime := by
  simp only [Dev.conditionMet, hphase, heval, hout, hte, decide_true, Bool.and_self, if_true]
  exact (Dev.modBank_modBank ..).trans (Dev.modBank_congr d rfl)

theorem conditionMet_low (hphase : (d.bank k).psq.phase = .waitLo out) :
    d.conditionMet k = d.modBank k fun b => { b with cmpLo := true }.waitMet d.dtime := by
  simp only [Dev.conditionMet, hphase, heval, hout, hte, decide_true, Bool.and_self, if_true]
  exact (Dev.modBank_modBank ..).trans (Dev.modBank_congr d rfl)

end

theorem waitTimeout_due {e : Env} {out : Ns} (hphase : (d.psqOf k).phase = .waitHi out ∨ (d.psqOf k).phase = .waitLo out)
    (hout : out ≤ d.dtime) (hte : out < (d.psqOf k).te) : d.waitTimeout e k =
    d.modPsq k (Psq.timedOut (e.mems.word (profAddr k.val (d.psqOf k).pc)) out) := by
  have hdue : ¬(d.dtime < out ∨ (d.psqOf k).te ≤ out) := not_or.mpr ⟨Nat.not_lt_of_le hout, Nat.not_le_of_lt hte⟩
  obtain hphase | hphase := hphase <;>
    · simp only [Dev.waitTimeout, hphase, hdue, if_false]
      exact Dev.modBank_congr d rfl

@[simp] theorem chopCompared_psq (b : Bank) : b.chopCompared.psq = b.psq := by
  unfold Bank.chopCompared
  split <;> rfl

theorem chopCompared_eq : (if (d.bank k).psq.chopOn then d.modBank k fun b => { b with cmpHi := true }
    else d.modBank k fun b => { b with cmpLo := true }) = d.modBank k Bank.chopCompared := by
  split
  case isTrue h => exact Dev.modBank_congr d (if_pos h).symm
  case isFalse h => exact Dev.modBank_congr d (if_neg h).symm

theorem chopSwitch_due {stop : Option Ns} (hphase : (d.bank k).psq.phase = .chop stop)
    (heval : (d.bank k).evaluates d.dtime = true)
    (hmin : (d.bank k).psq.chopAt + (d.bank k).psq.minSw ≤ (d.bank k).psq.following d.dtime)
    (hte : (d.bank k).psq.following d.dtime < (d.bank k).psq.te)
    (hstop : ∀ u, stop = some u → (d.bank k).psq.following d.dtime < u) :
    d.chopSwitch k = d.modBank k (Bank.chopSwitched ((d.bank k).psq.following d.dtime) d.sup.vgdLow) := by
  have hopen {ends : Ns} (h : (d.bank k).psq.following d.dtime < ends) :
      (decide ((d.bank k).psq.following d.dtime < (d.bank k).psq.chopAt + (d.bank k).psq.minSw) ||
        !(d.bank k).evaluates d.dtime || decide (ends ≤ (d.bank k).psq.following d.dtime)) = false := by
    simp [heval, Nat.not_lt_of_le hmin, Nat.not_le_of_lt h]
  cases stop with
  | none =>
    simp only [Dev.chopSwitch, hphase, hopen hte, Bool.false_eq_true, if_false, chopCompared_eq, drive_eq, Dev.modPsq,
      Dev.modBank_modBank]
    exact Dev.modBank_congr d (by simp [Bank.chopSwitched])
  | some u =>
    simp only [Dev.chopSwitch, hphase, hopen (Nat.lt_min.mpr ⟨hstop u rfl, hte⟩), Bool.false_eq_true, if_false, chopCompared_eq,
      drive_eq, Dev.modPsq, Dev.modBank_modBank]
    exact Dev.modBank_congr d (by simp [Bank.chopSwitched])

/-! ### The commanded end -/

theorem commandedEnd_early {e : Env} (h : d.dtime + 32 < (d.psqOf k).te) : d.commandedEnd e k = d := if_pos h

/-- The END block begins with a field of the result noted first. -/
theorem beginEnd_modLast {e : Env} (herrs : d.memu.errs = []) (f : DiPart → DiPart) (t tp : Ns) : (d.modLast k f).beginEnd e k t tp =
    d.modBank k fun b => (b.noted f).endBegun (e.mems.word (profAddr k.val ((d.psqOf k).profStart + (d.psqOf k).profLen - 1)))
      t tp d.bst.volt d.sup.vgdLow := by
  rw [modLast_eq, beginEnd_eq (d := d.modBank k _) herrs, Dev.modBank_modBank, Dev.psqOf, Dev.bank_modBank]
  rfl

theorem commandedEnd_due {e : Env} (herrs : d.memu.errs = []) (hcatch : (d.psqOf k).catchUp (d.psqOf k).te = d.psqOf k)
    (hidle : (d.psqOf k).phase ≠ .idle) (hte : (d.psqOf k).te ≤ d.dtime + 32) (hend : (d.psqOf k).endAt = none) :
    d.commandedEnd e k = d.modBank k fun b => (b.preempted (fld (e.mems.word (profAddr k.val (d.psqOf k).pc)) 0 4)).endBegun
      (e.mems.word (profAddr k.val ((d.psqOf k).profStart + (d.psqOf k).profLen - 1))) (d.psqOf k).te (d.psqOf k).te
      d.bst.volt d.sup.vgdLow := by
  have hself : d.modPsq k (Psq.catchUp (d.psqOf k).te) = d :=
    Dev.modBank_self d (congrArg (fun p : Psq => { d.bank k with psq := p }) hcatch)
  have hrun : ¬((d.psqOf k).phase == .idle || (d.psqOf k).endAt.isSome) = true := by simp [hidle, hend]
  simp only [Dev.commandedEnd, hself, Nat.not_lt_of_le hte, hrun, if_false, Bool.false_eq_true]
  exact beginEnd_modLast herrs ..

/-- PREEMPT stands for every instruction but CHOP_TO_END and END (R194). -/
theorem preempted_endBegun (op : Nat) (w : W64) (t tp : Ns) (volt : Nat) (low : Bool) (b : Bank) :
    ((b.preempted op).endBegun w t tp volt low).psq.last.preempt = (decide (op ≠ 5) && decide (op ≠ 10)) := by
  simp [Bank.endBegun, Bank.preempted, Bank.flagArg, Bank.noted, bne, beq_eq_decide]

end

/-! ### The obligation -/

/-- Settles O28: each command changes its bank alone (`completes_bank`) where its comparator is evaluated and its moment has come
(`conditionMet_high`, `conditionMet_low`, `waitTimeout_due`, `chopSwitch_due`, `commandedEnd_due`), and nothing before
(`conditionMet_unevaluated`, `chopSwitch_unevaluated`, `commandedEnd_early`). The step in which a wait ends and that in which a
chop switches are log 43 of the assumptions. -/
theorem psqWaits : Obligations.PsqWaits := by
  unfold Obligations.PsqWaits
  intro s k t ⟨⟨_, hsettled⟩, herrs, _⟩ b q w now valid next
  have heval : valid → ((s.dev.at t).bank k).evaluates (s.dev.at t).dtime = true := (evaluates_iff b now).mpr
  refine ⟨?high, ?low, ?unevaluated, ?timeout, ?chop, ?early, ?ended⟩
  case high =>
    intro out hphase hvalid hout hte
    refine (completes_bank (c := .waitConditionMet t k) hsettled rfl
      (conditionMet_high (d := s.dev.at t) (heval hvalid) hout hte hphase)).imp fun s' ⟨hbank, hnext⟩ => ?_
    rw [hbank]
    exact ⟨hnext, rfl, rfl, rfl⟩
  case low =>
    intro out hphase hvalid hout hte
    refine (completes_bank (c := .waitConditionMet t k) hsettled rfl
      (conditionMet_low (d := s.dev.at t) (heval hvalid) hout hte hphase)).imp fun s' ⟨hbank, hnext⟩ => ?_
    rw [hbank]
    exact ⟨hnext, rfl, rfl⟩
  case unevaluated =>
    intro hvalid
    have hno : ¬((s.dev.at t).bank k).evaluates (s.dev.at t).dtime = true := mt (evaluates_iff b now).mp hvalid
    exact ⟨completes_untouched (c := .waitConditionMet t k) hsettled rfl (conditionMet_unevaluated hno),
      completes_untouched (c := .chopSwitch t k) hsettled rfl (chopSwitch_unevaluated hno)⟩
  case timeout =>
    intro out hphase hout hte
    refine (completes_bank (c := .waitTimeout t k) hsettled rfl
      (waitTimeout_due (d := s.dev.at t) (e := s.env) hphase hout hte)).imp fun s' ⟨hbank, hnext⟩ => ?_
    rw [hbank]
    obtain ⟨hready, hstep, hcount, hflags⟩ := timedOut_keeps w out q
    exact ⟨hnext, hready, hstep, hcount, hflags, timedOut_jumps out q, timedOut_next out⟩
  case chop =>
    intro stop hphase hvalid step hmin hte hstop
    refine (completes_bank (c := .chopSwitch t k) hsettled rfl
      (chopSwitch_due (d := s.dev.at t) hphase (heval hvalid) hmin hte hstop)).imp fun s' ⟨hbank, hnext⟩ => ?_
    rw [hbank]
    exact ⟨hnext, driven_sw .., rfl, rfl, satN_eq_min ..⟩
  case early =>
    exact fun h => completes_untouched (c := .commandedEnd t k) hsettled rfl (commandedEnd_early (d := s.dev.at t) h)
  case ended =>
    intro out hphase hte hend
    have hcatch : q.catchUp q.te = q := by
      obtain h | h | h := hphase <;> simp only [Psq.catchUp, h]
    have hidle : q.phase ≠ .idle := by
      obtain h | h | h := hphase <;> simp [h]
    refine (completes_bank (c := .commandedEnd t k) hsettled rfl
      (commandedEnd_due (d := s.dev.at t) (e := s.env) herrs hcatch hidle hte hend)).imp fun s' ⟨hbank, hnext⟩ => ?_
    rw [hbank]
    obtain ⟨hsw, hvolt, -, -⟩ := endBegun_bank _ _ _ _ _ _
    obtain ⟨hat, -⟩ := endBegun_psq _ _ _ _ _ _
    exact ⟨hnext, hsw, hat, preempted_endBegun .., hvolt⟩

end Sys2Proof.Machine
end

section
/-! The detection of a class, and the VDS monitors (R196, R197, R203, R206). -/

namespace Sys2Proof.Machine

open Sys2Proof

/-! ### What a detection writes (R196, R203) -/

/-- A class found at a moment, with the reaction taken: it is counted, latched and shown (R203). -/
def Diag.found (c r : Nat) (unit : BitVec 16) (now : Ns) (g : Diag) : Diag :=
  { g with
    seen := g.seen ||| classBit c, cnt := upd g.cnt (Fin.ofNat 16 c) (· + 1)
    last := put 0 4 c ||| put 4 2 r ||| put 16 16 unit.toNat ||| put 32 32 now }

section
variable {c : Nat} (r : Nat) (unit : BitVec 16) (now : Ns) (g : Diag)

theorem found_class (hc : c < 16) : fld (g.found c r unit now).last 0 4 = c := by
  simp [Diag.found, fld_or, fld_put_same, fld_put_disjoint, Nat.mod_eq_of_lt hc]

theorem found_unit : fld (g.found c r unit now).last 16 16 = unit.toNat := by
  simp [Diag.found, fld_or, fld_put_same, fld_put_disjoint, Nat.mod_eq_of_lt unit.isLt]

theorem found_seen (hc : c < 16) : (g.found c r unit now).seen.getLsbD c = true := classBit_mem hc _

theorem found_cnt : (g.found c r unit now).cnt[Fin.ofNat 16 c] = g.cnt[Fin.ofNat 16 c] + 1 := upd_same ..

end

section
variable {c : Nat} {d : Dev} (o : DiagObj) (co : W64) (hon : offClass c = false)
include hon

/-- Where a report alone is configured, that is all. -/
theorem detect_only (hreact : fld d.diag.react (2 * c) 2 = 0) :
    d.detect c o co = { d with diag := d.diag.found c 0 o.ctrl d.dtime } := by
  simp only [Dev.detect, hon, hreact, Bool.false_and, Bool.false_eq_true, if_false, if_true]
  rfl

/-- Where the output is to be disabled, DIAG is raised besides, with the reaction that disables an output (R203, R389). -/
theorem detect_disables (hreact : fld d.diag.react (2 * c) 2 = 1) :
    d.detect c o co = ({ d with diag := d.diag.found c 1 o.ctrl d.dtime } : Dev).raise
      { source := 11, detail := c, ctrl := o.ctrl, coord := co, react := some 2 } := by
  simp only [Dev.detect, hon, hreact, Bool.false_and, Bool.false_eq_true, if_false, one_ne_zero, OfNat.one_ne_ofNat]
  rfl

end

/-! ### Events that a class attaches to (R206) -/

/-- A class found on a bank attaches to the event that holds it, and is detected. -/
theorem detectOn_attaches (k : Fin 4) {c : Nat} (hc : c < 16) (o : DiagObj) (d : Dev) : ∃ banks loft co,
    d.detectOn k c o = ({ d with banks := banks, loft := loft } : Dev).detect c o co ∧
    ∀ b, (d.bank k).owner = .box b → loft.boxes[b].part.dclass.getLsbD c = true := by
  by_cases hbusy : (d.bank k).busy = true
  · refine ⟨(d.modBank k fun b => { b with dclass := b.dclass ||| classBit c }).banks,
      (d.modPart (d.bank k).owner fun p => { p with dclass := p.dclass ||| classBit c }).loft, d.ownerCoord (d.bank k).owner, ?_, ?_⟩
    · simp only [Dev.detectOn, hbusy, if_true]
      cases (d.bank k).owner <;> rfl
    · intro b howner
      rw [howner]
      exact (congrArg (fun y : Box => y.part.dclass.getLsbD c) (upd_same ..)).trans (classBit_mem hc _)
  · refine ⟨d.banks, d.loft, d.noEvent, if_neg hbusy, fun b howner => ?_⟩
    exact absurd (by simp [Bank.busy, howner]) hbusy

/-- A class of a port injector attaches to the events named, and is detected. -/
theorem detectPfi_attaches (n : Fin 16) (c : Nat) (on : List (Fin 128)) (d : Dev) :
    ∃ loft co, d.detectPfi n c on = ({ d with loft := loft } : Dev).detect c (.pfi n) co := by
  unfold Dev.detectPfi
  extract_lets co
  obtain ⟨loft, hmarked⟩ := foldl_loft on (fun d b => d.modPart (.box b) fun p => { p with dclass := p.dclass ||| classBit c }) d
    fun _ _ => ⟨_, rfl⟩
  exact ⟨loft, co, by rw [hmarked]⟩

/-! ### VDS faults (R197) -/

/-- The class of a switch's VDS fault (R196). -/
def vdsClass : VdsSwitch → Nat
  | .ls _ _ => 1
  | .hsb _ | .hsv _ => 3
  | .pfi _ => 6

/-- What a switch's VDS fault is found on (R196). -/
def vdsObj : VdsSwitch → DiagObj
  | .ls k j => .di (Fin.ofNat 16 (4 * k.val + j.val))
  | .hsb k | .hsv k => .bank k
  | .pfi n => .pfi n

theorem vdsClass_lt (x : VdsSwitch) : vdsClass x < 16 := by cases x <;> simp [vdsClass]

theorem vdsClass_on (x : VdsSwitch) : offClass (vdsClass x) = false := by cases x <;> rfl

/-- The control coordinate of a low side's output names bank and low side (R16). -/
theorem lowSide_ctrl (k j : Fin 4) : (vdsObj (.ls k j)).ctrl.toNat = 3 * 8192 + k.val * 256 + j.val := by
  have hbank : (4 * k.val + j.val) % 16 / 4 = k.val := by omega
  have hside : (4 * k.val + j.val) % 16 % 4 = j.val := by omega
  simp only [vdsObj, DiagObj.ctrl, ctrl, Fin.ofNat, BitVec.toNat_ofNat, hbank, hside]
  omega

theorem vdsDue_iff {d : Dev} {p : Pin} {since : Ns} : d.vdsDue p since = true ↔
    p.on = true ∧ max since (p.since + fld d.diag.vds 24 8 * 100) + fld d.diag.vds 32 8 * 100 ≤ d.dtime := by
  simp only [Dev.vdsDue, Bool.and_eq_true, decide_eq_true_eq]

section
variable {d : Dev} {x : VdsTrip}

theorem vdsFault_none (h : ¬d.vdsAbove x.nodeMv x.vbatMv x.sw = true ∨ ¬d.vdsDue (d.vdsPin x.sw) x.since = true) :
    d.vdsFault x = d := by
  refine if_pos ?_
  simp only [Bool.or_eq_true, Bool.not_eq_true']
  simp only [Bool.not_eq_true] at h
  tauto

/-- A VDS fault that has persisted is a detection of its switch's class, attached to the event that holds a low side's bank. -/
theorem vdsFault_found (hon : bit d.diag.cfg 0 = true) (habove : d.vdsAbove x.nodeMv x.vbatMv x.sw = true)
    (hdue : d.vdsDue (d.vdsPin x.sw) x.since = true) : ∃ banks loft co,
    d.vdsFault x = ({ d with banks := banks, loft := loft } : Dev).detect (vdsClass x.sw) (vdsObj x.sw) co ∧
    ∀ k j b, x.sw = .ls k j → (d.bank k).owner = .box b → loft.boxes[b].part.dclass.getLsbD 1 = true := by
  have hmet : ¬(!d.onEn || !d.vdsAbove x.nodeMv x.vbatMv x.sw || !d.vdsDue (d.vdsPin x.sw) x.since) = true := by
    simp [Dev.onEn, hon, habove, hdue]
  unfold Dev.vdsFault
  rw [if_neg hmet]
  cases hsw : x.sw with
  | ls k j =>
    obtain ⟨banks, loft, co, hdetect, hattach⟩ := detectOn_attaches k (c := 1) (by decide) (vdsObj (.ls k j)) d
    refine ⟨banks, loft, co, hdetect, fun k' _ b h => ?_⟩
    obtain ⟨rfl, rfl⟩ := VdsSwitch.ls.inj h
    exact hattach b
  | hsb k =>
    obtain ⟨banks, loft, co, hdetect, -⟩ := detectOn_attaches k (c := 3) (by decide) (.bank k) d
    exact ⟨banks, loft, co, hdetect, nofun⟩
  | hsv k =>
    obtain ⟨banks, loft, co, hdetect, -⟩ := detectOn_attaches k (c := 3) (by decide) (.bank k) d
    exact ⟨banks, loft, co, hdetect, nofun⟩
  | pfi n =>
    obtain ⟨loft, co, hdetect⟩ := detectPfi_attaches n 6 (match d.pfi[n].owner with | .box b => [b] | _ => []) d
    exact ⟨d.banks, loft, co, hdetect, nofun⟩

end

/-- A VDS fault with reaction 0 is counted, latched and shown, and attached to the event that holds a low side's bank; nothing is
disabled (R203, R206). -/
theorem completes_vds_reported {s : State} {t : Ns} {x : VdsTrip} (hsettled : s.dev.settled) (hon : bit s.dev.diag.cfg 0 = true)
    (habove : s.dev.vdsAbove x.nodeMv x.vbatMv x.sw = true) (hdue : (s.dev.at t).vdsDue (s.dev.vdsPin x.sw) x.since = true)
    (hreact : fld s.dev.diag.react (2 * vdsClass x.sw) 2 = 0) : Completes (.vdsFault t x) s fun s' =>
    (s'.dev.diag.cnt[Fin.ofNat 16 (vdsClass x.sw)] = s.dev.diag.cnt[Fin.ofNat 16 (vdsClass x.sw)] + 1 ∧
      s'.dev.diag.seen.getLsbD (vdsClass x.sw) = true ∧ fld s'.dev.diag.last 0 4 = vdsClass x.sw ∧
      s'.dev.diag.disabled = s.dev.diag.disabled ∧ s.touches [.diag, .banks, .loft] s') ∧
    fld s'.dev.diag.last 16 16 = (vdsObj x.sw).ctrl.toNat ∧
    ∀ k j b, x.sw = .ls k j → s.dev.banks[k].owner = .box b → s'.dev.loft.boxes[b].part.dclass.getLsbD 1 = true := by
  have habove' : (s.dev.at t).vdsAbove x.nodeMv x.vbatMv x.sw = true := habove
  have hdue' : (s.dev.at t).vdsDue ((s.dev.at t).vdsPin x.sw) x.since = true := hdue
  obtain ⟨banks, loft, co, hfault, hattach⟩ := vdsFault_found (d := s.dev.at t) hon habove' hdue'
  have hbody := hfault.trans (detect_only (d := { s.dev.at t with banks := banks, loft := loft }) (vdsObj x.sw) co
    (vdsClass_on x.sw) hreact)
  refine completes_of_after (c := .vdsFault t x) rfl hbody hsettled.1 fun s' h => ?_
  have htouches : s.touches [.diag, .banks, .loft] s' := h.touches hsettled.1 hsettled.2
    (Group.same_drive s (hloft := .inl (by simp)) (hbanks := .inl (by simp)) (hdiag := .inl (by simp)))
  have hc := vdsClass_lt x.sw
  rw [h.diag, h.loft]
  exact ⟨⟨found_cnt .., found_seen _ _ _ _ hc, found_class _ _ _ _ hc, rfl, htouches⟩, found_unit .., hattach⟩

end Sys2Proof.Machine
end

section
/-! The reaction that disables an output: what its safe ends leave while no stored bit is flipped (R148, R162, R203, R389). -/

namespace Sys2Proof.Machine

open Sys2Proof

/-! ### Faults, diagnostics and memory protection through the ends of events -/

/-- What no safe end touches while no stored bit is flipped. -/
structure FaultView where
  flt : Flt
  diag : Diag
  memu : MemU

def Dev.faultView (d : Dev) : FaultView := ⟨d.flt, d.diag, d.memu⟩

/-- A loop whose every round keeps the view, while no stored bit is flipped, keeps it. -/
theorem faultView_foldl {α : Type} (l : List α) (f : Dev → α → Dev) {d : Dev} (herrs : d.memu.errs = [])
    (h : ∀ d x, d.memu.errs = [] → (f d x).faultView = d.faultView) : (l.foldl f d).faultView = d.faultView :=
  List.foldlRecOn (motive := fun d' => d'.faultView = d.faultView) l f rfl fun d' hd' x _ =>
    (h d' x ((congrArg (fun v : FaultView => v.memu.errs) hd').trans herrs)).trans hd'

section
variable {d : Dev} (e : Env)

theorem faultView_flt : d.faultView.flt = d.flt := rfl

theorem faultView_diag : d.faultView.diag = d.diag := rfl

theorem faultView_modPart (o : Owner) (f : Part → Part) : (d.modPart o f).faultView = d.faultView := by
  cases o <;> rfl

theorem faultView_modLoft (f : Loft → Loft) : (d.modLoft f).faultView = d.faultView := rfl

theorem faultView_softShutdown (n : Fin 16) : (d.softShutdown n).faultView = d.faultView := faultView_modPart ..

variable (herrs : d.memu.errs = [])
include herrs

theorem faultView_bankSafeEnd (k : Fin 4) : (d.bankSafeEnd e k).2.faultView = d.faultView := by
  have herrs' (f : Psq → Psq) : ((d.countSafeEnd k).modPsq k f).memu.errs = [] := herrs
  unfold Dev.bankSafeEnd
  simp only [beginEnd_eq (herrs' _)]
  repeat' split
  all_goals rfl

theorem faultView_endOutput (o : Owner) (ev : Event) : (d.endOutput e o ev).2.faultView = d.faultView := by
  unfold Dev.endOutput
  simp only
  split
  case h_1 => exact faultView_bankSafeEnd e herrs _
  case h_2 => split <;> exact faultView_modPart ..
  case h_3 =>
    split
    · rfl
    · split
      · rfl
      · exact faultView_softShutdown _
  case h_4 =>
    split
    · rfl
    · exact faultView_modPart ..
  case h_5 => rfl

theorem faultView_endBox (b : Fin 128) (res : EvResult) (reason : Nat) : (d.endBox e b res reason).faultView = d.faultView := by
  have hout := faultView_endOutput e herrs (.box b) (d.box b).ev
  unfold Dev.endBox
  extract_lets x boxCtrl
  cases x.state with
  | free | armed | committed | closing => rfl
  | active =>
    simp only
    split
    · rfl
    · generalize d.endOutput e (.box b) x.ev = answer at hout
      obtain ⟨_ | _, d'⟩ := answer <;> exact hout

theorem faultView_flush (sel : Event → Bool) (res : EvResult) (reason : Nat) :
    (d.flush e sel res reason).faultView = d.faultView := by
  unfold Dev.flush
  refine (faultView_modLoft _).trans (faultView_foldl allBoxes _ herrs fun d b herrs => ?_)
  split
  · exact faultView_endBox e herrs ..
  · rfl

theorem faultView_endTemplatesOf (sel : Event → Bool) : (d.endTemplatesOf e sel).faultView = d.faultView := by
  refine faultView_foldl _ _ herrs fun d i herrs => ?_
  split
  · split
    · exact faultView_endOutput e herrs ..
    · rfl
  · rfl

/-- A disabled DI output changes its bit of DIAG_DISABLED, and the source that is kept with it (R148, R389). -/
theorem faultView_disableDi (n src : Nat) : (d.disableOutput e .di n src).faultView =
    ((d.setDiag n).markDisabled (.output .di n) src).faultView := by
  unfold Dev.disableOutput
  extract_lets d' sel
  have hmarked : (d'.markDisabled (.output .di n) src).memu.errs = [] := herrs
  have hends := faultView_endTemplatesOf e hmarked sel
  exact (faultView_flush e ((congrArg (fun v : FaultView => v.memu.errs) hends).trans hmarked) ..).trans hends

theorem disableDi_diag (n src : Nat) : (d.disableOutput e .di n src).diag =
    { d.diag with disabled := d.diag.disabled ||| putB n true } := by
  rw [← faultView_diag, faultView_disableDi e herrs, faultView_diag]
  rfl

theorem disableDi_flt (n src : Nat) : ∃ sources, (d.disableOutput e .di n src).flt = { d.flt with disSrc := sources } := by
  rw [← faultView_flt, faultView_disableDi e herrs, faultView_flt]
  exact ⟨_, rfl⟩

end

/-! ### One fault with a reaction on its object -/

section
variable {d : Dev} {r : FaultReq} {c : Nat} {obj : ReactObj} (hcls : 2 ≤ srcClass r.source) (e : Env)
include hcls

theorem reactAll_one (hresolve : r.resolve (d.reactionOf r) = (c, obj)) (hc : c ∈ [6, 5, 4, 3, 2]) :
    d.reactAll e [r] = d.react e r.source c obj := by
  have hwide : ¬(srcClass r.source < 2 ∨ r.react.isSome ∧
      c < (([r].filter (·.react.isSome)).foldl (fun n r => max n (r.resolve (d.reactionOf r)).1) (0 : Nat))) := by
    cases hsome : r.react.isSome <;> simp [hsome, hresolve, Nat.not_lt_of_le hcls]
  unfold Dev.reactAll
  extract_lets taken widest due
  have hdue : due = [(r.source, c, obj)] := by
    simp only [due, List.filterMap_cons, taken, hresolve, widest, if_neg hwide, List.filterMap_nil]
  rw [hdue]
  simp only [List.mem_cons, List.not_mem_nil, or_false] at hc
  obtain rfl | rfl | rfl | rfl | rfl := hc <;> simp

/-- A fault whose reaction raises no other settles as its report with the reaction. -/
theorem settle_reaction (hraised : d.flt.raised = []) (hresolve : r.resolve (d.reactionOf r) = (c, obj)) (hc : c ∈ [6, 5, 4, 3, 2])
    (hquiet : ((d.report r).react e r.source c obj).flt.raised = []) :
    (d.raise r).settle e = (d.report r).react e r.source c obj := by
  have hone : (d.raise r).flt.raised = [r] := congrArg (· ++ [r]) hraised
  have hcleared : ((d.raise r).modFlt fun f => { f with raised := [] }) = d := by
    conv_rhs => rw [show d = { d with flt := { d.flt with raised := [] } } by rw [← hraised]]
    rfl
  have hreaction : (d.report r).reactionOf r = d.reactionOf r := by
    unfold Dev.reactionOf
    rw [(noted_report r d).react]
  have hround : (d.raise r).round e = (d.report r).react e r.source c obj := by
    unfold Dev.round
    simp only [hone, List.foldl_cons, List.foldl_nil, faultInsert, hcleared]
    exact reactAll_one hcls e (by rw [hreaction, hresolve]) hc
  have step : (d.raise r).settle e = ((d.report r).react e r.source c obj).settle e := by
    unfold Dev.settle
    simp only [hone, hround, hquiet, List.isEmpty_cons, List.isEmpty_nil, if_true, Bool.false_eq_true, if_false]
  rw [step, Dev.settle_quiet hquiet]

end

end Sys2Proof.Machine
end

section
/-! A VDS fault of a low side for which its output is disabled (R203, R389, R395). -/

namespace Sys2Proof.Machine

open Sys2Proof

/-- A command whose faults settle in a device known completes with what follows from it. -/
theorem completes_of_settled {s : State} {c : Instr} {body : Env → Dev → Dev} {d d' : Dev} {P : State → Prop}
    (hexec : exec c s = runAt (stampOf c) body s) (hbody : s.after (stampOf c) body = d) (hsettle : d.settle s.env = d')
    (hP : ∀ s', Follows s d' s' → P s') : Completes c s P := by
  subst hbody hsettle
  unfold Completes
  rw [hexec]
  by_cases hrests : s.rests (stampOf c)
  · obtain ⟨s', hrun, hfollows⟩ := runAt_follows hrests body
    exact ⟨s', hrun, fun _ => hP s' hfollows⟩
  · exact ⟨_, runAt_due _ body s, fun h => absurd h hrests⟩

theorem countFault_cnt (d : Dev) (src : Fin 64) : (d.countFault src.val).flt.cnt[src] = d.flt.cnt[src] + 1 := by
  unfold Dev.countFault
  rw [dif_pos src.isLt]
  exact upd_same ..

theorem bit_putB {i : Nat} (hi : i < 64) (v : W64) : bit (v ||| putB i true) i = true := by
  simp only [bit, putB, if_true, BitVec.getLsbD_or, BitVec.getLsbD_ofNat, Nat.testBit_two_pow_self, decide_eq_true hi,
    Bool.and_true, Bool.or_true]

/-- A fault at a low side's coordinate, with the reaction that disables an output, acts on its DI output (R390). -/
theorem resolve_lowSide {r : FaultReq} (k j : Fin 4) (hkey : r.key = none) (hctrl : r.ctrl = (vdsObj (.ls k j)).ctrl) :
    r.resolve 2 = (2, .output .di (4 * k.val + j.val)) := by
  have houtput : r.output = .output .di (4 * k.val + j.val) := by
    have hmgr : (3 * 8192 + k.val * 256 + j.val) / 8192 = 3 := by omega
    have hunit : (3 * 8192 + k.val * 256 + j.val) / 256 % 32 = k.val := by omega
    have hch : (3 * 8192 + k.val * 256 + j.val) % 256 = j.val := by omega
    simp only [FaultReq.output, hkey, hctrl, lowSide_ctrl, hmgr, hunit, hch, k.isLt, j.isLt, ne_eq, not_true_eq_false,
      if_true, if_false]
  simp only [FaultReq.resolve, houtput]

theorem react_output (e : Env) (src : Nat) (t : EvType) (n : Nat) (d : Dev) :
    d.react e src 2 (.output t n) = d.disableOutput e t n src := rfl

/-- DIAG raised for a low side with the reaction that disables an output: reported, and its DI output disabled (R203, R389). -/
theorem settle_lowSide {d : Dev} {r : FaultReq} (k j : Fin 4) (hraised : d.flt.raised = []) (herrs : d.memu.errs = []) (e : Env)
    (hsource : r.source = 11) (hkey : r.key = none) (hctrl : r.ctrl = (vdsObj (.ls k j)).ctrl) (hreact : r.react = some 2) :
    ∃ d', (d.raise r).settle e = d' ∧ d'.diag = { d.diag with disabled := d.diag.disabled ||| putB (4 * k.val + j.val) true } ∧
      d'.flt.cnt[(11 : Fin 64)] = d.flt.cnt[(11 : Fin 64)] + 1 ∧ d'.flt.valid = true := by
  have hnote := noted_report r d
  have herrs' : (d.report r).memu.errs = [] := by rw [hnote.memu, herrs]
  obtain ⟨hvalid, hcnt, -, -⟩ := report_flt (r := r) (d := d) (by rw [hsource]; decide)
  obtain ⟨sources, hflt⟩ := disableDi_flt e herrs' (4 * k.val + j.val) r.source
  have hresolve : r.resolve (d.reactionOf r) = (2, .output .di (4 * k.val + j.val)) := by
    rw [Dev.reactionOf, hreact]
    exact resolve_lowSide k j hkey hctrl
  have hquiet : ((d.report r).react e r.source 2 (.output .di (4 * k.val + j.val))).flt.raised = [] := by
    rw [react_output, hflt]
    exact hnote.raised.trans hraised
  refine ⟨_, (settle_reaction (by rw [hsource]; decide) e hraised hresolve (by simp) hquiet).trans (react_output ..), ?_, ?_, ?_⟩
  · rw [disableDi_diag e herrs', hnote.diag]
  · rw [hflt]
    show (d.report r).flt.cnt[(11 : Fin 64)] = _
    rw [hcnt, hsource]
    exact countFault_cnt d 11
  · rw [hflt]
    exact hvalid

/-- A VDS fault of a low side with reaction 1 is a report, raises DIAG and disables its DI output. -/
theorem completes_vds_disables {s : State} {t : Ns} {x : VdsTrip} {k j : Fin 4} (hclean : s.clean) (hsw : x.sw = .ls k j)
    (hon : bit s.dev.diag.cfg 0 = true) (habove : s.dev.vdsAbove x.nodeMv x.vbatMv x.sw = true)
    (hdue : (s.dev.at t).vdsDue (s.dev.vdsPin x.sw) x.since = true) (hreact : fld s.dev.diag.react 2 2 = 1) :
    Completes (.vdsFault t x) s fun s' =>
      s'.dev.diag = { s.dev.diag.found 1 1 (vdsObj (.ls k j)).ctrl (s.now t) with
        disabled := s.dev.diag.disabled ||| putB (4 * k.val + j.val) true } ∧
      s'.dev.flt.cnt[(11 : Fin 64)] = s.dev.flt.cnt[(11 : Fin 64)] + 1 ∧ s'.dev.flt.valid = true := by
  obtain ⟨⟨_, hsettled⟩, herrs, _⟩ := hclean
  have habove' : (s.dev.at t).vdsAbove x.nodeMv x.vbatMv x.sw = true := habove
  have hdue' : (s.dev.at t).vdsDue ((s.dev.at t).vdsPin x.sw) x.since = true := hdue
  obtain ⟨banks, loft, co, hfault, -⟩ := vdsFault_found (d := s.dev.at t) hon habove' hdue'
  rw [hsw] at hfault
  have hbody := hfault.trans (detect_disables (d := { s.dev.at t with banks := banks, loft := loft }) (vdsObj (.ls k j)) co
    (vdsClass_on (.ls k j)) hreact)
  obtain ⟨d', hsettle, hdiag, hcnt, hvalid⟩ := settle_lowSide (d := { s.dev.at t with
    banks := banks, loft := loft, diag := s.dev.diag.found 1 1 (vdsObj (.ls k j)).ctrl (s.now t) })
    (r := { source := 11, detail := 1, ctrl := (vdsObj (.ls k j)).ctrl, coord := co, react := some 2 })
    k j hsettled.1 herrs s.env rfl rfl rfl rfl
  refine completes_of_settled (c := .vdsFault t x) rfl hbody hsettle fun s' h => ?_
  rw [h.diag, h.flt]
  exact ⟨hdiag, hcnt, hvalid⟩

end Sys2Proof.Machine
end

section
/-! The off-state tests of banks and port injectors, and DIAG_DISABLED (R198 to R200, R204). -/

namespace Sys2Proof.Machine

open Sys2Proof

/-! ### Counts of failures in a row (R200; log 25 of the assumptions) -/

section
variable {n : Nat} (v : Vector Nat n) (x : Nat)

theorem setAt_same (i : Fin n) : (setAt v i x)[i] = x := by
  simp [setAt]

theorem setAt_other {i : Nat} {j : Fin n} (h : i ≠ j.val) : (setAt v i x)[j] = v[j] := by
  simp [setAt, h]

theorem count_getD (i : Fin n) : (v.toList[i.val]?).getD 0 = v[i] := by
  simp

end

/-- Fewer failures in a row than CNT are no detection yet (R200). -/
theorem failed_few {d : Dev} {count : Nat} (h : count < fld d.diag.offCfg 16 4) (c : Nat) (o : DiagObj) : d.failed count c o = d :=
  if_neg (Nat.not_le_of_lt h)

/-! ### A bank's test (R198) -/

section
variable {k : Fin 4} {d : Dev}

theorem bankTestable_iff : d.bankTestable k = true ↔
    bit d.diag.cfg 1 = true ∧ (d.bank k).enabled = true ∧ (d.bank k).owner = .none := by
  simp [Dev.bankTestable, Dev.offEn, Bank.busy, and_assoc]

/-- A test begins with step A. -/
theorem bankTest_begins (htestable : d.bankTestable k = true) (hrun : (d.bank k).testRun = false) (hat : (d.bank k).testAt ≤ d.dtime)
    (hrel : (d.bank k).everRel = false) : d.bankTest k = d.modBank k fun b =>
      { b with testRun := true, testB := none, testAt := d.dtime + d.periodNs, testFrom := d.dtime, testBad := [] } :=
  if_pos (by simp [htestable, hrun, hat, hrel])

section
variable (node : Nat) (htestable : d.bankTestable k = true) (hrun : (d.bank k).testRun = true)
include htestable hrun

theorem bankRead_over (hlong : (d.bank k).testFrom + 45000 < d.dtime) : d.bankRead k node = d.bankTestOff k := by
  simp [Dev.bankRead, htestable, hrun, hlong]

variable (hlong : d.dtime ≤ (d.bank k).testFrom + 45000)
include hlong

theorem bankRead_low (hstep : (d.bank k).testB = none) (hlow : node < 1000) : d.bankRead k node = d.stepAFailed k 4 := by
  simp [Dev.bankRead, htestable, hrun, Nat.not_lt_of_le hlong, hstep, hlow]

theorem bankRead_good (hstep : (d.bank k).testB = none) (hlow : 1000 ≤ node) (hhigh : node ≤ 4500) :
    d.bankRead k node = d.nextStepB k 0 [] := by
  simp [Dev.bankRead, htestable, hrun, Nat.not_lt_of_le hlong, hstep, Nat.not_lt_of_le hlow, Nat.not_lt_of_le hhigh]

variable {j : Nat} (hstep : (d.bank k).testB = some j)
include hstep

theorem bankRead_early (hbias : d.dtime < (d.bank k).biasAt + 10000) : d.bankRead k node = d := by
  simp [Dev.bankRead, htestable, hrun, Nat.not_lt_of_le hlong, hstep, hbias]

theorem bankRead_side (hbias : (d.bank k).biasAt + 10000 ≤ d.dtime) : d.bankRead k node =
    d.nextStepB k (j + 1) (if 1000 ≤ node then (d.bank k).testBad ++ [j] else (d.bank k).testBad) := by
  simp [Dev.bankRead, htestable, hrun, Nat.not_lt_of_le hlong, hstep, Nat.not_lt_of_le hbias]

end

/-- A low node in step A counts on; every other count of the bank starts again. -/
theorem stepAFailed_few (hfew : d.diag.scgOff[k] + 1 < fld d.diag.offCfg 16 4) : ∃ olOff, d.stepAFailed k 4 =
    (d.bankTestOff k).modDiag fun g =>
      { g with olOff := olOff, scgOff := setAt g.scgOff k (d.diag.scgOff[k] + 1), scbOff := setAt g.scbOff k 0 } := by
  unfold Dev.stepAFailed
  extract_lets clear n
  have hn : n = d.diag.scgOff[k] + 1 := congrArg (· + 1) (count_getD ..)
  rw [hn]
  exact ⟨clear, failed_few (by exact hfew) ..⟩

/-- Step B begins with low side 0 where LS_EN has it. -/
theorem nextStepB_first (bad : List Nat) (h : bit (d.bank k).cfg 1 = true) : d.nextStepB k 0 bad = d.modBank k fun b =>
    { b with testB := some 0, biasAt := d.dtime, testBad := bad } := by
  have hfind : (d.bank k).tested.find? (fun i => decide (0 ≤ i)) = some 0 := by
    simp [Bank.tested, List.range_eq_range', List.range', h]
  simp only [Dev.nextStepB, hfind]

/-- No low side follows the last one. -/
theorem nextStepB_last (bad : List Nat) : d.nextStepB k 4 bad = d.stepBDone k bad := by
  have hfind : (d.bank k).tested.find? (fun i => decide (4 ≤ i)) = none := by
    refine List.find?_eq_none.mpr fun i hi => ?_
    have hlt : i < 4 := List.mem_range.mp (List.mem_of_mem_filter hi)
    simpa using hlt
  simp only [Dev.nextStepB, hfind]

/-! ### The verdict of step B -/

/-- The verdict on one low side of a completed step B. -/
def Dev.sideDone (k : Fin 4) (bad : List Nat) (d : Dev) (j : Nat) : Dev :=
  let i := 4 * k.val + j
  if bad.contains j then
    let n := (d.diag.olOff.toList[i]?).getD 0 + 1
    (d.modDiag fun g => { g with olOff := setAt g.olOff i n }).failed n 2 (.di (Fin.ofNat 16 i))
  else d.modDiag fun g => { g with olOff := setAt g.olOff i 0 }

theorem stepBDone_eq (bad : List Nat) : d.stepBDone k bad = (d.bank k).tested.foldl (Dev.sideDone k bad)
    ((d.bankTestOff k).modDiag fun g => { g with scgOff := setAt g.scgOff k 0, scbOff := setAt g.scbOff k 0 }) := by
  unfold Dev.stepBDone
  extract_lets d'
  have hbank : d'.bank k = { d.bank k with testRun := false, testB := none } := Dev.bank_modBank d
  rw [hbank]
  rfl

variable {bad : List Nat}

/-- The low sides before the last one start again where they passed, and the last one's count waits for its own verdict. -/
theorem foldl_sideDone {i : Fin 16} (l : List Nat) (h : ∀ j ∈ l, j ∉ bad ∧ 4 * k.val + j ≠ i.val) : ∃ olOff,
    l.foldl (Dev.sideDone k bad) d = d.modDiag (fun g => { g with olOff := olOff }) ∧ olOff[i] = d.diag.olOff[i] := by
  induction l generalizing d with
  | nil => exact ⟨_, rfl, rfl⟩
  | cons j l ih =>
    obtain ⟨⟨hpass, hother⟩, hrest⟩ := List.forall_mem_cons.mp h
    have hside : Dev.sideDone k bad d j = d.modDiag fun g => { g with olOff := setAt g.olOff (4 * k.val + j) 0 } :=
      if_neg (by simpa using hpass)
    obtain ⟨olOff, hfold, hcount⟩ := ih (d := d.sideDone k bad j) hrest
    refine ⟨olOff, ?_, ?_⟩
    · rw [List.foldl_cons, hfold, hside]
      rfl
    · rw [hcount, hside]
      exact setAt_other _ _ hother

/-- The verdict on the last low side, with fewer failures in a row than CNT. -/
theorem sideDone_last {j : Nat} {i : Fin 16} (hi : i.val = 4 * k.val + j) (hfew : d.diag.olOff[i] + 1 < fld d.diag.offCfg 16 4) :
    d.sideDone k bad j = d.modDiag fun g => { g with olOff := setAt g.olOff i (if j ∈ bad then d.diag.olOff[i] + 1 else 0) } := by
  unfold Dev.sideDone
  rw [← hi]
  by_cases hbad : j ∈ bad
  · have hcount := count_getD d.diag.olOff i
    simp only [List.contains_iff_mem, hbad, if_true, hcount]
    exact failed_few (by exact hfew) ..
  · simp only [List.contains_iff_mem, hbad, if_false]

/-- The last low side's reading ends the test, with its count; where no other low side has failed, no class is detected. -/
theorem stepBDone_last {i : Fin 16} (hi : i.val = 4 * k.val + 3) (h : bit (d.bank k).cfg 4 = true) (hpass : ∀ j ∈ bad, j = 3)
    (hfew : d.diag.olOff[i] + 1 < fld d.diag.offCfg 16 4) : ∃ olOff, d.stepBDone k bad = (d.bankTestOff k).modDiag (fun g =>
      { g with olOff := olOff, scgOff := setAt g.scgOff k 0, scbOff := setAt g.scbOff k 0 }) ∧
      olOff[i] = if 3 ∈ bad then d.diag.olOff[i] + 1 else 0 := by
  let d' := (d.bankTestOff k).modDiag fun g => { g with scgOff := setAt g.scgOff k 0, scbOff := setAt g.scbOff k 0 }
  let firsts := (List.range 3).filter fun i => bit (d.bank k).cfg (1 + i)
  have htested : (d.bank k).tested = firsts ++ [3] := by
    simp [Bank.tested, firsts, List.range_succ (n := 3), List.filter_append, h]
  have hfirsts : ∀ j ∈ firsts, j ∉ bad ∧ 4 * k.val + j ≠ i.val := fun j hj => by
    have hlt : j < 3 := List.mem_range.mp (List.mem_of_mem_filter hj)
    exact ⟨fun hbad => absurd (hpass j hbad) (by omega), by omega⟩
  obtain ⟨olOff, hfold, hcount⟩ := foldl_sideDone (d := d') firsts hfirsts
  have hcount' : olOff[i] = d.diag.olOff[i] := hcount
  have hlast := sideDone_last (d := d'.modDiag fun g => { g with olOff := olOff }) (bad := bad) hi
    (show olOff[i] + 1 < fld d.diag.offCfg 16 4 by rwa [hcount'])
  refine ⟨setAt olOff i (if 3 ∈ bad then olOff[i] + 1 else 0), ?_, (setAt_same ..).trans (by rw [hcount'])⟩
  calc d.stepBDone k bad
    _ = [3].foldl (Dev.sideDone k bad) (firsts.foldl (Dev.sideDone k bad) d') := by rw [stepBDone_eq, htested, List.foldl_append]
    _ = Dev.sideDone k bad (d'.modDiag fun g => { g with olOff := olOff }) 3 := congrArg (Dev.sideDone k bad · 3) hfold
    _ = _ := hlast

end

/-! ### The test of a port injector's output (R199) -/

/-- An output's test ends, with or without a verdict. -/
def Pfi.testOff (p : Pfi) : Pfi := { p with testRun := false, testPhase2 := false }

section
variable {n : Fin 16} {d : Dev}

theorem pfiTestable_of (hoff : bit d.diag.cfg 1 = true) (henabled : bit d.pfi[n].cfg 0 = true) (howner : d.pfi[n].owner = .none)
    (hpin : d.pfi[n].pin.on = false) (hsince : d.pfi[n].pin.since ≤ d.dtime) : d.pfiTestable n = true := by
  simp [-Fin.getElem_fin, Dev.pfiTestable, Dev.offEn, hoff, henabled, howner, hpin, hsince]

/-- A test begins with phase 1. -/
theorem pfiTest_begins (htestable : d.pfiTestable n = true) (hrun : d.pfi[n].testRun = false) (hat : d.pfi[n].testAt ≤ d.dtime)
    (hlast : d.pfi[n].lastOff = none) : d.pfiTest n = d.modPfi n fun p =>
      { p with testRun := true, testPhase2 := false, testAt := d.dtime + d.periodNs, testFrom := d.dtime, biasAt := d.dtime } :=
  if_pos (by simp [-Fin.getElem_fin, htestable, hrun, hat, hlast])

variable (node vbat : Nat) (htestable : d.pfiTestable n = true) (hrun : d.pfi[n].testRun = true)
include htestable hrun

theorem pfiRead_over (hlong : d.pfi[n].testFrom + 21000 < d.dtime) : d.pfiRead n node vbat = d.modPfi n Pfi.testOff := by
  simp only [Dev.pfiRead, htestable, hrun, hlong, Bool.not_true, Bool.false_or, decide_true, Bool.false_eq_true, if_true, if_false]
  rfl

variable (hlong : d.dtime ≤ d.pfi[n].testFrom + 21000)
include hlong

theorem pfiRead_early (hbias : d.dtime < d.pfi[n].biasAt + 10000) : d.pfiRead n node vbat = d := by
  simp [-Fin.getElem_fin, Dev.pfiRead, htestable, hrun, Nat.not_lt_of_le hlong, hbias]

variable (hbias : d.pfi[n].biasAt + 10000 ≤ d.dtime)
include hbias

theorem pfiRead_passes (hphase : d.pfi[n].testPhase2 = false) (hhigh : vbat ≤ 2 * node) : d.pfiRead n node vbat =
    (d.modPfi n Pfi.testOff).modDiag fun g => { g with pfiOl := setAt g.pfiOl n 0, pfiScg := setAt g.pfiScg n 0 } := by
  simp only [Dev.pfiRead, htestable, hrun, Nat.not_lt_of_le hlong, Nat.not_lt_of_le hbias, hphase, hhigh, Bool.not_true,
    Bool.not_false, Bool.false_or, decide_false, Bool.false_eq_true, if_true, if_false]
  rfl

theorem pfiRead_second (hphase : d.pfi[n].testPhase2 = false) (hlow : 2 * node < vbat) : d.pfiRead n node vbat =
    d.modPfi n fun p => { p with testPhase2 := true, biasAt := d.dtime } := by
  simp [-Fin.getElem_fin, Dev.pfiRead, htestable, hrun, Nat.not_lt_of_le hlong, Nat.not_lt_of_le hbias, hphase,
    Nat.not_le_of_lt hlow]

/-- Phase 2 counts an open load or a short, and the other count starts again. -/
theorem pfiRead_verdict (hphase : d.pfi[n].testPhase2 = true) (hopen : d.diag.pfiOl[n] + 1 < fld d.diag.offCfg 16 4)
    (hshort : d.diag.pfiScg[n] + 1 < fld d.diag.offCfg 16 4) : d.pfiRead n node vbat =
    (d.modPfi n Pfi.testOff).modDiag fun g =>
      { g with
        pfiOl := setAt g.pfiOl n (if 2000 ≤ node then d.diag.pfiOl[n] + 1 else 0)
        pfiScg := setAt g.pfiScg n (if 2000 ≤ node then 0 else d.diag.pfiScg[n] + 1) } := by
  simp only [Dev.pfiRead, htestable, hrun, Nat.not_lt_of_le hlong, Nat.not_lt_of_le hbias, hphase, Bool.not_true, Bool.false_or,
    decide_false, Bool.false_eq_true, if_false, count_getD]
  split
  · exact failed_few (by exact hopen) ..
  · exact failed_few (by exact hshort) ..

end

end Sys2Proof.Machine
end

section
/-! VDS faults, off-state tests and DIAG_DISABLED as commands (R197 to R200, R203, R204). -/

namespace Sys2Proof.Machine

open Sys2Proof

section
variable {s : State} {c : Instr} {body : Env → Dev → Dev} (hsettled : s.dev.settled)
  (hexec : exec c s = runAt (stampOf c) body s)
include hsettled hexec

/-- A command that changes one bank and the diagnostics. -/
theorem completes_bank_diag {k : Fin 4} {f : Bank → Bank} {g : Diag → Diag}
    (hbody : s.after (stampOf c) body = ((s.dev.at (stampOf c)).modBank k f).modDiag g) : Completes c s fun s' =>
    s'.dev.banks[k] = f s.dev.banks[k] ∧ s'.dev.diag = g s.dev.diag ∧ s.touches [.banks, .diag] s' := by
  refine completes_of_after hexec hbody hsettled.1 fun s' h => ⟨?_, h.diag, ?_⟩
  · rw [h.banks]
    exact upd_same ..
  · exact h.touches hsettled.1 hsettled.2 (Group.same_drive s (hbanks := .inl (by simp)) (hdiag := .inl (by simp)))

/-- A command that changes one port injector's output, and may change the diagnostics. -/
theorem completes_output {n : Fin 16} {f : Pfi → Pfi} {diag : Diag} {l : List Group}
    (hbody : s.after (stampOf c) body = { (s.dev.at (stampOf c)).modPfi n f with diag := diag }) (hl : .pfi ∈ l)
    (hdiag : .diag ∈ l ∨ diag = s.dev.diag) :
    Completes c s fun s' => s'.dev.pfi[n] = f s.dev.pfi[n] ∧ s'.dev.diag = diag ∧ s.touches l s' := by
  refine completes_of_after hexec hbody hsettled.1 fun s' h => ⟨?_, h.diag, ?_⟩
  · rw [h.pfi]
    exact upd_same ..
  · exact h.touches hsettled.1 hsettled.2 (Group.same_drive s (hpfi := .inl hl) (hdiag := hdiag))

/-- A command that changes one port injector's output alone. -/
theorem completes_output_alone {n : Fin 16} {f : Pfi → Pfi} (hbody : s.after (stampOf c) body = (s.dev.at (stampOf c)).modPfi n f) :
    Completes c s fun s' => s'.dev.pfi[n] = f s.dev.pfi[n] ∧ s.touches [.pfi] s' :=
  (completes_output (diag := s.dev.diag) hsettled hexec hbody (by simp) (.inr rfl)).imp
    fun _ ⟨hpfi, _, htouches⟩ => ⟨hpfi, htouches⟩

end

/-- Bits of DIAG_DISABLED written 1 re-enable; the path that writes has its turn at the port (R21, R204). -/
theorem completes_clearDisabled {s : State} (hsettled : s.dev.settled) (t : Ns) (p : Path) (v : W64) :
    Completes (.diagDisabledClear t p v) s fun s' =>
      s'.dev.diag = { s.dev.diag with disabled := s.dev.diag.disabled &&& ~~~v } ∧ s'.dev.flt.dis = s.dev.flt.dis ∧
      s.touches [.diag, .flt, .paths] s' := by
  refine completes_of_after (c := .diagDisabledClear t p v) (d := ((s.dev.at t).disarm p).clearDisabled v) rfl rfl hsettled.1
    fun s' h => ⟨h.diag, by rw [h.flt]; rfl, ?_⟩
  refine h.touches hsettled.1 hsettled.2 fun g hg => ?_
  obtain ⟨hdiag, hflt, hpaths⟩ : g ≠ .diag ∧ g ≠ .flt ∧ g ≠ .paths := by simpa using hg
  have hdisarm : g.same { s with dev := s.dev.at t } { s with dev := (s.dev.at t).disarm p } := Group.same_modCtx s _ hpaths p _
  refine Group.same_trans (Group.same_at s t) (Group.same_trans hdisarm ?_)
  have hrefl := g.same_refl { s with dev := (s.dev.at t).disarm p }
  cases g with
  | diag => exact absurd rfl hdiag
  | flt => exact absurd rfl hflt
  | _ => exact hrefl

/-- Settles O30: a VDS fault below its threshold or too short is nothing (`vdsFault_none`), one that counts is a report
(`completes_vds_reported`) or disables its output besides (`completes_vds_disables`); each reading of an off-state test is one
equation of the bank (`bankRead_low`, `bankRead_good`, `bankRead_side` with `stepBDone_last`) or of the output
(`pfiRead_passes`, `pfiRead_second`, `pfiRead_verdict`). The counts that another failure resets, and the end of a test that
lasts too long without a verdict, are log 25 of the assumptions. -/
theorem driveDiagnostics : Obligations.DriveDiagnostics := by
  unfold Obligations.DriveDiagnostics
  refine ⟨?vds, ?tests⟩
  case vds =>
    intro s t k j hclean hon since node vbat p vds due high noted seen
    have hsettled : s.dev.settled := hclean.1.2
    have hdueOf (p : Pin) (h : due p) : (s.dev.at t).vdsDue p since = true := vdsDue_iff.mpr h
    refine ⟨?none, ?reported, ?hsb, ?hsv, ?pfi, ?disables⟩
    case none =>
      intro h
      refine completes_untouched (c := .vdsFault t ⟨.ls k j, since, node, vbat⟩) hsettled rfl (vdsFault_none (d := s.dev.at t) ?_)
      exact h.imp (mt of_decide_eq_true) (mt vdsDue_iff.mp)
    case reported =>
      intro hhigh hdue hreact
      refine (completes_vds_reported (x := ⟨.ls k j, since, node, vbat⟩) hsettled hon (decide_eq_true hhigh) (hdueOf _ hdue) hreact).imp
        fun s' ⟨⟨hcnt, hseen, hclass, hdisabled, htouches⟩, hunit, hattach⟩ => ?_
      exact ⟨⟨hcnt, hseen, hclass, hunit.trans (lowSide_ctrl k j)⟩, hdisabled, htouches, fun b => hattach k j b rfl⟩
    case hsb =>
      exact fun hlow hdue hreact => (completes_vds_reported (x := ⟨.hsb k, since, node, vbat⟩) hsettled hon (decide_eq_true hlow)
        (hdueOf _ hdue) hreact).imp fun s' ⟨hnoted, _⟩ => hnoted
    case hsv =>
      exact fun hlow hdue hreact => (completes_vds_reported (x := ⟨.hsv k, since, node, vbat⟩) hsettled hon (decide_eq_true hlow)
        (hdueOf _ hdue) hreact).imp fun s' ⟨hnoted, _⟩ => hnoted
    case pfi =>
      exact fun n hhigh hdue hreact => (completes_vds_reported (x := ⟨.pfi n, since, node, vbat⟩) hsettled hon
        (decide_eq_true hhigh) (hdueOf _ hdue) hreact).imp fun s' ⟨hnoted, _⟩ => hnoted
    case disables =>
      intro hhigh hdue hreact
      refine (completes_vds_disables (x := ⟨.ls k j, since, node, vbat⟩) hclean rfl hon (decide_eq_true hhigh) (hdueOf _ hdue)
        hreact).imp fun s' ⟨hdiag, hcnt, hvalid⟩ => ?_
      simp only [seen, hdiag]
      refine ⟨⟨found_cnt 1 _ _ _, found_seen 1 _ _ _ (by decide), found_class 1 _ _ s.dev.diag (by decide), ?_⟩,
        bit_putB (by omega) _, hcnt, hvalid⟩
      exact (found_unit 1 _ _ s.dev.diag).trans (lowSide_ctrl k j)
  case tests =>
    intro s t ⟨_, hsettled⟩ hoff
    refine ⟨?bank, ?pfi, completes_clearDisabled hsettled t⟩
    case bank =>
      intro k b henabled howner
      have htestable : (s.dev.at t).bankTestable k = true := bankTestable_iff.mpr ⟨hoff, henabled, howner⟩
      refine ⟨?begins, ?late, fun hlong => ⟨?low, ?good, ?early, ?last⟩⟩
      case begins =>
        intro hrun hat hrel
        exact (completes_bank (c := .diOffStateTest t k) hsettled rfl (bankTest_begins htestable hrun hat hrel)).imp
          fun s' ⟨hbank, htouches, _⟩ => ⟨hbank, htouches⟩
      case late =>
        intro node vbat hrun hlong
        exact (completes_bank (c := .offTestRead t (.bank k) node vbat) hsettled rfl (bankRead_over node htestable hrun hlong)).imp
          fun s' ⟨hbank, htouches, _⟩ => ⟨hbank, htouches⟩
      case low =>
        intro node vbat hrun hstep hlow hfew
        obtain ⟨olOff, hfailed⟩ := stepAFailed_few (d := s.dev.at t) hfew
        refine (completes_bank_diag (c := .offTestRead t (.bank k) node vbat) hsettled rfl
          ((bankRead_low node htestable hrun hlong hstep hlow).trans hfailed)).imp fun s' ⟨hbank, hdiag, htouches⟩ => ?_
        rw [hbank, hdiag]
        exact ⟨rfl, setAt_same .., setAt_same .., rfl, htouches⟩
      case good =>
        intro node vbat hrun hstep hlow hhigh hside
        exact (completes_bank (c := .offTestRead t (.bank k) node vbat) hsettled rfl
          ((bankRead_good node htestable hrun hlong hstep hlow hhigh).trans (nextStepB_first [] hside))).imp
          fun s' ⟨hbank, htouches, _⟩ => ⟨hbank, htouches⟩
      case early =>
        intro j node vbat hrun hstep hbias
        exact completes_untouched (c := .offTestRead t (.bank k) node vbat) hsettled rfl
          (bankRead_early node htestable hrun hlong hstep hbias)
      case last =>
        intro node vbat hrun hstep hbias hside hbad hfew
        have hi : (Fin.ofNat 16 (4 * k.val + 3)).val = 4 * k.val + 3 := Nat.mod_eq_of_lt (by omega)
        obtain ⟨olOff, hdone, hcount⟩ := stepBDone_last (d := s.dev.at t) (bad := if 1000 ≤ node then [3] else []) hi hside
          (by split <;> simp) hfew
        refine (completes_bank_diag (c := .offTestRead t (.bank k) node vbat) hsettled rfl
          (((bankRead_side node htestable hrun hlong hstep hbias).trans ?_).trans hdone)).imp
          fun s' ⟨hbank, hdiag, htouches⟩ => ?_
        · rw [show ((s.dev.at t).bank k).testBad = [] from hbad]
          exact nextStepB_last ..
        · rw [hbank, hdiag]
          refine ⟨rfl, setAt_same .., setAt_same .., hcount.trans ?_, htouches⟩
          split <;> simp
    case pfi =>
      intro n p henabled howner hpin hsince
      have htestable := pfiTestable_of (d := s.dev.at t) hoff henabled howner hpin hsince
      refine ⟨?begins, ?late, fun hlong => ⟨?early, fun hbias => ⟨?passes, ?second, ?verdict⟩⟩⟩
      case begins =>
        intro hrun hat hlast
        exact completes_output_alone (c := .pfiOffStateTest t n) hsettled rfl (pfiTest_begins htestable hrun hat hlast)
      case late =>
        intro node vbat hrun hlong
        exact completes_output_alone (c := .offTestRead t (.pfi n) node vbat) hsettled rfl (pfiRead_over node vbat htestable hrun hlong)
      case early =>
        intro node vbat hrun hbias
        exact completes_untouched (c := .offTestRead t (.pfi n) node vbat) hsettled rfl
          (pfiRead_early node vbat htestable hrun hlong hbias)
      case passes =>
        intro node vbat hrun hphase hhigh
        refine (completes_output (c := .offTestRead t (.pfi n) node vbat) (l := [.pfi, .diag]) hsettled rfl
          (pfiRead_passes node vbat htestable hrun hlong hbias hphase hhigh) (by simp) (.inl (by simp))).imp
          fun s' ⟨hpfi, hdiag, htouches⟩ => ?_
        rw [hpfi, hdiag]
        exact ⟨rfl, setAt_same .., setAt_same .., htouches⟩
      case second =>
        intro node vbat hrun hphase hlow
        exact completes_output_alone (c := .offTestRead t (.pfi n) node vbat) hsettled rfl
          (pfiRead_second node vbat htestable hrun hlong hbias hphase hlow)
      case verdict =>
        intro node vbat hrun hphase hopen hshort
        refine (completes_output (c := .offTestRead t (.pfi n) node vbat) (l := [.pfi, .diag]) hsettled rfl
          (pfiRead_verdict node vbat htestable hrun hlong hbias hphase hopen hshort) (by simp) (.inl (by simp))).imp
          fun s' ⟨hpfi, hdiag, htouches⟩ => ?_
        rw [hpfi, hdiag]
        exact ⟨rfl, rfl, htouches, setAt_same .., setAt_same ..⟩

end Sys2Proof.Machine
end

section
/-! An operation of an engine on undamaged memory: what it stages and stores, where it goes on, and its frame (R225 to R229,
R231, R247). -/

namespace Sys2Proof.Machine

open Sys2Proof

/-! ### Completion -/

/-- A command answers one state, so that two facts of it hold together. -/
theorem Completes.and {c : Instr} {s : State} {P Q : State → Prop} (hP : Completes c s P) (hQ : Completes c s Q) :
    Completes c s fun s' => P s' ∧ Q s' := by
  obtain ⟨s₁, hexec, hP⟩ := hP
  obtain ⟨s₂, hexec', hQ⟩ := hQ
  obtain rfl : s₁ = s₂ := Host.Outcome.next.inj (hexec.symm.trans hexec')
  exact ⟨s₁, hexec, fun hrests => ⟨hP hrests, hQ hrests⟩⟩

/-- A fact of a body's run where no work is due is a completion. -/
theorem completes_of_run {c : Instr} {s : State} {body : Env → Dev → Dev} {P : State → Prop}
    (hexec : exec c s = runAt (stampOf c) body s)
    (hrun : s.rests (stampOf c) → ∃ s', runAt (stampOf c) body s = .next s' ∧ P s') : Completes c s P := by
  unfold Completes
  rw [hexec]
  by_cases hrests : s.rests (stampOf c)
  · obtain ⟨s', hnext, hP⟩ := hrun hrests
    exact ⟨s', hnext, fun _ => hP⟩
  · exact ⟨_, runAt_due _ body s, fun h => absurd h hrests⟩

/-! ### A command that changes one engine and writes to the memories -/

/-- Engine `k` changed by `g`, and writes `ws` added to those of the command. -/
def Dev.stepped (k : Fin 8) (g : Ce → Ce) (ws : List MemOp) (d : Dev) : Dev := { d.modCe k g with writes := d.writes ++ ws }

theorem Dev.modCe_stepped (k : Fin 8) (f g : Ce → Ce) (ws : List MemOp) (d : Dev) :
    (d.modCe k f).stepped k g ws = d.stepped k (fun c => g (f c)) ws := by
  simp only [Dev.stepped, Dev.modCe, upd_upd]

theorem Dev.stepped_stepped (k : Fin 8) (f g : Ce → Ce) (ws ws' : List MemOp) (d : Dev) :
    (d.stepped k f ws).stepped k g ws' = d.stepped k (fun c => g (f c)) (ws ++ ws') := by
  simp only [Dev.stepped, Dev.modCe, upd_upd, List.append_assoc]

theorem Dev.modCe_id (k : Fin 8) (d : Dev) : d.modCe k (fun c => c) = d := by
  simp [Dev.modCe, upd]

theorem Dev.stepped_nil (k : Fin 8) (g : Ce → Ce) (d : Dev) : d.stepped k g [] = d.modCe k g := by
  simp only [Dev.stepped, List.append_nil]
  rfl

/-- A command's writes leave its frame outside the memories as it is. -/
theorem Follows.withoutWrites {s s' : State} {d : Dev} (h : Follows s d s') :
    Follows s { d with writes := [] } { s' with mems := s.mems } := by
  obtain ⟨hpending, hfuses, -, d', hnear, hdev⟩ := h
  exact ⟨hpending, hfuses, rfl, { d' with writes := [] }, { hnear with writes := rfl }, hdev⟩

theorem Follows.touches_mems {s s' : State} {d : Dev} {l : List Group} (h : Follows s d s') (hraised : d.flt.raised = [])
    (hsame : ∀ g, g ∉ l → g.same s { s with dev := { d with writes := [] } }) : s.touches (l ++ [.mems]) s' := by
  obtain ⟨hpending, hfuses, hrest⟩ := h.withoutWrites.touches hraised rfl hsame
  refine ⟨hpending, hfuses, fun g hg => ?_⟩
  obtain ⟨hl, hmems⟩ : g ∉ l ∧ g ≠ .mems := by simpa using hg
  have hkept := hrest g hl
  cases g with
  | mems => exact absurd rfl hmems
  | _ => exact hkept

theorem Group.same_modCe {g : Group} (hg : g ≠ .calc) (s : State) (d : Dev) (k : Fin 8) (f : Ce → Ce) :
    g.same { s with dev := d } { s with dev := d.modCe k f } := by
  have hrefl (g : Group) := g.same_refl { s with dev := d }
  match g, hg with
  | .calc, hg => exact absurd rfl hg
  | .pos, _ | .adm, _ | .loft, _ | .banks, _ | .bst, _ | .pfi, _ | .ign, _ | .gate, _ | .diag, _ | .recs, _ | .snap, _
  | .tmu, _ | .can, _ | .rope, _ | .sup, _ | .flt, _ | .paths, _ | .mems, _ => rfl
  | .conv, _ => exact hrefl .conv
  | .pio, _ => exact hrefl .pio
  | .twp, _ => exact hrefl .twp
  | .nvi, _ => exact hrefl .nvi
  | .memu, _ => exact hrefl .memu

/-- A command that changes one engine and writes to the memories. -/
theorem completes_stepped {c : Instr} {s : State} {body : Env → Dev → Dev} {k : Fin 8} {g : Ce → Ce} {ws : List MemOp}
    (hsettled : s.dev.settled) (hexec : exec c s = runAt (stampOf c) body s)
    (hbody : s.after (stampOf c) body = (s.dev.at (stampOf c)).stepped k g ws) :
    Completes c s fun s' => s'.dev.ce[k] = g s.dev.ce[k] ∧ s'.mems = ws.foldl (fun m w => w.apply m) s.mems ∧
      s.touches [.calc, .mems] s' ∧ s'.dev.ces = s.dev.ces ∧ ∀ j, j ≠ k → s'.dev.ce[j] = s.dev.ce[j] := by
  refine completes_of_after hexec hbody hsettled.1 fun s' h => ⟨?engine, ?mems, ?frame, h.ces, fun j hj => ?other⟩
  case engine =>
    rw [h.ce]
    exact upd_same ..
  case mems =>
    rw [h.mems]
    show List.foldl _ _ (s.dev.writes ++ ws) = _
    rw [hsettled.2, List.nil_append]
  case frame =>
    refine h.touches_mems (l := [.calc]) hsettled.1 fun x hx => ?_
    have hwrites : { (s.dev.at (stampOf c)).stepped k g ws with writes := [] } = (s.dev.at (stampOf c)).modCe k g := by
      rw [← hsettled.2]
      rfl
    rw [hwrites]
    exact Group.same_trans (Group.same_at s _) (Group.same_modCe (by simpa using hx) s _ k g)
  case other =>
    rw [h.ce]
    exact upd_other _ _ _ _ hj

/-! ### The slots that an operation writes -/

/-- Slot writes of an engine as they stand in its publish buffer (R227). -/
def State.staged (s : State) (l p : List (Nat × W64 × Byte)) : List (Nat × W64 × Byte) :=
  l.foldl (fun p x => if (s.attr x.1).cls = 2 then stagePub x.1 x.2.1 x.2.2 p else p) p

/-- The engine's share of slot writes. -/
def Ce.staged (s : State) (l : List (Nat × W64 × Byte)) (c : Ce) : Ce := { c with pub := s.staged l c.pub }

/-- Slot writes of an engine that take effect at once (R227). -/
def State.stores (s : State) (l : List (Nat × W64 × Byte)) : List MemOp :=
  l.flatMap fun x => if (s.attr x.1).cls = 2 then [] else [.slot x.1 x.2.1 (x.2.2 ||| ((s.attr x.1).tag &&& 0x10))]

/-- The engine once it has written slots and gone on. -/
def Ce.wroteOn (s : State) (now : Ns) (l : List (Nat × W64 × Byte)) (c : Ce) : Ce :=
  (c.staged s l).boundary now (c.pc + 1)

/-- A boundary may halt the engine or go on (R247); the run's trigger and the queue stay. -/
theorem Ce.boundary_cases (now : Ns) (pc : Nat) (c : Ce) : ∃ st stepReq haltReq to_ at_,
    c.boundary now pc = { c with pc := pc, state := st, stepReq := stepReq, haltReq := haltReq, resumeTo := to_, haltedAt := at_ } := by
  unfold Ce.boundary Ce.haltAt
  simp only
  split
  · exact ⟨_, _, _, _, _, rfl⟩
  · split <;> exact ⟨_, _, _, _, _, rfl⟩

@[simp] theorem Ce.boundary_queue (now : Ns) (pc : Nat) (c : Ce) : (c.boundary now pc).queue = c.queue := by
  obtain ⟨_, _, _, _, _, h⟩ := c.boundary_cases now pc
  rw [h]

@[simp] theorem Ce.boundary_cur (now : Ns) (pc : Nat) (c : Ce) : (c.boundary now pc).cur = c.cur := by
  obtain ⟨_, _, _, _, _, h⟩ := c.boundary_cases now pc
  rw [h]

@[simp] theorem Ce.boundary_reqEntry (now : Ns) (pc : Nat) (c : Ce) : (c.boundary now pc).reqEntry = c.reqEntry := by
  obtain ⟨_, _, _, _, _, h⟩ := c.boundary_cases now pc
  rw [h]

theorem Ce.wroteOn_pub (s : State) (now : Ns) (l : List (Nat × W64 × Byte)) (c : Ce) :
    (c.wroteOn s now l).pub = s.staged l c.pub := Ce.boundary_pub ..

theorem Ce.wroteOn_pc (s : State) (now : Ns) (l : List (Nat × W64 × Byte)) (c : Ce) : (c.wroteOn s now l).pc = c.pc + 1 :=
  Ce.boundary_pc ..

/-- An allowed write of an undamaged slot is staged or stored. -/
theorem slotWrite_clean {s : State} {d : Dev} {k : Fin 8} {i : Nat} (hdead : d.memu.deadTags = []) (hmay : s.mayWrite k i) (v : W64)
    (g : Byte) : d.slotWrite s.env k i v g =
      (true, d.stepped k (Ce.staged s [(i, v, g)]) (s.stores [(i, v, g)])) := by
  obtain ⟨hi, hwriter, hcls⟩ := hmay
  have hallowed : ¬(16384 ≤ i ∨ (s.attr i).writer.toNat ≠ k.val ∨ (s.attr i).cls = 1) := by
    simp only [not_or, not_not]
    exact ⟨by omega, hwriter, hcls⟩
  have hattr : s.env.attr i = s.attr i := rfl
  simp only [Dev.slotWrite, Dev.tagDead_clean hdead, Bool.false_and, Bool.false_eq_true, if_false, hattr, if_neg hallowed]
  by_cases hout : (s.attr i).cls = 2
  · have hstores : s.stores [(i, v, g)] = [] := by
      simp only [State.stores, List.flatMap_cons, List.flatMap_nil, if_pos hout, List.append_nil]
    have hstaged (c : Ce) : c.staged s [(i, v, g)] = { c with pub := stagePub i v g c.pub } := by
      simp only [Ce.staged, State.staged, List.foldl_cons, List.foldl_nil, if_pos hout]
    rw [if_pos hout, hstores, Dev.stepped_nil, funext hstaged]
  · have hstores : s.stores [(i, v, g)] = [.slot i v (g ||| ((s.attr i).tag &&& 0x10))] := by
      simp only [State.stores, List.flatMap_cons, List.flatMap_nil, if_neg hout, List.append_nil]
    have hstaged (c : Ce) : c.staged s [(i, v, g)] = c := by
      simp only [Ce.staged, State.staged, List.foldl_cons, List.foldl_nil, if_neg hout]
    rw [if_neg hout, hstores, funext hstaged, Dev.stepped, Dev.modCe_id]
    rfl

/-- Allowed writes of undamaged slots all take place, and the run goes on at the next operation. -/
theorem ceWrites_clean {s : State} {k : Fin 8} (l : List (Nat × W64 × Byte)) {d : Dev} (hdead : d.memu.deadTags = [])
    (hmay : ∀ x ∈ l, s.mayWrite k x.1) :
    d.ceWrites s.env k l = d.stepped k (Ce.wroteOn s d.dtime l) (s.stores l) := by
  induction l generalizing d with
  | nil => exact (Dev.stepped_nil k _ d).symm
  | cons x l ih =>
    obtain ⟨i, v, g⟩ := x
    obtain ⟨hx, hl⟩ := List.forall_mem_cons.mp hmay
    have hstores : s.stores [(i, v, g)] ++ s.stores l = s.stores ((i, v, g) :: l) := by
      simp only [State.stores, List.flatMap_cons, List.flatMap_nil, List.append_nil]
    simp only [Dev.ceWrites, slotWrite_clean hdead hx]
    rw [ih (d := d.stepped k _ _) hdead hl, Dev.stepped_stepped, hstores]
    rfl

/-! ### What stored slots leave -/

section
variable {s : State} {l : List (Nat × W64 × Byte)} {m : Mems}

/-- A property that every slot write of a list keeps is kept by the writes that take effect at once. -/
theorem stores_keep {p : Mems → Prop} (hkeep : ∀ x ∈ l, ∀ m g, p m → p ((MemOp.slot x.1 x.2.1 g).apply m)) (hm : p m) :
    p ((s.stores l).foldl (fun m w => w.apply m) m) := by
  induction l generalizing m with
  | nil => exact hm
  | cons x l ih =>
    obtain ⟨hx, hl⟩ := List.forall_mem_cons.mp hkeep
    simp only [State.stores, List.flatMap_cons, List.foldl_append]
    refine ih hl ?_
    split
    · exact hm
    · exact hx m _ hm

theorem stores_byte (hwf : m.wf = true) (hslots : ∀ x ∈ l, x.1 < 16384) {a : Nat}
    (haway : ∀ x ∈ l, a < slotAddr x.1 ∨ slotAddr x.1 + 8 ≤ a) :
    ((s.stores l).foldl (fun m w => w.apply m) m).byte a = m.byte a :=
  (stores_keep (p := fun m' => m'.wf = true ∧ m'.byte a = m.byte a)
    (fun x hx _ _ h => ⟨Mems.wf_apply h.1 _, (byte_slot h.1 (hslots x hx) _ _ a (haway x hx)).trans h.2⟩) ⟨hwf, rfl⟩).2

theorem stores_attr (hwf : m.wf = true) (hslots : ∀ x ∈ l, x.1 < 16384) {j : Nat} (haway : ∀ x ∈ l, j ≠ x.1) :
    sget {} ((s.stores l).foldl (fun m w => w.apply m) m).attrs j = sget {} m.attrs j :=
  (stores_keep (p := fun m' => m'.wf = true ∧ sget {} m'.attrs j = sget {} m.attrs j)
    (fun x hx _ _ h => ⟨Mems.wf_apply h.1 _, (attr_slot h.1 (hslots x hx) _ _ j).trans ((if_neg (haway x hx)).trans h.2)⟩)
    ⟨hwf, rfl⟩).2

end

/-! ### The operation at PC -/

section
variable {s : State} {k : Fin 8} {w : W64} {t : Ns} (hclean : s.clean) (hat : s.engineAt k w)
include hclean

theorem at_deadTags : (s.dev.at t).memu.deadTags = [] := hclean.2.2

include hat

/-- A command of an operation executes it, or finds another operation at PC and leaves the device. -/
theorem after_ceOp_or (op : Nat) (f : Env → W64 → Dev → Dev) :
    s.after t (fun e d => d.ceOp e k op (f e)) = f s.env w (s.dev.at t) ∨
      s.after t (fun e d => d.ceOp e k op (f e)) = s.dev.at t := by
  by_cases hop : fld w 0 8 = op
  · exact .inl (after_ceOp hclean hat hop rfl)
  · have hword : s.env.mems.word (8 * s.dev.ce[k].pc) = w := hat.2.2
    right
    simp [State.after, Dev.ceOp, hword, hop, -Fin.getElem_fin]

end

/-- What an operation of engine `k` leaves beside the slots that it writes (R233). -/
def State.engineFrame (s : State) (k : Fin 8) (s' : State) : Prop :=
  s.touches [.calc, .mems] s' ∧ s'.dev.ces = s.dev.ces ∧ (∀ j : Fin 8, j ≠ k → s'.dev.ce[j] = s.dev.ce[j]) ∧
    s'.dev.ce[k].queue = s.dev.ce[k].queue ∧ s'.dev.ce[k].cur = s.dev.ce[k].cur

/-- A change of an engine that leaves its queue and its trigger. -/
def KeepsRun (g : Ce → Ce) : Prop := ∀ c, (g c).queue = c.queue ∧ (g c).cur = c.cur

section
variable {s : State} {k : Fin 8} {w : W64} {c : Instr} {op : Nat} {f : Env → W64 → Dev → Dev} (hclean : s.clean)
  (hat : s.engineAt k w) (hexec : exec c s = runAt (stampOf c) (fun e d => d.ceOp e k op (f e)) s)
include hclean hat hexec

/-- An operation that changes its engine and writes to the memories, or that is not the one at PC. -/
theorem completes_engineFrame {g : Ce → Ce} {ws : List MemOp} (hg : KeepsRun g)
    (hbody : f s.env w (s.dev.at (stampOf c)) = (s.dev.at (stampOf c)).stepped k g ws) :
    Completes c s fun s' => s.engineFrame k s' ∧
      (s'.mems = ws.foldl (fun m w => w.apply m) s.mems ∨ s'.mems = s.mems) := by
  obtain hdone | hother := after_ceOp_or (t := stampOf c) hclean hat op f
  · refine (completes_stepped hclean.1.2 hexec (hdone.trans hbody)).imp fun s' ⟨hce, hmems, htouches, hces, hothers⟩ => ?_
    exact ⟨⟨htouches, hces, hothers, by rw [hce, (hg _).1], by rw [hce, (hg _).2]⟩, .inl hmems⟩
  · have hstay : s.dev.at (stampOf c) = (s.dev.at (stampOf c)).stepped k (fun c => c) [] := by
      rw [Dev.stepped_nil, Dev.modCe_id]
    refine (completes_stepped hclean.1.2 hexec (hother.trans hstay)).imp fun s' ⟨hce, hmems, htouches, hces, hothers⟩ => ?_
    exact ⟨⟨htouches, hces, hothers, by rw [hce], by rw [hce]⟩, .inr hmems⟩

/-- An operation that writes slots which its engine may write, or that is not the one at PC. -/
theorem completes_slotFrame {g : Ce → Ce} {l : List (Nat × W64 × Byte)} (hg : KeepsRun g) (hmay : ∀ x ∈ l, s.mayWrite k x.1)
    (hbody : f s.env w (s.dev.at (stampOf c)) = ((s.dev.at (stampOf c)).modCe k g).ceWrites s.env k l) :
    Completes c s fun s' => s.engineFrame k s' ∧
      (∀ a, (∀ x ∈ l, a < slotAddr x.1 ∨ slotAddr x.1 + 8 ≤ a) → s'.mems.byte a = s.mems.byte a) ∧
      ∀ j, (∀ x ∈ l, j ≠ x.1) → s'.attr j = s.attr j := by
  rw [ceWrites_clean (d := (s.dev.at (stampOf c)).modCe k g) l (at_deadTags (t := stampOf c) hclean) hmay, Dev.modCe_stepped] at hbody
  have hkeeps : KeepsRun fun c' => (g c').wroteOn s ((s.dev.at (stampOf c)).modCe k g).dtime l := fun c' =>
    ⟨(Ce.boundary_queue ..).trans (hg c').1, (Ce.boundary_cur ..).trans (hg c').2⟩
  have hslots : ∀ x ∈ l, x.1 < 16384 := fun x hx => (hmay x hx).1
  refine (completes_engineFrame hclean hat hexec hkeeps hbody).imp fun s' ⟨hframe, hmems⟩ => ⟨hframe, fun a ha => ?_, fun j hj => ?_⟩
  · obtain hmems | hmems := hmems
    · rw [hmems, stores_byte hclean.1.1 hslots ha]
    · rw [hmems]
  · obtain hmems | hmems := hmems
    · rw [State.attr, hmems, stores_attr hclean.1.1 hslots hj]
      rfl
    · rw [State.attr, hmems]
      rfl

end

end Sys2Proof.Machine
end

section
/-! The operations that compute one result: arithmetic, dynamic and bitwise operations, and division (R229 to R231, R233). -/

namespace Sys2Proof.Machine

open Sys2Proof

/-! ### Quotients -/

/-- A quotient is rounded once, half up, with the sign of the divisor moved to the dividend (R229, R230). -/
theorem qDiv_eq (a b : Int) : qDiv a b =
    (slotNumber ((2 * (a * b.sign) + b.natAbs) / (2 * b.natAbs)), outOfRange ((2 * (a * b.sign) + b.natAbs) / (2 * b.natAbs))) := by
  unfold qDiv
  split
  · next hneg =>
    have habs : (-b).toNat = b.natAbs := by omega
    rw [qSat_eq, divRound, habs, Int.sign_eq_neg_one_of_neg hneg, mul_neg_one]
  · next hpos =>
    have habs : b.toNat = b.natAbs := by omega
    obtain rfl | hne := eq_or_ne b 0
    · simp [qSat_eq, divRound]
    · rw [qSat_eq, divRound, habs, Int.sign_eq_one_of_pos (by omega), mul_one]

theorem qLimit_eq (x : Int) : qLimit x = slotNumber (if 0 ≤ x then 2 ^ 63 else -(2 ^ 63)) := by
  unfold qLimit slotNumber qMax qMin
  split <;> rfl

/-! ### Operands of undamaged memory -/

section
variable {s : State} {k : Fin 8} {t : Ns} (hclean : s.clean)
include hclean

theorem opUn_clean (g : W64 → W64 × Bool) (w : W64) : Dev.opUn s.env k g w (s.dev.at t) =
    Dev.opResult s.env k w [(s.operand k (opA w)).2] (g (s.operand k (opA w)).1) (s.dev.at t) := by
  simp only [Dev.opUn, slotRead_clean hclean]

theorem opBin_clean (raw : Bool) (g : W64 → W64 → W64 × Bool) (w : W64) : Dev.opBin s.env k raw g w (s.dev.at t) =
    Dev.opResult s.env k w [(s.operand k (opA w)).2, (s.operandB k raw w).2]
      (g (s.operand k (opA w)).1 (s.operandB k raw w).1) (s.dev.at t) := by
  simp only [Dev.opBin, opAB_clean hclean]

theorem opAcc_clean (g : Int → Int → Int → W64 × Bool) (w : W64) : Dev.opAcc s.env k g w (s.dev.at t) =
    Dev.opResult s.env k w [(s.operand k (opDst w)).2, (s.operand k (opA w)).2, (s.operandB k false w).2]
      (g (s.operand k (opDst w)).1.toInt (s.operand k (opA w)).1.toInt (s.operandB k false w).1.toInt) (s.dev.at t) := by
  simp only [Dev.opAcc, opAB_clean hclean, slotRead_clean hclean]

theorem opList_clean (l : List Nat) (g : List Int → List Byte → Dev → Dev) : Dev.opList s.env k l g (s.dev.at t) =
    g (l.map fun i => (s.operand k i).1.toInt) (l.map fun i => (s.operand k i).2) (s.dev.at t) := by
  simp only [Dev.opList, slotReads_clean hclean, List.map_map, Function.comp_def]

theorem opClamp_clean (w : W64) : Dev.opClamp s.env k false w (s.dev.at t) =
    Dev.opResult s.env k w [(s.operand k (opA w)).2, (s.operand k (opB w)).2, (s.operand k (opB w + 1)).2]
      (qSat (min (max (s.operand k (opA w)).1.toInt (s.operand k (opB w)).1.toInt) (s.operand k (opB w + 1)).1.toInt))
      (s.dev.at t) := by
  simp [Dev.opClamp, opList_clean hclean, between]

theorem opInteg_clean (w : W64) : Dev.opClamp s.env k true w (s.dev.at t) =
    Dev.opResult s.env k w
      [(s.operand k (opA w)).2, (s.operand k (opB w)).2, (s.operand k (opB w + 1)).2, (s.operand k (opDst w)).2]
      (qSat (min (max ((s.operand k (opDst w)).1.toInt + (s.operand k (opA w)).1.toInt) (s.operand k (opB w)).1.toInt)
        (s.operand k (opB w + 1)).1.toInt)) (s.dev.at t) := by
  simp [Dev.opClamp, opList_clean hclean, between, add_comm]

theorem opDiv_zero {w : W64} (hzero : (s.operandB k false w).1 = 0) : Dev.opDiv s.env k w (s.dev.at t) =
    ((s.dev.at t).modCe k fun c => { c with div0 := true }).ceWrites s.env k [(opDst w, qLimit (s.operand k (opA w)).1.toInt,
      opTag [(s.operand k (opA w)).2, (s.operandB k false w).2] true)] := by
  simp only [Dev.opDiv, opAB_clean hclean, if_pos hzero]
  rfl

theorem opDiv_clean {w : W64} (hne : (s.operandB k false w).1 ≠ 0) : Dev.opDiv s.env k w (s.dev.at t) =
    Dev.opResult s.env k w [(s.operand k (opA w)).2, (s.operandB k false w).2]
      (qDiv ((s.operand k (opA w)).1.toInt * 2 ^ 32) (s.operandB k false w).1.toInt) (s.dev.at t) := by
  simp only [Dev.opDiv, opAB_clean hclean, if_neg hne]

end

/-! ### Completion of an operation that computes one result -/

section
variable {s : State} {k : Fin 8} {w : W64} {c : Instr} {op : Nat} (hclean : s.clean) (hat : s.engineAt k w)
  (hmay : s.mayWrite k (opDst w)) (hop : fld w 0 8 = op)
include hclean hat hmay hop

theorem completes_computed {f : Env → W64 → Dev → Dev} {ops : List Byte} {x : Int} {r : W64 × Bool}
    (hexec : exec c s = runAt (stampOf c) (fun e d => d.ceOp e k op (f e)) s)
    (hbody : f s.env w (s.dev.at (stampOf c)) = Dev.opResult s.env k w ops r (s.dev.at (stampOf c)))
    (hr : r = (slotNumber x, outOfRange x)) : Completes c s (s.computed k w ops x) :=
  completes_of_run hexec fun hrests => computed_of_opResult hclean hrests hmay (after_ceOp hclean hat hop (hr ▸ hbody))

theorem completes_un {g : W64 → W64 × Bool} {x : Int}
    (hexec : exec c s = runAt (stampOf c) (fun e d => d.ceOp e k op fun w d => d.opUn e k g w) s)
    (hg : g (s.operand k (opA w)).1 = (slotNumber x, outOfRange x)) :
    Completes c s (s.computed k w [(s.operand k (opA w)).2] x) :=
  completes_computed hclean hat hmay hop hexec (opUn_clean hclean g w) hg

theorem completes_bin {g : W64 → W64 → W64 × Bool} {x : Int}
    (hexec : exec c s = runAt (stampOf c) (fun e d => d.ceOp e k op fun w d => d.opBin e k false g w) s)
    (hg : g (s.operand k (opA w)).1 (s.operandB k false w).1 = (slotNumber x, outOfRange x)) :
    Completes c s (s.computed k w [(s.operand k (opA w)).2, (s.operandB k false w).2] x) :=
  completes_computed hclean hat hmay hop hexec (opBin_clean hclean false g w) hg

theorem completes_acc {g : Int → Int → Int → W64 × Bool} {x : Int}
    (hexec : exec c s = runAt (stampOf c) (fun e d => d.ceOp e k op fun w d => d.opAcc e k g w) s)
    (hg : g (s.operand k (opDst w)).1.toInt (s.operand k (opA w)).1.toInt (s.operandB k false w).1.toInt =
      (slotNumber x, outOfRange x)) :
    Completes c s (s.computed k w [(s.operand k (opDst w)).2, (s.operand k (opA w)).2, (s.operandB k false w).2] x) :=
  completes_computed hclean hat hmay hop hexec (opAcc_clean hclean g w) hg

/-- The bitwise operations do not saturate. -/
theorem completes_raw {g : W64 → W64 → W64 → W64}
    (hexec : exec c s = runAt (stampOf c) (fun e d => d.ceOp e k op fun w d => d.opBin e k true (fun a b => (g w a b, false)) w) s) :
    Completes c s (s.computedRaw k w [(s.operand k (opA w)).2, (s.operandB k true w).2]
      (g w (s.operand k (opA w)).1 (s.operandB k true w).1)) :=
  completes_of_run hexec fun hrests => computedRaw_of_opResult hclean hrests hmay
    (after_ceOp (f := fun e w d => d.opBin e k true (fun a b => (g w a b, false)) w) hclean hat hop (opBin_clean hclean true _ w))

/-- An operation that writes DST after a change of its engine's flags. -/
theorem completes_wrote {f : Env → W64 → Dev → Dev} {d : Dev} {v : W64} {g : Byte}
    (hexec : exec c s = runAt (stampOf c) (fun e d => d.ceOp e k op (f e)) s) (honly : OnlyCe s (stampOf c) k d)
    (hbody : f s.env w (s.dev.at (stampOf c)) = d.ceWrites s.env k [(opDst w, v, g)]) :
    Completes c s fun s' => s.wrote k (opDst w) v g s' ∧ s'.dev.ce[k].pc = s.dev.ce[k].pc + 1 ∧
      s'.dev.ce[k].flag = d.ce[k].flag ∧ s'.dev.ce[k].div0 = d.ce[k].div0 :=
  completes_of_run hexec fun hrests => by
    obtain ⟨s', hrun, hwrote, hpc, -, -, hflag, hdiv⟩ :=
      wrote_of_ceWrites hclean hrests honly hmay (after_ceOp hclean hat hop hbody)
    exact ⟨s', hrun, hwrote, hpc, hflag, hdiv⟩

end

/-- Settles O33: each operation is one of four operand forms (`completes_un`, `completes_bin`, `completes_acc`,
`completes_raw`) or limits a list of slots, and its result is that of `qSat_eq` or `qRound_eq`. -/
theorem engineArithmetic : Obligations.EngineArithmetic := by
  unfold Obligations.EngineArithmetic
  refine ⟨?plain, ?dynamic, ?bitwise⟩
  case plain =>
    intro s k w t hclean hat hmay a b x y
    refine ⟨?mov, ?add, ?sub, ?mul, ?min, ?max, ?abs, ?neg⟩
    case mov =>
      intro hop
      refine completes_un (c := .mov t k) hclean hat hmay hop rfl ?_
      rw [slotNumber_toInt, outOfRange_toInt]
    case add => exact fun hop => completes_bin (c := .add t k) hclean hat hmay hop rfl (qSat_eq _)
    case sub => exact fun hop => completes_bin (c := .sub t k) hclean hat hmay hop rfl (qSat_eq _)
    case mul => exact fun hop => completes_bin (c := .mul t k) hclean hat hmay hop rfl (qRound_eq _)
    case min => exact fun hop => completes_bin (c := .min t k) hclean hat hmay hop rfl (qSat_eq _)
    case max => exact fun hop => completes_bin (c := .max t k) hclean hat hmay hop rfl (qSat_eq _)
    case abs => exact fun hop => completes_un (c := .abs t k) hclean hat hmay hop rfl (qSat_eq _)
    case neg => exact fun hop => completes_un (c := .neg t k) hclean hat hmay hop rfl (qSat_eq _)
  case dynamic =>
    intro s k w t hclean hat hmay a b d lo hi x y z
    refine ⟨?mac, ?clamp, ?lag, ?rate, ?integ⟩
    case mac => exact fun hop => completes_acc (c := .mac t k) hclean hat hmay hop rfl (qRound_eq _)
    case clamp =>
      exact fun hop => completes_computed (c := .clamp t k) (f := fun e w d => d.opClamp e k false w) hclean hat hmay hop rfl
        (opClamp_clean hclean w) (qSat_eq _)
    case lag => exact fun hop => completes_acc (c := .lag t k) hclean hat hmay hop rfl (qRound_eq _)
    case rate => exact fun hop => completes_acc (c := .rate t k) hclean hat hmay hop rfl (qSat_eq _)
    case integ =>
      exact fun hop => completes_computed (c := .integ t k) (f := fun e w d => d.opClamp e k true w) hclean hat hmay hop rfl
        (opInteg_clean hclean w) (qSat_eq _)
  case bitwise =>
    intro s k w t hclean hat hmay a b
    refine ⟨?and, ?or, ?xor, ?shl, ?shr⟩
    case and => exact fun hop => completes_raw (c := .and t k) hclean hat hmay hop rfl
    case or => exact fun hop => completes_raw (c := .or t k) hclean hat hmay hop rfl
    case xor => exact fun hop => completes_raw (c := .xor t k) hclean hat hmay hop rfl
    case shl => exact fun hop => completes_raw (c := .shl t k) hclean hat hmay hop rfl
    case shr => exact fun hop => completes_raw (c := .shr t k) hclean hat hmay hop rfl

/-- Settles O34: a divisor of 0 sets DIV0 and forces the limit (`qLimit_eq`), every other quotient is that of `qDiv_eq`. -/
theorem engineDivision : Obligations.EngineDivision := by
  unfold Obligations.EngineDivision
  intro s k w t hclean hat hmay hop a b q
  by_cases hzero : b.1 = 0
  · have honly := (OnlyCe.refl s t k).mod (fun c => { c with div0 := true }) rfl rfl
    refine (completes_wrote (c := .div t k) (f := fun e w d => d.opDiv e k w) hclean hat hmay hop rfl honly
      (opDiv_zero hclean hzero)).imp fun s' ⟨hwrote, hpc, _, hdiv⟩ => ?_
    rw [if_pos hzero, ← qLimit_eq]
    exact ⟨hwrote, hpc, by rw [hdiv, Dev.modCe_ce, upd_same]⟩
  · simp only [if_neg hzero]
    exact completes_computed (c := .div t k) (f := fun e w d => d.opDiv e k w) hclean hat hmay hop rfl
      (opDiv_clean hclean hzero) (qDiv_eq _ _)

end Sys2Proof.Machine
end

section
/-! CMP, SEL and JMPF (R226, R232, R233). -/

namespace Sys2Proof.Machine

open Sys2Proof

/-- A jump counts from the next operation (R232). -/
theorem jump_distance (b : Bool) (pc n : Nat) : pc + (if b then n + 1 else 1) = pc + 1 + (if b then n else 0) := by
  cases b with
  | false => rfl
  | true => exact (Nat.add_right_comm pc 1 n).symm

/-- The tag of A does not count for a condition on the flag. -/
theorem jmpCond_flag {c : Nat} (hc : c < 3) (flag : Bool) (g g' : Byte) : jmpCond c flag g = jmpCond c flag g' := by
  interval_cases c <;> rfl

/-- The engine at a later operation, by `n` operations. -/
def Ce.onward (now : Ns) (n : Nat) (c : Ce) : Ce := c.boundary now (c.pc + n)

section
variable {s : State} {k : Fin 8} {t : Ns} (hclean : s.clean)
include hclean

theorem opCmp_clean (w : W64) : Dev.opCmp s.env k w (s.dev.at t) = (s.dev.at t).modCe k fun c =>
    { c with flag := cmpCond (opCond w) (s.operand k (opA w)).1.toInt (s.operandB k false w).1.toInt }.onward (s.now t) 1 := by
  simp only [Dev.opCmp, opAB_clean hclean, Dev.ceNext, Dev.modCe, upd_upd]
  rfl

theorem opJmpf_clean (w : W64) : Dev.opJmpf s.env k w (s.dev.at t) = (s.dev.at t).modCe k (Ce.onward (s.now t)
    (if jmpCond (opCond w) s.dev.ce[k].flag (s.operand k (opA w)).2 then opDst w + 1 else 1)) := by
  have hflag : (s.dev.at t).ce[k].flag = s.dev.ce[k].flag := rfl
  by_cases hcond : opCond w < 3
  · simp only [Dev.opJmpf, if_pos hcond, hflag, jmpCond_flag hcond s.dev.ce[k].flag 0 (s.operand k (opA w)).2]
    rfl
  · simp only [Dev.opJmpf, if_neg hcond, slotRead_clean hclean, hflag]
    rfl

theorem opSel_clean (w : W64) : Dev.opSel s.env k w (s.dev.at t) = (s.dev.at t).ceWrites s.env k
    [(opDst w, if s.dev.ce[k].flag then (s.operand k (opA w)).1 else (s.operandB k false w).1,
      (if s.dev.ce[k].flag then (s.operand k (opA w)).2 else (s.operandB k false w).2) &&& 0x0F)] := by
  by_cases hflag : s.dev.ce[k].flag = true
  · have hflag' : (s.dev.at t).ce[k].flag = true := hflag
    simp only [Dev.opSel, opAB_clean hclean, if_pos hflag, if_pos hflag']
  · have hflag' : ¬(s.dev.at t).ce[k].flag = true := hflag
    simp only [Dev.opSel, opAB_clean hclean, if_neg hflag, if_neg hflag']

end

/-- An operation that changes its engine alone. -/
theorem completes_engine {s : State} {k : Fin 8} {w : W64} {c : Instr} {op : Nat} {f : Env → W64 → Dev → Dev} {g : Ce → Ce}
    (hclean : s.clean) (hat : s.engineAt k w) (hop : fld w 0 8 = op)
    (hexec : exec c s = runAt (stampOf c) (fun e d => d.ceOp e k op (f e)) s)
    (hbody : f s.env w (s.dev.at (stampOf c)) = (s.dev.at (stampOf c)).modCe k g) :
    Completes c s fun s' => s'.dev.ce[k] = g s.dev.ce[k] ∧ s'.mems = s.mems := by
  rw [← Dev.stepped_nil] at hbody
  exact (completes_stepped hclean.1.2 hexec (after_ceOp hclean hat hop hbody)).imp fun s' ⟨hce, hmems, _⟩ => ⟨hce, hmems⟩

/-- Settles O35: CMP and JMPF change their engine alone (`opCmp_clean`, `opJmpf_clean`), SEL writes one slot (`opSel_clean`). -/
theorem engineFlow : Obligations.EngineFlow := by
  unfold Obligations.EngineFlow
  intro s k w t hclean hat a b c x y
  refine ⟨?cmp, ?sel, ?jmpf⟩
  case cmp =>
    intro hop hcond
    refine (completes_engine (c := .cmp t k) (f := fun e w d => d.opCmp e k w) hclean hat hop rfl (opCmp_clean hclean w)).imp
      fun s' ⟨hce, hmems⟩ => ?_
    simp only [hce, Ce.onward, Ce.boundary_flag, Ce.boundary_pc, Ce.boundary_pub]
    refine ⟨?_, rfl, hmems, rfl⟩
    generalize opCond w = cond at hcond ⊢
    interval_cases cond
    · rfl
    · exact (decide_not ..).symm
    all_goals rfl
  case sel =>
    intro hop hmay
    exact (completes_wrote (c := .sel t k) (f := fun e w d => d.opSel e k w) hclean hat hmay hop rfl (OnlyCe.refl s t k)
      (opSel_clean hclean w)).imp fun s' ⟨hwrote, hpc, hflag, _⟩ => ⟨hwrote, hpc, hflag⟩
  case jmpf =>
    intro hop hcond
    refine (completes_engine (c := .jmpf t k) (f := fun e w d => d.opJmpf e k w) hclean hat hop rfl (opJmpf_clean hclean w)).imp
      fun s' ⟨hce, hmems⟩ => ?_
    simp only [hce, Ce.onward, Ce.boundary_flag, Ce.boundary_pc, Ce.boundary_pub]
    refine ⟨?_, hmems, rfl, rfl⟩
    generalize opCond w = cond at hcond ⊢
    interval_cases cond <;> exact jump_distance ..

end Sys2Proof.Machine
end

section
/-! ANGT and TANG (R235), and the lookups (R239, R240). -/

namespace Sys2Proof.Machine

open Sys2Proof

/-! ### Angle and time -/

section
variable {s : State} {k : Fin 8} {t : Ns} (hclean : s.clean)
include hclean

theorem opAngt_clean {w : W64} (hmoving : s.dev.pos.cycleNs ≠ 0) : Dev.opAngt s.env k w (s.dev.at t) =
    Dev.opResult s.env k w [(s.operand k (opA w)).2, s.dev.speedTag]
      (qDiv ((s.operand k (opA w)).1.toInt * s.dev.pos.cycleNs) s.dev.cycleDeg) (s.dev.at t) := by
  have hmoving' : (s.dev.at t).pos.cycleNs ≠ 0 := hmoving
  simp only [Dev.opAngt, slotRead_clean hclean, if_neg hmoving']
  rfl

theorem opAngt_still {w : W64} (hstill : s.dev.pos.cycleNs = 0) : Dev.opAngt s.env k w (s.dev.at t) =
    (s.dev.at t).ceWrites s.env k [(opDst w, qLimit (s.operand k (opA w)).1.toInt,
      opTag [(s.operand k (opA w)).2, s.dev.speedTag] true)] := by
  have hstill' : (s.dev.at t).pos.cycleNs = 0 := hstill
  simp only [Dev.opAngt, slotRead_clean hclean, if_pos hstill']
  rfl

theorem opTang_clean {w : W64} (hmoving : s.dev.pos.cycleNs ≠ 0) : Dev.opTang s.env k w (s.dev.at t) =
    Dev.opResult s.env k w [(s.operand k (opA w)).2, s.dev.speedTag]
      (qDiv ((s.operand k (opA w)).1.toInt * s.dev.cycleDeg) s.dev.pos.cycleNs) (s.dev.at t) := by
  have hmoving' : (s.dev.at t).pos.cycleNs ≠ 0 := hmoving
  simp only [Dev.opTang, slotRead_clean hclean, if_neg hmoving']
  rfl

theorem opTang_still {w : W64} (hstill : s.dev.pos.cycleNs = 0) : Dev.opTang s.env k w (s.dev.at t) =
    (s.dev.at t).ceWrites s.env k [(opDst w, 0, opTag [(s.operand k (opA w)).2, s.dev.speedTag] true)] := by
  have hstill' : (s.dev.at t).pos.cycleNs = 0 := hstill
  simp only [Dev.opTang, slotRead_clean hclean, if_pos hstill']
  rfl

end

/-- A quotient by a positive number. -/
theorem qDiv_pos (a : Int) {n : Nat} (hn : n ≠ 0) :
    qDiv a n = (slotNumber ((2 * a + n) / (2 * n)), outOfRange ((2 * a + n) / (2 * n))) := by
  rw [qDiv_eq, Int.sign_eq_one_of_pos (by omega), mul_one, Int.natAbs_natCast]

theorem cycleDeg_ne_zero (d : Dev) : d.cycleDeg ≠ 0 := by
  unfold Dev.cycleDeg
  split <;> decide

/-- Settles O38: a moving wheel gives a quotient (`qDiv_pos`), a standing one forces the limit or 0. -/
theorem engineAngleTime : Obligations.EngineAngleTime := by
  unfold Obligations.EngineAngleTime
  intro s k w t hclean hat hmay a x n deg ops
  refine ⟨?angt, ?tang, ?angtStill, ?tangStill⟩
  case angt =>
    exact fun hop hmoving => completes_computed (c := .angt t k) (f := fun e w d => d.opAngt e k w) hclean hat hmay hop rfl
      (opAngt_clean hclean hmoving) (qDiv_pos _ (cycleDeg_ne_zero _))
  case tang =>
    exact fun hop hmoving => completes_computed (c := .tang t k) (f := fun e w d => d.opTang e k w) hclean hat hmay hop rfl
      (opTang_clean hclean hmoving) (qDiv_pos _ hmoving)
  case angtStill =>
    intro hop hstill
    refine (completes_wrote (c := .angt t k) (f := fun e w d => d.opAngt e k w) hclean hat hmay hop rfl (OnlyCe.refl s t k)
      (opAngt_still hclean hstill)).imp fun s' ⟨hwrote, hpc, _⟩ => ⟨?_, hpc⟩
    rw [← qLimit_eq]
    exact hwrote
  case tangStill =>
    intro hop hstill
    exact (completes_wrote (c := .tang t k) (f := fun e w d => d.opTang e k w) hclean hat hmay hop rfl (OnlyCe.refl s t k)
      (opTang_still hclean hstill)).imp fun s' ⟨hwrote, hpc, _⟩ => ⟨hwrote, hpc⟩

/-! ### Lookups -/

theorem runReads_clean {d : Dev} (herrs : d.memu.errs = []) (k : Fin 8) (l : List Nat) : d.runReads k l = (false, d) := by
  induction l with
  | nil => rfl
  | cons a l ih => simp only [Dev.runReads, Dev.readAt_clean herrs, ih]

/-- A lookup's result is in units of 2^-96 before its one rounding. -/
theorem qRound96_eq (x : Int) : qRound x 96 = (slotNumber ((x + 2 ^ 95) / 2 ^ 96), outOfRange ((x + 2 ^ 95) / 2 ^ 96)) := by
  have hround : divRound x (2 ^ 96) = (x + 2 ^ 95) / 2 ^ 96 := by
    unfold divRound
    omega
  rw [qRound, hround, qSat_eq]

/-- The inputs of a lookup, each at its place on its axis, in an undamaged map. -/
theorem opLut_clean {s : State} {k : Fin 8} {t : Ns} (hclean : s.clean) (dims : Nat) (w : W64) :
    let m := s.mems.mapDesc (opB w)
    let v (j : Nat) : Int := (((List.range dims).map fun j => (s.operand k (opA w + j)).1.toInt)[j]?).getD 0
    Dev.opLut s.env k dims w (s.dev.at t) = Dev.opResult s.env k w ((List.range dims).map fun j => (s.operand k (opA w + j)).2)
      (qRound (m.offset * 2 ^ 96 + m.scale * m.look s.mems (m.locate s.mems 0 m.nx (v 0))
        (if dims < 2 then (0, 0) else m.locate s.mems m.nx m.ny (v 1))
        (if dims < 3 then (0, 0) else m.locate s.mems (m.nx + m.ny) m.nz (v 2))) 96) (s.dev.at t) := by
  have herrs : (s.dev.at t).memu.errs = [] := hclean.2.1
  simp only [Dev.opLut, opList_clean hclean, List.map_map, Function.comp_def, runReads_clean herrs]
  rfl

theorem clampI_low {lo hi v : Int} (hrange : lo ≤ hi) (hlow : v ≤ lo) : clampI lo hi v = clampI lo hi lo := by
  unfold clampI
  split_ifs <;> omega

theorem clampI_high {lo hi v : Int} (hrange : lo ≤ hi) (hhigh : hi ≤ v) : clampI lo hi v = clampI lo hi hi := by
  unfold clampI
  split_ifs <;> omega

/-- A value counts on an axis through its limitation to the first and the last breakpoint alone. -/
theorem locate_congr (m : Mems) (x : MapDesc) (first n : Nat) {v v' : Int}
    (h : clampI (m.word (x.bpAt first 0)).toInt (m.word (x.bpAt first (n - 1))).toInt v =
      clampI (m.word (x.bpAt first 0)).toInt (m.word (x.bpAt first (n - 1))).toInt v') :
    x.locate m first n v = x.locate m first n v' := by
  simp only [MapDesc.locate, h]

/-- Settles O36: a lookup is one result (`opLut_clean`, `qRound96_eq`), and an input counts through `clampI` alone
(`locate_congr`). -/
theorem engineLookup : Obligations.EngineLookup := by
  unfold Obligations.EngineLookup
  refine ⟨?lookup, ?range⟩
  case lookup =>
    intro s k w t hclean hat hmay m a b c px py pz value
    refine ⟨?lut1, ?lut2, ?lut3⟩
    case lut1 =>
      exact fun hop => completes_computed (c := .lut1 t k) (f := fun e w d => d.opLut e k 1 w) hclean hat hmay hop rfl
        (opLut_clean hclean 1 w) (qRound96_eq _)
    case lut2 =>
      exact fun hop => completes_computed (c := .lut2 t k) (f := fun e w d => d.opLut e k 2 w) hclean hat hmay hop rfl
        (opLut_clean hclean 2 w) (qRound96_eq _)
    case lut3 =>
      exact fun hop => completes_computed (c := .lut3 t k) (f := fun e w d => d.opLut e k 3 w) hclean hat hmay hop rfl
        (opLut_clean hclean 3 w) (qRound96_eq _)
  case range =>
    intro m x first n v bp hrange
    exact ⟨fun hlow => locate_congr m x first n (clampI_low hrange hlow),
      fun hhigh => locate_congr m x first n (clampI_high hrange hhigh)⟩

end Sys2Proof.Machine
end

section
/-! The PI controller, which writes two slots (R227, R234). -/

namespace Sys2Proof.Machine

open Sys2Proof

/-! ### The publish buffer (R227) -/

theorem find_stagePub_same (i : Nat) (v : W64) (g : Byte) (l : List (Nat × W64 × Byte)) :
    (stagePub i v g l).find? (·.1 == i) = some (i, v, g) := by
  unfold stagePub
  split
  · next hstaged =>
    have hkeys : ((fun x : Nat × W64 × Byte => x.1 == i) ∘ fun x => if x.1 = i then (i, v, g) else x) = fun x => x.1 == i := by
      funext x
      simp only [Function.comp_apply]
      split
      · next hx => simp [hx]
      · rfl
    obtain ⟨x, hfind⟩ : ∃ x, l.find? (·.1 == i) = some x := by
      rw [← Option.isSome_iff_exists, List.find?_isSome]
      simpa using hstaged
    have hx : x.1 = i := by simpa using List.find?_some hfind
    rw [List.find?_map, hkeys, hfind, Option.map_some, if_pos hx]
  · next hnew =>
    have hnone : l.find? (·.1 == i) = none :=
      List.find?_eq_none.mpr fun x hx hkey => hnew (List.any_eq_true.mpr ⟨x, hx, hkey⟩)
    simp [List.find?_append, hnone]

theorem find_stagePub_other {i j : Nat} (hij : j ≠ i) (v : W64) (g : Byte) (l : List (Nat × W64 × Byte)) :
    (stagePub i v g l).find? (·.1 == j) = l.find? (·.1 == j) := by
  unfold stagePub
  split
  · have hkeys : ((fun x : Nat × W64 × Byte => x.1 == j) ∘ fun x => if x.1 = i then (i, v, g) else x) = fun x => x.1 == j := by
      funext x
      simp only [Function.comp_apply]
      split
      · next hx => simp [hx]
      · rfl
    rw [List.find?_map, hkeys]
    cases hfind : l.find? (·.1 == j) with
    | none => rfl
    | some x =>
      have hx : x.1 = j := by simpa using List.find?_some hfind
      rw [Option.map_some, if_neg (by omega)]
  · have hne : (i == j) = false := by simpa using hij.symm
    simp [List.find?_append, hne]

/-! ### Slots written, each once -/

section
variable {s : State} {l : List (Nat × W64 × Byte)}

theorem find_staged_other {j : Nat} (haway : ∀ x ∈ l, j ≠ x.1) (p : List (Nat × W64 × Byte)) :
    (s.staged l p).find? (·.1 == j) = p.find? (·.1 == j) := by
  induction l generalizing p with
  | nil => rfl
  | cons x l ih =>
    obtain ⟨hx, hl⟩ := List.forall_mem_cons.mp haway
    simp only [State.staged, List.foldl_cons]
    refine (ih hl _).trans ?_
    split
    · exact find_stagePub_other hx ..
    · rfl

theorem find_staged_mem (hnodup : (l.map (·.1)).Nodup) {x : Nat × W64 × Byte} (hx : x ∈ l) (hout : (s.attr x.1).cls = 2)
    (p : List (Nat × W64 × Byte)) : (s.staged l p).find? (·.1 == x.1) = some x := by
  induction l generalizing p with
  | nil => cases hx
  | cons y l ih =>
    obtain ⟨hfirst, hnodup⟩ := List.nodup_cons.mp hnodup
    simp only [State.staged, List.foldl_cons]
    obtain rfl | hx := List.mem_cons.mp hx
    · rw [if_pos hout]
      refine (find_staged_other (fun z hz heq => hfirst (List.mem_map.mpr ⟨z, hz, heq.symm⟩)) _).trans ?_
      exact find_stagePub_same ..
    · exact ih hnodup hx _

theorem stores_word {m : Mems} (hwf : m.wf = true) (hslots : ∀ x ∈ l, x.1 < 16384) (hnodup : (l.map (·.1)).Nodup)
    {x : Nat × W64 × Byte} (hx : x ∈ l) (hcls : (s.attr x.1).cls ≠ 2) :
    ((s.stores l).foldl (fun m w => w.apply m) m).word (slotAddr x.1) = x.2.1 := by
  induction l generalizing m with
  | nil => cases hx
  | cons y l ih =>
    obtain ⟨hy, hl⟩ := List.forall_mem_cons.mp hslots
    obtain ⟨hfirst, hnodup⟩ := List.nodup_cons.mp hnodup
    simp only [State.stores, List.flatMap_cons, List.foldl_append]
    obtain rfl | hx := List.mem_cons.mp hx
    · rw [if_neg hcls]
      refine (stores_keep (s := s) (l := l) (p := fun m' => m'.wf = true ∧ m'.word (slotAddr x.1) = x.2.1)
        (fun z hz _ _ h => ⟨Mems.wf_apply h.1 _, ?_⟩) ⟨Mems.wf_apply hwf _, word_slot hwf hy _ _⟩).2
      have hne : x.1 ≠ z.1 := fun heq => hfirst (List.mem_map.mpr ⟨z, hz, heq.symm⟩)
      exact (word_slot_other h.1 (hl z hz) hne _ _).trans h.2
    · refine ih ?_ hl hnodup hx
      split
      · exact hwf
      · exact Mems.wf_apply hwf _

end

/-- What slot `j` holds for engine `k` in a later state: the value staged for an output slot, else the stored one. -/
def State.got (s : State) (k : Fin 8) (j : Nat) (s' : State) : Option W64 :=
  if (s.attr j).cls = 2 then (s'.dev.ce[k].pub.find? (·.1 == j)).map (·.2.1) else some (s'.slot j)

/-- An operation that writes several slots, each once, leaves each with its value. -/
theorem completes_got {s : State} {k : Fin 8} {w : W64} {c : Instr} {op : Nat} {f : Env → W64 → Dev → Dev} {g : Ce → Ce}
    {l : List (Nat × W64 × Byte)} (hclean : s.clean) (hat : s.engineAt k w) (hop : fld w 0 8 = op)
    (hexec : exec c s = runAt (stampOf c) (fun e d => d.ceOp e k op (f e)) s) (hg : ∀ c, (g c).pc = c.pc)
    (hmay : ∀ x ∈ l, s.mayWrite k x.1) (hnodup : (l.map (·.1)).Nodup)
    (hbody : f s.env w (s.dev.at (stampOf c)) = ((s.dev.at (stampOf c)).modCe k g).ceWrites s.env k l) :
    Completes c s fun s' => (∀ x ∈ l, s.got k x.1 s' = some x.2.1) ∧ s'.dev.ce[k].pc = s.dev.ce[k].pc + 1 := by
  rw [ceWrites_clean (d := (s.dev.at (stampOf c)).modCe k g) l (at_deadTags (t := stampOf c) hclean) hmay,
    Dev.modCe_stepped] at hbody
  refine (completes_stepped hclean.1.2 hexec (after_ceOp hclean hat hop hbody)).imp fun s' ⟨hce, hmems, _⟩ => ⟨fun x hx => ?_, ?_⟩
  · unfold State.got
    split
    · next hout =>
      rw [hce, Ce.wroteOn_pub, find_staged_mem hnodup hx hout]
      rfl
    · next hcls =>
      rw [State.slot, hmems, stores_word hclean.1.1 (fun y hy => (hmay y hy).1) hnodup hx hcls]
  · rw [hce, Ce.wroteOn_pc, hg]

/-! ### The controller's step -/

section
variable {e i kp ki lo hi x : Int} (hx : kp * e + i * 2 ^ 32 + ki * e = x)
include hx

/-- Within the limits, the sum is the output and the integral moves. -/
theorem piStep_within (h : lo * 2 ^ 32 ≤ x ∧ x ≤ hi * 2 ^ 32) : (piStep e i kp ki lo hi).1.1 = slotNumber (round32 x) ∧
    (piStep e i kp ki lo hi).2.1 = slotNumber (round32 (i * 2 ^ 32 + ki * e)) := by
  subst hx
  simp only [piStep, if_pos h, qRound_eq, and_self]

/-- Outside them, the nearer limit is the output, and the integral moves only back towards it. -/
theorem piStep_outside (h : ¬(lo * 2 ^ 32 ≤ x ∧ x ≤ hi * 2 ^ 32)) {near far : Int}
    (hlimits : (near = lo ∧ far = hi) ∨ (near = hi ∧ far = lo))
    (hnear : (x - near * 2 ^ 32).natAbs < (x - far * 2 ^ 32).natAbs ∨ near = far) :
    (piStep e i kp ki lo hi).1.1 = BitVec.ofInt 64 near ∧ (piStep e i kp ki lo hi).2.1 =
      if ki * e * (x - near * 2 ^ 32) < 0 then slotNumber (round32 (i * 2 ^ 32 + ki * e)) else BitVec.ofInt 64 i := by
  subst hx
  have hchosen : (if (kp * e + i * 2 ^ 32 + ki * e - lo * 2 ^ 32).natAbs ≤ (kp * e + i * 2 ^ 32 + ki * e - hi * 2 ^ 32).natAbs
      then lo else hi) = near := by
    split <;> omega
  simp only [piStep, if_neg h, hchosen, qRound_eq, true_and]
  split <;> rfl

end

/-- The flag and the count of a saturation (R229). -/
def Ce.satNoted (b : Bool) (c : Ce) : Ce := if b then { c with sat := true, sats := c.sats + 1 } else c

theorem noteSat_eq (k : Fin 8) (b : Bool) (d : Dev) : d.noteSat k b = d.modCe k (Ce.satNoted b) := by
  cases b with
  | false => exact (Dev.modCe_id k d).symm
  | true => rfl

/-- A saturation is noted in its engine's own registers. -/
theorem satNoted_keeps (b : Bool) (c : Ce) : (c.satNoted b).pc = c.pc ∧ (c.satNoted b).queue = c.queue ∧ (c.satNoted b).cur = c.cur := by
  cases b <;> exact ⟨rfl, rfl, rfl⟩

theorem opPi_clean {s : State} {k : Fin 8} {t : Ns} (hclean : s.clean) (w : W64) :
    let v (i : Nat) : Int := (s.operand k i).1.toInt
    let p := piStep (v (opA w)) (v (opDst w + 1)) (v (opB w)) (v (opB w + 1)) (v (opB w + 2)) (v (opB w + 3))
    ∃ b g g', Dev.opPi s.env k w (s.dev.at t) = ((s.dev.at t).modCe k (Ce.satNoted b)).ceWrites s.env k
      [(opDst w, p.1.1, g), (opDst w + 1, p.2.1, g')] := by
  simp only [Dev.opPi, opList_clean hclean, noteSat_eq]
  exact ⟨_, _, _, rfl⟩

/-- Settles O37: the two values are those of `piStep` (`opPi_clean`), and each slot holds its own (`completes_got`). -/
theorem engineController : Obligations.EngineController := by
  unfold Obligations.EngineController
  intro s k w t hclean hat hop hmay hmay' v e i lo hi ke x got
  obtain ⟨b, g, g', hbody⟩ := opPi_clean (k := k) (t := t) hclean w
  refine (completes_got (c := .pi t k) (f := fun e w d => d.opPi e k w) hclean hat hop rfl (fun c => (satNoted_keeps b c).1) ?may
    (by simp) hbody).imp fun s' ⟨hgot, hpc⟩ => ?_
  case may => simpa using And.intro hmay hmay'
  obtain ⟨hout, hint⟩ : s.got k (opDst w) s' = some (piStep e i (v (opB w)) (v (opB w + 1)) lo hi).1.1 ∧
      s.got k (opDst w + 1) s' = some (piStep e i (v (opB w)) (v (opB w + 1)) lo hi).2.1 := by
    simpa using hgot
  have hown (j : Nat) : slotNumber (v j) = BitVec.ofInt 64 (v j) := by rw [slotNumber_toInt, BitVec.ofInt_toInt]
  refine ⟨fun hwithin => ?_, fun near far hlimits hbeyond hnear => ?_, hpc⟩
  · obtain ⟨hu, hi'⟩ := piStep_within (e := e) (i := i) (kp := v (opB w)) (ki := v (opB w + 1)) rfl hwithin
    exact ⟨hout.trans (congrArg some hu), hint.trans (congrArg some hi')⟩
  · obtain ⟨hu, hi'⟩ := piStep_outside (e := e) (i := i) (kp := v (opB w)) (ki := v (opB w + 1)) rfl hbeyond hlimits hnear
    have hlimit : slotNumber near = BitVec.ofInt 64 near := by
      obtain ⟨rfl, -⟩ | ⟨rfl, -⟩ := hlimits <;> exact hown _
    exact ⟨hout.trans (congrArg some (hu.trans hlimit.symm)), hint.trans (congrArg some (hi'.trans (by rw [hown])))⟩

end Sys2Proof.Machine
end

section
/-! The frame of the operations (R225, R233). -/

namespace Sys2Proof.Machine

open Sys2Proof

theorem onward_keeps (now : Ns) (n : Nat) : KeepsRun (Ce.onward now n) := fun _ => ⟨Ce.boundary_queue .., Ce.boundary_cur ..⟩

/-- The body of an operation whose one effect beside its engine's flags is to write DST. -/
def WritesDst (s : State) (k : Fin 8) (w : W64) (t : Ns) (d : Dev) : Prop :=
  ∃ g v tag, KeepsRun g ∧ d = ((s.dev.at t).modCe k g).ceWrites s.env k [(opDst w, v, tag)]

section
variable {s : State} {k : Fin 8} {w : W64} {t : Ns}

theorem writesDst_of_eq {d : Dev} {v : W64} {tag : Byte} (h : d = (s.dev.at t).ceWrites s.env k [(opDst w, v, tag)]) :
    WritesDst s k w t d :=
  ⟨fun c => c, v, tag, fun _ => ⟨rfl, rfl⟩, by rw [Dev.modCe_id]; exact h⟩

theorem writesDst_of_result {d : Dev} {ops : List Byte} {r : W64 × Bool} (h : d = (s.dev.at t).opResult s.env k w ops r) :
    WritesDst s k w t d :=
  ⟨Ce.satNoted r.2, r.1, opTag ops r.2, fun c => (satNoted_keeps r.2 c).2, by rw [h, Dev.opResult, noteSat_eq]⟩

variable (hclean : s.clean)
include hclean

theorem opDiv_writesDst : WritesDst s k w t (Dev.opDiv s.env k w (s.dev.at t)) := by
  by_cases hzero : (s.operandB k false w).1 = 0
  · refine ⟨_, _, _, ?_, opDiv_zero hclean hzero⟩
    exact fun _ => ⟨rfl, rfl⟩
  · exact writesDst_of_result (opDiv_clean hclean hzero)

theorem opAngt_writesDst : WritesDst s k w t (Dev.opAngt s.env k w (s.dev.at t)) := by
  by_cases hstill : s.dev.pos.cycleNs = 0
  · exact writesDst_of_eq (opAngt_still hclean hstill)
  · exact writesDst_of_result (opAngt_clean hclean hstill)

theorem opTang_writesDst : WritesDst s k w t (Dev.opTang s.env k w (s.dev.at t)) := by
  by_cases hstill : s.dev.pos.cycleNs = 0
  · exact writesDst_of_eq (opTang_still hclean hstill)
  · exact writesDst_of_result (opTang_clean hclean hstill)

end

/-- The part of the block that an operation leaves which writes DST alone. -/
def State.dstFrame (s : State) (k : Fin 8) (w : W64) (s' : State) : Prop :=
  s.engineFrame k s' ∧ (∀ a, (a < slotAddr (opDst w) ∨ slotAddr (opDst w) + 8 ≤ a) → s'.mems.byte a = s.mems.byte a) ∧
    ∀ j, j ≠ opDst w → s'.attr j = s.attr j

section
variable {s : State} {k : Fin 8} {w : W64} {c : Instr} {op : Nat} (hclean : s.clean) (hat : s.engineAt k w)
include hclean hat

/-- An operation that changes its engine alone, or that is not the one at PC. -/
theorem completes_engineOnly {f : Env → W64 → Dev → Dev} {g : Ce → Ce}
    (hexec : exec c s = runAt (stampOf c) (fun e d => d.ceOp e k op (f e)) s) (hg : KeepsRun g)
    (hbody : f s.env w (s.dev.at (stampOf c)) = (s.dev.at (stampOf c)).modCe k g) :
    Completes c s fun s' => s.engineFrame k s' ∧ s'.mems = s.mems := by
  rw [← Dev.stepped_nil] at hbody
  exact (completes_engineFrame hclean hat hexec hg hbody).imp fun s' ⟨hframe, hmems⟩ => ⟨hframe, hmems.elim id id⟩

variable (hmay : s.mayWrite k (opDst w))
include hmay

theorem completes_dstFrame {f : Env → W64 → Dev → Dev}
    (hexec : exec c s = runAt (stampOf c) (fun e d => d.ceOp e k op (f e)) s)
    (hbody : WritesDst s k w (stampOf c) (f s.env w (s.dev.at (stampOf c)))) : Completes c s (s.dstFrame k w) := by
  obtain ⟨g, v, tag, hg, hbody⟩ := hbody
  refine (completes_slotFrame hclean hat hexec hg (by simpa using hmay) hbody).imp fun s' ⟨hframe, hbyte, hattr⟩ => ?_
  exact ⟨hframe, fun a ha => hbyte a (by simpa using ha), fun j hj => hattr j (by simpa using hj)⟩

theorem completes_un_frame {g : W64 → W64 × Bool}
    (hexec : exec c s = runAt (stampOf c) (fun e d => d.ceOp e k op fun w d => d.opUn e k g w) s) :
    Completes c s (s.dstFrame k w) :=
  completes_dstFrame hclean hat hmay hexec (writesDst_of_result (opUn_clean hclean g w))

/-- The operation may depend on its word, as SHR does (R233). -/
theorem completes_bin_frame {raw : Bool} {g : W64 → W64 → W64 → W64 × Bool}
    (hexec : exec c s = runAt (stampOf c) (fun e d => d.ceOp e k op fun w d => d.opBin e k raw (g w) w) s) :
    Completes c s (s.dstFrame k w) :=
  completes_dstFrame (f := fun e w d => d.opBin e k raw (g w) w) hclean hat hmay hexec
    (writesDst_of_result (opBin_clean hclean raw (g w) w))

theorem completes_acc_frame {g : Int → Int → Int → W64 × Bool}
    (hexec : exec c s = runAt (stampOf c) (fun e d => d.ceOp e k op fun w d => d.opAcc e k g w) s) :
    Completes c s (s.dstFrame k w) :=
  completes_dstFrame hclean hat hmay hexec (writesDst_of_result (opAcc_clean hclean g w))

theorem completes_lut_frame {dims : Nat}
    (hexec : exec c s = runAt (stampOf c) (fun e d => d.ceOp e k op fun w d => d.opLut e k dims w) s) :
    Completes c s (s.dstFrame k w) :=
  completes_dstFrame hclean hat hmay hexec (writesDst_of_result (opLut_clean hclean dims w))

end

/-- Settles O43: CMP and JMPF change their engine alone, PI writes two slots (`opPi_clean`), and every other operation is of
one of the forms whose one write is DST (`completes_dstFrame`). -/
theorem engineFrame : Obligations.EngineFrame := by
  unfold Obligations.EngineFrame
  intro s k w t hclean hat frame
  refine ⟨?noSlot, ?oneSlot, ?twoSlots⟩
  case noSlot =>
    simp only [List.forall_mem_cons]
    refine ⟨?cmp, ?jmpf, by simp⟩
    case cmp =>
      refine completes_engineOnly (c := .cmp t k) (f := fun e w d => d.opCmp e k w) hclean hat rfl ?_ (opCmp_clean hclean w)
      exact fun _ => onward_keeps _ 1 _
    case jmpf =>
      exact completes_engineOnly (c := .jmpf t k) (f := fun e w d => d.opJmpf e k w) hclean hat rfl (onward_keeps _ _)
        (opJmpf_clean hclean w)
  case oneSlot =>
    intro hmay
    simp only [List.forall_mem_cons]
    exact ⟨completes_un_frame hclean hat hmay (c := .mov t k) rfl, completes_bin_frame hclean hat hmay (c := .add t k) rfl,
      completes_bin_frame hclean hat hmay (c := .sub t k) rfl, completes_bin_frame hclean hat hmay (c := .mul t k) rfl,
      completes_dstFrame (c := .div t k) (f := fun e w d => d.opDiv e k w) hclean hat hmay rfl (opDiv_writesDst hclean),
      completes_acc_frame hclean hat hmay (c := .mac t k) rfl, completes_bin_frame hclean hat hmay (c := .min t k) rfl,
      completes_bin_frame hclean hat hmay (c := .max t k) rfl,
      completes_dstFrame (c := .clamp t k) (f := fun e w d => d.opClamp e k false w) hclean hat hmay rfl
        (writesDst_of_result (opClamp_clean hclean w)),
      completes_un_frame hclean hat hmay (c := .abs t k) rfl, completes_un_frame hclean hat hmay (c := .neg t k) rfl,
      completes_bin_frame hclean hat hmay (c := .and t k) rfl, completes_bin_frame hclean hat hmay (c := .or t k) rfl,
      completes_bin_frame hclean hat hmay (c := .xor t k) rfl, completes_bin_frame hclean hat hmay (c := .shl t k) rfl,
      completes_bin_frame hclean hat hmay (c := .shr t k) rfl,
      completes_dstFrame (c := .sel t k) (f := fun e w d => d.opSel e k w) hclean hat hmay rfl
        (writesDst_of_eq (opSel_clean hclean w)),
      completes_lut_frame hclean hat hmay (c := .lut1 t k) rfl, completes_lut_frame hclean hat hmay (c := .lut2 t k) rfl,
      completes_lut_frame hclean hat hmay (c := .lut3 t k) rfl,
      completes_acc_frame hclean hat hmay (c := .lag t k) rfl, completes_acc_frame hclean hat hmay (c := .rate t k) rfl,
      completes_dstFrame (c := .integ t k) (f := fun e w d => d.opClamp e k true w) hclean hat hmay rfl
        (writesDst_of_result (opInteg_clean hclean w)),
      completes_dstFrame (c := .angt t k) (f := fun e w d => d.opAngt e k w) hclean hat hmay rfl (opAngt_writesDst hclean),
      completes_dstFrame (c := .tang t k) (f := fun e w d => d.opTang e k w) hclean hat hmay rfl (opTang_writesDst hclean),
      by simp⟩
  case twoSlots =>
    intro hmay hmay'
    obtain ⟨b, g, g', hbody⟩ := opPi_clean (k := k) (t := t) hclean w
    refine (completes_slotFrame (c := .pi t k) (f := fun e w d => d.opPi e k w) hclean hat rfl (fun c => (satNoted_keeps b c).2)
      (by simpa using And.intro hmay hmay') hbody).imp fun s' ⟨hframe, hbyte, hattr⟩ => ?_
    refine ⟨hframe, fun a ha => hbyte a ?_, fun j hj hj' => hattr j (by simpa using And.intro hj hj')⟩
    have hnext : slotAddr (opDst w + 1) = slotAddr (opDst w) + 8 := by simp only [slotAddr]; omega
    simp only [List.forall_mem_cons, hnext]
    exact ⟨by omega, by omega, by simp⟩

end Sys2Proof.Machine
end

section
/-! REQ and its result (R237). -/

namespace Sys2Proof.Machine

open Sys2Proof

/-- A request block put into entry `i` of an engine's yard (R237). -/
def Yard.asked (i : Nat) (words : Vector W64 8) (y : Yard 16) : Yard 16 :=
  { y with
    entries := upd y.entries (Fin.ofNat 16 i) fun _ => { words := words, result := 15, waiting := true }
    fill := y.fill + 1, hwm := max y.hwm (y.fill + 1), submitted := y.submitted + 1 }

/-- The engine that waits for the result of the request in entry `i`, bound for slot `dst` (R237); one that was to take a single
step halts behind it (R247). -/
def Ce.waits (now : Ns) (i dst : Nat) (c : Ce) : Ce :=
  let c := if c.stepReq then { c.unhalt now with stepReq := false, haltReq := true } else c
  { c with state := .waitReq, reqDst := dst, reqEntry := some i, reqRes := none, reqs := c.reqs + 1 }

theorem waits_eq (now : Ns) (i dst : Nat) (c : Ce) : (c.waits now i dst).state = .waitReq ∧ (c.waits now i dst).pc = c.pc ∧
    (c.waits now i dst).reqDst = dst ∧ (c.waits now i dst).reqs = c.reqs + 1 := by
  cases hstep : c.stepReq <;> simp [Ce.waits, hstep, Ce.unhalt]

/-- The eight words of the request block at slot `i`. -/
def State.block (s : State) (k : Fin 8) (i : Nat) : Vector W64 8 := Vector.ofFn fun j => (s.operand k (i + j.val)).1

theorem ceReq_clean {s : State} {k : Fin 8} {t : Ns} (hclean : s.clean) (w : W64) :
    let i := (s.dev.adm.ce[k].head + s.dev.adm.ce[k].fill) % 16
    Dev.ceReq s.env k w (s.dev.at t) =
      ((s.dev.at t).modAdm fun a => { a with ce := upd a.ce k (Yard.asked i (s.block k (opA w))) }).modCe k
        (Ce.waits (s.now t) i (opDst w)) := by
  have hwords : (Vector.ofFn fun j : Fin 8 =>
      ((((blockSlots (opA w)).map (s.operand k)).map (·.1))[j.val]?).getD 0) = s.block k (opA w) := by
    refine Vector.ext fun j hj => ?_
    simp [State.block, blockSlots]
  simp only [Dev.ceReq, slotReads_clean hclean, hwords]
  rfl

/-- Settles O40: REQ changes its engine and its yard (`ceReq_clean`); the result is one slot write that its engine may make. -/
theorem engineRequest : Obligations.EngineRequest := by
  unfold Obligations.EngineRequest
  refine ⟨?request, ?result⟩
  case request =>
    intro s k w t hclean hat hop
    refine completes_of_after (c := .req t k) rfl
      (after_ceOp (f := fun e w d => d.ceReq e k w) hclean hat hop (ceReq_clean hclean w)) hclean.1.2.1 fun s' h => ?_
    have hce : s'.dev.ce[k] = s.dev.ce[k].waits (s.now t) _ (opDst w) := (congrArg (·[k]) h.ce).trans (upd_same ..)
    have hyard : s'.dev.adm.ce[k] = s.dev.adm.ce[k].asked _ (s.block k (opA w)) :=
      (congrArg (fun a : Adm => a.ce[k]) h.adm).trans (upd_same ..)
    have hmems : s'.mems = s.mems := h.mems.trans (congrArg (List.foldl _ s.mems) hclean.1.2.2)
    obtain ⟨hstate, hpc, hdst, hreqs⟩ := waits_eq (s.now t) ((s.dev.adm.ce[k].head + s.dev.adm.ce[k].fill) % 16) (opDst w) s.dev.ce[k]
    rw [hce, hyard]
    refine ⟨hstate, hpc, hdst, hreqs, rfl, rfl, fun j => ?_, hmems⟩
    rw [Yard.asked, upd_same]
    exact Vector.getElem_ofFn ..
  case result =>
    intro s k t r hclean hstate hres hmay
    have hbody : s.after t (fun e d => d.ceReqResult e k) = ((s.dev.at t).modCe k fun c =>
        { c with reqEntry := none, reqRes := none }).ceWrites s.env k [(s.dev.ce[k].reqDst, r, 1)] := by
      simp only [State.after, Dev.ceReqResult, Dev.at_ce, hstate, hres]
    have honly := (OnlyCe.refl s t k).mod (fun c => { c with reqEntry := none, reqRes := none }) rfl rfl
    have hwrote : Completes (.reqResult t k) s fun s' =>
        s.wrote k s.dev.ce[k].reqDst r 1 s' ∧ s'.dev.ce[k].pc = s.dev.ce[k].pc + 1 :=
      completes_of_run rfl fun hrests => by
        obtain ⟨s', hrun, hwrote, hpc, -⟩ := wrote_of_ceWrites hclean hrests honly hmay hbody
        exact ⟨s', hrun, hwrote, hpc⟩
    have hentry : Completes (.reqResult t k) s fun s' => s'.dev.ce[k].reqEntry = none := by
      rw [ceWrites_clean (d := (s.dev.at t).modCe k _) _ (at_deadTags (t := t) hclean) (by simpa using hmay),
        Dev.modCe_stepped] at hbody
      exact (completes_stepped (c := .reqResult t k) hclean.1.2 rfl hbody).imp fun s' ⟨hce, _⟩ => by
        rw [hce]
        exact Ce.boundary_reqEntry ..
    exact (hwrote.and hentry).imp fun s' ⟨⟨hwrote, hpc⟩, hentry⟩ => ⟨hwrote, hpc, hentry⟩

end Sys2Proof.Machine
end

section
/-! The runs of an engine: start, END and overrun (R227, R241 to R245). -/

namespace Sys2Proof.Machine

open Sys2Proof

theorem Dev.modCe_congr {k : Fin 8} {f g : Ce → Ce} {d : Dev} (h : f d.ce[k] = g d.ce[k]) : d.modCe k f = d.modCe k g := by
  simp only [Dev.modCe, upd, h]

/-! ### The end of a run -/

/-- A run is over on an engine that neither steps nor is to halt: it is idle. -/
theorem Ce.over_free {c : Ce} (hstep : c.stepReq = false) (hhalt : c.haltReq = false) (now : Ns) : c.over now =
    { c with cur := none, pub := [], reqEntry := none, reqRes := none, headAt := now, state := .idle } := by
  simp [Ce.over, hstep, hhalt]

/-- A boundary of an engine that neither steps nor is to halt stops at a breakpoint alone (R247). -/
theorem Ce.boundary_free_state {c : Ce} (hstep : c.stepReq = false) (hhalt : c.haltReq = false) (now : Ns) (pc : Nat) :
    (c.boundary now pc).state = if c.bpEn ∧ c.bp.toNat = pc then .halted else .running := by
  by_cases hbreak : c.bpEn ∧ c.bp.toNat = pc
  · simp [Ce.boundary, Ce.haltAt, hstep, hhalt, hbreak]
  · have hgoes : (c.bpEn && c.bp.toNat == pc) = false := by simpa using hbreak
    simp [Ce.boundary, hstep, hhalt, hbreak, hgoes]

@[simp] theorem Ce.boundary_runTrig (now : Ns) (pc : Nat) (c : Ce) : (c.boundary now pc).runTrig = c.runTrig := by
  obtain ⟨_, _, _, _, _, h⟩ := c.boundary_cases now pc
  rw [h]

@[simp] theorem Ce.boundary_runs (now : Ns) (pc : Nat) (c : Ce) : (c.boundary now pc).runs = c.runs := by
  obtain ⟨_, _, _, _, _, h⟩ := c.boundary_cases now pc
  rw [h]

/-! ### The start of a run -/

/-- The engine that has taken trigger `x` from its queue, with `l` behind it. -/
def Ce.begun (x : Trigger) (l : List Trigger) (start : W32) (c : Ce) : Ce :=
  { c with queue := l, cur := some x, flag := false, pub := [], reqEntry := none, reqRes := none
           runList := BitVec.ofNat 13 x.list, runTrig := BitVec.ofNat 5 x.entry, tStart := start }

section
variable {d : Dev} {k : Fin 8} {x : Trigger} {l : List Trigger} {n : W64} (hqueue : d.ce[k].queue = x :: l)
  (hidle : d.ce[k].state = .idle) (hmode : d.sup.mode.engines = true) (hon : bit d.ce[k].cfg 0 = true)
  (hdue : max x.arrival d.ce[k].headAt + 8 ≤ d.dtime) (hentry : d.listEntry k x.list = some n)
include hqueue hidle hmode hon hdue hentry

/-- A list with operations starts at its first one. -/
theorem runStart_long (hlen : fld n 16 14 ≠ 0) :
    d.runStart k = d.modCe k fun c => (c.begun x l d.now32).boundary d.dtime x.list := by
  simp [Dev.runStart, hqueue, hidle, hmode, hon, Nat.not_lt_of_le hdue, hentry, hlen, Ce.begun, -Fin.getElem_fin]

/-- A list without operations is over at once. -/
theorem runStart_empty (hlen : fld n 16 14 = 0) :
    d.runStart k = d.modCe k fun c => ((c.begun x l d.now32).finished d.dtime x.arrival).over d.dtime := by
  simp [Dev.runStart, hqueue, hidle, hmode, hon, Nat.not_lt_of_le hdue, hentry, hlen, Ce.begun, -Fin.getElem_fin]

end

/-! ### END (R227) -/

/-- Where no tag is damaged, END publishes every staged slot, in the order of the buffer. -/
theorem foldl_publish {e : Env} (l : List (Nat × W64 × Byte)) {d : Dev} (hdead : d.memu.deadTags = []) :
    l.foldl (fun d x => if d.tagDead x.1 then d.countDead
        else d.write (.slot x.1 x.2.1 (x.2.2 ||| ((e.attr x.1).tag &&& 0x10)))) d =
      { d with writes := d.writes ++ l.map fun x => .slot x.1 x.2.1 (x.2.2 ||| ((e.attr x.1).tag &&& 0x10)) } := by
  induction l generalizing d with
  | nil => simp only [List.foldl_nil, List.map_nil, List.append_nil]
  | cons x l ih =>
    simp only [List.foldl_cons, Dev.tagDead_clean hdead, Bool.false_eq_true, if_false, List.map_cons]
    rw [ih (d := d.write _) hdead]
    simp only [Dev.write, List.append_assoc, List.singleton_append]

theorem ceEnd_clean {s : State} {k : Fin 8} {t : Ns} {x : Trigger} (hclean : s.clean) (hcur : s.dev.ce[k].cur = some x) :
    Dev.ceEnd s.env k (s.dev.at t) = (s.dev.at t).stepped k (fun c => (c.finished (s.now t) x.arrival).over (s.now t))
      (s.dev.ce[k].pub.map fun y => .slot y.1 y.2.1 (y.2.2 ||| ((s.attr y.1).tag &&& 0x10))) := by
  unfold Dev.ceEnd
  simp only
  rw [foldl_publish _ (at_deadTags (t := t) hclean)]
  have hcur' : (s.dev.at t).ce[k].cur = some x := hcur
  refine (Dev.modCe_congr (g := fun c => (c.finished (s.now t) x.arrival).over (s.now t)) ?_).trans rfl
  simp only [hcur']
  rfl

/-! ### Overrun (R244) -/

theorem dropRequest_adm (k : Fin 8) (d : Dev) : ∃ adm, d.dropRequest k = { d with adm := adm } := by
  unfold Dev.dropRequest
  simp only
  split <;> exact ⟨_, rfl⟩

/-- The engine of a run that has overrun. -/
def Ce.overran (now : Ns) (c : Ce) : Ce :=
  let c := c.over now
  { c with overrun := true, overruns := c.overruns + 1 }

/-- A run past its deadline is aborted, and CE_OVERRUN is raised. -/
theorem overrun_run {d : Dev} {k : Fin 8} {x : Trigger} (hcur : d.ce[k].cur = some x) (hrun : d.ce[k].state = .running)
    (hlate : x.arrival + x.halted + x.deadline ≤ d.dtime) : ∃ adm, d.overrun k 0 =
      ({ d with adm := adm }.modCe k (Ce.overran d.dtime)).raise { source := 15, ctrl := ceCtrl k, coord := d.noEvent } := by
  obtain ⟨adm, hdrop⟩ := dropRequest_adm k d
  have hpast : d.ce[k].late d.dtime x = true := by
    simpa [Ce.late, hrun, -Fin.getElem_fin] using hlate
  refine ⟨adm, ?_⟩
  simp only [Dev.overrun, hcur, hpast, if_true, Dev.ceAbort, hdrop]
  simp only [Dev.modCe, upd_upd]
  rfl

/-- Settles O39: a run starts as `runStart_long` or `runStart_empty` says, END publishes the buffer (`ceEnd_clean`), and an
overrun aborts the run and is reported (`overrun_run`). -/
theorem engineRuns : Obligations.EngineRuns := by
  unfold Obligations.EngineRuns
  refine ⟨?start, ?ends, ?overrun⟩
  case start =>
    intro s k t x l n hsettled hidle hstep hhalt hmode hon hqueue hdue hentry
    have hidle' : (s.dev.at t).ce[k].state = .idle := hidle
    by_cases hlen : fld n 16 14 = 0
    · have hbody := runStart_empty (d := s.dev.at t) hqueue hidle' hmode hon hdue hentry hlen
      refine (completes_stepped (c := .runStart t k) hsettled rfl (hbody.trans (Dev.stepped_nil ..).symm)).imp
        fun s' ⟨hce, hmems, _⟩ => ?_
      rw [hce, Ce.over_free (c := (s.dev.ce[k].begun x l _).finished _ _) hstep hhalt]
      exact ⟨rfl, rfl, rfl, rfl, hmems, fun hlong => absurd hlen hlong, fun _ => ⟨rfl, rfl, rfl⟩⟩
    · have hbody := runStart_long (d := s.dev.at t) hqueue hidle' hmode hon hdue hentry hlen
      refine (completes_stepped (c := .runStart t k) hsettled rfl (hbody.trans (Dev.stepped_nil ..).symm)).imp
        fun s' ⟨hce, hmems, _⟩ => ?_
      have hstate := Ce.boundary_free_state (c := s.dev.ce[k].begun x l (s.dev.at t).now32) hstep hhalt (s.now t) x.list
      rw [hce]
      simp only [Ce.boundary_queue, Ce.boundary_flag, Ce.boundary_pub, Ce.boundary_runTrig, Ce.boundary_pc, Ce.boundary_cur,
        Ce.boundary_runs]
      exact ⟨rfl, rfl, rfl, rfl, hmems, fun _ => ⟨trivial, rfl, rfl, hstate⟩, fun hempty => absurd hempty hlen⟩
  case ends =>
    intro s k t w x hclean hat hop hstep hhalt hcur
    refine (completes_stepped (c := .ceEnd t k) hclean.1.2 rfl
      (after_ceOp (f := fun e _ d => d.ceEnd e k) hclean hat hop (ceEnd_clean hclean hcur))).imp fun s' ⟨hce, hmems, _⟩ => ?_
    rw [hce, Ce.over_free (c := s.dev.ce[k].finished _ _) hstep hhalt, hmems, List.foldl_map]
    exact ⟨rfl, rfl, rfl, rfl, rfl, rfl⟩
  case overrun =>
    intro s k t x hsettled hcur hrun hstep hhalt hlate hnoted
    obtain ⟨adm, hbody⟩ := overrun_run (d := s.dev.at t) hcur hrun hlate
    refine completes_of_raise (c := .overrun t k 0) (src := 15) (l := [.adm, .calc]) rfl hbody hsettled rfl rfl rfl rfl rfl hnoted
      (fun g hg => ?_) fun s' h hreported _ => ?_
    · obtain ⟨hadm, hcalc⟩ : g ≠ .adm ∧ g ≠ .calc := by simpa using hg
      exact Group.same_trans (Group.same_at s _) (Group.same_trans (Group.same_modAdm hadm s _ fun _ => adm)
        (Group.same_modCe hcalc s _ k _))
    · have hce : s'.dev.ce[k] = s.dev.ce[k].overran (s.now t) :=
        (congrArg (·[k]) (h.ce.trans (noted_report ..).ce)).trans (upd_same ..)
      have hmems : s'.mems = s.mems := by
        rw [h.mems, (noted_report ..).writes]
        exact congrArg (List.foldl _ s.mems) hsettled.2
      rw [hce, Ce.overran, Ce.over_free hstep hhalt]
      exact ⟨rfl, rfl, rfl, rfl, rfl, rfl, hmems, hreported⟩

end Sys2Proof.Machine
end

section
/-! HALT, STEP, RESUME and SLOT_VAL (R247). -/

namespace Sys2Proof.Machine

open Sys2Proof

/-- A command through a path that changes one engine. -/
theorem completes_debug {s : State} {c : Instr} {p : Path} {k : Fin 8} {f : Dev → Dev} {g : Ce → Ce} (hsettled : s.dev.settled)
    (hexec : exec c s = runAt (stampOf c) (fun _ d => (d.disarm p).debug k f) s)
    (hbody : ((s.dev.at (stampOf c)).disarm p).debug k f = ((s.dev.at (stampOf c)).disarm p).modCe k g) :
    Completes c s fun s' => s'.dev.ce[k] = g s.dev.ce[k] ∧ s'.mems = s.mems :=
  completes_of_after hexec hbody hsettled.1 fun s' h =>
    ⟨(congrArg (·[k]) h.ce).trans (upd_same ..), h.mems.trans (congrArg (List.foldl _ s.mems) hsettled.2)⟩

section
variable {d : Dev} {k : Fin 8}

theorem debug_may (hmay : d.debugMay = true) (f : Dev → Dev) : d.debug k f = f d := if_pos hmay

theorem debug_may_not (hmay : d.debugMay = false) (f : Dev → Dev) : d.debug k f = d.modCe k fun c => { c with cfgIgn := true } := by
  simp only [Dev.debug, hmay, Bool.false_eq_true, if_false]
  rfl

theorem ceHalt_running (hrun : d.ce[k].state = .running) : d.ceHalt k = d.modCe k (Ce.haltAt d.dtime .running) :=
  Dev.modCe_congr (by simp only [hrun])

theorem ceStep_halted (hhalt : d.ce[k].state = .halted) (hto : d.ce[k].resumeTo = .running) :
    d.ceStep k = d.modCe k fun c => { c with stepReq := true } :=
  Dev.modCe_congr (if_pos ⟨hhalt, hto⟩)

theorem ceResume_halted (hhalt : d.ce[k].state = .halted) :
    d.ceResume k = d.modCe k fun c => { c.unhalt d.dtime with state := c.resumeTo, stepReq := false } :=
  Dev.modCe_congr (if_pos hhalt)

end

/-! ### SLOT_VAL -/

section
variable {s : State} {p : Path} {t : Ns} {v : W64}

theorem slotIdx_disarm : (((s.dev.at t).disarm p).ctx p).slotIdx = (s.dev.ctx p).slotIdx := by
  rw [Dev.ctx_disarm_same]
  rfl

/-- A slot that SLOT_VAL may write takes its value with VALID. -/
theorem slotVal_may (hdead : s.dev.memu.deadTags = []) (hmay : s.dev.slotValMay s.env false (fld (s.dev.ctx p).slotIdx 0 14) = true) :
    Dev.slotVal s.env false p v ((s.dev.at t).disarm p) = ((s.dev.at t).disarm p).write
      (.slot (fld (s.dev.ctx p).slotIdx 0 14) v (((s.attr (fld (s.dev.ctx p).slotIdx 0 14)).tag &&& 0x10) ||| 1)) := by
  have hmay' : ((s.dev.at t).disarm p).slotValMay s.env false (fld (s.dev.ctx p).slotIdx 0 14) = true := hmay
  have hdead' : ((s.dev.at t).disarm p).memu.deadTags = [] := hdead
  simp only [Dev.slotVal, slotIdx_disarm, hmay', Dev.tagDead_clean hdead', Bool.not_true, Bool.false_eq_true, if_false]
  rfl

/-- Outside SERVICE, a register path writes no slot. -/
theorem slotVal_outside (hmode : s.dev.sup.mode ≠ .service) : Dev.slotVal s.env false p v ((s.dev.at t).disarm p) =
    ((s.dev.at t).disarm p).modCes fun c => { c with wrIgn := true } := by
  have hmay (i : Nat) : ((s.dev.at t).disarm p).slotValMay s.env false i = false := by
    have hmode' : (((s.dev.at t).disarm p).sup.mode == .service) = false := by simpa using hmode
    simp only [Dev.slotValMay, hmode', Bool.or_self, Bool.false_and]
  simp only [Dev.slotVal, hmay, Bool.not_false, if_true]

/-- In SERVICE, a constant and a state slot of a halted engine may be written. -/
theorem slotValMay_service {i : Nat} (hmode : s.dev.sup.mode = .service) (hcls : (s.attr i).cls = 0)
    (hwriter : (s.attr i).writer = 15 ∨ ∃ j : Fin 8, (s.attr i).writer.toNat = j.val ∧ s.dev.ce[j].state = .halted) :
    s.dev.slotValMay s.env false i = true := by
  have hattr : s.env.attr i = s.attr i := rfl
  obtain hconst | ⟨j, hj, hhalt⟩ := hwriter
  · simp [Dev.slotValMay, hattr, hmode, hcls, hconst]
  · simp [Dev.slotValMay, hattr, hmode, hcls, hj, hhalt, -Fin.getElem_fin]

end

/-- Settles O42: HALT, STEP and RESUME change one engine (`completes_debug`); SLOT_VAL writes one slot (`slotVal_may`) or sets the
ignore flag (`slotVal_outside`). -/
theorem engineDebug : Obligations.EngineDebug := by
  unfold Obligations.EngineDebug
  intro s p k t v hclean
  have hsettled := hclean.1.2
  refine ⟨fun hmay => ⟨?halt, fun hhalt hto => ⟨?step, ?resume⟩⟩, ?ignored, ?service, ?outside⟩
  case halt =>
    intro hrun
    refine (completes_debug (c := .halt t p k) hsettled rfl
      ((debug_may (d := (s.dev.at t).disarm p) hmay _).trans (ceHalt_running hrun))).imp
      fun s' ⟨hce, hmems⟩ => ?_
    rw [hce]
    exact ⟨rfl, rfl, rfl, rfl, hmems⟩
  case step =>
    exact (completes_debug (c := .step t p k) hsettled rfl
      ((debug_may (d := (s.dev.at t).disarm p) hmay _).trans (ceStep_halted hhalt hto))).imp
      fun s' ⟨hce, _⟩ => hce
  case resume =>
    refine (completes_debug (c := .resume t p k) hsettled rfl
      ((debug_may (d := (s.dev.at t).disarm p) hmay _).trans (ceResume_halted hhalt))).imp
      fun s' ⟨hce, _⟩ => ?_
    rw [hce]
    exact ⟨hto, rfl, rfl, rfl⟩
  case ignored =>
    intro hmay
    exact (completes_debug (c := .halt t p k) hsettled rfl (debug_may_not (d := (s.dev.at t).disarm p) hmay _)).imp fun s' ⟨hce, _⟩ => hce
  case service =>
    intro hmode hcls hwriter
    have hslot : fld (s.dev.ctx p).slotIdx 0 14 < 16384 := Nat.mod_lt _ (by decide)
    refine completes_of_after (c := .slotValWrite t p v) rfl
      (slotVal_may (t := t) (v := v) hclean.2.2 (slotValMay_service hmode hcls hwriter)) hsettled.1 fun s' h => ?_
    have hmems : s'.mems = (MemOp.slot (fld (s.dev.ctx p).slotIdx 0 14) v
        (((s.attr (fld (s.dev.ctx p).slotIdx 0 14)).tag &&& 0x10) ||| 1)).apply s.mems := by
      rw [h.mems]
      show List.foldl _ _ (s.dev.writes ++ [_]) = _
      rw [hsettled.2]
      rfl
    refine ⟨?_, ?_, fun j hj => ?_⟩
    · rw [State.slot, hmems, word_slot hclean.1.1 hslot]
    · rw [State.attr, hmems, attr_slot hclean.1.1 hslot, if_pos rfl]
      rfl
    · rw [State.attr, hmems, attr_slot hclean.1.1 hslot, if_neg hj]
      rfl
  case outside =>
    intro hmode
    refine completes_of_after (c := .slotValWrite t p v) rfl (slotVal_outside (t := t) (v := v) hmode) hsettled.1 fun s' h => ?_
    exact ⟨h.mems.trans (congrArg (List.foldl _ s.mems) hsettled.2), congrArg CeShared.wrIgn h.ces⟩

end Sys2Proof.Machine
end

section
/-! EMIT (R238, R258, R268, R293). -/

namespace Sys2Proof.Machine

open Sys2Proof

@[simp] theorem Ce.boundary_emitLost (now : Ns) (pc : Nat) (c : Ce) : (c.boundary now pc).emitLost = c.emitLost := by
  obtain ⟨_, _, _, _, _, h⟩ := c.boundary_cases now pc
  rw [h]

@[simp] theorem Ce.boundary_emitLosts (now : Ns) (pc : Nat) (c : Ce) : (c.boundary now pc).emitLosts = c.emitLosts := by
  obtain ⟨_, _, _, _, _, h⟩ := c.boundary_cases now pc
  rw [h]

/-- The list goes on behind an EMIT. -/
def State.emitted (s : State) (k : Fin 8) (s' : State) : Prop := s'.dev.ce[k].pc = s.dev.ce[k].pc + 1 ∧ s'.mems = s.mems

/-- No push of engine `k` was lost. -/
def State.emitKept (s : State) (k : Fin 8) (s' : State) : Prop :=
  s'.dev.ce[k].emitLost = s.dev.ce[k].emitLost ∧ s'.dev.ce[k].emitLosts = s.dev.ce[k].emitLosts

/-- A push of engine `k` was lost, which is flagged and counted. -/
def State.emitMissed (s : State) (k : Fin 8) (s' : State) : Prop :=
  s'.dev.ce[k].emitLost = true ∧ s'.dev.ce[k].emitLosts = s.dev.ce[k].emitLosts + 1

section
variable {s : State} {k : Fin 8} {w : W64} {c : Instr} {kind : Nat} {f : Nat → W64 → Byte → Dev → Dev} {d : Dev}
  (hclean : s.clean) (hat : s.engineAt k w) (hop : fld w 0 8 = 0x39) (hkind : opDst w / 2 ^ 13 % 8 = kind)
  (hexec : exec c s = runAt (stampOf c) (fun e d => d.emitOp e k kind f) s)
include hclean hat hop hkind hexec

/-- An EMIT pushes the value and tag of A, and the next operation follows. -/
theorem completes_emit {P : State → Prop}
    (hpush : f (opDst w % 2 ^ 13) (s.operand k (opA w)).1 (s.operand k (opA w)).2 (s.dev.at (stampOf c)) = d)
    (hflt : d.flt = s.dev.flt) (hwrites : d.writes = s.dev.writes) (hpc : d.ce[k].pc = s.dev.ce[k].pc)
    (hP : ∀ s', Follows s (d.ceNext k 1) s' → s.emitted k s' → s'.dev.ce[k].emitLost = d.ce[k].emitLost →
      s'.dev.ce[k].emitLosts = d.ce[k].emitLosts → P s') : Completes c s P := by
  have hbody : s.after (stampOf c) (fun e d => d.emitOp e k kind f) = d.ceNext k 1 := by
    show Dev.emitOp s.env k kind f (s.dev.at (stampOf c)) = _
    rw [Dev.emitOp, ceOp_at hclean _ hat hop]
    simp only [hkind, ne_eq, not_true_eq_false, if_false, slotReads_clean hclean, List.map_cons, List.map_nil, hpush]
  refine completes_of_after hexec hbody ((congrArg Flt.raised hflt).trans hclean.1.2.1) fun s' h => ?_
  have hce : s'.dev.ce[k] = d.ce[k].boundary d.dtime (d.ce[k].pc + 1) := (congrArg (·[k]) h.ce).trans (upd_same ..)
  have hmems : s'.mems = s.mems := h.mems.trans (congrArg (List.foldl _ s.mems) (hwrites.trans hclean.1.2.2))
  refine hP s' h ⟨?_, hmems⟩ ?_ ?_
  · rw [hce, Ce.boundary_pc, hpc]
  · rw [hce, Ce.boundary_emitLost]
  · rw [hce, Ce.boundary_emitLosts]

/-- A push that arrives changes no engine. -/
theorem completes_push {P : State → Prop}
    (hpush : f (opDst w % 2 ^ 13) (s.operand k (opA w)).1 (s.operand k (opA w)).2 (s.dev.at (stampOf c)) = d)
    (hflt : d.flt = s.dev.flt) (hwrites : d.writes = s.dev.writes) (hce : d.ce = s.dev.ce)
    (hP : ∀ s', Follows s (d.ceNext k 1) s' → P s') : Completes c s fun s' => s.emitted k s' ∧ s.emitKept k s' ∧ P s' :=
  completes_emit hclean hat hop hkind hexec hpush hflt hwrites (by rw [hce]) fun s' h hnext hlost hlosts =>
    ⟨hnext, ⟨by rw [hlost, hce], by rw [hlosts, hce]⟩, hP s' h⟩

/-- A push that is lost. -/
theorem completes_lostPush {P : State → Prop} (hce : d.ce = s.dev.ce)
    (hpush : f (opDst w % 2 ^ 13) (s.operand k (opA w)).1 (s.operand k (opA w)).2 (s.dev.at (stampOf c)) = d.emitLost k)
    (hflt : d.flt = s.dev.flt) (hwrites : d.writes = s.dev.writes)
    (hP : ∀ s', Follows s ((d.emitLost k).ceNext k 1) s' → P s') :
    Completes c s fun s' => s.emitted k s' ∧ P s' ∧ s.emitMissed k s' := by
  have hengine : (d.emitLost k).ce[k] = { s.dev.ce[k] with emitLost := true, emitLosts := s.dev.ce[k].emitLosts + 1 } := by
    simp only [Dev.emitLost, Dev.modCe_ce, upd_same, hce]
  exact completes_emit hclean hat hop hkind hexec hpush hflt hwrites (by rw [hengine]) fun s' h hnext hlost hlosts =>
    ⟨hnext, hP s' h, by rw [hlost, hengine], by rw [hlosts, hengine]⟩

end

/-! ### The targets -/

section
variable {d : Dev} {k : Fin 8} {i : Nat} {v : W64} {g : Byte}

/-- Index 0 of a timer unit is its reload value (R293). -/
theorem emitTimer_reload (hi : i < 40) (hreload : i % 5 = 0) : d.emitTimer i v =
    d.modTmu (Fin.ofNat 8 (i / 5)) fun x => { x with reload := v.setWidth 32, emitAt := some d.dtime } := by
  simp only [Dev.emitTimer, if_neg (Nat.not_le_of_lt hi), if_pos hreload]

/-- A channel with the value of a compare buffer, armed where it is a single-shot (R293). -/
def Chan.loaded (now : Ns) (v : W32) (x : Chan) : Chan :=
  { x with val := v, armed := x.armed || x.mode == 1, emitAt := some now }

/-- The other indices are the compare values of its channels, which fire at once only in a tick's clock (R293). -/
theorem emitTimer_compare (hi : i < 40) (hchannel : i % 5 ≠ 0)
    (htick : d.tmu[Fin.ofNat 8 (i / 5)].tickedAt ≠ some d.dtime)
    (hmode : d.tmu[Fin.ofNat 8 (i / 5)].ch[Fin.ofNat 4 (i % 5 - 1)].mode ≠ 2) : d.emitTimer i v =
    d.modTmu (Fin.ofNat 8 (i / 5)) (Tmu.modCh (Fin.ofNat 4 (i % 5 - 1)) (Chan.loaded d.dtime (v.setWidth 32))) := by
  have hticked (f : Chan → Chan) : (d.modTmu (Fin.ofNat 8 (i / 5)) (Tmu.modCh (Fin.ofNat 4 (i % 5 - 1)) f)).tmu[Fin.ofNat 8
      (i / 5)].tickedAt ≠ some d.dtime := fun h => htick ((congrArg Tmu.tickedAt (upd_same ..)).symm.trans h)
  simp only [Dev.emitTimer, if_neg (Nat.not_le_of_lt hi), if_neg hchannel, Dev.chVal, if_neg hmode, Bool.not_true,
    Bool.false_and, Bool.false_eq_true, if_false, if_true]
  exact if_pos (.inl (hticked _))

theorem emitPio_room (hroom : d.pio[Fin.ofNat 8 i].tx.length < d.pio[Fin.ofNat 8 i].txCap) :
    d.emitPio k i v = d.modPio (Fin.ofNat 8 i) fun x => { x with tx := x.tx ++ [v.setWidth 32] } := by
  simp only [Dev.emitPio, Dev.txPush, if_pos hroom, if_true]

theorem emitPio_full (hfull : ¬d.pio[Fin.ofNat 8 i].tx.length < d.pio[Fin.ofNat 8 i].txCap) :
    d.emitPio k i v = d.emitLost k := by
  simp only [Dev.emitPio, Dev.txPush, if_neg hfull, Bool.false_eq_true, if_false]

theorem emitNote_room (hroom : d.recm.staging.length < 256) : d.emitNote k i v g =
    d.present { type := 11, dtime := d.dtime, body := [put 0 13 i ||| put 16 8 g.toNat ||| put 32 3 k.val, v] } :=
  if_neg (Nat.not_le_of_lt hroom)

theorem emitNote_full (hfull : ¬d.recm.staging.length < 256) : d.emitNote k i v g = d.emitLost k :=
  if_pos (Nat.le_of_not_lt hfull)

/-- The request that an EMIT makes of converter `c` (R258). -/
def Dev.emitRequest (k : Fin 8) (c : Fin 2) (mux osr : Nat) (d : Dev) : UrgReq :=
  { mux := BitVec.ofNat 4 mux, osr := osr, seq := d.cnv[c].nextSeq, at_ := d.dtime, emit := some k }

/-- An urgent request of an EMIT goes behind all that wait (R258, R260). -/
theorem urgent_room {c : Fin 2} (mux osr : Nat) (hon : bit d.cnv[c].cfg 0 = true) (hconv : d.convOn = true)
    (hroom : d.cnv[c].urgQ.length < 4) : (d.urgent c mux osr d.dtime (some k)).2.2.2 = d.modCnv c fun x =>
      { x with nextSeq := x.nextSeq + 1, urgQ := d.cnv[c].urgQ ++ [d.emitRequest k c mux osr] } := by
  have htaken : d.cnv[c].urgQ.takeWhile (fun _ => true) = d.cnv[c].urgQ := by simp
  have hleft : d.cnv[c].urgQ.dropWhile (fun _ => true) = [] := by simp
  have hopen : ¬(4 ≤ d.cnv[c].urgQ.length ∨ bit d.cnv[c].cfg 0 = false ∨ d.convOn = false) := by
    simp [hon, hconv, hroom, -Fin.getElem_fin]
  have hfits : (d.cnv[c].urgQ ++ [d.emitRequest k c mux osr]).length ≤ 4 := by
    rw [List.length_append, List.length_singleton]
    exact hroom
  have hnone : (d.cnv[c].urgQ ++ [d.emitRequest k c mux osr])[4]? = none := List.getElem?_eq_none hfits
  simp only [Dev.urgent, Option.isSome_some, Bool.true_or, htaken, hleft, if_neg hopen, List.map_nil, List.length_nil,
    BitVec.ofNat_eq_ofNat, BitVec.sub_zero]
  rw [← Dev.emitRequest, hnone, List.take_of_length_le hfits]
  simp only [Dev.modCnv, upd_upd]

/-- A converter that has lost an urgent request (R258). -/
def Cnv.missed (x : Cnv) : Cnv := { x with urgLost := true, urgLosts := x.urgLosts + 1 }

/-- An urgent request of an EMIT is lost where four wait (R258). -/
theorem urgent_full {c : Fin 2} (mux osr : Nat) (hfull : ¬d.cnv[c].urgQ.length < 4) :
    (d.urgent c mux osr d.dtime (some k)).2.2.2 = (d.modCnv c Cnv.missed).emitLost k := by
  have htaken : d.cnv[c].urgQ.takeWhile (fun _ => true) = d.cnv[c].urgQ := by simp
  simp only [Dev.urgent, Option.isSome_some, Bool.true_or, htaken, if_pos (Or.inl (Nat.le_of_not_lt hfull))]
  rfl

/-- Inputs below 14 need no permit bit. -/
theorem emitUrgent_plain (hmux : fld v 0 4 < 14) (hosr : fld v 4 4 ≤ 8) : d.emitUrgent k i v =
    (d.urgent (Fin.ofNat 2 i) (fld v 0 4) (fld v 4 4) d.dtime (some k)).2.2.2 := by
  have h14 : (fld v 0 4 == 14) = false := by simpa using Nat.ne_of_lt hmux
  have h15 : (fld v 0 4 == 15) = false := by simpa using Nat.ne_of_lt (Nat.lt_succ_of_lt hmux)
  simp only [Dev.emitUrgent, h14, h15, Bool.false_and, Bool.or_self, Bool.false_eq_true, if_false, Nat.min_eq_right hosr]

end

/-- Settles O41: a push arrives (`completes_push`) or is lost (`completes_lostPush`), as the equation of its target says. -/
theorem engineEmit : Obligations.EngineEmit := by
  unfold Obligations.EngineEmit
  intro s k w t hclean hat hop a kind i next kept lost
  refine ⟨?signal, ?reload, ?compare, ?queue, ?note, ?urgent⟩
  case signal =>
    intro hkind
    refine completes_push (c := .emitCanSignal t k) (f := fun n v g d => d.emitSignal n v g) hclean hat hop hkind rfl
      rfl rfl rfl rfl fun s' h => ?_
    have hemits : s'.dev.can[Fin.ofNat 4 (i / 2048)].emits = (i % 2048, a.1, a.2) :: _ :=
      (congrArg (·[Fin.ofNat 4 (i / 2048)].emits) h.can).trans (congrArg Can.emits (upd_same ..))
    rw [hemits]
    exact List.find?_cons_of_pos (beq_self_eq_true _)
  case reload =>
    intro hkind hi hreload
    refine completes_push (c := .emitTimerBuffer t k) (f := fun n v _ d => d.emitTimer n v) hclean hat hop hkind rfl
      (emitTimer_reload hi hreload) rfl rfl rfl fun s' h => ?_
    exact (congrArg (·[Fin.ofNat 8 (i / 5)].reload) h.tmu).trans (congrArg Tmu.reload (upd_same ..))
  case compare =>
    intro hkind hi hchannel htick hmode
    refine completes_push (c := .emitTimerBuffer t k) (f := fun n v _ d => d.emitTimer n v) hclean hat hop hkind rfl
      (emitTimer_compare (d := s.dev.at t) hi hchannel htick hmode) rfl rfl rfl fun s' h => ?_
    have hunit : s'.dev.tmu[Fin.ofNat 8 (i / 5)] = _ := (congrArg (·[Fin.ofNat 8 (i / 5)]) h.tmu).trans (upd_same ..)
    exact (congrArg (fun u : Tmu => u.ch[Fin.ofNat 4 (i % 5 - 1)].val) hunit).trans (congrArg Chan.val (upd_same ..))
  case queue =>
    intro hkind
    by_cases hroom : s.dev.pio[Fin.ofNat 8 i].tx.length < s.dev.pio[Fin.ofNat 8 i].txCap
    · refine (completes_push (c := .emitPioQueue t k) (f := fun n v _ d => d.emitPio k n v) hclean hat hop hkind rfl
        (P := fun s' => s'.dev.pio[Fin.ofNat 8 i].tx = s.dev.pio[Fin.ofNat 8 i].tx ++ [a.1.setWidth 32])
        (emitPio_room (d := s.dev.at t) hroom) rfl rfl rfl fun s' h => ?_).imp fun s' ⟨hnext, hkept, htx⟩ =>
          ⟨hnext, (if_pos hroom).mpr ⟨htx, hkept⟩⟩
      exact (congrArg (·[Fin.ofNat 8 i].tx) h.pio).trans (congrArg Pio.tx (upd_same ..))
    · exact (completes_lostPush (c := .emitPioQueue t k) (f := fun n v _ d => d.emitPio k n v) hclean hat hop hkind rfl
        (P := fun s' => s'.dev.pio[Fin.ofNat 8 i] = s.dev.pio[Fin.ofNat 8 i]) (d := s.dev.at t) rfl
        (emitPio_full (d := s.dev.at t) hroom) rfl rfl fun s' h => congrArg (·[Fin.ofNat 8 i]) h.pio).imp
          fun s' ⟨hnext, hpio, hlost⟩ => ⟨hnext, (if_neg hroom).mpr ⟨hpio, hlost⟩⟩
  case note =>
    intro hkind
    by_cases hroom : s.dev.recm.staging.length < 256
    · exact (completes_push (c := .emitNote t k) (f := fun n v g d => d.emitNote k n v g) hclean hat hop hkind rfl
        (emitNote_room (d := s.dev.at t) hroom) rfl rfl rfl fun s' h => congrArg RecM.staging h.recm).imp
          fun s' ⟨hnext, hkept, hstaging⟩ => ⟨hnext, (if_pos hroom).mpr ⟨hkept, hstaging⟩⟩
    · exact (completes_lostPush (c := .emitNote t k) (f := fun n v g d => d.emitNote k n v g) hclean hat hop hkind rfl
        (P := fun s' => s'.dev.recm = s.dev.recm) (d := s.dev.at t) rfl
        (emitNote_full (d := s.dev.at t) hroom) rfl rfl fun s' h => h.recm).imp
          fun s' ⟨hnext, hrecm, hlost⟩ => ⟨hnext, (if_neg hroom).mpr ⟨hrecm, hlost⟩⟩
  case urgent =>
    intro hkind hi hmux hosr hon hconv
    have hplain := emitUrgent_plain (d := s.dev.at t) (k := k) (i := i) hmux hosr
    by_cases hroom : s.dev.cnv[Fin.ofNat 2 i].urgQ.length < 4
    · exact (completes_push (c := .emitUrgent t k) (f := fun n v _ d => d.emitUrgent k n v) hclean hat hop hkind rfl
        (hplain.trans (urgent_room (d := s.dev.at t) _ _ hon hconv hroom)) rfl rfl rfl
        fun s' h => (congrArg (·[Fin.ofNat 2 i].urgQ) h.cnv).trans (congrArg Cnv.urgQ (upd_same ..))).imp
          fun s' ⟨hnext, hkept, hqueue⟩ => ⟨hnext, (if_pos hroom).mpr ⟨hkept, hqueue⟩⟩
    · exact (completes_lostPush (c := .emitUrgent t k) (f := fun n v _ d => d.emitUrgent k n v) hclean hat hop hkind rfl
        (P := fun s' => s'.dev.cnv[Fin.ofNat 2 i].urgQ = s.dev.cnv[Fin.ofNat 2 i].urgQ)
        (d := (s.dev.at t).modCnv (Fin.ofNat 2 i) Cnv.missed) rfl
        (hplain.trans (urgent_full (d := s.dev.at t) _ _ hroom)) rfl rfl
        fun s' h => (congrArg (·[Fin.ofNat 2 i].urgQ) h.cnv).trans (congrArg Cnv.urgQ (upd_same ..))).imp
          fun s' ⟨hnext, hqueue, hlost⟩ => ⟨hnext, (if_neg hroom).mpr ⟨hqueue, hlost⟩⟩

end Sys2Proof.Machine
end

section
/-! What hardware starts and notes besides its own unit's state: the calculation triggers of a kind (R242, R244), and an ADC
record (R268, R273). -/

namespace Sys2Proof.Machine

open Sys2Proof

/-! ### Triggers (R242, R244) -/

/-- Trigger entry `i` of engine `k` is of a kind and names a source that answers. -/
abbrev Dev.fires (kind : Nat) (src : Nat → Bool) (k : Fin 8) (i : Nat) (d : Dev) : Prop :=
  fld (d.trigWord k i) 0 3 = kind ∧ src (fld (d.trigWord k i) 3 13) = true

/-- The trigger that entry `i` of engine `k` puts into the queue. -/
def Dev.trigOf (k : Fin 8) (i : Nat) (d : Dev) : Trigger :=
  { list := fld (d.trigWord k i) 16 13, entry := i, arrival := d.dtime, deadline := fld (d.trigWord k i) 32 16 * 1000 }

/-- The queue of engine `k` with a trigger in its place (R244). -/
def Dev.insertTrig (k : Fin 8) (x : Trigger) (d : Dev) : List Trigger :=
  d.ce[k].queue.takeWhile (fun y => d.trigBefore k y x) ++ x :: d.ce[k].queue.dropWhile fun y => d.trigBefore k y x

/-- What `fire` does with one entry. -/
def Dev.fireEntry (kind : Nat) (src : Nat → Bool) (k : Fin 8) (d : Dev) (i : Nat) : Dev :=
  if d.fires kind src k i then d.trigger k (fld (d.trigWord k i) 16 13) i (fld (d.trigWord k i) 32 16) d.dtime else d

/-- Triggers that arrive leave an engine's queue and its high-water mark changed. -/
def Ce.queued (q : List Trigger) (n : Nat) (c : Ce) : Ce := { c with queue := q, qhwm := n }

/-- The engines take triggers (R245). -/
def Dev.takes (k : Fin 8) (d : Dev) : Prop := d.sup.mode.engines = true ∧ bit d.ce[k].cfg 0 = true

section
variable {d : Dev} {k : Fin 8} {kind : Nat} {src : Nat → Bool}

theorem fire_eq : d.fire kind src =
    (List.finRange 8).foldl (fun d k => (List.range 32).foldl (Dev.fireEntry kind src k) d) d := rfl

theorem Dev.modCe_modCe (f g : Ce → Ce) : (d.modCe k f).modCe k g = d.modCe k fun c => g (f c) := by
  simp only [Dev.modCe, upd_upd]

theorem Dev.modCe_self (f : Ce → Ce) (h : f d.ce[k] = d.ce[k]) : d.modCe k f = d :=
  (Dev.modCe_congr (g := fun c => c) h).trans (Dev.modCe_id k d)

theorem insertTrig_length (x : Trigger) : (d.insertTrig k x).length = d.ce[k].queue.length + 1 := by
  have hsplit := congrArg List.length (List.takeWhile_append_dropWhile (p := fun y => d.trigBefore k y x) (l := d.ce[k].queue))
  simp only [Dev.insertTrig, List.length_append, List.length_cons] at hsplit ⊢
  omega

theorem mem_insertTrig {x z : Trigger} : z ∈ d.insertTrig k x ↔ z = x ∨ z ∈ d.ce[k].queue := by
  have hsplit := List.takeWhile_append_dropWhile (p := fun y => d.trigBefore k y x) (l := d.ce[k].queue)
  have hmem := List.mem_append (a := z) (s := d.ce[k].queue.takeWhile fun y => d.trigBefore k y x)
    (t := d.ce[k].queue.dropWhile fun y => d.trigBefore k y x)
  rw [hsplit] at hmem
  rw [hmem, Dev.insertTrig, List.mem_append, List.mem_cons]
  tauto

/-- An entry leaves at most its engine's queue changed; where the queue has room, it is longer by the one trigger. -/
theorem fireEntry_queued (i : Nat) (hroom : d.fires kind src k i → d.ce[k].queue.length < 16) : ∃ q n,
    Dev.fireEntry kind src k d i = d.modCe k (Ce.queued q n) ∧ d.ce[k].queue ⊆ q ∧
    q.length ≤ d.ce[k].queue.length + (if d.fires kind src k i then 1 else 0) ∧
    (d.fires kind src k i → d.takes k → d.trigOf k i ∈ q) := by
  have hstay : d = d.modCe k (Ce.queued d.ce[k].queue d.ce[k].qhwm) := (Dev.modCe_self _ rfl).symm
  by_cases hfires : d.fires kind src k i
  · by_cases htakes : d.takes k
    · have hlen := insertTrig_length (d := d) (k := k) (d.trigOf k i)
      have hfits : (d.insertTrig k (d.trigOf k i)).length ≤ 16 := hlen ▸ hroom hfires
      refine ⟨d.insertTrig k (d.trigOf k i), max d.ce[k].qhwm (min 16 (d.insertTrig k (d.trigOf k i)).length), ?_,
        fun z hz => mem_insertTrig.mpr (.inr hz), ?_, fun _ _ => mem_insertTrig.mpr (.inl rfl)⟩
      · have hopen : (!d.sup.mode.engines || !bit d.ce[k].cfg 0) = false := by rw [htakes.1, htakes.2]; rfl
        rw [Dev.fireEntry, if_pos hfires, Dev.trigger, hopen]
        refine (if_neg Bool.false_ne_true).trans ((if_neg (Nat.not_lt_of_le hfits)).trans (Dev.modCe_congr ?_))
        exact congrArg (fun l => Ce.queued l _ _) (List.take_of_length_le hfits)
      · rw [if_pos hfires, hlen]
    · refine ⟨_, _, Eq.trans ?_ hstay, List.Subset.refl _, Nat.le_add_right _ _, fun _ h => absurd h htakes⟩
      rw [Dev.fireEntry, if_pos hfires]
      refine if_pos ?_
      simpa [Dev.takes, imp_iff_not_or, -Fin.getElem_fin] using htakes
  · exact ⟨_, _, (if_neg hfires).trans hstay, List.Subset.refl _, Nat.le_add_right _ _, fun h => absurd h hfires⟩

/-- The entries of one engine, while the queue has room for all that fire. -/
theorem fireEntries_queued (l : List Nat) {d : Dev}
    (hroom : d.ce[k].queue.length + l.countP (fun i => d.fires kind src k i) ≤ 16) : ∃ q n,
    l.foldl (Dev.fireEntry kind src k) d = d.modCe k (Ce.queued q n) ∧ d.ce[k].queue ⊆ q ∧
    ∀ i ∈ l, d.fires kind src k i → d.takes k → d.trigOf k i ∈ q := by
  induction l generalizing d with
  | nil => exact ⟨_, _, (Dev.modCe_self _ rfl).symm, List.Subset.refl _, nofun⟩
  | cons i l ih =>
    simp only [List.countP_cons, decide_eq_true_eq] at hroom
    obtain ⟨q, n, hfirst, hkept, hlen, hmem⟩ := fireEntry_queued (d := d) (k := k) (kind := kind) (src := src) i
      fun h => by rw [if_pos h] at hroom; omega
    have hcell : (d.modCe k (Ce.queued q n)).ce[k] = Ce.queued q n d.ce[k] := upd_same ..
    have hbound : q.length + l.countP (fun i => d.fires kind src k i) ≤ 16 := by omega
    obtain ⟨q', n', hrest, hkept', hmem'⟩ := ih (d := d.modCe k (Ce.queued q n)) (by rw [hcell]; exact hbound)
    rw [hcell] at hkept'
    refine ⟨q', n', ?_, List.Subset.trans hkept hkept', fun j hj hfires htakes => ?_⟩
    · rw [List.foldl_cons, hfirst, hrest, Dev.modCe_modCe]
      rfl
    · obtain rfl | hj := List.mem_cons.mp hj
      · exact hkept' (hmem hfires htakes)
      · exact hmem' j hj hfires ⟨htakes.1, by rw [hcell]; exact htakes.2⟩

/-- The engines of a list without repetition, each with room for all that fire. -/
theorem fireEngines_queued (l : List (Fin 8)) (hnodup : l.Nodup) {d : Dev}
    (hroom : ∀ k ∈ l, d.ce[k].queue.length + (List.range 32).countP (fun i => d.fires kind src k i) ≤ 16) :
    ∃ ce : Vector Ce 8, l.foldl (fun d k => (List.range 32).foldl (Dev.fireEntry kind src k) d) d = { d with ce := ce } ∧
    (∀ k, k ∉ l → ce[k] = d.ce[k]) ∧
    ∀ k ∈ l, ∀ i, i < 32 → d.fires kind src k i → d.takes k → d.trigOf k i ∈ ce[k].queue := by
  induction l generalizing d with
  | nil => exact ⟨d.ce, rfl, fun _ _ => rfl, nofun⟩
  | cons k l ih =>
    obtain ⟨haway, hnodup⟩ := List.nodup_cons.mp hnodup
    obtain ⟨q, n, hfirst, -, hmem⟩ := fireEntries_queued (List.range 32) (hroom k List.mem_cons_self)
    have hother (j : Fin 8) (hj : j ≠ k) : (d.modCe k (Ce.queued q n)).ce[j] = d.ce[j] := upd_other _ _ _ _ hj
    obtain ⟨ce, hrest, hkept, hmem'⟩ := ih hnodup (d := d.modCe k (Ce.queued q n)) fun j hj => by
      rw [hother j (ne_of_mem_of_not_mem hj haway)]
      exact hroom j (List.mem_cons_of_mem _ hj)
    refine ⟨ce, ?_, fun j hj => ?_, fun j hj i hi hfires htakes => ?_⟩
    · rw [List.foldl_cons, hfirst, hrest]
      rfl
    · obtain ⟨hjk, hjl⟩ := not_or.mp (mt List.mem_cons.mpr hj)
      exact (hkept j hjl).trans (hother j hjk)
    · by_cases hjk : j = k
      · subst hjk
        rw [hkept j haway]
        exact (congrArg (fun c : Ce => d.trigOf j i ∈ c.queue) (upd_same ..)).mpr (hmem i (List.mem_range.mpr hi) hfires htakes)
      · exact hmem' j ((List.mem_cons.mp hj).resolve_left hjk) i hi hfires ⟨htakes.1, by rw [hother j hjk]; exact htakes.2⟩

end

/-- Triggers of one kind, while every queue has room for them, leave the queues alone changed, with each in its engine's. -/
theorem fire_room {s : State} {d : Dev} {kind : Nat} (hroom : s.room [kind]) (hce : d.ce = s.dev.ce) (hces : d.ces = s.dev.ces)
    (src : Nat → Bool) : ∃ ce : Vector Ce 8, d.fire kind src = { d with ce := ce } ∧
    ∀ k i, i < 32 → d.fires kind src k i → d.takes k → d.trigOf k i ∈ ce[k].queue := by
  have hword (k : Fin 8) (i : Nat) : d.trigWord k i = s.dev.trigWord k i := by simp only [Dev.trigWord, hces]
  obtain ⟨ce, hfire, -, hmem⟩ := fireEngines_queued (kind := kind) (src := src) (List.finRange 8) (List.nodup_finRange 8)
    (d := d) fun k _ => by
      have hfew : (List.range 32).countP (fun i => d.fires kind src k i) ≤ s.dev.entriesOf k [kind] := by
        rw [Dev.entriesOf, ← List.countP_eq_length_filter]
        refine List.countP_mono_left fun i _ h => ?_
        have hkind := (of_decide_eq_true h).1
        rw [hword] at hkind
        simpa using hkind
      rw [hce]
      exact (Nat.add_le_add_left hfew _).trans (hroom k)
  exact ⟨ce, fire_eq.trans hfire, fun k i hi => hmem k (List.mem_finRange k) i hi⟩

/-! ### ADC records (R268, R273) -/

theorem Rec.mem_insert (r : Rec) (l : List Rec) : r ∈ Rec.insert r l := by
  induction l with
  | nil => exact List.mem_singleton.mpr rfl
  | cons x l ih =>
    rw [Rec.insert]
    split
    · exact List.mem_cons_self
    · exact List.mem_cons_of_mem _ ih

/-- `z` is an ADC record of a form, stamped `time` and presented at `now`. -/
structure Rec.IsAdc (z : Rec) (form : Byte) (time now : Ns) : Prop where
  type : z.type = 6
  form : z.tflags = form
  dtime : z.dtime = time
  pres : z.pres = now

/-- An ADC record of a result enters staging. -/
theorem adcRecord_staged (form : Byte) (c : Fin 2) (r : CnvResult) (entry osr seq : Nat) (d : Dev) : ∃ recm,
    d.adcRecord form c r entry osr seq = d.modRecm (fun _ => recm) ∧ ∃ z ∈ recm.staging, z.IsAdc form r.time d.dtime :=
  ⟨_, rfl, _, Rec.mem_insert .., rfl, rfl, rfl, rfl⟩

end Sys2Proof.Machine
end

section
/-! The converters: what a command on them may change, what every result does (R251, R256, R261, R262, R264, R265), and the
slots that become stale (R262). -/

namespace Sys2Proof.Machine

open Sys2Proof

/-! ### Completion -/

/-- A device that differs from that of `s` in DTIME, selects, converters, engines and records alone is `s` in every other
part. -/
theorem Group.same_converted (s : State) {l : List Group} {τ : Ns} {paths : Vector PathCtx 7} {cnv : Vector Cnv 2}
    {cnvs : CnvShared} {ce : Vector Ce 8} {recm : RecM} (hconv : .conv ∈ l) (hpaths : .paths ∈ l ∨ paths = s.dev.paths)
    (hce : .calc ∈ l ∨ ce = s.dev.ce) (hrecm : .recs ∈ l ∨ recm = s.dev.recm) (g : Group) (hg : g ∉ l) :
    g.same s { s with dev := { s.dev with dtime := τ, paths := paths, cnv := cnv, cnvs := cnvs, ce := ce, recm := recm } } := by
  have hrefl := g.same_refl s
  match g with
  | .conv => exact absurd hconv hg
  | .paths => exact hpaths.resolve_left hg
  | .calc => exact ⟨hce.resolve_left hg, rfl⟩
  | .recs => exact hrecm.resolve_left hg
  | .pos | .adm | .loft | .banks | .bst | .pfi | .ign | .gate | .diag | .snap | .tmu | .pio | .can | .rope | .twp | .nvi | .sup
  | .flt | .memu | .mems => exact hrefl

/-- A command on a converter: what its body leaves of converters, engines and records, the writes `ws`, and its frame. -/
theorem completes_conv {s : State} {i : Instr} {body : Env → Dev → Dev} {τ : Ns} {paths : Vector PathCtx 7}
    {cnv : Vector Cnv 2} {cnvs : CnvShared} {ce : Vector Ce 8} {recm : RecM} {ws : List MemOp} (l : List Group)
    (hsettled : s.dev.settled) (hexec : exec i s = runAt (stampOf i) body s)
    (hbody : s.after (stampOf i) body = { s.dev with
      dtime := τ, paths := paths, cnv := cnv, cnvs := cnvs, ce := ce, recm := recm, writes := ws })
    (hconv : .conv ∈ l := by simp) (hmems : .mems ∈ l ∨ ws = [] := by simp)
    (hpaths : .paths ∈ l ∨ paths = s.dev.paths := by exact .inr rfl)
    (hce : .calc ∈ l ∨ ce = s.dev.ce := by exact .inr rfl)
    (hrecm : .recs ∈ l ∨ recm = s.dev.recm := by exact .inr rfl) :
    Completes i s fun s' => s'.dev.cnv = cnv ∧ s'.dev.cnvs = cnvs ∧ s'.dev.ce = ce ∧ s'.dev.recm = recm ∧
      s'.mems = ws.foldl (fun m w => w.apply m) s.mems ∧ s.touches l s' := by
  refine completes_of_after hexec hbody hsettled.1 fun s' h => ⟨h.cnv, h.cnvs, h.ce, h.recm, h.mems, ?_⟩
  have hsame := Group.same_converted s (τ := τ) (cnv := cnv) (cnvs := cnvs) hconv hpaths hce hrecm
  obtain hmems | rfl := hmems
  · refine (h.touches_mems (l := l) hsettled.1 fun g hg => ?_).mono (by simpa using hmems)
    rw [← hsettled.2]
    exact hsame g hg
  · refine h.touches hsettled.1 rfl fun g hg => ?_
    rw [← hsettled.2]
    exact hsame g hg

/-- A command on a converter that writes nothing. -/
theorem completes_conv_quiet {s : State} {i : Instr} {body : Env → Dev → Dev} {τ : Ns} {paths : Vector PathCtx 7}
    {cnv : Vector Cnv 2} {cnvs : CnvShared} (l : List Group)
    (hsettled : s.dev.settled) (hexec : exec i s = runAt (stampOf i) body s)
    (hbody : s.after (stampOf i) body = { s.dev with dtime := τ, paths := paths, cnv := cnv, cnvs := cnvs })
    (hconv : .conv ∈ l := by simp) (hpaths : .paths ∈ l ∨ paths = s.dev.paths := by exact .inr rfl) :
    Completes i s fun s' => s'.dev.cnv = cnv ∧ s'.dev.cnvs = cnvs ∧ s'.mems = s.mems ∧ s.touches l s' := by
  have hnil := congrArg (fun ws => { s.dev with dtime := τ, paths := paths, cnv := cnv, cnvs := cnvs, writes := ws }) hsettled.2
  exact (completes_conv l hsettled hexec (hbody.trans hnil) hconv (.inr rfl) hpaths).imp
    fun s' ⟨hcnv, hcnvs, _, _, hmems, htouches⟩ => ⟨hcnv, hcnvs, hmems, htouches⟩

/-! ### What every result does -/

/-- Slot `i` is an input slot of hardware (R224, R261). -/
abbrev State.inputSlot (s : State) (i : Nat) : Prop := i < 16384 ∧ (s.attr i).cls = 1 ∧ (s.attr i).writer = 8

/-- The write of a result to its slot, if it has one (R261, R262). -/
def State.delivered (s : State) (r : CnvResult) (slot : Option Nat) : List MemOp :=
  slot.toList.map fun i => .slot i r.slotWord (r.slotTag ||| ((s.attr i).tag &&& 0x10))

/-- The converter counts a result that is over range (R252). -/
def Cnv.counted (r : CnvResult) (x : Cnv) : Cnv :=
  { x with ovrSeen := x.ovrSeen || r.ovr, ovrs := x.ovrs + if r.ovr then 1 else 0 }

/-- Converter `c` changed by `f`, and writes `ws` added to those of the command. -/
def Dev.converts (c : Fin 2) (f : Cnv → Cnv) (ws : List MemOp) (d : Dev) : Dev := { d.modCnv c f with writes := d.writes ++ ws }

section
variable {d : Dev} {c : Fin 2} {r : CnvResult}

theorem Dev.converts_settled {f : Cnv → Cnv} {ws : List MemOp} (h : d.writes = []) :
    d.converts c f ws = { d.modCnv c f with writes := ws } := by
  simp only [Dev.converts, h, List.nil_append]

theorem Dev.converts_cnv {f : Cnv → Cnv} {ws : List MemOp} : (d.converts c f ws).cnv[c] = f d.cnv[c] := upd_same ..

theorem Dev.modCnv_congr {f g : Cnv → Cnv} (h : f d.cnv[c] = g d.cnv[c]) : d.modCnv c f = d.modCnv c g := by
  simp only [Dev.modCnv, upd_congr h]

theorem Dev.modCnv_modCnv (f g : Cnv → Cnv) : (d.modCnv c f).modCnv c g = d.modCnv c fun x => g (f x) := by
  simp only [Dev.modCnv, upd_upd]

theorem Dev.converts_modCnv (f g : Cnv → Cnv) (ws : List MemOp) :
    (d.converts c f ws).modCnv c g = d.converts c (fun x => g (f x)) ws := by
  simp only [Dev.converts, Dev.modCnv, upd_upd]

theorem Dev.modCnv_same (f : Cnv → Cnv) : (d.modCnv c f).cnv[c] = f d.cnv[c] := upd_same ..

/-- Inputs 12, 13 and 15 alone are checked (R264, R265). -/
theorem checks_plain (hmux : r.mux.toNat < 12) : (d.crossCheck c r).refCheck c r = d := by
  have hne (n : BitVec 4) (hn : 12 ≤ n.toNat) : r.mux ≠ n := fun h => Nat.not_lt_of_le hn (h ▸ hmux)
  have hcross : d.crossCheck c r = d := if_pos ⟨hne 12 (by decide), hne 13 (by decide)⟩
  rw [hcross]
  exact if_pos (hne 15 (by decide))

theorem Dev.modCnv_when (p : Prop) [Decidable p] (f : Cnv → Cnv) :
    (if p then d.modCnv c f else d) = d.modCnv c fun x => if p then f x else x := by
  by_cases hp : p
  · simp only [if_pos hp]
  · simp [hp, Dev.modCnv, upd]

theorem counted_eq : (if r.ovr then d.modCnv c fun x => { x with ovrSeen := true, ovrs := x.ovrs + 1 } else d) =
    d.modCnv c (Cnv.counted r) := by
  rw [Dev.modCnv_when]
  refine Dev.modCnv_congr ?_
  cases hovr : r.ovr <;> simp [Cnv.counted, hovr]

/-- A result of an input below 12 is counted, and written to the input slot that is its own. -/
theorem deliver_plain {s : State} {slot : Option Nat} (hdead : d.memu.deadTags = []) (hmux : r.mux.toNat < 12)
    (hslot : ∀ i ∈ slot, s.inputSlot i) : d.deliver s.env c r slot = d.converts c (Cnv.counted r) (s.delivered r slot) := by
  simp only [Dev.deliver, checks_plain hmux, counted_eq]
  cases slot with
  | none => simp [Dev.converts, State.delivered, Dev.modCnv]
  | some i =>
    obtain ⟨hi, hinput⟩ := hslot i rfl
    have hdead' : (d.modCnv c (Cnv.counted r)).tagDead i = false := Dev.tagDead_clean hdead i
    simp only [Dev.hwSlot, if_neg (Nat.not_le_of_lt hi), hdead', Bool.false_eq_true, if_false]
    exact if_pos hinput

end

/-! ### The code of a result (R251) -/

/-- The factory trim of converter `c`. -/
abbrev State.trim (s : State) (c : Fin 2) : W64 := if c = 0 then s.fuses.trimA else s.fuses.trimB

section
variable {s : State} {t sample : Ns} {c : Fin 2} {mux osr : Nat} {raw : BitVec 24} {ovr : Bool} {src : IntSources} {r : CnvResult}

/-- An input below 12 reports its own voltage, trimmed. -/
theorem cnvResult_at (hmux : mux < 12) :
    (s.dev.at t).cnvResult mux osr sample (Dev.cnvCode s.env (s.dev.at t) c mux ⟨raw, src⟩) ovr =
    s.dev.cnvResult mux osr sample (trimmed (s.trim c) raw) ovr := by
  rw [Dev.cnvCode, if_neg (Nat.ne_of_lt (Nat.lt_trans hmux (by decide)))]
  rfl

theorem cnvResult_mux {d : Dev} {code : BitVec 24} (hmux : mux < 12) : (d.cnvResult mux osr sample code ovr).mux.toNat < 12 := by
  simpa [Dev.cnvResult] using Nat.lt_of_le_of_lt (Nat.mod_le ..) hmux

/-- A result delivered by a converter that has been changed by `f`. -/
theorem deliver_at {slot : Option Nat} (f : Cnv → Cnv) (hclean : s.clean) (hmux : r.mux.toNat < 12)
    (hown : ∀ i ∈ slot, s.inputSlot i) : ((s.dev.at t).modCnv c f).deliver s.env c r slot =
      (s.dev.at t).converts c (fun x => (f x).counted r) (s.delivered r slot) := by
  rw [deliver_plain (d := (s.dev.at t).modCnv c f) hclean.2.2 hmux hown, Dev.converts, Dev.modCnv_modCnv]
  rfl

end

/-! ### The slot of a result -/

theorem mem_slot_iff {b : Bool} {i j : Nat} : j ∈ (if b then some i else none) ↔ b = true ∧ i = j := by
  cases b <;> simp

theorem slotTag_eq (r : CnvResult) (g : Byte) : r.slotTag ||| (g &&& 0x10) =
    (if r.unset then 0 else 1) ||| (if r.ovr then 4 else 0) ||| (g &&& 0x10) := by
  have hbits : r.slotTag = (if r.unset then 0 else 1) ||| (if r.ovr then 4 else 0) := by
    unfold CnvResult.slotTag
    cases r.unset <;> cases r.ovr <;> decide
  rw [hbits]

/-- The slot that a result has been delivered to. -/
theorem delivered_slot {s s' : State} {r : CnvResult} {i : Nat} (hwf : s.mems.wf = true) (hslot : s.inputSlot i)
    (hmems : s'.mems = (s.delivered r (some i)).foldl (fun m w => w.apply m) s.mems) :
    s'.slot i = BitVec.ofNat 64 (r.code.toNat * 5 * 256) ∧ s'.attr i = { s.attr i with
      tag := (if r.unset then 0 else 1) ||| (if r.ovr then 4 else 0) ||| ((s.attr i).tag &&& 0x10) } := by
  have happly : s'.mems = (MemOp.slot i r.slotWord (r.slotTag ||| ((s.attr i).tag &&& 0x10))).apply s.mems := hmems
  constructor
  · rw [State.slot, happly, word_slot hwf hslot.1]
    rfl
  · rw [← slotTag_eq, State.attr, happly, attr_slot hwf hslot.1, if_pos rfl]
    rfl

/-! ### Stale slots (R226, R262) -/

/-- Tag of an input slot whose source stops. -/
def SlotAttr.staled (a : SlotAttr) : SlotAttr := { a with tag := (a.tag ||| 2) &&& 0xFE }

theorem staled_staled (a : SlotAttr) : a.staled.staled = a.staled := by
  have htag : ((a.tag ||| 2) &&& 0xFE ||| 2) &&& 0xFE = (a.tag ||| 2) &&& 0xFE := by
    ext j hj
    simp only [BitVec.getElem_and, BitVec.getElem_or]
    exact (by decide : ∀ x u v : Bool, (((x || u) && v || u) && v) = ((x || u) && v)) _ _ _
  exact congrArg (fun g => { a with tag := g }) htag

/-- The writes of slots that become stale. -/
def stales (l : List Nat) : List MemOp := (l.filter (· < 16384)).map .stale

/-- While no tag is damaged, every slot of a list becomes stale. -/
theorem foldl_staleSlot (l : List Nat) {d : Dev} (hdead : d.memu.deadTags = []) :
    l.foldl (fun d i => d.staleSlot i) d = { d with writes := d.writes ++ stales l } := by
  induction l generalizing d with
  | nil => simp [stales]
  | cons i l ih =>
    rw [List.foldl_cons]
    by_cases hi : i < 16384
    · have hfirst : d.staleSlot i = d.write (.stale i) := by
        simp [Dev.staleSlot, Nat.not_le_of_lt hi, Dev.tagDead_clean hdead]
      rw [hfirst, ih (d := d.write (.stale i)) hdead]
      simp [stales, hi, Dev.write]
    · have hfirst : d.staleSlot i = d := if_pos (Nat.le_of_not_lt hi)
      rw [hfirst, ih hdead]
      simp [stales, hi]

theorem stales_sram (l : List Nat) (m : Mems) : ((stales l).foldl (fun m w => w.apply m) m).sram = m.sram := by
  unfold stales
  induction l.filter (· < 16384) generalizing m with
  | nil => rfl
  | cons i l ih =>
    rw [List.map_cons, List.foldl_cons, ih, MemOp.apply_sram, MemOp.put]
    exact (apply_ite Mems.sram ..).trans (ite_self _)

theorem stales_word (l : List Nat) (m : Mems) (a : Nat) : ((stales l).foldl (fun m w => w.apply m) m).word a = m.word a := by
  simp only [Mems.word, Mems.bytes, Mems.byte, stales_sram]

/-- Making another slot stale, or one that is no input slot, leaves a slot's attributes. -/
theorem attr_stale_other {m : Mems} (hwf : m.wf = true) {i j : Nat} (hij : j ≠ i) :
    sget {} ((MemOp.stale i).apply m).attrs j = sget {} m.attrs j := by
  by_cases hslot : i < 16384 ∧ (sget {} m.attrs i).cls = 1 ∧ (sget {} m.attrs i).writer = 8
  · rw [attr_stale hwf hslot.1 hslot.2.1 hslot.2.2, if_neg hij]
  · rw [MemOp.apply_attrs, MemOp.put]
    simp only [if_neg hslot]

/-- An input slot of the list is stale, however often it is named. -/
theorem stales_attr (l : List Nat) {m : Mems} (hwf : m.wf = true) {i : Nat} (hi : i < 16384) (hcls : (sget {} m.attrs i).cls = 1)
    (hwriter : (sget {} m.attrs i).writer = 8) :
    sget {} ((stales l).foldl (fun m w => w.apply m) m).attrs i =
      if i ∈ l then (sget {} m.attrs i).staled else sget {} m.attrs i := by
  induction l generalizing m with
  | nil => rfl
  | cons j l ih =>
    by_cases hij : i = j
    · subst hij
      have hfirst : sget {} ((MemOp.stale i).apply m).attrs i = (sget {} m.attrs i).staled :=
        (attr_stale hwf hi hcls hwriter i).trans (if_pos rfl)
      have hcons : stales (i :: l) = .stale i :: stales l := by simp [stales, hi]
      rw [hcons, List.foldl_cons, ih (Mems.wf_apply hwf _) (by rw [hfirst]; exact hcls) (by rw [hfirst]; exact hwriter), hfirst,
        staled_staled, ite_self, if_pos List.mem_cons_self]
    · have hmem : i ∈ j :: l ↔ i ∈ l := by simp [hij]
      simp only [hmem]
      by_cases hj : j < 16384
      · have hfirst := attr_stale_other hwf hij
        have hcons : stales (j :: l) = .stale j :: stales l := by simp [stales, hj]
        rw [hcons, List.foldl_cons, ih (Mems.wf_apply hwf _) (by rw [hfirst]; exact hcls) (by rw [hfirst]; exact hwriter), hfirst]
      · have hcons : stales (j :: l) = stales l := by simp [stales, hj]
        rw [hcons, ih hwf hcls hwriter]

end Sys2Proof.Machine
end

section
/-! Results of the scan: the entry, the slot, the window and the triggers of its exit (R251, R256, R257, R261 to R263, R273). -/

namespace Sys2Proof.Machine

open Sys2Proof

/-! ### Windows (R263) -/

/-- A result lies within a window. -/
def Window.holds (r : CnvResult) (w : Window) : Bool := decide (w.lo ≤ r.code) && decide (r.code ≤ w.hi) && !r.ovr

/-- The window of the entry that the scan is at. -/
abbrev Cnv.window (x : Cnv) : Window := x.win[Fin.ofNat 16 x.entry]

/-- The converter whose last result of an entry lies outside its window. -/
def Cnv.outside (i : Fin 16) (x : Cnv) : Cnv := { x with win := upd x.win i fun w => { w with inside := false } }

/-- The converter that has reported such a result. -/
def Cnv.exited (i : Fin 16) (x : Cnv) : Cnv := { x.outside i with winEvt := true }

section
variable {d : Dev} {c : Fin 2} {k : Nat} {r : CnvResult}

/-- A window that is off, a reference that has not settled, or a result on the same side as the last changes nothing. -/
theorem window_silent (h : d.cnv[c].win[Fin.ofNat 16 k].en = false ∨ r.unset = true ∨
    d.cnv[c].win[Fin.ofNat 16 k].holds r = d.cnv[c].win[Fin.ofNat 16 k].inside) : d.window c k r = d := by
  refine if_pos ?_
  simp only [Window.holds] at h
  simp only [Bool.or_eq_true, Bool.not_eq_true', beq_iff_eq]
  tauto

/-- The triggers that wait for window `k` of converter `c` (R242). -/
def windowSource (c : Fin 2) (k : Nat) (n : Nat) : Bool := n % 2 == c.val && n / 2 % 16 == k

theorem windowSource_eq : windowSource c k = fun n => n % 2 == c.val && n / 2 % 16 == k := rfl

theorem windowSource_iff {n : Nat} : windowSource c k n = true ↔ n % 2 = c.val ∧ n / 2 % 16 = k := by
  simp [windowSource]

/-- A result that leaves its window is recorded, and queues what waits for it. -/
theorem window_leaves {s : State} (hroom : s.room [6]) (hce : d.ce = s.dev.ce) (hces : d.ces = s.dev.ces)
    (hen : d.cnv[c].win[Fin.ofNat 16 k].en = true) (hset : r.unset = false) (hin : d.cnv[c].win[Fin.ofNat 16 k].inside = true)
    (hout : d.cnv[c].win[Fin.ofNat 16 k].holds r = false) : ∃ (ce : Vector Ce 8) (recm : RecM),
    d.window c k r = { d.modCnv c (Cnv.exited (Fin.ofNat 16 k)) with ce := ce, recm := recm } ∧
    (∃ z ∈ recm.staging, z.IsAdc 0 r.time d.dtime) ∧
    ∀ j i, i < 32 → d.fires 6 (windowSource c k) j i → d.takes j → d.trigOf j i ∈ ce[j].queue := by
  obtain ⟨ce, hfire, hqueued⟩ := fire_room (d := d.modCnv c (Cnv.outside (Fin.ofNat 16 k))) hroom hce hces (windowSource c k)
  obtain ⟨recm, hrecord, hstaged⟩ := adcRecord_staged 0 c r k
    (fld (d.modCnv c (Cnv.outside (Fin.ofNat 16 k))).cnv[c].scan 16 4) 0
    { d.modCnv c (Cnv.outside (Fin.ofNat 16 k)) with ce := ce }
  refine ⟨ce, recm, ?_, hstaged, hqueued⟩
  have hevent : d.window c k r = (d.modCnv c (Cnv.outside (Fin.ofNat 16 k))).winEvent c k 0 r := by
    simp only [Window.holds] at hout
    simp only [Dev.window, hen, hset, hin, hout]
    rfl
  rw [hevent, Dev.winEvent, ← windowSource_eq, hfire, hrecord]
  simp only [Dev.modCnv, Dev.modRecm, upd_upd]
  rfl

end

/-! ### The scan goes on (R256, R257) -/

/-- A result kept in its entry. -/
def Cnv.keeps (k : Nat) (r : CnvResult) (x : Cnv) : Cnv := { x with res := upd x.res (Fin.ofNat 16 k) fun _ => r }

/-- After entry `k` of `n` the scan goes on to the next, or in a sequence of one to the next output period. -/
def Cnv.goesOn (k n osr : Nat) (sample : Ns) (x : Cnv) : Cnv :=
  { x with
    rounds := x.rounds + if k + 1 = n then 1 else 0
    roundsRec := x.roundsRec + if k + 1 = n then 1 else 0
    entry := if n = 1 then x.entry else (k + 1) % n
    settled := decide (n = 1)
    filtAt := if n = 1 then sample - 3 * outPeriod osr else sample }

/-- A result kept and counted. -/
def Cnv.took (k : Nat) (r : CnvResult) (x : Cnv) : Cnv := (x.keeps k r).counted r

section
variable {e : Env} {d : Dev} {c : Fin 2} {sample : Ns} {y : Conversion} {ovr : Bool}

/-- A result is none where no conversion of the scan is complete at its sample. -/
theorem scanResult_early (h : d.scanDone c sample = false) : d.scanResult e c sample y ovr = d := by
  unfold Dev.scanResult
  simp only [h]
  cases d.cnv[c].inputs[d.cnv[c].entry]? <;> rfl

/-- A result of the scan, without periodic records: its entry, what every result does, its window, and the next entry. -/
theorem scanResult_due {w : Dev} {r : CnvResult} {mux : Nat} (hdone : d.scanDone c sample = true)
    (hmux : d.cnv[c].inputs[d.cnv[c].entry]? = some mux) (hperiod : fld d.cnv[c].cfg 24 8 = 0)
    (hresult : d.cnvResult mux (fld d.cnv[c].scan 16 4) sample (d.cnvCode e c mux y) ovr = r)
    (hwindow : ((d.modCnv c (Cnv.keeps d.cnv[c].entry r)).deliver e c r
      (if bit d.cnv[c].slot 14 then some (fld d.cnv[c].slot 0 14 + mux) else none)).window c d.cnv[c].entry r = w)
    (hscanning : w.cnv[c].scanning = true) : d.scanResult e c sample y ovr =
      w.modCnv c (Cnv.goesOn d.cnv[c].entry d.cnv[c].inputs.length (fld d.cnv[c].scan 16 4) sample) := by
  unfold Dev.scanResult
  simp only [hmux, hdone, hperiod, hresult, Bool.not_true, Bool.false_eq_true, if_false, bne_self_eq_false, Bool.and_false,
    Bool.false_and]
  generalize hw : Dev.window c _ r _ = w'
  obtain rfl : w' = w := hw.symm.trans hwindow
  rw [Dev.modCnv_when, Dev.modCnv_modCnv]
  refine Dev.modCnv_congr ?_
  by_cases hlast : d.cnv[c].entry + 1 = d.cnv[c].inputs.length
  · simp only [Cnv.goesOn, beq_iff_eq, hlast, if_true]
    by_cases hone : d.cnv[c].inputs.length = 1 <;> simp [hone, hscanning, -Fin.getElem_fin]
  · simp only [Cnv.goesOn, beq_iff_eq, hlast, if_false]
    by_cases hone : d.cnv[c].inputs.length = 1 <;> simp [hone, hscanning, -Fin.getElem_fin]

end

theorem took_exited_scanning (r : CnvResult) (k : Nat) (i : Fin 16) (x : Cnv) :
    ((x.took k r).exited i).scanning = x.scanning := rfl

/-- What a result of the scan leaves of its converter: `out` says whether it leaves its window. -/
def Cnv.scanned (r : CnvResult) (k n osr : Nat) (sample : Ns) (out : Bool) (x : Cnv) : Cnv :=
  ((if out then (x.took k r).exited (Fin.ofNat 16 k) else x.took k r)).goesOn k n osr sample

section
variable (r : CnvResult) (k n osr : Nat) (sample : Ns) (out : Bool) (x : Cnv)

theorem scanned_result : (x.scanned r k n osr sample out).res[Fin.ofNat 16 k] = r ∧
    (x.scanned r k n osr sample out).rounds = x.rounds + (if k + 1 = n then 1 else 0) ∧
    (x.scanned r k n osr sample out).ovrs = x.ovrs + (if r.ovr then 1 else 0) := by
  cases out <;> exact ⟨upd_same .., rfl, rfl⟩

theorem scanned_place : (x.scanned r k n osr sample out).entry = (if n = 1 then x.entry else (k + 1) % n) ∧
    (x.scanned r k n osr sample out).settled = decide (n = 1) ∧
    (x.scanned r k n osr sample out).filtAt = (if n = 1 then sample - 3 * outPeriod osr else sample) := by
  cases out <;> exact ⟨rfl, rfl, rfl⟩

theorem scanned_single (hone : n = 1) : (x.scanned r k n osr sample out).entry = x.entry ∧
    (x.scanned r k n osr sample out).settled = true ∧
    (x.scanned r k n osr sample out).filtAt = sample - 3 * outPeriod osr := by
  obtain ⟨hentry, hsettled, hfilt⟩ := scanned_place r k n osr sample out x
  exact ⟨hentry.trans (if_pos hone), hsettled.trans (decide_eq_true hone), hfilt.trans (if_pos hone)⟩

theorem scanned_next (hmany : n ≠ 1) (hk : k < n) :
    (x.scanned r k n osr sample out).entry = (if k + 1 = n then 0 else k + 1) ∧
    (x.scanned r k n osr sample out).settled = false ∧ (x.scanned r k n osr sample out).filtAt = sample := by
  obtain ⟨hentry, hsettled, hfilt⟩ := scanned_place r k n osr sample out x
  have hwraps : (k + 1) % n = if k + 1 = n then 0 else k + 1 := by
    split
    · next hlast => rw [hlast, Nat.mod_self]
    · exact Nat.mod_eq_of_lt (by omega)
  exact ⟨(hentry.trans (if_neg hmany)).trans hwraps, hsettled.trans (decide_eq_false hmany), hfilt.trans (if_neg hmany)⟩

end

/-- The scan of converter `c` gives the result `r` at `t`, of input `mux` below 12 and to `slot` if it has one, without a periodic
record. -/
structure State.ScanGives (s : State) (t sample : Ns) (c : Fin 2) (raw : BitVec 24) (ovr : Bool) (mux : Nat) (r : CnvResult)
    (slot : Option Nat) : Prop where
  clean : s.clean
  scanning : s.dev.cnv[c].scanning = true
  done : (s.dev.at t).scanDone c sample = true
  input : s.dev.cnv[c].inputs[s.dev.cnv[c].entry]? = some mux
  plain : mux < 12
  period : fld s.dev.cnv[c].cfg 24 8 = 0
  result : r = s.dev.cnvResult mux (fld s.dev.cnv[c].scan 16 4) sample (trimmed (s.trim c) raw) ovr
  place : slot = if bit s.dev.cnv[c].slot 14 then some (fld s.dev.cnv[c].slot 0 14 + mux) else none
  own : ∀ i ∈ slot, s.inputSlot i

section
variable {s : State} {t sample : Ns} {c : Fin 2} {raw : BitVec 24} {ovr : Bool} {src : IntSources} {mux : Nat} {r : CnvResult}
  {slot : Option Nat} (h : s.ScanGives t sample c raw ovr mux r slot)
include h

/-- The body of a result of the scan, by what its window does. -/
theorem after_scanResult {w : Dev} (hscanning : w.cnv[c].scanning = true)
    (hwindow : ((s.dev.at t).converts c (Cnv.took s.dev.cnv[c].entry r) (s.delivered r slot)).window c s.dev.cnv[c].entry r = w) :
    s.after t (fun e d => d.scanResult e c sample ⟨raw, src⟩ ovr) = w.modCnv c
      (Cnv.goesOn s.dev.cnv[c].entry s.dev.cnv[c].inputs.length (fld s.dev.cnv[c].scan 16 4) sample) := by
  have hdeliver := deliver_at (t := t) (c := c) (Cnv.keeps s.dev.cnv[c].entry r) h.clean
    (h.result ▸ cnvResult_mux h.plain) h.own
  rw [h.place] at hdeliver hwindow
  exact scanResult_due h.done h.input h.period ((cnvResult_at h.plain).trans h.result.symm)
    ((congrArg (fun y : Dev => y.window c s.dev.cnv[c].entry r) hdeliver).trans hwindow) hscanning

/-- What a result leaves of its converter and of the memories, by whether it leaves its window. -/
def State.scanLeaves (s : State) (c : Fin 2) (sample : Ns) (r : CnvResult) (slot : Option Nat) (out : Bool) (s' : State) : Prop :=
  s'.dev.cnv = upd s.dev.cnv c
      (Cnv.scanned r s.dev.cnv[c].entry s.dev.cnv[c].inputs.length (fld s.dev.cnv[c].scan 16 4) sample out) ∧
    s'.mems = (s.delivered r slot).foldl (fun m w => w.apply m) s.mems

/-- A result that its window takes no note of. -/
theorem completes_scan_silent (hwindow : s.dev.cnv[c].window.en = false ∨ r.unset = true ∨
      s.dev.cnv[c].window.holds r = s.dev.cnv[c].window.inside) :
    Completes (.scanResult t c sample ⟨raw, src⟩ ovr) s fun s' =>
      s.scanLeaves c sample r slot false s' ∧ s.touches [.conv, .mems] s' := by
  have htook := Dev.converts_cnv (d := s.dev.at t) (c := c) (f := Cnv.took s.dev.cnv[c].entry r) (ws := s.delivered r slot)
  have hbody := after_scanResult (src := src) h (by rw [htook]; exact h.scanning) (window_silent (by rw [htook]; exact hwindow))
  rw [Dev.converts_settled (d := s.dev.at t) h.clean.1.2.2] at hbody
  refine (completes_conv (i := .scanResult t c sample ⟨raw, src⟩ ovr) [.conv, .mems] h.clean.1.2 rfl hbody).imp
    fun s' ⟨hcnv, _, _, _, hmems, htouches⟩ => ⟨⟨hcnv.trans (upd_upd ..), hmems⟩, htouches⟩

/-- A result that leaves its window, while every engine's queue has room for what waits for that. -/
theorem completes_scan_leaves (hroom : s.room [6]) (hen : s.dev.cnv[c].window.en = true)
    (hset : r.unset = false) (hin : s.dev.cnv[c].window.inside = true)
    (hout : s.dev.cnv[c].window.holds r = false) :
    Completes (.scanResult t c sample ⟨raw, src⟩ ovr) s fun s' =>
      s.scanLeaves c sample r slot true s' ∧
      (∃ z ∈ s'.dev.recm.staging, z.IsAdc 0 r.time (s.now t)) ∧
      (∀ j i, i < 32 → s.dev.fires 6 (windowSource c s.dev.cnv[c].entry) j i → s.dev.takes j →
        (s.dev.at t).trigOf j i ∈ s'.dev.ce[j].queue) ∧
      s.touches [.conv, .mems, .calc, .recs] s' := by
  have htook := Dev.converts_cnv (d := s.dev.at t) (c := c) (f := Cnv.took s.dev.cnv[c].entry r) (ws := s.delivered r slot)
  obtain ⟨ce, recm, hwindow, hstaged, hqueued⟩ := window_leaves (c := c) (k := s.dev.cnv[c].entry) (r := r)
    (d := (s.dev.at t).converts c (Cnv.took s.dev.cnv[c].entry r) (s.delivered r slot)) hroom rfl rfl
    (by rw [htook]; exact hen) hset (by rw [htook]; exact hin) (by rw [htook]; exact hout)
  have hexited := Dev.modCnv_same (d := (s.dev.at t).converts c (Cnv.took s.dev.cnv[c].entry r) (s.delivered r slot)) (c := c)
    (Cnv.exited (Fin.ofNat 16 s.dev.cnv[c].entry))
  rw [htook] at hexited
  have hbody := after_scanResult (src := src) h
    (by exact (congrArg Cnv.scanning hexited).trans ((took_exited_scanning ..).trans h.scanning)) hwindow
  rw [Dev.converts_settled (d := s.dev.at t) h.clean.1.2.2] at hbody
  refine (completes_conv (i := .scanResult t c sample ⟨raw, src⟩ ovr) [.conv, .mems, .calc, .recs] h.clean.1.2 rfl hbody
    (hce := .inl (by simp)) (hrecm := .inl (by simp))).imp
    fun s' ⟨hcnv, _, hce, hrecm, hmems, htouches⟩ => ⟨⟨hcnv.trans ?_, hmems⟩, ?_, ?_, htouches⟩
  · simp only [Dev.modCnv, upd_upd]
    rfl
  · rw [hrecm]
    exact hstaged
  · rw [hce]
    exact hqueued

end

end Sys2Proof.Machine
end

section
/-! The obligation on results of the scan (R243, R251, R256, R257, R261 to R263). -/

namespace Sys2Proof.Machine

open Sys2Proof

/-- A conversion of a running scan is complete by its filter alone (R256). -/
theorem scanDone_running {d : Dev} {c : Fin 2} {sample : Ns} (hscanning : d.cnv[c].scanning = true) (hon : d.convOn = true)
    (hdue : d.converted d.cnv[c].filtAt (fld d.cnv[c].scan 16 4) sample = true) : d.scanDone c sample = true := by
  simp [Dev.scanDone, hscanning, hon, hdue, -Fin.getElem_fin]

/-- Settles O44: whatever its window does, a result leaves its converter as `scanned` says and its slot as `delivered_slot`
says; a window that it leaves queues the triggers that wait for that (`fire_room`). -/
theorem scanResults : Obligations.ScanResults := by
  unfold Obligations.ScanResults
  intro s t sample c raw ovr src mux hclean x osr code r e inside i last hscanning hon hinput hmux hperiod hdue hown kept
  let slot : Option Nat := if bit x.slot 14 then some i else none
  have hgives : s.ScanGives t sample c raw ovr mux r slot :=
    ⟨hclean, hscanning, scanDone_running hscanning hon hdue, hinput, hmux, hperiod, rfl, rfl, fun j hj => by
      obtain ⟨hbit, rfl⟩ := mem_slot_iff.mp hj
      exact hown hbit⟩
  have hlast : x.entry < x.inputs.length := (List.getElem?_eq_some_iff.mp hinput).1
  have hkept (out : Bool) (s' : State) (h : s.scanLeaves c sample r slot out s') : kept s' := by
    obtain ⟨hcnv, hmems⟩ := h
    have hy : s'.dev.cnv[c] = x.scanned r x.entry x.inputs.length osr sample out := hcnv ▸ upd_same ..
    obtain ⟨hres, hrounds, hovrs⟩ := scanned_result r x.entry x.inputs.length osr sample out x
    simp only [kept, hy]
    refine ⟨hres, rfl, rfl, rfl, rfl, fun href => ?_, hrounds, hovrs, scanned_single r _ _ _ _ _ _,
      fun hmany => scanned_next r _ _ _ _ _ _ hmany hlast, fun j hj => hcnv ▸ upd_other _ _ _ _ hj,
      fun hbit => ?_, fun hbit => ?_⟩
    · simp [r, Dev.cnvResult, href]
    · have hnone : slot = none := if_neg (Bool.eq_false_iff.mp hbit)
      rw [hnone] at hmems
      exact hmems
    · have hsome : slot = some i := if_pos hbit
      rw [hsome] at hmems
      exact delivered_slot (r := r) (i := i) hclean.1.1 (hown hbit) hmems
  constructor
  · intro hwindow
    refine (completes_scan_silent hgives hwindow).imp fun s' ⟨hleaves, htouches⟩ => ⟨hkept _ s' hleaves, ?_, ?_, htouches⟩
    · rw [hleaves.1, upd_same]
      rfl
    · rw [hleaves.1, upd_same]
      rfl
  · intro hen hset hin hout hroom
    refine (completes_scan_leaves hgives hroom hen hset hin hout).imp
      fun s' ⟨hleaves, ⟨z, hz, hadc⟩, hqueued, htouches⟩ =>
        ⟨hkept _ s' hleaves, ?_, ?_, ⟨z, hz, hadc.type, hadc.form, hadc.dtime, hadc.pres⟩, ?_, htouches⟩
    · rw [hleaves.1, upd_same]
      exact congrArg Window.inside (upd_same ..)
    · rw [hleaves.1, upd_same]
      rfl
    · intro k n hn hmode hcfg w hkind hside hentry
      exact ⟨_, hqueued k n hn ⟨hkind, windowSource_iff.mpr ⟨hside, hentry⟩⟩ ⟨hmode, hcfg⟩, rfl, rfl, rfl, rfl⟩

end Sys2Proof.Machine
end

section
/-! Writes of CNV_SCAN, urgent conversions, and the reference (R251, R255 to R257, R259). -/

namespace Sys2Proof.Machine

open Sys2Proof

/-! ### CNV_SCAN (R257) -/

/-- The converter whose scan starts anew with the word `v`, before the sequence starts. -/
def Cnv.rescanned (v : W64) (x : Cnv) : Cnv :=
  { x with
    scan := v &&& 0xFFFFF
    aborts := if x.scanning then x.aborts + 1 else x.aborts
    res := x.res.map fun r => { r with valid := false }
    win := x.win.map fun w => { w with inside := true } }

/-- The slots that a write of CNV_SCAN leaves without a source (R262). -/
def Cnv.slotsGone (v : W64) (x : Cnv) : List Nat :=
  if fld v 0 16 = 0 then x.slots
  else if bit x.slot 14 then (x.inputs.filter fun i => !bit v i).map (fld x.slot 0 14 + ·) else []

theorem slotsGone_none {x : Cnv} (h : x.slots = []) (v : W64) : x.slotsGone v = [] := by
  obtain ⟨hscan, -⟩ := List.append_eq_nil_iff.mp h
  rw [Cnv.slotsGone, h]
  by_cases hbit : bit x.slot 14 = true
  · have hinputs : x.inputs = [] := by simpa [hbit] using hscan
    simp [hinputs]
  · simp [hbit]

section
variable {d : Dev} {c : Fin 2} {v : W64}

theorem scanWrite_ignored (h : 8 < fld v 16 4) : d.scanWrite c v = d.modCnv c fun x => { x with cfgIgn := true } := if_pos h

/-- While no tag is damaged, a write of CNV_SCAN makes slots stale and starts the sequence. -/
theorem scanWrite_starts (h : fld v 16 4 ≤ 8) (hdead : d.memu.deadTags = []) : d.scanWrite c v =
    d.converts c (fun x => (x.rescanned v).restart d.convOn d.dtime 0) (stales (d.cnv[c].slotsGone v)) := by
  simp only [Dev.scanWrite, if_neg (Nat.not_lt_of_le h), foldl_staleSlot _ hdead]
  exact congrArg (fun x : Vector Cnv 2 => { d with cnv := x, writes := d.writes ++ stales (d.cnv[c].slotsGone v) })
    (upd_congr rfl)

end

/-! ### Urgent conversions (R259) -/

/-- The converter that has left its scan for the urgent request `q`, with `l` behind it. -/
def Cnv.urgentBegun (q : UrgReq) (l : List UrgReq) (now : Ns) (x : Cnv) : Cnv :=
  { x with
    urgQ := l, urgRun := some q, scanning := false, settled := false, filtAt := now
    cutAt := if x.scanning then some x.filtAt else none
    aborts := if x.scanning then x.aborts + 1 else x.aborts }

/-- The converter with the result of its urgent request. -/
def Cnv.urgentEnded (q : UrgReq) (r : CnvResult) (x : Cnv) : Cnv :=
  { x with urg := r, urgSeq := q.seq, urgOsr := BitVec.ofNat 4 q.osr, urgDone := x.urgDone + 1, urgRun := none }

section
variable {d : Dev} {c : Fin 2} {q : UrgReq} {l : List UrgReq}

theorem urgentStart_begins (hqueue : d.cnv[c].urgQ = q :: l) (hrun : d.cnv[c].urgRun = none) (hon : d.cnv[c].enabled = true)
    (hconv : d.convOn = true) (hat : q.at_ ≤ d.dtime) : d.urgentStart c = d.modCnv c (Cnv.urgentBegun q l d.dtime) := by
  simp only [Dev.urgentStart, hqueue, hrun, hon, hconv, decide_eq_false (Nat.not_lt_of_le hat)]
  rfl

theorem urgentStart_none (h : d.cnv[c].urgQ = [] ∨ d.cnv[c].urgRun ≠ none ∨ d.convOn = false) : d.urgentStart c = d := by
  unfold Dev.urgentStart
  simp only
  split
  · next hqueue hrun =>
    obtain h | h | h := h
    · exact absurd (h.symm.trans hqueue) nofun
    · exact absurd hrun h
    · exact if_pos (by simp [h])
  · rfl

theorem urgentResult_early {e : Env} {sample : Ns} {y : Conversion} {ovr : Bool}
    (h : ∀ q, d.cnv[c].urgRun = some q → d.converted d.cnv[c].filtAt q.osr sample = false) :
    d.urgentResult e c sample y ovr = d := by
  unfold Dev.urgentResult
  simp only
  split
  · rfl
  · next q hrun => exact if_pos (by simp [h q hrun, -Fin.getElem_fin])

/-- The converter once its urgent request has ended with a result, with the scan resumed where it was left. -/
def Cnv.resumed (q : UrgReq) (r : CnvResult) (on : Bool) (sample : Ns) (x : Cnv) : Cnv :=
  ((x.urgentEnded q r).counted r).restart on sample x.entry

/-- The result `r` of the urgent request `q`, of an input below 12 and to `slot` if it has one. -/
theorem urgentResult_due {s : State} {e : Env} {sample : Ns} {y : Conversion} {ovr : Bool} {r : CnvResult} {slot : Option Nat}
    (hrun : d.cnv[c].urgRun = some q) (hdue : d.converted d.cnv[c].filtAt q.osr sample = true)
    (hresult : d.cnvResult q.mux.toNat q.osr sample (d.cnvCode e c q.mux.toNat y) ovr = r)
    (hslot : (if bit d.cnv[c].slot 30 then some (fld d.cnv[c].slot 16 14) else none) = slot)
    (hdeliver : (d.modCnv c (Cnv.urgentEnded q r)).deliver e c r slot =
      d.converts c (fun x => (x.urgentEnded q r).counted r) (s.delivered r slot)) : ∃ recm,
    d.urgentResult e c sample y ovr =
      (d.converts c (Cnv.resumed q r d.convOn sample) (s.delivered r slot)).modRecm (fun _ => recm) ∧
    (bit d.cnv[c].cfg 3 = false → recm = d.recm) ∧
    (bit d.cnv[c].cfg 3 = true → ∃ z ∈ recm.staging, z.IsAdc 2 r.time d.dtime) := by
  unfold Dev.urgentResult
  simp only [hrun, hdue, hresult, hslot, Bool.not_true, Bool.false_eq_true, if_false]
  generalize hw : Dev.deliver e c r slot _ = w
  obtain rfl := hw.symm.trans hdeliver
  cases hrecord : bit d.cnv[c].cfg 3 with
  | false => exact ⟨d.recm, Dev.converts_modCnv .., fun _ => rfl, nofun⟩
  | true =>
    obtain ⟨recm, hadc, hstaged⟩ := adcRecord_staged 2 c r 0 q.osr q.seq.toNat
      (d.converts c (fun x => (x.urgentEnded q r).counted r) (s.delivered r slot))
    refine ⟨recm, ?_, nofun, fun _ => hstaged⟩
    simp only [if_true, hadc]
    exact congrArg (Dev.modRecm fun _ => recm)
      (Dev.converts_modCnv _ (fun x => x.restart d.convOn sample x.entry) (s.delivered r slot))

end

/-! ### The reference (R255) -/

theorem refReady_good {d : Dev} (hen : d.cnvs.refEn = true) (hok : d.cnvs.refOk = false)
    (hdue : d.cnvs.refAt + 5000000 ≤ d.dtime) :
    d.refReady = d.modCnvs fun x => { x with refOk := true, refOkAt := d.dtime } := by
  simp [Dev.refReady, hen, hok, hdue]

theorem refReady_none {d : Dev} (h : d.cnvs.refEn = false ∨ d.dtime < d.cnvs.refAt + 5000000) : d.refReady = d := by
  refine if_neg ?_
  simp only [Bool.and_eq_true, decide_eq_true_eq]
  rintro ⟨⟨hen, -⟩, hdue⟩
  obtain h | h := h
  · exact absurd (hen.symm.trans h) nofun
  · exact Nat.not_lt_of_le hdue h

end Sys2Proof.Machine
end

section
/-! The obligation on CNV_SCAN, urgent conversions and the reference (R251, R255 to R257, R259). -/

namespace Sys2Proof.Machine

open Sys2Proof

section
variable {s : State} {t : Ns} {c : Fin 2} (hclean : s.clean)
include hclean

/-- A write of CNV_SCAN with an OSR up to 8: the converter, and the slots that become stale. -/
theorem completes_scanWrite (p : Path) {v : W64} (h : fld v 16 4 ≤ 8) : Completes (.cnvScanWrite t p c v) s fun s' =>
    s'.dev.cnv[c] = (s.dev.cnv[c].rescanned v).restart s.dev.convOn (s.now t) 0 ∧
    s'.mems = (stales (s.dev.cnv[c].slotsGone v)).foldl (fun m w => w.apply m) s.mems ∧
    s.touches [.conv, .paths, .mems] s' := by
  have hbody : s.after t (fun _ d => (d.disarm p).scanWrite c v) = _ :=
    (scanWrite_starts (d := (s.dev.at t).disarm p) h hclean.2.2).trans (Dev.converts_settled hclean.1.2.2)
  exact (completes_conv (i := .cnvScanWrite t p c v) [.conv, .paths, .mems] hclean.1.2 rfl hbody (hpaths := .inl (by simp))).imp
    fun s' ⟨hcnv, _, _, _, hmems, htouches⟩ => ⟨hcnv ▸ upd_same .., hmems, htouches⟩

/-- The result of an urgent request, of an input below 12: the converter, its slot, and its record. -/
theorem completes_urgentResult {q : UrgReq} {sample : Ns} {raw : BitVec 24} {ovr : Bool} {src : IntSources} {r : CnvResult}
    {slot : Option Nat} (hrun : s.dev.cnv[c].urgRun = some q) (hmux : q.mux.toNat < 12)
    (hdue : (s.dev.at t).converted s.dev.cnv[c].filtAt q.osr sample = true)
    (hresult : s.dev.cnvResult q.mux.toNat q.osr sample (trimmed (s.trim c) raw) ovr = r)
    (hslot : (if bit s.dev.cnv[c].slot 30 then some (fld s.dev.cnv[c].slot 16 14) else none) = slot)
    (hown : ∀ i ∈ slot, s.inputSlot i) : Completes (.urgentResult t c sample ⟨raw, src⟩ ovr) s fun s' =>
      s'.dev.cnv[c] = s.dev.cnv[c].resumed q r s.dev.convOn sample ∧
      s'.mems = (s.delivered r slot).foldl (fun m w => w.apply m) s.mems ∧
      (bit s.dev.cnv[c].cfg 3 = false → s'.dev.recm = s.dev.recm) ∧
      (bit s.dev.cnv[c].cfg 3 = true → ∃ z ∈ s'.dev.recm.staging, z.IsAdc 2 r.time (s.now t)) ∧
      s.touches [.conv, .mems, .recs] s' := by
  obtain ⟨recm, hbody, hnone, hrecord⟩ := urgentResult_due (d := s.dev.at t) hrun hdue
    ((cnvResult_at hmux).trans hresult) hslot (deliver_at _ hclean (hresult ▸ cnvResult_mux hmux) hown)
  rw [Dev.converts_settled (d := s.dev.at t) hclean.1.2.2] at hbody
  refine (completes_conv (i := .urgentResult t c sample ⟨raw, src⟩ ovr) [.conv, .mems, .recs] hclean.1.2 rfl hbody
    (hrecm := .inl (by simp))).imp fun s' ⟨hcnv, _, _, hrecm, hmems, htouches⟩ =>
      ⟨hcnv ▸ upd_same .., hmems, ?_, ?_, htouches⟩
  · rw [hrecm]
    exact hnone
  · rw [hrecm]
    exact hrecord

end

/-- Settles O45: each command's body is one of the equations above, or leaves the device as it is. -/
theorem conversions : Obligations.Conversions := by
  unfold Obligations.Conversions
  intro s t c hclean x
  refine ⟨?ignored, ?starts, ?urgent, ?waits, ?early, ?scanEarly, ?result, ?good, ?unsettled⟩
  case ignored =>
    intro p v h
    exact (completes_conv_quiet (i := .cnvScanWrite t p c v) [.conv, .paths] hclean.1.2 rfl
      (scanWrite_ignored (d := (s.dev.at t).disarm p) h) (hpaths := .inl (by simp))).imp
        fun s' ⟨hcnv, _, hmems, htouches⟩ => ⟨hcnv ▸ upd_same .., hmems, htouches⟩
  case starts =>
    intro p v h
    refine (completes_scanWrite hclean p h).imp fun s' ⟨hy, hmems, htouches⟩ => ?_
    simp only [hy]
    refine ⟨rfl, rfl, rfl, rfl, rfl, rfl, rfl, rfl, rfl, fun j => ⟨Vector.getElem_map .., Vector.getElem_map ..⟩,
      fun hzero i hi hlt hcls hwriter => ?_, fun hnone => ?_, fun i => ?_, htouches⟩
    · have hattr := stales_attr (s.dev.cnv[c].slotsGone v) hclean.1.1 hlt hcls hwriter
      have hgone : s.dev.cnv[c].slotsGone v = x.slots := if_pos hzero
      rw [← hmems, hgone, if_pos hi] at hattr
      exact congrArg SlotAttr.tag hattr
    · rw [hmems, slotsGone_none hnone]
      rfl
    · rw [State.slot, hmems, stales_word]
      rfl
  case urgent =>
    intro q l hqueue hrun hon hconv hat
    refine (completes_conv_quiet (i := .urgentStart t c) [.conv] hclean.1.2 rfl
      (urgentStart_begins (d := s.dev.at t) hqueue hrun hon hconv hat)).imp fun s' ⟨hcnv, _, _, htouches⟩ => ?_
    have hy : s'.dev.cnv[c] = x.urgentBegun q l (s.now t) := hcnv ▸ upd_same ..
    simp only [hy]
    exact ⟨rfl, rfl, rfl, rfl, rfl, rfl, rfl, htouches⟩
  case waits =>
    intro h
    exact completes_untouched (c := .urgentStart t c) hclean.1.2 rfl (urgentStart_none (d := s.dev.at t) h)
  case early =>
    intro sample raw ovr src h
    exact completes_untouched (c := .urgentResult t c sample ⟨raw, src⟩ ovr) hclean.1.2 rfl
      (urgentResult_early (d := s.dev.at t) h)
  case scanEarly =>
    intro sample raw ovr src h
    exact completes_untouched (c := .scanResult t c sample ⟨raw, src⟩ ovr) hclean.1.2 rfl (scanResult_early h)
  case result =>
    intro q sample raw ovr src hrun hmux hdue code hown
    let r := s.dev.cnvResult q.mux.toNat q.osr sample code ovr
    refine (completes_urgentResult (r := r) hclean hrun hmux hdue rfl rfl fun i hi => ?own).imp
      fun s' ⟨hy, hmems, hquiet, hrecord, htouches⟩ => ?_
    case own =>
      obtain ⟨hbit, rfl⟩ := mem_slot_iff.mp hi
      exact hown hbit
    simp only [hy]
    refine ⟨rfl, rfl, rfl, rfl, ?_, rfl, rfl, rfl, rfl, fun hbit => ?_, fun hbit => ?_, hquiet, fun hbit => ?_, htouches⟩
    · exact congrArg (· && x.urgQ.isEmpty) (Bool.and_true _)
    · rw [if_pos hbit] at hmems
      exact (delivered_slot (r := r) hclean.1.1 (hown hbit) hmems).1
    · rw [if_neg (Bool.eq_false_iff.mp hbit)] at hmems
      exact hmems
    · obtain ⟨z, hz, hadc⟩ := hrecord hbit
      exact ⟨z, hz, hadc.type, hadc.form, hadc.dtime, hadc.pres⟩
  case good =>
    intro hen hok hdue
    exact (completes_conv_quiet (i := .refOk t) [.conv] hclean.1.2 rfl (refReady_good (d := s.dev.at t) hen hok hdue)).imp
      fun s' ⟨hcnv, hcnvs, _, htouches⟩ => ⟨hcnvs, hcnv, htouches⟩
  case unsettled =>
    intro h
    exact completes_untouched (c := .refOk t) hclean.1.2 rfl (refReady_none (d := s.dev.at t) h)

end Sys2Proof.Machine
end

section
/-! Frames of bodies: the parts of the block outside which a body leaves the device as it was, put together step by step. -/

namespace Sys2Proof.Machine

open Sys2Proof

/-- Outside the parts of `l`, and DTIME aside, `d'` is `d`; a write to the memories counts as a change of theirs. -/
structure Dev.ChangesOnly (l : List Group) (d d' : Dev) : Prop where
  parts : ∀ (s : State) (g : Group), g ∉ l → g.same { s with dev := d } { s with dev := d' }
  writes : .mems ∈ l ∨ d'.writes = d.writes

section
variable {l l' : List Group} {a b c d d' : Dev}

theorem Dev.ChangesOnly.refl (l : List Group) (d : Dev) : d.ChangesOnly l d := ⟨fun _ g _ => g.same_refl _, .inr rfl⟩

theorem Dev.ChangesOnly.trans (h : a.ChangesOnly l b) (h' : b.ChangesOnly l c) : a.ChangesOnly l c :=
  ⟨fun s g hg => Group.same_trans (h.parts s g hg) (h'.parts s g hg),
    h'.writes.elim .inl fun h₂ => h.writes.imp id fun h₁ => h₂.trans h₁⟩

theorem Dev.ChangesOnly.mono (h : d.ChangesOnly l d') (hl : l ⊆ l' := by simp) : d.ChangesOnly l' d' :=
  ⟨fun s g hg => h.parts s g fun hmem => hg (hl hmem), h.writes.imp (fun hmem => hl hmem) id⟩

theorem Dev.ChangesOnly.ite {p : Prop} [Decidable p] (h : a.ChangesOnly l b) (h' : a.ChangesOnly l c) : a.ChangesOnly l (if p then b else c) := by
  by_cases hp : p
  · rwa [if_pos hp]
  · rwa [if_neg hp]

/-- Steps over a list, each of which keeps the same parts. -/
theorem Dev.ChangesOnly.foldl {α : Type} {f : Dev → α → Dev} (hf : ∀ (d : Dev) x, d.ChangesOnly l (f d x)) :
    ∀ (xs : List α) (d : Dev), d.ChangesOnly l (xs.foldl f d)
  | [], d => .refl l d
  | x :: xs, d => (hf d x).trans (Dev.ChangesOnly.foldl hf xs (f d x))

/-- Outside the fault unit no fault is raised. -/
theorem Dev.ChangesOnly.flt (h : d.ChangesOnly l d') (hl : .flt ∉ l := by simp) : d'.flt = d.flt := h.parts State.reset .flt hl

/-- The parts one by one: those not named are seen to be the same by their record fields. -/
theorem Dev.ChangesOnly.of (l : List Group)
    (pos : .pos ∈ l ∨ d'.pos = d.pos := by exact .inr rfl) (adm : .adm ∈ l ∨ d'.adm = d.adm := by exact .inr rfl)
    (loft : .loft ∈ l ∨ d'.loft = d.loft := by exact .inr rfl) (banks : .banks ∈ l ∨ d'.banks = d.banks := by exact .inr rfl)
    (bst : .bst ∈ l ∨ d'.bst = d.bst := by exact .inr rfl) (pfi : .pfi ∈ l ∨ d'.pfi = d.pfi := by exact .inr rfl)
    (ign : .ign ∈ l ∨ d'.ign = d.ign := by exact .inr rfl) (gate : .gate ∈ l ∨ d'.gate = d.gate := by exact .inr rfl)
    (diag : .diag ∈ l ∨ d'.diag = d.diag := by exact .inr rfl)
    (calc_ : .calc ∈ l ∨ d'.ce = d.ce ∧ d'.ces = d.ces := by exact .inr ⟨rfl, rfl⟩)
    (conv : .conv ∈ l ∨ d'.cnv = d.cnv ∧ d'.cnvs = d.cnvs := by exact .inr ⟨rfl, rfl⟩)
    (recs : .recs ∈ l ∨ d'.recm = d.recm := by exact .inr rfl) (snap : .snap ∈ l ∨ d'.snap = d.snap := by exact .inr rfl)
    (tmu : .tmu ∈ l ∨ d'.tmu = d.tmu := by exact .inr rfl)
    (pio : .pio ∈ l ∨ d'.pio = d.pio ∧ d'.pios = d.pios := by exact .inr ⟨rfl, rfl⟩)
    (can : .can ∈ l ∨ d'.can = d.can := by exact .inr rfl) (rope : .rope ∈ l ∨ d'.rope = d.rope := by exact .inr rfl)
    (twp : .twp ∈ l ∨ ∃ v p q, d'.twp = { d.twp with attnEvt := v, attnPend := p, sentAt := q } := by exact .inr ⟨_, _, _, rfl⟩)
    (nvi : .nvi ∈ l ∨ ∃ x, d'.nvi = { d.nvi with twpEn := x } := by exact .inr ⟨_, rfl⟩)
    (sup : .sup ∈ l ∨ d'.sup = d.sup := by exact .inr rfl) (flt : .flt ∈ l ∨ d'.flt = d.flt := by exact .inr rfl)
    (memu : .memu ∈ l ∨ ∃ x, d'.memu = { d.memu with errs := x } := by exact .inr ⟨_, rfl⟩)
    (paths : .paths ∈ l ∨ d'.paths = d.paths := by exact .inr rfl)
    (writes : .mems ∈ l ∨ d'.writes = d.writes := by exact .inr rfl) : d.ChangesOnly l d' := by
  refine ⟨fun s g hg => ?_, writes⟩
  match g with
  | .pos => exact pos.resolve_left hg
  | .adm => exact adm.resolve_left hg
  | .loft => exact loft.resolve_left hg
  | .banks => exact banks.resolve_left hg
  | .bst => exact bst.resolve_left hg
  | .pfi => exact pfi.resolve_left hg
  | .ign => exact ign.resolve_left hg
  | .gate => exact gate.resolve_left hg
  | .diag => exact diag.resolve_left hg
  | .calc => exact calc_.resolve_left hg
  | .conv => exact conv.resolve_left hg
  | .recs => exact recs.resolve_left hg
  | .snap => exact snap.resolve_left hg
  | .tmu => exact tmu.resolve_left hg
  | .pio => exact pio.resolve_left hg
  | .can => exact can.resolve_left hg
  | .rope => exact rope.resolve_left hg
  | .twp => exact twp.resolve_left hg
  | .nvi => exact nvi.resolve_left hg
  | .sup => exact sup.resolve_left hg
  | .flt => exact flt.resolve_left hg
  | .memu => exact memu.resolve_left hg
  | .paths => exact paths.resolve_left hg
  | .mems => rfl

theorem Dev.changesOnly_at (l : List Group) (t : Ns) (d : Dev) : d.ChangesOnly l (d.at t) := .of l

theorem Dev.changesOnly_modCtx (p : Path) (f : PathCtx → PathCtx) (d : Dev) : d.ChangesOnly [.paths] (d.modCtx p f) :=
  .of _ (paths := .inl (by simp))

theorem Dev.changesOnly_disarm (p : Path) (d : Dev) : d.ChangesOnly [.paths] (d.disarm p) := d.changesOnly_modCtx p _

end

section
variable {s s' : State} {d : Dev} {l : List Group}

/-- The frame of a command whose body raises no fault. -/
theorem Follows.touches_of_changesOnly (h : Follows s d s') (hsettled : s.dev.settled) (hraised : d.flt.raised = [])
    (honly : s.dev.ChangesOnly l d) : s.touches l s' := by
  obtain hmems | hwrites := honly.writes
  · refine (h.touches_mems (l := l) hraised fun g hg => ?_).mono (by simpa using hmems)
    exact Group.same_trans (honly.parts s g hg) (match g with
      | .nvi | .memu => ⟨_, rfl⟩
      | .twp => ⟨_, _, _, rfl⟩
      | .calc | .conv | .pio => ⟨rfl, rfl⟩
      | .pos | .adm | .loft | .banks | .bst | .pfi | .ign | .gate | .diag | .recs | .snap | .tmu | .can | .rope | .sup | .flt
      | .paths | .mems => rfl)
  · exact h.touches hraised (hwrites.trans hsettled.2) (honly.parts s)

/-- A command whose body raises no fault: its end, and its frame. -/
theorem completes_of_changesOnly {c : Instr} {body : Env → Dev → Dev} {P : State → Prop} (hsettled : s.dev.settled)
    (hexec : exec c s = runAt (stampOf c) body s) (hbody : s.after (stampOf c) body = d)
    (honly : (s.dev.at (stampOf c)).ChangesOnly l d) (hP : ∀ s', Follows s d s' → s.touches l s' → P s')
    (hflt : .flt ∉ l := by simp) : Completes c s P := by
  have hraised : d.flt.raised = [] := by
    rw [honly.flt hflt]
    exact hsettled.1
  exact completes_of_after hexec hbody hraised fun s' h =>
    hP s' h (h.touches_of_changesOnly hsettled hraised ((s.dev.changesOnly_at l _).trans honly))

end

end Sys2Proof.Machine
end

section
/-! Commands of the queue, and the state after reset (R370; assumption 2). -/

namespace Sys2Proof.Machine

open Sys2Proof

/-- Settles O1: `step` is a match on the queue. -/
theorem stepRunsFront : Obligations.StepRunsFront := by
  unfold Obligations.StepRunsFront
  refine ⟨fun c rest s hpending => ?_, fun s hpending => ?_⟩
  · simp only [step, hpending]
  · simp only [step, hpending]

/-- Settles O2: the defaults of the state's fields are its values after reset. -/
theorem resetInvariant : Obligations.ResetInvariant := by
  unfold Obligations.ResetInvariant
  exact ⟨⟨rfl, rfl, rfl⟩, rfl, rfl, rfl, rfl, rfl, rfl⟩

end Sys2Proof.Machine
end

section
/-! Snapshots: the latch, the merge window and SNAP_OUT (R279 to R281). -/

namespace Sys2Proof.Machine

open Sys2Proof

/-- The merge window of the last latch takes a trigger at `now` (R280). -/
def Snap.merges (now : Ns) (x : Snap) : Bool := x.open_ && decide (now ≤ x.time + 100)

/-- What a trigger of source `i` that merges leaves. -/
def Snap.mergeOf (i : Nat) (rnum : BitVec 16) (x : Snap) : Snap :=
  { x with sources := x.sources ||| BitVec.ofNat 6 (2 ^ i), merged := x.merged + 1, rnum := if i = 5 then rnum else x.rnum }

/-- What a trigger of source `i` that latches leaves. -/
def Snap.latch (i : Nat) (now : Ns) (regs : Vector W64 20) (ctrl : BitVec 16) (coord : W64) (rnum : BitVec 16) (x : Snap) : Snap :=
  let num := if x.num = 65535 then 1 else x.num + 1
  { x with num := num, sources := BitVec.ofNat 6 (2 ^ i), time := now, regs := regs, open_ := true, ctrl := ctrl
           coord := coord, rnum := if i = 5 then rnum else 0
           outUntil := some (now + fld x.cfg 8 8 * 1000), ropeSend := if bit x.cfg 16 && i != 5 then some num else x.ropeSend }

theorem Snap.merges_eq_false {now : Ns} {x : Snap} (h : x.open_ = false ∨ x.time + 100 < now) : x.merges now = false := by
  obtain h | h := h
  · simp [Snap.merges, h]
  · simp [Snap.merges, Nat.not_le_of_lt h]

section
variable {d : Dev} {i : Nat} {c : BitVec 16} {x : W64} {n : BitVec 16}

theorem snapshot_off (h : bit d.snap.cfg i = false) : d.snapshot i c x n = d := by
  simp [Dev.snapshot, Dev.snapSource, h]

theorem snapshot_merges (hon : bit d.snap.cfg i = true) (hopen : d.snap.merges d.dtime = true) :
    d.snapshot i c x n = { d with snap := d.snap.mergeOf i n } := by
  have hcond : d.snap.open_ = true ∧ d.dtime ≤ d.snap.time + 100 := by simpa [Snap.merges] using hopen
  simp [Dev.snapshot, Dev.snapSource, hon, hcond, Snap.mergeOf]

theorem snapshot_latches (hon : bit d.snap.cfg i = true) (hshut : d.snap.merges d.dtime = false) :
    d.snapshot i c x n = { d with snap := d.snap.latch i d.dtime d.snapRegs c x n } := by
  have hcond : ¬(d.snap.open_ && decide (d.dtime ≤ d.snap.time + 100)) = true := by
    rw [← Snap.merges, hshut]
    exact Bool.false_ne_true
  simp only [Dev.snapshot, Dev.snapSource, hon, Bool.not_true, Bool.false_eq_true, if_false, if_neg hcond, Snap.latch]

end

/-- An edge of a source that no timer unit names moves no unit. -/
theorem tmuLevel_unheard {code : Nat} {d : Dev} (h : ∀ u : Fin 8, d.tmu[u].src ≠ code) (rising : Bool) :
    d.tmuLevel code rising = d := by
  unfold Dev.tmuLevel
  exact List.foldl_fixed' (fun w => if_pos (Or.inl (h w))) _

/-- A level at SNAP_IN that the filter drops. -/
theorem snapIn_short {d : Dev} {n : Nat} (h : n < fld d.snap.cfg 24 8) (rising : Bool) : d.snapIn rising n = d := by
  simp only [Dev.snapIn, h, if_true]

/-- An edge at SNAP_IN that the filter passes, of either polarity. -/
theorem snapIn_edge {d : Dev} {n : Nat} (h : fld d.snap.cfg 24 8 ≤ n) (hsel : fld d.snap.cfg 6 2 = 2)
    (hdeaf : ∀ u : Fin 8, d.tmu[u].src ≠ 56) (rising : Bool) :
    d.snapIn rising n = Dev.snapPlain 0 { d with snap := { d.snap with inLevel := rising } } := by
  have hlevel := tmuLevel_unheard (d := { d with snap := { d.snap with inLevel := rising } }) hdeaf rising
  simp only [Dev.snapIn, Nat.not_lt_of_le h, if_false, hsel, hlevel]
  rfl

theorem mergeClose_open {d : Dev} (hopen : d.snap.open_ = true) (hlate : d.snap.time + 100 < d.dtime) : ∃ recm,
    d.mergeClose = { d with snap := { d.snap with open_ := false }, recm := recm } ∧
    ∃ r ∈ recm.staging, r.type = 8 ∧ r.dtime = d.snap.time ∧ r.pres = d.dtime ∧
      fld (reqWord r.body 0) 0 16 = d.snap.num.toNat ∧ r.body.drop 2 = d.snap.regs.toList := by
  simp only [Dev.mergeClose, hopen, hlate, decide_true, Bool.and_self, if_true]
  refine ⟨_, rfl, _, Rec.mem_insert .., rfl, rfl, rfl, ?_, rfl⟩
  simp [reqWord, fld_or, fld_put_same, fld_put_disjoint, Nat.mod_eq_of_lt (d.snap.num.isLt)]

theorem mergeClose_waits {d : Dev} (h : d.snap.open_ = false ∨ d.dtime ≤ d.snap.time + 100) : d.mergeClose = d := by
  obtain h | h := h
  · simp [Dev.mergeClose, h]
  · simp [Dev.mergeClose, Nat.not_lt_of_le h]

section
variable {s : State} (hsettled : s.dev.settled)
include hsettled

/-- A command that changes the snapshots alone. -/
theorem completes_snap {c : Instr} {body : Env → Dev → Dev} {x : Snap} (hexec : exec c s = runAt (stampOf c) body s)
    (hbody : s.after (stampOf c) body = { s.dev.at (stampOf c) with snap := x }) :
    Completes c s fun s' => s'.dev.snap = x ∧ s.touches [.snap] s' :=
  completes_of_changesOnly hsettled hexec hbody (.of [.snap] (snap := .inl (by simp))) fun _ h htouches => ⟨h.snap, htouches⟩

/-- SNAP_CMD as a path triggers it, which disarms the path. -/
theorem completes_snapCmd {t : Ns} {p : Path} {x : Snap}
    (hbody : ((s.dev.at t).disarm p).snapPlain 4 = { (s.dev.at t).disarm p with snap := x }) :
    Completes (.snapCmdTrig t p) s fun s' => s'.dev.snap = x ∧ s.touches [.snap, .paths] s' :=
  completes_of_changesOnly hsettled rfl hbody (.of [.snap, .paths] (snap := .inl (by simp)) (paths := .inl (by simp)))
    fun _ h htouches => ⟨h.snap, htouches⟩

end

/-- Settles O48: a trigger does nothing, merges or latches, and the other commands on snapshots change the fields that they name. -/
theorem snapshots : Obligations.Snapshots := by
  unfold Obligations.Snapshots
  intro s t p hsettled x now latched
  refine ⟨?cmdLatch, ?cmdMerge, ?cmdOff, ?short, ?edge, ?close, ?waits, ?low, ?high⟩
  case cmdLatch =>
    intro hon hshut
    refine (completes_snapCmd hsettled (snapshot_latches hon (Snap.merges_eq_false hshut))).imp fun s' hs' => ?_
    obtain ⟨hsnap, htouches⟩ := hs'
    exact ⟨by rw [hsnap]; rfl, by rw [hsnap]; rfl, by rw [hsnap]; rfl, by rw [hsnap]; rfl, by rw [hsnap]; rfl, htouches⟩
  case cmdMerge =>
    intro hon hopen hnow
    refine completes_snapCmd hsettled (snapshot_merges hon ?_)
    exact (Bool.and_eq_true _ _).mpr ⟨hopen, decide_eq_true hnow⟩
  case cmdOff =>
    intro hoff
    exact completes_of_changesOnly hsettled rfl (snapshot_off hoff) (Dev.changesOnly_disarm p _) fun _ _ h => h
  case short =>
    intro rising n hshort
    exact completes_untouched (c := .snapInEdge t rising n) hsettled rfl (snapIn_short (d := s.dev.at t) hshort rising)
  case edge =>
    intro n hlong hon hsel hshut hdeaf rising
    refine (completes_snap hsettled (c := .snapInEdge t rising n) rfl
      ((snapIn_edge (d := s.dev.at t) hlong hsel hdeaf rising).trans
        (snapshot_latches hon (Snap.merges_eq_false (now := now) (x := { x with inLevel := rising }) hshut)))).imp
      fun s' hs' => ?_
    obtain ⟨hsnap, htouches⟩ := hs'
    refine ⟨?_, by rw [hsnap]; rfl, htouches⟩
    simp only [latched, hsnap]
    exact ⟨rfl, rfl, rfl, rfl, rfl, rfl, rfl, rfl, rfl, rfl⟩
  case close =>
    intro hopen hlate
    obtain ⟨recm, hbody, hrec⟩ := mergeClose_open (d := s.dev.at t) hopen hlate
    exact completes_of_changesOnly (c := .mergeWindowClose t) hsettled rfl hbody
      (.of [.snap, .recs] (snap := .inl (by simp)) (recs := .inl (by simp)))
      fun s' h htouches => ⟨h.snap, by rw [h.recm]; exact hrec, htouches⟩
  case waits =>
    intro hwaits
    exact completes_untouched (c := .mergeWindowClose t) hsettled rfl (mergeClose_waits hwaits)
  case low =>
    intro a hout hdue
    refine completes_snap hsettled (c := .snapOutEnd t) rfl ?_
    show (s.dev.at t).snapLow = _
    simp only [Dev.snapLow, Dev.at_snap, show s.dev.snap.outUntil = some a from hout]
    exact if_pos hdue
  case high =>
    intro a hout hearly
    refine completes_untouched (c := .snapOutEnd t) hsettled rfl ?_
    show (s.dev.at t).snapLow = _
    simp only [Dev.snapLow, Dev.at_snap, show s.dev.snap.outUntil = some a from hout]
    exact if_neg (Nat.not_le_of_lt hearly)

end Sys2Proof.Machine
end

section
/-! Records: the ring that a record goes to, the room that is made for it, and the bytes written (R268, R269, R274, R275). -/

namespace Sys2Proof.Machine

open Sys2Proof

/-! ### Bytes below a write -/

theorem sget_putBytes_below (l : List Byte) {b : Nat} : ∀ {m : List Host.Cell} {a : Nat}, Memory.wf m = true → b < a →
    sget 0 (putBytes m a l) b = sget 0 m b := by
  induction l with
  | nil => intros; rfl
  | cons x l ih =>
    intro m a hwf hb
    rw [putBytes]
    split
    · next ha =>
      rw [ih (swf_sput hwf a x (Nat.zero_le _) ha) (Nat.lt_succ_of_lt hb), sget_sput hwf, if_neg (Nat.ne_of_lt hb)]
    · exact ih hwf (Nat.lt_succ_of_lt hb)

theorem byte_bytes_below {m : Mems} (hwf : m.wf = true) (l : List Byte) {a b : Nat} (h : b < a) :
    ((MemOp.bytes a l).apply m).byte b = m.byte b := by
  rw [MemOp.apply_byte]
  exact sget_putBytes_below l ((Bool.and_eq_true _ _).mp hwf).1 h

theorem byte_bytes {m : Mems} (hwf : m.wf = true) (l : List Byte) {a i : Nat} (hend : a + l.length ≤ sramSize) (hi : i < l.length) :
    ((MemOp.bytes a l).apply m).byte (a + i) = (l[i]?).getD 0 := by
  rw [MemOp.apply_byte]
  refine (sget_putBytes ((Bool.and_eq_true _ _).mp hwf).1 l a (a + i) hend).trans ?_
  rw [if_pos ⟨Nat.le_add_right a i, Nat.add_lt_add_left hi a⟩, Nat.add_sub_cancel_left, List.getD_eq_getElem?_getD]

theorem wordsBytes_length (l : List W64) : (wordsBytes l).length = 8 * l.length := by
  induction l with
  | nil => rfl
  | cons w l ih =>
    rw [wordsBytes, List.flatMap_cons, List.length_append, wordBytes_length, List.length_cons]
    have : (List.flatMap wordBytes l).length = 8 * l.length := ih
    omega

/-! ### Room in a ring (R274) -/

/-- The bytes of pending records. -/
def storedSize (l : List Stored) : Nat := (l.map Stored.size).sum

/-- The oldest records go, as few as make room. -/
theorem makeRoom_spec (room n : Nat) : ∀ l : List Stored, ∃ j, makeRoom room n l = (l.drop j, j) ∧ j ≤ l.length ∧
    (∀ i, i < j → room < storedSize (l.drop i) + n) ∧ (j < l.length → storedSize (l.drop j) + n ≤ room)
  | [] => ⟨0, rfl, Nat.le_refl 0, nofun, nofun⟩
  | x :: l => by
    by_cases hfits : storedSize (x :: l) + n ≤ room
    · exact ⟨0, if_pos hfits, Nat.zero_le _, nofun, fun _ => hfits⟩
    · obtain ⟨j, hroom, hle, hfull, hfree⟩ := makeRoom_spec room n l
      refine ⟨j + 1, ?_, Nat.succ_le_succ hle, fun i hi => ?_, fun hj => hfree (Nat.lt_of_succ_lt_succ hj)⟩
      · rw [makeRoom, if_neg (show ¬((x :: l).map Stored.size).sum + n ≤ room from hfits), hroom]
        rfl
      · cases i with
        | zero => exact Nat.lt_of_not_le hfits
        | succ i => exact hfull i (Nat.lt_of_succ_lt_succ hi)

theorem Ring.lose_lost (n : Nat) (r : Ring) : (r.lose n).lost.toNat = min (2 ^ 32 - 1) (r.lost.toNat + n) := by
  simp only [Ring.lose, satN, BitVec.toNat_ofNat]
  split <;> omega

/-! ### A record written -/

/-- The record's payload in the form that its ring takes (R269, R271). -/
def Dev.payloadOf (x : Rec) (d : Dev) : List W64 :=
  x.body ++ (if x.type = 4 ∧ d.recm.evFull.getLsbD (x.evType - 1) = true then x.ext else [])

/-- The record as it is stored in ring `r` after `j` records have gone. -/
def Dev.storedAs (x : Rec) (r : Ring) (j : Nat) (d : Dev) : Stored :=
  { words := recHeader x (x.type == 4 && d.recm.evFull.getLsbD (x.evType - 1)) (r.lose j).lostBefore ((d.payloadOf x).length + 2) r.next ++
      d.payloadOf x
    start := r.wptr, ord := d.recm.ord }

/-- Ring `r` with a record stored after `j` of its records have gone. -/
def Dev.ringWith (x : Rec) (r : Ring) (j : Nat) (d : Dev) : Ring :=
  { { r with pending := r.pending.drop j }.lose j with
      pending := r.pending.drop j ++ [d.storedAs x r j], wptr := (r.wptr + 8 * ((d.payloadOf x).length + 2)) % r.room
      next := r.next + 1, lostBefore := false, stopped := false }

/-- The writes of a record at an offset of its ring, wrapping at the ring's end (R274). -/
def ringWrites (base room ofs : Nat) (l : List Byte) : List MemOp :=
  .bytes (recBase + 1024 * base + ofs) (l.take (room - ofs)) ::
    (if (l.drop (room - ofs)).isEmpty then [] else [.bytes (recBase + 1024 * base) (l.drop (room - ofs))])

/-- The device with a record stored in ring `k`. -/
def Dev.stores (x : Rec) (k : Fin 12) (j : Nat) (d : Dev) : Dev :=
  let r := d.recm.rings[k]
  { d with
    recm := { d.recm with rings := upd d.recm.rings k fun _ => d.ringWith x r j, ord := d.recm.ord + 1 }
    writes := d.writes ++ ringWrites r.base r.room r.wptr (wordsBytes (d.storedAs x r j).words) }

theorem writeRing_eq (base room ofs : Nat) (l : List Byte) (d : Dev) :
    d.writeRing base room ofs l = { d with writes := d.writes ++ ringWrites base room ofs l } := by
  simp only [Dev.writeRing, ringWrites]
  split <;> simp [Dev.write]

theorem payload_eq (x : Rec) (d : Dev) : (if (x.type == 4 && d.recm.evFull.getLsbD (x.evType - 1)) = true then x.body ++ x.ext else x.body) = d.payloadOf x := by
  simp only [Dev.payloadOf, Bool.and_eq_true, beq_iff_eq]
  split
  · rfl
  · exact (List.append_nil _).symm

section
variable {d : Dev} {x : Rec} {k : Fin 12} (hk : Fin.ofNat 12 x.type = k)
include hk

theorem writeRecord_none (hsize : d.recm.rings[k].size = 0) : d.writeRecord x = d := by
  subst hk
  exact if_pos hsize

/-- A ring that stops, without room for the record (R275). -/
theorem writeRecord_stops (hsize : d.recm.rings[k].size ≠ 0) (hpolicy : d.recm.rings[k].policy = true)
    (hfull : d.recm.rings[k].room < storedSize d.recm.rings[k].pending + 8 * ((d.payloadOf x).length + 2)) :
    d.writeRecord x = d.modRing k fun r => { r.lose 1 with stopped := true, next := r.next + 1 } := by
  subst hk
  refine (if_neg hsize).trans ?_
  simp only [payload_eq]
  exact if_pos ((Bool.and_eq_true _ _).mpr ⟨hpolicy, decide_eq_true hfull⟩)

/-- A ring that takes the record, the oldest pending ones going where there is no room (R274, R275). -/
theorem writeRecord_stores (hsize : d.recm.rings[k].size ≠ 0) (htakes : ¬(d.recm.rings[k].policy = true ∧
    d.recm.rings[k].room < storedSize d.recm.rings[k].pending + 8 * ((d.payloadOf x).length + 2))) : ∃ j,
    d.writeRecord x = d.stores x k j ∧ j ≤ d.recm.rings[k].pending.length ∧
    (∀ i, i < j → d.recm.rings[k].room < storedSize (d.recm.rings[k].pending.drop i) + 8 * ((d.payloadOf x).length + 2)) ∧
    (j < d.recm.rings[k].pending.length →
      storedSize (d.recm.rings[k].pending.drop j) + 8 * ((d.payloadOf x).length + 2) ≤ d.recm.rings[k].room) := by
  obtain ⟨j, hroom, hspec⟩ := makeRoom_spec d.recm.rings[k].room (8 * ((d.payloadOf x).length + 2)) d.recm.rings[k].pending
  refine ⟨j, ?_, hspec⟩
  subst hk
  refine (if_neg hsize).trans ?_
  simp only [payload_eq]
  refine (if_neg fun h => htakes ?_).trans ?_
  · obtain ⟨hpolicy, hfull⟩ := (Bool.and_eq_true _ _).mp h
    exact ⟨hpolicy, of_decide_eq_true hfull⟩
  · simp only [hroom, writeRing_eq]
    rfl

end

/-- The record whose turn it is leaves the result queue or staging, and nothing else of the record manager (R268). -/
theorem RecM.next_rest {m m' : RecM} {x : Rec} (h : m.next = some (x, m')) : ∃ q l, m' = { m with resultQ := q, staging := l } := by
  unfold RecM.next at h
  split at h
  · cases h
  · cases h
    exact ⟨_, _, rfl⟩
  · cases h
    exact ⟨_, _, rfl⟩
  · split at h <;> cases h <;> exact ⟨_, _, rfl⟩

/-- A stream that is off assembles nothing. -/
theorem assemble_off {i : Fin 2} {d : Dev} (h : d.recm.streams[i].en = false) : d.assemble i = d := by
  simp only [Dev.assemble, h, Bool.not_false, Bool.true_or, if_true]

theorem assembleBoth_off {d : Dev} (h : ∀ i : Fin 2, d.recm.streams[i].en = false) : d.assembleBoth = d := by
  rw [Dev.assembleBoth, assemble_off (h 0), assemble_off (h 1)]

end Sys2Proof.Machine
end

section
/-! RECORD_WRITE, CLR_LOST and DISCARD (R268, R269, R274, R275). -/

namespace Sys2Proof.Machine

open Sys2Proof

theorem bit_or (a b : W64) (i : Nat) : bit (a ||| b) i = (bit a i || bit b i) := BitVec.getLsbD_or

theorem putB_eq_put (i : Nat) (b : Bool) : putB i b = put i 1 b.toNat := by cases b <;> simp [putB, put]

theorem bit_putB_same {i : Nat} (hi : i < 64) (b : Bool) : bit (putB i b) i = b := by
  rw [putB_eq_put, bit, getLsbD_put]
  cases b <;> simp [hi]

theorem bit_putB_other {i j : Nat} (h : j ≠ i) (b : Bool) : bit (putB i b) j = false := by
  rw [putB_eq_put, bit, getLsbD_put]
  simp
  omega

theorem bit_put_outside {lo n i : Nat} (h : i < lo ∨ lo + n ≤ i) (x : Nat) : bit (put lo n x) i = false := by
  rw [bit, getLsbD_put]
  simp
  omega

section
variable (x : Rec) (full lost : Bool) (len : Nat) (seq : W32) (l : List W64)

/-- TYPE of a record's header (R269). -/
theorem recHeader_type : fld (reqWord (recHeader x full lost len seq ++ l) 0) 0 8 = x.type % 256 := by
  simp [recHeader, reqWord, fld_or, fld_put_same, fld_put_disjoint, fld_putB_disjoint]

/-- SEQ of a record's header (R269). -/
theorem recHeader_seq : fld (reqWord (recHeader x full lost len seq ++ l) 0) 32 32 = seq.toNat := by
  simp [recHeader, reqWord, fld_or, fld_put_same, fld_put_disjoint, fld_putB_disjoint, Nat.mod_eq_of_lt seq.isLt]

/-- LOST_BEFORE of a record's header (R269). -/
theorem recHeader_lostBefore : bit (reqWord (recHeader x full lost len seq ++ l) 0) 18 = lost := by
  simp [recHeader, reqWord, bit_or, bit_putB_same, bit_putB_other, bit_put_outside]

end

theorem recordStep_next {d : Dev} {x : Rec} {m : RecM} (hwrites : d.recWrites = true) (hnext : d.recm.next = some (x, m)) :
    d.recordStep = Dev.writeRecord x { d with recm := m } := by
  simp only [Dev.recordStep, hwrites, if_true, hnext]

section
variable {s : State} {t : Ns} {x : Rec} {m : RecM} (hclean : s.clean) (hwrites : s.dev.recWrites = true)
  (hnext : s.dev.recm.next = some (x, m)) (hoff : ∀ i : Fin 2, s.dev.recm.streams[i].en = false)
include hclean hwrites hnext hoff

/-- RECORD_WRITE with no stream in play: the record is written as `d` stands. -/
theorem completes_recordWrite {d : Dev} {l : List Group} {P : State → Prop}
    (hwritten : Dev.writeRecord x { s.dev.at t with recm := m } = d) (hstreams : d.recm.streams = m.streams)
    (honly : (s.dev.at t).ChangesOnly l d) (hP : ∀ s', Follows s d s' → s.touches l s' → P s') (hflt : .flt ∉ l := by simp) :
    Completes (.recordWrite t) s P := by
  refine completes_of_changesOnly hclean.1.2 rfl ?_ honly hP hflt
  show (s.dev.at t).recordStep.assembleBoth = d
  have hstep : (s.dev.at t).recordStep = d := (recordStep_next (d := s.dev.at t) hwrites hnext).trans hwritten
  rw [hstep]
  obtain ⟨_, _, rfl⟩ := RecM.next_rest hnext
  exact assembleBoth_off (hstreams ▸ hoff)

end

section
variable {s s' : State} {base room ofs : Nat} {l : List Byte} (hwf : s.mems.wf = true)
  (hmems : s'.mems = (ringWrites base room ofs l).foldl (fun m w => w.apply m) s.mems)
include hwf hmems

/-- A record's writes leave every byte below record memory. -/
theorem ringWrites_below {a : Nat} (ha : a < recBase) : s'.mems.byte a = s.mems.byte a := by
  rw [hmems, ringWrites]
  split
  · exact byte_bytes_below hwf _ (by omega)
  · exact (byte_bytes_below (Mems.wf_apply hwf _) _ (by omega)).trans (byte_bytes_below hwf _ (by omega))

/-- A record's bytes where its ring does not wrap. -/
theorem ringWrites_bytes (hfits : ofs + l.length ≤ room) (hend : recBase + 1024 * base + ofs + l.length ≤ msgBase) {i : Nat}
    (hi : i < l.length) : s'.mems.byte (recBase + 1024 * base + ofs + i) = (l[i]?).getD 0 := by
  have hlen : l.length ≤ room - ofs := by omega
  rw [hmems, ringWrites, List.take_of_length_le hlen, List.drop_eq_nil_of_le hlen]
  exact byte_bytes hwf l (Nat.le_trans hend (by decide)) hi

omit hwf in
/-- A record's writes leave every tag. -/
theorem ringWrites_attrs : s'.mems.attrs = s.mems.attrs := by
  rw [hmems, ringWrites]
  split <;> simp [MemOp.put]

end

section
variable {s : State} {p : Path} (hsettled : s.dev.settled)
include hsettled

/-- A command on the ring that its path has selected. -/
theorem completes_selRing {c : Instr} {f : Ring → Ring} {body : Env → Dev → Dev} {k : Fin 12}
    (hexec : exec c s = runAt (stampOf c) body s)
    (hbody : s.after (stampOf c) body = ((s.dev.at (stampOf c)).disarm p).modRing k f) :
    Completes c s fun s' => s'.dev.recm.rings[k] = f s.dev.recm.rings[k] ∧
      (∀ j, j ≠ k → s'.dev.recm.rings[j] = s.dev.recm.rings[j]) ∧ s.touches [.recs, .paths] s' := by
  refine completes_of_changesOnly hsettled hexec hbody (.of [.recs, .paths] (recs := .inl (by simp)) (paths := .inl (by simp)))
    fun s' h htouches => ?_
  have hrings : s'.dev.recm.rings = upd s.dev.recm.rings k f := congrArg RecM.rings h.recm
  exact ⟨hrings ▸ upd_same .., fun j hj => hrings ▸ upd_other _ _ _ _ hj, htouches⟩

end

theorem selRing_eq {s : State} {t : Ns} {p : Path} : ((s.dev.at t).disarm p).selRing p =
    if 1 ≤ fld (s.dev.ctx p).ringSel 0 4 ∧ fld (s.dev.ctx p).ringSel 0 4 ≤ 11 then some (Fin.ofNat 12 (fld (s.dev.ctx p).ringSel 0 4))
    else none := by
  simp only [Dev.selRing, Dev.ctx_disarm_same]
  rfl

/-- Settles O46: the ring of the record's type takes none, stops, or stores the record after as few of its oldest ones as make
room have gone. -/
theorem recordWriting : Obligations.RecordWriting := by
  unfold Obligations.RecordWriting
  refine ⟨fun s t x m hclean hwrites hnext hoff => ?written, fun s t p hsettled => ?selected⟩
  case written =>
    intro k r n body size room base
    obtain ⟨q, l, hm⟩ := RecM.next_rest hnext
    subst hm
    let d : Dev := { s.dev.at t with recm := { s.dev.recm with resultQ := q, staging := l } }
    have hbody : d.payloadOf x = body := rfl
    refine ⟨fun hsize => ?none, fun hsize hpolicy hfull => ?stops, fun hsize htakes => ?stores⟩
    case none =>
      exact completes_recordWrite hclean hwrites hnext hoff (writeRecord_none (d := d) rfl hsize) rfl
        (.of [.recs] (recs := .inl (by simp))) fun s' h htouches => ⟨h.recm, htouches⟩
    case stops =>
      refine completes_recordWrite hclean hwrites hnext hoff (writeRecord_stops (d := d) rfl hsize hpolicy hfull) rfl
        (.of [.recs] (recs := .inl (by simp))) fun s' h htouches => ?_
      have hring : s'.dev.recm.rings[k] = { r.lose 1 with stopped := true, next := r.next + 1 } := by
        rw [h.recm]
        exact upd_same ..
      refine ⟨?_, congrArg Ring.stopped hring, congrArg Ring.next hring, ?_, ?_, htouches⟩
      · rw [congrArg Ring.pending hring]
        rfl
      · rw [congrArg Ring.lost hring]
        exact Ring.lose_lost 1 r
      · rw [congrArg Ring.lostSeen hring]
        exact Bool.or_true _
    case stores =>
      obtain ⟨j, hwritten, hj, hfew, hfree⟩ := writeRecord_stores (d := d) rfl hsize htakes
      refine completes_recordWrite hclean hwrites hnext hoff hwritten rfl
        (.of [.recs, .mems] (recs := .inl (by simp)) (writes := .inl (by simp))) fun s' h htouches => ?_
      have hring : s'.dev.recm.rings[k] = d.ringWith x r j := by
        rw [h.recm]
        exact upd_same ..
      have hmems : s'.mems = (ringWrites r.base room r.wptr (wordsBytes (d.storedAs x r j).words)).foldl
          (fun m w => w.apply m) s.mems := by
        rw [h.mems]
        show List.foldl _ _ (s.dev.writes ++ _) = _
        rw [hclean.1.2.2]
        rfl
      have hlen : (wordsBytes (d.storedAs x r j).words).length = size := by
        rw [wordsBytes_length]
        simp [Dev.storedAs, recHeader, hbody, size]
      have hother (i : Fin 12) (hi : i ≠ k) : s'.dev.recm.rings[i] = s.dev.recm.rings[i] := by
        rw [h.recm]
        exact upd_other _ _ _ _ hi
      refine ⟨⟨j, d.storedAs x r j, hj, congrArg Ring.pending hring, rfl, rfl, hfew, hfree, ?lost, recHeader_type .., recHeader_seq ..,
        ?lostBefore, rfl, ?bytes⟩, congrArg Ring.next hring, congrArg Ring.wptr hring, congrArg Ring.stopped hring,
        fun a => ringWrites_below hclean.1.1 hmems, ringWrites_attrs hmems, hother, htouches⟩
      case lost =>
        rw [congrArg Ring.lost hring]
        exact Ring.lose_lost j r
      case lostBefore =>
        refine (recHeader_lostBefore ..).trans ?_
        rw [Ring.lose]
        cases j <;> rfl
      case bytes =>
        intro hfits hend i hi
        exact ringWrites_bytes hclean.1.1 hmems (by omega) (by omega) (by omega)
  case selected =>
    intro k r
    refine ⟨fun hlo hhi => ⟨?clear, ?discard⟩, fun hout => ⟨?clearNone, ?discardNone⟩⟩
    case clear =>
      refine completes_selRing (p := p) (f := fun r => { r with lost := 0 }) hsettled rfl ?_
      show ((s.dev.at t).disarm p).clearLost p = _
      rw [Dev.clearLost, selRing_eq, if_pos ⟨hlo, hhi⟩]
      rfl
    case discard =>
      refine completes_selRing (p := p) (f := fun r => { r with pending := [], stopped := false }) hsettled rfl ?_
      show ((s.dev.at t).disarm p).discardRing p = _
      rw [Dev.discardRing, selRing_eq, if_pos ⟨hlo, hhi⟩]
      rfl
    case clearNone =>
      refine completes_of_changesOnly hsettled rfl ?_ (Dev.changesOnly_disarm p (s.dev.at t)) fun _ _ h => h
      show ((s.dev.at t).disarm p).clearLost p = _
      rw [Dev.clearLost, selRing_eq, if_neg (by omega)]
    case discardNone =>
      refine completes_of_changesOnly hsettled rfl ?_ (Dev.changesOnly_disarm p (s.dev.at t)) fun _ _ h => h
      show ((s.dev.at t).disarm p).discardRing p = _
      rw [Dev.discardRing, selRing_eq, if_neg (by omega)]

end Sys2Proof.Machine
end

section
/-! The frames of a record stream: queued as they stand, and consumed once they are sent (R277). -/

namespace Sys2Proof.Machine

open Sys2Proof

/-! ### Reading undamaged records -/

theorem readStored_clean {d : Dev} (herrs : d.memu.errs = []) (k : Fin 12) (z : Stored) :
    d.readStored k z = (wordsBytes z.words, d) := by
  simp [Dev.readStored, Dev.readIn, herrs]

theorem readAll_clean {d : Dev} (herrs : d.memu.errs = []) : ∀ l : List (Fin 12 × Stored),
    Dev.readAll l d = (l.flatMap fun z => wordsBytes z.2.words, d)
  | [] => rfl
  | x :: l => by simp only [Dev.readAll, readStored_clean herrs, readAll_clean herrs l, List.flatMap_cons]

/-! ### A frame queued and sent -/

/-- A frame of `n` bytes has been sent. -/
def Stream.sent (n : Nat) (x : Stream) : Stream :=
  { x with queued := none, frames := x.frames + 1, lastLen := BitVec.ofNat 12 n }

/-- The stream's frame with the records of a list. -/
def Dev.streamFrame (i : Fin 2) (l : List (Fin 12 × Stored)) (d : Dev) : TxFrame :=
  let s := d.recm.streams[i]
  let head := put 0 8 1 ||| putB 8 (i == 1) ||| put 16 16 s.count.toNat ||| put 32 8 l.length
  { src := .stream i, at_ := d.dtime
    frame :=
      { format := .xl, ide := false, id := BitVec.ofNat 29 (fld s.cfg 48 11), remote := false, brs := false
        sdt := BitVec.ofNat 8 (fld s.xl 0 8), vcid := BitVec.ofNat 8 (fld s.xl 8 8), af := BitVec.ofNat 32 (fld s.xl 32 32)
        data := wordBytes head ++ l.flatMap fun z => wordsBytes z.2.words, sof := 0 } }

/-- The stream with its frame queued. -/
def Stream.queues (n : Nat) (l : List (Fin 12 × Stored)) (x : Stream) : Stream :=
  { x with queued := some (n, l.map fun z => (z.1, z.2.ord)), count := x.count + 1, firstAt := none }

/-- A frame joins the queue of its controller unless that is bus-off (R306). -/
def Can.takes (f : TxFrame) (c : Can) : Can := if c.busOff then c else { c with txq := c.txq ++ [f] }

theorem queueStream_clean {d : Dev} (herrs : d.memu.errs = []) (i : Fin 2) (l : List (Fin 12 × Stored)) :
    d.queueStream i l = (d.modCan d.recm.streams[i].can (Can.takes (d.streamFrame i l))).modStream i
      (Stream.queues (d.streamFrame i l).frame.data.length l) := by
  simp only [Dev.queueStream, readAll_clean herrs]
  rfl

/-- A controller that can send is not bus-off. -/
theorem busOff_of_canSends {d : Dev} {k : Fin 4} (h : d.canSends k = true) : d.can[k].busOff = false := by
  simp only [Dev.canSends, Dev.canActive, Bool.and_eq_true, Bool.not_eq_true'] at h
  exact h.1.1.1.1.1.2

/-- The frame being assembled has its first record (R277). -/
def Stream.begins (now : Ns) (x : Stream) : Stream := { x with firstAt := some (x.firstAt.getD now) }

/-- `d'` is `d` but for one controller, and for what stream `i` keeps beside its counts of frames sent. -/
def Dev.Assembled (i : Fin 2) (d d' : Dev) : Prop :=
  ∃ (f : Stream → Stream) (g : Can → Can) (k : Fin 4), d' = (d.modCan k g).modStream i f ∧
    ∀ x, (f x).frames = x.frames ∧ (f x).lastLen = x.lastLen

section
variable {i : Fin 2} {d : Dev}

theorem modCan_self (k : Fin 4) (d : Dev) : d.modCan k id = d := by simp [Dev.modCan, upd]

theorem modStream_modStream (f g : Stream → Stream) (d : Dev) :
    (d.modStream i f).modStream i g = d.modStream i fun x => g (f x) := by
  simp only [Dev.modStream, Dev.modRecm, upd_upd]

theorem assembled_modStream (f : Stream → Stream) (hf : ∀ x, (f x).frames = x.frames ∧ (f x).lastLen = x.lastLen) :
    d.Assembled i (d.modStream i f) := ⟨f, id, 0, by rw [modCan_self], hf⟩

theorem assembled_queue (herrs : d.memu.errs = []) (l : List (Fin 12 × Stored)) :
    d.Assembled i ((d.modStream i (Stream.begins d.dtime)).queueStream i l) :=
  let d₁ := d.modStream i (Stream.begins d.dtime)
  ⟨fun x => (x.begins d.dtime).queues (d₁.streamFrame i l).frame.data.length l, Can.takes (d₁.streamFrame i l),
    d₁.recm.streams[i].can, (queueStream_clean (d := d₁) herrs i l).trans (modStream_modStream _ _ (d.modCan _ _)), fun _ => ⟨rfl, rfl⟩⟩

/-- Assembly leaves the rings, and of the stream its counts (R277). -/
theorem assemble_clean (herrs : d.memu.errs = []) : d.Assembled i (d.assemble i) := by
  unfold Dev.assemble
  simp only
  split
  · have hself : d.modStream i id = d := by simp [Dev.modStream, Dev.modRecm, upd]
    have hkept := assembled_modStream (i := i) (d := d) id fun _ => ⟨rfl, rfl⟩
    rwa [hself] at hkept
  · split
    · exact assembled_modStream _ fun _ => ⟨rfl, rfl⟩
    · split
      · exact assembled_queue herrs _
      · exact assembled_modStream _ fun _ => ⟨rfl, rfl⟩

end

/-! ### Records consumed -/

theorem foldl_consume (recs : List (Fin 12 × Nat)) : ∀ d : Dev, ∃ rings : Vector Ring 12,
    recs.foldl (fun d x => d.consume x.1 x.2) d = d.modRecm (fun m => { m with rings := rings }) ∧
    ∀ (k : Fin 12) (z : Stored), z ∈ rings[k].pending ↔ z ∈ d.recm.rings[k].pending ∧ (k, z.ord) ∉ recs := by
  induction recs with
  | nil => exact fun d => ⟨d.recm.rings, rfl, fun k z => by simp⟩
  | cons x recs ih =>
    intro d
    obtain ⟨rings, hfold, hmem⟩ := ih (d.consume x.1 x.2)
    refine ⟨rings, hfold, fun k z => ?_⟩
    rw [hmem]
    by_cases hk : k = x.1
    · subst hk
      have hring : (d.consume x.1 x.2).recm.rings[x.1].pending = d.recm.rings[x.1].pending.filter fun z => z.ord != x.2 := by
        simp [Dev.consume, Dev.modRing, Dev.modRecm]
      rw [hring, List.mem_filter, bne_iff_ne, List.mem_cons, Prod.ext_iff]
      tauto
    · have hring : (d.consume x.1 x.2).recm.rings[k] = d.recm.rings[k] := upd_other _ _ _ _ hk
      rw [hring, List.mem_cons, Prod.ext_iff]
      tauto

/-! ### The obligation -/

theorem maxWait_early {d : Dev} {i : Fin 2} {a : Ns} (hfirst : d.recm.streams[i].firstAt = some a)
    (hearly : d.dtime < a + 1000 * fld d.recm.streams[i].cfg 32 16) : d.maxWait i = d := by
  simp only [Dev.maxWait, hfirst]
  refine if_neg ?_
  simp [-Fin.getElem_fin, Nat.not_le_of_lt hearly]

theorem maxWait_queues {d : Dev} {i : Fin 2} {a : Ns} {l : List (Fin 12 × Stored)}
    (htake : (takeFrame (fld d.recm.streams[i].cfg 8 11) 0 (d.pendingOf (streamCode i))).1 = l)
    (hfirst : d.recm.streams[i].firstAt = some a) (hen : d.recm.streams[i].en = true) (hfree : d.recm.streams[i].queued = none)
    (hl : l ≠ []) (hdue : a + 1000 * fld d.recm.streams[i].cfg 32 16 ≤ d.dtime) (hsends : d.canSends d.recm.streams[i].can = true) :
    d.maxWait i = d.queueStream i l := by
  simp only [Dev.maxWait, hfirst, htake]
  refine if_pos ?_
  simp [-Fin.getElem_fin, hen, hfree, hl, hdue, hsends]

theorem streamSent_waits {d : Dev} {i : Fin 2} (h : d.streamWaits i = true) : d.streamSent i = d := by
  unfold Dev.streamSent
  split
  · exact if_pos h
  · rfl

theorem streamSent_consumes {d : Dev} {i : Fin 2} {n : Nat} {recs : List (Fin 12 × Nat)}
    (hqueued : d.recm.streams[i].queued = some (n, recs)) (hgone : d.streamWaits i = false) : d.streamSent i =
    ((recs.foldl (fun d x => d.consume x.1 x.2) d).modStream i (Stream.sent n)).assemble i := by
  simp only [Dev.streamSent, hqueued, hgone, Bool.false_eq_true, if_false]
  rfl

/-- Settles O47: a frame is queued with the records that wait, and its records are consumed once its controller has sent it. -/
theorem streams : Obligations.Streams := by
  unfold Obligations.Streams
  intro s t i hclean x l
  refine ⟨fun a hfirst hen hfree hl hdue hsends => ?queues, fun a hfirst hearly => ?early, fun n recs hqueued hgone => ?sent,
    fun hwaits => ?waits⟩
  case queues =>
    have hbody := (maxWait_queues (d := s.dev.at t) (i := i) rfl hfirst hen hfree hl hdue hsends).trans
      (queueStream_clean (d := s.dev.at t) hclean.2.1 i l)
    refine completes_of_changesOnly (c := .streamMaxWait t i) (l := [.recs, .can]) hclean.1.2 rfl hbody
      (.of _ (recs := .inl (by simp)) (can := .inl (by simp))) fun s' h htouches => ?_
    have hstream : s'.dev.recm.streams[i] = x.queues ((s.dev.at t).streamFrame i l).frame.data.length l := by
      rw [h.recm]
      exact upd_same ..
    have hcan : s'.dev.can[x.can] = s.dev.can[x.can].takes ((s.dev.at t).streamFrame i l) := by
      rw [h.can]
      exact upd_same ..
    refine ⟨⟨(s.dev.at t).streamFrame i l, ?_, rfl, rfl, rfl, ?_, ?_, ?_⟩, ?_, ?_, ?_, htouches⟩
    · rw [hcan, Can.takes, busOff_of_canSends hsends]
      rfl
    · exact Nat.mod_eq_of_lt (Nat.lt_trans (Nat.mod_lt _ (by decide : 0 < 2 ^ 11)) (by decide))
    · exact List.drop_left' (wordBytes_length _)
    · rw [hstream]
      rfl
    · rw [hstream]
      rfl
    · rw [hstream]
      rfl
    · rw [h.recm]
      rfl
  case early => exact completes_untouched (c := .streamMaxWait t i) hclean.1.2 rfl (maxWait_early (d := s.dev.at t) hfirst hearly)
  case waits => exact completes_untouched (c := .streamFrameTransmitted t i) hclean.1.2 rfl (streamSent_waits (d := s.dev.at t) hwaits)
  case sent =>
    obtain ⟨rings, hfold, hmem⟩ := foldl_consume recs (s.dev.at t)
    have hbody := streamSent_consumes (d := s.dev.at t) hqueued hgone
    rw [hfold] at hbody
    obtain ⟨f, g, k, hassemble, hkept⟩ := assemble_clean
      (d := ((s.dev.at t).modRecm fun m => { m with rings := rings }).modStream i (Stream.sent n)) hclean.2.1
    refine completes_of_changesOnly (c := .streamFrameTransmitted t i) (l := [.recs, .can]) hclean.1.2 rfl (hbody.trans hassemble)
      (.of _ (recs := .inl (by simp)) (can := .inl (by simp))) fun s' h htouches => ?_
    have hstream : s'.dev.recm.streams[i] = f (x.sent n) := by
      rw [h.recm]
      exact (upd_same ..).trans (congrArg f (upd_same s.dev.recm.streams i (Stream.sent n)))
    have hrings : s'.dev.recm.rings = rings := by rw [h.recm]; rfl
    rw [hstream, hrings]
    exact ⟨(hkept _).1, (hkept _).2, hmem, htouches⟩

end Sys2Proof.Machine
end

section
/-! The registers of timer units and PIO machines: starts, VALUE of a channel, and what reaches a machine from outside its program
(R285, R289, R290, R293, R295, R299 to R303). -/

namespace Sys2Proof.Machine

open Sys2Proof

/-! ### Starts of timer units (R285) -/

theorem Tmu.ch_arm (x : Tmu) (j : Fin 4) :
    x.arm.ch[j] = if x.ch[j].mode = 1 then { x.ch[j] with armed := true } else x.ch[j] := by
  simp only [Tmu.arm, Fin.getElem_fin, Vector.getElem_map]

theorem tmuStart_tmu (v : W64) (d : Dev) (w : Fin 8) : (d.tmuStart v).tmu[w] =
    if bit v w.val && !d.tmu[w].running then { d.tmu[w].load.arm with running := true, from_ := d.dtime } else d.tmu[w] := by
  simp only [Dev.tmuStart, Fin.getElem_fin, Vector.getElem_mapFinIdx]

/-- A unit that starts keeps its RELOAD, counts from it, and has every compare channel armed (R283, R285). -/
theorem start_runs (now : Ns) (x : Tmu) (y : Tmu) (h : y = { x.load.arm with running := true, from_ := now }) :
    y.running = true ∧ y.from_ = now ∧ y.cnt = x.reload - 1 ∧ y.reload = x.reload ∧
      ∀ j : Fin 4, y.ch[j] = if x.ch[j].mode = 1 then { x.ch[j] with armed := true } else x.ch[j] := by
  subst h
  exact ⟨rfl, rfl, rfl, rfl, fun j => Tmu.ch_arm x.load j⟩

/-! ### VALUE of a channel (R289, R290, R293) -/

section
variable {d : Dev} {u : Fin 8} {c : Fin 4} {v : W32}

theorem chVal_capture (hmode : d.tmu[u].ch[c].mode = 2) : d.chVal u c v false = d.modTmu u fun x => { x with cfgIgn := true } :=
  if_pos hmode

/-- A write in the core clock of an EMIT to the channel does not stand. -/
theorem chVal_emitted (hmode : d.tmu[u].ch[c].mode ≠ 2) (hclock : sameClock d.tmu[u].ch[c].emitAt d.dtime = true) :
    d.chVal u c v false = d := by
  simp only [Dev.chVal, if_neg hmode, hclock]
  rfl

/-- VALUE of a compare channel whose unit does not tick in this clock. -/
theorem chVal_compare (hmode : d.tmu[u].ch[c].mode ≠ 2) (hclock : sameClock d.tmu[u].ch[c].emitAt d.dtime = false)
    (htick : d.tmu[u].tickedAt ≠ some d.dtime) : d.chVal u c v false = d.modTmu u (Tmu.modCh c fun x =>
      { x with val := v, armed := x.armed || x.mode == 1 }) := by
  simp only [Dev.chVal, if_neg hmode, hclock, Bool.not_false, Bool.and_false, Bool.false_eq_true, if_false]
  exact if_pos (.inl fun hticked => htick ((congrArg Tmu.tickedAt (upd_same d.tmu u _)).symm.trans hticked))

end

theorem Tmu.modCh_same (c : Fin 4) (f : Chan → Chan) (x : Tmu) : (x.modCh c f).ch[c] = f x.ch[c] := upd_same ..

theorem Tmu.modCh_other {c j : Fin 4} (h : j ≠ c) (f : Chan → Chan) (x : Tmu) : (x.modCh c f).ch[j] = x.ch[j] := upd_other _ _ _ _ h

theorem Tmu.modCh_self {c : Fin 4} {f : Chan → Chan} {x : Tmu} (h : f x.ch[c] = x.ch[c]) : x.modCh c f = x := by
  simp only [Tmu.modCh, upd, h]
  simp

theorem Dev.modTmu_self {u : Fin 8} {f : Tmu → Tmu} {d : Dev} (h : f d.tmu[u] = d.tmu[u]) : d.modTmu u f = d := by
  simp only [Dev.modTmu, upd, h]
  simp

/-! ### What reaches a PIO machine from its registers (R299 to R303) -/

section
variable {d : Dev} {m : Fin 8}

theorem Dev.modPio_congr {f g : Pio → Pio} (h : f d.pio[m] = g d.pio[m]) : d.modPio m f = d.modPio m g := by
  simp only [Dev.modPio, upd, h]

theorem Dev.modPio_modPio (f g : Pio → Pio) : (d.modPio m f).modPio m g = d.modPio m fun x => g (f x) := by
  simp only [Dev.modPio, upd_upd]

theorem Dev.modPio_same (f : Pio → Pio) : (d.modPio m f).pio[m] = f d.pio[m] := upd_same ..

theorem Dev.modPio_other {j : Fin 8} (h : j ≠ m) (f : Pio → Pio) : (d.modPio m f).pio[j] = d.pio[j] := upd_other _ _ _ _ h

theorem Dev.modPio_self (f : Pio → Pio) (h : f d.pio[m] = d.pio[m]) : d.modPio m f = d := by
  simp only [Dev.modPio, upd, h]
  simp

/-- One read of the receive queue takes its first word, if it has one (R300). -/
theorem rxqRead_tail : (d.rxqRead m).2 = d.modPio m fun x => { x with rx := x.rx.tail } := by
  unfold Dev.rxqRead
  split
  · next h => exact (Dev.modPio_self _ (by rw [h, List.tail_nil, ← h])).symm
  · next h => exact Dev.modPio_congr (by rw [h, List.tail_cons])

theorem txqWrite_eq (v : W32) : d.txqWrite m v = d.modPio m fun x =>
    if x.tx.length < x.txCap then { x with tx := x.tx ++ [v] } else { x with hostLost := x.hostLost + 1 } := by
  unfold Dev.txqWrite Dev.txPush
  by_cases hroom : d.pio[m].tx.length < d.pio[m].txCap
  · simp only [if_pos hroom]
    exact Dev.modPio_congr (if_pos hroom).symm
  · simp only [if_neg hroom, Bool.false_eq_true, if_false]
    exact Dev.modPio_congr (if_neg hroom).symm

theorem pioInject_refused {w : BitVec 16} (h : d.pioRuns m = false ∨ d.pio[m].inject ≠ none ∨ pioWordOk w = false) :
    d.pioInject m w = d.modPio m fun x => { x with injIgn := true } := by
  refine if_pos ?_
  rw [← Option.isSome_iff_ne_none] at h
  obtain h | h | h := h
  · simp [-Fin.getElem_fin, h]
  · simp [-Fin.getElem_fin, h]
  · simp [-Fin.getElem_fin, h]

theorem pioInject_taken {w : BitVec 16} (hruns : d.pioRuns m = true) (hfree : d.pio[m].inject = none) (hok : pioWordOk w = true) :
    d.pioInject m w = d.modPio m fun x => { x with inject := some w, wait := .none } := by
  refine if_neg ?_
  simp [-Fin.getElem_fin, hruns, hfree, hok]

theorem getLsbD_or_twoPow (a : Byte) (n j : Nat) (hj : j < 8) :
    (a ||| BitVec.ofNat 8 (2 ^ n)).getLsbD j = (a.getLsbD j || decide (n = j)) := by
  rw [BitVec.getLsbD_or, BitVec.getLsbD_ofNat, Nat.testBit_two_pow]
  simp [hj]

/-- A flag that is set is set, whether it was before or not (R299). -/
theorem raiseFlag_flags (i j : Nat) (hj : j < 8) (d : Dev) :
    (d.raiseFlag i).pios.flags.getLsbD j = (d.pios.flags.getLsbD j || decide (i = j)) := by
  unfold Dev.raiseFlag
  simp only
  split
  · next hset =>
    by_cases hij : i = j
    · subst hij
      simp [hset]
    · simp [hij]
  · exact getLsbD_or_twoPow _ _ _ hj

theorem raiseFlag_eq (i : Nat) (d : Dev) : ∃ flags merged,
    d.raiseFlag i = d.modPios fun s => { s with flags := flags, merged := merged } := by
  unfold Dev.raiseFlag
  simp only
  split <;> exact ⟨_, _, rfl⟩

/-- Flags set one by one leave lines, latches and directions (R299). -/
theorem flags_set (v : W64) (n : Nat) (d : Dev) : ∃ flags merged,
    (List.range n).foldl (fun d i => if bit v i then d.raiseFlag i else d) d =
      d.modPios (fun s => { s with flags := flags, merged := merged }) ∧
    ∀ j, j < 8 → flags.getLsbD j = (d.pios.flags.getLsbD j || (decide (j < n) && bit v j)) := by
  induction n with
  | zero => exact ⟨d.pios.flags, d.pios.merged, rfl, fun j _ => by simp⟩
  | succ n ih =>
    obtain ⟨flags, merged, hfold, hflags⟩ := ih
    rw [List.range_succ, List.foldl_append, hfold, List.foldl_cons, List.foldl_nil]
    by_cases hv : bit v n = true
    · rw [if_pos hv]
      obtain ⟨flags', merged', hraise⟩ := raiseFlag_eq n (d.modPios fun s => { s with flags := flags, merged := merged })
      refine ⟨flags', merged', hraise, fun j hj => ?_⟩
      have hflag := raiseFlag_flags n j hj (d.modPios fun s => { s with flags := flags, merged := merged })
      rw [hraise] at hflag
      refine hflag.trans ?_
      show (flags.getLsbD j || decide (n = j)) = _
      rw [hflags j hj]
      by_cases hnj : n = j
      · subst hnj
        simp [hv]
      · simp [hnj, show (j < n + 1) = (j < n) by simp; omega]
    · rw [if_neg hv]
      refine ⟨flags, merged, rfl, fun j hj => ?_⟩
      rw [hflags j hj]
      by_cases hnj : n = j
      · subst hnj
        simp [hv]
      · simp [show (j < n + 1) = (j < n) by simp; omega]

/-- The receive slot is left as it is (R301). -/
theorem pioStale_none (h : bit d.pio[m].rxSlot 14 = false ∨ fld d.pio[m].rxSlot 16 16 = 0 ∨ d.pio[m].stale = true ∨
    ¬d.pio[m].lastRx + 1000 * fld d.pio[m].rxSlot 16 16 ≤ d.dtime) : d.pioStale m = d := by
  refine if_neg ?_
  simp only [Bool.and_eq_true, bne_iff_ne, Bool.not_eq_true', decide_eq_true_eq]
  rintro ⟨⟨⟨hon, htime⟩, hfresh⟩, hdue⟩
  obtain h | h | h | h := h
  · exact Bool.false_ne_true (h.symm.trans hon)
  · exact htime h
  · exact Bool.false_ne_true (hfresh.symm.trans h)
  · exact h hdue

theorem pioStale_stales (hon : bit d.pio[m].rxSlot 14 = true) (htime : fld d.pio[m].rxSlot 16 16 ≠ 0) (hfresh : d.pio[m].stale = false)
    (hdue : d.pio[m].lastRx + 1000 * fld d.pio[m].rxSlot 16 16 ≤ d.dtime) (hdead : d.memu.deadTags = []) :
    d.pioStale m = (d.write (.stale (fld d.pio[m].rxSlot 0 14))).modPio m fun x => { x with stale := true } := by
  have hslot : d.staleSlot (fld d.pio[m].rxSlot 0 14) = d.write (.stale (fld d.pio[m].rxSlot 0 14)) := by
    have hlt : fld d.pio[m].rxSlot 0 14 < 16384 := Nat.mod_lt _ (by decide)
    simp [-Fin.getElem_fin, Dev.staleSlot, Nat.not_le_of_lt hlt, Dev.tagDead_clean hdead]
  refine (if_pos ?_).trans (congrArg (Dev.modPio m _) hslot)
  simp [-Fin.getElem_fin, hon, htime, hfresh, hdue]

end

section
variable {s : State} (hsettled : s.dev.settled)
include hsettled

/-- A command of a path that changes one PIO machine. -/
theorem completes_ctx_pio {c : Instr} {body : Env → Dev → Dev} {p : Path} {m : Fin 8} {f : Pio → Pio}
    (hexec : exec c s = runAt (stampOf c) body s)
    (hbody : s.after (stampOf c) body = ((s.dev.at (stampOf c)).disarm p).modPio m f) :
    Completes c s fun s' => s'.dev.pio[m] = f s.dev.pio[m] ∧ (∀ j, j ≠ m → s'.dev.pio[j] = s.dev.pio[j]) ∧
      s'.dev.pios = s.dev.pios ∧ s.touches [.pio, .paths] s' := by
  refine completes_of_changesOnly hsettled hexec hbody (.of [.pio, .paths] (pio := .inl (by simp)) (paths := .inl (by simp)))
    fun s' h htouches => ⟨?_, fun j hj => ?_, h.pios, htouches⟩
  · rw [h.pio]
    exact upd_same ..
  · rw [h.pio]
    exact upd_other _ _ _ _ hj

end

/-- A key written with a value that is listed reads as that value, in whatever form the table is. -/
theorem sget_sput_listed {α : Type} [DecidableEq α] {dflt v : α} (hv : v ≠ dflt) (a : Nat) : ∀ l : List (Nat × α),
    sget dflt (sput dflt l a v) a = v
  | [] => by simp [sput, hv, sget]
  | (k, x) :: l => by
    simp only [sput, hv, if_false]
    split
    · simp [sget]
    · split
      · simp [sget]
      · next hne => simp [sget, hne, sget_sput_listed hv a l]

/-- A slot marked stale (R226), in whatever form the tag array is listed. -/
theorem attr_staled {m : Mems} {i : Nat} (hi : i < 16384) (hcls : (sget {} m.attrs i).cls = 1) (hwriter : (sget {} m.attrs i).writer = 8) :
    sget {} ((MemOp.stale i).apply m).attrs i = { sget {} m.attrs i with tag := ((sget {} m.attrs i).tag ||| 2) &&& 0xFE } := by
  simp only [MemOp.apply_attrs, MemOp.put, hi, hcls, hwriter, true_and, if_true]
  refine sget_sput_listed (fun h => ?_) i m.attrs
  exact absurd (congrArg SlotAttr.cls h) (show (1 : BitVec 2) ≠ 0 by decide)

/-- Settles O52: each command leaves one timer unit, or one PIO machine, changed. -/
theorem timerAndPioRegisters : Obligations.TimerAndPioRegisters := by
  unfold Obligations.TimerAndPioRegisters
  refine ⟨fun s t p v hsettled => ?timers, fun s t p hsettled => ?machines⟩
  case timers =>
    intro u c x rest
    let d := (s.dev.at t).disarm p
    have hsel : d.tmuSelOf p = (u, c) := Dev.tmuSelOf_disarm p (s.dev.at t)
    have hval : d.chVal (d.tmuSelOf p).1 (d.tmuSelOf p).2 (v.setWidth 32) false = d.chVal u c (v.setWidth 32) false := by rw [hsel]
    have hread : Dev.captureRead p (s.dev.at t) =
        (s.dev.at t).modTmu u (Tmu.modCh c fun x => if x.mode = 2 then { x with unread := false } else x) := rfl
    refine ⟨?start, fun hmode hclock => ?emitted, fun hmode hclock htick => ?compare, fun hmode => ?capture, fun hmode => ?read,
      fun hmode => ?noRead⟩
    case start =>
      refine completes_of_changesOnly (c := .tmuStart t p v) (l := [.tmu, .paths]) hsettled rfl rfl
        (.of _ (tmu := .inl (by simp)) (paths := .inl (by simp))) fun s' h htouches => ⟨htouches, fun w => ?_⟩
      intro a b
      have hunit : b = if bit v w.val && !a.running then { a.load.arm with running := true, from_ := s.now t } else a := by
        refine Eq.trans ?_ (tmuStart_tmu v d w)
        exact congrArg (·[w]) h.tmu
      refine ⟨fun hv hstill => start_runs _ a b ?_, fun hstays => ?_⟩
      · rw [hunit, hv, hstill]
        rfl
      · rw [hunit]
        refine if_neg ?_
        obtain hv | hruns := hstays
        · simp [hv]
        · simp [hruns]
    case emitted =>
      exact completes_of_changesOnly (c := .compareValueWrite t p v) hsettled rfl (hval.trans (chVal_emitted (d := d) hmode hclock))
        (Dev.changesOnly_disarm p _) fun _ _ h => h
    case compare =>
      refine (completes_ctx_tmu (p := p) (c := .compareValueWrite t p v) hsettled u _ rfl
        (hval.trans (chVal_compare (d := d) hmode hclock htick))).imp fun s' hs' => ?_
      obtain ⟨hunit, hothers, htouches⟩ := hs'
      refine ⟨?_, ⟨hothers, fun j hj => ?_⟩, htouches⟩
      · rw [hunit, Tmu.modCh_same]
        rfl
      · rw [hunit, Tmu.modCh_other hj]
    case capture =>
      refine (completes_ctx_tmu (p := p) (c := .compareValueWrite t p v) hsettled u _ rfl
        (hval.trans (chVal_capture (d := d) hmode))).imp fun s' hs' => ?_
      obtain ⟨hunit, hothers, htouches⟩ := hs'
      exact ⟨hunit, ⟨hothers, fun j _ => by rw [hunit]⟩, htouches⟩
    case read =>
      refine completes_of_changesOnly (c := .captureRead t p) (l := [.tmu]) hsettled rfl hread (.of _ (tmu := .inl (by simp)))
        fun s' h htouches => ?_
      have hunit : s'.dev.tmu[u] = s.dev.tmu[u].modCh c fun x => if x.mode = 2 then { x with unread := false } else x := by
        rw [h.tmu]
        exact upd_same ..
      refine ⟨?_, ⟨fun w hw => ?_, fun j hj => ?_⟩, htouches⟩
      · rw [hunit, Tmu.modCh_same]
        exact if_pos hmode
      · rw [h.tmu]
        exact upd_other _ _ _ _ hw
      · rw [hunit, Tmu.modCh_other hj]
    case noRead =>
      refine completes_untouched (c := .captureRead t p) hsettled rfl (hread.trans ?_)
      exact Dev.modTmu_self (Tmu.modCh_self (if_neg hmode))
  case machines =>
    intro m x one
    let d := (s.dev.at t).disarm p
    have hsel : d.pioSelOf p = m := by
      simp only [d, Dev.pioSelOf, Dev.ctx_disarm_same]
      rfl
    refine ⟨fun v hruns hfree hok => ?inject, fun v h => ?refused, fun h => ?run, fun h => ?runs, ?stop, ?restart, fun v h => ?push,
      fun v h => ?lost, ?pop, fun v => ?flags, fun n => ?stale⟩
    case inject =>
      exact completes_ctx_pio (c := .pioInject t p v) hsettled rfl
        ((congrArg (fun m => d.pioInject m (v.setWidth 16)) hsel).trans (pioInject_taken (d := d) hruns hfree hok))
    case refused =>
      exact completes_ctx_pio (c := .pioInject t p v) hsettled rfl
        ((congrArg (fun m => d.pioInject m (v.setWidth 16)) hsel).trans (pioInject_refused (d := d) h))
    case run =>
      refine (completes_ctx_pio (c := .pioRun t p true) hsettled rfl (congrArg (fun m => d.pioRun m true) hsel)).imp
        fun s' hs' => ?_
      obtain ⟨hone, hrest⟩ := hs'
      refine ⟨hone.trans ?_, hrest⟩
      rw [show s.dev.pio[m].run = false from h]
      rfl
    case runs =>
      refine (completes_ctx_pio (c := .pioRun t p true) hsettled rfl (congrArg (fun m => d.pioRun m true) hsel)).imp
        fun s' hs' => ?_
      obtain ⟨hone, hrest⟩ := hs'
      refine ⟨hone.trans ?_, hrest⟩
      rw [show s.dev.pio[m].run = true from h]
      exact congrArg (fun b => { s.dev.pio[m] with run := b }) h.symm
    case stop =>
      exact completes_ctx_pio (c := .pioRun t p false) hsettled rfl (congrArg (fun m => d.pioRun m false) hsel)
    case restart =>
      exact completes_ctx_pio (c := .pioRestart t p) hsettled rfl (congrArg (fun m => d.pioRestart m) hsel)
    case push =>
      refine (completes_ctx_pio (c := .pioTxqWrite t p v) hsettled rfl
        ((congrArg (fun m => d.txqWrite m (v.setWidth 32)) hsel).trans (txqWrite_eq (d := d) _))).imp
        fun s' hs' => ?_
      obtain ⟨hone, hrest⟩ := hs'
      exact ⟨hone.trans (if_pos h), hrest⟩
    case lost =>
      refine (completes_ctx_pio (c := .pioTxqWrite t p v) hsettled rfl
        ((congrArg (fun m => d.txqWrite m (v.setWidth 32)) hsel).trans (txqWrite_eq (d := d) _))).imp
        fun s' hs' => ?_
      obtain ⟨hone, hrest⟩ := hs'
      exact ⟨hone.trans (if_neg (Nat.not_lt_of_le h)), hrest⟩
    case pop =>
      refine completes_of_changesOnly (c := .pioRxqRead t p) (l := [.pio]) hsettled rfl (rxqRead_tail (d := s.dev.at t) (m := m))
        (.of _ (pio := .inl (by simp))) fun s' h htouches => ?_
      refine ⟨⟨?_, fun j hj => ?_, h.pios, htouches.mono (by simp)⟩, h.paths⟩
      · rw [h.pio]
        exact upd_same ..
      · rw [h.pio]
        exact upd_other _ _ _ _ hj
    case flags =>
      obtain ⟨flags, merged, hset, hflags⟩ := flags_set v 8 d
      refine completes_of_changesOnly (c := .pioFlagSet t p v) (l := [.pio, .paths]) hsettled rfl hset
        (.of _ (pio := .inl (by simp)) (paths := .inl (by simp))) fun s' h htouches => ⟨h.pio, htouches, ?_, ?_⟩
      · rw [h.pios]
        refine BitVec.eq_of_getLsbD_eq fun j hj => (hflags j hj).trans ?_
        simp [hj, bit, d]
      · rw [h.pios]
        rfl
    case stale =>
      intro y due i
      refine ⟨fun hon hcls hwriter htime hfresh hdue hdead => ?_, fun hkept => ?_⟩
      · refine completes_of_changesOnly (c := .pioSlotStale t n) (l := [.pio, .mems]) hsettled rfl
          (pioStale_stales (d := s.dev.at t) hon htime hfresh hdue hdead)
          (.of _ (pio := .inl (by simp)) (writes := .inl (by simp))) fun s' h htouches => ?_
        have hmems : s'.mems = (MemOp.stale i).apply s.mems := by
          rw [h.mems]
          show List.foldl _ _ (s.dev.writes ++ _) = _
          rw [hsettled.2]
          rfl
        refine ⟨?_, ?_, ?_, htouches⟩
        · rw [h.pio]
          exact upd_same ..
        · rw [State.attr, hmems]
          exact attr_staled (Nat.mod_lt _ (by decide)) hcls hwriter
        · rw [hmems, MemOp.apply_sram, MemOp.put]
          split <;> rfl
      · exact completes_untouched (c := .pioSlotStale t n) hsettled rfl (pioStale_none (d := s.dev.at t) hkept)

end Sys2Proof.Machine
end

section
/-! The pins of the PIO block: where no timer unit counts or is reset by their edges, a change of a pin is followed by nothing
(R284, R286, R296). -/

namespace Sys2Proof.Machine

open Sys2Proof

/-- A timer unit that no edge of a pin clocks or resets. -/
abbrev Tmu.deaf (x : Tmu) : Prop := (x.clk = false ∧ x.slave ≠ 2) ∨ x.src < 40 ∨ 56 ≤ x.src

/-- What one unit does at an edge of a source (R284, R287). -/
def Dev.unitEdge (code : Nat) (rising : Bool) (d : Dev) (w : Fin 8) : Dev :=
  if d.tmu[w].src ≠ code ∨ bit d.tmu[w].cfg 1 ≠ !rising then d
  else if d.tmu[w].clk then (d.tickUnit w).2.tmuEvents 9 (d.tickUnit w).1
  else if d.tmu[w].slave = 2 then d.tmuReset w
  else d

theorem tmuLevel_eq (code : Nat) (rising : Bool) (d : Dev) :
    d.tmuLevel code rising = (List.finRange 8).foldl (Dev.unitEdge code rising) d := rfl

/-- What one pin's change is followed by in a round. -/
def Dev.pinRound (before now : List Bool) (d : Dev) (i : Nat) : Dev :=
  match before[i]?, now[i]? with
  | some a, some b => if a = b then d else d.tmuLevel (40 + i) b
  | _, _ => d

theorem pinEdges_succ (n : Nat) (before : List Bool) (d : Dev) : d.pinEdges (n + 1) before =
    if d.pinLevels = before then d
    else Dev.pinEdges n d.pinLevels ((List.range 16).foldl (Dev.pinRound before d.pinLevels) d) := rfl

/-- Pins that have not moved are followed by nothing. -/
theorem pinEdges_still (n : Nat) {before : List Bool} {d : Dev} (h : d.pinLevels = before) : d.pinEdges n before = d := by
  cases n with
  | zero => rfl
  | succ n => rw [pinEdges_succ, if_pos h]

section
variable {d : Dev}

theorem unitEdge_deaf {w : Fin 8} (h : d.tmu[w].deaf) {i : Nat} (hi : i < 16) (rising : Bool) : d.unitEdge (40 + i) rising w = d := by
  unfold Dev.unitEdge
  split
  · rfl
  · next hheard =>
    obtain ⟨hsrc, -⟩ : d.tmu[w].src = 40 + i ∧ _ := by simpa [-Fin.getElem_fin] using hheard
    obtain ⟨hclk, hslave⟩ := h.resolve_right (by omega)
    rw [hclk, if_neg Bool.false_ne_true, if_neg hslave]

theorem tmuLevel_deaf (h : ∀ w : Fin 8, d.tmu[w].deaf) {i : Nat} (hi : i < 16) (rising : Bool) : d.tmuLevel (40 + i) rising = d := by
  rw [tmuLevel_eq]
  exact List.foldl_fixed' (fun w => unitEdge_deaf (h w) hi rising) _

theorem pinRound_deaf (h : ∀ w : Fin 8, d.tmu[w].deaf) (before now : List Bool) {i : Nat} (hi : i < 16) :
    d.pinRound before now i = d := by
  unfold Dev.pinRound
  split
  · split
    · rfl
    · exact tmuLevel_deaf h hi _
  · rfl

theorem pinEdges_deaf (h : ∀ w : Fin 8, d.tmu[w].deaf) (n : Nat) : ∀ before, d.pinEdges n before = d := by
  induction n with
  | zero => exact fun _ => rfl
  | succ n ih =>
    intro before
    have hround (l : List Nat) (hl : ∀ i ∈ l, i < 16) : l.foldl (Dev.pinRound before d.pinLevels) d = d := by
      induction l with
      | nil => rfl
      | cons i l ihl =>
        rw [List.foldl_cons, pinRound_deaf h _ _ (hl i List.mem_cons_self)]
        exact ihl fun j hj => hl j (List.mem_cons_of_mem _ hj)
    rw [pinEdges_succ, hround _ fun i => List.mem_range.mp, ih]
    exact ite_self d

/-- A change that leaves the timer units deaf to pins is followed by nothing. -/
theorem watchPins_deaf {f : Dev → Dev} (h : ∀ w : Fin 8, (f d).tmu[w].deaf) : d.watchPins f = f d := pinEdges_deaf h 16 _

/-! ### Levels driven from outside -/

theorem getLsbD_setBit {w : Nat} (a : BitVec w) (n q : Nat) (b : Bool) (hn : n < w) :
    (setBit a n b).getLsbD q = if q = n then b else a.getLsbD q := by
  unfold setBit
  by_cases hq : q = n
  · subst hq
    cases b with
    | true => simp [-BitVec.ofNat_pow, BitVec.getLsbD_ofNat, hn]
    | false => simp [-BitVec.ofNat_pow, BitVec.getLsbD_ofNat, hn]
  · have htest : (BitVec.ofNat w (2 ^ n)).getLsbD q = false := by
      rw [BitVec.getLsbD_ofNat, Nat.testBit_two_pow]
      simp [Ne.symm hq]
    cases b with
    | true => simp [-BitVec.ofNat_pow, htest, hq]
    | false =>
      by_cases hlt : q < w
      · simp only [Bool.false_eq_true, if_false, BitVec.getLsbD_and, BitVec.getLsbD_not, htest, hq, hlt, decide_true, Bool.not_false,
          Bool.and_true]
      · simp [hq, BitVec.getLsbD_of_ge _ _ (Nat.le_of_not_lt hlt)]

theorem showPin_ext (n : Nat) (b : Bool) (d : Dev) (hn : n < 16) : ∃ ext extAt,
    d.showPin n b = d.modPios (fun s => { s with ext := ext, extAt := extAt }) ∧
    ∀ q, ext.getLsbD q = if q = n then b else d.pios.ext.getLsbD q := by
  unfold Dev.showPin
  split
  · next hsame =>
    refine ⟨d.pios.ext, d.pios.extAt, rfl, fun q => ?_⟩
    by_cases hq : q = n
    · rw [if_pos hq, hq, hsame]
    · rw [if_neg hq]
  · refine ⟨setBit d.pios.ext n b, upd d.pios.extAt (Fin.ofNat 16 n) fun _ => some d.dtime, ?_, fun q => getLsbD_setBit _ n q b hn⟩
    cases b <;> rfl

theorem showPins_ext (levels : BitVec 16) (d : Dev) (n : Nat) (hn : n ≤ 16) : ∃ ext extAt,
    (List.range n).foldl (fun d i => d.showPin i (levels.getLsbD i)) d = d.modPios (fun s => { s with ext := ext, extAt := extAt }) ∧
    ∀ q, ext.getLsbD q = if q < n then levels.getLsbD q else d.pios.ext.getLsbD q := by
  induction n with
  | zero => exact ⟨d.pios.ext, d.pios.extAt, rfl, fun q => rfl⟩
  | succ n ih =>
    obtain ⟨ext, extAt, hfold, hext⟩ := ih (by omega)
    obtain ⟨ext', extAt', hshow, hext'⟩ := showPin_ext n (levels.getLsbD n) (d.modPios fun s => { s with ext := ext, extAt := extAt })
      (by omega)
    refine ⟨ext', extAt', ?_, fun q => ?_⟩
    · rw [List.range_succ, List.foldl_append, hfold]
      exact hshow
    · rw [hext']
      by_cases hq : q = n
      · rw [if_pos hq, hq, if_pos (Nat.lt_succ_self n)]
      · rw [if_neg hq]
        refine (hext q).trans ?_
        by_cases hlt : q < n
        · rw [if_pos hlt, if_pos (by omega)]
        · rw [if_neg hlt, if_neg (by omega)]

/-- The device as a command shows it the levels driven from outside. -/
def Dev.seeing (levels : BitVec 16) (extAt : Vector (Option Ns) 16) (d : Dev) : Dev :=
  d.modPios fun s => { s with ext := levels, extAt := extAt }

theorem see_deaf (h : ∀ w : Fin 8, d.tmu[w].deaf) (levels : BitVec 16) : ∃ extAt, d.see levels = d.seeing levels extAt := by
  obtain ⟨ext, extAt, hfold, hext⟩ := showPins_ext levels d 16 (Nat.le_refl 16)
  have hlevels : ext = levels := BitVec.eq_of_getLsbD_eq fun q hq => (hext q).trans (if_pos hq)
  subst hlevels
  refine ⟨extAt, (watchPins_deaf ?_).trans hfold⟩
  rw [hfold]
  exact h

end

/-! ### A step of a machine (R295) -/

section
variable {d : Dev} {m : Fin 8} {op : Nat} {f : BitVec 16 → Dev → Dev}

theorem pioStep_none (h : d.pio[m].steps d.dtime ≤ d.pio[m].step) : d.pioStep m = false := by
  simp [-Fin.getElem_fin, Dev.pioStep, Nat.not_lt_of_le h]

theorem pioStep_due (hruns : d.pioRuns m = true) (h : d.pio[m].step < d.pio[m].steps d.dtime) : d.pioStep m = true := by
  simp [-Fin.getElem_fin, Dev.pioStep, hruns, h]

/-- Before its next step a machine executes nothing. -/
theorem pioExec_none (h : d.pio[m].steps d.dtime ≤ d.pio[m].step) : d.pioExec m op f = d := by
  simp only [Dev.pioExec, pioStep_none h, Bool.false_and, Bool.false_eq_true, if_false]

theorem pioFetch_clean (herrs : d.memu.errs = []) : d.pioFetch m = (false, d) := by
  unfold Dev.pioFetch
  simp only
  split
  · rfl
  · simp [Dev.readWord_clean herrs]

/-- A machine that does not wait executes its instruction in a step of its own. -/
theorem pioExec_runs {w : BitVec 16} (herrs : d.memu.errs = []) (hruns : d.pioRuns m = true) (hword : d.pioWord m = w)
    (hwait : d.pio[m].wait = .none) (hop : pf w 12 4 = op) (hstep : d.pio[m].step < d.pio[m].steps d.dtime) :
    d.pioExec m op f = (d.tookStep m).watchPins (f w) := by
  simp [-Fin.getElem_fin, Dev.pioExec, pioStep_due hruns hstep, hwait, hword, hop, pioFetch_clean herrs]

end

end Sys2Proof.Machine
end

section
/-! The instructions of the PIO machines that do not wait for a queue (R295 to R299). -/

namespace Sys2Proof.Machine

open Sys2Proof

/-! ### Pins written through lanes (R296) -/

/-- Levels written lane by lane, where the machine may write the lane's pin. -/
def laneBits (may : Nat → Bool) (pin : Nat → Nat) (v : Nat → Bool) (n : Nat) (a : BitVec 16) : BitVec 16 :=
  (List.range n).foldl (fun r j => if may j then setBit r (pin j) (v j) else r) a

section
variable {may : Nat → Bool} {pin : Nat → Nat} {v : Nat → Bool}

theorem laneBits_succ (n : Nat) (a : BitVec 16) : laneBits may pin v (n + 1) a =
    if may n then setBit (laneBits may pin v n a) (pin n) (v n) else laneBits may pin v n a := by
  simp only [laneBits, List.range_succ, List.foldl_append, List.foldl_cons, List.foldl_nil]

variable (hpin : ∀ j, pin j < 16)
include hpin

/-- A pin that no lane writes stays. -/
theorem laneBits_other {n q : Nat} (a : BitVec 16) (h : ∀ i, i < n → may i = true → pin i ≠ q) :
    (laneBits may pin v n a).getLsbD q = a.getLsbD q := by
  induction n with
  | zero => rfl
  | succ n ih =>
    have hrest := ih fun i hi => h i (Nat.lt_succ_of_lt hi)
    rw [laneBits_succ]
    split
    · next hmay => rw [getLsbD_setBit _ _ _ _ (hpin n), if_neg (h n (Nat.lt_succ_self n) hmay).symm, hrest]
    · exact hrest

/-- The pin of a lane takes its level, where no other lane has that pin. -/
theorem laneBits_written {n j : Nat} (a : BitVec 16) (hj : j < n) (hmay : may j = true) (halone : ∀ i, i < n → i ≠ j → pin i ≠ pin j) :
    (laneBits may pin v n a).getLsbD (pin j) = v j := by
  induction n with
  | zero => exact absurd hj (Nat.not_lt_zero j)
  | succ n ih =>
    rw [laneBits_succ]
    by_cases hn : n = j
    · subst hn
      rw [if_pos hmay, getLsbD_setBit _ _ _ _ (hpin n), if_pos rfl]
    · have hrest := ih (by omega) fun i hi => halone i (Nat.lt_succ_of_lt hi)
      split
      · rw [getLsbD_setBit _ _ _ _ (hpin n), if_neg (halone n (Nat.lt_succ_self n) hn).symm, hrest]
      · exact hrest

end

/-- Output latches, or directions, replaced. -/
def Dev.driven (dir : Bool) (r : BitVec 16) (d : Dev) : Dev :=
  d.modPios fun s => if dir then { s with dir := r } else { s with out := r }

theorem Pio.lanePin_lt (x : Pio) (lane : Nat) : x.lanePin lane < 16 := Nat.mod_lt _ (by decide)

theorem mayDrive_driven (m : Fin 8) (lane : Nat) (dir : Bool) (r : BitVec 16) (d : Dev) :
    (d.driven dir r).mayDrive' m lane = d.mayDrive' m lane := by
  cases dir <;> rfl

theorem drive_lanes (m : Fin 8) (first : Nat) (dir : Bool) (v : Nat → Bool) (n : Nat) (d : Dev) :
    (List.range n).foldl (fun d j => d.driveLane m (first + j) dir (v j)) d =
      d.driven dir (laneBits (fun j => d.mayDrive' m (first + j)) (fun j => d.pio[m].lanePin (first + j)) v n
        (if dir then d.pios.dir else d.pios.out)) := by
  induction n with
  | zero => cases dir <;> rfl
  | succ n ih =>
    rw [List.range_succ, List.foldl_append, ih, List.foldl_cons, List.foldl_nil, laneBits_succ, Dev.driveLane, mayDrive_driven]
    split
    · cases dir <;> rfl
    · rfl

/-- What a statement says of the pins of `n` lanes from `first` on. -/
theorem pins_laneBits (d : Dev) (m : Fin 8) (first n : Nat) (v : Nat → Bool) (a : BitVec 16) :
    let b := laneBits (fun j => d.mayDrive' m (first + j)) (fun j => d.pio[m].lanePin (first + j)) v n a
    (∀ j, j < n → d.mayDrive' m (first + j) = true →
      (∀ i, i < n → i ≠ j → d.pio[m].lanePin (first + i) ≠ d.pio[m].lanePin (first + j)) →
      b.getLsbD (d.pio[m].lanePin (first + j)) = v j) ∧
    ∀ q, (∀ i, i < n → d.mayDrive' m (first + i) = true → d.pio[m].lanePin (first + i) ≠ q) → b.getLsbD q = a.getLsbD q :=
  ⟨fun _ hj hmay halone => laneBits_written (fun _ => Pio.lanePin_lt ..) a hj hmay halone,
    fun _ h => laneBits_other (fun _ => Pio.lanePin_lt ..) a h⟩

/-! ### The words that SHIFT and PIO_SAMPLE move (R297) -/

theorem zipIdx_map_range (v : Nat → Bool) (n : Nat) : ((List.range n).map v).zipIdx = (List.range n).map fun j => (v j, j) := by
  refine List.ext_getElem (by simp) fun i hi hi' => ?_
  simp

/-- The first `n` bits out of a word, and the word after them. -/
theorem shiftOut_eq (msb : Bool) (n : Nat) : ∀ a : W32, n ≤ 32 → shiftOut msb n a =
    ((List.range n).map fun j => a.getLsbD (if msb then 31 - j else j), if msb then a <<< n else a >>> n) := by
  induction n with
  | zero => intro a _; cases msb <;> simp [shiftOut]
  | succ n ih =>
    intro a hn
    rw [shiftOut, ih _ (by omega), List.range_succ_eq_map]
    cases msb with
    | true =>
      simp only [if_true, List.map_cons, List.map_map, Prod.mk.injEq, List.cons.injEq, Nat.sub_zero, true_and]
      refine ⟨List.map_congr_left fun j hj => ?_, ?_⟩
      · have hj := List.mem_range.mp hj
        simp only [Function.comp, BitVec.getLsbD_shiftLeft, show 31 - j < 32 by omega, show ¬31 - j < 1 by omega, decide_true,
          decide_false, Bool.not_false, Bool.true_and, Nat.sub_sub, Nat.succ_eq_add_one]
      · rw [← BitVec.shiftLeft_add, Nat.add_comm]
    | false =>
      simp only [Bool.false_eq_true, if_false, List.map_cons, List.map_map, Prod.mk.injEq, List.cons.injEq, true_and]
      refine ⟨List.map_congr_left fun j hj => ?_, ?_⟩
      · simp only [Function.comp, BitVec.getLsbD_ushiftRight, Nat.succ_eq_add_one, Nat.add_comm 1 j]
      · rw [← BitVec.shiftRight_add, Nat.add_comm]

/-- A level shifted into the input word. -/
def shiftIn (msb : Bool) (a : W32) (b : Bool) : W32 := if msb then setBit (a >>> 1) 31 b else setBit (a <<< 1) 0 b

/-- Where levels shifted in stand, and where the bits before them. -/
theorem shiftIn_levels (msb : Bool) (v : Nat → Bool) (x : W32) (n : Nat) (hn : n ≤ 32) :
    let a := ((List.range n).map v).foldl (shiftIn msb) x
    (∀ i, i < n → a.getLsbD (if msb then 32 - n + i else n - 1 - i) = v i) ∧
    ∀ j, j < 32 - n → a.getLsbD (if msb then j else j + n) = x.getLsbD (if msb then j + n else j) := by
  induction n with
  | zero => exact ⟨nofun, fun j _ => by cases msb <;> rfl⟩
  | succ n ih =>
    obtain ⟨hin, hkept⟩ := ih (by omega)
    rw [List.range_succ, List.map_append, List.foldl_append]
    generalize ((List.range n).map v).foldl (shiftIn msb) x = a at hin hkept
    simp only [List.map_cons, List.map_nil, List.foldl_cons, List.foldl_nil, shiftIn]
    cases msb with
    | true =>
      simp only [if_true] at hin hkept ⊢
      refine ⟨fun i hi => ?_, fun j hj => ?_⟩
      · rw [getLsbD_setBit _ _ _ _ (by omega), BitVec.getLsbD_ushiftRight]
        by_cases hlast : i = n
        · rw [if_pos (by omega), hlast]
        · rw [if_neg (by omega), ← hin i (by omega)]
          congr 1
          omega
      · rw [getLsbD_setBit _ _ _ _ (by omega), BitVec.getLsbD_ushiftRight, if_neg (by omega), Nat.add_comm 1 j, hkept (j + 1) (by omega)]
        congr 1
        omega
    | false =>
      simp only [Bool.false_eq_true, if_false] at hin hkept ⊢
      refine ⟨fun i hi => ?_, fun j hj => ?_⟩
      · rw [getLsbD_setBit _ _ _ _ (by omega)]
        by_cases hlast : i = n
        · rw [if_pos (by omega), hlast]
        · rw [if_neg (by omega), ← hin i (by omega), BitVec.getLsbD_shiftLeft]
          simp only [Nat.add_sub_cancel, show n - i < 32 by omega, show ¬n - i < 1 by omega, show n - i - 1 = n - 1 - i by omega,
            decide_true, decide_false, Bool.not_false, Bool.true_and]
      · rw [getLsbD_setBit _ _ _ _ (by omega), if_neg (by omega), BitVec.getLsbD_shiftLeft, ← hkept j (by omega)]
        simp [show j + (n + 1) < 32 by omega]

/-! ### Completion -/

theorem pioWord_areas {d d' : Dev} (m : Fin 8) (hpio : d'.pio = d.pio) (hareas : d'.pios.areas = d.pios.areas) :
    d'.pioWord m = d.pioWord m := by
  simp only [Dev.pioWord, hpio, hareas]

section
variable {s : State} {m : Fin 8} {w : BitVec 16} {c : Instr} (hclean : s.clean) (hruns : s.dev.pioRuns m = true)
  (hword : s.dev.pioWord m = w) (hwait : s.dev.pio[m].wait = .none) (hdeaf : ∀ u : Fin 8, s.dev.tmu[u].deaf)
  (hstep : s.dev.pio[m].step < s.dev.pio[m].steps (s.now (stampOf c)))
include hclean hruns hword hwait hdeaf hstep

/-- An instruction executed in a step of its machine, with the shared part of the block as the command finds it in `ps`: it changes
the machine by `g`, and leaves the shared part as `ps'`. -/
theorem completes_pioOp {op : Nat} {f : BitVec 16 → Dev → Dev} {body : Env → Dev → Dev} {ps ps' : PioShared} {g : Pio → Pio}
    (hexec : exec c s = runAt (stampOf c) body s)
    (hbody : s.after (stampOf c) body = Dev.pioExec m op f { s.dev.at (stampOf c) with pios := ps }) (hop : pf w 12 4 = op)
    (hf : f w (({ s.dev.at (stampOf c) with pios := ps } : Dev).tookStep m) =
      { (({ s.dev.at (stampOf c) with pios := ps } : Dev).tookStep m).modPio m g with pios := ps' })
    (hareas : ps.areas = s.dev.pios.areas := by rfl) :
    Completes c s fun s' => s'.dev.pio[m] = g { s.dev.pio[m] with step := s.dev.pio[m].steps (s.now (stampOf c)) } ∧
      (∀ j, j ≠ m → s'.dev.pio[j] = s.dev.pio[j]) ∧ s'.dev.pios = ps' ∧ s.touches [.pio] s' := by
  let d : Dev := { s.dev.at (stampOf c) with pios := ps }
  have hword' : d.pioWord m = w := (pioWord_areas (d := s.dev) (d' := d) m rfl hareas).trans hword
  have hrun : d.pioExec m op f = { (d.tookStep m).modPio m g with pios := ps' } := by
    rw [pioExec_runs (d := d) hclean.2.1 hruns hword' hwait hop hstep]
    refine (watchPins_deaf ?_).trans hf
    rw [hf]
    exact hdeaf
  refine completes_of_changesOnly hclean.1.2 hexec (hbody.trans hrun) (.of [.pio] (pio := .inl (by simp)))
    fun s' h htouches => ⟨?_, fun j hj => ?_, h.pios, htouches⟩
  · rw [h.pio]
    exact (Dev.modPio_same g).trans (congrArg g (upd_same ..))
  · rw [h.pio]
    exact (Dev.modPio_other hj g).trans (upd_other _ _ _ _ hj)

end

end Sys2Proof.Machine
end

section
namespace Sys2Proof.Machine
open Sys2Proof

theorem foldl_still {α β : Type} {f : α → β → α} {a : α} (l : List β) (h : ∀ w ∈ l, f a w = a) : l.foldl f a = a := by
  induction l with
  | nil => rfl
  | cons w l ih => rw [List.foldl_cons, h w List.mem_cons_self, ih fun v hv => h v (List.mem_cons_of_mem _ hv)]

/-- Where one element alone of a list acts, once, going through the list is that element's act. -/
theorem foldl_only {α β : Type} {f : α → β → α} {a : α} {u : β} {l : List β} (hnodup : l.Nodup) (hu : u ∈ l)
    (hbefore : ∀ w ∈ l, w ≠ u → f a w = a) (hafter : ∀ w ∈ l, w ≠ u → f (f a u) w = f a u) : l.foldl f a = f a u := by
  obtain ⟨l₁, l₂, rfl⟩ := List.append_of_mem hu
  have hmid := List.nodup_middle.mp hnodup
  obtain ⟨hu', -⟩ := List.nodup_cons.mp hmid
  rw [List.foldl_append, List.foldl_cons,
    foldl_still l₁ fun w hw => hbefore w (List.mem_append_left _ hw) fun e => hu' (e ▸ List.mem_append_left _ hw),
    foldl_still l₂ fun w hw => hafter w (List.mem_append_right _ (List.mem_cons_of_mem _ hw))
      fun e => hu' (e ▸ List.mem_append_right _ hw)]

/-- The device after a tick of a unit whose counter is not at 0 and none of whose channels compares (R283). -/
def Dev.counted (u : Fin 8) (d : Dev) : Dev := d.modTmu u fun t => { t with cnt := t.cnt - 1, tickedAt := some d.dtime }

theorem flatMap_upd {α β : Type} {n : Nat} (v : Vector α n) (i : Fin n) (f : α → α) (g : α → List β) (h : g (f v[i]) = g v[i]) :
    (upd v i f).toList.flatMap g = v.toList.flatMap g := by
  simp only [upd, List.flatMap_def, Vector.toList_set, List.map_set]
  congr 1
  refine List.ext_getElem (by simp) fun j h₁ h₂ => ?_
  rw [List.getElem_set]
  split
  · next hj =>
    subst hj
    simpa using h
  · rfl

theorem pinLevel_counted (u : Fin 8) (d : Dev) (n : Nat) : (d.counted u).pinLevel n = d.pinLevel n := by
  have hchan : (d.counted u).pinChan n = d.pinChan n := by
    unfold Dev.pinChan Dev.counted Dev.modTmu
    rw [flatMap_upd]
    rfl
  simp only [Dev.pinLevel, Dev.tmuPin, hchan]
  rfl

theorem pinLevels_counted (u : Fin 8) (d : Dev) : (d.counted u).pinLevels = d.pinLevels :=
  List.map_congr_left fun n _ => pinLevel_counted u d n

theorem pinLevel_congr {d d' : Dev} (htmu : d'.tmu = d.tmu) (hpios : d'.pios = d.pios) (n : Nat) : d'.pinLevel n = d.pinLevel n := by
  simp only [Dev.pinLevel, Dev.tmuPin, Dev.pinChan, htmu, hpios]

theorem pinLevels_getElem (d : Dev) (n : Fin 16) : d.pinLevels[n.val]? = some (d.pinLevel n) := by
  simp [Dev.pinLevels]

section
variable {d : Dev} {u : Fin 8} {n : Fin 16}

/-- A unit that counts the edges of pin `n`, and whose tick is just a count. -/
structure Dev.CountsPin (d : Dev) (u : Fin 8) (n : Fin 16) : Prop where
  clk : d.tmu[u].clk = true
  src : d.tmu[u].src = 40 + n.val
  running : d.tmu[u].running = true
  counting : d.tmu[u].cnt ≠ 0
  notReset : d.tmu[u].resetAt ≠ some d.dtime
  modes : ∀ c : Fin 4, d.tmu[u].ch[c].mode = 0
  others : ∀ v : Fin 8, v ≠ u → d.tmu[v].deaf

theorem tickUnit_counted (h : d.CountsPin u n) : d.tickUnit u = ([], d.counted u) := by
  have hunit : (d.counted u).tmu[u].ch = d.tmu[u].ch := (congrArg Tmu.ch (upd_same ..) :)
  have hunreached (c : Fin 4) : (d.counted u).tmu[u].reached c = false := by
    simp only [Tmu.reached, hunit, h.modes c]
    rfl
  have hfold : (List.finRange 4).foldl (init := (([] : List Nat), d.counted u)) (fun acc c =>
      if acc.2.tmu[u].reached c then (acc.1 ++ [8 + 4 * u.val + c.val], acc.2.fireCh u c) else acc) = ([], d.counted u) :=
    foldl_still _ fun c _ => if_neg (Bool.eq_false_iff.mp (hunreached c))
  have hticks : (!d.tmu[u].running || !d.gateOpen d.tmu[u] || d.tmu[u].resetAt == some d.dtime) = false := by
    simp [-Fin.getElem_fin, h.running, Dev.gateOpen, h.clk, h.notReset]
  have hcounts : (d.tmu[u].cnt == 0) = false := beq_eq_false_iff_ne.mpr h.counting
  unfold Dev.tickUnit
  simp only [hticks, hcounts, Bool.false_eq_true, if_false]
  exact hfold

theorem unitEdge_unheard {code : Nat} {w : Fin 8} (h : d.tmu[w].src ≠ code) (rising : Bool) : d.unitEdge code rising w = d := if_pos (.inl h)

theorem unitEdge_counted (h : d.CountsPin u n) (rising : Bool) :
    d.unitEdge (40 + n.val) rising u = if rising = !bit d.tmu[u].cfg 1 then d.counted u else d := by
  unfold Dev.unitEdge
  simp only [h.src, h.clk, tickUnit_counted h, if_true, ne_eq, not_true_eq_false, false_or]
  cases rising <;> cases bit d.tmu[u].cfg 1 <;> rfl

theorem counted_other {w : Fin 8} (h : w ≠ u) : (d.counted u).tmu[w] = d.tmu[w] := upd_other _ _ _ _ h

theorem counted_src : (d.counted u).tmu[u].src = d.tmu[u].src := (congrArg Tmu.src (upd_same ..) :)

theorem tmuLevel_counted (h : d.CountsPin u n) (rising : Bool) :
    d.tmuLevel (40 + n.val) rising = if rising = !bit d.tmu[u].cfg 1 then d.counted u else d := by
  rw [tmuLevel_eq, ← unitEdge_counted h]
  refine foldl_only (List.nodup_finRange 8) (List.mem_finRange u) (fun w _ hw => unitEdge_deaf (h.others w hw) n.isLt _) fun w _ hw => ?_
  refine unitEdge_deaf ?_ n.isLt _
  rw [unitEdge_counted h]
  split
  · rw [counted_other hw]
    exact h.others w hw
  · exact h.others w hw

/-- The edges of another pin. -/
theorem pinRound_other {i : Nat} (h : ∀ w : Fin 8, d.tmu[w].deaf ∨ d.tmu[w].src ≠ 40 + i) (hi : i < 16) (before now : List Bool) :
    d.pinRound before now i = d := by
  unfold Dev.pinRound
  split
  · split
    · rfl
    · rw [tmuLevel_eq]
      exact foldl_still _ fun w _ => (h w).elim (fun hw => unitEdge_deaf hw hi _) fun hw => unitEdge_unheard hw _
  · rfl

theorem pinEdges_counted (h : d.CountsPin u n) {d₀ : Dev} (k : Nat) : d.pinEdges (k + 1) d₀.pinLevels =
    if d₀.pinLevel n ≠ d.pinLevel n ∧ d.pinLevel n = !bit d.tmu[u].cfg 1 then d.counted u else d := by
  have hround : d.pinRound d₀.pinLevels d.pinLevels n =
      if d₀.pinLevel n ≠ d.pinLevel n ∧ d.pinLevel n = !bit d.tmu[u].cfg 1 then d.counted u else d := by
    simp only [Dev.pinRound, pinLevels_getElem, tmuLevel_counted h]
    by_cases hmoved : d₀.pinLevel n = d.pinLevel n
    · simp [hmoved]
    · simp [hmoved]
  rw [pinEdges_succ]
  split
  · next hstill =>
    have hn : some (d.pinLevel n) = some (d₀.pinLevel n) := by rw [← pinLevels_getElem, ← pinLevels_getElem, hstill]
    exact (if_neg fun hmoved => hmoved.1 (Option.some.inj hn).symm).symm
  · have hfold : (List.range 16).foldl (Dev.pinRound d₀.pinLevels d.pinLevels) d = d.pinRound d₀.pinLevels d.pinLevels n := by
      have hsrc (w : Fin 8) (i : Nat) (hi : i ≠ n) : d.tmu[w].deaf ∨ d.tmu[w].src ≠ 40 + i := by
        by_cases hw : w = u
        · exact .inr (by rw [hw, h.src]; omega)
        · exact .inl (h.others w hw)
      refine foldl_only List.nodup_range (List.mem_range.mpr n.isLt)
        (fun i hi hin => pinRound_other (hsrc · i hin) (List.mem_range.mp hi) _ _)
        fun i hi hin => pinRound_other (fun w => ?_) (List.mem_range.mp hi) _ _
      rw [hround]
      split
      · by_cases hw : w = u
        · rw [hw, counted_src, h.src]
          exact .inr (by omega)
        · rw [counted_other hw]
          exact hsrc w i hin
      · exact hsrc w i hin
    rw [hfold, hround]
    split
    · exact pinEdges_still _ (pinLevels_counted u d)
    · exact pinEdges_still _ rfl

end
end Sys2Proof.Machine
end

section
/-! The obligation on the PIO instructions that do not wait for a queue (R284, R286, R295, R297, R302). -/

namespace Sys2Proof.Machine

open Sys2Proof

/-- PC passes on but for an injected instruction, and nothing is waited for (R302). -/
theorem Pio.done_next {x₀ x y : Pio} (hy : y = x.done) (hpc : x.pc = x₀.pc := by rfl) (hinject : x.inject = x₀.inject := by rfl) :
    y.pc = (if x₀.inject.isSome then x₀.pc else x₀.pc + 1) ∧ y.inject = none ∧ y.wait = .none := by
  subst hy
  rw [← hpc, ← hinject]
  exact ⟨rfl, rfl, rfl⟩

/-- The condition of GO (R297). -/
def Dev.goTakes (m : Fin 8) (w : BitVec 16) (d : Dev) : Bool :=
  match pf w 6 3 with
  | 0 => true
  | 1 => d.pio[m].x == 0
  | 2 => d.pio[m].x != 0
  | 3 => d.pio[m].y == 0
  | 4 => decide (d.pio[m].x.toNat < d.pio[m].y.toNat)
  | 5 => d.lane m (fld d.pio[m].laneCfg 16 4)
  | 6 => d.pio[m].ocnt == 0
  | _ => d.pio[m].icnt == 32

theorem raise_merges (a : Byte) (i : Nat) : (if a.getLsbD i then a else a ||| BitVec.ofNat 8 (2 ^ i)) = a ||| BitVec.ofNat 8 (2 ^ i) := by
  split
  · next hset =>
    refine BitVec.eq_of_getLsbD_eq fun j hj => ?_
    rw [getLsbD_or_twoPow a i j hj]
    by_cases hij : i = j
    · subst hij
      simp [hset]
    · simp [hij]
  · rfl

/-- The block's shared part after RAISE (R299). -/
def PioShared.raised (line : Bool) (i : Nat) (s : PioShared) : PioShared :=
  let a := if line then s.lines else s.flags
  let s := { s with merged := s.merged + if a.getLsbD i then 1 else 0 }
  if line then { s with lines := s.lines ||| BitVec.ofNat 8 (2 ^ i) } else { s with flags := s.flags ||| BitVec.ofNat 8 (2 ^ i) }

theorem raiseLine_eq (i : Nat) (d : Dev) : d.raiseLine i = d.modPios (PioShared.raised true i) := by
  unfold Dev.raiseLine
  have h := raise_merges d.pios.lines i
  by_cases hset : d.pios.lines.getLsbD i = true
  · simp only [hset, if_true] at h ⊢
    simp [-BitVec.ofNat_pow, Dev.modPios, PioShared.raised, hset, ← h]
  · simp only [Bool.not_eq_true] at hset
    simp [Dev.modPios, PioShared.raised, hset]

theorem raiseFlag_shared (i : Nat) (d : Dev) : d.raiseFlag i = d.modPios (PioShared.raised false i) := by
  unfold Dev.raiseFlag
  have h := raise_merges d.pios.flags i
  by_cases hset : d.pios.flags.getLsbD i = true
  · simp only [hset, if_true] at h ⊢
    simp [-BitVec.ofNat_pow, Dev.modPios, PioShared.raised, hset, ← h]
  · simp only [Bool.not_eq_true] at hset
    simp [Dev.modPios, PioShared.raised, hset]

/-- What PIO_DRIVE writes (R297). -/
def Dev.drivenValue (m : Fin 8) (w : BitVec 16) (d : Dev) : Nat := if pf w 10 1 = 1 then d.pio[m].x.toNat % 256 else pf w 0 8

/-- The latches, or directions, of the pins after `n` lanes from `first` on are written (R296). -/
def Dev.lanesWritten (m : Fin 8) (first n : Nat) (dir : Bool) (v : Nat → Bool) (d : Dev) : BitVec 16 :=
  laneBits (fun j => d.mayDrive' m (first + j)) (fun j => d.pio[m].lanePin (first + j)) v n (if dir then d.pios.dir else d.pios.out)

theorem pioDriveOp_eq (m : Fin 8) (w : BitVec 16) (d : Dev) : d.pioDriveOp m w =
    (d.driven (pf w 11 1 == 1) (d.lanesWritten m (8 * pf w 8 1) 8 (pf w 11 1 == 1) (d.drivenValue m w).testBit)).modPio m Pio.done :=
  congrArg (Dev.modPio m Pio.done) (drive_lanes m (8 * pf w 8 1) (pf w 11 1 == 1) (d.drivenValue m w).testBit 8 d)

/-- The bits that SHIFT puts out, first bit first. -/
def Pio.bitOut (x : Pio) (j : Nat) : Bool := x.ow.getLsbD (if bit x.cfg 44 then 31 - j else j)

theorem pioShiftOp_eq (m : Fin 8) (w : BitVec 16) (d : Dev) (hn : pf w 0 5 ≤ 16) : d.pioShiftOp m w =
    (d.driven false (d.lanesWritten m 0 (pf w 0 5) false d.pio[m].bitOut)).modPio m fun x =>
      { x with ow := if bit d.pio[m].cfg 44 then d.pio[m].ow <<< pf w 0 5 else d.pio[m].ow >>> pf w 0 5, ocnt := x.ocnt - pf w 0 5 }.done := by
  unfold Dev.pioShiftOp
  simp only [shiftOut_eq _ _ _ (Nat.le_trans hn (by decide))]
  congr 1
  have hzip := zipIdx_map_range d.pio[m].bitOut (pf w 0 5)
  have hdrive := drive_lanes m 0 false d.pio[m].bitOut (pf w 0 5) d
  simp only [Nat.zero_add] at hdrive
  refine Eq.trans ?_ (hdrive.trans (by simp [Dev.lanesWritten]))
  exact (congrArg (List.foldl (fun (d : Dev) b => d.driveLane m b.2 false b.1) d) hzip).trans List.foldl_map

section
variable (m : Fin 8) (w : BitVec 16) (d : Dev)

/-- A step taken leaves what an instruction reads (R295). -/
theorem tookStep_cell : (d.tookStep m).pio[m] = { d.pio[m] with step := d.pio[m].steps d.dtime } := upd_same ..

theorem mayDrive_tookStep (lane : Nat) : (d.tookStep m).mayDrive' m lane = d.mayDrive' m lane := by
  simp only [Dev.mayDrive', tookStep_cell]
  rfl

theorem lane_tookStep (i : Nat) : (d.tookStep m).lane m i = d.lane m i := by
  simp only [Dev.lane, tookStep_cell]
  rfl

theorem lanesWritten_tookStep (first n : Nat) (dir : Bool) (v : Nat → Bool) :
    (d.tookStep m).lanesWritten m first n dir v = d.lanesWritten m first n dir v := by
  simp only [Dev.lanesWritten, mayDrive_tookStep, tookStep_cell]
  rfl

theorem drivenValue_tookStep : (d.tookStep m).drivenValue m w = d.drivenValue m w := by
  simp only [Dev.drivenValue, tookStep_cell]

end

/-- The block's shared part once a command has shown the levels driven from outside. -/
def PioShared.seeing (levels : BitVec 16) (extAt : Vector (Option Ns) 16) (s : PioShared) : PioShared :=
  { s with ext := levels, extAt := extAt }

/-- The machine after LOAD, COUNT and PAUSE (R295, R297). -/
def Pio.loaded (w : BitVec 16) (x : Pio) : Pio :=
  let v := BitVec.ofNat 32 (pf w 0 11)
  if pf w 11 1 = 1 then { x with y := v }.done else { x with x := v }.done

def Pio.counted (w : BitVec 16) (x : Pio) : Pio := if x.x = 0 then x.jump (pf w 0 6) else { x with x := x.x - 1 }.done

def Pio.paused (w : BitVec 16) (now : Ns) (x : Pio) : Pio :=
  if pf w 0 12 = 0 then x.done else { x with wait := .pause (x.steps now + pf w 0 12) }

theorem pioRaiseOp_eq (m : Fin 8) (w : BitVec 16) (d : Dev) :
    d.pioRaiseOp m w = { d.modPio m Pio.done with pios := d.pios.raised (pf w 3 1 == 1) (pf w 0 3) } := by
  unfold Dev.pioRaiseOp
  by_cases hline : pf w 3 1 = 1
  · rw [if_pos hline, raiseLine_eq, hline]
    rfl
  · rw [if_neg hline, raiseFlag_shared, beq_eq_false_iff_ne.mpr hline]
    rfl

/-- Before its next step a machine does nothing (R295). -/
theorem pio_idle {s : State} {t : Ns} {m : Fin 8} (hsettled : s.dev.settled)
    (h : (s.dev.at t).pio[m].steps (s.dev.at t).dtime ≤ (s.dev.at t).pio[m].step) :
    ∀ i ∈ ([.load t m, .count t m, .pause t m, .raise t m, .pioDrive t m, .shift t m, .take t m, .give t m, .stamp t m] : List Instr),
      Completes i s (s.touches []) := by
  simp only [List.forall_mem_cons]
  exact ⟨completes_untouched hsettled rfl (pioExec_none h), completes_untouched hsettled rfl (pioExec_none h),
    completes_untouched hsettled rfl (pioExec_none h), completes_untouched hsettled rfl (pioExec_none h),
    completes_untouched hsettled rfl (pioExec_none h), completes_untouched hsettled rfl (pioExec_none h),
    completes_untouched hsettled rfl (pioExec_none h),
    completes_untouched hsettled rfl (pioExec_none (op := 5) (f := fun w d => d.pioGive s.env m w none) h),
    completes_untouched hsettled rfl (pioExec_none (op := 8) (f := fun w d => d.pioGive s.env m w (some (d.stampVal w))) h), List.forall_mem_nil _⟩

/-- A driven pin whose edge a timer unit counts (R284, R286). -/
theorem completes_driveEdge {s : State} {m : Fin 8} {w : BitVec 16} {t : Ns} (hclean : s.clean) (hruns : s.dev.pioRuns m = true)
    (hword : s.dev.pioWord m = w) (hwait : s.dev.pio[m].wait = .none) (hop : pf w 12 4 = 1)
    (hstep : s.dev.pio[m].step < s.dev.pio[m].steps (s.now t))
    (hstill : ∀ u : Fin 8, s.dev.tmu[u].running = true → s.dev.tmu[u].cnt ≠ 0 ∧ s.dev.tmu[u].resetAt ≠ some (s.now t))
    (hplain : ∀ (u : Fin 8) (c : Fin 4), s.dev.tmu[u].ch[c].mode = 0) :
    Completes (.pioDrive t m) s fun s' => ∀ (u : Fin 8) (n : Fin 16), (∀ v, v ≠ u → s.dev.tmu[v].deaf) → s.dev.tmu[u].clk = true →
      s.dev.tmu[u].src = 40 + n.val → s.dev.tmu[u].running = true → s.dev.pinLevel n = bit s.dev.tmu[u].cfg 1 →
      s'.dev.pinLevel n = !bit s.dev.tmu[u].cfg 1 → s'.dev.tmu[u].cnt = s.dev.tmu[u].cnt - 1 := by
  let d₀ := (s.dev.at t).tookStep m
  let d₁ := (d₀.driven (pf w 11 1 == 1) (d₀.lanesWritten m (8 * pf w 8 1) 8 (pf w 11 1 == 1) (d₀.drivenValue m w).testBit)).modPio m Pio.done
  let body : Env → Dev → Dev := fun _ => Dev.pioExec m 1 fun w d => d.pioDriveOp m w
  have hrun : Dev.pioExec m 1 (fun w d => d.pioDriveOp m w) (s.dev.at t) = d₁.pinEdges 16 d₀.pinLevels := by
    rw [pioExec_runs (d := s.dev.at t) hclean.2.1 hruns hword hwait hop hstep, Dev.watchPins, pioDriveOp_eq]
  refine completes_of_run rfl fun hrests => ?_
  obtain ⟨s', hnext, hs' : Follows s ((s.after t body).settle s.env) s'⟩ := runAt_follows hrests body
  refine ⟨s', hnext, fun u n hothers hclk hsrc hrunning hbefore hafter => ?_⟩
  have hcounts : d₁.CountsPin u n := ⟨hclk, hsrc, hrunning, (hstill u hrunning).1, (hstill u hrunning).2, hplain u, hothers⟩
  have hend := hrun.trans (pinEdges_counted hcounts (d₀ := d₀) 15)
  by_cases hmoved : d₀.pinLevel n ≠ d₁.pinLevel n ∧ d₁.pinLevel n = !bit d₁.tmu[u].cfg 1
  · rw [if_pos hmoved] at hend
    rw [show s.after t body = d₁.counted u from hend, Dev.settle_quiet (d := d₁.counted u) hclean.1.2.1] at hs'
    rw [hs'.tmu]
    exact (congrArg Tmu.cnt (upd_same ..) :)
  · rw [if_neg hmoved] at hend
    rw [show s.after t body = d₁ from hend, Dev.settle_quiet (d := d₁) hclean.1.2.1] at hs'
    have hlevel := (pinLevel_congr hs'.tmu hs'.pios n).symm.trans hafter
    refine absurd ⟨?_, hlevel⟩ hmoved
    rw [hlevel, show d₀.pinLevel n = bit s.dev.tmu[u].cfg 1 from hbefore]
    exact (Bool.not_ne_self _).symm

/-- Settles O50: each instruction is one function of its machine and of the block's shared part, taken in the machine's step; no
timer unit follows the pins, but in the clause on edges, where one alone counts. -/
theorem pioInstructions : Obligations.PioInstructions := by
  unfold Obligations.PioInstructions
  intro s m w t levels hclean hruns hword hwait x step deaf
  refine ⟨fun hnone => ?_, fun hstep hstill hplain hop => ?edge, fun hstep hdeaf => ?_⟩
  · have hnone' : (s.dev.at t).pio[m].steps (s.dev.at t).dtime ≤ (s.dev.at t).pio[m].step := hnone
    exact pio_idle hclean.1.2 hnone'
  case edge => exact completes_driveEdge hclean hruns hword hwait hop hstep hstill hplain
  intro others next jump seen lane pins
  have key {c : Instr} := @completes_pioOp s m w c hclean hruns hword hwait hdeaf
  obtain ⟨extAt, hsee⟩ := see_deaf (d := s.dev.at t) hdeaf levels
  let dl : Dev := { s.dev.at t with pios := s.dev.pios.seeing levels extAt }
  have hseen (s' : State) (h : s'.dev.pios = s.dev.pios.seeing levels extAt) : seen s' := by
    simp only [seen, h]
    rfl
  refine ⟨fun hop => ?load, fun hop => ?count, fun hop => ?go, fun hop => ?pause, fun hop => ?raise, fun hop => ?drive, fun hop hn => ?shift,
    fun hop hn => ?sample⟩
  case load =>
    refine (key (c := .load t m) (op := 10) (f := fun w d => d.pioLoadOp m w) (ps := s.dev.pios) (ps' := s.dev.pios) (g := Pio.loaded w)
      hstep rfl rfl hop rfl).imp fun s' hs' => ?_
    obtain ⟨hone, hothers, hpios, htouches⟩ := hs'
    unfold Pio.loaded at hone
    by_cases hy : pf w 11 1 = 1
    · rw [if_pos hy] at hone
      rw [if_pos hy, if_pos hy]
      exact ⟨⟨⟨hothers, htouches⟩, Pio.done_next hone⟩, hpios, (congrArg Pio.x hone :), (congrArg Pio.y hone :)⟩
    · rw [if_neg hy] at hone
      rw [if_neg hy, if_neg hy]
      exact ⟨⟨⟨hothers, htouches⟩, Pio.done_next hone⟩, hpios, (congrArg Pio.x hone :), (congrArg Pio.y hone :)⟩
  case count =>
    refine (key (c := .count t m) (op := 6) (f := fun w d => d.pioCountOp m w) (ps := s.dev.pios) (ps' := s.dev.pios) (g := Pio.counted w)
      hstep rfl rfl hop rfl).imp fun s' hs' => ?_
    obtain ⟨hone, hothers, hpios, htouches⟩ := hs'
    refine ⟨hpios, fun hx => ⟨⟨hothers, htouches⟩, hone.trans (if_pos hx)⟩, fun hx => ?_⟩
    have hdone := hone.trans (if_neg hx)
    exact ⟨⟨⟨hothers, htouches⟩, Pio.done_next hdone⟩, congrArg Pio.x hdone⟩
  case go =>
    refine (key (c := .go t m levels) (op := 7) (f := fun w d => d.pioGoOp m w) (ps := (s.dev.pios.seeing levels extAt))
      (ps' := s.dev.pios.seeing levels extAt) (g := fun x => if (dl.tookStep m).goTakes m w then x.jump (pf w 0 6) else x.done) hstep rfl
      (congrArg (Dev.pioExec m 7 fun w d => d.pioGoOp m w) hsee) hop rfl).imp fun s' hs' => ?_
    obtain ⟨hone, hothers, hpios, htouches⟩ := hs'
    refine ⟨hseen s' hpios, ?_⟩
    intro c
    have hc : (dl.tookStep m).goTakes m w = c := by
      simp only [Dev.goTakes, tookStep_cell, lane_tookStep, c]
      rw [show (dl.pio[m].x != 0) = decide (x.x ≠ 0) from (decide_not ..).symm]
      generalize pf w 6 3 = k
      rcases k with _ | _ | _ | _ | _ | _ | _ | k <;> rfl
    rw [hc] at hone
    refine ⟨fun htakes => ⟨⟨hothers, htouches⟩, hone.trans (if_pos htakes)⟩, fun hpasses => ?_⟩
    have hdone := hone.trans (if_neg (Bool.eq_false_iff.mp hpasses))
    exact ⟨⟨hothers, htouches⟩, Pio.done_next hdone⟩
  case pause =>
    refine (key (c := .pause t m) (op := 11) (f := fun w d => d.pioPauseOp m w) (ps := s.dev.pios) (ps' := s.dev.pios)
      (g := Pio.paused w (s.now t)) hstep rfl rfl hop rfl).imp fun s' hs' => ?_
    obtain ⟨hone, hothers, hpios, htouches⟩ := hs'
    refine ⟨⟨hothers, htouches⟩, hpios, fun hn => ?_, fun hn => hone.trans (if_neg hn)⟩
    exact ⟨⟨hothers, htouches⟩, Pio.done_next (hone.trans (if_pos hn))⟩
  case raise =>
    refine (key (c := .raise t m) (op := 9) (f := fun w d => d.pioRaiseOp m w) (ps := s.dev.pios)
      (ps' := s.dev.pios.raised (pf w 3 1 == 1) (pf w 0 3)) (g := Pio.done) hstep rfl rfl hop (pioRaiseOp_eq ..)).imp
      fun s' hs' => ?_
    obtain ⟨hone, hothers, hpios, htouches⟩ := hs'
    refine ⟨⟨⟨hothers, htouches⟩, Pio.done_next hone⟩, ?_⟩
    rw [hpios]
    by_cases hline : pf w 3 1 = 1
    · simp only [if_pos hline, PioShared.raised, beq_iff_eq.mpr hline, if_true, and_self]
    · simp only [if_neg hline, PioShared.raised, beq_eq_false_iff_ne.mpr hline, Bool.false_eq_true, if_false, and_self]
  case drive =>
    let dir := pf w 11 1 == 1
    let v := s.dev.drivenValue m w
    refine (key (c := .pioDrive t m) (op := 1) (f := fun w d => d.pioDriveOp m w) (ps := s.dev.pios)
      (ps' := (s.dev.driven dir (s.dev.lanesWritten m (8 * pf w 8 1) 8 dir v.testBit)).pios) (g := Pio.done) hstep rfl rfl hop ?_).imp
      fun s' hs' => ?_
    · rw [pioDriveOp_eq, lanesWritten_tookStep, drivenValue_tookStep]
      rfl
    · obtain ⟨hone, hothers, hpios, htouches⟩ := hs'
      refine ⟨⟨⟨hothers, htouches⟩, Pio.done_next hone⟩, fun hout => ?_, fun hdir => ?_⟩
      · have hdir : dir = false := beq_eq_false_iff_ne.mpr (by omega)
        rw [hpios, hdir]
        exact ⟨pins_laneBits .., rfl⟩
      · have hdir : dir = true := beq_iff_eq.mpr hdir
        rw [hpios, hdir]
        exact ⟨pins_laneBits .., rfl⟩
  case shift =>
    refine (key (c := .shift t m) (op := 3) (f := fun w d => d.pioShiftOp m w) (ps := s.dev.pios)
      (ps' := (s.dev.driven false (s.dev.lanesWritten m 0 (pf w 0 5) false x.bitOut)).pios)
      (g := fun y => { y with ow := if bit x.cfg 44 then x.ow <<< pf w 0 5 else x.ow >>> pf w 0 5, ocnt := y.ocnt - pf w 0 5 }.done)
      hstep rfl rfl hop ?_).imp fun s' hs' => ?_
    · rw [pioShiftOp_eq _ _ _ hn, lanesWritten_tookStep, tookStep_cell]
      rfl
    · obtain ⟨hone, hothers, hpios, htouches⟩ := hs'
      refine ⟨⟨⟨hothers, htouches⟩, Pio.done_next hone⟩, congrArg Pio.ow hone, congrArg Pio.ocnt hone, ?_⟩
      rw [hpios]
      exact ⟨rfl, pins_laneBits ..⟩
  case sample =>
    refine (key (c := .pioSample t m levels) (op := 2) (f := fun w d => d.pioSampleOp m w) (ps := s.dev.pios.seeing levels extAt)
      (ps' := s.dev.pios.seeing levels extAt) (g := fun y =>
        { y with iw := ((List.range (pf w 0 5)).map lane).foldl (shiftIn (bit x.cfg 43)) y.iw, icnt := min 32 (y.icnt + pf w 0 5) }.done)
      hstep rfl (congrArg (Dev.pioExec m 2 fun w d => d.pioSampleOp m w) hsee) hop ?_).imp
      fun s' hs' => ?_
    · simp only [Dev.pioSampleOp, tookStep_cell, lane_tookStep]
      rfl
    · obtain ⟨hone, hothers, hpios, htouches⟩ := hs'
      obtain ⟨hin, hkept⟩ := shiftIn_levels (bit x.cfg 43) lane x.iw (pf w 0 5) (Nat.le_trans hn (by decide))
      refine ⟨⟨⟨hothers, htouches⟩, Pio.done_next hone⟩, congrArg Pio.icnt hone, hseen s' hpios, ?_⟩
      rw [congrArg Pio.iw hone]
      exact ⟨hin, hkept⟩

end Sys2Proof.Machine
end

section
/-! The obligation on the PIO queues, HOLD and the ends of waits (R295, R298, R300, R301). -/

namespace Sys2Proof.Machine

open Sys2Proof

/-! ### A word pushed (R300, R301) -/

/-- The machine after a word reached its receive slot, or its receive queue. -/
def Pio.pushed (v : W32) (now : Ns) (x : Pio) : Pio :=
  if bit x.rxSlot 14 then { x with lastRx := now, stale := false } else { x with rx := x.rx ++ [v] }

/-- The write of a word pushed, to the slot that stands as its receive queue. -/
def Pio.pushWrites (e : Env) (v : W32) (x : Pio) : List MemOp :=
  if bit x.rxSlot 14 then [.slot (fld x.rxSlot 0 14) (v.setWidth 64) (1 ||| ((e.attr (fld x.rxSlot 0 14)).tag &&& 0x10))] else []

/-- A word finds room, in the queue or in a slot of the hardware's own. -/
def Pio.Fits (e : Env) (x : Pio) : Prop :=
  (bit x.rxSlot 14 = false ∧ x.rx.length < x.rxCap) ∨
    (bit x.rxSlot 14 = true ∧ (e.attr (fld x.rxSlot 0 14)).cls = 1 ∧ (e.attr (fld x.rxSlot 0 14)).writer = 8)

/-- The receive queue is full. -/
def Pio.Full (x : Pio) : Prop := bit x.rxSlot 14 = false ∧ x.rxCap ≤ x.rx.length

section
variable {d : Dev} {e : Env} {m : Fin 8} {w : BitVec 16}

theorem push_fits (v : W32) (hdead : d.memu.deadTags = []) (h : d.pio[m].Fits e) :
    d.push e m v = (true, { d.modPio m (Pio.pushed v d.dtime) with writes := d.writes ++ d.pio[m].pushWrites e v }) := by
  obtain ⟨hqueue, hroom⟩ | ⟨hslot, hcls, hwriter⟩ := h
  · simp [-Fin.getElem_fin, Dev.push, hqueue, hroom, Pio.pushWrites, Dev.modPio, upd, Pio.pushed]
  · have hindex : ¬16384 ≤ fld d.pio[m].rxSlot 0 14 := Nat.not_le_of_lt (Nat.mod_lt _ (by decide))
    simp [-Fin.getElem_fin, Dev.push, hslot, Dev.hwSlot, hindex, Dev.tagDead_clean hdead, hcls, hwriter, Dev.write, Pio.pushWrites,
      Dev.modPio, upd, Pio.pushed]

theorem push_full (v : W32) (h : d.pio[m].Full) : d.push e m v = (false, d) := by
  simp [-Fin.getElem_fin, Dev.push, h.1, Nat.not_lt_of_le h.2]

/-- GIVE of the input word clears it; nothing else of the machine is changed. -/
theorem gone_kept (w : BitVec 16) (x : Pio) : (x.gone w).pc = x.pc ∧ (x.gone w).inject = x.inject ∧ (x.gone w).rx = x.rx ∧
    (x.gone w).lastRx = x.lastRx ∧ (x.gone w).stale = x.stale := by
  unfold Pio.gone
  split <;> exact ⟨rfl, rfl, rfl, rfl, rfl⟩

theorem pushed_kept (v : W32) (now : Ns) (x : Pio) : (x.pushed v now).pc = x.pc ∧ (x.pushed v now).inject = x.inject ∧
    (x.pushed v now).iw = x.iw := by
  unfold Pio.pushed
  split <;> exact ⟨rfl, rfl, rfl⟩

/-- A machine whose word has found room. -/
def Pio.gave (w : BitVec 16) (v : W32) (now : Ns) (x : Pio) : Pio := ((x.pushed v now).gone w).done

theorem gave_next {x₀ x y : Pio} {v : W32} {now : Ns} (hy : y = x.gave w v now) (hpc : x.pc = x₀.pc := by rfl)
    (hinject : x.inject = x₀.inject := by rfl) :
    y.pc = (if x₀.inject.isSome then x₀.pc else x₀.pc + 1) ∧ y.inject = none ∧ y.wait = .none := by
  obtain ⟨hpc₁, hinject₁, -⟩ := gone_kept w (x.pushed v now)
  obtain ⟨hpc₂, hinject₂, -⟩ := pushed_kept v now x
  exact Pio.done_next hy (hpc₁.trans (hpc₂.trans hpc)) (hinject₁.trans (hinject₂.trans hinject))

theorem gave_queue {x : Pio} {v : W32} {now : Ns} (h : bit x.rxSlot 14 = false) : (x.gave w v now).rx = x.rx ++ [v] := by
  obtain ⟨-, -, hrx, -⟩ := gone_kept w (x.pushed v now)
  refine hrx.trans ?_
  rw [Pio.pushed, if_neg (Bool.eq_false_iff.mp h)]

theorem gave_slot {x : Pio} {v : W32} {now : Ns} (h : bit x.rxSlot 14 = true) :
    (x.gave w v now).rx = x.rx ∧ (x.gave w v now).lastRx = now ∧ (x.gave w v now).stale = false := by
  obtain ⟨-, -, hrx, hlast, hstale⟩ := gone_kept w (x.pushed v now)
  have hpushed : x.pushed v now = { x with lastRx := now, stale := false } := if_pos h
  exact ⟨hrx.trans (by rw [hpushed]), hlast.trans (by rw [hpushed]), hstale.trans (by rw [hpushed])⟩

/-- GIVE takes the input word away. -/
theorem gave_input {x : Pio} {v : W32} {now : Ns} (hop : pf w 12 4 = 5) :
    (pf w 1 2 = 0 → (x.gave w v now).iw = 0 ∧ (x.gave w v now).icnt = 0) ∧ (pf w 1 2 ≠ 0 → (x.gave w v now).iw = x.iw) := by
  obtain ⟨-, -, hiw⟩ := pushed_kept v now x
  refine ⟨fun hinput => ?_, fun hother => ?_⟩
  · simp [Pio.gave, Pio.gone, Pio.done, hop, hinput]
  · simp [Pio.gave, Pio.gone, Pio.done, hother, hiw]

/-! ### TAKE -/

theorem takeWord_kept (w : BitVec 16) (x : Pio) : (x.takeWord w).pc = x.pc ∧ (x.takeWord w).inject = x.inject := by
  unfold Pio.takeWord
  split
  · exact ⟨rfl, rfl⟩
  · split <;> exact ⟨rfl, rfl⟩

theorem takeWord_takes {x : Pio} {v : W32} {l : List W32} (h : x.tx = v :: l) : (x.takeWord w).tx = l ∧
    (pf w 1 2 = 0 → (x.takeWord w).ow = v ∧ (x.takeWord w).ocnt = 32) ∧ (pf w 1 2 = 1 → (x.takeWord w).x = v) ∧
    (pf w 1 2 = 2 → (x.takeWord w).y = v) := by
  refine ⟨?_, fun hdst => ?_, fun hdst => ?_, fun hdst => ?_⟩
  · simp only [Pio.takeWord, h]
    split <;> rfl
  all_goals simp [Pio.takeWord, h, hdst]

end

/-! ### Completion -/

/-- A command that changes one machine, the shared part of the block and the memories. -/
theorem completes_machine {s : State} {c : Instr} {m : Fin 8} {body : Env → Dev → Dev} {pio : Vector Pio 8} {ps : PioShared}
    {ws : List MemOp} {y : Pio} (hsettled : s.dev.settled) (hexec : exec c s = runAt (stampOf c) body s)
    (hbody : s.after (stampOf c) body = { s.dev.at (stampOf c) with pio := pio, pios := ps, writes := s.dev.writes ++ ws })
    (hone : pio[m] = y) (hothers : ∀ j, j ≠ m → pio[j] = s.dev.pio[j]) :
    Completes c s fun s' => s'.dev.pio[m] = y ∧ ((∀ j, j ≠ m → s'.dev.pio[j] = s.dev.pio[j]) ∧ s.touches [.pio, .mems] s') ∧
      s'.dev.pios = ps ∧ s'.mems = ws.foldl (fun m w => w.apply m) s.mems := by
  refine completes_of_changesOnly hsettled hexec hbody (.of [.pio, .mems] (pio := .inl (by simp)) (writes := .inl (by simp)))
    fun s' h htouches => ⟨?_, ⟨fun j hj => ?_, htouches⟩, h.pios, ?_⟩
  · rw [h.pio]
    exact hone
  · rw [h.pio]
    exact hothers j hj
  · rw [h.mems]
    show (s.dev.writes ++ ws).foldl _ _ = _
    rw [hsettled.2, List.nil_append]

section
variable {s : State} {m : Fin 8} {w : BitVec 16} {c : Instr} {body : Env → Dev → Dev} {g : Pio → Pio} {ws : List MemOp}

/-- The same, in a step of the machine's own. -/
theorem completes_machineStep {ps : PioShared} (hsettled : s.dev.settled) (hexec : exec c s = runAt (stampOf c) body s)
    (hbody : s.after (stampOf c) body =
      { ((s.dev.at (stampOf c)).tookStep m).modPio m g with pios := ps, writes := s.dev.writes ++ ws }) :
    Completes c s fun s' => s'.dev.pio[m] = g { s.dev.pio[m] with step := s.dev.pio[m].steps (s.now (stampOf c)) } ∧
      ((∀ j, j ≠ m → s'.dev.pio[j] = s.dev.pio[j]) ∧ s.touches [.pio, .mems] s') ∧ s'.dev.pios = ps ∧
      s'.mems = ws.foldl (fun m w => w.apply m) s.mems :=
  completes_machine hsettled hexec hbody ((Dev.modPio_same g).trans (congrArg g (upd_same ..)))
    fun _ hj => (Dev.modPio_other hj g).trans (upd_other _ _ _ _ hj)

/-- An instruction that reaches the memories, executed in a step of its machine. -/
theorem completes_queueOp {op : Nat} {f : BitVec 16 → Dev → Dev} {ps ps' : PioShared} (hclean : s.clean)
    (hruns : s.dev.pioRuns m = true) (hword : s.dev.pioWord m = w) (hdeaf : ∀ u : Fin 8, s.dev.tmu[u].deaf)
    (hstep : s.dev.pio[m].step < s.dev.pio[m].steps (s.now (stampOf c))) (hwait : s.dev.pio[m].wait = .none)
    (hexec : exec c s = runAt (stampOf c) body s)
    (hbody : s.after (stampOf c) body = Dev.pioExec m op f { s.dev.at (stampOf c) with pios := ps }) (hop : pf w 12 4 = op)
    (hf : f w (({ s.dev.at (stampOf c) with pios := ps } : Dev).tookStep m) =
      { ((s.dev.at (stampOf c)).tookStep m).modPio m g with pios := ps', writes := s.dev.writes ++ ws })
    (hareas : ps.areas = s.dev.pios.areas := by rfl) :
    Completes c s fun s' => s'.dev.pio[m] = g { s.dev.pio[m] with step := s.dev.pio[m].steps (s.now (stampOf c)) } ∧
      ((∀ j, j ≠ m → s'.dev.pio[j] = s.dev.pio[j]) ∧ s.touches [.pio, .mems] s') ∧ s'.dev.pios = ps' ∧
      s'.mems = ws.foldl (fun m w => w.apply m) s.mems := by
  let d : Dev := { s.dev.at (stampOf c) with pios := ps }
  have hword' : d.pioWord m = w := (pioWord_areas (d := s.dev) (d' := d) m rfl hareas).trans hword
  refine completes_machineStep hclean.1.2 hexec (hbody.trans ?_)
  rw [pioExec_runs (d := d) hclean.2.1 hruns hword' hwait hop hstep]
  refine (watchPins_deaf ?_).trans hf
  rw [hf]
  exact hdeaf

/-- The state after a word found room (R300, R301). -/
theorem pushed_ends {s' : State} {v : W32} {now : Ns} {x : Pio} (hclean : s.clean) (hone : s'.dev.pio[m] = x.gave w v now)
    (hmems : s'.mems = (x.pushWrites s.env v).foldl (fun m w => w.apply m) s.mems) :
    (bit x.rxSlot 14 = false → s'.mems = s.mems ∧ s'.dev.pio[m].rx = x.rx ++ [v]) ∧
    (bit x.rxSlot 14 = true → s'.slot (fld x.rxSlot 0 14) = v.setWidth 64 ∧ (s'.attr (fld x.rxSlot 0 14)).tag.getLsbD 0 = true ∧
      s'.dev.pio[m].rx = x.rx ∧ s'.dev.pio[m].lastRx = now ∧ s'.dev.pio[m].stale = false) := by
  have hindex : fld x.rxSlot 0 14 < 16384 := Nat.mod_lt _ (by decide)
  refine ⟨fun hqueue => ⟨hmems.trans ?_, hone ▸ gave_queue hqueue⟩, fun hslot => ?_⟩
  · rw [Pio.pushWrites, if_neg (Bool.eq_false_iff.mp hqueue)]
    rfl
  · rw [Pio.pushWrites, if_pos hslot] at hmems
    refine ⟨?_, ?_, hone ▸ gave_slot hslot⟩
    · rw [State.slot, hmems]
      exact word_slot hclean.1.1 hindex ..
    · rw [State.attr, hmems]
      refine (congrArg (fun a : SlotAttr => a.tag.getLsbD 0) ((attr_slot hclean.1.1 hindex ..).trans (if_pos rfl))).trans ?_
      simp

end

/-! ### The instructions -/

section
variable {d : Dev} {e : Env} {m : Fin 8} {w : BitVec 16} {stamp : Option W32}

theorem pioGive_fits (hdead : d.memu.deadTags = []) (h : d.pio[m].Fits e) : d.pioGive e m w stamp =
    { d.modPio m (Pio.gave w (d.pio[m].given w stamp) d.dtime) with
      writes := d.writes ++ d.pio[m].pushWrites e (d.pio[m].given w stamp) } := by
  simp only [Dev.pioGive, push_fits _ hdead h, if_true]
  simp only [Dev.modPio, upd_upd]
  rfl

/-- The machine after GIVE or STAMP into a full queue (R300). -/
def Pio.piledUp (w : BitVec 16) (stamp : Option W32) (x : Pio) : Pio :=
  let x := { x with pileup := true, pileups := x.pileups + 1 }
  if pf w 0 1 = 1 then { x with wait := .block stamp } else (x.gone w).done

theorem pioGive_full (h : d.pio[m].Full) : d.pioGive e m w stamp = d.modPio m (Pio.piledUp w stamp) := by
  simp only [Dev.pioGive, push_full _ h, Bool.false_eq_true, if_false]
  rfl

/-- The machine after TAKE of an empty queue (R300). -/
def Pio.ranOut (w : BitVec 16) (x : Pio) : Pio :=
  let x := { x with runout := true, runouts := x.runouts + 1 }
  if pf w 0 1 = 1 then { x with wait := .block none } else x.done

theorem pioTake_empty (h : d.pio[m].tx = []) : d.pioTake m w = d.modPio m (Pio.ranOut w) :=
  Dev.modPio_congr (by simp [-Fin.getElem_fin, h, Pio.ranOut])

theorem pioTake_takes {v : W32} {l : List W32} (h : d.pio[m].tx = v :: l) : d.pioTake m w = d.modPio m fun x => (x.takeWord w).done :=
  Dev.modPio_congr (by simp [-Fin.getElem_fin, h])

end

/-! ### HOLD (R298) -/

section
variable {d : Dev} {m : Fin 8} {w : BitVec 16}

/-- The machine after a look at the condition of a HOLD of a lane. -/
def Pio.held (met level : Bool) (x : Pio) : Pio := if met then x.done else { x with wait := .hold level }

theorem holdPass_lane (h : pf w 9 3 < 2) : d.holdPass m w = d.modPio m Pio.done := by
  unfold Dev.holdPass
  simp only
  rw [if_neg (by omega)]

theorem pioHold_lane (h : pf w 9 3 = 0) :
    d.pioHold m w = d.modPio m (Pio.held (d.lane m (pf w 0 4) == (pf w 8 1 == 1)) (d.lane m (pf w 0 4))) := by
  have hmet : d.holdMet m w none = (d.lane m (pf w 0 4) == (pf w 8 1 == 1)) := by simp only [Dev.holdMet, h]
  unfold Dev.pioHold
  rw [hmet, holdPass_lane (by omega)]
  cases hl : d.lane m (pf w 0 4) == (pf w 8 1 == 1) <;> rfl

/-- The block's shared part after a HOLD of a flag has passed. -/
def PioShared.holdPassed (w : BitVec 16) (now : Ns) (ps : PioShared) : PioShared :=
  if pf w 7 1 = 1 then
    { ps with flags := setBit ps.flags (pf w 0 4) false, clrAt := now, clrLines := if ps.clrAt == now then ps.clrLines else 0
              clrFlags := setBit (if ps.clrAt == now then ps.clrFlags else 0) (pf w 0 4) true }
  else ps

/-- A flag that is set is taken, with CLR cleared. -/
theorem pioHold_flag (h : pf w 9 3 = 2) (hset : d.pios.flags.getLsbD (pf w 0 4) = true) :
    d.pioHold m w = { d.modPio m Pio.done with pios := d.pios.holdPassed w d.dtime } := by
  have hmet : d.holdMet m w none = true := by simp only [Dev.holdMet, h, Dev.flagSeen, Bool.false_eq_true, if_false, hset, Bool.true_or]
  unfold Dev.pioHold
  rw [if_pos hmet]
  unfold Dev.holdPass PioShared.holdPassed
  by_cases hclr : pf w 7 1 = 1
  · simp only [hclr, h, true_or, and_self, if_true]
    rfl
  · simp only [hclr, false_and, if_false]
    rfl

theorem holdPassed_flag {ps : PioShared} {now : Ns} (hi : pf w 0 4 < 8) (hset : ps.flags.getLsbD (pf w 0 4) = true) :
    (ps.holdPassed w now).flags.getLsbD (pf w 0 4) = (pf w 7 1 == 0) := by
  unfold PioShared.holdPassed
  by_cases hclr : pf w 7 1 = 1
  · rw [if_pos hclr, hclr]
    exact (getLsbD_setBit _ _ _ _ hi).trans (if_pos rfl)
  · have hzero : pf w 7 1 = 0 := (Nat.mod_two_eq_zero_or_one _).resolve_right hclr
    rw [if_neg hclr, hset, hzero]
    rfl

/-- A look at the lane of a HOLD that waits. -/
theorem pioHoldEnd_lane {last : Bool} (hword : d.pioWord m = w) (hwait : d.pio[m].wait = .hold last) (hruns : d.pioRuns m = true)
    (hstep : d.pio[m].step < d.pio[m].steps d.dtime) (h : pf w 9 3 < 2) :
    d.pioHoldEnd m = (d.tookStep m).modPio m (Pio.held (d.lane m (pf w 0 4) == (pf w 8 1 == 1) && (pf w 9 3 == 0 || last != (pf w 8 1 == 1)))
      (d.lane m (pf w 0 4))) := by
  have hmet : (d.tookStep m).holdMet m w (some last) =
      (d.lane m (pf w 0 4) == (pf w 8 1 == 1) && (pf w 9 3 == 0 || last != (pf w 8 1 == 1))) := by
    obtain hsrc | hsrc : pf w 9 3 = 0 ∨ pf w 9 3 = 1 := by omega
    all_goals simp [Dev.holdMet, hsrc, lane_tookStep]
  simp only [Dev.pioHoldEnd, hword, hwait, pioStep_due hruns hstep, Bool.not_true, Bool.false_eq_true, if_false, hmet, holdPass_lane h,
    lane_tookStep]
  cases hl : d.lane m (pf w 0 4) == (pf w 8 1 == 1) && (pf w 9 3 == 0 || last != (pf w 8 1 == 1)) <;> rfl

end

/-! ### The ends of waits (R300) -/

section
variable {d : Dev} {e : Env} {m : Fin 8} {w : BitVec 16}

theorem pioBlockEnd_none (h : d.pio[m].steps d.dtime ≤ d.pio[m].step) : d.pioBlockEnd e m = d := by
  unfold Dev.pioBlockEnd
  simp only [pioStep_none h]
  split <;> rfl

section
variable {a : Option W32} (hword : d.pioWord m = w) (hwait : d.pio[m].wait = .block a) (hruns : d.pioRuns m = true)
  (hstep : d.pio[m].step < d.pio[m].steps d.dtime)
include hword hwait hruns hstep

theorem pioBlockEnd_take {v : W32} {l : List W32} (hop : pf w 12 4 = 4) (htx : d.pio[m].tx = v :: l) :
    d.pioBlockEnd e m = (d.tookStep m).modPio m fun x => (x.takeWord w).done := by
  simp [-Fin.getElem_fin, Dev.pioBlockEnd, hword, hwait, pioStep_due hruns hstep, hop, tookStep_cell, htx]

theorem pioBlockEnd_empty (hop : pf w 12 4 = 4) (htx : d.pio[m].tx = []) : d.pioBlockEnd e m = d.tookStep m := by
  simp [-Fin.getElem_fin, Dev.pioBlockEnd, hword, hwait, pioStep_due hruns hstep, hop, tookStep_cell, htx]

theorem pioBlockEnd_fits (hop : pf w 12 4 ≠ 4) (hdead : d.memu.deadTags = []) (h : d.pio[m].Fits e) : d.pioBlockEnd e m =
    { (d.tookStep m).modPio m (Pio.gave w (d.pio[m].given w a) d.dtime) with
      writes := d.writes ++ d.pio[m].pushWrites e (d.pio[m].given w a) } := by
  have hfits : (d.tookStep m).pio[m].Fits e := by rwa [tookStep_cell]
  simp only [Dev.pioBlockEnd, hword, hwait, pioStep_due hruns hstep, Bool.not_true, Bool.false_eq_true, if_false, hop,
    push_fits (d := d.tookStep m) _ hdead hfits, if_true]
  simp only [tookStep_cell]
  refine Eq.trans (b := { ((d.tookStep m).modPio m (Pio.pushed (d.pio[m].given w a) d.dtime)).modPio m fun x => (x.gone w).done with
      writes := d.writes ++ d.pio[m].pushWrites e (d.pio[m].given w a) }) rfl ?_
  rw [Dev.modPio_modPio]
  rfl

theorem pioBlockEnd_full (hop : pf w 12 4 ≠ 4) (h : d.pio[m].Full) : d.pioBlockEnd e m = d.tookStep m := by
  have hfull : (d.tookStep m).pio[m].Full := by rwa [tookStep_cell]
  simp only [Dev.pioBlockEnd, hword, hwait, pioStep_due hruns hstep, Bool.not_true, Bool.false_eq_true, if_false, hop, push_full _ hfull]

end

theorem pioPauseEnd_due {n : Nat} (hwait : d.pio[m].wait = .pause n) (hruns : d.pioRuns m = true) (h : n ≤ d.pio[m].steps d.dtime) :
    d.pioPauseEnd m = d.modPio m fun x => { x with step := n }.done := by
  simp [-Fin.getElem_fin, Dev.pioPauseEnd, hwait, hruns, h]

theorem pioPauseEnd_soon {n : Nat} (hwait : d.pio[m].wait = .pause n) (h : d.pio[m].steps d.dtime < n) : d.pioPauseEnd m = d := by
  simp [-Fin.getElem_fin, Dev.pioPauseEnd, hwait, h]

end

end Sys2Proof.Machine
end

section
/-! The obligation on the PIO queues, HOLD and the ends of waits (R295, R298, R300, R301): its proof. -/

namespace Sys2Proof.Machine

open Sys2Proof

theorem Dev.noWrites (d : Dev) : d = { d with writes := d.writes ++ [] } := by
  rw [List.append_nil]

theorem ranOut_ends {x₀ x y : Pio} {w : BitVec 16} (hy : y = x.ranOut w) (hpc : x.pc = x₀.pc := by rfl)
    (hinject : x.inject = x₀.inject := by rfl) : y.runout = true ∧ y.runouts = x.runouts + 1 ∧
    (pf w 0 1 = 0 → y.pc = (if x₀.inject.isSome then x₀.pc else x₀.pc + 1) ∧ y.inject = none ∧ y.wait = .none) ∧
    (pf w 0 1 = 1 → y.wait = .block none ∧ y.pc = x₀.pc) := by
  subst hy
  unfold Pio.ranOut
  by_cases hblocks : pf w 0 1 = 1
  · rw [if_pos hblocks]
    exact ⟨rfl, rfl, fun h => by omega, fun _ => ⟨rfl, hpc⟩⟩
  · rw [if_neg hblocks]
    exact ⟨rfl, rfl, fun _ => Pio.done_next rfl hpc hinject, fun h => absurd h hblocks⟩

theorem piledUp_ends {x₀ x y : Pio} {w : BitVec 16} {stamp : Option W32} (hy : y = x.piledUp w stamp) (hpc : x.pc = x₀.pc := by rfl)
    (hinject : x.inject = x₀.inject := by rfl) : y.pileup = true ∧ y.rx = x.rx ∧ y.pileups = x.pileups + 1 ∧
    (pf w 0 1 = 0 → y.pc = (if x₀.inject.isSome then x₀.pc else x₀.pc + 1) ∧ y.inject = none ∧ y.wait = .none) ∧
    (pf w 0 1 = 1 → y.wait = .block stamp ∧ y.pc = x₀.pc) := by
  subst hy
  unfold Pio.piledUp
  by_cases hblocks : pf w 0 1 = 1
  · rw [if_pos hblocks]
    exact ⟨rfl, rfl, rfl, fun h => by omega, fun _ => ⟨rfl, hpc⟩⟩
  · rw [if_neg hblocks]
    obtain ⟨hpc', hinject', hrx, -⟩ := gone_kept w { x with pileup := true, pileups := x.pileups + 1 }
    refine ⟨?_, hrx, ?_, fun _ => Pio.done_next rfl (hpc'.trans hpc) (hinject'.trans hinject), fun h => absurd h hblocks⟩
    all_goals
      unfold Pio.gone
      split <;> rfl

/-- The state after a command whose machine stands as `y`, and which writes `ws`. -/
structure State.MachineEnds (s : State) (m : Fin 8) (y : Pio) (ws : List MemOp) (s' : State) : Prop where
  one : s'.dev.pio[m] = y
  others : (∀ j, j ≠ m → s'.dev.pio[j] = s.dev.pio[j]) ∧ s.touches [.pio, .mems] s'
  mems : s'.mems = ws.foldl (fun m w => w.apply m) s.mems

/-- The machine with its step taken (R295). -/
def State.stepping (s : State) (t : Ns) (m : Fin 8) : Pio := { s.dev.pio[m] with step := s.dev.pio[m].steps (s.now t) }

/-- The device with the levels driven from outside as a command shows them. -/
abbrev Dev.showing (levels : BitVec 16) (d : Dev) : Dev := { d with pios := { d.pios with ext := levels } }

section
variable {s : State} {m : Fin 8} {w : BitVec 16} {t : Ns} (hclean : s.clean) (hruns : s.dev.pioRuns m = true)
  (hword : s.dev.pioWord m = w) (hstep : s.dev.pio[m].step < s.dev.pio[m].steps (s.now t))

theorem stamp_time : ((s.dev.at t).tookStep m).stampVal w = if pf w 1 1 = 0 then BitVec.ofNat 32 (s.now t) else
    if s.dev.pos.synced then BitVec.ofNat 32 (s.dev.poswAt (s.now t)).2 else 0xFFFFFFFF := rfl

theorem stepping_fits {e : Env} {stamp : Option W32} (hclean : s.clean) (hfits : (s.stepping t m).Fits e) :
    ((s.dev.at t).tookStep m).pioGive e m w stamp =
      { ((s.dev.at t).tookStep m).modPio m (Pio.gave w ((s.stepping t m).given w stamp) (s.now t)) with
        writes := s.dev.writes ++ (s.stepping t m).pushWrites e ((s.stepping t m).given w stamp) } := by
  have hcell : ((s.dev.at t).tookStep m).pio[m] = s.stepping t m := tookStep_cell ..
  rw [pioGive_fits (d := (s.dev.at t).tookStep m) hclean.2.2 (hcell ▸ hfits), hcell]
  rfl

theorem stepping_full {e : Env} {stamp : Option W32} (hfull : (s.stepping t m).Full) : ((s.dev.at t).tookStep m).pioGive e m w stamp =
    { ((s.dev.at t).tookStep m).modPio m (Pio.piledUp w stamp) with writes := s.dev.writes ++ [] } := by
  have hcell : ((s.dev.at t).tookStep m).pio[m] = s.stepping t m := tookStep_cell ..
  rw [pioGive_full (d := (s.dev.at t).tookStep m) (hcell ▸ hfull)]
  exact Dev.noWrites _

/-- A look at a wait that goes on. -/
theorem completes_waitOn (hclean : s.clean) (h : (s.dev.at t).pioBlockEnd s.env m = (s.dev.at t).tookStep m) :
    Completes (.pioBlockEnd t m) s (s.MachineEnds m (s.stepping t m) []) :=
  (completes_machineStep (c := .pioBlockEnd t m) (g := id) (ws := []) (ps := s.dev.pios) hclean.1.2 rfl (h.trans
    ((Dev.noWrites _).trans (congrArg (fun d : Dev => { d with writes := d.writes ++ [] }) (Dev.modPio_self id rfl).symm)))).imp
    fun _ ⟨hone, hothers, _, hmems⟩ => ⟨hone, hothers, hmems⟩

include hclean hruns hword hstep

section
variable (hwait : s.dev.pio[m].wait = .none) (hdeaf : ∀ u : Fin 8, s.dev.tmu[u].deaf)
include hwait hdeaf

theorem completes_take {v : W32} {l : List W32} (hop : pf w 12 4 = 4) (htx : s.dev.pio[m].tx = v :: l) :
    Completes (.take t m) s (s.MachineEnds m ((s.stepping t m).takeWord w).done []) :=
  (completes_queueOp (c := .take t m) (f := fun w d => d.pioTake m w) (ps := s.dev.pios) (ps' := s.dev.pios)
    (g := fun x => (x.takeWord w).done) (ws := []) hclean hruns hword hdeaf hstep hwait rfl rfl hop
    ((pioTake_takes (by rwa [tookStep_cell])).trans (Dev.noWrites _))).imp fun _ ⟨hone, hothers, _, hmems⟩ => ⟨hone, hothers, hmems⟩

theorem completes_takeEmpty (hop : pf w 12 4 = 4) (htx : s.dev.pio[m].tx = []) :
    Completes (.take t m) s (s.MachineEnds m ((s.stepping t m).ranOut w) []) :=
  (completes_queueOp (c := .take t m) (f := fun w d => d.pioTake m w) (ps := s.dev.pios) (ps' := s.dev.pios)
    (g := Pio.ranOut w) (ws := []) hclean hruns hword hdeaf hstep hwait rfl rfl hop
    ((pioTake_empty (by rwa [tookStep_cell])).trans (Dev.noWrites _))).imp fun _ ⟨hone, hothers, _, hmems⟩ => ⟨hone, hothers, hmems⟩

theorem completes_give {v : W32} (hop : pf w 12 4 = 5) (hfits : (s.stepping t m).Fits s.env) (hv : (s.stepping t m).given w none = v) :
    Completes (.give t m) s (s.MachineEnds m ((s.stepping t m).gave w v (s.now t)) ((s.stepping t m).pushWrites s.env v)) := by
  subst hv
  exact (completes_queueOp (c := .give t m) (f := fun w d => d.pioGive s.env m w none) (ps := s.dev.pios) (ps' := s.dev.pios)
    (g := Pio.gave w _ (s.now t)) hclean hruns hword hdeaf hstep hwait rfl rfl hop (stepping_fits hclean hfits)).imp
    fun _ ⟨hone, hothers, _, hmems⟩ => ⟨hone, hothers, hmems⟩

theorem completes_giveFull (hop : pf w 12 4 = 5) (hfull : (s.stepping t m).Full) :
    Completes (.give t m) s (s.MachineEnds m ((s.stepping t m).piledUp w none) []) :=
  (completes_queueOp (c := .give t m) (f := fun w d => d.pioGive s.env m w none) (ps := s.dev.pios) (ps' := s.dev.pios)
    (g := Pio.piledUp w none) hclean hruns hword hdeaf hstep hwait rfl rfl hop (stepping_full hfull)).imp
    fun _ ⟨hone, hothers, _, hmems⟩ => ⟨hone, hothers, hmems⟩

theorem completes_stamp {v : W32} (hop : pf w 12 4 = 8) (hfits : (s.stepping t m).Fits s.env)
    (hv : ((s.dev.at t).tookStep m).stampVal w = v) :
    Completes (.stamp t m) s (s.MachineEnds m ((s.stepping t m).gave w v (s.now t)) ((s.stepping t m).pushWrites s.env v)) := by
  subst hv
  exact (completes_queueOp (c := .stamp t m) (f := fun w d => d.pioGive s.env m w (some (d.stampVal w))) (ps := s.dev.pios)
    (ps' := s.dev.pios) (g := Pio.gave w _ (s.now t)) hclean hruns hword hdeaf hstep hwait rfl rfl hop (stepping_fits hclean hfits)).imp
    fun _ ⟨hone, hothers, _, hmems⟩ => ⟨hone, hothers, hmems⟩

theorem completes_stampFull {v : W32} (hop : pf w 12 4 = 8) (hfull : (s.stepping t m).Full)
    (hv : ((s.dev.at t).tookStep m).stampVal w = v) :
    Completes (.stamp t m) s (s.MachineEnds m ((s.stepping t m).piledUp w (some v)) []) := by
  subst hv
  exact (completes_queueOp (c := .stamp t m) (f := fun w d => d.pioGive s.env m w (some (d.stampVal w))) (ps := s.dev.pios)
    (ps' := s.dev.pios) (g := Pio.piledUp w _) hclean hruns hword hdeaf hstep hwait rfl rfl hop (stepping_full hfull)).imp
    fun _ ⟨hone, hothers, _, hmems⟩ => ⟨hone, hothers, hmems⟩

theorem completes_holdLane {levels : BitVec 16} (hop : pf w 12 4 = 0) (hsrc : pf w 9 3 = 0) :
    let b := (s.dev.showing levels).lane m (pf w 0 4)
    Completes (.hold t m levels) s (s.MachineEnds m ((s.stepping t m).held (b == (pf w 8 1 == 1)) b) []) := by
  obtain ⟨extAt, hsee⟩ := see_deaf (d := s.dev.at t) hdeaf levels
  refine (completes_queueOp (c := .hold t m levels) (f := fun w d => d.pioHold m w) (ps := s.dev.pios.seeing levels extAt)
    (ps' := s.dev.pios.seeing levels extAt) (g := Pio.held _ _) (ws := []) hclean hruns hword hdeaf hstep hwait rfl
    (congrArg (Dev.pioExec m 0 fun w d => d.pioHold m w) hsee) hop ?_).imp fun _ ⟨hone, hothers, _, hmems⟩ => ⟨hone, hothers, hmems⟩
  rw [pioHold_lane hsrc, lane_tookStep]
  exact Dev.noWrites _

theorem completes_holdFlag {levels : BitVec 16} (hop : pf w 12 4 = 0) (hsrc : pf w 9 3 = 2) (hi : pf w 0 4 < 8)
    (hset : s.dev.pios.flags.getLsbD (pf w 0 4) = true) : Completes (.hold t m levels) s fun s' =>
      s.MachineEnds m (s.stepping t m).done [] s' ∧ s'.dev.pios.flags.getLsbD (pf w 0 4) = (pf w 7 1 == 0) := by
  obtain ⟨extAt, hsee⟩ := see_deaf (d := s.dev.at t) hdeaf levels
  refine (completes_queueOp (c := .hold t m levels) (f := fun w d => d.pioHold m w) (ps := s.dev.pios.seeing levels extAt)
    (ps' := (s.dev.pios.seeing levels extAt).holdPassed w (s.now t)) (g := Pio.done) (ws := []) hclean hruns hword hdeaf hstep hwait rfl
    (congrArg (Dev.pioExec m 0 fun w d => d.pioHold m w) hsee) hop ((pioHold_flag (d := ((s.dev.at t).seeing levels extAt).tookStep m) hsrc hset).trans (Dev.noWrites _))).imp
    fun _ ⟨hone, hothers, hpios, hmems⟩ => ⟨⟨hone, hothers, hmems⟩, ?_⟩
  rw [hpios]
  exact holdPassed_flag hi hset

end

/-! ### The ends of waits -/

theorem completes_holdEnd {levels : BitVec 16} {last : Bool} (hdeaf : ∀ u : Fin 8, s.dev.tmu[u].deaf) (hwait : s.dev.pio[m].wait = .hold last)
    (hsrc : pf w 9 3 < 2) :
    let b := (s.dev.showing levels).lane m (pf w 0 4)
    Completes (.pioHoldEnd t m levels) s
      (s.MachineEnds m ((s.stepping t m).held (b == (pf w 8 1 == 1) && (pf w 9 3 == 0 || last != (pf w 8 1 == 1))) b) []) := by
  intro b
  obtain ⟨extAt, hsee⟩ := see_deaf (d := s.dev.at t) hdeaf levels
  have hword' : ((s.dev.at t).seeing levels extAt).pioWord m = w := (pioWord_areas (d := s.dev) m rfl rfl).trans hword
  have hend : ((s.dev.at t).see levels).pioHoldEnd m =
      { ((s.dev.at t).tookStep m).modPio m (Pio.held (b == (pf w 8 1 == 1) && (pf w 9 3 == 0 || last != (pf w 8 1 == 1))) b) with
        pios := s.dev.pios.seeing levels extAt, writes := s.dev.writes ++ [] } := by
    rw [hsee, pioHoldEnd_lane (d := (s.dev.at t).seeing levels extAt) hword' hwait hruns hstep hsrc]
    exact Dev.noWrites _
  exact (completes_machineStep (c := .pioHoldEnd t m levels) hclean.1.2 rfl hend).imp
    fun _ ⟨hone, hothers, _, hmems⟩ => ⟨hone, hothers, hmems⟩

section
variable {a : Option W32} (hwait : s.dev.pio[m].wait = .block a)
include hwait

theorem completes_takeEnd {v : W32} {l : List W32} (hop : pf w 12 4 = 4) (htx : s.dev.pio[m].tx = v :: l) :
    Completes (.pioBlockEnd t m) s (s.MachineEnds m ((s.stepping t m).takeWord w).done []) :=
  (completes_machineStep (c := .pioBlockEnd t m) (g := fun x => (x.takeWord w).done) (ws := []) (ps := s.dev.pios) hclean.1.2 rfl
    ((pioBlockEnd_take (d := s.dev.at t) hword hwait hruns hstep hop htx).trans (Dev.noWrites _))).imp
    fun _ ⟨hone, hothers, _, hmems⟩ => ⟨hone, hothers, hmems⟩

theorem completes_pushEnd {v : W32} (hop : pf w 12 4 ≠ 4) (hfits : (s.stepping t m).Fits s.env) (hv : s.dev.pio[m].given w a = v) :
    Completes (.pioBlockEnd t m) s (s.MachineEnds m ((s.stepping t m).gave w v (s.now t)) ((s.stepping t m).pushWrites s.env v)) := by
  subst hv
  exact (completes_machineStep (c := .pioBlockEnd t m) (g := Pio.gave w _ (s.now t)) (ps := s.dev.pios) hclean.1.2 rfl
    (pioBlockEnd_fits (d := s.dev.at t) hword hwait hruns hstep hop hclean.2.2 hfits)).imp
    fun _ ⟨hone, hothers, _, hmems⟩ => ⟨hone, hothers, hmems⟩

end

end

/-- Settles O51: each instruction, and each end of a wait, is one function of the machine taken in a step of its own, with the write
of a word that goes to the receive slot. -/
theorem pioQueuesAndWaits : Obligations.PioQueuesAndWaits := by
  unfold Obligations.PioQueuesAndWaits
  intro s m w t levels hclean hruns hword hdeaf x step others looked next lane taken pushed fits full source time
  let x₁ : Pio := s.stepping t m
  have hpushed {s' : State} {v : W32} (h : s.MachineEnds m (x₁.gave w v (s.now t)) (x₁.pushWrites s.env v) s') : pushed v s' :=
    ⟨⟨h.others, gave_next h.one⟩, pushed_ends (x := x₁) hclean h.one h.mems⟩
  have htaken {s' : State} {v : W32} {l : List W32} (htx : x.tx = v :: l) (h : s.MachineEnds m (x₁.takeWord w).done [] s') :
      taken v l s' := by
    obtain ⟨hpc, hinject⟩ := takeWord_kept w x₁
    obtain ⟨hl, how, hx, hy⟩ := takeWord_takes (w := w) (x := x₁) htx
    refine ⟨⟨h.others, Pio.done_next h.one hpc hinject⟩, h.mems, ?_⟩
    rw [h.one]
    exact ⟨hl, how, hx, hy⟩
  have hsource : x.given w none = source := by
    simp only [Pio.given, source]
    rcases pf w 1 2 with _ | _ | k <;> rfl
  refine ⟨fun hstep => ⟨fun hwait => ⟨fun hop v l htx => ?take, fun hop htx => ?runout, fun hop hf => ?give, fun hop hf => ?pileup,
      fun hop hf => ?stamp, fun hop hf hblocks => ?stampFull, fun hop hsrc => ?hold, fun hop hsrc hi hset => ?flag⟩,
    fun last hwait hsrc => ?holdEnd, fun a v l hwait hop htx => ?takeEnd,
    fun a hwait hop htx => ?takeOn, fun hwait hop hf => ?giveEnd, fun v hwait hop hf => ?stampEnd, fun a hwait hop hf => ?pushOn⟩,
    fun hnone => completes_untouched hclean.1.2 rfl (pioBlockEnd_none hnone), fun n hwait hdue => ?pauseEnd,
    fun n hwait hsoon => completes_untouched hclean.1.2 rfl (pioPauseEnd_soon hwait hsoon)⟩
  case take => exact (completes_take hclean hruns hword hstep hwait hdeaf hop htx).imp fun _ h => htaken htx h
  case runout =>
    refine (completes_takeEmpty hclean hruns hword hstep hwait hdeaf hop htx).imp fun s' h => ?_
    obtain ⟨hflag, hcount, hpass, hblock⟩ := ranOut_ends (x₀ := x) h.one
    exact ⟨h.others, hflag, hcount, fun h₁ => ⟨h.others, hpass h₁⟩, hblock⟩
  case give =>
    refine (completes_give hclean hruns hword hstep hwait hdeaf hop hf hsource).imp fun s' h => ⟨hpushed h, ?_⟩
    rw [h.one]
    exact gave_input (x := x₁) hop
  case pileup =>
    refine (completes_giveFull hclean hruns hword hstep hwait hdeaf hop hf).imp fun s' h => ?_
    obtain ⟨hflag, hrx, hcount, hpass, hblock⟩ := piledUp_ends (x₀ := x) h.one
    exact ⟨h.others, hflag, hrx, hcount, fun h₁ => ⟨h.others, hpass h₁⟩, hblock⟩
  case stamp => exact (completes_stamp hclean hruns hword hstep hwait hdeaf hop hf stamp_time).imp fun _ h => hpushed h
  case stampFull =>
    exact (completes_stampFull hclean hruns hword hstep hwait hdeaf hop hf stamp_time).imp fun s' h => ⟨h.others, h.one.trans (if_pos hblocks)⟩
  case hold =>
    refine (completes_holdLane hclean hruns hword hstep hwait hdeaf hop hsrc).imp fun s' h => ⟨h.others, fun hmet => ?_, fun hunmet => ?_⟩
    · exact ⟨h.others, Pio.done_next (x := x₁) (h.one.trans (if_pos (beq_iff_eq.mpr hmet)))⟩
    · exact h.one.trans (if_neg fun hmet => hunmet (beq_iff_eq.mp hmet))
  case flag =>
    refine (completes_holdFlag hclean hruns hword hstep hwait hdeaf hop hsrc hi hset).imp fun s' hs' => ?_
    obtain ⟨h, hflag⟩ := hs'
    exact ⟨⟨h.others, Pio.done_next h.one⟩, hflag⟩
  case holdEnd =>
    refine (completes_holdEnd hclean hruns hword hstep hdeaf hwait hsrc).imp fun s' h => ⟨h.others, ?_⟩
    intro pol met
    have hmet : met ↔ (lane (pf w 0 4) == pol && (pf w 9 3 == 0 || last != pol)) = true := by
      obtain hzero | hone : pf w 9 3 = 0 ∨ pf w 9 3 = 1 := by omega
      · simp [met, hzero]
      · simp [met, hone]
    exact ⟨fun h₁ => ⟨h.others, Pio.done_next (x := x₁) (h.one.trans (if_pos (hmet.mp h₁)))⟩,
      fun h₁ => h.one.trans (if_neg fun h₂ => h₁ (hmet.mpr h₂))⟩
  case takeEnd => exact (completes_takeEnd hclean hruns hword hstep hwait hop htx).imp fun _ h => htaken htx h
  case takeOn =>
    exact (completes_waitOn hclean (pioBlockEnd_empty (d := s.dev.at t) hword hwait hruns hstep hop htx)).imp
      fun s' h => ⟨h.one, h.others⟩
  case giveEnd => exact (completes_pushEnd hclean hruns hword hstep hwait (by omega) hf hsource).imp fun _ h => hpushed h
  case stampEnd => exact (completes_pushEnd hclean hruns hword hstep hwait (by omega) hf rfl).imp fun _ h => hpushed h
  case pushOn =>
    have hop' : pf w 12 4 ≠ 4 := by
      intro h
      simp [h] at hop
    exact (completes_waitOn hclean (pioBlockEnd_full (d := s.dev.at t) hword hwait hruns hstep hop' hf)).imp
      fun s' h => ⟨h.one, h.others⟩
  case pauseEnd =>
    refine (completes_machine (c := .pioPauseEnd t m) (ps := s.dev.pios) (ws := []) hclean.1.2 rfl
      ((pioPauseEnd_due (d := s.dev.at t) hwait hruns hdue).trans (Dev.noWrites _)) (upd_same ..) fun j hj => upd_other _ _ _ _ hj).imp
      fun s' hs' => ?_
    obtain ⟨hone, hothers, _⟩ := hs'
    exact ⟨hothers, Pio.done_next hone⟩

end Sys2Proof.Machine
end

section
/-! The end of every event (R61, R148): outputs and boxes alone are changed, and no event is left waiting. -/

namespace Sys2Proof.Machine

open Sys2Proof

/-! ### Outputs -/

/-- What an end of events decides of a box: its state, its ending, and the event that it holds. -/
def Box.fate (x : Box) : BoxState × Option Ending × Event := (x.state, x.ending, x.ev)

/-- The descriptors stay, and the boxes but for what their outputs note in them. -/
structure Loft.SameFates (l l' : Loft) : Prop where
  descrs : l'.descrs = l.descrs
  boxes : ∀ b : Fin 128, l'.boxes[b].fate = l.boxes[b].fate

/-- Nothing but outputs, the loft and the basecamp templates are changed. -/
structure Dev.EndsOnly (d d' : Dev) : Prop where
  only : ∃ templates loft banks pfi ign gate, d' =
    { d with sup := { d.sup with templates := templates }, loft := loft, banks := banks, pfi := pfi, ign := ign, gate := gate }

/-- An output has ended: the loft keeps its events. -/
structure Dev.OutputsEnd (d d' : Dev) : Prop extends d.EndsOnly d' where
  fates : d.loft.SameFates d'.loft

section
variable {a b d : Dev}

theorem Dev.EndsOnly.refl (d : Dev) : d.EndsOnly d := ⟨d.sup.templates, d.loft, d.banks, d.pfi, d.ign, d.gate, rfl⟩

theorem Dev.EndsOnly.trans (h : d.EndsOnly a) (h' : a.EndsOnly b) : d.EndsOnly b := by
  obtain ⟨_, _, _, _, _, _, rfl⟩ := h.only
  obtain ⟨templates, loft, banks, pfi, ign, gate, rfl⟩ := h'.only
  exact ⟨templates, loft, banks, pfi, ign, gate, rfl⟩

theorem Dev.EndsOnly.memu (h : d.EndsOnly a) : a.memu = d.memu := by
  obtain ⟨_, _, _, _, _, _, rfl⟩ := h.only
  rfl

theorem Dev.EndsOnly.dtime (h : d.EndsOnly a) : a.dtime = d.dtime := by
  obtain ⟨_, _, _, _, _, _, rfl⟩ := h.only
  rfl

theorem Loft.SameFates.refl (l : Loft) : l.SameFates l := ⟨rfl, fun _ => rfl⟩

theorem Dev.OutputsEnd.refl (d : Dev) : d.OutputsEnd d := ⟨.refl d, .refl d.loft⟩

theorem Dev.OutputsEnd.trans (h : d.OutputsEnd a) (h' : a.OutputsEnd b) : d.OutputsEnd b :=
  ⟨h.toEndsOnly.trans h'.toEndsOnly, h'.fates.descrs.trans h.fates.descrs,
    fun i => (h'.fates.boxes i).trans (h.fates.boxes i)⟩

theorem modBox_fates (b : Fin 128) (f : Box → Box) (hf : ∀ x, (f x).fate = x.fate) (d : Dev) : d.loft.SameFates (d.modBox b f).loft := by
  refine ⟨rfl, fun i => ?_⟩
  by_cases hi : i = b
  · subst hi
    exact (congrArg Box.fate (upd_same ..)).trans (hf _)
  · exact congrArg Box.fate (upd_other _ _ _ _ hi)

theorem modPart_ends (o : Owner) (f : Part → Part) (d : Dev) : d.OutputsEnd (d.modPart o f) := by
  cases o with
  | box b => exact ⟨⟨d.sup.templates, _, d.banks, d.pfi, d.ign, d.gate, rfl⟩, modBox_fates b (fun x => { x with part := f x.part }) (fun _ => rfl) d⟩
  | none | template | ended => exact .refl d

/-- An output changed, its owner's event aside. -/
theorem Dev.OutputsEnd.of (banks : Vector Bank 4) (pfi : Vector Pfi 16) (ign : Vector Ign 16) (gate : Vector Gate 8) :
    d.OutputsEnd { d with banks := banks, pfi := pfi, ign := ign, gate := gate } :=
  ⟨⟨d.sup.templates, d.loft, banks, pfi, ign, gate, rfl⟩, .refl d.loft⟩

variable (e : Env)

theorem softShutdown_ends (n : Fin 16) : d.OutputsEnd (d.softShutdown n) := (modPart_ends _ _ d).trans (.of ..)

variable (herrs : d.memu.errs = [])
include herrs

theorem bankSafeEnd_ends (k : Fin 4) : d.OutputsEnd (d.bankSafeEnd e k).2 := by
  have hbegin (f : Psq → Psq) := beginEnd_eq (e := e) (d := (d.countSafeEnd k).modPsq k f) herrs
  unfold Dev.bankSafeEnd
  simp only [hbegin]
  repeat' split
  all_goals exact .of ..

theorem endOutput_ends (o : Owner) (ev : Event) : d.OutputsEnd (d.endOutput e o ev).2 := by
  unfold Dev.endOutput
  simp only
  split
  case h_1 => exact bankSafeEnd_ends e herrs _
  case h_2 =>
    split
    · exact (modPart_ends ..).trans (.of ..)
    · dsimp only
      refine Dev.OutputsEnd.trans ?_ (modPart_ends _ _ _)
      exact .of ..
  case h_3 =>
    split
    · exact .of ..
    · split
      · exact .refl d
      · exact (softShutdown_ends _).trans (.of ..)
  case h_4 =>
    split
    · exact .of ..
    · exact (modPart_ends ..).trans (.of ..)
  case h_5 => exact .refl d

/-! ### Boxes -/

/-- A box ends: no other box is decided. -/
theorem endBox_other {b i : Fin 128} (hi : i ≠ b) (res : EvResult) (reason : Nat) : d.EndsOnly (d.endBox e b res reason) ∧
    (d.endBox e b res reason).loft.descrs = d.loft.descrs ∧
    ((d.endBox e b res reason).loft.boxes[i]).fate = (d.loft.boxes[i]).fate := by
  have hmod (d : Dev) (f : Box → Box) : d.EndsOnly (d.modBox b f) ∧ (d.modBox b f).loft.descrs = d.loft.descrs ∧
      ((d.modBox b f).loft.boxes[i]).fate = (d.loft.boxes[i]).fate :=
    ⟨⟨_, _, _, _, _, _, rfl⟩, rfl, congrArg Box.fate (upd_other _ _ _ _ hi)⟩
  have hstay : d.EndsOnly d ∧ d.loft.descrs = d.loft.descrs ∧ (d.loft.boxes[i]).fate = (d.loft.boxes[i]).fate := ⟨.refl d, rfl, rfl⟩
  have hout := endOutput_ends e herrs (.box b) (d.box b).ev
  unfold Dev.endBox
  extract_lets x boxCtrl
  cases x.state with
  | free => exact hstay
  | armed | committed | closing => exact hmod ..
  | active =>
    simp only
    split
    · exact hstay
    · generalize d.endOutput e (.box b) x.ev = answer at hout
      obtain ⟨_ | unstarted, d'⟩ := answer
      · exact ⟨hout.toEndsOnly, hout.fates.descrs, hout.fates.boxes i⟩
      · obtain ⟨honly, hdescrs, hfate⟩ := hmod d' fun y => { y with state := .closing, ending := some _, resid := some (y.resid.getD none) }
        exact ⟨hout.toEndsOnly.trans honly, hdescrs.trans hout.fates.descrs, hfate.trans (hout.fates.boxes i)⟩

end

/-- A box whose event has not begun to execute ends unstarted (R148). -/
theorem endBox_waiting {e : Env} {d : Dev} {b : Fin 128} (h : (d.box b).state = .armed ∨ (d.box b).state = .committed) (res : EvResult)
    (reason : Nat) : d.endBox e b res reason =
      d.closeBox b { result := res, reason := reason, unstarted := true, time := d.dtime, ctrl := ctrl 2 3 b.val } := by
  unfold Dev.endBox
  extract_lets x boxCtrl
  obtain hx | hx : x.state = .armed ∨ x.state = .committed := h <;> rw [hx]

/-- A state that is another one is none of those in which an event waits to execute. -/
theorem BoxState.ne_waits {x y : BoxState} (h : x = y) (hy : y ≠ .armed ∧ y ≠ .committed := by decide) : x ≠ .armed ∧ x ≠ .committed :=
  h ▸ hy

/-- No box is left with an event that has not begun to execute. -/
theorem endBox_decided {e : Env} {d : Dev} (herrs : d.memu.errs = []) (b : Fin 128) (res : EvResult) (reason : Nat) :
    ((d.endBox e b res reason).loft.boxes[b]).fate.1 ≠ .armed ∧ ((d.endBox e b res reason).loft.boxes[b]).fate.1 ≠ .committed := by
  have hclosed (d : Dev) (y : Ending) : ((d.closeBox b y).loft.boxes[b]).fate.1 = .closing := by
    rw [show (d.closeBox b y).loft.boxes[b] = _ from closeBox_box b y d]
    rfl
  have hclosing (d : Dev) (y : Ending) : ((d.closeBox b y).loft.boxes[b]).fate.1 ≠ .armed ∧
      ((d.closeBox b y).loft.boxes[b]).fate.1 ≠ .committed := BoxState.ne_waits (hclosed d y)
  have hout := endOutput_ends e herrs (.box b) (d.box b).ev
  unfold Dev.endBox
  extract_lets x boxCtrl
  have hstate : (d.loft.boxes[b]).fate.1 = x.state := rfl
  cases hx : x.state with
  | free =>
    rw [hx] at hstate
    exact BoxState.ne_waits hstate
  | armed | committed => exact hclosing ..
  | closing =>
    rw [hx] at hstate
    have hkept : ((d.modBox b fun y => { y with ending := y.ending.map (·.outrank res reason d.dtime) }).loft.boxes[b]).fate.1 = .closing :=
      (congrArg (fun y : Box => y.fate.1) (upd_same ..)).trans hstate
    exact BoxState.ne_waits hkept
  | active =>
    rw [hx] at hstate
    simp only
    split
    · exact BoxState.ne_waits hstate
    · generalize d.endOutput e (.box b) x.ev = answer at hout
      obtain ⟨_ | unstarted, d'⟩ := answer
      · exact BoxState.ne_waits ((congrArg Prod.fst (hout.fates.boxes b)).trans hstate)
      · exact hclosing ..

/-! ### Every box in turn -/

section
variable {e : Env}

/-- Boxes that end in turn: each is decided by its own end alone. -/
theorem endBoxes_each (res : EvResult) (reason : Nat) : ∀ (l : List (Fin 128)), l.Nodup → ∀ d : Dev, d.memu.errs = [] →
    d.EndsOnly (l.foldl (fun d b => d.endBox e b res reason) d) ∧
    (l.foldl (fun d b => d.endBox e b res reason) d).loft.descrs = d.loft.descrs ∧
    (∀ i, i ∉ l → ((l.foldl (fun d b => d.endBox e b res reason) d).loft.boxes[i]).fate = (d.loft.boxes[i]).fate) ∧
    (∀ i, i ∈ l → ∃ d₁ : Dev, d₁.dtime = d.dtime ∧ d₁.memu.errs = [] ∧ (d₁.loft.boxes[i]).fate = (d.loft.boxes[i]).fate ∧
      ((l.foldl (fun d b => d.endBox e b res reason) d).loft.boxes[i]).fate = ((d₁.endBox e i res reason).loft.boxes[i]).fate)
  | [], _, d, _ => ⟨.refl d, rfl, fun _ _ => rfl, nofun⟩
  | b :: l, hnodup, d, herrs => by
    obtain ⟨haway, hnodup⟩ := List.nodup_cons.mp hnodup
    have hfirst {i : Fin 128} (hi : i ≠ b) := endBox_other e herrs hi res reason
    obtain ⟨j, hj⟩ : ∃ j : Fin 128, j ≠ b := ⟨b + 1, by omega⟩
    obtain ⟨honly, hdescrs, -⟩ := hfirst hj
    obtain ⟨honly', hdescrs', hout, hin⟩ := endBoxes_each res reason l hnodup (d.endBox e b res reason) (honly.memu ▸ herrs)
    refine ⟨honly.trans honly', hdescrs'.trans hdescrs, fun i hi => ?_, fun i hi => ?_⟩
    · obtain ⟨hib, hil⟩ := not_or.mp (mt List.mem_cons.mpr hi)
      exact (hout i hil).trans (hfirst hib).2.2
    · by_cases hib : i = b
      · subst hib
        exact ⟨d, rfl, herrs, rfl, hout i haway⟩
      · obtain ⟨d₁, hdtime, herrs₁, hbefore, hafter⟩ := hin i ((List.mem_cons.mp hi).resolve_left hib)
        exact ⟨d₁, hdtime.trans honly.dtime, herrs₁, hbefore.trans (hfirst hib).2.2, hafter⟩

/-- Every basecamp template ends (R61, R371). -/
theorem endTemplates_ends {d : Dev} (herrs : d.memu.errs = []) : d.OutputsEnd (d.endTemplates e) := by
  unfold Dev.endTemplates
  refine List.foldlRecOn (motive := fun d' => d.OutputsEnd d') _ _ (.refl d) fun d' hd' i _ => hd'.trans ?_
  have herrs' : d'.memu.errs = [] := hd'.memu ▸ herrs
  have hmod (d : Dev) (f : List Template → List Template) : d.OutputsEnd (d.modSup fun s => { s with templates := f s.templates }) :=
    ⟨⟨_, d.loft, d.banks, d.pfi, d.ign, d.gate, rfl⟩, .refl d.loft⟩
  split
  · next x _ =>
    split
    · exact .refl d'
    · refine Dev.OutputsEnd.trans ?_ (hmod _ fun l => updL l i _)
      split
      · exact endOutput_ends e herrs' ..
      · exact .refl d'
  · exact .refl d'

/-- The loft after a flush of every event that ends with `x`. -/
def Loft.flushed (x : Ending) (l : Loft) : Loft :=
  { l with flushes := l.flushes + 1, descrs := l.descrs.map fun y => (y.1, y.2.endWith x) }

theorem flush_all (res : EvResult) (reason : Nat) (d : Dev) : d.flush e (fun _ => true) res reason =
    let d' := allBoxes.foldl (fun d b => d.endBox e b res reason) d
    d'.modLoft (Loft.flushed { result := res, reason := reason, unstarted := true, time := d'.dtime, ctrl := ctrl 2 2 0xFF }) := by
  simp only [Dev.flush, if_true]
  rfl

/-- Every event ends (R61): a box whose event has not begun to execute closes with the ending, and a descriptor that waits goes to
ENDING with it. -/
theorem endAllEvents_ends {d : Dev} (herrs : d.memu.errs = []) (res : EvResult) (reason : Nat) :
    d.EndsOnly (d.endAllEvents e res reason) ∧
    (d.endAllEvents e res reason).loft.descrs = d.loft.descrs.map (fun y => (y.1, y.2.endWith
      { result := res, reason := reason, unstarted := true, time := d.dtime, ctrl := ctrl 2 2 0xFF })) ∧
    ∀ b : Fin 128, ((d.endAllEvents e res reason).loft.boxes[b]).state ≠ .armed ∧
      ((d.endAllEvents e res reason).loft.boxes[b]).state ≠ .committed ∧
      ((d.loft.boxes[b]).state = .armed ∨ (d.loft.boxes[b]).state = .committed →
        ((d.endAllEvents e res reason).loft.boxes[b]).state = .closing ∧ ((d.endAllEvents e res reason).loft.boxes[b]).ending =
          some { result := res, reason := reason, unstarted := true, time := d.dtime, ctrl := ctrl 2 3 b.val }) := by
  have htemplates := endTemplates_ends (e := e) herrs
  have herrs' : (d.endTemplates e).memu.errs = [] := htemplates.memu ▸ herrs
  obtain ⟨honly, hdescrs, -, hboxes⟩ := endBoxes_each (e := e) res reason allBoxes (List.nodup_finRange 128) _ herrs'
  rw [Dev.endAllEvents, flush_all]
  generalize allBoxes.foldl (fun d b => d.endBox e b res reason) (d.endTemplates e) = d' at honly hdescrs hboxes ⊢
  have hdtime : d'.dtime = d.dtime := honly.dtime.trans htemplates.dtime
  have hflushed (f : Loft → Loft) : d'.EndsOnly (d'.modLoft f) := ⟨_, _, _, _, _, _, rfl⟩
  refine ⟨(htemplates.toEndsOnly.trans honly).trans (hflushed _), ?_, fun b => ?_⟩
  · rw [← hdtime, ← htemplates.fates.descrs, ← hdescrs]
    rfl
  · obtain ⟨d₁, hdtime₁, herrs₁, hbefore, hafter⟩ := hboxes b (List.mem_finRange b)
    obtain ⟨harmed, hcommitted⟩ := endBox_decided (e := e) herrs₁ b res reason
    rw [← hafter] at harmed hcommitted
    refine ⟨harmed, hcommitted, fun hwaits => ?_⟩
    have hstate : (d₁.box b).state = (d.loft.boxes[b]).state :=
      congrArg Prod.fst (hbefore.trans (htemplates.fates.boxes b))
    rw [endBox_waiting (hstate ▸ hwaits)] at hafter
    have hfate := hafter.trans (congrArg Box.fate (closeBox_box b _ d₁))
    refine ⟨congrArg Prod.fst hfate, (congrArg (fun x => x.2.1) hfate).trans ?_⟩
    rw [hdtime₁, htemplates.dtime]
    rfl

end

end Sys2Proof.Machine
end

section
/-! Changes of mode (R245, R303, R368): what a new mode stops, and what it leaves. -/

namespace Sys2Proof.Machine

open Sys2Proof

/-! ### Triggers of the new mode (R242, R244) -/

/-- Where the engines do not run no trigger is queued (R245). -/
theorem fire_stopped {d : Dev} (h : d.sup.mode.engines = false) (kind : Nat) (src : Nat → Bool) : d.fire kind src = d := by
  have htrigger (k : Fin 8) (list entry us : Nat) (t : Ns) : d.trigger k list entry us t = d := by simp [Dev.trigger, h]
  unfold Dev.fire
  refine foldl_still _ fun k _ => foldl_still _ fun i _ => ?_
  simp only [htrigger, ite_self]

/-- Triggers that find room change the queues alone. -/
theorem fire_fits {s : State} {d : Dev} {kind : Nat} (hroom : s.room [kind])
    (hce : ∀ k : Fin 8, d.ce[k].queue.length ≤ s.dev.ce[k].queue.length) (hces : d.ces = s.dev.ces) (src : Nat → Bool) :
    ∃ ce : Vector Ce 8, d.fire kind src = { d with ce := ce } := by
  have hword (k : Fin 8) (i : Nat) : d.trigWord k i = s.dev.trigWord k i := by simp only [Dev.trigWord, hces]
  obtain ⟨ce, hfire, -⟩ := fireEngines_queued (kind := kind) (src := src) (List.finRange 8) (List.nodup_finRange 8) (d := d) fun k _ => by
    have hfew : (List.range 32).countP (fun i => d.fires kind src k i) ≤ s.dev.entriesOf k [kind] := by
      rw [Dev.entriesOf, ← List.countP_eq_length_filter]
      refine List.countP_mono_left fun i _ h => ?_
      have hkind := (of_decide_eq_true h).1
      rw [hword] at hkind
      simpa using hkind
    exact (Nat.add_le_add (hce k) hfew).trans (hroom k)
  exact ⟨ce, fire_eq.trans hfire⟩

/-! ### Engines (R245) -/

theorem stopEngine_only (k : Fin 8) (d : Dev) : ∃ adm ce, d.stopEngine k = { d with adm := adm, ce := ce } ∧ ce[k].state = .idle ∧
    ∀ j, j ≠ k → ce[j] = d.ce[j] := by
  have hdrop : ∃ adm, d.dropRequest k = { d with adm := adm } := by
    unfold Dev.dropRequest
    extract_lets c
    split
    · exact ⟨_, rfl⟩
    · exact ⟨d.adm, rfl⟩
  obtain ⟨adm, hdrop⟩ := hdrop
  unfold Dev.stopEngine
  rw [hdrop]
  exact ⟨adm, _, rfl, congrArg Ce.state (upd_same ..), fun j hj => upd_other _ _ _ _ hj⟩

/-- Every engine stops. -/
theorem stopEngines_only : ∀ (l : List (Fin 8)) (d : Dev), ∃ adm ce, l.foldl (fun d k => d.stopEngine k) d = { d with adm := adm, ce := ce } ∧
    (∀ k : Fin 8, k ∈ l → ce[k].state = .idle) ∧ ∀ k : Fin 8, d.ce[k].state = .idle → ce[k].state = .idle
  | [], d => ⟨d.adm, d.ce, rfl, nofun, fun _ h => h⟩
  | k :: l, d => by
    obtain ⟨adm, ce, hfirst, hone, hothers⟩ := stopEngine_only k d
    obtain ⟨adm', ce', hrest, hidle, hkept⟩ := stopEngines_only l (d.stopEngine k)
    rw [hfirst] at hrest hkept
    refine ⟨adm', ce', by rw [List.foldl_cons, hfirst, hrest], fun j hj => ?_, fun j hj => hkept j ?_⟩
    · by_cases hjk : j = k
      · exact hkept j (hjk ▸ hone)
      · exact hidle j ((List.mem_cons.mp hj).resolve_left hjk)
    · by_cases hjk : j = k
      · exact hjk ▸ hone
      · exact (congrArg Ce.state (hothers j hjk)).trans hj

/-! ### The mode itself (R368) -/

/-- The parts that a mode other than LOCKED and BIVOUAC may change, and its own registers. -/
structure Dev.ModeSet (m : Mode) (d d' : Dev) : Prop where
  only : ∃ prev tChange aliveRun alive adm bst ce cnv can, d' =
    { d with sup := { d.sup with mode := m, prev := prev, tChange := tChange, aliveRun := aliveRun, alive := alive }
             adm := adm, bst := bst, ce := ce, cnv := cnv, can := can }
  prev : d.sup.mode ≠ m → d'.sup.prev = d.sup.mode
  adm : m.engines = true → d'.adm = d.adm

theorem setMode_set {s : State} {d : Dev} {m : Mode} (hruns : m.engines = true → s.room [5] ∧
    (∀ k : Fin 8, d.ce[k].queue.length ≤ s.dev.ce[k].queue.length) ∧ d.ces = s.dev.ces) (hm : ¬(m = .locked ∨ m = .bivouac)) :
    d.ModeSet m (d.setMode m) := by
  unfold Dev.setMode
  split
  · next hsame =>
    subst hsame
    exact ⟨⟨_, _, _, _, _, _, _, _, _, rfl⟩, fun h => absurd rfl h, fun _ => rfl⟩
  · extract_lets old d1 d2 d3 d4 cnvs d5 d6 d7 d8
    have h2 : ∃ adm ce, d2 = { d1 with adm := adm, ce := ce } ∧ (m.engines = true → adm = d.adm ∧ ce = d.ce) := by
      cases hengines : m.engines with
      | true => exact ⟨d.adm, d.ce, if_neg (by simp [hengines]), fun _ => ⟨rfl, rfl⟩⟩
      | false =>
        obtain ⟨adm, ce, hstop, -⟩ := stopEngines_only (List.finRange 8) d1
        exact ⟨adm, ce, (if_pos (by simp [hengines])).trans hstop, nofun⟩
    obtain ⟨adm, ce, h2, hengines⟩ := h2
    have h3 : ∃ bst, d3 = { d2 with bst := bst } := by
      by_cases hboost : (!m.boost) = true
      · exact ⟨_, if_pos hboost⟩
      · exact ⟨d2.bst, if_neg hboost⟩
    obtain ⟨bst, h3⟩ := h3
    have h4 : d4 = d3 := rfl
    have h5 : d5 = d4 := if_neg fun h => hm (.inr h)
    have h6 : ∃ cnv, d6 = { d5 with cnv := cnv } := by
      by_cases hstart : (m.converters && !old.converters && !d5.sup.warn) = true
      · exact ⟨_, if_pos hstart⟩
      · exact ⟨d5.cnv, if_neg hstart⟩
    obtain ⟨cnv, h6⟩ := h6
    have h7 : ∃ can, d7 = { d6 with can := can } := by
      by_cases hmessages : (m.messages && !old.messages) = true
      · exact ⟨_, if_pos hmessages⟩
      · exact ⟨d6.can, if_neg hmessages⟩
    obtain ⟨can, h7⟩ := h7
    have h8 : ∃ aliveRun alive, d8 = { d with
        sup := { d.sup with mode := m, prev := old, tChange := d.now32, aliveRun := aliveRun, alive := alive }
        adm := adm, bst := bst, ce := ce, cnv := cnv, can := can } := by
      rw [h5, h4, h3, h2] at h6
      rw [h6] at h7
      refine ⟨_, _, congrArg (Dev.modSup _) h7⟩
    obtain ⟨aliveRun, alive, h8⟩ := h8
    have hfire : ∃ ce', d8.fire 5 (fun s => s % 2 ^ (m.code + 1) / 2 ^ m.code = 1) = { d8 with ce := ce' } := by
      cases hrun : m.engines with
      | true =>
        obtain ⟨hroom, hce, hces⟩ := hruns hrun
        refine fire_fits (s := s) hroom ?_ ?_ _
        · rw [h8]
          exact fun k => (hengines hrun).2 ▸ hce k
        · rw [h8]
          exact hces
      | false => exact ⟨d8.ce, fire_stopped (by rw [h8]; exact hrun) ..⟩
    obtain ⟨ce', hfire⟩ := hfire
    rw [hfire, h8]
    exact ⟨⟨_, _, _, _, _, _, _, _, _, rfl⟩, fun _ => rfl, fun hrun => (hengines hrun).1⟩

/-- A mode in which no engine runs needs no room in the queues. -/
theorem setMode_stopped {d : Dev} {m : Mode} (h : m.engines = false) (hm : ¬(m = .locked ∨ m = .bivouac)) : d.ModeSet m (d.setMode m) :=
  setMode_set (s := State.reset) (fun hrun => absurd (h.symm.trans hrun) Bool.false_ne_true) hm

end Sys2Proof.Machine
end

section
/-! The obligations on the key, and on wake sources and timers of the supervisor (R308, R368, R378, R380 to R382, R399, R401). -/

namespace Sys2Proof.Machine

open Sys2Proof

section
variable {s : State} {d a : Dev} {m : Mode}

/-- The engines as a command finds them. -/
structure State.EnginesOf (s : State) (d : Dev) : Prop where
  ce : d.ce = s.dev.ce
  ces : d.ces = s.dev.ces

theorem setMode_engines (hroom : s.room [5]) (h : s.EnginesOf d) (hm : ¬(m = .locked ∨ m = .bivouac)) : d.ModeSet m (d.setMode m) :=
  setMode_set (fun _ => ⟨hroom, fun k => by rw [h.ce], h.ces⟩) hm

theorem Dev.ModeSet.mode (h : d.ModeSet m a) : a.sup.mode = m := by
  obtain ⟨_, _, _, _, _, _, _, _, _, rfl⟩ := h.only
  rfl

/-- A command that ends in another mode raises no fault and writes no memory by it. -/
theorem Dev.ModeSet.quiet (h : d.ModeSet m a) : a.flt = d.flt ∧ a.writes = d.writes ∧ a.pos = d.pos ∧ a.loft = d.loft ∧ a.tmu = d.tmu := by
  obtain ⟨_, _, _, _, _, _, _, _, _, rfl⟩ := h.only
  exact ⟨rfl, rfl, rfl, rfl, rfl⟩

/-! ### KEY_IN goes off (R368, R378) -/

/-- Modes that run an engine, or wait for one. -/
def Mode.running (m : Mode) : Prop := m ∈ [Mode.basecamp, .waitSync, .crank, .run, .limp]

theorem keyOff_stands {e : Env} (hkey : d.sup.key = true) (hreset : d.sup.mode ≠ .reset) (h : ¬d.sup.mode.running) :
    d.keyOff e = d.modSup fun s => { s with key := false } := by
  unfold Dev.keyOff
  rw [if_neg (by simp [hkey, hreset])]
  extract_lets d₁ d₂ d₃
  rw [show d₁.sup.mode = d.sup.mode from rfl]
  cases hmode : d.sup.mode with
  | basecamp | waitSync | crank | run | limp => exact absurd (by simp [Mode.running, hmode]) h
  | _ => rfl

/-- The device once every event has ended and afterrun is set up. -/
def Dev.keyedOff (e : Env) (d : Dev) : Dev :=
  (((d.modSup fun s => { s with key := false }).endAllEvents e .endedMode 7).modSup fun s =>
    { s with afterrunAt := d.dtime, afterrunEnded := false, handover := none })

theorem keyOff_ends {e : Env} (herrs : d.memu.errs = []) (hkey : d.sup.key = true) (h : d.sup.mode.running) :
    d.keyOff e = (d.keyedOff e).setMode .afterrun := by
  have hreset : d.sup.mode ≠ .reset := by
    intro hmode
    simp [Mode.running, hmode] at h
  have hends : ((d.modSup fun s => { s with key := false }).endAllEvents e .endedMode 7).dtime = d.dtime :=
    (endAllEvents_ends (d := d.modSup fun s => { s with key := false }) herrs ..).1.dtime
  have hat := congrArg (fun t => (((d.modSup fun s => { s with key := false }).endAllEvents e .endedMode 7).modSup fun s =>
    { s with afterrunAt := t, afterrunEnded := false, handover := none }).setMode .afterrun) hends
  unfold Dev.keyOff
  rw [if_neg (by simp [hkey, hreset])]
  extract_lets d₁ d₂ d₃
  rw [show d₁.sup.mode = d.sup.mode from rfl]
  simp only [Mode.running, List.mem_cons, List.not_mem_nil, or_false] at h
  obtain h | h | h | h | h := h <;> rw [h] <;> exact hat

end

/-- A descriptor that waits goes to ENDING with what ends it. -/
theorem endWith_waiting {x : Ending} {y : Descr} (h : y.state = .waiting) : (y.endWith x).ev = y.ev ∧ (y.endWith x).state = .ending ∧
    (y.endWith x).ending = x := by
  simp [Descr.endWith, h]

theorem endWith_decided (x : Ending) (y : Descr) : (y.endWith x).state ≠ .waiting := by
  unfold Descr.endWith
  cases hy : y.state with
  | waiting | ending => nofun
  | inBox => simp [hy]

/-! ### KEY_IN goes on (R366, R380) -/

section
variable {d : Dev}

/-- Awake, the device only notes a wake source of the clock of its last wake (R381). -/
theorem wakeUp_awake (e : Env) {src : BitVec 4} (h : d.sup.mode ≠ .bivouac) : ∃ wakeSrc,
    d.wakeUp e src = d.modSup (fun s => { s with wakeReq := 0, wakeSrc := wakeSrc }) ∧
    (d.sup.wokeAt ≠ some d.dtime → wakeSrc = d.sup.wakeSrc) := by
  unfold Dev.wakeUp
  simp only
  split
  · exact ⟨d.sup.wakeSrc, rfl, fun _ => rfl⟩
  · split
    · next hmode => exact absurd hmode h
    · split
      · next hwoke => exact ⟨_, rfl, fun hne => absurd hwoke hne⟩
      · exact ⟨d.sup.wakeSrc, rfl, fun _ => rfl⟩

theorem keyOn_stands (hkey : d.sup.key = false) (hreset : d.sup.mode ≠ .reset) (h : d.sup.mode ≠ .afterrun) :
    d.keyOn = d.modSup fun s => { s with key := true } := by
  unfold Dev.keyOn
  rw [if_neg (by simp [hkey, hreset])]
  exact if_pos h

/-- The mode before full service is ready: templates of basecamp wait for their next cycle (R371). -/
def Dev.keyedOn (d : Dev) : Dev :=
  d.modSup fun s => { s with key := true, afterrunEnded := false, templates := s.templates.map fun x =>
    { x with running := false, due := none, ev := { x.ev with cycle := d.pos.cycle + 1 } } }

theorem keyOn_basecamp (hkey : d.sup.key = false) (hmode : d.sup.mode = .afterrun) (hready : d.sup.ready = false) :
    d.keyOn = d.keyedOn.setMode .basecamp := by
  unfold Dev.keyOn
  rw [if_neg (by simp [hkey, hmode])]
  refine (if_neg (not_not.mpr hmode)).trans ((if_neg (Bool.eq_false_iff.mp hready)).trans ?_)
  exact congrArg (Dev.setMode .basecamp) rfl

/-- What the handover applies, where no register record is held (R353, R359). -/
theorem applyHeld_none (h : d.nvi.held = []) : ∃ wheel corr staged switched,
    d.applyHeld = { d with pos := { d.pos with wheel := wheel, corr := corr, staged := staged }, adm := switched, nvi := { d.nvi with held := [] } } := by
  unfold Dev.applyHeld
  extract_lets d1 d2 held d3
  have h1 : ∃ wheel corr staged, d1 = { d with pos := { d.pos with wheel := wheel, corr := corr, staged := staged } } := by
    simp only [d1]
    split
    · exact ⟨_, _, _, rfl⟩
    · exact ⟨d.pos.wheel, d.pos.corr, d.pos.staged, rfl⟩
  obtain ⟨wheel, corr, staged, h1⟩ := h1
  have h2 : ∃ adm, d2 = { d1 with adm := adm } := by
    simp only [d2]
    split
    · exact ⟨_, rfl⟩
    · exact ⟨d1.adm, rfl⟩
  obtain ⟨adm, h2⟩ := h2
  rw [h1] at h2
  have hheld : held = [] := (congrArg (fun d : Dev => d.nvi.held) h2).trans h
  rw [hheld]
  exact ⟨wheel, corr, staged, adm, congrArg (fun d : Dev => { d with nvi := { d.nvi with held := [] } }) h2⟩

/-- The mode of R366 is none of those that stop the timers. -/
theorem syncMode_runs (d : Dev) : ¬(d.syncMode = .locked ∨ d.syncMode = .bivouac) ∧ d.syncMode ≠ .bivouac := by
  unfold Dev.syncMode
  split
  · split
    · decide
    · split <;> decide
  all_goals decide

end

theorem oweStanding_only (old new : Mode) (all_ : Bool) (d : Dev) : ∃ adm, d.oweStanding old new all_ = { d with adm := adm } := by
  unfold Dev.oweStanding
  split
  · exact ⟨d.adm, rfl⟩
  · exact ⟨_, rfl⟩

/-- A mode entered with the standing events that it allows. -/
theorem Dev.ModeSet.owes {d a : Dev} {m : Mode} (h : d.ModeSet m a) (old new : Mode) (all_ : Bool) :
    ∃ prev tChange aliveRun alive adm bst ce cnv can, a.oweStanding old new all_ =
      { d with sup := { d.sup with mode := m, prev := prev, tChange := tChange, aliveRun := aliveRun, alive := alive }
               adm := adm, bst := bst, ce := ce, cnv := cnv, can := can } := by
  obtain ⟨prev, tChange, aliveRun, alive, _, bst, ce, cnv, can, rfl⟩ := h.only
  obtain ⟨adm, howe⟩ := oweStanding_only old new all_ _
  exact ⟨prev, tChange, aliveRun, alive, adm, bst, ce, cnv, can, howe⟩

/-- Full service takes over from afterrun (R366, R368, R380). -/
theorem keyOn_service {d : Dev} (hkey : d.sup.key = false) (hmode : d.sup.mode = .afterrun) (hready : d.sup.ready = true) :
    let d₁ := (d.modSup fun s => { s with key := true, afterrunEnded := false }).applyHeld
    d.keyOn = (d₁.setMode d₁.syncMode).oweStanding .afterrun d₁.syncMode true := by
  unfold Dev.keyOn
  rw [if_neg (by simp [hkey, hmode])]
  exact (if_neg (not_not.mpr hmode)).trans (if_pos hready)

/-- Settles O8: KEY_IN off is the end of every event and a change of mode; KEY_IN on a change of mode alone, with what the handover
applies where full service is ready. -/
theorem keyChanges : Obligations.KeyChanges := by
  unfold Obligations.KeyChanges
  refine ⟨fun s t hclean hroom hkey hreset => ?off, fun s t hsettled hroom hkey => ⟨fun hmode hready => ?basecamp,
    fun hmode hready hheld => ?service, fun hmode hwoke => ?stands⟩⟩
  case off =>
    intro running
    by_cases hrunning : s.dev.sup.mode.running
    · have hends := endAllEvents_ends (e := s.env) (d := (s.dev.at t).modSup fun s => { s with key := false }) hclean.2.1 .endedMode 7
      obtain ⟨honly, hdescrs, hboxes⟩ := hends
      obtain ⟨templates, loft, banks, pfi, ign, gate, hended⟩ := honly.only
      rw [hended] at hdescrs hboxes
      have hkeyed : ∃ sup, (s.dev.at t).keyedOff s.env =
          { s.dev.at t with sup := sup, loft := loft, banks := banks, pfi := pfi, ign := ign, gate := gate } ∧
          sup.mode = s.dev.sup.mode ∧ sup.key = false ∧ sup.afterrunAt = s.now t ∧ sup.afterrunEnded = false := by
        rw [Dev.keyedOff, hended]
        exact ⟨_, rfl, rfl, rfl, rfl, rfl⟩
      obtain ⟨sup, hkeyed, hmode, hkey', hat, hended'⟩ := hkeyed
      have hset := setMode_engines (m := .afterrun) (d := (s.dev.at t).keyedOff s.env) hroom (by rw [hkeyed]; exact ⟨rfl, rfl⟩) (by decide)
      have hbody := keyOff_ends (d := s.dev.at t) (e := s.env) hclean.2.1 hkey hrunning
      rw [hkeyed] at hset hbody
      have haway : sup.mode ≠ .afterrun := by
        rw [hmode]
        intro h
        simp [Mode.running, h] at hrunning
      have hprev := hset.prev haway
      have hadm := hset.adm rfl
      obtain ⟨prev, tChange, aliveRun, alive, adm, bst, ce, cnv, can, hfinal⟩ := hset.only
      rw [hfinal] at hbody hprev hadm
      refine completes_of_after (c := .keyOff t) (body := fun e d => d.keyOff e) rfl hbody hclean.1.2.1 fun s' h => ?_
      rw [h.sup, h.pos, h.adm, h.loft]
      refine ⟨hkey', fun _ => ⟨rfl, hprev.trans hmode, hat, hended', hadm, rfl, fun b hb => ?_, fun x hx hwaits => ?_⟩,
        fun hnot => absurd hrunning hnot⟩
      · obtain ⟨-, -, hwaiting⟩ := hboxes b
        obtain ⟨hstate, hending⟩ := hwaiting hb
        exact ⟨hstate, _, hending, rfl, rfl, rfl, rfl⟩
      · obtain ⟨hev, hstate, hending⟩ := endWith_waiting hwaits
        have hmem := List.mem_map_of_mem (f := fun y : Nat × Descr => (y.1, y.2.endWith
          { result := .endedMode, reason := 7, unstarted := true, time := (s.dev.at t).dtime, ctrl := ctrl 2 2 0xFF })) hx
        refine ⟨_, (congrArg (_ ∈ ·) hdescrs).mpr hmem, rfl, hev, hstate, ?_⟩
        rw [hending]
        exact ⟨rfl, rfl, rfl⟩
    · refine completes_of_changesOnly (c := .keyOff t) (l := [.sup]) hclean.1.2 rfl
        (keyOff_stands (d := s.dev.at t) hkey hreset hrunning) (.of _ (sup := .inl (by simp))) fun s' h htouches => ?_
      rw [h.sup]
      exact ⟨rfl, fun h => absurd h hrunning, fun _ => ⟨rfl, htouches⟩⟩
  case basecamp =>
    have hset := setMode_engines (m := .basecamp) (d := (s.dev.at t).keyedOn) hroom ⟨rfl, rfl⟩ (by decide)
    have hprev := hset.prev (by show s.dev.sup.mode ≠ _; rw [hmode]; decide)
    obtain ⟨prev, tChange, aliveRun, alive, adm, bst, ce, cnv, can, hfinal⟩ := hset.only
    obtain ⟨wakeSrc, hwake, -⟩ := wakeUp_awake s.env (src := wakeBit (s.dev.at t) .keyIn) (d := (s.dev.at t).keyedOn.setMode .basecamp)
      (by rw [hset.mode]; decide)
    have hbody := congrArg (Dev.wakeUp s.env (wakeBit (s.dev.at t) .keyIn)) (keyOn_basecamp (d := s.dev.at t) hkey hmode hready)
    rw [hwake, hfinal] at hbody
    rw [hfinal] at hprev
    refine completes_of_after (c := .keyOn t) (body := fun e d => d.keyGoesOn e) rfl hbody hsettled.1 fun s' h => ?_
    rw [h.sup, h.pos, h.loft, h.mems]
    refine ⟨rfl, rfl, hprev.trans hmode, rfl, rfl, ?_⟩
    show s.dev.writes.foldl _ _ = _
    rw [hsettled.2]
    rfl
  case service =>
    obtain ⟨wheel, corr, staged, switched, happlied⟩ :=
      applyHeld_none (d := (s.dev.at t).modSup fun s => { s with key := true, afterrunEnded := false }) hheld
    have hon := keyOn_service (d := s.dev.at t) hkey hmode hready
    rw [happlied] at hon
    obtain ⟨hruns, -⟩ := syncMode_runs s.dev
    have hset := setMode_engines (m := s.dev.syncMode) (d := { s.dev.at t with
      sup := { s.dev.sup with key := true, afterrunEnded := false }, pos := { s.dev.pos with wheel := wheel, corr := corr, staged := staged }
      adm := switched, nvi := { s.dev.nvi with held := [] } }) hroom ⟨rfl, rfl⟩ hruns
    obtain ⟨prev, tChange, aliveRun, alive, adm, bst, ce, cnv, can, hfinal⟩ := hset.owes .afterrun s.dev.syncMode true
    have hkeyed := Eq.trans hon hfinal
    obtain ⟨wakeSrc, hwake, -⟩ := wakeUp_awake s.env (src := wakeBit (s.dev.at t) .keyIn) (d := (s.dev.at t).keyOn) (by
      rw [hkeyed]
      exact (syncMode_runs s.dev).2)
    rw [hkeyed] at hwake
    refine completes_of_after (c := .keyOn t) (body := fun e d => d.keyGoesOn e) rfl
      ((congrArg (Dev.wakeUp s.env (wakeBit (s.dev.at t) .keyIn)) hkeyed).trans hwake) hsettled.1 fun s' h => ?_
    rw [h.sup, h.pos, h.loft, h.mems]
    refine ⟨rfl, rfl, rfl, rfl, rfl, ?_⟩
    show s.dev.writes.foldl _ _ = _
    rw [hsettled.2]
    rfl
  case stands =>
    simp only [List.mem_cons, List.not_mem_nil, or_false, not_or] at hmode
    obtain ⟨hreset, hafterrun, hbivouac⟩ := hmode
    obtain ⟨wakeSrc, hwake, hsrc⟩ := wakeUp_awake s.env (src := wakeBit (s.dev.at t) .keyIn)
      (d := (s.dev.at t).modSup fun s => { s with key := true }) hbivouac
    have hbody := (congrArg (Dev.wakeUp s.env (wakeBit (s.dev.at t) .keyIn)) (keyOn_stands (d := s.dev.at t) hkey hreset hafterrun)).trans hwake
    refine completes_of_changesOnly (c := .keyOn t) (body := fun e d => d.keyGoesOn e) (l := [.sup]) hsettled rfl hbody
      (.of _ (sup := .inl (by simp))) fun s' h htouches => ?_
    rw [h.sup]
    exact ⟨rfl, rfl, htouches⟩

end Sys2Proof.Machine
end

section
/-! The obligation on wake sources and on timers of the supervisor (R308, R381, R382, R399, R401). -/

namespace Sys2Proof.Machine

open Sys2Proof

/-- The device as it leaves BIVOUAC, before its mode changes. -/
def Dev.roused (d : Dev) : Dev := d.modSup fun s => { s with wakeReq := 0, pllLock := true, dstep := 1 }

/-- A wake without records of EARLY_INIT (R381). -/
theorem wakeUp_bivouac (e : Env) {d : Dev} {src : BitVec 4} (hmode : d.sup.mode = .bivouac) (hsrc : src ≠ 0) (hrecs : d.nvi.earlyRecs = []) :
    d.wakeUp e src = (d.roused.setMode .waitSync).modSup fun s =>
      { s with wakeSrc := src, wakes := s.wakes + 1, wokeAt := some d.dtime } := by
  unfold Dev.wakeUp
  refine (if_neg hsrc).trans ((if_pos hmode).trans ?_)
  extract_lets d₁ d₂
  have hnone : d₂ = d₁ := by
    simp only [d₂]
    rw [show d₁.nvi.earlyRecs = [] from hrecs]
    rfl
  rw [hnone]
  rfl

/-- A wake source that is not enabled does nothing (R381). -/
theorem wakeUp_none (e : Env) (d : Dev) : d.wakeUp e 0 = d.modSup fun s => { s with wakeReq := 0 } := rfl

section
variable {s : State} {t : Ns} (hsettled : s.dev.settled) (hmode : s.dev.sup.mode = .bivouac) (hroom : s.room [5])
  (hrecs : s.dev.nvi.earlyRecs = [])
include hsettled hmode hroom hrecs

/-- A command that wakes the device, with the key where it found it, or on. -/
theorem completes_wakeUp {c : Instr} {body : Env → Dev → Dev} {src : BitVec 4} {key : Bool} (hexec : exec c s = runAt (stampOf c) body s)
    (hbody : s.after (stampOf c) body = ((s.dev.at (stampOf c)).modSup fun s => { s with key := key }).wakeUp s.env src) (hsrc : src ≠ 0) :
    Completes c s fun s' => (s'.dev.sup.mode = .waitSync ∧ s'.dev.sup.wakeSrc = src ∧ s'.dev.sup.wakes = s.dev.sup.wakes + 1 ∧
      s'.dev.sup.pllLock = true ∧ s'.dev.sup.dstep = 1 ∧ s'.dev.pos = s.dev.pos ∧ s'.dev.tmu = s.dev.tmu ∧ s'.mems = s.mems) ∧
      s'.dev.sup.key = key := by
  let d : Dev := (s.dev.at (stampOf c)).modSup fun s => { s with key := key }
  have hwake := wakeUp_bivouac s.env (d := d) hmode hsrc hrecs
  have hset := setMode_engines (m := .waitSync) (d := d.roused) hroom ⟨rfl, rfl⟩ (by decide)
  obtain ⟨prev, tChange, aliveRun, alive, adm, bst, ce, cnv, can, hfinal⟩ := hset.only
  rw [hfinal] at hwake
  refine completes_of_after hexec (hbody.trans hwake) hsettled.1 fun s' h => ?_
  rw [h.sup, h.pos, h.tmu, h.mems]
  refine ⟨⟨rfl, rfl, rfl, rfl, rfl, rfl, rfl, ?_⟩, rfl⟩
  show s.dev.writes.foldl _ _ = _
  rw [hsettled.2]
  rfl

end

/-- Settles O10: a wake is a change of mode with the clocks restored, and the other commands set one register. -/
theorem wakesAndTimers : Obligations.WakesAndTimers := by
  unfold Obligations.WakesAndTimers
  refine ⟨fun s t hsettled hmode hroom hrecs => ⟨fun rising hen hedge => ?wakeIn, fun rising hoff => ?unheard, fun hkey hen => ?keyIn,
    fun hkey hen => ?keyOn, fun k ide id hen hide hmatch => ?can⟩, fun s t hsettled => ⟨fun hstopped hlong => ?stop, ?alive, fun p => ?disarm⟩⟩
  case wakeIn =>
    refine (completes_wakeUp (c := .wake t [.wakeIn rising]) (src := 4) (key := s.dev.sup.key) hsettled hmode hroom hrecs rfl ?_ (by decide)).imp
      fun s' h => h.1
    have hbit : wakeBit (s.dev.at t) (.wakeIn rising) = 4 := if_pos (by simp [Dev.at, hen, hedge])
    exact congrArg (Dev.wakeUp s.env · _) ((BitVec.zero_or).trans hbit)
  case unheard =>
    have hbit : wakeBit (s.dev.at t) (.wakeIn rising) = 0 := if_neg (by obtain h | h := hoff <;> simp [Dev.at, h])
    have hbody : (s.dev.at t).wake s.env [.wakeIn rising] = (s.dev.at t).modSup fun s => { s with wakeReq := 0 } :=
      (congrArg (Dev.wakeUp s.env · (s.dev.at t)) ((BitVec.zero_or).trans hbit)).trans (wakeUp_none ..)
    refine completes_of_changesOnly (c := .wake t [.wakeIn rising]) (l := [.sup]) hsettled rfl hbody (.of _ (sup := .inl (by simp)))
      fun s' h htouches => ⟨?_, htouches⟩
    rw [h.sup]
    exact hmode
  case keyIn =>
    have hbit : wakeBit (s.dev.at t) .keyIn = 8 := if_pos (by simp [Dev.at, hkey, hen])
    have hon := keyOn_stands (d := s.dev.at t) hkey (by show s.dev.sup.mode ≠ _; rw [hmode]; decide) (by show s.dev.sup.mode ≠ _; rw [hmode]; decide)
    exact completes_wakeUp (c := .wake t [.keyIn]) hsettled hmode hroom hrecs rfl
      (congrArg₂ (Dev.wakeUp s.env) ((BitVec.zero_or).trans hbit) hon) (by decide)
  case keyOn =>
    have hbit : wakeBit (s.dev.at t) .keyIn = 8 := if_pos (by simp [Dev.at, hkey, hen])
    have hon := keyOn_stands (d := s.dev.at t) hkey (by show s.dev.sup.mode ≠ _; rw [hmode]; decide) (by show s.dev.sup.mode ≠ _; rw [hmode]; decide)
    exact completes_wakeUp (c := .keyOn t) (body := fun e d => d.keyGoesOn e) hsettled hmode hroom hrecs rfl
      (congrArg₂ (Dev.wakeUp s.env) hbit hon) (by decide)
  case can =>
    refine (completes_wakeUp (c := .canWakeMatch t k ide id) (src := 1) (key := s.dev.sup.key) hsettled hmode hroom hrecs rfl ?_ (by decide)).imp
      fun s' h => h.1
    exact if_pos (by simp [-Fin.getElem_fin, Dev.at, Can.wakes, hen, hide, hmatch])
  case stop =>
    refine completes_of_changesOnly (c := .stop1s t) (l := [.sup]) hsettled rfl (if_pos ⟨hstopped, hlong⟩)
      (.of _ (sup := .inl (by simp))) fun s' h htouches => ⟨h.sup, htouches⟩
  case alive =>
    exact completes_of_changesOnly (c := .aliveToggle t) (l := [.sup]) hsettled rfl rfl (.of _ (sup := .inl (by simp)))
      fun s' h htouches => ⟨h.sup, htouches⟩
  case disarm =>
    have hctx := completes_ctx (c := .forceDisarm t p) (p := p) (body := fun _ d => d.disarm p) hsettled id rfl (Dev.modCtx_id ..).symm
    refine hctx.imp fun s' hs' => ?_
    obtain ⟨hone, hothers, htouches⟩ := hs'
    exact ⟨by rw [hone]; rfl, hothers, htouches⟩

end Sys2Proof.Machine
end

section
/-! The obligation on the ends of afterrun (R379): the loss of sync on the way to BIVOUAC, and what stops there. -/

namespace Sys2Proof.Machine

open Sys2Proof

/-! ### The loss of sync in BIVOUAC (R60, R61) -/

/-- Nothing but the position, records, outputs, the loft and the basecamp templates are changed. -/
structure Dev.LosesOnly (d d' : Dev) : Prop where
  only : ∃ templates stoppedAt stop1s loft banks pfi ign gate pos recm, d' =
    { d with sup := { d.sup with templates := templates, stoppedAt := stoppedAt, stop1s := stop1s }, loft := loft, banks := banks
             pfi := pfi, ign := ign, gate := gate, pos := pos, recm := recm }

section
variable {a b d : Dev}

theorem Dev.LosesOnly.trans (h : d.LosesOnly a) (h' : a.LosesOnly b) : d.LosesOnly b := by
  obtain ⟨_, _, _, _, _, _, _, _, _, _, rfl⟩ := h.only
  obtain ⟨templates, stoppedAt, stop1s, loft, banks, pfi, ign, gate, pos, recm, rfl⟩ := h'.only
  exact ⟨templates, stoppedAt, stop1s, loft, banks, pfi, ign, gate, pos, recm, rfl⟩

/-- Records and the position alone are changed. -/
theorem Dev.LosesOnly.place (pos : Pos) (recm : RecM) (stoppedAt : Ns := d.sup.stoppedAt) (stop1s : Bool := d.sup.stop1s) :
    d.LosesOnly { d with sup := { d.sup with stoppedAt := stoppedAt, stop1s := stop1s }, pos := pos, recm := recm } :=
  ⟨d.sup.templates, stoppedAt, stop1s, d.loft, d.banks, d.pfi, d.ign, d.gate, pos, recm, rfl⟩

theorem Dev.EndsOnly.loses (h : d.EndsOnly a) : d.LosesOnly a := by
  obtain ⟨templates, loft, banks, pfi, ign, gate, rfl⟩ := h.only
  exact ⟨templates, d.sup.stoppedAt, d.sup.stop1s, loft, banks, pfi, ign, gate, d.pos, d.recm, rfl⟩

theorem Dev.LosesOnly.mode (h : d.LosesOnly a) : a.sup.mode = d.sup.mode := by
  obtain ⟨_, _, _, _, _, _, _, _, _, _, rfl⟩ := h.only
  rfl

theorem Dev.LosesOnly.memu (h : d.LosesOnly a) : a.memu = d.memu := by
  obtain ⟨_, _, _, _, _, _, _, _, _, _, rfl⟩ := h.only
  rfl

theorem dropResiduals_ends (d : Dev) : d.EndsOnly d.dropResiduals := ⟨_, _, _, _, _, _, rfl⟩

theorem present_only (r : Rec) (d : Dev) : ∃ recm, d.present r = { d with recm := recm } := by
  unfold Dev.present
  simp only
  split <;> exact ⟨_, rfl⟩

theorem stopPass_loses (d : Dev) : d.LosesOnly d.stopPass := by
  unfold Dev.stopPass
  simp only
  split <;> exact .place ..

theorem toothRecord_loses (part rev : Bool) (cyc : W32) (tE : Ns) (d : Dev) : d.LosesOnly (d.toothRecord part rev cyc tE) := by
  unfold Dev.toothRecord
  extract_lets p
  split
  · obtain ⟨recm, hrec⟩ := present_only _ d
    rw [hrec]
    exact .place ..
  · exact .place ..

/-- The SYNC record; where no engine runs no list is triggered. -/
theorem noteSync_stopped (h : d.sup.mode.engines = false) (from_ : SyncState) (cause : Nat) (tE : Ns) : ∃ recm,
    d.noteSync from_ cause tE = { d with recm := recm } := by
  unfold Dev.noteSync
  extract_lets p
  split
  extract_lets d₁
  obtain ⟨recm, hrec⟩ : ∃ recm, d₁ = { d with recm := recm } := present_only _ d
  rw [hrec]
  exact ⟨recm, fire_stopped (d := { d with recm := recm }) h _ _⟩

/-- Sync is lost with cause MODE in BIVOUAC: to STOPPED. -/
theorem lose_bivouac (e : Env) (hmode : d.sup.mode = .bivouac) (herrs : d.memu.errs = []) (tE : Ns) :
    d.LosesOnly (d.lose e 12 tE none) ∧ (d.lose e 12 tE none).pos.sync = .stopped := by
  unfold Dev.lose Dev.loseAny
  extract_lets p cause cam from_ stopped limp d1 d2
  split
  · next hstopped =>
    refine ⟨.place .., hstopped.resolve_right fun h => ?_⟩
    exact absurd h.1 (by decide)
  · split
    extract_lets d3 d4 w x last d5
    have hd2 : d.LosesOnly d2 := by
      have hd1 : d.LosesOnly d1 := (stopPass_loses d).trans (toothRecord_loses ..)
      exact (hd1.trans (endAllEvents_ends (e := e) (hd1.memu ▸ herrs) ..).1.loses).trans (dropResiduals_ends _).loses
    clear_value d2
    have hd3 : d2.LosesOnly d3 := .place d3.pos d2.recm
    have hd4 : d.LosesOnly d4 := (hd2.trans hd3).trans (.place d4.pos d3.recm d3.dtime false)
    have hmode4 : d4.sup.mode = .bivouac := hd4.mode.trans hmode
    obtain ⟨recm, hnote⟩ := noteSync_stopped (d := d4) (by rw [hmode4]; rfl) from_ cause tE
    have hend : Dev.follow e false (Dev.noteSync from_ cause tE d4) = { d4 with recm := recm } := by
      rw [hnote]
      unfold Dev.follow
      simp only [hmode4]
    rw [if_pos (.inr ⟨rfl, hmode⟩), hend]
    exact ⟨hd4.trans (.place d4.pos recm), rfl⟩

end

/-! ### What stops in BIVOUAC (R262, R266, R303) -/

section
variable {d : Dev}

/-- A converter that has stopped. -/
def Cnv.stopped (x : Cnv) : Cnv := { x with scanning := false, urgRun := none, urgQ := [] }

theorem stopConverter_only (hdead : d.memu.deadTags = []) (c : Fin 2) : ∃ writes,
    d.stopConverter c = { d with writes := writes, cnv := upd d.cnv c Cnv.stopped } := by
  unfold Dev.stopConverter
  simp only [foldl_staleSlot _ hdead]
  exact ⟨_, rfl⟩

theorem stopConverters_only (hdead : d.memu.deadTags = []) : ∃ writes cnv, d.stopConverters = { d with writes := writes, cnv := cnv } ∧
    ∀ c : Fin 2, cnv[c].scanning = false := by
  obtain ⟨ws, h0⟩ := stopConverter_only hdead 0
  obtain ⟨ws', h1⟩ := stopConverter_only (d := { d with writes := ws, cnv := upd d.cnv 0 Cnv.stopped }) hdead 1
  unfold Dev.stopConverters
  rw [h0, h1]
  refine ⟨ws', _, rfl, fun c => ?_⟩
  match c with
  | 0 => exact congrArg Cnv.scanning ((upd_other _ 1 0 Cnv.stopped (by decide)).trans (upd_same ..))
  | 1 => exact congrArg Cnv.scanning (upd_same _ 1 Cnv.stopped)

/-- PIO machines that stop move no pin. -/
theorem stopPio_only (d : Dev) : ∃ pio, d.stopPio false = { d with pio := pio } :=
  ⟨_, pinEdges_still 16 (List.map_congr_left fun n _ => pinLevel_congr (d := d) rfl rfl n)⟩

theorem setMode_bivouac (hmode : d.sup.mode ≠ .bivouac) (hdead : d.memu.deadTags = []) :
    ∃ prev tChange aliveRun alive adm bst ce cnv cnvs pio writes, d.setMode .bivouac =
      { d with sup := { d.sup with mode := .bivouac, prev := prev, tChange := tChange, aliveRun := aliveRun, alive := alive }
               adm := adm, bst := bst, ce := ce, cnv := cnv, cnvs := cnvs, pio := pio, writes := writes } ∧
      (∀ k : Fin 8, ce[k].state = .idle) ∧ ∀ c : Fin 2, cnv[c].scanning = false := by
  unfold Dev.setMode
  rw [if_neg hmode]
  extract_lets old d1 d2 d3 d4 cnvs d5 d6 d7 d8
  obtain ⟨adm, ce, hstop, hidle, -⟩ := stopEngines_only (List.finRange 8) d1
  have h2 : d2 = { d1 with adm := adm, ce := ce } := hstop
  have h3 : d3 = { d2 with bst := d2.bst.halt d2.dtime } := rfl
  obtain ⟨ws, cnv, hconv, hscan⟩ := stopConverters_only (d := d3) (by rw [h3, h2]; exact hdead)
  obtain ⟨pio, hpio⟩ := stopPio_only d3.stopConverters
  have h4 : d4 = { d3 with writes := ws, cnv := cnv, pio := pio } := by
    rw [hconv] at hpio
    rw [← hpio, ← hconv]
    rfl
  have h7 : d7 = { d4 with cnvs := { d4.cnvs with refEn := false, refOk := false } } := rfl
  rw [h4, h3, h2] at h7
  have h8 : d8.sup.mode.engines = false := by
    rw [show d8.sup.mode = d7.sup.mode from rfl, h7]
    rfl
  rw [fire_stopped h8, show d8 = d7.modSup _ from rfl, h7]
  exact ⟨_, _, _, _, _, _, _, _, _, _, _, rfl, fun k => hidle k (List.mem_finRange k), hscan⟩

/-- BIVOUAC as it is entered (R379). -/
theorem bivouac_entered (e : Env) (hmode : d.sup.mode ≠ .bivouac) (herrs : d.memu.errs = []) (hdead : d.memu.deadTags = []) :
    (d.bivouac e).flt = d.flt ∧ (d.bivouac e).sup.mode = .bivouac ∧ (d.bivouac e).sup.pllLock = false ∧ (d.bivouac e).sup.dstep = 25 ∧
    (d.bivouac e).pos.sync = .stopped ∧ (∀ k : Fin 4, (d.bivouac e).can[k].txq = []) ∧ (∀ k : Fin 8, (d.bivouac e).ce[k].state = .idle) ∧
    (∀ c : Fin 2, (d.bivouac e).cnv[c].scanning = false) ∧ ∀ k : Fin 8, (d.bivouac e).tmu[k] = d.tmu[k] := by
  obtain ⟨prev, tChange, aliveRun, alive, adm, bst, ce, cnv, cnvs, pio, writes, hset, hidle, hscan⟩ := setMode_bivouac hmode hdead
  obtain ⟨hlost, hsync⟩ := lose_bivouac e (d := d.setMode .bivouac) (by rw [hset]) (by rw [hset]; exact herrs)
    d.dtime
  have hends := ((endAllEvents_ends (e := e) (d := (d.setMode .bivouac).lose e 12 d.dtime none)
    (by rw [hlost.memu, hset]; exact herrs) .endedMode 8).1.trans (dropResiduals_ends _)).only
  obtain ⟨_, _, _, _, _, _, _, _, pos, _, hlost⟩ := hlost.only
  obtain ⟨_, _, _, _, _, _, hends⟩ := hends
  unfold Dev.bivouac
  simp only
  rw [hends]
  rw [hlost] at hsync ⊢
  rw [hset] at hsync ⊢
  refine ⟨rfl, rfl, rfl, rfl, hsync, fun k => ?_, hidle, hscan, fun _ => rfl⟩
  exact (congrArg Can.txq (Vector.getElem_map ..) :)

end

theorem endAfterrun_ends (e : Env) {d : Dev} (hmode : d.sup.mode = .afterrun) (hended : d.sup.afterrunEnded = false) :
    d.endAfterrun e = if bit d.sup.cfg 1 then d.bivouac e else d.modSup fun s => { s with afterrunEnded := true } :=
  if_neg (by simp [hmode, hended])

/-- Settles O9: each of the three ends is the one end of afterrun, which only lets HOLD_OUT go, or enters BIVOUAC. -/
theorem afterrunEnds : Obligations.AfterrunEnds := by
  unfold Obligations.AfterrunEnds
  intro s t hclean hmode hended done
  have hend {c : Instr} {body : Env → Dev → Dev} {d : Dev} (hexec : exec c s = runAt (stampOf c) body s)
      (hbody : s.after (stampOf c) body = d.endAfterrun s.env) (honly : (s.dev.at (stampOf c)).ChangesOnly [.paths] d)
      (hsup : d.sup = s.dev.sup) (hmemu : d.memu = s.dev.memu) : Completes c s done := by
    have htmu : d.tmu = s.dev.tmu := honly.parts s .tmu (by simp)
    have hbody := hbody.trans (endAfterrun_ends s.env (by rw [hsup, hmode]) (by rw [hsup, hended]))
    rw [hsup] at hbody
    cases hbiv : bit s.dev.sup.cfg 1 with
    | true =>
      obtain ⟨hflt, hmode', hpll, hstep, hsync, htxq, hidle, hscan, htmu'⟩ := bivouac_entered s.env (d := d)
        (by rw [hsup, hmode]; decide) (by rw [hmemu]; exact hclean.2.1) (by rw [hmemu]; exact hclean.2.2)
      refine completes_of_after hexec (hbody.trans (if_pos hbiv)) (by rw [hflt, honly.flt]; exact hclean.1.2.1) fun s' h => ⟨fun hno => ?_, fun _ => ?_⟩
      · exact absurd (hno.symm.trans hbiv) Bool.false_ne_true
      · rw [h.sup, h.pos, h.can, h.ce, h.cnv, h.tmu, ← htmu]
        exact ⟨hmode', hpll, hstep, hsync, htxq, hidle, hscan, htmu'⟩
    | false =>
      refine completes_of_changesOnly (l := [.sup, .paths]) hclean.1.2 hexec (hbody.trans (if_neg (Bool.eq_false_iff.mp hbiv)))
        (honly.mono.trans (.of _ (sup := .inl (by simp)))) fun s' h htouches => ⟨fun _ => ?_, fun hyes => ?_⟩
      · have hsup' : s'.dev.sup = { s.dev.sup with afterrunEnded := true } := by
          rw [h.sup, ← hsup]
          rfl
        refine ⟨hsup', ?_, htouches⟩
        have hreset : (s.dev.sup.mode != .reset) = true := by rw [hmode]; rfl
        simp [Dev.holdOut, hsup', hreset, Bool.and_comm]
      · exact absurd (hbiv.symm.trans hyes) Bool.false_ne_true
  refine ⟨fun p hp => ?_, fun hidle => ?_, fun hmax => ?_⟩
  · refine hend (c := .endAfterrun t p 0xC5) (d := (s.dev.at t).disarm p) rfl ?_ (Dev.changesOnly_disarm p _) rfl rfl
    have hkey : ¬((0xC5 : Byte).toNat ≠ 0xC5 ∨ (p = .twp ∧ bit s.dev.sup.cfg 3 = false)) := by
      rintro (h | ⟨htwp, hoff⟩)
      · exact h rfl
      · exact absurd (hp htwp) (Bool.eq_false_iff.mp hoff)
    exact (if_neg hkey).trans (if_pos (by simp [Dev.disarm, Dev.modCtx, Dev.at, hmode, hended]))
  · exact hend (c := .afterrunEnd t) rfl (if_pos hidle) (.refl ..) rfl rfl
  · exact hend (c := .arMax t) rfl (if_pos hmax) (.refl ..) rfl rfl

end Sys2Proof.Machine
end

section
/-! The obligation on the resets (R373, R383): what they return to its reset value, and what they keep. -/

namespace Sys2Proof.Machine

open Sys2Proof

/-! ### Memory that is filled with zeros (R405) -/

theorem sget_filter {α : Type} (dflt : α) (p : Nat → Bool) (a : Nat) : ∀ l : List (Nat × α),
    sget dflt (l.filter fun c => p c.1) a = if p a then sget dflt l a else dflt
  | [] => by simp [sget]
  | (k, x) :: l => by
    have ih := sget_filter dflt p a l
    by_cases hk : p k <;> by_cases ha : a = k
    · simp [sget, hk, ha]
    · simp [sget, hk, ha, ih]
    · subst ha
      simp [hk, ih]
    · simp [sget, hk, ha, ih]

theorem byte_fill (lo hi : Nat) (m : Mems) (a : Nat) : ((MemOp.fill lo hi).apply m).byte a = if lo ≤ a ∧ a < hi then 0 else m.byte a := by
  rw [MemOp.apply_byte]
  refine (sget_filter 0 (fun k => decide (k < lo) || decide (hi ≤ k)) a m.sram).trans ?_
  by_cases h : lo ≤ a ∧ a < hi
  · rw [if_pos h, if_neg (by simp; omega)]
  · rw [if_neg h, if_pos (by simp; omega)]
    rfl

/-! ### Power-on and brown-out -/

/-- While the reset holds, the end of a command notes no attention (R333). -/
theorem attend_reset {d : Dev} (hmode : d.sup.mode = .reset) (hfilled : d.sup.filled = false) (before : Dev) :
    d.attend before = { d with nvi := { d.nvi with twpEn := false } } := by
  have hshut : d.brOpen = false := by simp [Dev.brOpen, hmode]
  simp [Dev.attend, hshut, hfilled]

/-- A power-on or brown-out reset leaves nothing of the device but what its pins show from outside. -/
theorem completes_powerReset {c : Instr} {s : State} {body : Env → Dev → Dev} {cause : Nat} {warn : Bool}
    (hexec : exec c s = runAt (stampOf c) body s) (hbody : s.after (stampOf c) body = (s.dev.at (stampOf c)).powerReset cause warn) :
    Completes c s fun s' =>
      (∃ f, s'.dev = { sup := { mode := .reset, filled := false, lastReset := cause, lastWarn := warn, vgdLow := s.dev.sup.vgdLow }
                       pios := { ext := s.dev.pios.ext }, snap := { inLevel := s.dev.snap.inLevel }, free := f }) ∧
      (∀ a, s'.mems.byte a = if recBase ≤ a ∧ a < msgBase then 0 else s.mems.byte a) ∧ s'.mems.attrs = s.mems.attrs ∧
      s'.pending = s.pending ∧ s'.fuses = s.fuses := by
  refine completes_of_run hexec fun hrests => ⟨_, runAt_eq hrests _, ?_⟩
  rw [hbody, Dev.settle_quiet rfl, attend_reset rfl rfl]
  exact ⟨⟨s.dev.free, rfl⟩, byte_fill recBase msgBase s.mems, MemOp.apply_attrs s.mems (.fill recBase msgBase), rfl, rfl⟩

/-! ### Pin and software reset -/

/-- What a pin or software reset keeps and returns. -/
def State.ResetTo (s : State) (t : Ns) (cause : Nat) (s' : State) : Prop :=
  let d := s.dev
  let d' := s'.dev
  d'.dtime = s.now t ∧ d'.sup.mode = .reset ∧ d'.sup.filled = false ∧ d'.sup.lastReset = cause ∧
  d'.sup.lastWarn = d.sup.warn ∧ d'.sup.lastDtime = BitVec.ofNat 32 (s.now t) ∧ d'.sup.latch = d.sup.latch ∧
  d'.sup.lastFault = d.sup.lastFault ∧ d'.sup.key = false ∧
  (d.flt.valid = true → d'.flt.valid = true ∧ d'.flt.source = d.flt.source ∧ d'.flt.time = d.flt.time ∧ d'.flt.coord = d.flt.coord) ∧
  (d.flt.valid = false → d'.flt = {}) ∧ d'.flt.merged = 0 ∧
  d'.recm.stood = some (d.recm.stood.getD d.recm.rings) ∧
  d'.pos = {} ∧ d'.adm = {} ∧ d'.loft = {} ∧ d'.bst = {} ∧ d'.diag = {} ∧ d'.ces = {} ∧ d'.cnvs = {} ∧
  (∀ k : Fin 4, d'.banks[k] = {} ∧ d'.can[k] = {}) ∧ (∀ n : Fin 16, d'.pfi[n] = {} ∧ d'.ign[n] = {}) ∧
  (∀ k : Fin 8, d'.gate[k] = {} ∧ d'.ce[k] = {} ∧ d'.tmu[k] = {} ∧ d'.pio[k] = {}) ∧ (∀ c : Fin 2, d'.cnv[c] = {}) ∧
  s'.mems = s.mems ∧ s'.pending = s.pending ∧ s'.fuses = s.fuses

theorem keepFirst_valid {f : Flt} (h : f.valid = true) : f.keepFirst.valid = true ∧ f.keepFirst.source = f.source ∧
    f.keepFirst.time = f.time ∧ f.keepFirst.coord = f.coord := by simp [Flt.keepFirst, h]

theorem keepFirst_clear {f : Flt} (h : f.valid = false) : f.keepFirst = {} := by simp [Flt.keepFirst, h]

theorem keepFirst_fresh (f : Flt) : f.keepFirst.merged = 0 ∧ f.keepFirst.raised = [] := by
  unfold Flt.keepFirst
  split <;> exact ⟨rfl, rfl⟩

theorem Flt.withoutRaised {f : Flt} (h : f.raised = []) : { f with raised := [] } = f := by rw [← h]

/-- Elements of a vector at its reset value. -/
theorem replicate_getElem {α : Type} {n : Nat} (x : α) (i : Fin n) : (Vector.replicate n x)[i] = x := Vector.getElem_replicate i.isLt

theorem softReset_disarm (p : Path) {d : Dev} (h : d.sup.mode ≠ .reset) (cause : Nat) (warn : Bool) :
    (d.disarm p).softReset cause warn = d.softReset cause warn := (if_neg h).trans (if_neg h).symm

/-- A reset of the registers, whichever pin or command asks for it. -/
theorem completes_softReset {c : Instr} {s : State} {body : Env → Dev → Dev} {cause : Nat} (h : s.dev.sup.mode ≠ .reset)
    (hexec : exec c s = runAt (stampOf c) body s) (hbody : s.after (stampOf c) body = (s.dev.at (stampOf c)).softReset cause s.dev.sup.warn) :
    Completes c s (s.ResetTo (stampOf c) cause) := by
  have hmode : (s.dev.at (stampOf c)).sup.mode ≠ .reset := h
  rw [Dev.softReset, if_neg hmode] at hbody
  obtain ⟨hmerged, hraised⟩ := keepFirst_fresh s.dev.flt
  refine completes_of_after hexec hbody hraised fun s' hs' => ?_
  have hflt : s'.dev.flt = s.dev.flt.keepFirst := hs'.flt.trans (Flt.withoutRaised hraised)
  unfold State.ResetTo
  dsimp only
  rw [hs'.dtime, hs'.sup, hflt, hs'.recm, hs'.pos, hs'.adm, hs'.loft, hs'.bst, hs'.diag, hs'.ces, hs'.cnvs, hs'.banks, hs'.can, hs'.pfi,
    hs'.ign, hs'.gate, hs'.ce, hs'.tmu, hs'.pio, hs'.cnv]
  exact ⟨rfl, rfl, rfl, rfl, rfl, rfl, rfl, rfl, rfl, keepFirst_valid, keepFirst_clear, hmerged, rfl, rfl, rfl, rfl, rfl, rfl, rfl, rfl,
    fun k => ⟨replicate_getElem _ k, replicate_getElem _ k⟩, fun n => ⟨replicate_getElem _ n, replicate_getElem _ n⟩,
    fun k => ⟨replicate_getElem _ k, replicate_getElem _ k, replicate_getElem _ k, replicate_getElem _ k⟩, fun c => replicate_getElem _ c,
    hs'.mems, hs'.pending, hs'.fuses⟩

/-- Without its key SUP_CMD sets CMD_IGN alone (R387). -/
theorem completes_supIgn {c : Instr} {s : State} {body : Env → Dev → Dev} (hsettled : s.dev.settled) (p : Path)
    (hexec : exec c s = runAt (stampOf c) body s) (hbody : s.after (stampOf c) body = ((s.dev.at (stampOf c)).disarm p).supIgn) :
    Completes c s fun s' => s'.dev.sup = { s.dev.sup with cmdIgn := true } ∧ s.touches [.sup, .paths] s' :=
  completes_of_changesOnly (l := [.sup, .paths]) hsettled hexec hbody
    ((Dev.changesOnly_disarm p _).mono.trans (.of _ (sup := .inl (by simp)))) fun _ h htouches => ⟨h.sup, htouches⟩

/-- A command in SUP_CMD whose key is right, through a path that may command (R387). -/
theorem supCmd_key {p : Path} {d : Dev} (hp : p = .twp → bit d.sup.cfg 3 = true) :
    ¬((0xC5 : Byte).toNat ≠ 0xC5 ∨ (p = .twp ∧ bit d.sup.cfg 3 = false)) := by
  rintro (h | ⟨htwp, hoff⟩)
  · exact h rfl
  · exact absurd (hp htwp) (Bool.eq_false_iff.mp hoff)

/-- Settles O5: the power resets leave a whole known device; a pin reset, and a software reset with its key, are one function. -/
theorem resets : Obligations.Resets := by
  unfold Obligations.Resets
  refine ⟨fun s t => ⟨completes_powerReset rfl rfl, completes_powerReset rfl rfl⟩, fun s t p key hmode => ?_⟩
  refine ⟨completes_softReset (cause := 2) hmode rfl rfl, fun hkey hp => ?_, fun hsettled hkey => ?_⟩
  · subst hkey
    exact completes_softReset (cause := 3) hmode rfl ((if_neg (supCmd_key hp)).trans (softReset_disarm p (d := s.dev.at t) hmode 3 _))
  · refine completes_supIgn hsettled p rfl (if_pos (.inl fun h => hkey ?_))
    exact BitVec.eq_of_toNat_eq h

end Sys2Proof.Machine
end

section
/-! The timer units where no engine runs: an edge of a pin moves them and nothing else (R245, R284 to R289). -/

namespace Sys2Proof.Machine

open Sys2Proof

/-- Neither an engine nor the wake logic hears of a timer's event. -/
def Mode.still (m : Mode) : Prop := m.engines = false ∧ m ≠ .bivouac

/-- In a mode without engines nothing but the counters and channels of the timer units is changed. -/
def Dev.TimersOnly (d d' : Dev) : Prop :=
  d.sup.mode.still → (∃ tmu, d' = { d with tmu := tmu }) ∧ ∀ u : Fin 8, d'.tmu[u].cfg = d.tmu[u].cfg ∧ d'.tmu[u].running = d.tmu[u].running

section
variable {a b d : Dev}

theorem Dev.TimersOnly.refl (d : Dev) : d.TimersOnly d := fun _ => ⟨⟨d.tmu, rfl⟩, fun _ => ⟨rfl, rfl⟩⟩

theorem Dev.TimersOnly.trans (h : d.TimersOnly a) (h' : a.TimersOnly b) : d.TimersOnly b := by
  intro hstill
  obtain ⟨⟨tmu, rfl⟩, hunits⟩ := h hstill
  obtain ⟨⟨tmu', rfl⟩, hunits'⟩ := h' hstill
  exact ⟨⟨tmu', rfl⟩, fun u => ⟨(hunits' u).1.trans (hunits u).1, (hunits' u).2.trans (hunits u).2⟩⟩

theorem Dev.TimersOnly.ite {p : Prop} [Decidable p] (h : d.TimersOnly a) (h' : d.TimersOnly b) : d.TimersOnly (if p then a else b) := by
  split
  · exact h
  · exact h'

/-- Steps in turn, each of which moves timers alone. -/
theorem Dev.TimersOnly.foldl {α : Type} {f : Dev → α → Dev} (hf : ∀ (d : Dev) x, d.TimersOnly (f d x)) :
    ∀ (l : List α) (d : Dev), d.TimersOnly (l.foldl f d)
  | [], d => .refl d
  | x :: l, d => (hf d x).trans (Dev.TimersOnly.foldl hf l (f d x))

/-- The same for steps that carry something along. -/
theorem Dev.TimersOnly.foldl_snd {α β : Type} {f : β × Dev → α → β × Dev} (hf : ∀ (x : β × Dev) y, x.2.TimersOnly (f x y).2) :
    ∀ (l : List α) (x : β × Dev), x.2.TimersOnly (l.foldl f x).2
  | [], x => .refl x.2
  | y :: l, x => (hf x y).trans (Dev.TimersOnly.foldl_snd hf l (f x y))

/-- A change of one unit outside its configuration. -/
theorem modTmu_timers (u : Fin 8) (f : Tmu → Tmu) (hf : ∀ x, (f x).cfg = x.cfg ∧ (f x).running = x.running) (d : Dev) :
    d.TimersOnly (d.modTmu u f) := by
  refine fun _ => ⟨⟨_, rfl⟩, fun w => ?_⟩
  by_cases hw : w = u
  · subst hw
    rw [show (d.modTmu w f).tmu[w] = _ from upd_same ..]
    exact hf _
  · rw [show (d.modTmu u f).tmu[w] = d.tmu[w] from upd_other _ _ _ _ hw]
    exact ⟨rfl, rfl⟩

theorem modCh_timers (u : Fin 8) (c : Fin 4) (f : Chan → Chan) (d : Dev) : d.TimersOnly (d.modTmu u (Tmu.modCh c f)) :=
  modTmu_timers u (Tmu.modCh c f) (fun _ => ⟨rfl, rfl⟩) d

theorem chanEvent_timers (u : Fin 8) (c : Fin 4) (d : Dev) : d.TimersOnly (d.chanEvent u c) := by
  unfold Dev.chanEvent
  extract_lets x out d₁ d₂
  have h₁ : d.TimersOnly d₁ := modCh_timers u c _ d
  intro hstill
  obtain ⟨⟨tmu, heq⟩, hunits⟩ := h₁ hstill
  have hmode : d₁.sup.mode = d.sup.mode := by rw [heq]
  have h₂ : d₂ = d₁ := fire_stopped (hmode ▸ hstill.1) ..
  have hawake : ¬(bit x.cfg 4 && d₂.sup.mode == .bivouac) = true := by simp [h₂, hmode, hstill.2]
  rw [if_neg hawake, h₂]
  exact ⟨⟨tmu, heq⟩, hunits⟩

theorem fireCh_timers (u : Fin 8) (c : Fin 4) (d : Dev) : d.TimersOnly (d.fireCh u c) := (modCh_timers u c _ d).trans (chanEvent_timers u c _)

theorem tmuReset_timers (u : Fin 8) (d : Dev) : d.TimersOnly (d.tmuReset u) := by
  refine modTmu_timers u _ (fun x => ?_) d
  split <;> exact ⟨rfl, rfl⟩

theorem tickUnit_timers (u : Fin 8) (d : Dev) : d.TimersOnly (d.tickUnit u).2 := by
  unfold Dev.tickUnit
  extract_lets t zero d₁
  split
  · exact .refl d
  · have h₁ : d.TimersOnly d₁ := by
      refine modTmu_timers u _ (fun x => ?_) d
      cases zero <;> exact ⟨rfl, rfl⟩
    refine h₁.trans (Dev.TimersOnly.foldl_snd (fun y c => ?_) (List.finRange 4) (if zero then [u.val] else [], d₁))
    split
    · exact fireCh_timers u c _
    · exact .refl _

theorem acceptEdge_timers (u : Fin 8) (c : Fin 4) (rising : Option Bool) (first : Ns) (d : Dev) :
    d.TimersOnly (d.acceptEdge u c rising first).2 := by
  unfold Dev.acceptEdge
  extract_lets d₁ x sel
  have h₁ : d.TimersOnly d₁ := modCh_timers u c _ d
  refine h₁.trans ?_
  split
  · exact .refl d₁
  · split
    · exact modCh_timers u c _ d₁
    · exact (modCh_timers u c _ d₁).trans (chanEvent_timers u c _)

theorem zeroCapture_timers (code : Nat) (d : Dev) : d.TimersOnly (d.zeroCapture code).2 := by
  unfold Dev.zeroCapture
  refine Dev.TimersOnly.foldl_snd (fun x u => Dev.TimersOnly.foldl_snd (fun y c => ?_) _ x) _ ([], d)
  dsimp only
  split
  · exact acceptEdge_timers u c _ _ _
  · exact .refl _

theorem tmuEvents_timers (n : Nat) (codes : List Nat) (d : Dev) : d.TimersOnly (d.tmuEvents n codes) := by
  induction n generalizing codes d with
  | zero => exact .refl d
  | succ n ih =>
    unfold Dev.tmuEvents
    split
    · exact .refl d
    · refine Dev.TimersOnly.trans (Dev.TimersOnly.foldl_snd (fun x code => ?_) codes ([], d)) (ih _ _)
      refine Dev.TimersOnly.trans (Dev.TimersOnly.foldl_snd (fun y w => ?_) (List.finRange 8) x) (zeroCapture_timers code _)
      dsimp only
      split
      · exact .refl _
      · split
        · exact tickUnit_timers w _
        · split
          · exact tmuReset_timers w _
          · exact .refl _

theorem unitEdge_timers (code : Nat) (rising : Bool) (w : Fin 8) (d : Dev) : d.TimersOnly (d.unitEdge code rising w) :=
  .ite (.refl d) (.ite ((tickUnit_timers w d).trans (tmuEvents_timers _ _ _)) (.ite (tmuReset_timers w d) (.refl d)))

theorem pinEdges_timers (n : Nat) (before : List Bool) (d : Dev) : d.TimersOnly (d.pinEdges n before) := by
  induction n generalizing before d with
  | zero => exact .refl d
  | succ n ih =>
    rw [pinEdges_succ]
    refine .ite (.refl d) (Dev.TimersOnly.trans (Dev.TimersOnly.foldl (fun d' i => ?_) _ d) (ih _ _))
    unfold Dev.pinRound
    split
    · exact .ite (.refl d') (.foldl (fun d' w => unitEdge_timers _ _ w d') _ d')
    · exact .refl d'

end

end Sys2Proof.Machine
end

section
/-! The obligation on RESTART and ENTER_SERVICE (R373, R376, R382). -/

namespace Sys2Proof.Machine

open Sys2Proof

/-! ### The hardware fill (R405) -/

/-- Writes of a fill that leaves record memory alone. -/
def fillWrites : List MemOp := [.fill 0 recBase, .fill msgBase sramSize, .clearAttrs]

theorem fillMost_eq (d : Dev) : d.fillMost = { d with writes := d.writes ++ fillWrites } := by
  simp [Dev.fillMost, Dev.write, fillWrites]

/-- Memory after such a fill. -/
structure Mems.FilledFrom (m m' : Mems) : Prop where
  byte : ∀ a, a < sramSize → m'.byte a = if recBase ≤ a ∧ a < msgBase then m.byte a else 0
  attrs : m'.attrs = []

theorem fillWrites_fill (m : Mems) : m.FilledFrom (fillWrites.foldl (fun m w => w.apply m) m) := by
  refine ⟨fun a ha => ?_, MemOp.apply_attrs _ .clearAttrs⟩
  have hbyte : (fillWrites.foldl (fun m w => w.apply m) m).byte a =
      ((MemOp.fill msgBase sramSize).apply ((MemOp.fill 0 recBase).apply m)).byte a := MemOp.apply_byte _ .clearAttrs a
  rw [hbyte, byte_fill, byte_fill]
  have hregions : recBase ≤ msgBase := by decide
  grind

/-! ### RESTART (R351, R373, R376) -/

/-- What a restart keeps and returns. -/
structure Dev.Restarted (d d' : Dev) : Prop where
  writes : d'.writes = d.writes ++ fillWrites
  dtime : d'.dtime = d.dtime
  flt : d'.flt = d.flt.keepFirst
  mode : d'.sup.mode = d.sup.mode
  safeCause : d'.sup.safeCause = d.sup.safeCause
  lastReset : d'.sup.lastReset = 4
  lastDtime : d'.sup.lastDtime = d.now32
  nvi : d'.nvi = { phase := .header true, loadFrom := d.dtime, isRestart := true, sent := probeOf false }
  pos : d'.pos = { keptCycle := if d.pos.everSynced then some d.pos.cycle else d.pos.keptCycle }
  loft : d'.loft = {}
  adm : d'.adm = {}
  stood : d'.recm.stood = some (d.recm.stood.getD d.recm.rings)
  timers : d.pios.dir = 0 → d'.tmu = d.tmu
  units : ∀ u : Fin 8, d'.tmu[u].cfg = d.tmu[u].cfg ∧ d'.tmu[u].running = d.tmu[u].running

theorem restart_restarts (e : Env) {d : Dev} (hmode : d.sup.mode = .safe) : d.Restarted (d.restart e true) := by
  unfold Dev.restart
  extract_lets s ctx n
  generalize hfilled : (n.fillMost.strapped e).selfTest true = n'
  rw [fillMost_eq] at hfilled
  have hn' : n' = { n with writes := d.writes ++ fillWrites, can := n'.can, twp := n'.twp } := by
    rw [← hfilled]
    rfl
  clear_value ctx
  have hstill : n'.sup.mode.still := by
    rw [hn']
    show s.mode.still
    rw [show s.mode = .safe from hmode]
    exact ⟨rfl, by decide⟩
  have hlevels (hdir : d.pios.dir = 0) : n'.pinLevels = d.pinLevels := by
    refine List.map_congr_left fun i _ => ?_
    rw [hn']
    simp [Dev.pinLevel, Dev.tmuPin, Dev.pinChan, n, hdir]
  obtain ⟨⟨tmu, hedges⟩, hunits⟩ := pinEdges_timers 16 d.pinLevels n' hstill
  have hsame (hdir : d.pios.dir = 0) : tmu = d.tmu := by
    have htmu := congrArg Dev.tmu (hedges.symm.trans (pinEdges_still 16 (hlevels hdir)))
    rw [hn'] at htmu
    exact htmu
  rw [hedges] at hunits ⊢
  rw [hn'] at hunits ⊢
  exact ⟨rfl, rfl, rfl, rfl, rfl, rfl, rfl, rfl, rfl, rfl, rfl, rfl, hsame, hunits⟩

theorem restartMay_iff {d : Dev} : d.restartMay = true ↔ d.sup.mode = .safe ∧ (d.flt.valid = false ∨ d.sup.safeCause = 2) := by
  simp [Dev.restartMay]

/-! ### ENTER_SERVICE (R382) -/

theorem serviceMay_iff {p : Path} {d : Dev} : d.serviceMay p = true ↔ d.trusted p = true ∧ d.pos.sync = .stopped ∧ d.sup.stop1s = true ∧
    (d.sup.mode = .waitSync ∨ (d.sup.mode = .safe ∧ d.nvi.valid = true ∧ d.sup.safeCause ≠ 2)) := by
  simp only [Dev.serviceMay, Dev.stopped1s, Bool.and_eq_true, Bool.or_eq_true, beq_iff_eq, bne_iff_ne]
  tauto

theorem Dev.ModeSet.safeCause {m : Mode} {d a : Dev} (h : d.ModeSet m a) : a.sup.safeCause = d.sup.safeCause := by
  obtain ⟨_, _, _, _, _, _, _, _, _, rfl⟩ := h.only
  rfl

/-- Entering SERVICE ends the events and changes the mode. -/
theorem enterService_ends (e : Env) {s : State} {d : Dev} (hroom : s.room [5]) (hengines : s.EnginesOf d) (herrs : d.memu.errs = []) :
    ∃ d₁ : Dev, d₁.ModeSet .service (d.enterService e) ∧ d₁.sup.mode = d.sup.mode ∧ d₁.sup.safeCause = 0 ∧ d₁.pos = d.pos ∧ d₁.flt = d.flt ∧
      d₁.writes = d.writes ∧ d₁.loft = (d.endAllEvents e .endedMode 9).loft := by
  obtain ⟨⟨templates, loft, banks, pfi, ign, gate, honly⟩, -, -⟩ := endAllEvents_ends (e := e) herrs .endedMode 9
  unfold Dev.enterService
  rw [honly]
  exact ⟨_, setMode_engines hroom ⟨hengines.ce, hengines.ces⟩ (by decide), rfl, rfl, rfl, rfl, rfl, rfl⟩

/-- Settles O7: a restart leaves a known device, whose pins move timers alone; SERVICE is entered once every event has ended. -/
theorem restartAndService : Obligations.RestartAndService := by
  unfold Obligations.RestartAndService
  refine ⟨fun s t p hsettled hp => ⟨fun hsafe hmay => ?_, fun hrefused pf af => ?_⟩, fun s t p hclean hroom hp => ?_⟩
  · have hbody : s.after t (fun e d => (d.disarm p).supCmd e p 2 0xC5 true) = ((s.dev.at t).disarm p).restart s.env true :=
      (if_neg (supCmd_key hp)).trans (if_pos (restartMay_iff.mpr ⟨hsafe, hmay⟩))
    have hend := restart_restarts s.env (d := (s.dev.at t).disarm p) hsafe
    obtain ⟨hmerged, hraised⟩ := keepFirst_fresh s.dev.flt
    refine completes_of_after (c := .restart t p 0xC5 true true) rfl hbody (by rw [hend.flt]; exact hraised) fun s' h => ?_
    obtain ⟨x, hnvi⟩ := h.nvi
    have hmems : s.mems.FilledFrom s'.mems := by
      rw [h.mems, hend.writes, show ((s.dev.at t).disarm p).writes = [] from hsettled.2]
      exact fillWrites_fill s.mems
    have hflt : s'.dev.flt.valid = s.dev.flt.valid := by
      rw [h.flt, hend.flt]
      show s.dev.flt.keepFirst.valid = _
      cases hvalid : s.dev.flt.valid with
      | true => exact (keepFirst_valid hvalid).1
      | false => rw [keepFirst_clear hvalid]
    rw [hnvi, h.dtime, h.sup, h.tmu, h.pos, h.loft, h.adm, h.recm, hend.nvi]
    exact ⟨hmems.byte, hmems.attrs, hend.dtime, hend.mode.trans hsafe, hend.safeCause, hend.lastReset, hend.lastDtime, rfl, rfl, rfl,
      hend.timers, hend.units, hend.pos, hend.loft, hend.adm, hflt, hend.stood⟩
  · refine completes_supIgn hsettled p rfl ((if_neg (supCmd_key hp)).trans (if_neg fun h => ?_))
    obtain ⟨hsafe, hmay⟩ := restartMay_iff.mp h
    obtain hmode | ⟨hvalid, hcause⟩ := hrefused
    · exact hmode hsafe
    · exact hmay.elim (fun h => Bool.false_ne_true (h.symm.trans hvalid)) hcause
  · intro may
    refine ⟨fun hmay => ?_, fun hmay => ?_⟩
    · have hbody : s.after t (fun e d => (d.disarm p).supCmd e p 3 0xC5 true) = ((s.dev.at t).disarm p).enterService s.env :=
        (if_neg (supCmd_key hp)).trans (if_pos (serviceMay_iff.mpr hmay))
      obtain ⟨d₁, hset, hmode₁, hcause, hpos₁, hflt₁, hwrites₁, hloft₁⟩ := enterService_ends s.env (d := (s.dev.at t).disarm p) hroom
        ⟨rfl, rfl⟩ hclean.2.1
      obtain ⟨-, hdescrs, hboxes⟩ := endAllEvents_ends (e := s.env) (d := (s.dev.at t).disarm p) hclean.2.1 .endedMode 9
      obtain ⟨hflt, hwrites, hpos, hloft, -⟩ := hset.quiet
      have haway : d₁.sup.mode ≠ .service := by
        rw [hmode₁]
        rintro (h : s.dev.sup.mode = .service)
        simp [may, h] at hmay
      refine completes_of_after (c := .enterService t p 0xC5) rfl hbody (by rw [hflt, hflt₁]; exact hclean.1.2.1) fun s' h => ?_
      rw [h.sup, h.pos, h.loft, h.mems, hwrites, hwrites₁, hpos, hpos₁, hloft, hloft₁]
      refine ⟨hset.mode, (hset.prev haway).trans hmode₁, hset.safeCause.trans hcause, rfl,
        fun b => ⟨(hboxes b).1, (hboxes b).2.1⟩, fun x hx => ?_, by
          show s.dev.writes.foldl _ _ = _
          rw [hclean.1.2.2]
          rfl⟩
      rw [hdescrs] at hx
      obtain ⟨y, -, rfl⟩ := List.mem_map.mp hx
      exact endWith_decided _ y.2
    · exact completes_supIgn hclean.1.2 p rfl ((if_neg (supCmd_key hp)).trans (if_neg fun h => hmay (serviceMay_iff.mp h)))

end Sys2Proof.Machine
end

section
/-! The obligation on the control of faults (R389, R394, R398, R401). -/

namespace Sys2Proof.Machine

open Sys2Proof

/-! ### Several faults of one clock (R395) -/

theorem faultInsert_perm (x : FaultReq) : ∀ l : List FaultReq, (faultInsert x l).Perm (x :: l)
  | [] => .refl _
  | y :: l => by
    unfold faultInsert
    split
    · exact ((faultInsert_perm x l).cons y).trans (.swap x y l)
    · exact .refl _

/-- The order in which the faults of a clock are taken. -/
def faultOrder (l : List FaultReq) : List FaultReq := l.foldl (fun acc x => faultInsert x acc) []

theorem faultOrder_perm (l : List FaultReq) : (faultOrder l).Perm l := by
  have hinto : ∀ l acc : List FaultReq, (l.foldl (fun acc x => faultInsert x acc) acc).Perm (acc ++ l) := by
    intro l
    induction l with
    | nil => exact fun acc => by simp
    | cons x l ih => exact fun acc => (ih _).trans (((faultInsert_perm x acc).append_right l).trans List.perm_middle.symm)
  exact hinto l []

theorem report_counts (r : FaultReq) (d : Dev) : (d.report r).flt.cnt = (d.countFault r.source).flt.cnt := by
  by_cases hcls : srcClass r.source < 2
  · unfold Dev.report
    simp only [hcls, if_true, snapshot_flt]
    split
    · exact congrArg Flt.cnt (present_flt ..)
    · rfl
  · exact (report_flt hcls).2.1

/-- Reports in turn count each source as often as it is named. -/
theorem foldl_report (l : List FaultReq) (hl : ∀ r ∈ l, r.source < 64) : ∀ d : Dev, Noted d (l.foldl (fun d r => d.report r) d) ∧
    ∀ i : Fin 64, (l.foldl (fun d r => d.report r) d).flt.cnt[i] = d.flt.cnt[i] + BitVec.ofNat 32 (l.countP fun r => r.source = i.val) := by
  induction l with
  | nil => exact fun d => ⟨.refl d, fun i => by simp⟩
  | cons r l ih =>
    intro d
    obtain ⟨hsource, hl⟩ := List.forall_mem_cons.mp hl
    obtain ⟨hnoted, hcount⟩ := ih hl (d.report r)
    refine ⟨(noted_report r d).trans hnoted, fun i => ?_⟩
    rw [List.foldl_cons, hcount, report_counts, List.countP_cons]
    unfold Dev.countFault
    rw [dif_pos hsource]
    by_cases hi : r.source = i.val
    · obtain rfl : (⟨r.source, hsource⟩ : Fin 64) = i := Fin.ext hi
      have hone : (upd d.flt.cnt ⟨r.source, hsource⟩ (· + 1))[(⟨r.source, hsource⟩ : Fin 64)] = d.flt.cnt[(⟨r.source, hsource⟩ : Fin 64)] + 1 :=
        upd_same ..
      rw [if_pos (by simp), BitVec.ofNat_add]
      refine (congrArg (· + _) hone).trans ?_
      rw [BitVec.add_assoc, BitVec.add_comm 1]
      rfl
    · have hne : i ≠ ⟨r.source, hsource⟩ := fun h => hi (congrArg Fin.val h).symm
      have hother : (upd d.flt.cnt ⟨r.source, hsource⟩ (· + 1))[i] = d.flt.cnt[i] := upd_other _ _ _ _ hne
      rw [if_neg (by simpa using hi), Nat.add_zero]
      exact congrArg (· + _) hother

/-- Faults whose reactions are to note them are reported, and nothing follows. -/
theorem settle_noted {d : Dev} (e : Env) (h : ∀ r ∈ d.flt.raised, srcClass r.source < 2 ∨ d.reactionOf r = 1) :
    d.settle e = (faultOrder d.flt.raised).foldl (fun d r => d.report r) (d.modFlt fun f => { f with raised := [] }) := by
  by_cases hnone : d.flt.raised = []
  · rw [Dev.settle_quiet hnone, hnone]
    exact (by rw [← hnone] : d = { d with flt := { d.flt with raised := [] } })
  · generalize hl : d.flt.raised = l at h hnone
    have hnoted (l : List FaultReq) : Noted (d.modFlt fun f => { f with raised := [] })
        (l.foldl (fun d r => d.report r) (d.modFlt fun f => { f with raised := [] })) :=
      List.foldlRecOn l _ (Noted.refl _) fun _ h r _ => h.trans (noted_report r _)
    have hround : d.round e = (faultOrder l).foldl (fun d r => d.report r) (d.modFlt fun f => { f with raised := [] }) := by
      unfold Dev.round
      simp only [hl]
      refine reactAll_none e _ _ fun r hr => ?_
      have hreact : ((faultOrder l).foldl (fun d r => d.report r) (d.modFlt fun f => { f with raised := [] })).reactionOf r = d.reactionOf r := by
        unfold Dev.reactionOf
        rw [(hnoted _).react]
        rfl
      refine (h r ((faultOrder_perm l).mem_iff.mp hr)).imp id fun hone => ?_
      rw [show l.foldl (fun acc x => faultInsert x acc) [] = faultOrder l from rfl, hreact, hone]
      exact Nat.one_lt_two
    have hquiet : ((faultOrder l).foldl (fun d r => d.report r) (d.modFlt fun f => { f with raised := [] })).flt.raised = [] := (hnoted _).raised
    have hstep : d.settle e = ((faultOrder l).foldl (fun d r => d.report r) (d.modFlt fun f => { f with raised := [] })).settle e := by
      unfold Dev.settle
      simp only [hl, hround, hquiet, List.isEmpty_iff, hnone, if_true, if_false]
    rw [hstep, Dev.settle_quiet hquiet]

/-! ### Forced faults (R401) -/

/-- Reaction of a forced DIAG: that of class 0 in DIAG_REACT. -/
def Dev.forcedDiag (d : Dev) : Nat := let r := fld d.diag.react 0 2; if r = 0 then 1 else if r = 3 then 5 else r + 1

/-- The fault that FLT_FORCE raises for a source. -/
def Dev.forced (diag : Nat) (d : Dev) (src : Nat) : FaultReq :=
  { source := src, ctrl := forcedCtrl src, coord := d.noEvent, forced := true, react := if src = 11 then some diag else none }

/-- Faults raised, none of which has been acted on. -/
def Dev.raiseAll (l : List FaultReq) (d : Dev) : Dev := { d with flt := { d.flt with raised := d.flt.raised ++ l } }

theorem foldl_forced (diag : Nat) (l : List Nat) : ∀ d : Dev, l.foldl (fun d s => d.raise (d.forced diag s)) d = d.raiseAll (l.map (d.forced diag)) := by
  induction l with
  | nil => exact fun d => by simp [Dev.raiseAll]
  | cons i l ih =>
    intro d
    rw [List.foldl_cons, ih]
    show ({ d with flt := { d.flt with raised := (d.flt.raised ++ [d.forced diag i]) ++ l.map (d.forced diag) } } : Dev) = _
    rw [List.append_assoc]
    rfl

/-- The sources that a value of FLT_FORCE names. -/
def forcedSources (v : W64) : List Nat := (List.range 28).filter fun s => s != 0 && bit v s

section
variable {d : Dev} {p : Path} {v : W64}

theorem isArmed_iff : d.isArmed p = true ↔ ∃ a, (d.ctx p).armedAt = some a ∧ d.dtime < a + 100000 := by
  unfold Dev.isArmed
  cases (d.ctx p).armedAt <;> simp

theorem force_refused (h : ¬(d.sup.mode = .service ∧ ∃ a, (d.ctx p).armedAt = some a ∧ d.dtime < a + 100000)) :
    d.force p v = (d.disarm p).fltIgn := by
  rw [← isArmed_iff] at h
  unfold Dev.force
  rw [if_pos (by
    by_contra hok
    rw [Bool.not_eq_true', Bool.not_eq_false, Bool.and_eq_true, beq_iff_eq] at hok
    exact h hok.symm)]

theorem force_raises (hmode : d.sup.mode = .service) (harmed : ∃ a, (d.ctx p).armedAt = some a ∧ d.dtime < a + 100000) :
    d.force p v = (d.disarm p).raiseAll ((forcedSources v).map ((d.disarm p).forced d.forcedDiag)) := by
  unfold Dev.force
  rw [if_neg (by simp [isArmed_iff.mpr harmed, hmode])]
  exact foldl_forced d.forcedDiag (forcedSources v) (d.disarm p)

theorem forcedSources_spec {v : W64} {i : Nat} : i ∈ forcedSources v ↔ 1 ≤ i ∧ i < 28 ∧ bit v i = true := by
  simp only [forcedSources, List.mem_filter, List.mem_range, Bool.and_eq_true, bne_iff_ne, Nat.one_le_iff_ne_zero]
  tauto

/-- Each source is named once. -/
theorem forcedSources_count (v : W64) (i : Nat) : (forcedSources v).count i = if 1 ≤ i ∧ i < 28 ∧ bit v i = true then 1 else 0 := by
  have hnodup : (forcedSources v).Nodup := List.nodup_range.filter _
  simp only [← forcedSources_spec]
  exact hnodup.count

theorem report_forced {r : FaultReq} (hvalid : d.flt.valid = false) (hcls : ¬srcClass r.source < 2) : (d.report r).flt.forced = r.forced := by
  have hsame : (d.countFault r.source).flt.valid = false := by
    unfold Dev.countFault
    split <;> exact hvalid
  unfold Dev.report
  simp only [hcls, if_false, snapshot_flt]
  generalize d.countFault r.source = x at hsame
  have hcapture (y : Dev) (hy : y.flt.valid = false) (c n : Nat) : (y.capture r c n).flt.forced = r.forced := by
    unfold Dev.capture
    rw [hy, if_neg Bool.false_ne_true]
    simp only [Dev.faultRecord, attn_flt, present_flt, Dev.modFlt]
  split
  · exact hcapture (x.modFlt fun f => { f with noObj := true }) hsame _ _
  · exact hcapture x hsame _ _

end

/-- The first fault forgotten, with what was merged into it. -/
def Flt.forgotten (f : Flt) : Flt :=
  { f with valid := false, source := 0, cls := 0, reaction := 0, detail := 0, ctrl := 0, clsMax := 0, okey := none, forced := false
           time := 0, coord := 0, merged := 0, mergeCnt := 0 }

/-- Objects re-enabled, with the sources that disabled them. -/
def Flt.reenabled (v : W64) (f : Flt) : Flt :=
  { f with dis := f.dis &&& ~~~v, disSrc := f.disSrc.filter fun x => !(match disBit x.1 with | some i => bit v i | none => false) }

theorem srcClass_corrected {i : Nat} (h : 26 ≤ i) : srcClass i < 2 := by
  unfold srcClass
  split
  · omega
  · split
    · omega
    · split <;> decide

theorem srcClass_contained {i : Nat} (hlo : 9 ≤ i) (hhi : i ≤ 25) : srcClass i = 2 := by
  unfold srcClass
  rw [if_neg (by omega), if_pos ⟨hlo, hhi⟩]

section
variable {s : State} (hsettled : s.dev.settled) (t : Ns) (p : Path)
include hsettled

/-- A write through a path that changes the fault unit alone. -/
theorem completes_flt {c : Instr} {body : Env → Dev → Dev} {f : Flt → Flt} (hf : (f s.dev.flt).raised = s.dev.flt.raised)
    (hexec : exec c s = runAt (stampOf c) body s) (hbody : s.after (stampOf c) body = ((s.dev.at (stampOf c)).disarm p).modFlt f) :
    Completes c s fun s' => s'.dev.flt = f s.dev.flt ∧ (s'.dev.ctx p).armedAt = none ∧ s.touches [.flt, .paths] s' := by
  have hraised : (f s.dev.flt).raised = [] := hf.trans hsettled.1
  have honly : (s.dev.at (stampOf c)).ChangesOnly [.flt, .paths] (((s.dev.at (stampOf c)).disarm p).modFlt f) :=
    (Dev.changesOnly_disarm p _).mono.trans (.of _ (flt := .inl (by simp)))
  refine completes_of_after hexec hbody hraised fun s' h => ⟨?_, ?_, ?_⟩
  · exact h.flt.trans (Flt.withoutRaised (f := f s.dev.flt) hraised)
  · exact congrArg PathCtx.armedAt ((congrArg (·[pathIndex p]) h.paths).trans (Dev.ctx_disarm_same p (s.dev.at (stampOf c))))
  · exact h.touches_of_changesOnly hsettled hraised ((s.dev.changesOnly_at _ _).trans honly)

theorem completes_forceKey (v : W64) : Completes (.fltForceKey t p v) s fun s' =>
    (s'.dev.ctx p).armedAt = (if fld v 0 16 = 0xA5C3 then some (s.now t) else none) ∧ s.touches [.paths] s' := by
  refine completes_of_changesOnly (l := [.paths]) hsettled rfl rfl (Dev.changesOnly_modCtx p _ _) fun s' h htouches => ⟨?_, htouches⟩
  exact congrArg PathCtx.armedAt ((congrArg (·[pathIndex p]) h.paths).trans (Dev.ctx_modCtx_same p _ (s.dev.at t)))

theorem completes_firstClear (hmode : s.dev.sup.mode ≠ .locked) : Completes (.firstFaultClear t p) s fun s' =>
    s'.dev.flt.valid = false ∧ s'.dev.flt.source = 0 ∧ s'.dev.flt.merged = 0 ∧ s'.dev.flt.mergeCnt = 0 ∧
    s'.dev.flt.cnt = s.dev.flt.cnt ∧ s'.dev.flt.dis = s.dev.flt.dis ∧ s.touches [.flt, .paths] s' := by
  refine (completes_flt (c := .firstFaultClear t p) (f := Flt.forgotten) hsettled p rfl rfl (if_neg hmode)).imp fun s' hs' => ?_
  obtain ⟨hflt, _, htouches⟩ := hs'
  rw [hflt]
  exact ⟨rfl, rfl, rfl, rfl, rfl, rfl, htouches⟩

theorem completes_disClear (v : W64) : Completes (.fltDisClear t p v) s fun s' =>
    s'.dev.flt.dis = s.dev.flt.dis &&& ~~~v ∧ s'.dev.flt.valid = s.dev.flt.valid ∧ s'.dev.flt.cnt = s.dev.flt.cnt ∧
    s.touches [.flt, .paths] s' := by
  refine (completes_flt (c := .fltDisClear t p v) (f := Flt.reenabled v) hsettled p rfl rfl rfl).imp fun s' hs' => ?_
  obtain ⟨hflt, _, htouches⟩ := hs'
  rw [hflt]
  exact ⟨rfl, rfl, rfl, htouches⟩

/-- What FLT_FORCE names through an armed path in SERVICE is counted, where every reaction is to note it. -/
theorem completes_force {v : W64} (hmode : s.dev.sup.mode = .service) (harmed : ∃ a, (s.dev.ctx p).armedAt = some a ∧ s.now t < a + 100000)
    (hsources : ∀ i, 1 ≤ i → i < 28 → bit v i = true → 26 ≤ i ∨ (9 ≤ i ∧ i ≠ 11 ∧ s.onlyNoted i)) : Completes (.fltForce t p v) s fun s' =>
      (s'.dev.ctx p).armedAt = none ∧ s'.dev.sup = s.dev.sup ∧ ∀ i : Fin 64, s'.dev.flt.cnt[i] =
        if 1 ≤ i.val ∧ i.val < 28 ∧ bit v i.val = true then s.dev.flt.cnt[i] + 1 else s.dev.flt.cnt[i] := by
  have hbody : s.after t (fun _ d => d.force p v) = _ := force_raises (d := s.dev.at t) hmode harmed
  generalize hreqs : (forcedSources v).map (((s.dev.at t).disarm p).forced (s.dev.at t).forcedDiag) = reqs at hbody
  have hraised : (((s.dev.at t).disarm p).raiseAll reqs).flt.raised = reqs := by
    show s.dev.flt.raised ++ reqs = reqs
    rw [hsettled.1, List.nil_append]
  have hreq {r : FaultReq} (hr : r ∈ reqs) : ∃ i ∈ forcedSources v, r.source = i ∧ (i ≠ 11 → r.react = none) := by
    obtain ⟨i, hi, rfl⟩ := List.mem_map.mp (hreqs ▸ hr)
    exact ⟨i, hi, rfl, fun h => if_neg h⟩
  have hnoted : ∀ r ∈ (((s.dev.at t).disarm p).raiseAll reqs).flt.raised, srcClass r.source < 2 ∨
      (((s.dev.at t).disarm p).raiseAll reqs).reactionOf r = 1 := by
    rw [hraised]
    intro r hr
    obtain ⟨i, hi, rfl, hreact⟩ := hreq hr
    obtain ⟨hlo, hhi, hbit⟩ := forcedSources_spec.mp hi
    by_cases hcls : 26 ≤ r.source
    · exact .inl (srcClass_corrected hcls)
    · obtain ⟨hnine, hdiag, hone⟩ := (hsources _ hlo hhi hbit).resolve_left hcls
      refine .inr ?_
      unfold Dev.reactionOf
      rw [hreact hdiag]
      dsimp only
      rw [srcClass_contained hnine (by omega), if_neg (by decide), if_neg (by decide)]
      exact congrArg (·.getD 1) hone
  refine completes_of_settled (c := .fltForce t p v) rfl hbody (settle_noted s.env hnoted) fun s' h => ?_
  rw [hraised] at h
  have hsmall : ∀ r ∈ faultOrder reqs, r.source < 64 := by
    intro r hr
    obtain ⟨i, hi, rfl, -⟩ := hreq ((faultOrder_perm reqs).mem_iff.mp hr)
    have := forcedSources_spec.mp hi
    omega
  obtain ⟨hkept, hcount⟩ := foldl_report (faultOrder reqs) hsmall ((((s.dev.at t).disarm p).raiseAll reqs).modFlt fun f => { f with raised := [] })
  refine ⟨?_, h.sup.trans hkept.sup, fun i => ?_⟩
  · exact congrArg PathCtx.armedAt ((congrArg (·[pathIndex p]) (h.paths.trans hkept.paths)).trans (Dev.ctx_disarm_same p (s.dev.at t)))
  · have hnamed : (faultOrder reqs).countP (fun r => r.source = i.val) = if 1 ≤ i.val ∧ i.val < 28 ∧ bit v i.val = true then 1 else 0 := by
      rw [(faultOrder_perm reqs).countP_eq, ← hreqs, List.countP_map, ← forcedSources_count v i.val, List.count]
      rfl
    rw [h.flt]
    refine (hcount i).trans ?_
    rw [hnamed]
    split
    · rfl
    · exact BitVec.add_zero _

end

/-- Settles O13: what FLT_FORCE names is raised in one clock, where each source is named once; the faults are then only noted. -/
theorem faultControl : Obligations.FaultControl := by
  unfold Obligations.FaultControl
  refine ⟨fun s t p v hsettled hrests => ⟨?_, fun hmode harmed hsources => ?_, fun hmode => ?_, ?_⟩, fun s t p v hsettled => ⟨?_, ?_, ?_, ?_, ?_, ?_⟩⟩
  · obtain ⟨s', hexec, h⟩ := completes_forceKey hsettled t p v
    exact ⟨s', hexec, (h hrests).1⟩
  · obtain ⟨s', hexec, h⟩ := completes_force hsettled t p hmode harmed hsources
    exact ⟨s', hexec, h hrests⟩
  · obtain ⟨s', hexec, h⟩ := completes_firstClear hsettled t p hmode
    exact ⟨s', hexec, (h hrests).1, (h hrests).2.2.1⟩
  · obtain ⟨s', hexec, h⟩ := completes_disClear hsettled t p v
    exact ⟨s', hexec, (h hrests).1⟩
  · exact completes_forceKey hsettled t p v
  · exact fun hrefused => completes_flt (c := .fltForce t p v) (f := fun f => { f with cfgIgn := true }) hsettled p rfl rfl
      (force_refused (d := s.dev.at t) hrefused)
  · intro a hmode harmed hlate hnoted
    have hbody : s.after t (fun _ d => d.force p 0x4000) = _ := force_raises (d := s.dev.at t) hmode ⟨a, harmed, hlate⟩
    have hone : (forcedSources 0x4000) = [14] := by decide
    rw [hone] at hbody
    refine completes_of_raise (c := .fltForce t p 0x4000) (d := (s.dev.at t).disarm p) (src := 14) (l := [.paths]) rfl hbody hsettled rfl rfl rfl
      rfl rfl hnoted ((Dev.changesOnly_disarm p _).parts s · ·) fun s' h hreported htouches => ?_
    have hnote := noted_report (((s.dev.at t).disarm p).forced (s.dev.at t).forcedDiag 14) ((s.dev.at t).disarm p)
    refine ⟨hreported, ?_, fun hvalid => ?_, h.sup.trans hnote.sup, htouches.mono (by simp)⟩
    · exact congrArg PathCtx.armedAt ((congrArg (·[pathIndex p]) (h.paths.trans hnote.paths)).trans (Dev.ctx_disarm_same p (s.dev.at t)))
    · rw [h.flt]
      exact report_forced hvalid (show ¬srcClass 14 < 2 by decide)
  · exact completes_firstClear hsettled t p
  · exact fun hlocked => (completes_flt (c := .firstFaultClear t p) (f := fun f => { f with cfgIgn := true }) hsettled p rfl rfl (if_pos hlocked)).imp
      fun s' h => ⟨h.1, h.2.2⟩
  · exact completes_disClear hsettled t p v

end Sys2Proof.Machine
end

section
/-! The obligation on the protection of memory: the scrubber and the memory test (R404, R406, R409). -/

namespace Sys2Proof.Machine

open Sys2Proof

/-! ### One word in every bank (R406) -/

/-- A bank whose scrubber goes on to its next word. -/
def MemBank.scrubbed (words : Nat) (m : MemBank) : MemBank :=
  if m.idx + 1 < words then { m with idx := m.idx + 1 } else { m with idx := 0, passes := m.passes + 1 }

/-- Words of a bank. -/
def wordsOf (b : Fin 17) : Nat := (bankWords[b.val]?).getD 1

/-- The physical banks of the memories, as the scrubber leaves them. -/
def Dev.banked (v : Vector MemBank 17) (d : Dev) : Dev := { d with memu := { d.memu with banks := v } }

section
variable {d : Dev} {b : Fin 17}

theorem wordStatus_away {l : List Upset} (h : ∀ u ∈ l, u.bank ≠ b) (w : Nat) (herrs : d.memu.errs = l) : d.wordStatus b.val w = (0, 0) := by
  unfold Dev.wordStatus
  rw [herrs]
  refine foldl_still l fun u hu => ?_
  exact if_neg fun hbank => h u hu (Fin.ext hbank.1)

/-- A bank without a wrong bit. -/
theorem scrubBank_good (e : Env) (h : ∀ u ∈ d.memu.errs, u.bank ≠ b) :
    d.scrubBank e b = d.banked (upd d.memu.banks b (MemBank.scrubbed (wordsOf b))) := by
  unfold Dev.scrubBank
  simp only [wordStatus_away h _ rfl]
  unfold Dev.modMemBank
  rw [dif_pos b.isLt]
  refine congrArg (fun v => d.banked v) (upd_congr ?_)
  rfl

theorem scrubBanks_good (e : Env) : ∀ (l : List (Fin 17)), l.Nodup → ∀ d : Dev, (∀ u ∈ d.memu.errs, ∀ b ∈ l, u.bank ≠ b) →
    ∃ v, l.foldl (fun d b => d.scrubBank e b) d = d.banked v ∧ ∀ b : Fin 17, v[b] =
      if b ∈ l then d.memu.banks[b].scrubbed (wordsOf b) else d.memu.banks[b]
  | [], _, d, _ => ⟨d.memu.banks, rfl, fun b => by simp⟩
  | b :: l, hnodup, d, herrs => by
    obtain ⟨haway, hnodup⟩ := List.nodup_cons.mp hnodup
    rw [List.foldl_cons, scrubBank_good e fun u hu => herrs u hu b List.mem_cons_self]
    obtain ⟨v, hfold, hv⟩ := scrubBanks_good e l hnodup (d.banked (upd d.memu.banks b (MemBank.scrubbed (wordsOf b))))
      fun u hu c hc => herrs u hu c (List.mem_cons_of_mem _ hc)
    refine ⟨v, hfold, fun c => (hv c).trans ?_⟩
    by_cases hc : c = b
    · subst hc
      rw [if_neg haway, if_pos List.mem_cons_self]
      exact upd_same ..
    · have hother : (d.banked (upd d.memu.banks b (MemBank.scrubbed (wordsOf b)))).memu.banks[c] = d.memu.banks[c] := upd_other _ _ _ _ hc
      rw [hother]
      simp [List.mem_cons, hc]

/-- A word with one wrong bit. -/
theorem wordStatus_one {u : Upset} (hone : popcount u.flips.toNat 13 = 1) (herrs : d.memu.errs = [u]) :
    d.wordStatus u.bank.val u.word = (1, u.byte.val) := by
  have hstatus : byteStatus u.flips false = 1 := by simp [byteStatus, hone]
  unfold Dev.wordStatus
  simp [herrs, hstatus]

theorem scrubbed_ce (n : Nat) (m : MemBank) : (m.scrubbed n).ce = m.ce := by
  unfold MemBank.scrubbed
  split <;> rfl

/-- The correction of a word in a bank, as it is reported. -/
def Dev.corrects (b : Fin 17) (d : Dev) : FaultReq := { source := 27, detail := b.val, ctrl := ctrl 0 3 b.val, coord := d.noEvent }

/-- A bank whose next word has one wrong bit: corrected, written back, and reported. -/
theorem scrubBank_corrects (e : Env) {u : Upset} (hone : popcount u.flips.toNat 13 = 1) (herrs : d.memu.errs = [u])
    (hidx : d.memu.banks[u.bank].idx = u.word) : ∃ lastCe v r, d.scrubBank e u.bank =
      ({ d with memu := { d.memu with errs := [], ce := d.memu.ce + 1, lastCe := lastCe, banks := v } }).raise r ∧ r.source = 27 ∧
      v[u.bank].ce = d.memu.banks[u.bank].ce + 1 := by
  have hgone : d.memu.errs.filter (fun x => x.bank.val != u.bank.val || x.word != u.word) = [] := by simp [herrs]
  have hcorrect : d.corrected u.bank.val u.word u.byte.val true = (({ d with memu := { d.memu with
      errs := [], ce := d.memu.ce + 1, lastCe := d.lastWord u.bank.val u.word u.byte.val false true } } : Dev).banked
        (upd d.memu.banks u.bank fun m => { m with ce := m.ce + 1 })).raise (d.corrects u.bank) := by
    unfold Dev.corrected Dev.modMemBank Dev.clearWordErrs
    simp only [u.bank.isLt, dif_pos, Fin.eta, hgone]
    rfl
  unfold Dev.scrubBank
  simp only [hidx, wordStatus_one hone herrs, hcorrect]
  unfold Dev.modMemBank
  rw [dif_pos u.bank.isLt]
  refine ⟨d.lastWord u.bank.val u.word u.byte.val false true,
    upd (upd d.memu.banks u.bank fun m => { m with ce := m.ce + 1 }) u.bank (MemBank.scrubbed (wordsOf u.bank)), d.corrects u.bank,
    ?_, rfl, (congrArg MemBank.ce (upd_same ..)).trans ((scrubbed_ce (wordsOf u.bank) _).trans (congrArg MemBank.ce (upd_same ..)))⟩
  have hsame : (upd d.memu.banks u.bank fun m => { m with ce := m.ce + 1 })[u.bank].idx = u.word := (congrArg MemBank.idx (upd_same ..)).trans hidx
  have hnext : upd (upd d.memu.banks u.bank fun m => { m with ce := m.ce + 1 }) u.bank (fun m =>
      if u.word + 1 < (bankWords[u.bank.val]?).getD 1 then { m with idx := u.word + 1 } else { m with idx := 0, passes := m.passes + 1 }) =
      upd (upd d.memu.banks u.bank fun m => { m with ce := m.ce + 1 }) u.bank (MemBank.scrubbed (wordsOf u.bank)) := by
    refine upd_congr ?_
    unfold MemBank.scrubbed
    rw [hsame]
    rfl
  exact congrArg (fun v => (({ d with memu := { d.memu with
      errs := [], ce := d.memu.ce + 1, lastCe := d.lastWord u.bank.val u.word u.byte.val false true } } : Dev).banked v).raise (d.corrects u.bank)) hnext

/-- SCRUB_STEP over undamaged memory. -/
theorem scrub_good (e : Env) (hfilled : d.sup.filled = true) (herrs : d.memu.errs = []) : ∃ v, d.scrub e [] = d.banked v ∧
    ∀ b : Fin 17, v[b] = d.memu.banks[b].scrubbed (wordsOf b) := by
  obtain ⟨v, hfold, hv⟩ := scrubBanks_good e (List.finRange 17) (List.nodup_finRange 17) d (by simp [herrs])
  unfold Dev.scrub
  rw [if_pos hfilled]
  exact ⟨v, hfold, fun b => (hv b).trans (if_pos (List.mem_finRange b))⟩

/-- SCRUB_STEP that meets one wrong bit. -/
theorem scrub_corrects (e : Env) {u : Upset} (hfilled : d.sup.filled = true) (herrs : d.memu.errs = []) (hone : popcount u.flips.toNat 13 = 1)
    (hidx : u.word = d.memu.banks[u.bank].idx) : ∃ lastCe v r, d.scrub e [u] =
      ({ d with memu := { d.memu with errs := [], ce := d.memu.ce + 1, lastCe := lastCe, banks := v } }).raise r ∧ r.source = 27 ∧
      v[u.bank].ce = d.memu.banks[u.bank].ce + 1 := by
  have hflips : u.flips ≠ 0 := by
    intro h
    simp [h, popcount] at hone
  obtain ⟨l₁, l₂, hsplit⟩ := List.append_of_mem (List.mem_finRange u.bank)
  have hnodup : (l₁ ++ u.bank :: l₂).Nodup := hsplit ▸ List.nodup_finRange 17
  obtain ⟨hnodup₁, hnodup₂, hdisjoint⟩ := List.nodup_append.mp hnodup
  obtain ⟨haway₂, hnodup₂⟩ := List.nodup_cons.mp hnodup₂
  have haway₁ : u.bank ∉ l₁ := fun h => hdisjoint _ h _ List.mem_cons_self rfl
  obtain ⟨v₁, hfold₁, hv₁⟩ := scrubBanks_good e l₁ hnodup₁ { d with memu := { d.memu with errs := [u] } }
    fun x hx b hb => by
      rw [List.mem_singleton.mp hx]
      exact fun h => haway₁ (h ▸ hb)
  have hv₁u : v₁[u.bank] = d.memu.banks[u.bank] := (hv₁ u.bank).trans (if_neg haway₁)
  obtain ⟨lastCe, v₂, r, hcorrect, hsource, hce⟩ := scrubBank_corrects e (d := ({ d with memu := { d.memu with errs := [u] } } : Dev).banked v₁)
    hone rfl ((congrArg MemBank.idx hv₁u).trans hidx.symm)
  obtain ⟨v₃, hfold₃, hv₃⟩ := scrubBanks_good e l₂ hnodup₂
    (({ d with memu := { d.memu with errs := [], ce := d.memu.ce + 1, lastCe := lastCe, banks := v₂ } } : Dev).raise r) (by simp [Dev.raise])
  refine ⟨lastCe, v₃, r, ?_, hsource, ?_⟩
  · unfold Dev.scrub
    rw [herrs]
    rw [show [u].foldl (fun acc u => addUpset u acc) [] = [u] from if_neg hflips, if_pos hfilled, hsplit, List.foldl_append, hfold₁,
      List.foldl_cons, hcorrect]
    exact hfold₃
  · rw [hv₃, if_neg haway₂]
    exact hce.trans (congrArg (·.ce + 1) hv₁u)

end

end Sys2Proof.Machine
end

section
/-! The memory test (R404, R409), and the obligation on the protection of memory. -/

namespace Sys2Proof.Machine

open Sys2Proof

/-! ### Words made of fields of one width -/

/-- A word whose fields of `w` bits are `f 0` to `f (n - 1)`. -/
def fields (w n : Nat) (f : Nat → Nat) : W64 := (List.range n).foldl (init := 0) fun a i => a ||| put (w * i) w (f i)

theorem fields_succ (w n : Nat) (f : Nat → Nat) : fields w (n + 1) f = fields w n f ||| put (w * n) w (f n) := by
  simp [fields, List.range_succ]

theorem fld_fields_above {w n j : Nat} (f : Nat → Nat) (h : n ≤ j) : fld (fields w n f) (w * j) w = 0 := by
  induction n with
  | zero => simp [fields, fld]
  | succ n ih =>
    have hdisjoint : w * n + w ≤ w * j := by
      rw [← Nat.mul_succ]
      exact Nat.mul_le_mul_left w h
    rw [fields_succ, fld_or, ih (by omega), fld_put_disjoint (.inl hdisjoint)]
    rfl

theorem fld_fields {w n j : Nat} (f : Nat → Nat) (h : j < n) (hw : w * n ≤ 64) : fld (fields w n f) (w * j) w = f j % 2 ^ w := by
  induction n with
  | zero => omega
  | succ n ih =>
    rw [Nat.mul_succ] at hw
    rw [fields_succ, fld_or]
    obtain hj | rfl := Nat.lt_succ_iff_lt_or_eq.mp h
    · have hdisjoint : w * j + w ≤ w * n := by
        rw [← Nat.mul_succ]
        exact Nat.mul_le_mul_left w hj
      rw [ih hj (by omega), fld_put_disjoint (.inr hdisjoint), Nat.or_zero]
    · rw [fld_fields_above f le_rfl, fld_put_same hw, Nat.zero_or]

/-- A word is its eight bytes. -/
theorem fields_bytes (v : W64) : fields 8 8 (fun i => fld v (8 * i) 8) = v := by
  refine BitVec.eq_of_getLsbD_eq fun i hi => ?_
  have hbyte : (fld (fields 8 8 fun i => fld v (8 * i) 8) (8 * (i / 8)) 8).testBit (i % 8) = (fld v (8 * (i / 8)) 8).testBit (i % 8) := by
    rw [fld_fields _ (by omega) (by omega), show fld v (8 * (i / 8)) 8 % 2 ^ 8 = fld v (8 * (i / 8)) 8 from Nat.mod_mod ..]
  simpa [testBit_fld, Nat.mod_lt, Nat.div_add_mod] using hbyte

theorem fields_congr {w n : Nat} {f g : Nat → Nat} (h : ∀ i < n, f i = g i) : fields w n f = fields w n g :=
  List.foldl_ext _ _ _ fun a i hi => by rw [h i (List.mem_range.mp hi)]

theorem fields_zero (w n : Nat) : fields w n (fun _ => 0) = 0 := by
  induction n with
  | zero => rfl
  | succ n ih => simp [fields_succ, ih, put]

/-! ### Test words (R404) -/

theorem fives_eq (f : Nat → BitVec 5) : fives f = (fields 5 12 fun i => (f i).toNat, fields 5 4 fun i => (f (12 + i)).toNat) := rfl

theorem bytes8_eq (f : Nat → Byte) (lo : Nat) : bytes8 f lo = fields 8 8 fun i => (f (lo + i)).toNat := rfl

/-- The check bits of a word are those laid out in it. -/
theorem chk_fives (x : TestWord) (f : Nat → BitVec 5) (h : x.c0 = (fives f).1 ∧ x.c1 = (fives f).2) (j : Fin 16) : x.chk j.val = f j.val := by
  obtain ⟨hc0, hc1⟩ := h
  have hsmall (y : BitVec 5) : BitVec.ofNat 5 (y.toNat % 2 ^ 5) = y := by rw [Nat.mod_eq_of_lt y.isLt, BitVec.ofNat_toNat, BitVec.setWidth_eq]
  unfold TestWord.chk
  rw [hc0, hc1, fives_eq]
  split
  · next hj => rw [fld_fields _ hj (by omega), hsmall]
  · next hj =>
    rw [fld_fields (j := j.val - 12) _ (by omega) (by omega), hsmall]
    congr 1
    omega

/-- The bytes of a test word, laid out, are its data. -/
theorem bytes8_word (x : TestWord) : bytes8 x.byte 0 = x.d0 ∧ bytes8 x.byte 8 = x.d1 := by
  have hbyte {i : Nat} (hi : i < 8) : (x.byte (0 + i)).toNat = fld x.d0 (8 * i) 8 ∧ (x.byte (8 + i)).toNat = fld x.d1 (8 * i) 8 := by
    have hlt (v : W64) : fld v (8 * i) 8 < 256 := Nat.mod_lt _ (by decide)
    exact ⟨by simpa [TestWord.byte, hi] using hlt x.d0, by simpa [TestWord.byte] using hlt x.d1⟩
  rw [bytes8_eq, bytes8_eq]
  exact ⟨(fields_congr fun i hi => (hbyte hi).1).trans (fields_bytes x.d0), (fields_congr fun i hi => (hbyte hi).2).trans (fields_bytes x.d1)⟩

/-- A byte that is as coded is delivered as it is. -/
theorem testByte_good {x : TestWord} {w i : Nat} (h : x.chk i = checkBits (x.byte i) (wordParity w)) : testByte x w i false = (x.byte i, 0, 0) := by
  simp [testByte, h]

/-! ### The commands -/

/-- The data registers with their check registers, as a raw write takes them. -/
def MemU.raw (m : MemU) : TestWord := { d0 := m.d0, d1 := m.d1, c0 := m.c0, c1 := m.c1 }

/-- The data registers as coded for a test word (R404). -/
def MemU.coded (w : Nat) (m : MemU) : TestWord :=
  let y : TestWord := { d0 := m.d0, d1 := m.d1 }
  let c := fives fun j => checkBits (y.byte j) (wordParity w)
  { y with c0 := c.1, c1 := c.2 }

theorem chk_coded (w : Nat) (m : MemU) (j : Fin 16) : (m.coded w).chk j.val = checkBits ((m.coded w).byte j.val) (wordParity w) :=
  chk_fives (m.coded w) (fun j => checkBits (({ d0 := m.d0, d1 := m.d1 } : TestWord).byte j) (wordParity w)) ⟨rfl, rfl⟩ j

/-- A test word replaced. -/
def MemU.tested (ctrl : W64) (f : MemU → TestWord) (i : Fin 16) (m : MemU) : MemU :=
  { m with ctrl := ctrl, test := upd m.test i fun _ => f m }

/-- A test word delivered without a wrong bit. -/
def MemU.delivered (ctrl : W64) (i : Fin 16) (m : MemU) : MemU :=
  { m with ctrl := ctrl, d0 := m.test[i].d0, d1 := m.test[i].d1, c0 := m.test[i].c0, c1 := m.test[i].c1, syn0 := 0, syn1 := 0, res := 0 }

section
variable {d : Dev} {w : Fin 16} {flip : Bool}

theorem memTest_refused (hmode : d.sup.mode ≠ .service) (op : Nat) : d.memTest false op w.val flip = d.memIgn := if_pos (by simp [hmode])

variable (hmode : d.sup.mode = .service)
include hmode

theorem memTest_raw : d.memTest false 2 w.val flip = d.modMem (MemU.tested (put 2 4 w.val ||| putB 6 flip)
    MemU.raw w) := by
  unfold Dev.memTest
  rw [if_neg (by simp [hmode])]
  exact congrArg (fun i => d.modMem (MemU.tested (put 2 4 w.val ||| putB 6 flip) MemU.raw i)) (Fin.ofNat_val_eq_self w)

theorem memTest_coded : d.memTest false 1 w.val flip = d.modMem (MemU.tested (put 2 4 w.val ||| putB 6 flip)
    (MemU.coded w.val) w) := by
  unfold Dev.memTest
  rw [if_neg (by simp [hmode])]
  exact congrArg (fun i => d.modMem (MemU.tested (put 2 4 w.val ||| putB 6 flip) (MemU.coded w.val) i)) (Fin.ofNat_val_eq_self w)

theorem memTest_read (hgood : ∀ j : Fin 16, d.memu.test[w].chk j.val = checkBits (d.memu.test[w].byte j.val) (wordParity w.val)) :
    d.memTest false 3 w.val false = d.modMem (MemU.delivered (put 2 4 w.val ||| putB 6 false) w) := by
  unfold Dev.memTest
  rw [if_neg (by simp [hmode])]
  extract_lets i d' m y c x r syn
  have hw : i = w := Fin.ofNat_val_eq_self w
  have hx : x = d.memu.test[w] := congrArg (d.memu.test[·]) hw
  have hr {j : Nat} (hj : j < 16) : r j = (x.byte j, 0, 0) := testByte_good (by rw [hx]; exact hgood ⟨j, hj⟩)
  have hdata : bytes8 (fun j => (r j).1) 0 = x.d0 ∧ bytes8 (fun j => (r j).1) 8 = x.d1 := by
    have hsame {lo : Nat} (hlo : lo ≤ 8) : bytes8 (fun j => (r j).1) lo = bytes8 x.byte lo :=
      fields_congr fun k hk => by dsimp only; rw [hr (by omega)]
    rw [hsame (by decide), hsame le_rfl]
    exact bytes8_word x
  have hsyn : syn = (0, 0) := by
    have hzero {lo n : Nat} (h : lo + n ≤ 16) : fields 5 n (fun i => (r (lo + i)).2.1.toNat) = 0 :=
      (fields_congr fun k hk => by rw [hr (by omega)]; rfl).trans (fields_zero 5 n)
    have hlow : fields 5 12 (fun i => (r i).2.1.toNat) = 0 := by simpa using hzero (lo := 0) (n := 12) (by decide)
    exact Prod.ext hlow (hzero (by decide))
  have hres : (List.range 16).foldl (init := 0) (fun a j => a + (r j).2.2 * 4 ^ j) = 0 :=
    foldl_still _ fun j hj => by rw [hr (List.mem_range.mp hj), Nat.zero_mul]
  simp only [hdata, hsyn, hres, hx]
  rfl

end

/-! ### Faults that memory protection corrects (R389, R397) -/

/-- A corrected fault is counted and recorded, and nothing follows. -/
theorem settle_corrected {d : Dev} {r : FaultReq} (e : Env) (hraised : d.flt.raised = []) (hcls : srcClass r.source < 2) :
    (d.raise r).settle e = d.report r := by
  have hone : (d.raise r).flt.raised = [r] := congrArg (· ++ [r]) hraised
  have hcleared : ((d.raise r).modFlt fun f => { f with raised := [] }) = d := by
    conv_rhs => rw [show d = { d with flt := { d.flt with raised := [] } } by rw [← hraised]]
    rfl
  rw [settle_one hone e (.inl hcls), hcleared]

/-- A corrected fault is no first fault. -/
theorem report_unlatched {r : FaultReq} (hcls : srcClass r.source < 2) (d : Dev) : (d.report r).flt.valid = d.flt.valid := by
  have hcount : (d.countFault r.source).flt.valid = d.flt.valid := by
    unfold Dev.countFault
    split <;> rfl
  unfold Dev.report
  simp only [hcls, if_true, snapshot_flt]
  split
  · exact (congrArg Flt.valid (present_flt ..)).trans hcount
  · exact hcount

section
variable {s : State} (hsettled : s.dev.settled) (p : Path)
include hsettled

/-- A write through a path that changes the registers of memory protection alone. -/
theorem completes_memu {c : Instr} {body : Env → Dev → Dev} (f : MemU → MemU) (hexec : exec c s = runAt (stampOf c) body s)
    (hbody : s.after (stampOf c) body = ((s.dev.at (stampOf c)).disarm p).modMem f) :
    Completes c s fun s' => (∃ x, s'.dev.memu = { f s.dev.memu with errs := x }) ∧ s.touches [.memu, .paths] s' :=
  completes_of_changesOnly (l := [.memu, .paths]) hsettled hexec hbody
    ((Dev.changesOnly_disarm p _).mono.trans (.of _ (memu := .inl (by simp)))) fun _ h htouches => ⟨h.memu, htouches⟩

end

/-- Settles O14: undamaged banks move on one by one, a wrong bit splits their round in two; the test registers are laid out in fields. -/
theorem memoryProtection : Obligations.MemoryProtection := by
  unfold Obligations.MemoryProtection
  refine ⟨fun s t hclean hfilled => ?_, fun s t u hclean hfilled hone hidx => ?_, fun s t p w flip hsettled hmode => ⟨?_, ?_, fun hgood => ?_⟩,
    fun s t p w flip hsettled hmode => ?_⟩
  · obtain ⟨v, hscrub, hv⟩ := scrub_good s.env (d := s.dev.at t) hfilled hclean.2.1
    refine completes_of_changesOnly (c := .scrubStep t []) (l := [.memu]) hclean.1.2 rfl hscrub (.of _ (memu := .inl (by simp)))
      fun s' h htouches => ?_
    rw [h.clean hclean.2.1]
    exact ⟨hv, hclean.2.1, rfl, htouches⟩
  · obtain ⟨lastCe, v, r, hscrub, hsource, hce⟩ := scrub_corrects s.env (d := s.dev.at t) hfilled hclean.2.1 hone hidx
    generalize hd : ({ s.dev.at t with memu := { (s.dev.at t).memu with
      errs := [], ce := (s.dev.at t).memu.ce + 1, lastCe := lastCe, banks := v } } : Dev) = d at hscrub
    have hmemu : d.memu = { s.dev.memu with errs := [], ce := s.dev.memu.ce + 1, lastCe := lastCe, banks := v } := by rw [← hd]; rfl
    have hflt : d.flt = s.dev.flt := by rw [← hd]; rfl
    have hwrites : d.writes = [] := by rw [← hd]; exact hclean.1.2.2
    have hcls : srcClass r.source < 2 := by rw [hsource]; decide
    refine completes_of_settled (c := .scrubStep t [u]) rfl hscrub (settle_corrected s.env (by rw [hflt]; exact hclean.1.2.1) hcls) fun s' h => ?_
    have hnote := noted_report r d
    have hmemu' : s'.dev.memu = d.memu := (h.clean (by rw [hnote.memu, hmemu])).trans hnote.memu
    have hcnt : s'.dev.flt.cnt[(27 : Fin 64)] = s.dev.flt.cnt[(27 : Fin 64)] + 1 := by
      rw [h.flt]
      show (d.report r).flt.cnt[(27 : Fin 64)] = _
      rw [report_counts, hsource, ← hflt]
      exact countFault_cnt d 27
    have hvalid : s'.dev.flt.valid = s.dev.flt.valid := by
      rw [h.flt, ← hflt]
      exact report_unlatched hcls d
    have hmems : s'.mems = s.mems := by
      rw [h.mems, hnote.writes, hwrites]
      rfl
    rw [hmemu', hmemu]
    exact ⟨rfl, rfl, rfl, hce, hcnt, hvalid, hmems⟩
  · refine (completes_memu (c := .memTestWriteRaw t p w flip) hsettled p _ rfl (memTest_raw hmode)).imp fun s' hs' => ?_
    obtain ⟨⟨x, hmemu⟩, htouches⟩ := hs'
    rw [hmemu]
    exact ⟨upd_same .., fun j hj => upd_other _ _ _ _ hj, htouches⟩
  · refine (completes_memu (c := .memTestWriteCoded t p w flip) hsettled p _ rfl (memTest_coded hmode)).imp fun s' hs' => ?_
    obtain ⟨⟨x, hmemu⟩, htouches⟩ := hs'
    have htest : s'.dev.memu.test[w] = s.dev.memu.coded w.val := by
      rw [hmemu]
      exact upd_same ..
    rw [htest]
    exact ⟨rfl, rfl, chk_coded w.val s.dev.memu, htouches⟩
  · refine (completes_memu (c := .memTestRead t p w false) hsettled p _ rfl (memTest_read hmode hgood)).imp fun s' hs' => ?_
    obtain ⟨⟨x, hmemu⟩, htouches⟩ := hs'
    rw [hmemu]
    exact ⟨rfl, rfl, rfl, rfl, rfl, rfl, htouches⟩
  · have hrefused {c : Instr} {body : Env → Dev → Dev} (hexec : exec c s = runAt (stampOf c) body s)
        (hbody : s.after (stampOf c) body = ((s.dev.at (stampOf c)).disarm p).memIgn) :
        Completes c s fun s' => s'.dev.memu.cfgIgn = true ∧ s'.dev.memu.test = s.dev.memu.test ∧ s.touches [.memu, .paths] s' :=
      (completes_memu hsettled p _ hexec hbody).imp fun s' ⟨⟨x, hmemu⟩, htouches⟩ => by
        rw [hmemu]
        exact ⟨rfl, rfl, htouches⟩
    intro i hi
    simp only [List.mem_cons, List.not_mem_nil, or_false] at hi
    obtain rfl | rfl | rfl := hi
    · exact hrefused (c := .memTestWriteCoded t p w flip) rfl (memTest_refused (d := (s.dev.at t).disarm p) hmode 1)
    · exact hrefused (c := .memTestWriteRaw t p w flip) rfl (memTest_refused (d := (s.dev.at t).disarm p) hmode 2)
    · exact hrefused (c := .memTestRead t p w flip) rfl (memTest_refused (d := (s.dev.at t).disarm p) hmode 3)

end Sys2Proof.Machine
end

section
/-! The loader: the image header, and where a failure leads (R346 to R351). -/

namespace Sys2Proof.Machine

open Sys2Proof

/-! ### A failure of the loader (R351) -/

section
variable {e : Env} {d : Dev} {x : LoadErr}

/-- Before basecamp has begun a failure of slot A leads to slot B. -/
theorem loadFail_toB (hbegun : d.begun = false) (hslot : d.nvi.slotB = false) : d.loadFail e x = d.modNvi fun n => n.toB x := by
  simp only [Dev.loadFail, hbegun, hslot, Bool.false_eq_true, if_false]

/-- The loader's own state once neither slot boots. -/
def Nvi.failed (x : LoadErr) (n : Nvi) : Nvi :=
  { n.toB x with phase := .failed, errA := n.errA, errB := x, mode := n.mode, div := n.div, sent := n.sent }

theorem loadFail_both (hbegun : d.begun = false) (hslot : d.nvi.slotB = true) : d.loadFail e x = (d.modNvi (Nvi.failed x)).bothFail e := by
  simp only [Dev.loadFail, hbegun, hslot, Bool.false_eq_true, if_false, if_true]
  rfl

/-- Neither slot boots, and nothing was latched: SAFE with cause IMAGE_INVALID. -/
theorem bothFail_safe (herrs : d.memu.errs = []) (hlatch : d.sup.latch = false) : (d.bothFail e).flt = d.flt ∧ (d.bothFail e).nvi = d.nvi ∧
    (d.bothFail e).sup.mode = .safe ∧ (d.bothFail e).sup.safeCause = 2 := by
  have hends := (endAllEvents_ends (e := e) herrs .endedSync 12).1.trans (dropResiduals_ends _)
  have hset := setMode_stopped (d := (d.endAllEvents e .endedSync 12).dropResiduals) (m := .safe) rfl (by decide)
  unfold Dev.bothFail
  rw [hlatch, if_neg Bool.false_ne_true]
  obtain ⟨_, _, _, _, _, _, hends⟩ := hends.only
  obtain ⟨_, _, _, _, _, _, _, _, _, hset⟩ := hset.only
  simp only
  rw [hset, hends]
  exact ⟨rfl, rfl, rfl, rfl⟩

end

/-! ### The image header (R346) -/

/-- The loader's own state as it reads an image header. -/
def Nvi.probed (boot : List Byte) (probe filled : Bool) (n : Nvi) : Nvi :=
  let b := if probe then boot else n.bootHdr
  { (if filled && probe then n.setMode b else n) with bootHdr := b }

/-- An image header that has passed its checks. -/
def Nvi.takesHeader (f : Fuses) (header : List Byte) (n : Nvi) : Nvi :=
  { n with phase := .early, header := header, lastId := 0, sigDone := sigSettled f header
           measSlots := (List.range 33).map (Config.measSlot header) }

theorem setMode_kept (b : List Byte) (n : Nvi) : (n.setMode b).slotB = n.slotB ∧ (n.setMode b).errA = n.errA ∧ (n.setMode b).errB = n.errB := by
  unfold Nvi.setMode
  split <;> exact ⟨rfl, rfl, rfl⟩

theorem probed_kept (boot : List Byte) (probe filled : Bool) (n : Nvi) : (n.probed boot probe filled).slotB = n.slotB ∧
    (n.probed boot probe filled).errA = n.errA := by
  unfold Nvi.probed
  simp only
  split
  · obtain ⟨hslot, herr, -⟩ := setMode_kept (if probe = true then boot else n.bootHdr) n
    exact ⟨hslot, herr⟩
  · exact ⟨rfl, rfl⟩

theorem headerRead_checks {e : Env} {d : Dev} {boot header : List Byte} {probe : Bool} (hphase : d.nvi.phase = .header probe)
    (hloading : d.loading = true) (hfilled : d.sup.filled = true) (hboot : probe = true → (bootCheck boot).code = 0) :
    d.headerRead e boot header = if (headerCheck e.fuses header).code ≠ 0
      then (d.modNvi (Nvi.probed boot probe true)).loadFail e (headerCheck e.fuses header)
      else (d.modNvi (Nvi.probed boot probe true)).modNvi (Nvi.takesHeader e.fuses header) := by
  have hcode : ((if probe = true then bootCheck boot else {}) : LoadErr).code = 0 := by
    cases probe with
    | true => exact hboot rfl
    | false => rfl
  unfold Dev.headerRead
  rw [hphase]
  simp only [hloading, hfilled, hcode, Bool.not_true, Bool.false_and, Bool.false_eq_true, if_false, ne_eq, not_true]
  rfl

/-- Settles O15: the header's check decides between the sections, slot B, and SAFE. -/
theorem imageHeader : Obligations.ImageHeader := by
  unfold Obligations.ImageHeader
  intro s t boot header probe hclean hphase hfilled hmode hboot
  have hloading : (s.dev.at t).loading = true := by
    unfold Dev.loading
    rw [show (s.dev.at t).nvi.phase = _ from hphase, show (s.dev.at t).sup.mode = _ from hmode]
    rfl
  have hbody := headerRead_checks (e := s.env) (d := s.dev.at t) (header := header) hphase hloading hfilled hboot
  obtain ⟨hslot, herrA⟩ := probed_kept boot probe true s.dev.nvi
  have hbegun : ((s.dev.at t).modNvi (Nvi.probed boot probe true)).begun = false := by
    unfold Dev.begun
    rw [show ((s.dev.at t).modNvi (Nvi.probed boot probe true)).sup.mode = _ from hmode]
    rfl
  generalize hn : s.dev.nvi.probed boot probe true = n at hslot herrA
  generalize hd : (s.dev.at t).modNvi (Nvi.probed boot probe true) = d at hbody hbegun
  obtain rfl : d = { s.dev.at t with nvi := n } := by rw [← hd, ← hn]; rfl
  generalize hy : headerCheck s.fuses header = y
  have honly (n' : Nvi) : (s.dev.at t).ChangesOnly [.nvi] ({ s.dev.at t with nvi := n' }) := .of _ (nvi := .inl (by simp))
  have hcode : field header 0 4 ≠ 0x31494E46 ∨ byteAt header 4 ≠ 1 ∨ field header 16 2 ≠ 0x1680 → y.code = 4 := fun h => by
    rw [← hy, headerCheck, if_pos h]
  rw [show headerCheck s.env.fuses header = y from hy] at hbody
  by_cases hgood : y.code = 0
  · rw [if_neg (not_not.mpr hgood)] at hbody
    refine completes_of_changesOnly (c := .imageHeaderRead t boot header) hclean.1.2 rfl hbody (honly _) fun s' h htouches => ?_
    obtain ⟨x, hnvi⟩ := h.nvi
    refine ⟨hcode, fun _ => ?_, fun hbad => absurd hgood hbad, fun hbad => absurd hgood hbad⟩
    rw [hnvi]
    exact ⟨rfl, rfl, rfl, htouches, rfl⟩
  · rw [if_pos hgood] at hbody
    cases hB : n.slotB with
    | false =>
      rw [loadFail_toB hbegun hB] at hbody
      refine completes_of_changesOnly (c := .imageHeaderRead t boot header) hclean.1.2 rfl hbody (honly _) fun s' h htouches => ?_
      obtain ⟨x, hnvi⟩ := h.nvi
      refine ⟨hcode, fun hzero => absurd hzero hgood, fun _ _ => ?_, fun _ htrue => ?_⟩
      · rw [hnvi]
        exact ⟨rfl, rfl, rfl, rfl, htouches⟩
      · exact absurd (hB.symm.trans (hslot.trans htrue)) Bool.false_ne_true
    | true =>
      rw [loadFail_both hbegun hB] at hbody
      have hnotA : s.dev.nvi.slotB ≠ false := fun h => Bool.false_ne_true (h.symm.trans (hslot.symm.trans hB))
      cases hlatch : s.dev.sup.latch with
      | true =>
        exact completes_of_run (c := .imageHeaderRead t boot header) rfl fun hrests => ⟨_, runAt_eq hrests _, hcode,
          fun hzero => absurd hzero hgood, fun _ hA => absurd hA hnotA, fun _ _ hfree => absurd hfree.symm Bool.false_ne_true⟩
      | false =>
        obtain ⟨hflt, hnvi, hsafe, hcause⟩ := bothFail_safe (e := s.env) (d := ({ s.dev.at t with nvi := n } : Dev).modNvi (Nvi.failed y)) hclean.2.1 hlatch
        refine completes_of_after (c := .imageHeaderRead t boot header) rfl hbody (by rw [hflt]; exact hclean.1.2.1) fun s' h => ?_
        obtain ⟨x, hnvi'⟩ := h.nvi
        refine ⟨hcode, fun hzero => absurd hzero hgood, fun _ hA => absurd hA hnotA, fun _ _ _ => ?_⟩
        rw [hnvi', h.sup, hsafe, hcause, hnvi]
        exact ⟨rfl, rfl, herrA, rfl, rfl⟩

end Sys2Proof.Machine
end

section
/-! The obligation on initialisation records and the end of the load (R351, R353, R359). -/

namespace Sys2Proof.Machine

open Sys2Proof

/-! ### Records (R353) -/

section
variable {e : Env} {d : Dev}

theorem delayOver_waits (h : d.dtime < d.nvi.dueAt) : d.delayOver e = d := if_pos (by simp [h])

theorem delayOver_init (hloading : d.loading = true) (hdue : d.nvi.dueAt ≤ d.dtime) (hphase : d.nvi.phase = .applyInit) :
    d.delayOver e = d.runInit e d.nvi.queue := by
  unfold Dev.delayOver
  rw [if_neg (by simp [hloading, hdue]), hphase]

/-- A record for the pages of the handover is held, and its own delay awaited. -/
theorem runInit_held {r : InitRec} (l : List InitRec) (hpage : heldPage (r.addr.toNat / 256) = true) (haddr : r.addr.toNat % 256 ≠ 0xF8)
    (hdelay : r.delay ≠ 0) : d.runInit e (r :: l) = d.modNvi fun n =>
      { n with held := n.held ++ [{ r with value := r.masked }], queue := l, dueAt := d.dtime + 1000 * r.delay } := by
  have hrec : d.applyRec e true r = d.modNvi fun n => { n with held := n.held ++ [{ r with value := r.masked }] } := by
    unfold Dev.applyRec
    rw [if_pos (by simp [hpage, haddr])]
    rfl
  unfold Dev.runInit Dev.applyRecs
  simp only [hrec, if_neg hdelay]
  rfl

/-- The loader's own state once the device is ready for full service. -/
def Nvi.readied (now : Ns) (n : Nvi) : Nvi := { n with phase := .done, tReady := BitVec.ofNat 32 ((now - n.loadFrom) / 1000) }

/-- Where the device does not wait for sync in basecamp, readiness changes no mode. -/
theorem initDone_ready (hlatch : d.sup.latch = false) (hstood : d.recm.stood = none) (hmode : d.sup.mode ≠ .basecamp ∨ d.pos.sync = .full) :
    d.initDone = (d.modNvi (Nvi.readied d.dtime)).modSup fun s => { s with ready := true } := by
  have hstays : ¬((d.sup.mode == .basecamp && d.pos.sync != .full) = true) := by
    intro h
    simp only [Bool.and_eq_true, beq_iff_eq, bne_iff_ne] at h
    exact hmode.elim (· h.1) h.2
  have hrings : d.compareRings = d := by
    unfold Dev.compareRings
    rw [hstood]
  unfold Dev.initDone
  simp only [hrings]
  rw [if_neg (show ¬(d.modNvi _).sup.latch = true from Bool.eq_false_iff.mp hlatch)]
  exact if_neg hstays

end

/-! ### The checks that span sections have failed (R351) -/

/-- The SYNC record, and the lists that it triggers where the queues have room. -/
theorem noteSync_room {s : State} {d : Dev} (hroom : s.room [4]) (hengines : s.EnginesOf d) (from_ : SyncState) (cause : Nat) (tE : Ns) :
    ∃ recm ce, d.noteSync from_ cause tE = { d with recm := recm, ce := ce } := by
  unfold Dev.noteSync
  extract_lets p
  split
  extract_lets d₁
  obtain ⟨recm, hrec⟩ : ∃ recm, d₁ = { d with recm := recm } := present_only _ d
  obtain ⟨ce, hfire⟩ := fire_fits (s := s) (d := d₁) hroom (by rw [hrec]; exact fun k => by rw [hengines.ce]) (by rw [hrec]; exact hengines.ces)
    fun m => m % 2 ^ (p.sync.code + 1) / 2 ^ p.sync.code = 1
  exact ⟨recm, ce, hfire.trans (by rw [hrec])⟩

/-- What an image had put into memory and logic is gone (R351). -/
theorem unload_gone {s : State} {e : Env} {d : Dev} (herrs : d.memu.errs = []) (hroom : s.room [4]) (hengines : s.EnginesOf d) :
    (d.unload e).flt = d.flt ∧ (d.unload e).writes = d.writes ++ fillWrites ∧ (d.unload e).nvi = d.nvi ∧ (d.unload e).sup.mode = d.sup.mode ∧
      (d.unload e).sup.ready = false ∧ (d.unload e).sup.templates = [] ∧ (d.unload e).pos.wheel = {} ∧ (d.unload e).pos.sync = .stopped := by
  obtain ⟨_, _, _, _, _, _, hends⟩ := ((endAllEvents_ends (e := e) herrs .endedSync 12).1.trans (dropResiduals_ends _)).only
  unfold Dev.unload
  extract_lets d₁ old d₂ d₃
  obtain ⟨hce, hces, hflt, hwrites, hnvi, hmode⟩ : d₁.ce = d.ce ∧ d₁.ces = d.ces ∧ d₁.flt = d.flt ∧ d₁.writes = d.writes ∧ d₁.nvi = d.nvi ∧
      d₁.sup.mode = d.sup.mode := by
    rw [show d₁ = _ from hends]
    exact ⟨rfl, rfl, rfl, rfl, rfl, rfl⟩
  clear_value d₁
  have hengines₂ : s.EnginesOf (d₂.modSup fun s => { s with stoppedAt := d₂.dtime, stop1s := false }) :=
    ⟨hce.trans hengines.ce, hces.trans hengines.ces⟩
  obtain ⟨recm, ce, hnote⟩ := noteSync_room hroom hengines₂ old 12 d₂.dtime
  have h₃ : ∃ recm ce stoppedAt stop1s, d₃ = { d₂ with recm := recm, ce := ce, sup := { d₂.sup with stoppedAt := stoppedAt, stop1s := stop1s } } := by
    by_cases hold : old = .stopped
    · exact ⟨_, _, _, _, if_pos hold⟩
    · exact ⟨_, _, _, _, (if_neg hold).trans hnote⟩
  obtain ⟨_, _, _, _, h₃⟩ := h₃
  have hpos : d₃.pos = d₂.pos := (congrArg Dev.pos h₃ :)
  have hflt : d₃.flt = d.flt := (congrArg Dev.flt h₃ :).trans hflt
  have hwrites : d₃.writes = d.writes := (congrArg Dev.writes h₃ :).trans hwrites
  have hnvi : d₃.nvi = d.nvi := (congrArg Dev.nvi h₃ :).trans hnvi
  have hmode : d₃.sup.mode = d.sup.mode := (congrArg (·.sup.mode) h₃ :).trans hmode
  have hwheel : d₃.pos.wheel = {} ∧ d₃.pos.sync = .stopped := by
    rw [hpos]
    exact ⟨rfl, rfl⟩
  clear_value d₃
  exact ⟨hflt, (congrArg Dev.writes (fillMost_eq d₃)).trans (congrArg (· ++ fillWrites) hwrites), hnvi, hmode, rfl, rfl, hwheel.1, hwheel.2⟩

/-- From slot A a failure after basecamp has begun unloads the image and leads to slot B. -/
theorem loadFail_unloads {e : Env} {d : Dev} {x : LoadErr} (hbegun : d.begun = true) (hnvi : (d.unload e).nvi = d.nvi) (hslot : d.nvi.slotB = false) :
    d.loadFail e x = (d.unload e).modNvi fun n => n.toB x := by
  have hslot' : (d.unload e).nvi.slotB = false := by rw [hnvi, hslot]
  simp only [Dev.loadFail, hbegun, if_true, hslot', Bool.false_eq_true, if_false]

theorem foldl_write (l : List MemOp) : ∀ d : Dev, l.foldl (fun d w => d.write w) d = { d with writes := d.writes ++ l } := by
  induction l with
  | nil => exact fun d => by simp
  | cons w l ih =>
    intro d
    rw [List.foldl_cons, ih, show (d.write w).writes = d.writes ++ [w] from rfl, List.append_assoc]
    rfl

/-- Basecamp has begun where the loader streams an unlatched image. -/
theorem begun_of_streaming {d : Dev} (hphase : d.nvi.phase = .stream) (hloading : d.loading = true) (hlatch : d.sup.latch = false) :
    d.begun = true := by
  simp only [Dev.loading, hphase, hlatch, Bool.and_false, Bool.or_false] at hloading
  exact hloading

section
variable {e : Env} {d : Dev} (hloading : d.loading = true) (hphase : d.nvi.phase = .stream) (hlatch : d.sup.latch = false)
  (hlast : nextId d.nvi.header d.nvi.lastId = none)
include hloading hphase hlatch hlast

theorem finalise_bad {x : LoadErr} (hbad : (d.trialInit e).2.spanChecks (d.trialInit e).1 = some x) : d.finalise e = d.loadFail e x := by
  unfold Dev.finalise
  rw [if_neg (by simp [hloading, hphase, hlast]), hlatch]
  simp only [Bool.false_eq_true, if_false, hbad]

/-- Slot records alone are left to write. -/
theorem finalise_good (hgood : (d.trialInit e).2.spanChecks (d.trialInit e).1 = none) (htmu : d.nvi.tmuRecs = []) (hreg : d.nvi.regRecs = []) :
    d.finalise e = (({ d with writes := d.writes ++ d.nvi.slotOps }).modNvi fun n => { n with phase := .applyInit }).runInit e [] := by
  have hdue (d' : Dev) : d'.recordsDue (d.nvi.tmuDue ++ d.nvi.regRecs) = [] := by simp [Dev.recordsDue, Nvi.tmuDue, htmu, hreg]
  unfold Dev.finalise
  rw [if_neg (by simp [hloading, hphase, hlast]), hlatch]
  simp only [Bool.false_eq_true, if_false, hgood, foldl_write]
  rw [hdue]

end

/-- Settles O17: each step of the loader is one function of its state; a failure of the last checks refills the memories. -/
theorem recordsAndFinalisation : Obligations.RecordsAndFinalisation := by
  unfold Obligations.RecordsAndFinalisation
  refine ⟨fun s t r l hsettled hphase hloading => ⟨fun hwait => ?_, fun hdue hqueue hdelay hpage haddr => ?_, fun hdue hqueue hlatch hmode hstood => ?_⟩,
    fun s t hclean hphase hloading hlatch hlast => ?_⟩
  · exact completes_untouched hsettled rfl (delayOver_waits hwait)
  · have hbody : s.after t (fun e d => d.delayOver e) = (s.dev.at t).modNvi fun n =>
        { n with held := n.held ++ [{ r with value := r.masked }], queue := l, dueAt := s.now t + 1000 * r.delay } := by
      refine (delayOver_init (d := s.dev.at t) hloading hdue hphase).trans ?_
      rw [show (s.dev.at t).nvi.queue = r :: l from hqueue]
      exact runInit_held l hpage haddr hdelay
    refine completes_of_changesOnly (c := .initRecordDelay t) (l := [.nvi]) hsettled rfl hbody (.of _ (nvi := .inl (by simp))) fun s' h htouches => ?_
    obtain ⟨x, hnvi⟩ := h.nvi
    rw [hnvi]
    exact ⟨rfl, rfl, rfl, hphase, htouches⟩
  · have hbody : s.after t (fun e d => d.delayOver e) =
        ((((s.dev.at t).modNvi fun n => { n with queue := [] }).modNvi (Nvi.readied (s.now t))).modSup fun s => { s with ready := true }) := by
      refine (delayOver_init (d := s.dev.at t) hloading hdue hphase).trans ?_
      rw [show (s.dev.at t).nvi.queue = [] from hqueue]
      exact (initDone_ready (d := (s.dev.at t).modNvi fun n => { n with queue := [] }) hlatch hstood
        (.inl (by rw [show ((s.dev.at t).modNvi _).sup.mode = _ from hmode]; decide)))
    refine completes_of_changesOnly (c := .initRecordDelay t) (l := [.nvi, .sup]) hsettled rfl hbody
      (.of _ (nvi := .inl (by simp)) (sup := .inl (by simp))) fun s' h htouches => ?_
    obtain ⟨x, hnvi⟩ := h.nvi
    rw [hnvi, h.sup]
    exact ⟨rfl, rfl, hmode, rfl, htouches⟩
  · intro x
    refine ⟨fun hgood htmu hreg hstood hmode => ?_, fun y hbad hslot hroom => ?_⟩
    · have haway : s.dev.sup.mode ≠ .basecamp ∨ s.dev.pos.sync = .full := hmode.imp (fun h => by rw [h]; decide) id
      have hbody := (finalise_good (e := s.env) (d := s.dev.at t) hloading hphase hlatch hlast hgood htmu hreg).trans
        (initDone_ready hlatch hstood haway)
      refine completes_of_changesOnly (c := .finalisation t) (l := [.nvi, .sup, .mems]) hclean.1.2 rfl hbody
        (.of _ (nvi := .inl (by simp)) (sup := .inl (by simp)) (writes := .inl (by simp))) fun s' h htouches => ?_
      obtain ⟨z, hnvi⟩ := h.nvi
      have hmems : s'.mems = (s.dev.writes ++ s.dev.nvi.slotOps).foldl (fun m w => w.apply m) s.mems := h.mems
      rw [hclean.1.2.2, List.nil_append] at hmems
      rw [hnvi, h.sup]
      exact ⟨hmems, rfl, rfl, rfl, htouches⟩
    · have hbegun : (s.dev.at t).begun = true := begun_of_streaming hphase hloading hlatch
      obtain ⟨hflt, hwrites, hnvi, hmode, hready, htemplates, hwheel, hsync⟩ := unload_gone (s := s) (e := s.env) (d := s.dev.at t)
        hclean.2.1 hroom ⟨rfl, rfl⟩
      have hbody := finalise_bad (e := s.env) (d := s.dev.at t) hloading hphase hlatch hlast hbad
      rw [loadFail_unloads hbegun hnvi hslot] at hbody
      generalize (s.dev.at t).unload s.env = d' at hflt hwrites hnvi hmode hready htemplates hwheel hsync hbody
      refine completes_of_after (c := .finalisation t) rfl hbody ((congrArg Flt.raised hflt).trans hclean.1.2.1) fun s' h => ?_
      have hmems : s.mems.FilledFrom s'.mems := by
        rw [h.mems, show (d'.modNvi _).writes = _ from hwrites, show (s.dev.at t).writes = [] from hclean.1.2.2]
        exact fillWrites_fill s.mems
      obtain ⟨z, hnvi'⟩ := h.nvi
      rw [hnvi', h.sup, h.pos]
      exact ⟨rfl, rfl, rfl, hready, htemplates, hwheel, hsync, hmode, hmems.byte, hmems.attrs⟩

end Sys2Proof.Machine
end

section
/-! The CAN controllers' objects and queues: what each of their operations changes (R306, R315 to R317). -/

namespace Sys2Proof.Machine

open Sys2Proof

theorem fld_lt (w : W64) (lo n : Nat) : fld w lo n < 2 ^ n := Nat.mod_lt _ (Nat.two_pow_pos n)

/-! ### Status of an object -/

theorem find_objPut (i : Nat) (x : ObjStat) : ∀ l : List (Nat × ObjStat), (objPut l i x).find? (·.1 == i) = some (i, x)
  | [] => by simp [objPut]
  | (k, y) :: l => by
    have hrest := find_objPut i x l
    unfold objPut
    split
    · simp
    · split
      · simp
      · next hne => rwa [List.find?_cons_of_neg (by simpa using Ne.symm hne)]

section
variable {e : Env} {k : Fin 4} {i : Nat} {d d' : Dev}

/-- The status of an object after a change of it. -/
theorem obj_objPut (c : Can) (x : ObjStat) : ({ c with objs := objPut c.objs i x } : Can).obj i = x := by
  simp [Can.obj, find_objPut]

theorem modCan_modCan (f g : Can → Can) (d : Dev) : (d.modCan k f).modCan k g = d.modCan k fun c => g (f c) := by
  simp only [Dev.modCan, upd_upd]

theorem changesOnly_modCan (f : Can → Can) (d : Dev) : d.ChangesOnly [.can] (d.modCan k f) := .of _ (can := .inl (by simp))

theorem modCan_same (f : Can → Can) (d : Dev) : (d.modCan k f).can[k] = f d.can[k] := upd_same ..

theorem modCan_congr {f g : Can → Can} {d : Dev} (h : f d.can[k] = g d.can[k]) : d.modCan k f = d.modCan k g := by
  rw [Dev.modCan, upd_congr h, Dev.modCan]

theorem modCan_sup (f : Can → Can) (d : Dev) : (d.modCan k f).sup = d.sup := rfl

theorem modCan_still {f : Can → Can} {d : Dev} (h : f d.can[k] = d.can[k]) : d.modCan k f = d := by
  rw [Dev.modCan, upd_self h]

theorem modObj_can (f : ObjStat → ObjStat) (d : Dev) :
    (d.modObj k i f).can[k] = { d.can[k] with objs := objPut d.can[k].objs i (f (d.can[k].obj i)) } := modCan_same ..

theorem modObj_obj (f : ObjStat → ObjStat) (d : Dev) : (d.modObj k i f).can[k].obj i = f (d.can[k].obj i) :=
  (congrArg (·.obj i) (modObj_can f d)).trans (obj_objPut ..)

theorem modCan_other {j : Fin 4} (hj : j ≠ k) (f : Can → Can) (d : Dev) : (d.modCan k f).can[j] = d.can[j] := upd_other _ _ _ _ hj

/-! ### What a frame is packed from (R316) -/

/-- Where no word is damaged nothing keeps a frame from being handled. -/
theorem msgBad_clean (herrs : d.memu.errs = []) (rels : List Nat) : d.msgBad k rels = (false, d) := by
  simp [Dev.msgBad, herrs]

section
variable (hemits : d'.can[k].emits = d.can[k].emits) (hmemu : d'.memu = d.memu)
include hemits hmemu

theorem sigSource_congr (n : Nat) : d'.sigSource e k n = d.sigSource e k n := by
  unfold Dev.sigSource Dev.tagDead
  rw [hemits, hmemu]

theorem packed_congr (o : Obj) : d'.packed e k o = d.packed e k o := by
  simp only [Dev.packed, sigSource_congr hemits hmemu]

theorem sourcesValid_congr (o : Obj) : d'.sourcesValid e k o = d.sourcesValid e k o := by
  simp only [Dev.sourcesValid, sigSource_congr hemits hmemu]

end

theorem busOff_of_canActive (h : d.canActive k = true) : d.can[k].busOff = false := by
  simp only [Dev.canActive, Bool.and_eq_true, Bool.not_eq_true'] at h
  obtain ⟨⟨⟨-, hon⟩, -⟩, -⟩ := h
  exact hon

theorem canActive_congr (hcfg : d'.can[k].cfg = d.can[k].cfg) (hbus : d'.can[k].busOff = d.can[k].busOff) (hsup : d'.sup = d.sup) :
    d'.canActive k = d.canActive k := by
  simp only [Dev.canActive, Dev.canMode, Dev.canRecovery, Dev.clocksOk, hcfg, hbus, hsup]

theorem objMode_congr (hcfg : d'.can[k].cfg = d.can[k].cfg) (hbus : d'.can[k].busOff = d.can[k].busOff) (hsup : d'.sup = d.sup) :
    d'.objMode k = d.objMode k := by
  simp only [Dev.objMode, canActive_congr hcfg hbus hsup, Dev.canRecovery, hsup]

theorem canActive_of_objMode (h : d.objMode k = true) : d.canActive k = true := by
  simp only [Dev.objMode, Bool.and_eq_true] at h
  exact h.1.1

theorem messages_of_objMode (h : d.objMode k = true) : d.sup.mode.messages = true := by
  simp only [Dev.objMode, Bool.and_eq_true] at h
  exact h.1.2

/-! ### Packing (R316) -/

/-- The payload that an object's frame is packed to. -/
def Dev.payload (e : Env) (k : Fin 4) (i : Nat) (d : Dev) : List Byte :=
  (d.packed e k (e.obj k i)).foldl (fun p x => sigPut x.1 x.2.1 p) (List.replicate (e.obj k i).len 0)

/-- A transmit object's frame, as it is queued. -/
def Dev.objectFrame (e : Env) (k : Fin 4) (i : Nat) (d : Dev) : TxFrame :=
  { src := .object i, frame := (e.obj k i).frame (d.payload e k i), at_ := d.dtime }

/-- The object's status once its fields are packed. -/
def ObjStat.packs (l : List (W64 × Nat × Bool)) (x : ObjStat) : ObjStat :=
  { x with packSat := x.packSat + BitVec.ofNat 16 (l.filter fun z => z.2.2).length, queued := l.map (·.2.1) }

/-- A frame queued already is repacked in its place. -/
def Can.repacks (i : Nat) (f : CanFrame) (c : Can) : Can :=
  { c with txq := c.txq.map fun (x : TxFrame) => if x.src = .object i then { x with frame := f } else x }

/-- `d` with the object packed: its buffer is to be written. -/
def Dev.packing (e : Env) (k : Fin 4) (i : Nat) (d : Dev) : Dev :=
  (d.write (.bytes (msgAddr k (e.obj k i).buf) (d.payload e k i))).modObj k i (ObjStat.packs (d.packed e k (e.obj k i)))

section
variable (herrs : d.memu.errs = []) (hmode : d.objMode k = true)
include herrs hmode

/-- An object that needs a source which is not VALID is skipped. -/
theorem packObject_skips (hneeds : bit (e.obj k i).w0 6 = true) (hinvalid : d.sourcesValid e k (e.obj k i) = false) :
    d.packObject e k i = d.modObj k i fun x => { x with skipped := x.skipped + 1 } := by
  simp [Dev.packObject, msgBad_clean herrs, hmode, hneeds, hinvalid]

/-- An object whose sources serve is packed: its frame is repacked where one is queued, else it is queued. -/
theorem packObject_packs (hserves : bit (e.obj k i).w0 6 = false ∨ d.sourcesValid e k (e.obj k i) = true) :
    d.packObject e k i = (d.packing e k i).modCan k
      (if (d.can[k].txq.any fun x => x.src == .object i) = true then Can.repacks i (d.objectFrame e k i).frame
       else Can.takes (d.objectFrame e k i)) := by
  have hpass : (bit (e.obj k i).w0 6 && !d.sourcesValid e k (e.obj k i)) = false := by
    obtain h | h := hserves <;> simp [h]
  have htxq : (d.packing e k i).can[k].txq = d.can[k].txq := (congrArg Can.txq (modObj_can ..) :)
  simp only [Dev.packObject, msgBad_clean herrs, hmode, hpass, Bool.not_true, Bool.or_self, Bool.false_eq_true, if_false]
  change (if (((d.packing e k i).can[k].txq).any _) = true then _ else _) = _
  rw [htxq]
  split <;> rfl

end

/-- What a transmit object's turn leaves: of the controllers its own alone may differ; the frame is skipped, or queued unless it
is already (R316). -/
structure Dev.Packs (e : Env) (k : Fin 4) (i : Nat) (d d' : Dev) : Prop where
  only : d.ChangesOnly [.can, .mems] d'
  others : ∀ j, j ≠ k → d'.can[j] = d.can[j]
  skips : bit (e.obj k i).w0 6 = true → d.sourcesValid e k (e.obj k i) = false →
    d'.can[k].txq = d.can[k].txq ∧ (d'.can[k].obj i).skipped = (d.can[k].obj i).skipped + 1 ∧ d'.writes = d.writes
  queues : bit (e.obj k i).w0 6 = false ∨ d.sourcesValid e k (e.obj k i) = true → (∀ y ∈ d.can[k].txq, y.src ≠ .object i) →
    d'.can[k].txq = d.can[k].txq ++ [d.objectFrame e k i] ∧
      (d'.can[k].obj i).queued = (d.packed e k (e.obj k i)).map (·.2.1) ∧ (d'.can[k].obj i).skipped = (d.can[k].obj i).skipped
  period : (d'.can[k].obj i).from_ = (d.can[k].obj i).from_

theorem changesOnly_packing : d.ChangesOnly [.can, .mems] (d.packing e k i) :=
  .of _ (can := .inl (by simp)) (writes := .inl (by simp))

theorem packing_obj (d : Dev) : (d.packing e k i).can[k].obj i = (d.can[k].obj i).packs (d.packed e k (e.obj k i)) :=
  modObj_obj ..

theorem obj_takes (f : TxFrame) (c : Can) (i : Nat) : (c.takes f).obj i = c.obj i := by
  unfold Can.takes
  split <;> rfl

/-- The turn of an object that the mode lets act. -/
theorem packObject_turn (herrs : d.memu.errs = []) (hmode : d.objMode k = true) : d.Packs e k i (d.packObject e k i) := by
  by_cases hskip : bit (e.obj k i).w0 6 = true ∧ d.sourcesValid e k (e.obj k i) = false
  · obtain ⟨hneeds, hinvalid⟩ := hskip
    rw [packObject_skips herrs hmode hneeds hinvalid]
    have hobj := modObj_obj (k := k) (i := i) (fun x => { x with skipped := x.skipped + 1 }) d
    refine ⟨(changesOnly_modCan _ d).mono, fun j hj => modCan_other hj _ d,
      fun _ _ => ⟨(congrArg Can.txq (modObj_can ..) :), (congrArg ObjStat.skipped hobj :), rfl⟩, ?_, (congrArg ObjStat.from_ hobj :)⟩
    · intro hserves
      simp [hneeds, hinvalid] at hserves
  · have hserves : bit (e.obj k i).w0 6 = false ∨ d.sourcesValid e k (e.obj k i) = true := by
      simpa only [Bool.not_eq_true, Bool.not_eq_false] using Decidable.not_and_iff_not_or_not.mp hskip
    rw [packObject_packs herrs hmode hserves]
    have hoff : (d.packing e k i).can[k].busOff = false :=
      (congrArg Can.busOff (modObj_can ..) :).trans (busOff_of_canActive (canActive_of_objMode hmode))
    refine ⟨changesOnly_packing.trans (changesOnly_modCan _ _).mono,
      fun j hj => (modCan_other hj _ _).trans (modCan_other hj _ _), ?_, fun _ hfree => ?_, ?_⟩
    · intro hneeds hinvalid
      exact absurd ⟨hneeds, hinvalid⟩ hskip
    · have hnone : ¬(d.can[k].txq.any fun x => x.src == .object i) = true := by simpa using hfree
      rw [if_neg hnone, modCan_same, obj_takes, packing_obj]
      refine ⟨?_, rfl, rfl⟩
      rw [Can.takes, hoff, if_neg Bool.false_ne_true]
      exact congrArg (· ++ _) (congrArg Can.txq (modObj_can ..) :)
    · have hobj : (((d.packing e k i).modCan k (if (d.can[k].txq.any fun x => x.src == .object i) = true then
          Can.repacks i (d.objectFrame e k i).frame else Can.takes (d.objectFrame e k i))).can[k]).obj i =
          (d.packing e k i).can[k].obj i := by
        rw [modCan_same]
        split
        · rfl
        · exact obj_takes ..
      rw [hobj, packing_obj]
      rfl

/-- A change of the object's times before its turn is no part of the turn. -/
theorem Dev.Packs.of_period {f : ObjStat → ObjStat} (hskipped : ∀ x, (f x).skipped = x.skipped)
    (h : (d.modObj k i f).Packs e k i d') :
    d.ChangesOnly [.can, .mems] d' ∧ (∀ j, j ≠ k → d'.can[j] = d.can[j]) ∧
    (bit (e.obj k i).w0 6 = true → d.sourcesValid e k (e.obj k i) = false →
      d'.can[k].txq = d.can[k].txq ∧ (d'.can[k].obj i).skipped = (d.can[k].obj i).skipped + 1 ∧ d'.writes = d.writes) ∧
    (bit (e.obj k i).w0 6 = false ∨ d.sourcesValid e k (e.obj k i) = true → (∀ y ∈ d.can[k].txq, y.src ≠ .object i) →
      d'.can[k].txq = d.can[k].txq ++ [d.objectFrame e k i] ∧
        (d'.can[k].obj i).queued = (d.packed e k (e.obj k i)).map (·.2.1) ∧ (d'.can[k].obj i).skipped = (d.can[k].obj i).skipped) ∧
    (d'.can[k].obj i).from_ = (f (d.can[k].obj i)).from_ := by
  have hcan := modObj_can (k := k) (i := i) f d
  have hemits : (d.modObj k i f).can[k].emits = d.can[k].emits := (congrArg Can.emits hcan :)
  have hobj := modObj_obj (k := k) (i := i) f d
  have hskip : ((d.modObj k i f).can[k].obj i).skipped = (d.can[k].obj i).skipped := by rw [hobj, hskipped]
  have htxq : (d.modObj k i f).can[k].txq = d.can[k].txq := (congrArg Can.txq hcan :)
  have hpacked := packed_congr (e := e) hemits rfl
  have hframe : (d.modObj k i f).objectFrame e k i = d.objectFrame e k i := by
    simp only [Dev.objectFrame, Dev.payload, hpacked]
    rfl
  obtain ⟨honly, hothers, hskips, hqueues, hperiod⟩ := h
  simp only [sourcesValid_congr (e := e) hemits rfl, hskip, htxq, hpacked, hframe] at hskips hqueues
  exact ⟨((changesOnly_modCan _ d).mono).trans honly, fun j hj => (hothers j hj).trans (modCan_other hj _ d), hskips, hqueues,
    hperiod.trans (congrArg ObjStat.from_ hobj :)⟩

/-! ### The commands on objects -/

/-- When the present period or staleness time of an object ends. -/
def Dev.timeEnd (e : Env) (k : Fin 4) (i : Nat) (d : Dev) : Ns := max (d.can[k].obj i).from_ d.can[k].startAt + (e.obj k i).time

/-- A receive object that no frame has come for. -/
def ObjStat.goesStale (x : ObjStat) : ObjStat := { x with stale := true }

/-- A receive object whose time is over goes stale with its signals' slots (R315). -/
theorem receiveStale_due (hdead : d.memu.deadTags = []) (hmode : d.objMode k = true) (hkind : (e.obj k i).kind = 1)
    (htime : (e.obj k i).time ≠ 0) (hfresh : (d.can[k].obj i).stale = false)
    (hdue : d.timeEnd e k i ≤ d.dtime) :
    d.receiveStale e k i = { d.modObj k i ObjStat.goesStale with
      writes := d.writes ++ stales ((e.obj k i).sigs.map fun n => fld (e.sig k n) 24 14) } := by
  unfold Dev.timeEnd at hdue
  have hfold := foldl_staleSlot ((e.obj k i).sigs.map fun n => fld (e.sig k n) 24 14) hdead
  rw [List.foldl_map] at hfold
  simp only [Dev.receiveStale, hmode, hkind, hfresh, hdue, hfold, decide_true, Bool.and_true, Bool.true_and, Bool.not_false, beq_self_eq_true,
    bne_iff_ne, ne_eq, htime, not_false_eq_true, if_true]
  rfl

theorem receiveStale_waits (h : (d.can[k].obj i).stale = true ∨
    ¬d.timeEnd e k i ≤ d.dtime) : d.receiveStale e k i = d := by
  refine if_neg fun hdue => ?_
  simp only [Bool.and_eq_true, Bool.not_eq_true', decide_eq_true_eq] at hdue
  obtain ⟨⟨-, hfresh⟩, htime⟩ := hdue
  exact h.elim (fun hstale => Bool.false_ne_true (hfresh.symm.trans hstale)) fun hwaits => hwaits htime

/-- The object with its next period begun. -/
def ObjStat.nextPeriod (at_ : Ns) (x : ObjStat) : ObjStat := { x with from_ := at_ }

theorem nextPeriod_skipped (at_ : Ns) (x : ObjStat) : (x.nextPeriod at_).skipped = x.skipped := rfl

theorem nextPeriod_from (at_ : Ns) (x : ObjStat) : (x.nextPeriod at_).from_ = at_ := rfl

theorem transmitPeriod_due (hmode : d.objMode k = true) (hon : bit d.can[k].cfg 0 = true) (hkind : (e.obj k i).kind = 2)
    (htime : (e.obj k i).time ≠ 0) (hdue : d.timeEnd e k i ≤ d.dtime) :
    d.transmitPeriod e k i = (d.modObj k i (ObjStat.nextPeriod (d.timeEnd e k i))).packObject e k i := by
  unfold Dev.timeEnd at hdue
  unfold Dev.transmitPeriod
  refine if_pos ?_
  rw [hon, messages_of_objMode hmode, hkind, decide_eq_true hdue, bne_iff_ne.mpr htime]
  rfl

theorem transmitPeriod_waits (h : ¬d.timeEnd e k i ≤ d.dtime) :
    d.transmitPeriod e k i = d := by
  unfold Dev.transmitPeriod
  refine if_neg fun hdue => h ?_
  simp only [Bool.and_eq_true, decide_eq_true_eq] at hdue
  exact hdue.2

theorem transmitOnChange_changed (hkind : (e.obj k i).kind = 2) (hflag : bit (e.obj k i).w2 24 = true)
    (hfree : ∀ a, (d.can[k].obj i).sentAt = some a → a + (e.obj k i).inhibit ≤ d.dtime)
    (hnew : (d.can[k].obj i).lastSent ≠ some ((d.packed e k (e.obj k i)).map (·.2.1))) :
    d.transmitOnChange e k i = d.packObject e k i := by
  have hpassed : (match (d.can[k].obj i).sentAt with
      | some t => decide (t + (e.obj k i).inhibit ≤ d.dtime) | none => true) = true := by
    split
    · next a hsent => exact decide_eq_true (hfree a hsent)
    · rfl
  unfold Dev.transmitOnChange
  refine if_pos ?_
  simp only [hkind, hflag, Bool.and_eq_true, bne_iff_ne]
  exact ⟨⟨⟨rfl, trivial⟩, hpassed⟩, hnew⟩

theorem transmitOnChange_same (h : (d.can[k].obj i).lastSent = some ((d.packed e k (e.obj k i)).map (·.2.1))) :
    d.transmitOnChange e k i = d := by
  unfold Dev.transmitOnChange
  refine if_neg fun hnew => ?_
  simp only [Bool.and_eq_true, bne_iff_ne] at hnew
  exact hnew.2 h

/-! ### The transmit queue (R317) -/

/-- Of the frames queued by the start of frame the first in the order of the arbitration is offered. -/
theorem offeredFrame_first {sof : Ns} {f : TxFrame} {l : List TxFrame} (hmem : f ∈ l) (hsof : f.at_ ≤ sof)
    (hfirst : ∀ g ∈ l, g ≠ f → g.at_ ≤ sof → f.key < g.key) : offeredFrame sof l = some f := by
  have hfold : ∀ (l : List TxFrame) (best : Option TxFrame), (∀ g ∈ l, g ≠ f → g.at_ ≤ sof → f.key < g.key) →
      (∀ b, best = some b → b ≠ f → f.key < b.key) → f ∈ l ∨ best = some f →
      l.foldl (fun best g => if sof < g.at_ then best else match best with
        | none => some g
        | some b => if g.key < b.key then some g else best) best = some f := by
    intro l
    induction l with
    | nil => exact fun best _ _ h => h.resolve_left List.not_mem_nil
    | cons g l ih =>
      intro best hl hbest hin
      rw [List.foldl_cons]
      refine ih _ (fun x hx => hl x (List.mem_cons_of_mem _ hx)) (fun b hb hne => ?_) ?_
      · have hg : g = b → g.at_ ≤ sof → f.key < b.key := fun hgb hat => hgb ▸ hl g List.mem_cons_self (hgb ▸ hne) hat
        split at hb
        · exact hbest b hb hne
        · next hat =>
          have hat := Nat.le_of_not_lt hat
          split at hb
          · exact hg (Option.some.inj hb) hat
          · split at hb
            · exact hg (Option.some.inj hb) hat
            · exact hbest b (by simpa using hb) hne
      · by_cases hgf : g = f
        · subst hgf
          refine .inr ?_
          rw [if_neg (Nat.not_lt_of_le hsof)]
          split
          · rfl
          · next b =>
            split
            · rfl
            · next hge =>
              by_cases hb : b = g
              · rw [hb]
              · exact absurd (hbest b rfl hb) hge
        · refine hin.imp (fun hin => (List.mem_cons.mp hin).resolve_left (Ne.symm hgf)) fun hf => ?_
          subst hf
          split
          · rfl
          · next hat =>
            exact if_neg fun hlt => Nat.lt_asymm hlt (hl g List.mem_cons_self hgf (Nat.le_of_not_lt hat))
  exact hfold l none hfirst (fun _ h => by cases h) (.inl hmem)

/-- Nothing is offered where every frame came after the start of frame. -/
theorem offeredFrame_none {sof : Ns} {l : List TxFrame} (h : ∀ f ∈ l, sof < f.at_) : offeredFrame sof l = none :=
  foldl_still l fun f hf => if_pos (h f hf)

section
variable {sof : Ns} {f : TxFrame} (hactive : d.canActive k = true)
include hactive

section
variable (hoffered : offeredFrame sof (d.can[k].txq.filter (d.mayOffer k)) = some f)
include hoffered

theorem frameTransmitted_lost : d.frameTransmitted k sof .lost = d := by
  simp [Dev.frameTransmitted, hactive, hoffered, -Fin.getElem_fin]

theorem frameTransmitted_stuffLost : d.frameTransmitted k sof .stuffLost = d.modCan k fun c => { c with lec := errorCode .stuff } := by
  simp [Dev.frameTransmitted, hactive, hoffered, -Fin.getElem_fin]

theorem frameTransmitted_error (er : CanError) (more : Nat) :
    d.frameTransmitted k sof (.error er more) = d.modCan k fun c => { c.txError er more with lec := errorCode er } := by
  simp [Dev.frameTransmitted, hactive, hoffered, -Fin.getElem_fin]

end

/-- The frame as it went out. -/
def Can.outFrame (c : Can) (sof : Ns) (phase : Ns × Ns) (f : TxFrame) : CanFrame :=
  { f.frame with sof := sof, esi := f.frame.format == .fd && c.passive, phase := phase }

/-- A controller that has sent a frame. -/
def Can.sends (sof : Ns) (phase : Ns × Ns) (f : TxFrame) (c : Can) : Can :=
  { c.drivesMode (c.outFrame sof phase f) with
    txq := c.txq.erase f, tx := c.tx + 1, tec := c.tec - 1, last := some (c.outFrame sof phase f) }

/-- An object whose frame has been sent. -/
def ObjStat.sends (sof : Ns) (x : ObjStat) : ObjStat :=
  { x with frames := x.frames + 1, time := sof, lastSent := some x.queued, sentAt := some sof }

theorem frameTransmitted_sent (hoffered : offeredFrame sof (d.can[k].txq.filter (d.mayOffer k)) = some f) (phase : Ns × Ns) :
    d.frameTransmitted k sof (.sent phase) =
      match f.src with
      | .object i => (d.modCan k (Can.sends sof phase f)).modObj k i (ObjStat.sends sof)
      | .gasp => (d.modCan k (Can.sends sof phase f)).modSup fun s => { s with gaspSent := true }
      | _ => d.modCan k (Can.sends sof phase f) := by
  simp only [Dev.frameTransmitted, hactive, hoffered, Bool.not_true, Bool.false_eq_true, if_false]
  rfl

end

theorem frameTransmitted_none {sof : Ns} (h : d.canActive k = false ∨ (∀ f ∈ d.can[k].txq, sof < f.at_ ∨ d.mayOffer k f = false))
    (r : TxOutcome) : d.frameTransmitted k sof r = d := by
  by_cases hactive : d.canActive k = true
  · have hlate := h.resolve_left (by simp [hactive])
    have hnone : offeredFrame sof (d.can[k].txq.filter (d.mayOffer k)) = none := offeredFrame_none fun f hf => by
      obtain ⟨hin, hmay⟩ := List.mem_filter.mp hf
      exact (hlate f hin).resolve_right (by simp [hmay])
    simp [Dev.frameTransmitted, hactive, hnone, -Fin.getElem_fin]
  · simp [Dev.frameTransmitted, hactive]

end

end Sys2Proof.Machine
end

section
/-! O54: the timers of the objects, transmission, errors and bus-off (R306, R315 to R317). -/

namespace Sys2Proof.Machine

open Sys2Proof

section
variable {s : State} {k : Fin 4}

/-- What a command leaves where its body changes one controller. -/
theorem Follows.can_of {d : Dev} {s' : State} (h : Follows s d s') {f : Can → Can} (hcan : d.can = upd s.dev.can k f) :
    s'.dev.can[k] = f s.dev.can[k] ∧ ∀ j, j ≠ k → s'.dev.can[j] = s.dev.can[j] := by
  have hall := h.can.trans hcan
  exact ⟨hall ▸ upd_same .., fun j hj => hall ▸ upd_other _ _ _ _ hj⟩

/-- A command that changes one controller. -/
theorem completes_can {c : Instr} {body : Env → Dev → Dev} {f : Can → Can} (hsettled : s.dev.settled)
    (hexec : exec c s = runAt (stampOf c) body s) (hbody : s.after (stampOf c) body = (s.dev.at (stampOf c)).modCan k f) :
    Completes c s fun s' => s'.dev.can[k] = f s.dev.can[k] ∧ (∀ j, j ≠ k → s'.dev.can[j] = s.dev.can[j]) ∧ s.touches [.can] s' :=
  completes_of_changesOnly hsettled hexec hbody (changesOnly_modCan f _) fun _ h htouches =>
    ⟨(h.can_of rfl).1, (h.can_of rfl).2, htouches⟩

end

section
variable {s : State} {t : Ns} {k : Fin 4} {i : Fin 128} (hclean : s.clean)
include hclean

/-- RECEIVE_STALE of an object whose time is over. -/
theorem completes_receiveStale (hmode : s.dev.objMode k = true) (hkind : (s.env.obj k i.val).kind = 1)
    (htime : (s.env.obj k i.val).time ≠ 0) (hfresh : (s.dev.can[k].obj i.val).stale = false)
    (hdue : ¬s.now t < (s.dev.at t).timeEnd s.env k i.val) :
    Completes (.receiveStale t k i) s fun s' =>
      s'.dev.can[k].obj i.val = (s.dev.can[k].obj i.val).goesStale ∧ s'.mems.sram = s.mems.sram ∧
      (∀ n ∈ (s.env.obj k i.val).sigs, (s.attr (fld (s.env.sig k n) 24 14)).cls = 1 → (s.attr (fld (s.env.sig k n) 24 14)).writer = 8 →
        s'.attr (fld (s.env.sig k n) 24 14) =
          (s.attr (fld (s.env.sig k n) 24 14)).staled) ∧
      (∀ j, j ≠ k → s'.dev.can[j] = s.dev.can[j]) ∧ s.touches [.can, .mems] s' := by
  refine completes_of_changesOnly (c := .receiveStale t k i) (l := [.can, .mems]) hclean.1.2 rfl
    (receiveStale_due (d := s.dev.at t) hclean.2.2 hmode hkind htime hfresh (Nat.le_of_not_lt hdue))
    (.of _ (can := .inl (by simp)) (writes := .inl (by simp))) fun s' h htouches => ?_
  have hmems : s'.mems = (stales ((s.env.obj k i.val).sigs.map fun n => fld (s.env.sig k n) 24 14)).foldl (fun m w => w.apply m) s.mems := by
    refine h.mems.trans ?_
    show (s.dev.writes ++ _).foldl _ _ = _
    rw [hclean.1.2.2]
    rfl
  obtain ⟨hcan, hothers⟩ := h.can_of (k := k) (f := fun c => { c with objs := objPut c.objs i.val (c.obj i.val).goesStale }) rfl
  refine ⟨?_, ?_, fun n hn hcls hwriter => ?_, hothers, htouches⟩
  · rw [hcan]
    exact obj_objPut ..
  · rw [hmems, stales_sram]
  · rw [State.attr, hmems, stales_attr _ hclean.1.1 (fld_lt ..) hcls hwriter, if_pos (List.mem_map_of_mem hn)]
    rfl

/-- What the turn of a transmit object leaves after a command. -/
theorem completes_packs {c : Instr} {body : Env → Dev → Dev} {d : Dev} {f : ObjStat → ObjStat} (hskipped : ∀ x, (f x).skipped = x.skipped)
    (hexec : exec c s = runAt (stampOf c) body s) (hbody : s.after (stampOf c) body = d)
    (hturn : ((s.dev.at (stampOf c)).modObj k i.val f).Packs s.env k i.val d ∨
      (s.dev.at (stampOf c)).Packs s.env k i.val d ∧ ∀ x, f x = x) :
    Completes c s fun s' => ((∀ j, j ≠ k → s'.dev.can[j] = s.dev.can[j]) ∧ s.touches [.can, .mems] s' ∧
      (bit (s.env.obj k i.val).w0 6 = true ∧ s.dev.sourcesValid s.env k (s.env.obj k i.val) = false →
        s'.dev.can[k].txq = s.dev.can[k].txq ∧ (s'.dev.can[k].obj i.val).skipped = (s.dev.can[k].obj i.val).skipped + 1 ∧ s'.mems = s.mems) ∧
      (bit (s.env.obj k i.val).w0 6 = false ∨ s.dev.sourcesValid s.env k (s.env.obj k i.val) = true →
        (∀ y ∈ s.dev.can[k].txq, y.src ≠ .object i.val) →
        ∃ y, s'.dev.can[k].txq = s.dev.can[k].txq ++ [y] ∧ y.src = .object i.val ∧ y.at_ = s.now (stampOf c) ∧
          y.frame = (s.env.obj k i.val).frame ((s.dev.packed s.env k (s.env.obj k i.val)).foldl (fun p z => sigPut z.1 z.2.1 p)
            (List.replicate (s.env.obj k i.val).len 0)) ∧
          (s'.dev.can[k].obj i.val).queued = (s.dev.packed s.env k (s.env.obj k i.val)).map (·.2.1) ∧
          (s'.dev.can[k].obj i.val).skipped = (s.dev.can[k].obj i.val).skipped)) ∧
      (s'.dev.can[k].obj i.val).from_ = (f (s.dev.can[k].obj i.val)).from_ := by
  have hpacks : (s.dev.at (stampOf c)).ChangesOnly [.can, .mems] d ∧ (∀ j, j ≠ k → d.can[j] = s.dev.can[j]) ∧
      (bit (s.env.obj k i.val).w0 6 = true → s.dev.sourcesValid s.env k (s.env.obj k i.val) = false →
        d.can[k].txq = s.dev.can[k].txq ∧ (d.can[k].obj i.val).skipped = (s.dev.can[k].obj i.val).skipped + 1 ∧ d.writes = s.dev.writes) ∧
      (bit (s.env.obj k i.val).w0 6 = false ∨ s.dev.sourcesValid s.env k (s.env.obj k i.val) = true →
        (∀ y ∈ s.dev.can[k].txq, y.src ≠ .object i.val) →
        d.can[k].txq = s.dev.can[k].txq ++ [(s.dev.at (stampOf c)).objectFrame s.env k i.val] ∧
          (d.can[k].obj i.val).queued = (s.dev.packed s.env k (s.env.obj k i.val)).map (·.2.1) ∧
          (d.can[k].obj i.val).skipped = (s.dev.can[k].obj i.val).skipped) ∧
      (d.can[k].obj i.val).from_ = (f (s.dev.can[k].obj i.val)).from_ := by
    obtain h | ⟨h, hself⟩ := hturn
    · exact h.of_period hskipped
    · exact ⟨h.only, h.others, h.skips, h.queues, h.period.trans (by rw [hself]; rfl)⟩
  clear hturn
  obtain ⟨honly, hothers, hskips, hqueues, hperiod⟩ := hpacks
  refine completes_of_changesOnly hclean.1.2 hexec hbody honly fun s' h htouches => ?_
  have hcan := h.can
  refine ⟨⟨fun j hj => hcan ▸ hothers j hj, htouches, fun ⟨hneeds, hinvalid⟩ => ?_, fun hserves hfree => ?_⟩, hcan ▸ hperiod⟩
  · obtain ⟨htxq, hskipped, hwrites⟩ := hskips hneeds hinvalid
    refine ⟨hcan ▸ htxq, hcan ▸ hskipped, h.mems.trans ?_⟩
    rw [hwrites, hclean.1.2.2]
    rfl
  · obtain ⟨htxq, hqueued, hskipped⟩ := hqueues hserves hfree
    exact ⟨_, hcan ▸ htxq, rfl, rfl, rfl, hcan ▸ hqueued, hcan ▸ hskipped⟩

end

/-! ### Transmission -/

section
variable {s : State} {t : Ns} {k : Fin 4} {sof : Ns} {f : TxFrame} (hsettled : s.dev.settled) (hactive : s.dev.canActive k = true)
  (hoffered : offeredFrame sof (s.dev.can[k].txq.filter (s.dev.mayOffer k)) = some f)
include hsettled hactive hoffered

/-- The frame offered has been sent: which parts change hangs on what queued it. -/
theorem completes_sent (phase : Ns × Ns) : Completes (.canFrameTransmitted t k sof (.sent phase)) s fun s' =>
    (∃ objs, s'.dev.can[k] = { s.dev.can[k].sends sof phase f with objs := objs } ∧
      ∀ i, f.src = .object i → objs = objPut s.dev.can[k].objs i ((s.dev.can[k].obj i).sends sof)) ∧
    (∀ j, j ≠ k → s'.dev.can[j] = s.dev.can[j]) ∧ s.touches [.can, .sup] s' ∧
    (f.src ≠ .gasp → s'.dev.sup = s.dev.sup) ∧ (f.src = .gasp → s'.dev.sup.gaspSent = true) := by
  have hbody := frameTransmitted_sent (d := s.dev.at t) hactive hoffered phase
  have hsent (c : Can) : c.sends sof phase f = { c.sends sof phase f with objs := c.objs } := by
    unfold Can.sends Can.drivesMode
    split <;> rfl
  have hobj (c : Can) (i : Nat) : (c.sends sof phase f).obj i = c.obj i := by rw [hsent]; rfl
  have hobjs (c : Can) : (c.sends sof phase f).objs = c.objs := by rw [hsent]
  cases hsrc : f.src with
  | object i =>
    simp only [hsrc] at hbody
    refine completes_of_changesOnly (c := .canFrameTransmitted t k sof (.sent phase)) (l := [.can, .sup]) hsettled rfl hbody
      (.of _ (can := .inl (by simp)) (sup := .inl (by simp))) fun s' h htouches => ?_
    obtain ⟨hcan, hothers⟩ := h.can_of (k := k) (by simp only [Dev.modObj, Dev.modCan, upd_upd]; rfl)
    refine ⟨⟨_, hcan, fun j hj => ?_⟩, hothers, htouches, fun _ => h.sup, fun hgasp => by cases hgasp⟩
    cases hj
    rw [hobj, hobjs]
  | gasp =>
    simp only [hsrc] at hbody
    refine completes_of_changesOnly (c := .canFrameTransmitted t k sof (.sent phase)) (l := [.can, .sup]) hsettled rfl hbody
      (.of _ (can := .inl (by simp)) (sup := .inl (by simp))) fun s' h htouches => ?_
    obtain ⟨hcan, hothers⟩ := h.can_of (k := k) rfl
    exact ⟨⟨_, hcan, fun j hj => by cases hj⟩, hothers, htouches, fun hgasp => absurd rfl hgasp, fun _ => by rw [h.sup]; rfl⟩
  | service | stream _ =>
    simp only [hsrc] at hbody
    refine completes_of_changesOnly (c := .canFrameTransmitted t k sof (.sent phase)) (l := [.can, .sup]) hsettled rfl hbody
      (.of _ (can := .inl (by simp))) fun s' h htouches => ?_
    obtain ⟨hcan, hothers⟩ := h.can_of (k := k) rfl
    exact ⟨⟨_, hcan, fun j hj => by cases hj⟩, hothers, htouches, fun _ => h.sup, fun hgasp => by cases hgasp⟩

end

section
variable {s : State} {t : Ns} {k : Fin 4} (hsettled : s.dev.settled)
include hsettled

/-- What any outcome of a transmission leaves of the controllers' parts. -/
theorem transmission_outcomes {sof : Ns} {f : TxFrame} (hactive : s.dev.canActive k = true)
    (hoffered : offeredFrame sof (s.dev.can[k].txq.filter (s.dev.mayOffer k)) = some f) :
    Completes (.canFrameTransmitted t k sof .lost) s (s.touches []) ∧
    (Completes (.canFrameTransmitted t k sof .stuffLost) s fun s' =>
      s'.dev.can[k] = { s.dev.can[k] with lec := errorCode .stuff } ∧ (∀ j, j ≠ k → s'.dev.can[j] = s.dev.can[j]) ∧ s.touches [.can] s') ∧
    ∀ (e : CanError) (more : Nat), e ≠ .ack ∨ s.dev.can[k].tec ≤ 127 → Completes (.canFrameTransmitted t k sof (.error e more)) s fun s' =>
      s'.dev.can[k] = { s.dev.can[k] with tec := s.dev.can[k].tec + 8 + 8 * more, lec := errorCode e } ∧
        (∀ j, j ≠ k → s'.dev.can[j] = s.dev.can[j]) ∧ s.touches [.can] s' := by
  refine ⟨completes_untouched hsettled rfl (frameTransmitted_lost (d := s.dev.at t) hactive hoffered),
    completes_can (c := .canFrameTransmitted t k sof .stuffLost) hsettled rfl
      (frameTransmitted_stuffLost (d := s.dev.at t) hactive hoffered), fun e more htec => ?_⟩
  refine (completes_can (c := .canFrameTransmitted t k sof (.error e more)) hsettled rfl
    (frameTransmitted_error (d := s.dev.at t) hactive hoffered e more)).imp fun s' hs' => ?_
  obtain ⟨hcan, hothers, htouches⟩ := hs'
  refine ⟨?_, hothers, htouches⟩
  have hcounts : ¬(e = .ack ∧ 127 < s.dev.can[k].tec) := fun ⟨hack, hpassive⟩ =>
    htec.elim (absurd hack) (Nat.not_le_of_lt hpassive)
  rw [hcan, Can.txError, if_neg hcounts]

/-- Errors of a receiver, bus-off, and the two ways out of it (R306). -/
theorem errors_and_busOff (t : Ns) (k : Fin 4) :
    let c := s.dev.can[k]
    let only (x : Can) (s' : State) : Prop := s'.dev.can[k] = x ∧ ∀ j, j ≠ k → s'.dev.can[j] = s.dev.can[j]
    (∀ (e : CanError) (more : Nat), s.dev.canActive k = true → Completes (.canBusError t k ⟨e, more⟩) s fun s' =>
      only { c with lec := errorCode e, recCnt := min 255 (c.recCnt + 1 + 8 * more) } s' ∧ s.touches [.can] s') ∧
    (∀ (e : CanError) (more : Nat), s.dev.canActive k = false → Completes (.canBusError t k ⟨e, more⟩) s (s.touches [])) ∧
    (s.dev.canActive k = true → 255 < c.tec → s.onlyNoted 19 → Completes (.busOff t k) s fun s' =>
      only { c with busOff := true, busoffSeen := true, recovering := !bit c.cfg 1 } s' ∧ s.reported 19 s' ∧
      s.touches [.can, .flt, .recs, .snap] s') ∧
    (s.dev.canActive k = false ∨ c.tec ≤ 255 → Completes (.busOff t k) s (s.touches [])) ∧
    (c.busOff = true → c.recovering = true → Completes (.busOffRecovery t k) s fun s' =>
      only { c with busOff := false, recovering := false, tec := 0, recCnt := 0 } s' ∧ s.touches [.can] s') ∧
    (c.busOff = false ∨ c.recovering = false → Completes (.busOffRecovery t k) s (s.touches [])) ∧
    (∀ p : Path, c.busOff = true → bit c.cfg 1 = true → Completes (.recover t p k) s fun s' =>
      only { c with recovering := true } s' ∧ s.touches [.can, .paths] s') ∧
    (∀ p : Path, c.busOff = false ∨ bit c.cfg 1 = false → Completes (.recover t p k) s (s.touches [.paths])) := by
  intro c only
  refine ⟨fun e more hactive => ?_, fun e more hidle => ?_, fun hactive htec hnoted => ?_, fun h => ?_, fun hoff hrec => ?_, fun h => ?_,
    fun p hoff hpolicy => ?_, fun p h => ?_⟩
  · exact (completes_can (c := .canBusError t k ⟨e, more⟩) hsettled rfl (if_pos hactive)).imp
      fun _ ⟨hcan, hothers, htouches⟩ => ⟨⟨hcan, hothers⟩, htouches⟩
  · exact completes_untouched (c := .canBusError t k ⟨e, more⟩) hsettled rfl (if_neg (Bool.eq_false_iff.mp hidle))
  · refine completes_of_raise (c := .busOff t k) (src := 19) (l := [.can]) rfl
      (if_pos ((Bool.and_eq_true ..).mpr ⟨hactive, decide_eq_true htec⟩)) hsettled rfl rfl rfl rfl rfl hnoted
      (((s.dev.changesOnly_at _ t).trans (changesOnly_modCan _ _)).parts s) fun s' h hreported htouches => ?_
    obtain ⟨hcan, hothers⟩ := h.can_of (k := k) (f := fun c => { c with busOff := true, busoffSeen := true, recovering := !bit c.cfg 1 })
      (noted_report _ _).can
    exact ⟨⟨hcan, hothers⟩, hreported, htouches.mono (by simp)⟩
  · refine completes_untouched (c := .busOff t k) hsettled rfl (if_neg fun hboth => ?_)
    obtain ⟨hactive, htec⟩ := (Bool.and_eq_true ..).mp hboth
    exact h.elim (fun hidle => Bool.false_ne_true (hidle.symm.trans hactive)) (Nat.not_le_of_lt (of_decide_eq_true htec))
  · exact (completes_can (c := .busOffRecovery t k) hsettled rfl rfl).imp
      fun _ ⟨hcan, hothers, htouches⟩ => ⟨⟨hcan.trans (if_pos ((Bool.and_eq_true ..).mpr ⟨hoff, hrec⟩)), hothers⟩, htouches⟩
  · refine completes_untouched (c := .busOffRecovery t k) hsettled rfl (modCan_still (if_neg fun hboth => ?_))
    obtain ⟨hoff, hrec⟩ := (Bool.and_eq_true ..).mp hboth
    exact h.elim (fun h => Bool.false_ne_true (h.symm.trans hoff)) fun h => Bool.false_ne_true (h.symm.trans hrec)
  · refine completes_of_changesOnly (c := .recover t p k) (l := [.can, .paths]) hsettled rfl rfl
      (.of _ (can := .inl (by simp)) (paths := .inl (by simp))) fun s' h htouches => ?_
    obtain ⟨hcan, hothers⟩ := h.can_of (k := k) rfl
    exact ⟨⟨hcan.trans (if_pos ((Bool.and_eq_true ..).mpr ⟨hoff, hpolicy⟩)), hothers⟩, htouches⟩
  · refine completes_of_changesOnly (c := .recover t p k) hsettled rfl (modCan_still (if_neg fun hboth => ?_))
      (Dev.changesOnly_disarm p _) fun _ _ htouches => htouches
    obtain ⟨hoff, hpolicy⟩ := (Bool.and_eq_true ..).mp hboth
    exact h.elim (fun h => Bool.false_ne_true (h.symm.trans hoff)) fun h => Bool.false_ne_true (h.symm.trans hpolicy)

end

/-- Settles O54: each command on objects, frames and error states is traced to what it changes of its controller. -/
theorem canTransmission : Obligations.CanTransmission := by
  unfold Obligations.CanTransmission
  refine ⟨fun s t k hclean => ?_, fun s t k hsettled => errors_and_busOff hsettled t k⟩
  intro c others
  refine ⟨fun i => ?_, fun sof f hactive hf hat hmay hfirst => ?_, fun sof r h => ?_⟩
  · intro o x queued due
    have hend : (s.dev.at t).timeEnd s.env k i.val = max x.from_ c.startAt + o.time := by
      unfold Dev.timeEnd
      rfl
    have hdue : due = ((s.dev.at t).timeEnd s.env k i.val ≤ (s.dev.at t).dtime) := by
      rw [hend]
      rfl
    clear_value due
    subst hdue
    refine ⟨fun hmode hkind htime hfresh hdue => ?_, fun h => ?_, fun hmode hon hkind htime hdue => ?_, fun h => ?_,
      fun hmode hkind hflag hfree hnew => ?_, fun h => ?_⟩
    · exact completes_receiveStale (t := t) hclean hmode hkind htime hfresh (Nat.not_lt_of_le hdue)
    · exact completes_untouched (c := .receiveStale t k i) hclean.1.2 rfl (receiveStale_waits (e := s.env) (k := k) (i := i.val) (d := s.dev.at t) h)
    · have hmode' : ((s.dev.at t).modObj k i.val (ObjStat.nextPeriod ((s.dev.at t).timeEnd s.env k i.val))).objMode k = true :=
        (objMode_congr (congrArg Can.cfg (modObj_can ..) :) (congrArg Can.busOff (modObj_can ..) :) rfl).trans hmode
      have hturn := completes_packs (c := .transmitPeriod t k i) (f := ObjStat.nextPeriod ((s.dev.at t).timeEnd s.env k i.val)) hclean
        (nextPeriod_skipped _) rfl (transmitPeriod_due (e := s.env) (k := k) (i := i.val) (d := s.dev.at t) hmode hon hkind htime hdue) (.inl (packObject_turn hclean.2.1 hmode'))
      refine hturn.imp fun s' hs' => ?_
      obtain ⟨hqueued, hfrom⟩ := hs'
      exact ⟨hqueued, hfrom.trans ((nextPeriod_from ..).trans hend)⟩
    · exact completes_untouched (c := .transmitPeriod t k i) hclean.1.2 rfl (transmitPeriod_waits (e := s.env) (k := k) (i := i.val) (d := s.dev.at t) h)
    · exact (completes_packs (c := .transmitOnChange t k i) (f := id) hclean (fun _ => rfl) rfl
        (transmitOnChange_changed (e := s.env) (k := k) (i := i.val) (d := s.dev.at t) hkind hflag hfree hnew)
        (.inr ⟨packObject_turn (d := s.dev.at t) hclean.2.1 hmode, fun _ => rfl⟩)).imp fun _ h => h.1
    · exact completes_untouched (c := .transmitOnChange t k i) hclean.1.2 rfl (transmitOnChange_same (e := s.env) (k := k) (i := i.val) (d := s.dev.at t) h)
  · have hoffered : offeredFrame sof (c.txq.filter (s.dev.mayOffer k)) = some f :=
      offeredFrame_first (List.mem_filter.mpr ⟨hf, hmay⟩) hat fun g hg hne hsof =>
        hfirst g (List.mem_filter.mp hg).1 hne hsof (List.mem_filter.mp hg).2
    refine ⟨fun phase => ?_, transmission_outcomes hclean.1.2 hactive hoffered⟩
    refine (completes_sent (t := t) hclean.1.2 hactive hoffered phase).imp
      fun s' hs' => ?_
    obtain ⟨⟨objs, hcan, hobjs⟩, hothers, htouches, hsup, hgasp⟩ := hs'
    have hmode : (Can.sends sof phase f c).modeHigh = if bit c.cfg 2 = true ∧ f.frame.format = .xl then some phase else c.modeHigh := by
      simp only [Can.sends, Can.drivesMode, Can.outFrame, Bool.and_eq_true, beq_iff_eq]
      split <;> rfl
    have hrx : (Can.sends sof phase f c).rx = c.rx := by
      simp only [Can.sends, Can.drivesMode]
      split <;> rfl
    simp only [hcan]
    refine ⟨rfl, hmode, rfl, rfl, rfl, hrx, hothers, htouches, hsup, hgasp, fun i hsrc => ?_⟩
    rw [hobjs i hsrc]
    have hobj (x : Can) := obj_objPut (i := i) { x with objs := c.objs } ((c.obj i).sends sof)
    exact ⟨congrArg ObjStat.lastSent (hobj _), congrArg ObjStat.sentAt (hobj _), congrArg ObjStat.frames (hobj _)⟩
  · exact completes_untouched (c := .canFrameTransmitted t k sof r) hclean.1.2 rfl (frameTransmitted_none (d := s.dev.at t) h r)

end Sys2Proof.Machine
end

section
/-! O53: frames that arrive at a CAN controller (R305, R313 to R315, R318, R319). -/

namespace Sys2Proof.Machine

open Sys2Proof

/-! ### Service queues that wait (R318) -/

/-- A request that the device serves by a command of its own: a known one that is not the partner's. -/
def SvcReq.Own (r : SvcReq) : Prop := svcUnknown r.op = false ∧ r.op.getLsbD 6 = false

theorem svcForward_own {k : Fin 4} {d : Dev} (h : ∀ r ∈ d.can[k].svcQ, r.Own) : d.svcForward k = d := by
  unfold Dev.svcForward
  extract_lets c
  match hq : c.svcQ with
  | [] => rfl
  | r :: l =>
    obtain ⟨hknown, hown⟩ := h r (by rw [show d.can[k].svcQ = r :: l from hq]; exact List.mem_cons_self)
    exact if_pos (by rw [hknown, hown]; rfl)

/-- Where every queue holds requests of the device's own, none moves on. -/
theorem svcAdvance_own {d : Dev} (h : ∀ k : Fin 4, ∀ r ∈ d.can[k].svcQ, r.Own) : d.svcAdvance = d :=
  foldl_still _ fun k _ => by
    have hone := svcForward_own (h k)
    simp only [hone]

section
variable {e : Env} {k : Fin 4} {f : CanFrame} {d : Dev}

/-! ### A frame at an active controller (R305, R313) -/

/-- The controller with CAN_k_MODE as the frame shows it. -/
theorem drivesMode_eq (f : CanFrame) (c : Can) :
    c.drivesMode f = { c with modeHigh := if bit c.cfg 2 = true ∧ f.format = .xl then some f.phase else c.modeHigh } := by
  unfold Can.drivesMode
  simp only [Bool.and_eq_true, beq_iff_eq]
  split <;> rfl

theorem canFrame_idle (h : d.canActive k = false) : d.canFrame e k f = d := if_pos (by rw [h]; rfl)

/-- A controller with no error counted hands the frame on. -/
theorem canFrame_active (h : d.canActive k = true) (hgood : d.can[k].recCnt = 0) :
    d.canFrame e k f = if d.isRequest k f = true then (d.modCan k (Can.drivesMode f)).svcArrive k f
      else (d.modCan k (Can.drivesMode f)).receiveObj e k f := by
  have hrx : d.rxGood k = d := if_pos hgood
  have hsvc : (d.modCan k (Can.drivesMode f)).can[k].svc = d.can[k].svc := by rw [modCan_same, drivesMode_eq]
  have hrequest : (d.modCan k (Can.drivesMode f)).isRequest k f = d.isRequest k f := by
    unfold Dev.isRequest
    rw [hsvc]
    rfl
  unfold Dev.canFrame
  simp only [h, hrx, hrequest, Bool.not_true, Bool.false_eq_true, if_false]

/-- The objects are looked through in ascending order. -/
theorem findObj_clean (herrs : d.memu.errs = []) (l : List Nat) :
    d.findObj e k f l = (l.find? fun i => (e.obj k i).matches_ f, d) := by
  induction l with
  | nil => rfl
  | cons i l ih =>
    simp only [Dev.findObj, msgBad_clean herrs, Bool.not_false, Bool.true_and]
    cases hmatch : (e.obj k i).matches_ f with
    | true => simp [hmatch]
    | false => simp [hmatch, ih]

theorem receiveObj_stranger (herrs : d.memu.errs = []) (h : f.remote = true ∨ d.objMode k = false ∨
    ∀ i, i < 128 → (e.obj k i).matches_ f = false) : d.receiveObj e k f = d.stranger k := by
  unfold Dev.receiveObj
  split
  · rfl
  · next hserves =>
    simp only [Bool.or_eq_true, Bool.not_eq_true', not_or, Bool.not_eq_false, Bool.not_eq_true] at hserves
    obtain ⟨hdata, hmode⟩ := hserves
    have hnone := (h.resolve_left (by simp [hdata])).resolve_left (by simp [hmode])
    have hfind : (List.range 128).find? (fun i => (e.obj k i).matches_ f) = none := by
      simpa [List.find?_eq_none] using hnone
    rw [findObj_clean herrs, hfind]

theorem receiveObj_first {i : Nat} (herrs : d.memu.errs = []) (hdata : f.remote = false) (hmode : d.objMode k = true) (hi : i < 128)
    (hearlier : ∀ j, j < i → (e.obj k j).matches_ f = false) (hmatch : (e.obj k i).matches_ f = true) :
    d.receiveObj e k f = d.unpack e k i f := by
  have hfind : (List.range 128).find? (fun i => (e.obj k i).matches_ f) = some i := by
    rw [List.find?_range_eq_some]
    exact ⟨hmatch, List.mem_range.mpr hi, fun j hj => by simp [hearlier j hj]⟩
  simp only [Dev.receiveObj, hdata, hmode, findObj_clean herrs, hfind, Bool.not_true, Bool.or_self, Bool.false_eq_true, if_false]

/-- An input slot of the hardware takes what its source gives it, while no tag is damaged (R224). -/
theorem hwSlot_input (hdead : d.memu.deadTags = []) {i : Nat} (hi : i < 16384) (hinput : (e.attr i).cls = 1 ∧ (e.attr i).writer = 8)
    (v : W64) (g : Byte) : d.hwSlot e i v g = d.write (.slot i v (g ||| ((e.attr i).tag &&& 0x10))) := by
  unfold Dev.hwSlot
  rw [if_neg (Nat.not_le_of_lt hi), if_neg (by simp [Dev.tagDead_clean hdead]), if_pos hinput]

/-! ### What a matched frame leaves (R313 to R315) -/

/-- An object that a frame too short for it has reached. -/
def ObjStat.getsShort (now : Ns) (x : ObjStat) : ObjStat := { x with short := x.short + 1, stale := false, from_ := now }

/-- An object that a frame has reached. -/
def ObjStat.gets (sof now : Ns) (x : ObjStat) : ObjStat :=
  { x with stale := false, frames := x.frames + 1, time := sof, from_ := now }

theorem unpack_short {i : Nat} (h : f.data.length < (e.obj k i).len) :
    d.unpack e k i f = d.modObj k i (ObjStat.getsShort d.dtime) := if_pos h

/-- The raw units that a signal of a frame stands for (R314). -/
def Env.received (e : Env) (k : Fin 4) (i n : Nat) (f : CanFrame) : Int :=
  (e.scale k (fld (e.sig k n) 40 8)).2 + (e.scale k (fld (e.sig k n) 40 8)).1 * sigRaw (e.sig k n) (f.data.take (e.obj k i).len)

/-- The tag of its slot: OVER beside VALID where the number leaves the range, and WVIOL as it was (R226). -/
def Env.receivedTag (e : Env) (k : Fin 4) (i n : Nat) (f : CanFrame) : Byte :=
  (if outOfRange (e.received k i n f) then 5 else 1) ||| ((e.attr (fld (e.sig k n) 24 14)).tag &&& 0x10)

/-- A controller whose object `i` a frame has reached. -/
def Can.gets (i : Nat) (sof now : Ns) (c : Can) : Can :=
  { c with objs := objPut c.objs i ((c.obj i).gets sof now), rx := c.rx + 1 }

/-- `d` with a frame unpacked for object `i`, whose one signal is `n`: its payload and its slot are to be written. -/
def Dev.unpacked (e : Env) (k : Fin 4) (i n : Nat) (f : CanFrame) (d : Dev) : Dev :=
  ((d.write (.bytes (msgAddr k (e.obj k i).buf) (f.data.take (e.obj k i).len))).write
    (.slot (fld (e.sig k n) 24 14) (slotNumber (e.received k i n f)) (e.receivedTag k i n f))).modCan k (Can.gets i f.sof d.dtime)

/-- A whole frame is unpacked, and the lists that wait for it fire. -/
theorem unpack_whole {i n : Nat} (hclean : d.memu.errs = [] ∧ d.memu.deadTags = []) (hlen : (e.obj k i).len ≤ f.data.length)
    (hsigs : (e.obj k i).sigs = [n])
    (hinput : (e.attr (fld (e.sig k n) 24 14)).cls = 1 ∧ (e.attr (fld (e.sig k n) 24 14)).writer = 8) :
    d.unpack e k i f = (d.unpacked e k i n f).fire 3 fun s => s % 4 == k.val && s / 4 % 1024 == i := by
  have hunpack (d' : Dev) (hdead : d'.memu.deadTags = []) (l : List Byte) (hl : l = f.data.take (e.obj k i).len) :
      d'.unpackSig e k l n = d'.write (.slot (fld (e.sig k n) 24 14) (slotNumber (e.received k i n f)) (e.receivedTag k i n f)) := by
    subst hl
    simp only [Dev.unpackSig, qSat_eq, hwSlot_input hdead (fld_lt ..) hinput]
    rfl
  unfold Dev.unpack
  extract_lets o payload
  rw [if_neg (Nat.not_lt_of_le hlen), msgBad_clean hclean.1]
  simp only [Bool.false_eq_true, if_false, o, hsigs, List.foldl_cons, List.foldl_nil]
  rw [hunpack (d.write (.bytes (msgAddr k (e.obj k i).buf) payload)) hclean.2 payload rfl]
  simp only [Dev.modObj, modCan_modCan]
  rfl

end

section
variable {s : State} {t : Ns} {k : Fin 4} {f : CanFrame} {d : Dev}

/-- The controller as a frame finds it once CAN_k_MODE shows the frame (R305). -/
def State.receiving (s : State) (k : Fin 4) (f : CanFrame) : Can :=
  { s.dev.can[k] with
    modeHigh := if bit s.dev.can[k].cfg 2 = true ∧ f.format = .xl then some f.phase else s.dev.can[k].modeHigh }

/-- A frame at an active controller with no error counted, where it leads to a change of the controller alone. -/
theorem completes_frame {g : Can → Can} (hsettled : s.dev.settled) (hactive : s.dev.canActive k = true)
    (hgood : (s.receiving k f).recCnt = 0)
    (hbody : (if s.dev.isRequest k f = true then ((s.dev.at t).modCan k (Can.drivesMode f)).svcArrive k f
      else ((s.dev.at t).modCan k (Can.drivesMode f)).receiveObj s.env k f) =
        ((s.dev.at t).modCan k (Can.drivesMode f)).modCan k g) :
    Completes (.canFrameReceived t k f) s fun s' => s'.dev.can[k] = g (s.receiving k f) ∧
      (∀ j, j ≠ k → s'.dev.can[j] = s.dev.can[j]) ∧ s.touches [.can] s' := by
  refine (completes_can (c := .canFrameReceived t k f) (f := fun c => g (c.drivesMode f)) hsettled rfl
    ((canFrame_active (d := s.dev.at t) hactive hgood).trans (hbody.trans (modCan_modCan ..)))).imp
    fun s' hs' => ?_
  obtain ⟨hcan, hothers, htouches⟩ := hs'
  exact ⟨hcan.trans (congrArg g (drivesMode_eq ..)), hothers, htouches⟩

/-- The memories after a payload and a slot are written (R314). -/
theorem received_mems {m : Mems} (hwf : m.wf = true) {a i : Nat} {l : List Byte} {v : W64} {g : Byte} (hend : a + l.length ≤ sysBase)
    (hmsg : msgBase ≤ a) (hi : i < 16384) :
    let m' := (MemOp.slot i v g).apply ((MemOp.bytes a l).apply m)
    m'.word (slotAddr i) = v ∧ sget {} m'.attrs i = { sget {} m.attrs i with tag := g } ∧
      ∀ j, j < l.length → m'.byte (a + j) = (l[j]?).getD 0 := by
  intro m'
  have hwf' := Mems.wf_apply hwf (MemOp.bytes a l)
  refine ⟨word_slot hwf' hi v g, ?_, fun j hj => ?_⟩
  · rw [attr_slot hwf' hi, if_pos rfl, MemOp.apply_attrs]
    rfl
  · have hslots : slotAddr i + 8 ≤ a + j := by
      simp only [slotAddr, slotBase, msgBase] at *
      omega
    rw [byte_slot hwf' hi v g _ (.inr hslots)]
    refine byte_bytes hwf l ?_ hj
    simp only [sysBase, sramSize] at *
    omega

/-- A frame is whole for an object, and the object's buffer lies in message memory. -/
def Env.Fits (e : Env) (k : Fin 4) (i : Nat) (f : CanFrame) : Prop :=
  (e.obj k i).len ≤ f.data.length ∧ msgAddr k ((e.obj k i).buf + (e.obj k i).len) ≤ sysBase

theorem drivesMode_keeps (f : CanFrame) (c : Can) : (c.drivesMode f).cfg = c.cfg ∧ (c.drivesMode f).busOff = c.busOff := by
  rw [drivesMode_eq]
  exact ⟨rfl, rfl⟩

theorem objMode_drivesMode : (d.modCan k (Can.drivesMode f)).objMode k = d.objMode k := by
  obtain ⟨hcfg, hbus⟩ := drivesMode_keeps f d.can[k]
  refine objMode_congr (d := d) ?_ ?_ (modCan_sup ..)
  · rw [modCan_same, hcfg]
  · rw [modCan_same, hbus]

/-- A whole frame for an object of one signal. -/
theorem completes_whole {i n : Nat} (hclean : s.clean) (hactive : s.dev.canActive k = true) (hgood : (s.receiving k f).recCnt = 0)
    (hrequest : s.dev.isRequest k f = false) (hobject : ∀ d : Dev, d.memu = s.dev.memu → d.objMode k = true →
      d.receiveObj s.env k f = d.unpack s.env k i f) (hmode : s.dev.objMode k = true)
    (hfits : s.env.Fits k i f)
    (hroom : s.room [3]) (hsigs : (s.env.obj k i).sigs = [n])
    (hinput : (s.attr (fld (s.env.sig k n) 24 14)).cls = 1 ∧ (s.attr (fld (s.env.sig k n) 24 14)).writer = 8) :
    Completes (.canFrameReceived t k f) s fun s' =>
      s'.slot (fld (s.env.sig k n) 24 14) = slotNumber (s.env.received k i n f) ∧
      s'.attr (fld (s.env.sig k n) 24 14) = { s.attr (fld (s.env.sig k n) 24 14) with tag := s.env.receivedTag k i n f } ∧
      (∀ j, j < (s.env.obj k i).len → s'.mems.byte (msgAddr k (s.env.obj k i).buf + j) = (f.data[j]?).getD 0) ∧
      s'.dev.can[k] = (s.receiving k f).gets i f.sof (s.now t) ∧
      (∀ j, j ≠ k → s'.dev.can[j] = s.dev.can[j]) ∧ s.touches [.can, .mems, .calc] s' := by
  have hmode' := (objMode_drivesMode (d := s.dev.at t) (k := k) (f := f)).trans hmode
  have hbody := canFrame_active (e := s.env) (d := s.dev.at t) (f := f) hactive hgood
  have hrequest' : ¬(s.dev.at t).isRequest k f = true := Bool.eq_false_iff.mp hrequest
  rw [if_neg hrequest', hobject ((s.dev.at t).modCan k (Can.drivesMode f)) rfl hmode', unpack_whole (d := (s.dev.at t).modCan k (Can.drivesMode f)) hclean.2
    hfits.1 hsigs hinput] at hbody
  obtain ⟨ce, hfire⟩ := fire_fits (s := s) (kind := 3) (d := ((s.dev.at t).modCan k (Can.drivesMode f)).unpacked s.env k i n f) hroom
    (fun _ => le_rfl) rfl fun s => s % 4 == k.val && s / 4 % 1024 == i
  refine completes_of_changesOnly (c := .canFrameReceived t k f) (l := [.can, .mems, .calc]) hclean.1.2 rfl (hbody.trans hfire)
    (.of _ (can := .inl (by simp)) (writes := .inl (by simp)) (calc_ := .inl (by simp))) fun s' h htouches => ?_
  obtain ⟨hcan, hothers⟩ := h.can_of (k := k) (f := fun c => (c.drivesMode f).gets i f.sof (s.now t)) (upd_upd ..)
  have hmems : s'.mems = (MemOp.slot (fld (s.env.sig k n) 24 14) (slotNumber (s.env.received k i n f)) (s.env.receivedTag k i n f)).apply
      ((MemOp.bytes (msgAddr k (s.env.obj k i).buf) (f.data.take (s.env.obj k i).len)).apply s.mems) := by
    refine h.mems.trans ?_
    show ((s.dev.writes ++ [_]) ++ [_]).foldl _ _ = _
    rw [hclean.1.2.2]
    rfl
  have htake : (f.data.take (s.env.obj k i).len).length = (s.env.obj k i).len :=
    List.length_take_of_le hfits.1
  obtain ⟨hword, hattr, hbytes⟩ := received_mems hclean.1.1 (l := f.data.take (s.env.obj k i).len)
    (a := msgAddr k (s.env.obj k i).buf) (i := fld (s.env.sig k n) 24 14) (v := slotNumber (s.env.received k i n f))
    (g := s.env.receivedTag k i n f) (by rw [htake, msgAddr, Nat.add_assoc]; exact hfits.2) (by simp only [msgAddr]; omega) (fld_lt ..)
  refine ⟨?_, ?_, fun j hj => ?_, ?_, hothers, htouches⟩
  · rw [State.slot, hmems]
    exact hword
  · rw [State.attr, hmems]
    exact hattr
  · rw [hmems, hbytes j (htake.symm ▸ hj), List.getElem?_take_of_lt hj]
  · exact hcan.trans (congrArg (Can.gets i f.sof (s.now t)) (drivesMode_eq ..))

end

/-- Settles O53: an arriving frame is followed to the service queue, to the count of strangers, or to its object. -/
theorem canReception : Obligations.CanReception := by
  unfold Obligations.CanReception
  intro s t k f hclean high c quiet others
  have herrs : ((s.dev.at t).modCan k (Can.drivesMode f)).memu.errs = [] := hclean.2.1
  have hcan : ((s.dev.at t).modCan k (Can.drivesMode f)).can[k] = c := (modCan_same ..).trans (drivesMode_eq ..)
  refine ⟨fun hidle => ?_, fun hactive hgood hrequest hfull => ?_, fun hactive hgood hrequest hroom hquiet hall => ?_,
    fun hactive hgood hrequest hstranger => ?_, fun i hi hactive hgood hrequest hdata hmode hearlier hmatch => ⟨fun hshort => ?_,
      fun hlen hend hroom n hsigs hcls hwriter => ?_⟩⟩
  · exact completes_untouched (c := .canFrameReceived t k f) hclean.1.2 rfl (canFrame_idle (d := s.dev.at t) hidle)
  · refine completes_frame hclean.1.2 hactive hgood ((if_pos hrequest).trans (if_pos ?_))
    exact hcan ▸ hfull
  · refine completes_frame (g := fun c => { c with svcQ := c.svcQ ++ [requestOf f], lastReq := s.now t }) hclean.1.2 hactive hgood
      ((if_pos hrequest).trans ((if_neg ?_).trans (svcAdvance_own ?_)))
    · exact hcan ▸ Nat.not_le_of_lt hroom
    · intro j r hr
      by_cases hjk : j = k
      · subst hjk
        rw [modCan_same, hcan] at hr
        exact (List.mem_append.mp hr).elim (hall j r) fun hnew => List.mem_singleton.mp hnew ▸ hquiet
      · rw [modCan_other hjk, modCan_other hjk] at hr
        exact hall j r hr
  · exact completes_frame hclean.1.2 hactive hgood ((if_neg (Bool.eq_false_iff.mp hrequest)).trans
      (receiveObj_stranger herrs (hstranger.imp id (.imp objMode_drivesMode.trans id))))
  · have hfirst := receiveObj_first (e := s.env) herrs hdata (objMode_drivesMode.trans hmode) hi hearlier hmatch
    refine (completes_frame (t := t) hclean.1.2 hactive hgood ((if_neg (Bool.eq_false_iff.mp hrequest)).trans
      (hfirst.trans (unpack_short hshort)))).imp fun s' hs' => ?_
    obtain ⟨hafter, hothers, htouches⟩ := hs'
    rw [hafter]
    exact ⟨obj_objPut .., rfl, hothers, htouches⟩
  · refine (completes_whole (t := t) (n := n) hclean hactive hgood hrequest
      (fun d hmemu hmode => receiveObj_first (hmemu ▸ hclean.2.1) hdata hmode hi hearlier hmatch) hmode ⟨hlen, hend⟩ hroom hsigs
      ⟨hcls, hwriter⟩).imp fun s' hs' => ?_
    obtain ⟨hslot, hattr, hbytes, hafter, hothers, htouches⟩ := hs'
    rw [hafter]
    exact ⟨hslot, hattr, hbytes, obj_objPut .., rfl, hothers, htouches⟩

end Sys2Proof.Machine
end

section
/-! The service channel: a request that is served alone, its answer, and the accesses it asks for (R318 to R320). -/

namespace Sys2Proof.Machine

open Sys2Proof

/-! ### Responses (R318) -/

/-- A response of controller `k`, from its head and its data. -/
def Dev.response (k : Fin 4) (fd : Bool) (head : List Byte) (v : W64) (d : Dev) : TxFrame :=
  { src := .service, at_ := d.dtime
    frame :=
      { format := if fd then .fd else .classical, ide := bit d.can[k].svc 29, id := BitVec.ofNat 29 (fld d.can[k].svc 32 29), remote := false
        brs := fd && Config.svcBrs, sdt := 0, vcid := 0, af := 0, data := head ++ leBytes (if fd then 8 else 4) v.toNat, sof := 0 } }

/-- A controller with one more frame in its queue. -/
def Can.queues (f : TxFrame) (c : Can) : Can := { c with txq := c.txq ++ [f] }

section
variable {k : Fin 4} {r : SvcReq} {d d' : Dev}

theorem svcRuns_congr (hcfg : d'.can[k].cfg = d.can[k].cfg) (hsup : d'.sup = d.sup) : d'.svcRuns k = d.svcRuns k := by
  simp only [Dev.svcRuns, Dev.canMode, Dev.canRecovery, Dev.clocksOk, hcfg, hsup]

theorem svcSend_runs (hruns : d.svcRuns k = true) (hoff : d.can[k].busOff = false) (fd : Bool) (head : List Byte) (v : W64) :
    d.svcSend k fd head v = d.modCan k (Can.queues (d.response k fd head v)) := by
  have htakes : Can.takes (d.response k fd head v) d.can[k] = d.can[k].queues (d.response k fd head v) :=
    if_neg (Bool.eq_false_iff.mp hoff)
  refine (if_pos hruns).trans ?_
  exact congrArg (fun c => { d with can := c }) (upd_congr htakes)

/-- An answer whose data R318 leaves open takes them from what is free to choose. -/
theorem svcAnswer_runs (hruns : d.svcRuns k = true) (hoff : d.can[k].busOff = false) (status : Nat) (data : Option W64) :
    ∃ (v : W64) (n : Nat), d.svcAnswer k r status data =
      ({ d with free := n } : Dev).modCan k (Can.queues (d.response k r.fd (svcHead r status) v)) ∧ ∀ y, data = some y → v = y := by
  cases data with
  | some y => exact ⟨y, d.free, svcSend_runs hruns hoff .., fun z h => Option.some.inj h⟩
  | none => exact ⟨_, _, svcSend_runs (d := { d with free := d.free + 1 }) hruns hoff .., nofun⟩

theorem response_id (fd : Bool) (head : List Byte) (v : W64) :
    (d.response k fd head v).frame.id = BitVec.ofNat 29 (fld d.can[k].svc 32 29) := rfl

/-! ### A request that is served (R21, R318) -/

/-- The head of a controller's queue taken. -/
def Can.taken (c : Can) : Can := { c with svcQ := c.svcQ.drop 1, reqs := c.reqs + 1, staged := none }

theorem portTurn_alone (h : ∀ j, j ≠ k → d.can[j].svcQ = []) : d.portTurn k = true := by
  unfold Dev.portTurn
  refine List.all_eq_true.mpr fun j _ => ?_
  by_cases hj : j = k
  · simp [hj]
  · rw [h j hj]
    simp

theorem svcServe_waits (op : Byte) (act : SvcReq → Can → Dev → Dev) (hport : svcPort op = true) (h : d.portTurn k = false) :
    d.svcServe k op act = d := by
  unfold Dev.svcServe
  extract_lets c
  split
  · rfl
  · exact if_pos (by simp [hport, h])

section
variable (hruns : d.svcRuns k = true) (hqueue : d.can[k].svcQ = [r]) (halone : ∀ j, j ≠ k → d.can[j].svcQ = [])
include hruns hqueue halone

/-- A request served while no other waits. -/
theorem svcServe_alone (act : SvcReq → Can → Dev → Dev) : d.svcServe k r.op act =
    (if d.can[k].lockEnd.isSome = true then (d.svcTake k).svcAnswer k r 6 none else act r d.can[k] (d.svcTake k)).svcAdvance := by
  unfold Dev.svcServe
  simp only [hqueue, hruns, portTurn_alone halone, bne_self_eq_false, Bool.not_true, Bool.and_false, Bool.or_self, Bool.false_eq_true,
    if_false]
  exact (apply_ite Dev.svcAdvance ..).symm

end

theorem svcAdvance_none (h : ∀ j : Fin 4, d.can[j].svcQ = []) : d.svcAdvance = d :=
  svcAdvance_own fun j r hr => by simp [h j, -Fin.getElem_fin] at hr

end

/-! ### A command that serves a request -/

/-- Only controller `k` has a request, it can answer, and the request is `r`. -/
structure State.Asked (s : State) (k : Fin 4) (r : SvcReq) : Prop where
  runs : s.dev.svcRuns k = true
  queue : s.dev.can[k].svcQ = [r]
  on : s.dev.can[k].busOff = false
  alone : ∀ j, j ≠ k → s.dev.can[j].svcQ = []

/-- A response frame to `r`: it repeats operation and number, and carries a status and, where they are given, data. -/
structure State.Responds (s : State) (t : Ns) (k : Fin 4) (r : SvcReq) (status : Nat) (data : Option W64) (x : TxFrame) : Prop where
  src : x.src = .service
  time : x.at_ = s.now t
  id : x.frame.id = BitVec.ofNat 29 (fld s.dev.can[k].svc 32 29)
  format : x.frame.format = if r.fd then .fd else .classical
  head : x.frame.data.take 4 = [r.op ||| 0x80, r.seq, BitVec.ofNat 8 status, 0]
  data : ∀ y, data = some y → x.frame.data.drop 4 = leBytes (if r.fd then 8 else 4) y.toNat

/-- A change of a controller that leaves its queues, its configuration and its state on the bus. -/
structure Can.Holds (f : Can → Can) : Prop where
  txq : ∀ c, (f c).txq = c.txq
  svcQ : ∀ c, (f c).svcQ = c.svcQ
  cfg : ∀ c, (f c).cfg = c.cfg
  svc : ∀ c, (f c).svc = c.svc
  busOff : ∀ c, (f c).busOff = c.busOff
  reqs : ∀ c, (f c).reqs = c.reqs

section
variable {s : State} {t : Ns} {k : Fin 4} {r : SvcReq}

/-- The device with the paths' contexts and what is free to choose as an access leaves them. -/
def Dev.leaving (paths : Vector PathCtx 7) (n : Nat) (d : Dev) : Dev := { d with paths := paths, free := n }

/-- A command that serves a request, and answers once. -/
theorem completes_answers {i : Instr} {body : Env → Dev → Dev} {f : Can → Can} {paths : Vector PathCtx 7} {n status : Nat} {data : Option W64}
    (hsettled : s.dev.settled) (hasked : s.Asked k r) (hf : Can.Holds f) (hexec : exec i s = runAt (stampOf i) body s)
    (hbody : s.after (stampOf i) body =
      (((((s.dev.at (stampOf i)).svcTake k).leaving paths n).modCan k f).svcAnswer k r status data).svcAdvance) :
    Completes i s fun s' => ∃ x, s'.dev.can[k] = (f s.dev.can[k].taken).queues x ∧ s.Responds (stampOf i) k r status data x ∧
      (∀ j, j ≠ k → s'.dev.can[j] = s.dev.can[j]) ∧ s'.dev.paths = paths ∧ s.touches [.can, .paths] s' := by
  have hcans : ((((s.dev.at (stampOf i)).svcTake k).leaving paths n).modCan k f).can = upd s.dev.can k fun c => f c.taken := upd_upd ..
  generalize hd : (((s.dev.at (stampOf i)).svcTake k).leaving paths n).modCan k f = d at hbody hcans
  have hsame : d.sup = s.dev.sup ∧ d.paths = paths ∧ d.dtime = s.now (stampOf i) ∧ (s.dev.at (stampOf i)).ChangesOnly [.can, .paths] d := by
    subst hd
    exact ⟨rfl, rfl, rfl, .of _ (can := .inl (by simp)) (paths := .inl (by simp))⟩
  clear hd
  obtain ⟨hsup, hpaths, htime, honly⟩ := hsame
  have hcan : d.can[k] = f s.dev.can[k].taken := hcans ▸ upd_same ..
  have hothers (j : Fin 4) (hj : j ≠ k) : d.can[j] = s.dev.can[j] := hcans ▸ upd_other _ _ _ _ hj
  have hruns : d.svcRuns k = true := (svcRuns_congr (by rw [hcan, hf.cfg, Can.taken]) hsup).trans hasked.runs
  obtain ⟨v, m, hanswer, hdata⟩ := svcAnswer_runs (r := r) hruns (by rw [hcan, hf.busOff, Can.taken, hasked.on]) status data
  generalize hx : d.response k r.fd (svcHead r status) v = x at hanswer
  have hcan' : (({ d with free := m } : Dev).modCan k (Can.queues x)).can[k] = (f s.dev.can[k].taken).queues x := by
    rw [modCan_same]
    exact congrArg (Can.queues x) hcan
  have hothers' (j : Fin 4) (hj : j ≠ k) : (({ d with free := m } : Dev).modCan k (Can.queues x)).can[j] = s.dev.can[j] :=
    (modCan_other hj ..).trans (hothers j hj)
  have hempty (j : Fin 4) : (({ d with free := m } : Dev).modCan k (Can.queues x)).can[j].svcQ = [] := by
    by_cases hj : j = k
    · rw [hj, hcan', Can.queues, hf.svcQ, Can.taken, hasked.queue]
      rfl
    · rw [hothers' j hj]
      exact hasked.alone j hj
  rw [hanswer, svcAdvance_none hempty] at hbody
  refine completes_of_changesOnly hsettled hexec hbody (honly.trans ((Dev.ChangesOnly.of _).trans (changesOnly_modCan _ _).mono))
    fun s' h htouches => ⟨x, ?_, ?_, fun j hj => ?_, h.paths.trans hpaths, htouches⟩
  · rw [h.can]
    exact hcan'
  · subst hx
    refine ⟨rfl, htime, ?_, rfl, rfl, fun y hy => by rw [hdata y hy]; rfl⟩
    rw [response_id, hcan, hf.svc]
    rfl
  · rw [h.can]
    exact hothers' j hj

theorem Can.Holds.id : Can.Holds id := ⟨fun _ => rfl, fun _ => rfl, fun _ => rfl, fun _ => rfl, fun _ => rfl, fun _ => rfl⟩

/-- The frame of an answer for which no path had its turn. -/
theorem State.touches.without_paths {s' : State} (h : s.touches [.can, .paths] s') (hpaths : s'.dev.paths = s.dev.paths) : s.touches [.can] s' := by
  refine ⟨h.1, h.2.1, fun g hg => ?_⟩
  by_cases hpath : g = .paths
  · subst hpath
    exact hpaths
  · exact h.2.2 g (by simpa [hpath] using hg)

/-- A command that answers a request and changes nothing else of the device. -/
theorem completes_plainly {i : Instr} {body : Env → Dev → Dev} {status : Nat} {data : Option W64} (hsettled : s.dev.settled)
    (hasked : s.Asked k r) (hexec : exec i s = runAt (stampOf i) body s)
    (hbody : s.after (stampOf i) body = (((s.dev.at (stampOf i)).svcTake k).svcAnswer k r status data).svcAdvance) :
    Completes i s fun s' => ∃ x, s'.dev.can[k] = s.dev.can[k].taken.queues x ∧ s.Responds (stampOf i) k r status data x ∧
      (∀ j, j ≠ k → s'.dev.can[j] = s.dev.can[j]) ∧ s.touches [.can] s' := by
  have hself : ((s.dev.at (stampOf i)).svcTake k).leaving s.dev.paths s.dev.free = (s.dev.at (stampOf i)).svcTake k := rfl
  refine (completes_answers (paths := s.dev.paths) (n := s.dev.free) (f := id) hsettled hasked .id hexec ?_).imp
    fun s' ⟨x, hcan, hresponds, hothers, hpaths, htouches⟩ => ⟨x, hcan, hresponds, hothers, htouches.without_paths hpaths⟩
  rw [hself, modCan_self]
  exact hbody

/-- What an answer leaves of the controller's queues and counts. -/
theorem answer_reads {s' : State} {f : Can → Can} {x : TxFrame} (hasked : s.Asked k r) (hf : Can.Holds f)
    (hcan : s'.dev.can[k] = (f s.dev.can[k].taken).queues x) :
    s'.dev.can[k].svcQ = [] ∧ s'.dev.can[k].reqs = s.dev.can[k].reqs + 1 ∧ s'.dev.can[k].txq = s.dev.can[k].txq ++ [x] := by
  rw [hcan]
  refine ⟨(hf.svcQ _).trans ?_, hf.reqs _, congrArg (· ++ [x]) (hf.txq _)⟩
  rw [Can.taken, hasked.queue]
  rfl

end

end Sys2Proof.Machine
end

section
/-! O55: the register requests of the service channel (R21, R318, R320). -/

namespace Sys2Proof.Machine

open Sys2Proof

/-! ### A register read or written for a request -/

section
variable {e : Env} {p : Path} {addr : BitVec 16} {d : Dev}

/-- A read of page 0x00 changes nothing. -/
theorem regRead_page0 (h : addr.toNat < 256) :
    d.regRead e p addr = ((d.regRead e p addr).1, (regRow addr).isNone, d) := by
  have hpage : addr.toNat / 256 = 0 := Nat.div_eq_of_lt h
  cases hrow : regRow addr with
  | none => simp [Dev.regRead, hrow]
  | some row =>
    simp only [Dev.regRead, hrow, hpage]
    split <;> rfl

/-- What page 0x00 reads as does not hang on whose turn it was. -/
theorem regRead_takeTurn (h : addr.toNat < 256) : ((d.takeTurn p).regRead e p addr).1 = (d.regRead e p addr).1 := by
  have hpage : addr.toNat / 256 = 0 := Nat.div_eq_of_lt h
  cases hrow : regRow addr with
  | none => simp [Dev.regRead, hrow]
  | some row =>
    simp only [Dev.regRead, hrow, hpage]
    split
    · have hctx : ((d.takeTurn p).ctx p).page = (d.ctx p).page := (congrArg PathCtx.page (Dev.ctx_modCtx_same ..) :)
      simp only [Dev.rdPage, hctx]
      rfl
    · rfl

/-- A read of page 0x00 for a path that has its turn at the port. -/
theorem regRead_turn (h : addr.toNat < 256) :
    (d.takeTurn p).regRead e p addr = ((d.regRead e p addr).1, (regRow addr).isNone, d.takeTurn p) := by
  rw [regRead_page0 h, regRead_takeTurn h]

/-- A write of PAGE. -/
theorem regWrite_page (h : addr.toNat % 256 = 0xF8) (v : W64) : d.regWrite e false p addr v = (false, (d.disarm p).pageWrite p v) := by
  have hrow : regRow addr = some pageRow := if_pos h
  simp [Dev.regWrite, forceAddr_of_page h, hrow, h]

/-! ### Accesses of the service channel -/

/-- The controller with what an access leaves for the next one. -/
def Can.keeps (x : SvcResult) (c : Can) : Can := { c with sample := x.sample, staged := x.staged }

theorem Can.Holds.keeps (x : SvcResult) : Can.Holds (Can.keeps x) :=
  ⟨fun _ => rfl, fun _ => rfl, fun _ => rfl, fun _ => rfl, fun _ => rfl, fun _ => rfl⟩

section
variable {k : Fin 4} {r : SvcReq} {c : Can} {d' : Dev} {x : SvcResult}

theorem svcRegister_fdOnly (h : svcFdOnly r = true) : d.svcRegister e k r c = d.svcAnswer k r 3 none := if_pos h

theorem svcRegister_denied (hfd : svcFdOnly r = false) (h : c.level < svcNeeds r) : d.svcRegister e k r c = d.svcAnswer k r 2 none :=
  (if_neg (Bool.eq_false_iff.mp hfd)).trans (if_pos h)

theorem svcRegister_access (hfd : svcFdOnly r = false) (hlevel : ¬c.level < svcNeeds r)
    (haccess : d.svcAccess e (canPath k) r c.sample c.staged = (x, d')) (hruns : d'.svcRuns k = true) :
    d.svcRegister e k r c = (d'.modCan k (Can.keeps x)).svcAnswer k r x.status x.data := by
  unfold Dev.svcRegister
  rw [if_neg (Bool.eq_false_iff.mp hfd), if_neg hlevel, haccess]
  simp only [hruns, if_true]
  rfl

end

variable {r : SvcReq} {sample : Option (BitVec 16 × W64)} {staged : Option (BitVec 16 × W32)}

theorem svcAccess_readLo (hop : r.op = 0x10) (h : r.addr.toNat < 256) : d.svcAccess e p r sample staged =
    ({ status := if (regRow r.addr).isNone then 1 else 0, data := some (lowHalf (d.regRead e p r.addr).1)
       sample := some (r.addr, (d.regRead e p r.addr).1) }, d.takeTurn p) := by
  unfold Dev.svcAccess
  rw [hop]
  simp only [regRead_turn h]
  rfl

theorem svcAccess_read (hop : r.op = 0x12) (h : r.addr.toNat < 256) : d.svcAccess e p r sample staged =
    ({ status := if (regRow r.addr).isNone then 1 else 0, data := some (d.regRead e p r.addr).1, sample := sample }, d.takeTurn p) := by
  unfold Dev.svcAccess
  rw [hop]
  simp only [regRead_turn h]
  rfl

theorem svcAccess_readHi {v : W64} (hop : r.op = 0x11) (h : sample = some (r.addr, v)) : d.svcAccess e p r sample staged =
    ({ status := if (regRow r.addr).isNone then 1 else 0, data := some (highHalf v), sample := sample }, d) := by
  unfold Dev.svcAccess
  rw [hop, h]
  exact if_pos rfl

theorem svcAccess_readHi_unfit (hop : r.op = 0x11) (h : ∀ v, sample ≠ some (r.addr, v)) : ∃ x, d.svcAccess e p r sample staged = (x, d) ∧
    x.status = 4 ∧ x.data = none := by
  unfold Dev.svcAccess
  rw [hop]
  match sample with
  | none => exact ⟨_, rfl, rfl, rfl⟩
  | some (a, v) => exact ⟨_, if_neg fun ha => h v (by rw [ha]), rfl, rfl⟩

theorem svcAccess_writeLo (hop : r.op = 0x20) : d.svcAccess e p r sample staged =
    ({ status := 0, sample := sample, staged := some (r.addr, r.data.setWidth 32) }, d) := by
  unfold Dev.svcAccess
  rw [hop]
  rfl

theorem svcAccess_writeHi {lo : W32} (hop : r.op = 0x21) (h : staged = some (r.addr, lo)) (hpage : r.addr.toNat % 256 = 0xF8) :
    d.svcAccess e p r sample staged =
      ({ status := 0, sample := sample }, (d.disarm p).pageWrite p (lo.setWidth 64 ||| (r.data <<< 32))) := by
  unfold Dev.svcAccess
  rw [hop, h]
  refine (if_pos rfl).trans ?_
  simp only [regWrite_page hpage]
  rfl

theorem svcAccess_writeHi_unfit (hop : r.op = 0x21) (h : ∀ lo, staged ≠ some (r.addr, lo)) :
    ∃ x, d.svcAccess e p r sample staged = (x, d) ∧ x.status = 4 ∧ x.data = none := by
  unfold Dev.svcAccess
  rw [hop]
  match staged with
  | none => exact ⟨_, rfl, rfl, rfl⟩
  | some (a, lo) => exact ⟨_, if_neg fun ha => h lo (by rw [ha]), rfl, rfl⟩

theorem svcAccess_write (hop : r.op = 0x22) (hpage : r.addr.toNat % 256 = 0xF8) : d.svcAccess e p r sample staged =
    ({ status := 0, sample := sample }, (d.disarm p).pageWrite p r.data) := by
  unfold Dev.svcAccess
  rw [hop]
  simp only [regWrite_page hpage]
  rfl

end

/-! ### The commands -/

section
variable {s : State} {t : Ns} {k : Fin 4} {r : SvcReq}

theorem taken_cfg {d : Dev} {paths : Vector PathCtx 7} {n : Nat} : ((d.svcTake k).leaving paths n).can[k].cfg = d.can[k].cfg :=
  (congrArg Can.cfg (modCan_same Can.taken d) :)

theorem taken_sup {d : Dev} {paths : Vector PathCtx 7} {n : Nat} : ((d.svcTake k).leaving paths n).sup = d.sup := rfl

/-- A register request of the service channel, and the command that serves it. -/
structure Serves (i : Instr) (k : Fin 4) (op : Byte) : Prop where
  exec : ∀ s, exec i s = runAt (stampOf i) (fun e d => d.svcServe k op (Dev.svcRegister e k)) s

variable {i : Instr} (hsettled : s.dev.settled) (hasked : s.Asked k r) (hserves : Serves i k r.op)

include hasked in
theorem after_served (hopen : s.dev.can[k].lockEnd = none) : s.after (stampOf i) (fun e d => d.svcServe k r.op (Dev.svcRegister e k)) =
    (((s.dev.at (stampOf i)).svcTake k).svcRegister s.env k r s.dev.can[k]).svcAdvance :=
  (svcServe_alone (d := s.dev.at (stampOf i)) hasked.runs hasked.queue hasked.alone _).trans
    (congrArg Dev.svcAdvance (if_neg (by rw [show (s.dev.at (stampOf i)).can[k].lockEnd = none from hopen]; exact Bool.false_ne_true)))

include hsettled hasked hserves

theorem completes_locked (h : s.dev.can[k].lockEnd ≠ none) :
    Completes i s fun s' => ∃ x, s'.dev.can[k] = s.dev.can[k].taken.queues x ∧ s.Responds (stampOf i) k r 6 none x ∧
      (∀ j, j ≠ k → s'.dev.can[j] = s.dev.can[j]) ∧ s.touches [.can] s' :=
  completes_plainly hsettled hasked (hserves.exec s) ((svcServe_alone (d := s.dev.at (stampOf i)) hasked.runs hasked.queue hasked.alone _).trans
    (congrArg Dev.svcAdvance (if_pos (Option.isSome_iff_ne_none.mpr h))))

section
variable (hopen : s.dev.can[k].lockEnd = none)
include hopen

theorem completes_denied (hfd : svcFdOnly r = false) (h : s.dev.can[k].level < svcNeeds r) :
    Completes i s fun s' => ∃ x, s'.dev.can[k] = s.dev.can[k].taken.queues x ∧ s.Responds (stampOf i) k r 2 none x ∧
      (∀ j, j ≠ k → s'.dev.can[j] = s.dev.can[j]) ∧ s.touches [.can] s' :=
  completes_plainly hsettled hasked (hserves.exec s) ((after_served hasked hopen).trans
    (congrArg Dev.svcAdvance (svcRegister_denied hfd h)))

theorem completes_fdOnly (hfd : svcFdOnly r = true) :
    Completes i s fun s' => ∃ x, s'.dev.can[k] = s.dev.can[k].taken.queues x ∧ s.Responds (stampOf i) k r 3 none x ∧
      (∀ j, j ≠ k → s'.dev.can[j] = s.dev.can[j]) ∧ s.touches [.can] s' :=
  completes_plainly hsettled hasked (hserves.exec s) ((after_served hasked hopen).trans
    (congrArg Dev.svcAdvance (svcRegister_fdOnly hfd)))

/-- An access that is allowed: its answer, and the paths as it leaves them. -/
theorem completes_access {x : SvcResult} {paths : Vector PathCtx 7} (hfd : svcFdOnly r = false) (hlevel : ¬s.dev.can[k].level < svcNeeds r)
    (haccess : ((s.dev.at (stampOf i)).svcTake k).svcAccess s.env (canPath k) r s.dev.can[k].sample s.dev.can[k].staged =
      (x, ((s.dev.at (stampOf i)).svcTake k).leaving paths s.dev.free)) :
    Completes i s fun s' => ∃ y, s'.dev.can[k] = (s.dev.can[k].taken.keeps x).queues y ∧ s.Responds (stampOf i) k r x.status x.data y ∧
      (∀ j, j ≠ k → s'.dev.can[j] = s.dev.can[j]) ∧ s'.dev.paths = paths ∧ s.touches [.can, .paths] s' := by
  refine completes_answers hsettled hasked (.keeps x) (hserves.exec s) ((after_served hasked hopen).trans
    (congrArg Dev.svcAdvance (svcRegister_access hfd hlevel haccess ?_)))
  exact (svcRuns_congr (d := s.dev) (taken_cfg (d := s.dev.at (stampOf i))) (taken_sup (d := s.dev.at (stampOf i)))).trans hasked.runs

end

end

end Sys2Proof.Machine
end

section
/-! O55: which answer each register request gets (R21, R318, R320). -/

namespace Sys2Proof.Machine

open Sys2Proof

section
variable {s s' : State} {t : Ns} {k : Fin 4} {r : SvcReq} {f : Can → Can} {x : TxFrame} {status : Nat} {data : Option W64}

/-- An answer in the words of R318. -/
theorem answered_of (hasked : s.Asked k r) (hf : Can.Holds f) (hcan : s'.dev.can[k] = (f s.dev.can[k].taken).queues x)
    (hresponds : s.Responds t k r status data x) (hothers : ∀ j, j ≠ k → s'.dev.can[j] = s.dev.can[j]) :
    s'.dev.can[k].svcQ = [] ∧ s'.dev.can[k].reqs = s.dev.can[k].reqs + 1 ∧ (∀ j, j ≠ k → s'.dev.can[j] = s.dev.can[j]) ∧
      ∃ x, s'.dev.can[k].txq = s.dev.can[k].txq ++ [x] ∧ x.src = .service ∧ x.at_ = s.now t ∧
        x.frame.id = BitVec.ofNat 29 (fld s.dev.can[k].svc 32 29) ∧ x.frame.format = (if r.fd then .fd else .classical) ∧
        x.frame.data.take 4 = [r.op ||| 0x80, r.seq, BitVec.ofNat 8 status, 0] ∧
        ∀ y, data = some y → x.frame.data.drop 4 = leBytes (if r.fd then 8 else 4) y.toNat := by
  obtain ⟨hsvcQ, hreqs, htxq⟩ := answer_reads hasked hf hcan
  obtain ⟨hsrc, htime, hid, hformat, hhead, hdata⟩ := hresponds
  exact ⟨hsvcQ, hreqs, hothers, x, htxq, hsrc, htime, hid, hformat, hhead, hdata⟩

theorem level_plainly (hcan : s'.dev.can[k] = s.dev.can[k].taken.queues x) : s'.dev.can[k].level = s.dev.can[k].level := by
  rw [hcan]
  rfl

theorem level_access {y : SvcResult} (hcan : s'.dev.can[k] = (s.dev.can[k].taken.keeps y).queues x) :
    s'.dev.can[k].level = s.dev.can[k].level := by
  rw [hcan]
  rfl

/-- The paths' contexts after one of them had its turn. -/
theorem ctx_turned {p : Path} (h : s'.dev.paths = (s.dev.takeTurn p).paths) :
    s'.dev.ctx p = { s.dev.ctx p with served := s.dev.nextTurn } ∧ ∀ q, q ≠ p → s'.dev.ctx q = s.dev.ctx q :=
  ⟨(congrArg (·[pathIndex p]) h).trans (Dev.ctx_modCtx_same ..),
    fun q hq => (congrArg (·[pathIndex q]) h).trans (Dev.ctx_modCtx_other hq ..)⟩

/-- The paths' contexts after PAGE of one of them was written. -/
theorem ctx_paged {p : Path} {w : W64} (h : s'.dev.paths = ((s.dev.disarm p).pageWrite p w).paths) :
    s'.dev.ctx p = { s.dev.ctx p with page := w.setWidth 8, armedAt := none, served := s.dev.nextTurn } ∧
      ∀ q, q ≠ p → s'.dev.ctx q = s.dev.ctx q := by
  have hboth := h.trans (congrArg Dev.paths (Dev.modCtx_modCtx p _ (fun c => { c with page := w.setWidth 8 }) s.dev))
  exact ⟨(congrArg (·[pathIndex p]) hboth).trans (Dev.ctx_modCtx_same ..),
    fun q hq => (congrArg (·[pathIndex q]) hboth).trans (Dev.ctx_modCtx_other hq ..)⟩

theorem assigned_status (o : Option RegRow) : (if o.isNone then 1 else 0) = if o.isSome then 0 else 1 := by
  cases o <;> rfl

end

section
variable {s : State} {t : Ns} {k : Fin 4} {r : SvcReq} {i : Instr} {op : Byte} (hsettled : s.dev.settled) (hasked : s.Asked k r)
  (hserves : Serves i k op) (hstamp : stampOf i = t) (hop : r.op = op)
include hsettled hasked hserves hstamp hop

/-- The refusals: a locked channel, a level that is too low, the classical layout (R318, R320). -/
theorem service_refusals (hknown : op = 0x10 ∨ op = 0x11 ∨ op = 0x12 ∨ op = 0x20 ∨ op = 0x21 ∨ op = 0x22) :
    let c := s.dev.can[k]
    let refused (status : Nat) (s' : State) : Prop := ∃ x, s'.dev.can[k] = c.taken.queues x ∧ s.Responds t k r status none x ∧
      (∀ j, j ≠ k → s'.dev.can[j] = s.dev.can[j]) ∧ s.touches [.can] s'
    (c.lockEnd ≠ none → Completes i s (refused 6)) ∧
    (c.lockEnd = none → (r.fd = true ∨ (op ≠ 0x12 ∧ op ≠ 0x22)) → c.level < svcNeeds r → Completes i s (refused 2)) ∧
    (c.lockEnd = none → r.fd = false → op = 0x12 ∨ op = 0x22 → Completes i s (refused 3)) ∧
    svcNeeds r = (if op = 0x20 ∨ op = 0x21 ∨ op = 0x22 then 2 else if r.addr.toNat < 256 then 0 else 1) := by
  intro c refused
  subst hstamp hop
  refine ⟨fun hlock => completes_locked hsettled hasked hserves hlock, fun hlock hfd hlevel => ?_, fun hlock hfd hlong => ?_, ?_⟩
  · refine completes_denied hsettled hasked hserves hlock ?_ hlevel
    unfold svcFdOnly
    obtain hfd | ⟨hread, hwrite⟩ := hfd
    · simp [hfd]
    · obtain h | h | h | h | h | h := hknown <;> simp_all
  · refine completes_fdOnly hsettled hasked hserves hlock ?_
    unfold svcFdOnly
    obtain h | h := hlong <;> simp [hfd, h]
  · have hpage : r.addr.toNat / 256 = 0 ↔ r.addr.toNat < 256 := by omega
    unfold svcNeeds
    obtain h | h | h | h | h | h := hknown <;> simp [h, hpage]

end

theorem serves_registers {t : Ns} {k : Fin 4} {i : Instr} {op : Byte}
    (h : (i, op) ∈ [(Instr.readLo t k, (0x10 : Byte)), (.readHi t k, 0x11), (.svcRead t k, 0x12), (.writeLo t k, 0x20), (.writeHi t k, 0x21),
      (.svcWrite t k, 0x22)]) : Serves i k op ∧ stampOf i = t ∧
        (op = 0x10 ∨ op = 0x11 ∨ op = 0x12 ∨ op = 0x20 ∨ op = 0x21 ∨ op = 0x22) := by
  simp only [List.mem_cons, List.not_mem_nil, or_false, Prod.mk.injEq] at h
  obtain ⟨rfl, rfl⟩ | ⟨rfl, rfl⟩ | ⟨rfl, rfl⟩ | ⟨rfl, rfl⟩ | ⟨rfl, rfl⟩ | ⟨rfl, rfl⟩ := h <;>
    exact ⟨⟨fun _ => rfl⟩, rfl, by decide⟩

section
variable {s : State} {t : Ns} {k : Fin 4} (hsettled : s.dev.settled)
include hsettled

/-- Where another controller's request comes first at the port, nothing happens (R21). -/
theorem service_waits (hturn : s.dev.portTurn k = false) :
    ∀ i ∈ ([.readLo t k, .svcRead t k, .writeHi t k, .svcWrite t k] : List Instr), Completes i s (s.touches []) := by
  intro i hi
  simp only [List.mem_cons, List.not_mem_nil, or_false] at hi
  obtain rfl | rfl | rfl | rfl := hi <;>
    exact completes_untouched hsettled rfl (svcServe_waits (d := s.dev.at t) _ _ (by decide) hturn)

end

section
variable {s : State} {t : Ns} {k : Fin 4} {r : SvcReq} (hsettled : s.dev.settled) (hasked : s.Asked k r)
  (hopen : s.dev.can[k].lockEnd = none)
include hsettled hasked hopen

/-- Reads of page 0x00 (R318). -/
theorem service_reads (hpage : r.addr.toNat < 256) :
    let c := s.dev.can[k]
    let v := (((s.dev.at t).svcTake k).regRead s.env (canPath k) r.addr).1
    let answered (x : SvcResult) (s' : State) : Prop := ∃ y, s'.dev.can[k] = (c.taken.keeps x).queues y ∧
      s.Responds t k r x.status x.data y ∧ ∀ j, j ≠ k → s'.dev.can[j] = s.dev.can[j]
    let status := if (regRow r.addr).isNone then 1 else 0
    (r.op = 0x10 → Completes (.readLo t k) s fun s' =>
      answered { status := status, data := some (lowHalf v), sample := some (r.addr, v) } s' ∧
        s'.dev.paths = (s.dev.takeTurn (canPath k)).paths ∧ s.touches [.can, .paths] s') ∧
    (r.op = 0x11 → ∀ x, c.sample = some (r.addr, x) → Completes (.readHi t k) s fun s' =>
      answered { status := status, data := some (highHalf x), sample := c.sample } s' ∧ s.touches [.can] s') ∧
    (r.op = 0x11 → (∀ x, c.sample ≠ some (r.addr, x)) → Completes (.readHi t k) s fun s' =>
      (∃ x, x.status = 4 ∧ x.data = none ∧ answered x s') ∧ s.touches [.can] s') ∧
    (r.op = 0x12 → r.fd = true → Completes (.svcRead t k) s fun s' =>
      answered { status := status, data := some v, sample := c.sample } s' ∧
        s'.dev.paths = (s.dev.takeTurn (canPath k)).paths ∧ s.touches [.can, .paths] s') := by
  intro c v answered status
  have hfree {op : Byte} (hop : r.op = op) (h : op = 0x10 ∨ op = 0x11 ∨ op = 0x12) : ¬c.level < svcNeeds r := by
    unfold svcNeeds
    have hzero : r.addr.toNat / 256 = 0 := Nat.div_eq_of_lt hpage
    obtain rfl | rfl | rfl := h <;> simp [hop, hzero]
  refine ⟨fun hop => ?_, fun hop x hsample => ?_, fun hop hunfit => ?_, fun hop hfd => ?_⟩
  · refine (completes_access (i := .readLo t k) hsettled hasked (hop ▸ ⟨fun _ => rfl⟩) hopen (by simp [svcFdOnly, hop])
      (hfree hop (by simp)) (svcAccess_readLo hop hpage)).imp fun s' hs' => ?_
    obtain ⟨y, hcan, hresponds, hothers, hpaths, htouches⟩ := hs'
    exact ⟨⟨y, hcan, hresponds, hothers⟩, hpaths, htouches⟩
  · refine (completes_access (i := .readHi t k) (paths := s.dev.paths) hsettled hasked (hop ▸ ⟨fun _ => rfl⟩) hopen
      (by simp [svcFdOnly, hop]) (hfree hop (by simp)) (svcAccess_readHi hop hsample)).imp
        fun s' hs' => ?_
    obtain ⟨y, hcan, hresponds, hothers, hpaths, htouches⟩ := hs'
    exact ⟨⟨y, hcan, hresponds, hothers⟩, htouches.without_paths hpaths⟩
  · obtain ⟨x, haccess, hstatus, hdata⟩ := svcAccess_readHi_unfit (e := s.env) (p := canPath k) (d := (s.dev.at t).svcTake k)
      (staged := c.staged) hop hunfit
    refine (completes_access (i := .readHi t k) (paths := s.dev.paths) hsettled hasked (hop ▸ ⟨fun _ => rfl⟩) hopen
      (by simp [svcFdOnly, hop]) (hfree hop (by simp)) haccess).imp fun s' hs' => ?_
    obtain ⟨y, hcan, hresponds, hothers, hpaths, htouches⟩ := hs'
    exact ⟨⟨x, hstatus, hdata, y, hcan, hresponds, hothers⟩, htouches.without_paths hpaths⟩
  · refine (completes_access (i := .svcRead t k) hsettled hasked (hop ▸ ⟨fun _ => rfl⟩) hopen (by simp [svcFdOnly, hfd])
      (hfree hop (by simp)) (svcAccess_read hop hpage)).imp fun s' hs' => ?_
    obtain ⟨y, hcan, hresponds, hothers, hpaths, htouches⟩ := hs'
    exact ⟨⟨y, hcan, hresponds, hothers⟩, hpaths, htouches⟩

/-- Writes, with a session that key 1 has opened (R318). -/
theorem service_writes (hlevel : s.dev.can[k].level = 2) :
    let c := s.dev.can[k]
    let answered (x : SvcResult) (s' : State) : Prop := ∃ y, s'.dev.can[k] = (c.taken.keeps x).queues y ∧
      s.Responds t k r x.status x.data y ∧ ∀ j, j ≠ k → s'.dev.can[j] = s.dev.can[j]
    let written (w : W64) (s' : State) : Prop := s'.dev.paths = ((s.dev.disarm (canPath k)).pageWrite (canPath k) w).paths ∧
      s.touches [.can, .paths] s'
    (r.op = 0x20 → Completes (.writeLo t k) s fun s' =>
      answered { status := 0, sample := c.sample, staged := some (r.addr, r.data.setWidth 32) } s' ∧ s.touches [.can] s') ∧
    (r.op = 0x21 → r.addr.toNat % 256 = 0xF8 → ∀ lo, c.staged = some (r.addr, lo) → Completes (.writeHi t k) s fun s' =>
      answered { status := 0, sample := c.sample } s' ∧ written (lo.setWidth 64 ||| (r.data <<< 32)) s') ∧
    (r.op = 0x21 → (∀ lo, c.staged ≠ some (r.addr, lo)) → Completes (.writeHi t k) s fun s' =>
      (∃ x, x.status = 4 ∧ x.data = none ∧ answered x s') ∧ s.touches [.can] s') ∧
    (r.op = 0x22 → r.fd = true → r.addr.toNat % 256 = 0xF8 → Completes (.svcWrite t k) s fun s' =>
      answered { status := 0, sample := c.sample } s' ∧ written r.data s') := by
  intro c answered written
  have hneeds : ¬c.level < svcNeeds r := by
    rw [show c.level = 2 from hlevel]
    unfold svcNeeds
    split
    · decide
    · split <;> decide
  refine ⟨fun hop => ?_, fun hop hpage lo hstaged => ?_, fun hop hunfit => ?_, fun hop hfd hpage => ?_⟩
  · refine (completes_access (i := .writeLo t k) (paths := s.dev.paths) hsettled hasked (hop ▸ ⟨fun _ => rfl⟩) hopen
      (by simp [svcFdOnly, hop]) hneeds (svcAccess_writeLo hop)).imp fun s' hs' => ?_
    obtain ⟨y, hcan, hresponds, hothers, hpaths, htouches⟩ := hs'
    exact ⟨⟨y, hcan, hresponds, hothers⟩, htouches.without_paths hpaths⟩
  · refine (completes_access (i := .writeHi t k) hsettled hasked (hop ▸ ⟨fun _ => rfl⟩) hopen (by simp [svcFdOnly, hop]) hneeds
      (svcAccess_writeHi hop hstaged hpage)).imp fun s' hs' => ?_
    obtain ⟨y, hcan, hresponds, hothers, hpaths, htouches⟩ := hs'
    exact ⟨⟨y, hcan, hresponds, hothers⟩, hpaths, htouches⟩
  · obtain ⟨x, haccess, hstatus, hdata⟩ := svcAccess_writeHi_unfit (e := s.env) (p := canPath k) (d := (s.dev.at t).svcTake k)
      (sample := c.sample) hop hunfit
    refine (completes_access (i := .writeHi t k) (paths := s.dev.paths) hsettled hasked (hop ▸ ⟨fun _ => rfl⟩) hopen
      (by simp [svcFdOnly, hop]) hneeds haccess).imp fun s' hs' => ?_
    obtain ⟨y, hcan, hresponds, hothers, hpaths, htouches⟩ := hs'
    exact ⟨⟨x, hstatus, hdata, y, hcan, hresponds, hothers⟩, htouches.without_paths hpaths⟩
  · refine (completes_access (i := .svcWrite t k) hsettled hasked (hop ▸ ⟨fun _ => rfl⟩) hopen (by simp [svcFdOnly, hfd]) hneeds
      (svcAccess_write hop hpage)).imp fun s' hs' => ?_
    obtain ⟨y, hcan, hresponds, hothers, hpaths, htouches⟩ := hs'
    exact ⟨⟨y, hcan, hresponds, hothers⟩, hpaths, htouches⟩

end

/-- Settles O55: the refusals first, then the reads and the writes that are allowed. -/
theorem serviceAccess : Obligations.ServiceAccess := by
  unfold Obligations.ServiceAccess
  refine ⟨fun s t k hsettled hturn => service_waits hsettled hturn, ?_⟩
  intro s t k r hsettled hruns hqueue hon halone c d v assigned page0 isPage answered written still turned
  have hasked : s.Asked k r := ⟨hruns, hqueue, hon, halone⟩
  refine ⟨fun i op hmem hop => ?_, fun hopen => ?_⟩
  · obtain ⟨hserves, hstamp, hknown⟩ := serves_registers hmem
    obtain ⟨hlocked, hdenied, hfdOnly, hneeds⟩ := service_refusals hsettled hasked (hop ▸ hserves) hstamp hop (hop ▸ hknown)
    have hrefused {status : Nat} (s' : State) (h : ∃ x, s'.dev.can[k] = c.taken.queues x ∧ s.Responds t k r status none x ∧
        (∀ j, j ≠ k → s'.dev.can[j] = s.dev.can[j]) ∧ s.touches [.can] s') : answered status none s' ∧ still s' := by
      obtain ⟨x, hcan, hresponds, hothers, htouches⟩ := h
      exact ⟨answered_of hasked .id hcan hresponds hothers, level_plainly hcan, htouches⟩
    exact ⟨fun h => (hlocked h).imp hrefused, fun h h' h'' => (hdenied h h' h'').imp hrefused, fun h h' h'' => (hfdOnly h h' h'').imp hrefused,
      hneeds⟩
  · have hanswered {x : SvcResult} (s' : State) (h : ∃ y, s'.dev.can[k] = (c.taken.keeps x).queues y ∧
        s.Responds t k r x.status x.data y ∧ ∀ j, j ≠ k → s'.dev.can[j] = s.dev.can[j]) :
        answered x.status x.data s' ∧ s'.dev.can[k].level = c.level ∧ s'.dev.can[k].sample = x.sample ∧ s'.dev.can[k].staged = x.staged := by
      obtain ⟨y, hcan, hresponds, hothers⟩ := h
      exact ⟨answered_of hasked (.keeps x) hcan hresponds hothers, level_access hcan, by rw [hcan]; rfl, by rw [hcan]; rfl⟩
    have hassigned : (if (regRow r.addr).isNone then 1 else 0) = if assigned then 0 else 1 := assigned_status _
    refine ⟨fun hop hpage => ?_, fun hop hpage hassigned' x hsample => ?_, fun hop hpage hunfit => ?_, fun hop hfd hpage => ?_,
      fun hop hlevel => ?_, fun hop hlevel hpage lo hstaged => ?_, fun hop hlevel hunfit => ?_, fun hop hfd hlevel hpage => ?_⟩
    · obtain ⟨haccess, -⟩ := service_reads (t := t) hsettled hasked hopen hpage
      refine (haccess hop).imp fun s' hs' => ?_
      obtain ⟨h, hpaths, htouches⟩ := hs'
      obtain ⟨hall, hlevel, hsample, -⟩ := hanswered s' h
      exact ⟨hassigned ▸ hall, ⟨hlevel, htouches, ctx_turned hpaths⟩, hsample⟩
    · obtain ⟨-, haccess, -⟩ := service_reads (t := t) hsettled hasked hopen hpage
      refine (haccess hop x hsample).imp fun s' hs' => ?_
      obtain ⟨h, htouches⟩ := hs'
      obtain ⟨hall, hlevel, -⟩ := hanswered s' h
      have hstatus : (if (regRow r.addr).isNone then 1 else 0) = 0 := hassigned.trans (if_pos hassigned')
      exact ⟨hstatus ▸ hall, hlevel, htouches⟩
    · obtain ⟨-, -, haccess, -⟩ := service_reads (t := t) hsettled hasked hopen hpage
      refine (haccess hop hunfit).imp fun s' hs' => ?_
      obtain ⟨⟨x, hstatus, hdata, h⟩, htouches⟩ := hs'
      obtain ⟨hall, hlevel, -⟩ := hanswered s' h
      exact ⟨hdata ▸ hstatus ▸ hall, hlevel, htouches⟩
    · obtain ⟨-, -, -, haccess⟩ := service_reads (t := t) hsettled hasked hopen hpage
      refine (haccess hop hfd).imp fun s' hs' => ?_
      obtain ⟨h, hpaths, htouches⟩ := hs'
      obtain ⟨hall, hlevel, -⟩ := hanswered s' h
      exact ⟨hassigned ▸ hall, hlevel, htouches, ctx_turned hpaths⟩
    · obtain ⟨haccess, -⟩ := service_writes (t := t) hsettled hasked hopen hlevel
      refine (haccess hop).imp fun s' hs' => ?_
      obtain ⟨h, htouches⟩ := hs'
      obtain ⟨hall, hlevel, -, hstaged⟩ := hanswered s' h
      exact ⟨hall, ⟨hlevel, htouches⟩, hstaged⟩
    · obtain ⟨-, haccess, -⟩ := service_writes (t := t) hsettled hasked hopen hlevel
      refine (haccess hop hpage lo hstaged).imp fun s' hs' => ?_
      obtain ⟨h, hpaths, htouches⟩ := hs'
      obtain ⟨hall, -⟩ := hanswered s' h
      obtain ⟨hctx, hothers⟩ := ctx_paged hpaths
      exact ⟨hall, hctx, hothers, htouches⟩
    · obtain ⟨-, -, haccess, -⟩ := service_writes (t := t) hsettled hasked hopen hlevel
      refine (haccess hop hunfit).imp fun s' hs' => ?_
      obtain ⟨⟨x, hstatus, hdata, h⟩, htouches⟩ := hs'
      obtain ⟨hall, hlevel, -⟩ := hanswered s' h
      exact ⟨hdata ▸ hstatus ▸ hall, hlevel, htouches⟩
    · obtain ⟨-, -, -, haccess⟩ := service_writes (t := t) hsettled hasked hopen hlevel
      refine (haccess hop hfd hpage).imp fun s' hs' => ?_
      obtain ⟨h, hpaths, htouches⟩ := hs'
      obtain ⟨hall, -⟩ := hanswered s' h
      obtain ⟨hctx, hothers⟩ := ctx_paged hpaths
      exact ⟨hall, hctx, hothers, htouches⟩

end Sys2Proof.Machine
end

section
/-! O56: nonces, sessions and lockouts of the service channel (R320). -/

namespace Sys2Proof.Machine

open Sys2Proof

/-! ### What CHALLENGE, AUTH and CLOSE do -/

/-- A controller that has handed out a nonce. -/
def Can.challenged (v : W64) (c : Can) : Can := { c with nonce := some v, authParts := [] }

/-- A controller whose whole tag has been judged. -/
def Can.judged (good : Bool) (now key : Nat) (c : Can) : Can :=
  if good then { c with nonce := none, authParts := [], level := key + 1, failRow := 0 }
  else
    { c with nonce := none, authParts := [], fails := c.fails + 1, failRow := if 3 ≤ c.failRow + 1 then 0 else c.failRow + 1
             lockEnd := if 3 ≤ c.failRow + 1 then some (now + 10000000000) else none }

/-- A controller that keeps one part of a tag. -/
def Can.holdsParts (l : List (Nat × List Byte)) (c : Can) : Can := { c with authParts := l }

/-- A controller whose session has ended. -/
def Can.closed (c : Can) : Can := { c with level := 0 }

theorem Can.Holds.challenged (v : W64) : Can.Holds (Can.challenged v) :=
  ⟨fun _ => rfl, fun _ => rfl, fun _ => rfl, fun _ => rfl, fun _ => rfl, fun _ => rfl⟩

theorem Can.Holds.judged (good : Bool) (now key : Nat) : Can.Holds (Can.judged good now key) := by
  cases good <;> exact ⟨fun _ => rfl, fun _ => rfl, fun _ => rfl, fun _ => rfl, fun _ => rfl, fun _ => rfl⟩

theorem Can.Holds.holdsParts (l : List (Nat × List Byte)) : Can.Holds (Can.holdsParts l) :=
  ⟨fun _ => rfl, fun _ => rfl, fun _ => rfl, fun _ => rfl, fun _ => rfl, fun _ => rfl⟩

theorem Can.Holds.closed : Can.Holds Can.closed := ⟨fun _ => rfl, fun _ => rfl, fun _ => rfl, fun _ => rfl, fun _ => rfl, fun _ => rfl⟩

/-- Whether a tag is the one that the key gives over the nonce (R320). -/
def Env.tagFits (e : Env) (k : Fin 4) (key : Nat) (tag : List Byte) (nonce : Option W64) : Bool :=
  match nonce, if key = 0 then e.fuses.svcKey0 else e.fuses.svcKey1 with
  | some n, some z => (Config.hmac z (authMessage e n k key)).take 16 == tag
  | _, _ => false

theorem tagFits_iff (e : Env) (k : Fin 4) (key : Nat) (tag : List Byte) (nonce : Option W64) : e.tagFits k key tag nonce = true ↔
    ∃ n z, nonce = some n ∧ (if key = 0 then e.fuses.svcKey0 else e.fuses.svcKey1) = some z ∧
      (Config.hmac z (authMessage e n k key)).take 16 = tag := by
  unfold Env.tagFits
  split
  · next n z hnonce hsecret => simp [hsecret]
  · next hnone =>
    refine ⟨fun h => absurd h Bool.false_ne_true, fun ⟨n, z, hn, hz, _⟩ => ?_⟩
    exact absurd hz (hnone n z hn)

section
variable {e : Env} {k : Fin 4} {r : SvcReq} {d : Dev}

theorem svcTag_judges (key : Nat) (tag : List Byte) : d.svcTag e k r key tag =
    (d.modCan k (Can.judged (e.tagFits k key tag d.can[k].nonce) d.dtime key)).svcAnswer k r
      (if e.tagFits k key tag d.can[k].nonce then 0 else 5) none := by
  unfold Dev.svcTag
  extract_lets c secret ok d1 row lock
  have hok : e.tagFits k key tag d.can[k].nonce = ok := rfl
  rw [hok]
  clear_value ok
  cases ok with
  | true =>
    refine congrArg (fun d => Dev.svcAnswer k r 0 none d) ((modCan_modCan ..).trans (modCan_congr ?_))
    rfl
  | false =>
    refine congrArg (fun d => Dev.svcAnswer k r 5 none d) ((modCan_modCan ..).trans (modCan_congr ?_))
    rfl

theorem svcChallenge_fd (h : r.fd = true) : d.svcChallenge k r =
    ({ d with free := d.free + 1 }.modCan k (Can.challenged (Config.nonce d.free))).svcAnswer k r 0 (some (Config.nonce d.free)) := if_pos h

theorem svcChallenge_classical (h : r.fd = false) : d.svcChallenge k r =
    ((({ d with free := d.free + 1 }.modCan k (Can.challenged (Config.nonce d.free))).svcAnswer k r 0
      (some (lowHalf (Config.nonce d.free))))).svcSend k false [r.op ||| 0x80, r.seq, 1, 0] (highHalf (Config.nonce d.free)) :=
  if_neg (Bool.eq_false_iff.mp h)

theorem svcAuth_whole {c : Can} (h : r.fd = true) : d.svcAuth e k r c = d.svcTag e k r (r.addr.toNat / 256 % 2) r.tag := if_pos h

/-- One part of a tag is kept until the others are there. -/
theorem svcAuth_part {c : Can} (hfd : r.fd = false) (hfirst : c.authParts = []) : d.svcAuth e k r c =
    (d.modCan k (Can.holdsParts [(4 * (r.addr.toNat / 256 % 2) + r.addr.toNat % 4, r.tag)])).svcAnswer k r 0 none := by
  unfold Dev.svcAuth
  extract_lets key id parts of
  rw [if_neg (Bool.eq_false_iff.mp hfd)]
  have hparts : parts = [(id, r.tag)] := by simp only [parts, hfirst, List.filter_nil]
  have hof (i : Nat) (h : id ≠ 4 * key + i) : of i = none := by simp [of, hparts, h]
  have hone : of 0 = none ∨ of 1 = none := by
    by_cases h : id = 4 * key + 0
    · exact .inr (hof 1 (by omega))
    · exact .inl (hof 0 h)
  split
  · next h0 h1 _ _ => exact absurd hone (by simp [h0, h1])
  · rw [hparts]
    rfl

end

/-! ### The commands -/

/-- The low half of a word gives the same four bytes. -/
theorem leBytes_lowHalf (v : W64) : leBytes 4 (lowHalf v).toNat = leBytes 4 v.toNat := by
  have hlow : (lowHalf v).toNat = v.toNat % 2 ^ 32 := by
    rw [lowHalf, BitVec.toNat_and]
    exact Nat.and_two_pow_sub_one_eq_mod v.toNat 32
  rw [hlow]
  simp only [leBytes, List.cons.injEq, and_true]
  refine ⟨?_, ?_, ?_, ?_⟩ <;>
    · apply BitVec.eq_of_toNat_eq
      simp only [BitVec.toNat_ofNat]
      omega

section
variable {s : State} {t : Ns} {k : Fin 4} {r : SvcReq} {op : Byte} (hsettled : s.dev.settled) (hasked : s.Asked k r)
  (hopen : s.dev.can[k].lockEnd = none) (hop : r.op = op)
include hasked hopen hop

theorem served_open (act : SvcReq → Can → Dev → Dev) :
    (s.dev.at t).svcServe k op act = (act r s.dev.can[k] ((s.dev.at t).svcTake k)).svcAdvance := by
  subst hop
  refine (svcServe_alone (d := s.dev.at t) hasked.runs hasked.queue hasked.alone act).trans (congrArg Dev.svcAdvance (if_neg ?_))
  rw [show (s.dev.at t).can[k].lockEnd = none from hopen]
  exact Bool.false_ne_true

include hsettled

/-- A command that answers a request and changes its controller besides. -/
theorem completes_session {i : Instr} {act : Env → SvcReq → Can → Dev → Dev} {f : Can → Can} {n status : Nat} {data : Option W64} (hf : Can.Holds f)
    (hstamp : stampOf i = t) (hexec : exec i s = runAt (stampOf i) (fun e d => d.svcServe k op (act e)) s)
    (hact : act s.env r s.dev.can[k] ((s.dev.at t).svcTake k) =
      ((((s.dev.at t).svcTake k).leaving s.dev.paths n).modCan k f).svcAnswer k r status data) :
    Completes i s fun s' => ∃ x, s'.dev.can[k] = (f s.dev.can[k].taken).queues x ∧ s.Responds t k r status data x ∧
      (∀ j, j ≠ k → s'.dev.can[j] = s.dev.can[j]) ∧ s.touches [.can] s' := by
  subst hstamp
  refine (completes_answers hsettled hasked hf hexec ((served_open hasked hopen hop (act s.env)).trans (congrArg Dev.svcAdvance hact))).imp
    fun s' hs' => ?_
  obtain ⟨x, hcan, hresponds, hothers, hpaths, htouches⟩ := hs'
  exact ⟨x, hcan, hresponds, hothers, htouches.without_paths hpaths⟩

end

section
variable {s : State} {t : Ns} {k : Fin 4} {r : SvcReq} (hsettled : s.dev.settled) (hasked : s.Asked k r)
  (hopen : s.dev.can[k].lockEnd = none)
include hsettled hasked hopen

/-- CHALLENGE in the classical layout answers twice. -/
theorem completes_challenge_classical (hop : r.op = 0x30) (hfd : r.fd = false) : Completes (.challenge t k) s fun s' =>
    ∃ (n : W64) (x y : TxFrame), s'.dev.can[k] = ((s.dev.can[k].taken.challenged n).queues x).queues y ∧
      x.frame.data = [0xB0, r.seq, 0, 0] ++ leBytes 4 n.toNat ∧ y.frame.data = [0xB0, r.seq, 1, 0] ++ leBytes 4 (n >>> 32).toNat ∧
      (∀ j, j ≠ k → s'.dev.can[j] = s.dev.can[j]) ∧ s.touches [.can] s' := by
  have hserved := (served_open (t := t) hasked hopen hop fun r _ d => d.svcChallenge k r).trans
    (congrArg Dev.svcAdvance (svcChallenge_classical hfd))
  generalize hd : { (s.dev.at t).svcTake k with free := ((s.dev.at t).svcTake k).free + 1 }.modCan k
    (Can.challenged (Config.nonce ((s.dev.at t).svcTake k).free)) = d at hserved
  generalize Config.nonce ((s.dev.at t).svcTake k).free = n at hd hserved
  have hsame : d.can = upd s.dev.can k (fun c => c.taken.challenged n) ∧ d.sup = s.dev.sup ∧ (s.dev.at t).ChangesOnly [.can] d := by
    subst hd
    exact ⟨upd_upd .., rfl, .of _ (can := .inl (by simp))⟩
  clear hd
  obtain ⟨hcans, hsup, honly⟩ := hsame
  have hcan : d.can[k] = s.dev.can[k].taken.challenged n := hcans ▸ upd_same ..
  have hruns : d.svcRuns k = true := (svcRuns_congr (by rw [hcan]; rfl) hsup).trans hasked.runs
  have hon : d.can[k].busOff = false := by
    rw [hcan]
    exact hasked.on
  generalize hx : d.response k r.fd (svcHead r 0) (lowHalf n) = x
  have hfirst : d.svcAnswer k r 0 (some (lowHalf n)) = d.modCan k (Can.queues x) := hx ▸ svcSend_runs hruns hon ..
  have hcan' : (d.modCan k (Can.queues x)).can[k] = (s.dev.can[k].taken.challenged n).queues x := by rw [modCan_same, hcan]
  generalize hy : (d.modCan k (Can.queues x)).response k false [r.op ||| 0x80, r.seq, 1, 0] (highHalf n) = y
  have hsecond : (d.modCan k (Can.queues x)).svcSend k false [r.op ||| 0x80, r.seq, 1, 0] (highHalf n) =
      d.modCan k fun c => (c.queues x).queues y := by
    have hruns' := (svcRuns_congr (d := d) (by rw [hcan', hcan]; rfl) (modCan_sup (Can.queues x) d)).trans hruns
    have hon' : (d.modCan k (Can.queues x)).can[k].busOff = false := by
      rw [hcan']
      exact hasked.on
    rw [svcSend_runs hruns' hon', hy, modCan_modCan]
  have hempty (j : Fin 4) : (d.modCan k fun c => (c.queues x).queues y).can[j].svcQ = [] := by
    by_cases hj : j = k
    · subst hj
      rw [modCan_same, hcan]
      exact congrArg (List.drop 1) hasked.queue
    · rw [modCan_other hj, hcans, upd_other _ _ _ _ hj]
      exact hasked.alone j hj
  rw [hfirst, hsecond, svcAdvance_none hempty] at hserved
  refine completes_of_changesOnly (c := .challenge t k) hsettled rfl hserved (honly.trans (changesOnly_modCan _ _)) fun s' h htouches => ?_
  refine ⟨n, x, y, ?_, ?_, ?_, fun j hj => ?_, htouches⟩
  · rw [h.can, modCan_same, hcan]
  · rw [← hx, ← leBytes_lowHalf, Dev.response, svcHead, hop, hfd]
    rfl
  · rw [← hy, hop]
    rfl
  · rw [h.can, modCan_other hj, hcans, upd_other _ _ _ _ hj]

end

section
variable {s : State} {t : Ns} {k : Fin 4} {r : SvcReq} (hsettled : s.dev.settled) (hasked : s.Asked k r)
  (hopen : s.dev.can[k].lockEnd = none)
include hsettled hasked hopen

/-- AUTH with a whole tag. -/
theorem completes_tag (hop : r.op = 0x31) (hfd : r.fd = true) :
    let key := r.addr.toNat / 256 % 2
    let fits := s.env.tagFits k key r.tag s.dev.can[k].nonce
    Completes (.auth t k) s fun s' => ∃ x, s'.dev.can[k] = ((s.dev.can[k].taken).judged fits (s.now t) key).queues x ∧
      s.Responds t k r (if fits then 0 else 5) none x ∧ (∀ j, j ≠ k → s'.dev.can[j] = s.dev.can[j]) ∧ s.touches [.can] s' := by
  intro key fits
  have hnonce : ((s.dev.at t).svcTake k).can[k].nonce = s.dev.can[k].nonce := (congrArg Can.nonce (modCan_same Can.taken (s.dev.at t)) :)
  have hact := (svcAuth_whole (e := s.env) (k := k) (d := (s.dev.at t).svcTake k) (c := s.dev.can[k]) hfd).trans (svcTag_judges ..)
  rw [hnonce] at hact
  exact completes_session (i := .auth t k) hsettled hasked hopen hop (.judged fits _ _) rfl rfl hact

end

theorem judged_cleared (good : Bool) (now key : Nat) (c : Can) : (c.judged good now key).nonce = none ∧ (c.judged good now key).authParts = [] := by
  cases good <;> exact ⟨rfl, rfl⟩

theorem judged_good (now key : Nat) (c : Can) : (c.judged true now key).level = key + 1 ∧ (c.judged true now key).failRow = 0 ∧
    (c.judged true now key).fails = c.fails ∧ (c.judged true now key).lockEnd = c.lockEnd := ⟨rfl, rfl, rfl, rfl⟩

theorem judged_bad (now key : Nat) (c : Can) : (c.judged false now key).level = c.level ∧ (c.judged false now key).fails = c.fails + 1 ∧
    (c.failRow < 2 → (c.judged false now key).failRow = c.failRow + 1 ∧ (c.judged false now key).lockEnd = none) ∧
    (2 ≤ c.failRow → (c.judged false now key).failRow = 0 ∧ (c.judged false now key).lockEnd = some (now + 10000000000)) := by
  refine ⟨rfl, rfl, fun h => ?_, fun h => ?_⟩
  · have hfew : ¬3 ≤ c.failRow + 1 := by omega
    exact ⟨if_neg hfew, if_neg hfew⟩
  · have hmany : 3 ≤ c.failRow + 1 := by omega
    exact ⟨if_pos hmany, if_pos hmany⟩

/-- Settles O56: each command of the service channel on sessions is traced to what it changes of its controller. -/
theorem serviceSessions : Obligations.ServiceSessions := by
  unfold Obligations.ServiceSessions
  intro s t k hsettled c others
  refine ⟨?_, fun h => ?_, fun h => ?_, fun a hlock h => ?_, fun a hlock h => ?_⟩
  · intro r hruns hon hqueue halone hopen answered
    have hasked : s.Asked k r := ⟨hruns, hqueue, hon, halone⟩
    have hanswered {f : Can → Can} {status : Nat} {x : TxFrame} (hf : Can.Holds f) (s' : State)
        (hcan : s'.dev.can[k] = (f s.dev.can[k].taken).queues x) (hresponds : s.Responds t k r status none x) (hothers : others s') :
        answered status s' := by
      obtain ⟨hsvcQ, -, htxq⟩ := answer_reads hasked hf hcan
      exact ⟨hothers, hsvcQ, x, htxq, hresponds.src, hresponds.head⟩
    refine ⟨fun hop hfd => ?_, fun hop hfd => ?_, fun hop hfd => ?_, fun hop hfd hfirst => ?_, fun hop => ?_⟩
    · refine (completes_session (i := .challenge t k) hsettled hasked hopen hop (.challenged _) rfl rfl (svcChallenge_fd hfd)).imp
        fun s' hs' => ?_
      obtain ⟨x, hcan, hresponds, hothers, htouches⟩ := hs'
      refine ⟨⟨hothers, htouches⟩, _, x, by rw [hcan]; rfl, by rw [hcan]; rfl, by rw [hcan]; rfl, ?_⟩
      rw [← List.take_append_drop 4 x.frame.data, hresponds.head, hresponds.data _ rfl, hop, hfd]
      rfl
    · refine (completes_challenge_classical (t := t) hsettled hasked hopen hop hfd).imp
        fun s' hs' => ?_
      obtain ⟨n, x, y, hcan, hx, hy, hothers, htouches⟩ := hs'
      exact ⟨⟨hothers, htouches⟩, n, x, y, by rw [hcan]; rfl, by rw [hcan]; simp [Can.queues, Can.challenged, Can.taken, c], hx, hy⟩
    · refine (completes_tag (t := t) hsettled hasked hopen hop hfd).imp fun s' hs' => ?_
      obtain ⟨x, hcan, hresponds, hothers, htouches⟩ := hs'
      intro key secret good y
      have hy : y = (Can.judged (s.env.tagFits k key r.tag c.nonce) (s.now t) key c.taken).queues x := hcan
      have hall := hanswered (.judged _ _ _) s' hcan hresponds ⟨hothers, htouches⟩
      have hgood : s.env.tagFits k key r.tag c.nonce = true ↔ good := tagFits_iff ..
      clear_value y good
      obtain ⟨hnonce, hparts⟩ := judged_cleared (s.env.tagFits k key r.tag c.nonce) (s.now t) key c.taken
      refine ⟨hy ▸ hnonce, hy ▸ hparts, fun h => ?_, fun h => ?_⟩
      · rw [hgood.mpr h] at hall hy
        obtain ⟨hlevel, hrow, hfails, hlock⟩ := judged_good (s.now t) key c.taken
        exact ⟨hall, hy ▸ hlevel, hy ▸ hrow, hy ▸ hfails, hy ▸ hlock.trans hopen⟩
      · rw [Bool.eq_false_iff.mpr (mt hgood.mp h)] at hall hy
        obtain ⟨hlevel, hfails, hfew, hmany⟩ := judged_bad (s.now t) key c.taken
        exact ⟨hall, hy ▸ hlevel, hy ▸ hfails, fun h => hy ▸ hfew h, fun h => hy ▸ hmany h⟩
    · refine (completes_session (i := .auth t k) hsettled hasked hopen hop (.holdsParts _) rfl rfl (svcAuth_part hfd hfirst)).imp
        fun s' hs' => ?_
      obtain ⟨x, hcan, hresponds, hothers, htouches⟩ := hs'
      exact ⟨hanswered (.holdsParts _) s' hcan hresponds ⟨hothers, htouches⟩, by rw [hcan]; rfl, by rw [hcan]; rfl, by rw [hcan]; rfl⟩
    · refine (completes_session (i := .close t k) hsettled hasked hopen hop .closed rfl rfl rfl).imp
        fun s' hs' => ?_
      obtain ⟨x, hcan, hresponds, hothers, htouches⟩ := hs'
      exact ⟨hanswered .closed s' hcan hresponds ⟨hothers, htouches⟩, by rw [hcan]; rfl⟩
  · refine (completes_can (c := .sessionTimeout t k) hsettled rfl rfl).imp
      fun s' hs' => ?_
    obtain ⟨hcan, hothers, htouches⟩ := hs'
    exact ⟨hcan.trans (if_pos h), hothers, htouches⟩
  · exact completes_untouched (c := .sessionTimeout t k) hsettled rfl (modCan_still (if_neg (Nat.not_le_of_lt h)))
  · refine (completes_can (c := .lockoutEnd t k) hsettled rfl rfl).imp
      fun s' hs' => ?_
    obtain ⟨hcan, hothers, htouches⟩ := hs'
    refine ⟨hcan.trans ?_, hothers, htouches⟩
    rw [show s.dev.can[k].lockEnd = some a from hlock]
    exact if_pos h
  · refine completes_untouched (c := .lockoutEnd t k) hsettled rfl (modCan_still ?_)
    rw [show (s.dev.at (stampOf (.lockoutEnd t k))).can[k].lockEnd = some a from hlock]
    exact if_neg (Nat.not_le_of_lt h)

end Sys2Proof.Machine
end

section
/-! The rope link: what frames carry and leave, its mirror, and its loss (R324 to R329). -/

namespace Sys2Proof.Machine

open Sys2Proof

/-! ### Slots that a source of the hardware writes one after the other -/

/-- Slot `i` is one that the hardware gives its value (R224). -/
abbrev State.ours (s : State) (i : Nat) : Prop := (s.attr i).cls = 1 ∧ (s.attr i).writer = 8

section
variable {s : State} {l : List (Nat × W64 × Byte)} {m : Mems}

theorem foldl_hwSlot (l : List (Nat × W64 × Byte)) {d : Dev} (hdead : d.memu.deadTags = []) (hslots : ∀ x ∈ l, x.1 < 16384)
    (hours : ∀ x ∈ l, s.ours x.1) :
    l.foldl (fun d x => d.hwSlot s.env x.1 x.2.1 x.2.2) d = { d with writes := d.writes ++ s.stores l } := by
  induction l generalizing d with
  | nil => simp [State.stores]
  | cons x l ih =>
    obtain ⟨hx, hl⟩ := List.forall_mem_cons.mp hslots
    obtain ⟨hown, hours⟩ := List.forall_mem_cons.mp hours
    have hin : (s.attr x.1).cls ≠ 2 := by simp [hown.1]
    rw [List.foldl_cons, hwSlot_input (e := s.env) hdead hx hown,
      ih (d := d.write (.slot x.1 x.2.1 (x.2.2 ||| ((s.env.attr x.1).tag &&& 0x10)))) hdead hl hours]
    simp only [State.stores, List.flatMap_cons, if_neg hin, Dev.write, List.append_assoc]
    rfl

/-- A slot written once has the tag it was given, beside its WVIOL (R226). -/
theorem stores_attr_same (hwf : m.wf = true) (hslots : ∀ x ∈ l, x.1 < 16384) (hnodup : (l.map (·.1)).Nodup)
    {x : Nat × W64 × Byte} (hx : x ∈ l) (hcls : (s.attr x.1).cls ≠ 2) :
    sget {} ((s.stores l).foldl (fun m w => w.apply m) m).attrs x.1 =
      { sget {} m.attrs x.1 with tag := x.2.2 ||| ((s.attr x.1).tag &&& 0x10) } := by
  induction l generalizing m with
  | nil => cases hx
  | cons y l ih =>
    obtain ⟨hy, hl⟩ := List.forall_mem_cons.mp hslots
    obtain ⟨hfirst, hnodup⟩ := List.nodup_cons.mp hnodup
    simp only [State.stores, List.flatMap_cons, List.foldl_append]
    obtain rfl | hx := List.mem_cons.mp hx
    · rw [if_neg hcls]
      refine (stores_attr (Mems.wf_apply hwf _) hl fun z hz heq => hfirst (List.mem_map.mpr ⟨z, hz, heq.symm⟩)).trans ?_
      exact (attr_slot hwf hy ..).trans (if_pos rfl)
    · have hne : x.1 ≠ y.1 := fun heq => hfirst (List.mem_map.mpr ⟨x, hx, heq⟩)
      split
      · exact ih hwf hl hnodup hx
      · refine (ih (Mems.wf_apply hwf _) hl hnodup hx).trans ?_
        have hsame := (attr_slot hwf hy y.2.1 (y.2.2 ||| ((s.attr y.1).tag &&& 0x10)) x.1).trans (if_neg hne)
        rw [hsame]

theorem stores_word_other (hwf : m.wf = true) (hslots : ∀ x ∈ l, x.1 < 16384) {j : Nat} (haway : ∀ x ∈ l, j ≠ x.1) :
    ((s.stores l).foldl (fun m w => w.apply m) m).word (slotAddr j) = m.word (slotAddr j) :=
  (stores_keep (p := fun m' => m'.wf = true ∧ m'.word (slotAddr j) = m.word (slotAddr j))
    (fun x hx _ _ h => ⟨Mems.wf_apply h.1 _, (word_slot_other h.1 (hslots x hx) (haway x hx) _ _).trans h.2⟩) ⟨hwf, rfl⟩).2

end

/-! ### The loss of the link (R328, R329) -/

section
variable {k : Fin 4} {d : Dev}

theorem svcAnswer_only (r : SvcReq) (status : Nat) (data : Option W64) (d : Dev) :
    ∃ can n, d.svcAnswer k r status data = { d with can := can, free := n } := by
  have hsend (fd : Bool) (head : List Byte) (v : W64) (d : Dev) : ∃ can, d.svcSend k fd head v = { d with can := can } := by
    unfold Dev.svcSend
    extract_lets w frame
    split
    · exact ⟨_, rfl⟩
    · exact ⟨d.can, rfl⟩
  cases data with
  | some v =>
    obtain ⟨can, h⟩ := hsend r.fd (svcHead r status) v d
    exact ⟨can, d.free, h⟩
  | none =>
    obtain ⟨can, h⟩ := hsend r.fd (svcHead r status) (Config.svcData d.free) { d with free := d.free + 1 }
    exact ⟨can, d.free + 1, h⟩

/-- While the link is down no request is forwarded. -/
theorem svcForward_down (h : d.rope.up = false) : ∃ can n, d.svcForward k = { d with can := can, free := n } := by
  have hanswer (r : SvcReq) (status : Nat) : ∃ can n, (d.svcTake k).svcAnswer k r status none = { d with can := can, free := n } := by
    obtain ⟨can, n, h⟩ := svcAnswer_only (k := k) r status none (d.svcTake k)
    exact ⟨can, n, h⟩
  unfold Dev.svcForward
  extract_lets c
  split
  · exact ⟨d.can, d.free, rfl⟩
  · next r _ _ =>
    have hdown : (d.rope.role || !d.rope.up || !d.ropeRuns) = true := by simp [h]
    rw [if_pos hdown]
    split
    · exact ⟨d.can, d.free, rfl⟩
    · split
      · exact hanswer r 6
      · split
        · exact hanswer r 3
        · split
          · exact hanswer r 2
          · exact hanswer r 7

theorem svcAdvance_down (h : d.rope.up = false) : ∃ can n, d.svcAdvance = { d with can := can, free := n } := by
  have hfour (d : Dev) (h : d.rope.up = false) (k : Fin 4) :
      ∃ can n, (((d.svcForward k).svcForward k).svcForward k).svcForward k = { d with can := can, free := n } := by
    obtain ⟨can₁, n₁, h₁⟩ := svcForward_down (k := k) h
    obtain ⟨can₂, n₂, h₂⟩ := svcForward_down (k := k) (d := { d with can := can₁, free := n₁ }) h
    obtain ⟨can₃, n₃, h₃⟩ := svcForward_down (k := k) (d := { d with can := can₂, free := n₂ }) h
    obtain ⟨can₄, n₄, h₄⟩ := svcForward_down (k := k) (d := { d with can := can₃, free := n₃ }) h
    exact ⟨can₄, n₄, by rw [h₁, h₂, h₃, h₄]⟩
  have hall : ∀ (l : List (Fin 4)) (d : Dev), d.rope.up = false → ∃ can n,
      l.foldl (fun d k => (((d.svcForward k).svcForward k).svcForward k).svcForward k) d = { d with can := can, free := n } := by
    intro l
    induction l with
    | nil => exact fun d _ => ⟨d.can, d.free, rfl⟩
    | cons k l ih =>
      intro d h
      obtain ⟨can, n, hone⟩ := hfour d h k
      obtain ⟨can', n', hrest⟩ := ih { d with can := can, free := n } h
      exact ⟨can', n', by rw [List.foldl_cons, hone, hrest]⟩
  exact hall [0, 1, 2, 3] d h

/-- The rope with nothing in its tunnel. -/
def Rope.tunnelled (r : Rope) : Rope := { r with tunnel := { r.tunnel with client := none, outPart := 0, out := [], inn := [] } }

theorem tunnelDown_down (h : d.rope.up = false) :
    ∃ can n, d.tunnelDown = { d with rope := d.rope.tunnelled, can := can, free := n } := by
  unfold Dev.tunnelDown
  extract_lets c d'
  have hanswered : ∃ can n, (match c with | some (k, r) => d'.svcAnswer k r 7 none | none => d') = { d' with can := can, free := n } := by
    clear_value c
    cases c with
    | some x => exact svcAnswer_only ..
    | none => exact ⟨d'.can, d'.free, rfl⟩
  obtain ⟨can, n, hanswered⟩ := hanswered
  obtain ⟨can', n', hadvance⟩ := svcAdvance_down (d := { d' with can := can, free := n }) h
  exact ⟨can', n', (congrArg Dev.svcAdvance hanswered).trans hadvance⟩

end

end Sys2Proof.Machine
end

section
/-! O57: rope frames sent and received, the loss of the link, the defaults (R324 to R326, R328, R329). -/

namespace Sys2Proof.Machine

open Sys2Proof

/-! ### A frame that leaves (R324) -/

section
variable {e : Env} {d : Dev}

/-- The fields of the status word that the partner goes by. -/
theorem ropeStatus_reads (d : Dev) : fld d.ropeStatus 0 4 = 1 ∧ fld d.ropeStatus 4 4 = d.rope.fcnt.toNat ∧
    bit d.ropeStatus 8 = d.rope.role ∧ fld d.ropeStatus 9 3 = d.pos.sync.code ∧ bit d.ropeStatus 13 = d.snap.ropeSend.isSome ∧
    bit d.ropeStatus 14 = d.flt.valid ∧ fld d.ropeStatus 32 16 = (d.snap.ropeSend.getD d.snap.num).toNat := by
  have hsync : d.pos.sync.code < 8 := by cases d.pos.sync <;> decide
  unfold Dev.ropeStatus
  extract_lets f
  simp only [fld_or, bit_or]
  refine ⟨?_, ?_, ?_, ?_, ?_, ?_, ?_⟩
  · simp [fld_put_same, fld_put_disjoint, fld_putB_disjoint]
  · have hcnt := d.rope.fcnt.isLt
    simp [fld_put_same, fld_put_disjoint, fld_putB_disjoint, Nat.mod_eq_of_lt hcnt]
  · simp [bit_put_outside, bit_putB_other, bit_putB_same]
  · simp [fld_put_same, fld_put_disjoint, fld_putB_disjoint, Nat.mod_eq_of_lt hsync]
  · simp [bit_put_outside, bit_putB_other, bit_putB_same]
  · simp [bit_put_outside, bit_putB_other, bit_putB_same, f]
  · have hnum := (d.snap.ropeSend.getD d.snap.num).isLt
    simp [fld_put_same, fld_put_disjoint, fld_putB_disjoint, Nat.mod_eq_of_lt hnum]

/-- A frame that leaves an empty tunnel. -/
theorem ropeSend_empty (h : d.rope.tunnel.out = []) : d.ropeSend e =
    { d with rope := { d.rope with sent := some (d.ropeFrame e 0), fcnt := d.rope.fcnt + 1 }, snap := { d.snap with ropeSend := none } } := by
  have hword : d.rope.tunnel.word = 0 := if_pos (by simp [h])
  have hnext : (if d.rope.tunnel.out.isEmpty then d.rope.tunnel
      else { d.rope.tunnel with out := d.rope.tunnel.out.drop 3, outPart := d.rope.tunnel.outPart + 1 }) = d.rope.tunnel :=
    if_pos (by simp [h])
  unfold Dev.ropeSend
  extract_lets f next
  have hnext' : next d.rope.tunnel = d.rope.tunnel := hnext
  have hf : f = d.ropeFrame e 0 := congrArg (d.ropeFrame e) hword
  rw [← hf]
  clear_value f next
  simp only [Dev.modRope, Dev.modSnap, hnext']
  rfl

theorem ropeFrame_values (w : W32) : (d.ropeFrame e w).values.length = 8 := by simp [Dev.ropeFrame, Rope.group]

/-! ### A frame that arrives (R324 to R326, R329) -/

variable {f : RopeFrame}

/-- The link once a good frame is counted in its slot. -/
def Rope.good (f : RopeFrame) (r : Rope) : Rope := { r with slotAt := f.arrive, lastGood := f.arrive, goodRun := r.goodRun + 1 }

/-- The link that has just come up. -/
def Rope.rises (now : Ns) (r : Rope) : Rope := { r with up := true, lostAt := none, defDone := false, xchkFrom := now + 80000, xFails := 0 }

theorem ropeFrameIn_damaged (hruns : d.ropeRuns = true) (hslot : d.rope.slotsPassed f.arrive ≤ 1) (hbad : f.ok = false) :
    d.ropeFrameIn e f = { d with rope := { d.rope with bad := d.rope.bad + 1, slotAt := f.arrive, goodRun := 0 } } := by
  have hone : max 1 (d.rope.slotsPassed f.arrive) = 1 := Nat.max_eq_left hslot
  simp only [Dev.ropeFrameIn, Dev.ropeReceive, hruns, hbad, hone, Bool.and_false, Bool.not_true, Bool.not_false, Bool.false_eq_true, if_false,
    if_true]
  rfl

section
variable (hruns : d.ropeRuns = true) (hslot : d.rope.slotsPassed f.arrive ≤ 1) (hok : f.ok = true)
include hruns hslot hok

theorem ropeReceive_good : d.ropeReceive e f =
    if d.rope.up then { d with rope := d.rope.good f }.ropeContents e f
    else if d.rope.goodRun + 1 < 8 then { d with rope := d.rope.good f }
    else { d with rope := (d.rope.good f).rises d.dtime } := by
  have hnone : d.rope.bad + BitVec.ofNat 32 (d.rope.slotsPassed f.arrive - 1) = d.rope.bad := by
    rw [Nat.sub_eq_zero_of_le hslot]
    exact BitVec.add_zero _
  simp only [Dev.ropeReceive, Dev.modRope, hruns, hok, if_pos hslot, hnone, Bool.not_true, Bool.false_eq_true, if_false]
  rfl

/-- On a link that is down a good frame counts towards its coming up. -/
theorem ropeFrameIn_down (hdown : d.rope.up = false) : d.ropeFrameIn e f =
    { d with rope := if d.rope.goodRun + 1 < 8 then d.rope.good f else (d.rope.good f).rises d.dtime } := by
  simp only [Dev.ropeFrameIn, ropeReceive_good hruns hslot hok, hdown, Bool.and_false, Bool.false_and, Bool.false_eq_true, if_false]
  split <;> rfl

end

/-- The mirror entries that a frame carries for slots: slot, value, tag (R325). -/
def Rope.mirrored (r : Rope) (f : RopeFrame) : List (Nat × W64 × Byte) :=
  let entry (j : Nat) : W64 := (r.mirror[Fin.ofNat 64 (8 * (fld f.w0 4 4 % 8) + j)]).1
  ((List.range 8).filter fun j => bit (entry j) 30).map fun j =>
    (fld (entry j) 16 14, (f.values[j]?).getD 0, BitVec.ofNat 8 (fld f.tags (8 * j) 8))

theorem mirrorIn_eq (f : RopeFrame) (d : Dev) :
    d.mirrorIn e f = (d.rope.mirrored f).foldl (fun d x => d.hwSlot e x.1 x.2.1 x.2.2) d := by
  have hzip : (d.rope.group (fld f.w0 4 4 % 8)).zipIdx =
      (List.range 8).map fun j => (d.rope.mirror[Fin.ofNat 64 (8 * (fld f.w0 4 4 % 8) + j)], j) := by
    apply List.ext_getElem <;> simp [Rope.group]
  unfold Dev.mirrorIn Rope.mirrored
  extract_lets l entry
  rw [show l.zipIdx = _ from hzip, List.foldl_map, List.foldl_map, List.foldl_filter]

/-- On a link that is up a frame without a fault, a snapshot, a position and a tunnel word gives its values to their slots. -/
theorem ropeFrameIn_up {s : State} (he : e = s.env) (hruns : d.ropeRuns = true) (hslot : d.rope.slotsPassed f.arrive ≤ 1) (hok : f.ok = true)
    (hup : d.rope.up = true)
    (hplain : bit f.w0 13 = false ∧ bit f.w0 14 = false ∧ fld f.w0 9 3 ≠ 3 ∧ f.tunnel.getLsbD 0 = false)
    (hdead : d.memu.deadTags = []) (hslots : ∀ x ∈ d.rope.mirrored f, x.1 < 16384) (hours : ∀ x ∈ d.rope.mirrored f, s.ours x.1) :
    d.ropeFrameIn e f = { d with rope := { d.rope.good f with partnerFault := false }, writes := d.writes ++ s.stores (d.rope.mirrored f) } := by
  obtain ⟨hsnap, hfault, hpos, htunnel⟩ := hplain
  subst he
  have hcontents : Dev.ropeContents s.env f { d with rope := d.rope.good f } =
      { d with rope := { d.rope.good f with partnerFault := false }, writes := d.writes ++ s.stores (d.rope.mirrored f) } := by
    have hmirror := (mirrorIn_eq f { d with rope := { d.rope.good f with partnerFault := false } }).trans
      (foldl_hwSlot (d.rope.mirrored f) hdead hslots hours)
    have hno (d : Dev) : d.ropeXchk f = d := by
      unfold Dev.ropeXchk
      simp only [beq_eq_false_iff_ne.mpr hpos, Bool.and_false, Bool.false_and, Bool.not_false, if_true]
    unfold Dev.ropeContents
    simp only [hsnap, hfault, Bool.false_and, Bool.false_eq_true, if_false, hno]
    exact hmirror
  have htunnel' (d : Dev) : d.tunnelIn s.env f.tunnel = d := if_pos (by rw [htunnel]; rfl)
  unfold Dev.ropeFrameIn
  simp only [hruns, hup, hok, Bool.and_self, if_true, htunnel', ropeReceive_good hruns hslot hok]
  exact hcontents

end

/-! ### The memories after the mirror's slots are written (R325, R329) -/

/-- Slots of the hardware that are written once each hold what they were given; no other does. -/
theorem stored_slots {s s' : State} {l : List (Nat × W64 × Byte)} (hwf : s.mems.wf = true)
    (hmems : s'.mems = (s.stores l).foldl (fun m w => w.apply m) s.mems) (hslots : ∀ x ∈ l, x.1 < 16384)
    (hnodup : (l.map (·.1)).Nodup) (hours : ∀ x ∈ l, s.ours x.1) :
    (∀ x ∈ l, s'.slot x.1 = x.2.1 ∧ (s'.attr x.1).tag = x.2.2 ||| ((s.attr x.1).tag &&& 0x10)) ∧
      ∀ i, (∀ x ∈ l, i ≠ x.1) → s'.attr i = s.attr i ∧ s'.slot i = s.slot i := by
  have hcls (x : Nat × W64 × Byte) (hx : x ∈ l) : (s.attr x.1).cls ≠ 2 := by simp [(hours x hx).1]
  refine ⟨fun x hx => ⟨?_, ?_⟩, fun i haway => ⟨?_, ?_⟩⟩
  · rw [State.slot, hmems, stores_word hwf hslots hnodup hx (hcls x hx)]
  · rw [State.attr, hmems, stores_attr_same hwf hslots hnodup hx (hcls x hx)]
  · rw [State.attr, hmems, stores_attr hwf hslots haway]
    rfl
  · rw [State.slot, hmems, stores_word_other hwf hslots haway]
    rfl

section
variable {r : Rope} {f : RopeFrame}

/-- Entry `j` of the group that a frame carries. -/
def Rope.entry (r : Rope) (f : RopeFrame) (j : Fin 8) : W64 := (r.mirror[Fin.ofNat 64 (8 * (fld f.w0 4 4 % 8) + j.val)]).1

theorem mem_mirrored {x : Nat × W64 × Byte} : x ∈ r.mirrored f ↔ ∃ j : Fin 8, bit (r.entry f j) 30 = true ∧
    (fld (r.entry f j) 16 14, (f.values[j.val]?).getD 0, BitVec.ofNat 8 (fld f.tags (8 * j.val) 8)) = x := by
  simp only [Rope.mirrored, List.mem_map, List.mem_filter, List.mem_range]
  constructor
  · rintro ⟨j, ⟨hj, hreceives⟩, rfl⟩
    exact ⟨⟨j, hj⟩, hreceives, rfl⟩
  · rintro ⟨j, hreceives, rfl⟩
    exact ⟨j.val, ⟨j.isLt, hreceives⟩, rfl⟩

theorem mirrored_lt {x : Nat × W64 × Byte} (hx : x ∈ r.mirrored f) : x.1 < 16384 := by
  obtain ⟨j, -, rfl⟩ := mem_mirrored.mp hx
  exact fld_lt ..

theorem mirrored_nodup (h : ∀ j, bit (r.entry f j) 30 = true → ∀ i, i ≠ j → bit (r.entry f i) 30 = true →
    fld (r.entry f i) 16 14 ≠ fld (r.entry f j) 16 14) : ((r.mirrored f).map (·.1)).Nodup := by
  rw [Rope.mirrored, List.map_map]
  refine List.Nodup.map_on (fun i hi j hj heq => ?_) (List.nodup_range.filter _)
  obtain ⟨hilt, hibit⟩ := List.mem_filter.mp hi
  obtain ⟨hjlt, hjbit⟩ := List.mem_filter.mp hj
  by_contra hne
  exact h ⟨j, List.mem_range.mp hjlt⟩ hjbit ⟨i, List.mem_range.mp hilt⟩ (fun hfin => hne (Fin.mk.inj hfin)) hibit heq

end

/-! ### The loss of the link, and the defaults (R329) -/

section
variable {e : Env} {d : Dev}

/-- The rope once its link is lost. -/
def Rope.loses (now : Ns) (r : Rope) : Rope :=
  { r with up := false, lostSeen := true, losses := r.losses + 1, lostAt := some now, defDone := false, goodRun := 0, xFails := 0
           bad := r.bad + BitVec.ofNat 32 ((now - r.slotAt) / 10000), slotAt := r.slotAt + 10000 * ((now - r.slotAt) / 10000) }

theorem ropeRuns_unlocked (h : d.ropeRuns = true) : d.sup.mode ≠ .locked := by
  intro hlocked
  simp [Dev.ropeRuns, hlocked] at h

theorem ropeLost_late (hdead : d.memu.deadTags = []) (hruns : d.ropeRuns = true) (hlink : d.rope.up = true ∨ d.rope.lostAt = none)
    (hlate : d.rope.lastGood + 30000 ≤ d.dtime) : ∃ can n, d.ropeLost =
      ({ d with writes := d.writes ++ stales (d.rope.rxEntries.map fun x => fld x.1 16 14), rope := (d.rope.loses d.dtime).tunnelled
                can := can, free := n } : Dev).raise { source := 20, ctrl := ropeCtrl, coord := d.noEvent } := by
  have hmode : ¬(d.sup.mode == .locked && d.rope.up && decide (d.rope.lastGood + 30000 ≤ d.dtime)) = true := by
    simp [ropeRuns_unlocked hruns]
  have hlost : (d.ropeRuns && (d.rope.up || d.rope.lostAt.isNone) && decide (d.rope.lastGood + 30000 ≤ d.dtime)) = true := by
    obtain h | h := hlink <;> simp [hruns, h, hlate]
  have hfold := foldl_staleSlot (d.rope.rxEntries.map fun x => fld x.1 16 14) hdead
  rw [List.foldl_map] at hfold
  obtain ⟨can, n, hdown⟩ := tunnelDown_down (d := { d with
    writes := d.writes ++ stales (d.rope.rxEntries.map fun x => fld x.1 16 14), rope := d.rope.loses d.dtime }) rfl
  refine ⟨can, n, ?_⟩
  unfold Dev.ropeLost
  extract_lets r late m d₁
  rw [if_neg hmode, if_pos hlost, ← hdown]
  have hd₁ : d₁ = { d with writes := d.writes ++ stales (d.rope.rxEntries.map fun x => fld x.1 16 14) } := hfold
  rw [hd₁]
  rfl

theorem ropeLost_locked (hmode : d.sup.mode = .locked) (hup : d.rope.up = true) (hlate : d.rope.lastGood + 30000 ≤ d.dtime) :
    ∃ can n, d.ropeLost = { d with rope := { d.rope with up := false, goodRun := 0 }.tunnelled, can := can, free := n } := by
  obtain ⟨can, n, hdown⟩ := tunnelDown_down (d := { d with rope := { d.rope with up := false, goodRun := 0 } }) rfl
  refine ⟨can, n, Eq.trans ?_ hdown⟩
  exact if_pos (by simp [hmode, hup, hlate])

theorem ropeLost_still (h : (d.rope.up = false ∧ d.rope.lostAt ≠ none) ∨ d.dtime < d.rope.lastGood + 30000) : d.ropeLost = d := by
  have hlate (hno : d.dtime < d.rope.lastGood + 30000) : decide (d.rope.lastGood + 30000 ≤ d.dtime) = false :=
    decide_eq_false (Nat.not_le_of_lt hno)
  unfold Dev.ropeLost
  extract_lets r late m d₁
  obtain ⟨hdown, hlost⟩ | hearly := h
  · rw [if_neg (by simp [r, hdown]), if_neg (by simp [r, hdown, hlost])]
  · rw [if_neg (by simp [r, late, hlate hearly]), if_neg (by simp [r, late, hlate hearly])]

end

end Sys2Proof.Machine
end

section
/-! O57: the rope's commands (R324 to R326, R328, R329). -/

namespace Sys2Proof.Machine

open Sys2Proof

section
variable {s : State} {c : Instr} {body : Env → Dev → Dev} {d : Dev} {r : FaultReq} {src : Fin 64} {l : List Group} {P : State → Prop}

/-- A command that raises one contained fault, with FAULT_N alone for a reaction, and writes to the memories besides. -/
theorem completes_of_raise_writes (hexec : exec c s = runAt (stampOf c) body s) (hbody : s.after (stampOf c) body = d.raise r)
    (hsettled : s.dev.settled) (hflt : d.flt = s.dev.flt) (hsrc : r.source = src.val)
    (hcls : srcClass r.source = 2) (hreact : r.react = none) (hnoted : s.onlyNoted r.source) (honly : s.dev.ChangesOnly l d)
    (hP : ∀ s', Follows s (d.report r) s' → s.reported src s' → s.touches ([.flt, .recs, .snap] ++ l ++ [.mems]) s' → P s') :
    Completes c s P := by
  have hraised : d.flt.raised = [] := (congrArg Flt.raised hflt).trans hsettled.1
  have hnote := noted_report r d
  unfold Completes
  rw [hexec]
  by_cases hrests : s.rests (stampOf c)
  · obtain ⟨s', hrun, h⟩ := runAt_follows hrests body
    rw [hbody, settle_raise hraised r s.env (reactionOf_onlyNoted hflt hreact hcls hnoted)] at h
    refine ⟨s', hrun, fun _ => hP s' h ?reported ?touches⟩
    case reported =>
      exact reported_of hsrc (by omega) ⟨by rw [hflt], by rw [hflt], by rw [hflt], by rw [hflt]⟩ h.flt
    case touches =>
      refine h.touches_mems (l := [.flt, .recs, .snap] ++ l) (hnote.raised.trans hraised) fun g hg => ?_
      obtain ⟨hreport, hrest⟩ := not_or.mp (mt List.mem_append.mpr hg)
      exact Group.same_trans (Group.same_trans (honly.parts s g hrest) (hnote.same s hreport)) (match g with
        | .nvi | .memu => ⟨_, rfl⟩
        | .twp => ⟨_, _, _, rfl⟩
        | .calc | .conv | .pio => ⟨rfl, rfl⟩
        | .pos | .adm | .loft | .banks | .bst | .pfi | .ign | .gate | .diag | .recs | .snap | .tmu | .can | .rope | .sup | .flt
        | .paths | .mems => rfl)
  · exact ⟨_, runAt_due _ body s, fun h => absurd h hrests⟩

end

section
variable {s : State} {t : Ns} (hclean : s.clean)
include hclean

/-- Entries of the mirror written to their slots. -/
theorem completes_mirrored {c : Instr} {body : Env → Dev → Dev} {r : Rope} {l : List (Nat × W64 × Byte)}
    (hexec : exec c s = runAt (stampOf c) body s)
    (hbody : s.after (stampOf c) body = { s.dev.at (stampOf c) with rope := r, writes := (s.dev.at (stampOf c)).writes ++ s.stores l })
    (hslots : ∀ x ∈ l, x.1 < 16384) (hnodup : (l.map (·.1)).Nodup) (hours : ∀ x ∈ l, s.ours x.1) :
    Completes c s fun s' => s'.dev.rope = r ∧
      (∀ x ∈ l, s'.slot x.1 = x.2.1 ∧ (s'.attr x.1).tag = x.2.2 ||| ((s.attr x.1).tag &&& 0x10)) ∧
      (∀ i, (∀ x ∈ l, i ≠ x.1) → s'.attr i = s.attr i ∧ s'.slot i = s.slot i) ∧ s.touches [.rope, .mems] s' := by
  refine completes_of_changesOnly hclean.1.2 hexec hbody (.of [.rope, .mems] (rope := .inl (by simp)) (writes := .inl (by simp)))
    fun s' h htouches => ?_
  have hmems : s'.mems = (s.stores l).foldl (fun m w => w.apply m) s.mems := by
    refine h.mems.trans ?_
    show (s.dev.writes ++ _).foldl _ _ = _
    rw [hclean.1.2.2]
    rfl
  obtain ⟨hwritten, hkept⟩ := stored_slots hclean.1.1 hmems hslots hnodup hours
  exact ⟨h.rope, hwritten, hkept, htouches⟩

/-- ROPE_LOST at a link that no good frame has kept up. -/
theorem completes_ropeLost (hruns : s.dev.ropeRuns = true) (hlink : s.dev.rope.up = true ∨ s.dev.rope.lostAt = none)
    (hlate : s.dev.rope.lastGood + 30000 ≤ s.now t) (hnoted : s.onlyNoted 20) : Completes (.ropeLost t) s fun s' =>
    s'.dev.rope = (s.dev.rope.loses (s.now t)).tunnelled ∧ s.reported 20 s' ∧
      s'.mems = (stales (s.dev.rope.rxEntries.map fun x => fld x.1 16 14)).foldl (fun m w => w.apply m) s.mems ∧
      s.touches [.rope, .mems, .can, .flt, .recs, .snap] s' := by
  obtain ⟨can, n, hbody⟩ := ropeLost_late (d := s.dev.at t) hclean.2.2 hruns hlink hlate
  refine completes_of_raise_writes (c := .ropeLost t) (src := 20) (l := [.rope, .mems, .can]) rfl hbody hclean.1.2 rfl rfl rfl rfl hnoted
    (.of _ (rope := .inl (by simp)) (can := .inl (by simp)) (writes := .inl (by simp))) fun s' h hreported htouches => ?_
  refine ⟨h.rope.trans (noted_report _ _).rope, hreported, ?_, htouches.mono (by simp)⟩
  refine h.mems.trans ?_
  rw [(noted_report _ _).writes]
  show (s.dev.writes ++ _).foldl _ _ = _
  rw [hclean.1.2.2]
  rfl

end

/-- The defaults of the receive entries (R329). -/
theorem mirrorDefault_due {s : State} {a : Ns} {d : Dev} (hlost : d.rope.lostAt = some a) (hdone : d.rope.defDone = false)
    (hdue : a + fld d.rope.cfg 48 16 * 1000000 ≤ d.dtime) (hdead : d.memu.deadTags = [])
    (hours : ∀ x ∈ d.rope.rxEntries, s.ours (fld x.1 16 14)) :
    d.mirrorDefault s.env = { d with rope := { d.rope with defDone := true }
                                     writes := d.writes ++ s.stores (d.rope.rxEntries.map fun x => (fld x.1 16 14, x.2, 8)) } := by
  have hfold := foldl_hwSlot (s := s) (d.rope.rxEntries.map fun x => (fld x.1 16 14, x.2, 8)) hdead
    (fun x hx => by obtain ⟨y, -, rfl⟩ := List.mem_map.mp hx; exact fld_lt ..)
    (fun x hx => by obtain ⟨y, hy, rfl⟩ := List.mem_map.mp hx; exact hours y hy)
  rw [List.foldl_map] at hfold
  unfold Dev.mirrorDefault
  rw [hlost]
  simp only [hdone, decide_eq_true hdue, hfold, Bool.not_false, Bool.and_self, if_true]
  rfl

theorem mirrorDefault_still {e : Env} {d : Dev} (h : d.rope.lostAt = none ∨ d.rope.defDone = true) : d.mirrorDefault e = d := by
  unfold Dev.mirrorDefault
  split
  · next a hlost =>
    have hdone := h.resolve_left (by simp [hlost])
    exact if_neg (by simp [hdone])
  · rfl

/-- Settles O57: each command of the rope is traced to what it changes of the link, the mirror's slots and the fault unit. -/
theorem ropeLink : Obligations.RopeLink := by
  unfold Obligations.RopeLink
  intro s t hclean r now ours
  refine ⟨fun hruns hempty => ?_, fun hstill => ?_, fun f hruns hslot hbad => ?_, fun f hruns hslot hok hdown => ?_,
    ?up, fun hruns hlink hlate hnoted => ?_, fun hmode hup hlate => ?_,
    fun h => ?_, fun a hruns hlost hdone hdue hours hnodup => ?_, fun h => ?_⟩
  · refine completes_of_changesOnly (c := .ropeFrameSend t) (l := [.rope, .snap]) hclean.1.2 rfl
      ((if_pos hruns).trans (ropeSend_empty (e := s.env) (d := s.dev.at t) hempty))
      (.of _ (rope := .inl (by simp)) (snap := .inl (by simp))) fun s' h htouches => ?_
    obtain ⟨htype, hcnt, hrole, hsync, hsnap, hfault, hnum⟩ := ropeStatus_reads (s.dev.at t)
    refine ⟨_, h.rope, h.snap, htype, hcnt, hrole, hsync, hsnap, fun n hn => hnum.trans ?_, hfault, rfl, ropeFrame_values _, htouches⟩
    rw [show (s.dev.at t).snap.ropeSend = some n from hn]
    rfl
  · exact completes_untouched (c := .ropeFrameSend t) hclean.1.2 rfl (if_neg (Bool.eq_false_iff.mp hstill))
  · exact completes_of_changesOnly (c := .ropeFrameReceived t f) (l := [.rope]) hclean.1.2 rfl
      (ropeFrameIn_damaged (e := s.env) (d := s.dev.at t) hruns hslot hbad) (.of _ (rope := .inl (by simp)))
      fun s' h htouches => ⟨h.rope, htouches⟩
  · refine completes_of_changesOnly (c := .ropeFrameReceived t f) (l := [.rope]) hclean.1.2 rfl
      (ropeFrameIn_down (e := s.env) (d := s.dev.at t) hruns hslot hok hdown) (.of _ (rope := .inl (by simp))) fun s' h htouches => ?_
    by_cases hfew : r.goodRun + 1 < 8
    · have hcount : ¬7 ≤ r.goodRun := by omega
      have hrope : s'.dev.rope = r.good f := h.rope.trans (if_pos hfew)
      rw [hrope]
      refine ⟨rfl, rfl, rfl, rfl, hdown.trans (decide_eq_false hcount).symm, fun h => absurd h hcount, htouches⟩
    · have hcount : 7 ≤ r.goodRun := by omega
      have hrope : s'.dev.rope = (r.good f).rises now := h.rope.trans (if_neg hfew)
      rw [hrope]
      exact ⟨rfl, rfl, rfl, rfl, (decide_eq_true hcount).symm, fun _ => ⟨rfl, rfl⟩, htouches⟩
  case up =>
    intro f hruns hslot hok hup hsnap hfault hpos htunnel e hreceives
    have hours (x) (hx : x ∈ r.mirrored f) : s.ours x.1 := by
      obtain ⟨j, hj, rfl⟩ := mem_mirrored.mp hx
      exact (hreceives j hj).1
    refine (completes_mirrored (c := .ropeFrameReceived t f) hclean rfl
      (ropeFrameIn_up (e := s.env) (d := s.dev.at t) rfl hruns hslot hok hup ⟨hsnap, hfault, hpos, htunnel⟩ hclean.2.2
        (fun _ => mirrored_lt) hours) (fun _ => mirrored_lt) (mirrored_nodup fun j hj => (hreceives j hj).2) hours).imp
      fun s' hs' => ?_
    obtain ⟨hrope, hwritten, hkept, htouches⟩ := hs'
    refine ⟨hrope ▸ hup, hrope ▸ rfl, fun j hj => ?_, fun i haway => ?_, htouches⟩
    · exact hwritten (fld (r.entry f j) 16 14, (f.values[j.val]?).getD 0, BitVec.ofNat 8 (fld f.tags (8 * j.val) 8))
        (mem_mirrored.mpr ⟨j, hj, rfl⟩)
    obtain ⟨hattr, hslot⟩ := hkept i fun x hx => by
      obtain ⟨j, hj, rfl⟩ := mem_mirrored.mp hx
      exact (haway j hj).symm
    exact ⟨hattr, fun _ => hslot⟩
  · refine (completes_ropeLost (t := t) hclean hruns hlink hlate hnoted).imp fun s' hs' => ?_
    obtain ⟨hrope, hreported, hmems, htouches⟩ := hs'
    refine ⟨hrope ▸ rfl, hrope ▸ rfl, hrope ▸ rfl, hrope ▸ rfl, hrope ▸ rfl, hrope ▸ rfl, hrope ▸ rfl, hreported, ?_, fun x hx => ?_, htouches⟩
    · rw [hmems, stales_sram]
    · intro i hours
      rw [State.attr, hmems, stales_attr _ hclean.1.1 (fld_lt ..) hours.1 hours.2, if_pos (List.mem_map_of_mem hx)]
      rfl
  · obtain ⟨can, n, hbody⟩ := ropeLost_locked (d := s.dev.at t) hmode hup hlate
    exact completes_of_changesOnly (c := .ropeLost t) (l := [.rope, .can]) hclean.1.2 rfl hbody
      (.of _ (rope := .inl (by simp)) (can := .inl (by simp)))
      fun s' h htouches => ⟨by rw [h.rope]; rfl, by rw [h.rope]; rfl, by rw [h.rope]; rfl, htouches⟩
  · exact completes_untouched (c := .ropeLost t) hclean.1.2 rfl (ropeLost_still (d := s.dev.at t) h)
  · refine (completes_mirrored (c := .mirrorDefault t) hclean rfl
      ((if_pos hruns).trans (mirrorDefault_due (d := s.dev.at t) hlost hdone hdue hclean.2.2 hours))
      (fun x hx => by obtain ⟨y, -, rfl⟩ := List.mem_map.mp hx; exact fld_lt ..) (by rw [List.map_map]; exact hnodup)
      (fun x hx => by obtain ⟨y, hy, rfl⟩ := List.mem_map.mp hx; exact hours y hy)).imp
      fun s' hs' => ?_
    obtain ⟨hrope, hwritten, _, htouches⟩ := hs'
    exact ⟨hrope, htouches, fun x hx => hwritten (fld x.1 16 14, x.2, 8) (List.mem_map_of_mem hx)⟩
  · refine completes_untouched (c := .mirrorDefault t) hclean.1.2 rfl ?_
    show (if _ then (s.dev.at t).mirrorDefault s.env else s.dev.at t) = _
    rw [mirrorDefault_still (d := s.dev.at t) h, ite_self]
    rfl

end Sys2Proof.Machine
end

section
/-! The two-wire port: the steps of a transaction, as changes of the port's own registers (R332 to R336). -/

namespace Sys2Proof.Machine

open Sys2Proof

/-! ### The steps of a transaction -/

/-- The port after the address byte. -/
def Twp.started (adr : BitVec 7) (x : Twp) : Twp :=
  let hit := x.isReg adr || x.isLog adr
  { x with ack := hit, out := [], busy := x.busy || hit, xfers := if hit && !x.busy then x.xfers + 1 else x.xfers }

/-- The port after a STOP at `now`. -/
def Twp.stopped (now : Ns) (x : Twp) : Twp :=
  let x := x.discard
  { x with open_ := false, busy := false, idleAt := now, addr := x.addrNew.getD x.addr, addrNew := none }

/-- The port with a pointer, and the bytes of the register there that have come. -/
def Twp.stages (p : Byte) (l : List Byte) (x : Twp) : Twp :=
  { x with ptr := p + BitVec.ofNat 8 l.length, staging := if l = [] then none else some (p.toNat, l) }

/-- The port after `n` bytes of a latch. -/
def Twp.gives (cur : W64) (n : Nat) (x : Twp) : Twp :=
  { x with out := x.out ++ ((leBytes 8 cur.toNat).drop (x.ptr.toNat % 8)).take n, ptr := x.ptr + BitVec.ofNat 8 n }

/-- A whole transaction has passed at `now` between `x` and `y`. -/
def Twp.Ended (adr : BitVec 7) (now : Ns) (x y : Twp) : Prop :=
  y.busy = false ∧ y.open_ = false ∧ y.idleAt = now ∧ y.staging = none ∧
    y.xfers = x.xfers + (if (x.isReg adr || x.isLog adr) && !x.busy then 1 else 0)

/-- The same registers, the attention fields aside. -/
def Twp.Like (x y : Twp) : Prop := ∃ v p q, y = { x with attnEvt := v, attnPend := p, sentAt := q }

section
variable {adr : BitVec 7} {now : Ns} {x y z : Twp}

theorem Twp.started_xfers : (x.started adr).xfers = x.xfers + (if (x.isReg adr || x.isLog adr) && !x.busy then 1 else 0) := by
  show (if ((x.isReg adr || x.isLog adr) && !x.busy) = true then x.xfers + 1 else x.xfers) = _
  split
  · rfl
  · exact (BitVec.add_zero _).symm

/-- The end that `stopped` gives, whatever the attention fields become. -/
theorem Twp.Like.ended (h : (z.stopped now).Like y) (hz : z.xfers = (x.discard.started adr).xfers) : Twp.Ended adr now x y := by
  obtain ⟨v, p, q, rfl⟩ := h
  exact ⟨rfl, rfl, rfl, rfl, hz.trans Twp.started_xfers⟩

/-- The log stream's address is not the registers'. -/
theorem Twp.isReg_of_isLog (h : x.isLog adr = true) : x.isReg adr = false := by
  simp only [Twp.isLog, Bool.and_eq_true, Bool.not_eq_true'] at h
  exact h.1.2

end

section
variable {e : Env} {d : Dev} {adr : BitVec 7} {stop : Bool}

theorem twpEnd_stop (h : d.sup.filled = true) : d.twpEnd true = d.modTwp (Twp.stopped d.dtime) := by
  simp only [Dev.twpEnd, h, Bool.not_true, Bool.false_eq_true, if_false]
  rfl

/-! ### Writes (R334, R335) -/

/-- The last byte of a write that starts no READ of the bridge. -/
theorem twpPut_last {b : Byte} (h : (d.twpByte e b).nvi = d.nvi) : d.twpPut e stop [b] = (d.twpByte e b).twpEnd stop := by
  have hreads : (d.twpByte e b).brReads = d.brReads := by rw [Dev.brReads, h, Dev.brReads]
  simp only [Dev.twpPut]
  rw [hreads, Bool.not_and_self]
  rfl

/-- While the clock is stretched no transaction begins. -/
theorem twpWrite_stretched (h : d.twp.stretch ≠ none) (l : List Byte) : d.twpWrite e adr l stop = d := by
  simp [Dev.twpWrite, Option.isSome_iff_ne_none.mpr h]

theorem twpRead_stretched (h : d.twp.stretch ≠ none) (n : Nat) : d.twpRead e adr n stop = d := by
  simp [Dev.twpRead, Option.isSome_iff_ne_none.mpr h]

section
variable (hfilled : d.sup.filled = true) (hfree : d.twp.stretch = none)
include hfilled hfree

theorem twpWrite_probe : d.twpWrite e adr [] true = d.modTwp fun x =>
    Twp.stopped d.dtime (if x.isLog adr then { x.discard.started adr with logWr := true } else x.discard.started adr) := by
  simp only [Dev.twpWrite, hfilled, hfree, Option.isSome_none, Bool.not_true, Bool.or_self, Bool.false_eq_true, if_false]
  by_cases hreg : d.twp.isReg adr = true
  · have hlog : d.twp.isLog adr = false := by simp [Twp.isLog, hreg]
    rw [if_pos hreg, twpEnd_stop (by exact hfilled)]
    simp only [Dev.modTwp, hlog, Bool.false_eq_true, if_false]
    rfl
  · rw [if_neg hreg]
    by_cases hlog : d.twp.isLog adr = true
    · rw [if_pos hlog, twpEnd_stop (by exact hfilled)]
      simp only [Dev.modTwp, hlog, if_true]
      rfl
    · rw [if_neg hlog, twpEnd_stop (by exact hfilled)]
      simp only [Dev.modTwp, hlog, Bool.false_eq_true, if_false]
      rfl

theorem twpWrite_log (h : d.twp.isLog adr = true) (l : List Byte) :
    d.twpWrite e adr l true = d.modTwp fun x => Twp.stopped d.dtime { x.discard.started adr with logWr := true } := by
  simp only [Dev.twpWrite, hfilled, hfree, Option.isSome_none, Bool.not_true, Bool.or_self, Bool.false_eq_true, if_false,
    Twp.isReg_of_isLog h, h, if_true]
  rw [twpEnd_stop (by exact hfilled)]
  rfl

theorem twpWrite_register (h : d.twp.isReg adr = true) (p : Byte) (l : List Byte) : d.twpWrite e adr (p :: l) stop =
    (d.modTwp fun x => Twp.stages p [] (x.discard.started adr)).twpPut e stop l := by
  simp only [Dev.twpWrite, hfilled, hfree, Option.isSome_none, Bool.not_true, Bool.or_self, Bool.false_eq_true, if_false, h, if_true]
  simp only [Dev.twpStart, Dev.modTwp, Twp.stages, List.length_nil, if_true, BitVec.add_zero]
  rfl

end

/-- The pointer after `l` of a register's bytes. -/
theorem stages_ptr {p : Byte} {l : List Byte} (hp : p.toNat % 8 = 0) (hl : l.length < 8) (x : Twp) : (x.stages p l).ptr.toNat = p.toNat + l.length := by
  have := p.isLt
  simp only [Twp.stages, BitVec.toNat_add, BitVec.toNat_ofNat]
  omega

section
variable {p : Byte} {l : List Byte} (hfilled : d.sup.filled = true) (hp : p.toNat % 8 = 0)
include hfilled hp

/-- A byte that does not fill its register is staged. -/
theorem twpByte_stages (hl : l.length < 7) (b : Byte) :
    (d.modTwp (Twp.stages p l)).twpByte e b = d.modTwp (Twp.stages p (l ++ [b])) := by
  have hptr : (d.modTwp (Twp.stages p l)).twp.ptr.toNat = p.toNat + l.length := stages_ptr hp (by omega) d.twp
  have hofs : (p.toNat + l.length) % 8 = l.length := by omega
  have hnext : (d.twp.stages p l).ptr + 1 = (d.twp.stages p (l ++ [b])).ptr := by
    simp [Twp.stages, BitVec.ofNat_add, BitVec.add_assoc]
  unfold Dev.twpByte
  extract_lets ptr ofs reg move
  have hofs' : ofs = l.length := by simp only [ofs, ptr, hptr, hofs]
  have hreg : reg = p.toNat := by simp only [reg, hofs', ptr, hptr]; omega
  rw [if_neg (by simp [hfilled])]
  by_cases hnil : l = []
  · subst hnil
    rw [if_pos (by exact hofs'), hreg]
    simp only [move, Dev.modTwp, hnext]
    simp [Twp.stages]
  · have hstaged : (d.modTwp (Twp.stages p l)).twp.staging = some (p.toNat, l) := if_neg hnil
    have hlen : ofs ≠ 0 := by rw [hofs']; exact fun h => hnil (List.length_eq_zero_iff.mp h)
    rw [if_neg hlen]
    simp only [hstaged]
    rw [if_neg (by simp [hreg, hofs']), if_pos (by omega), hreg]
    simp only [move, Dev.modTwp, hnext]
    simp [Twp.stages]

/-- Bytes that do not fill their register are staged one after the other. -/
theorem twpPut_stages (rest : List Byte) : ∀ (m : List Byte) {l : List Byte}, l.length + m.length < 8 →
    (d.modTwp (Twp.stages p l)).twpPut e stop (m ++ rest) = (d.modTwp (Twp.stages p (l ++ m))).twpPut e stop rest
  | [], l, _ => by rw [List.nil_append, List.append_nil]
  | b :: m, l, hlen => by
    have hsum : l.length + (m.length + 1) < 8 := hlen
    have hstep := twpByte_stages (e := e) hfilled hp (l := l) (by omega) b
    have hreads (f g : Twp → Twp) : (!(d.modTwp f).brReads && (d.modTwp g).brReads) = false := Bool.not_and_self d.brReads
    rw [List.cons_append, Dev.twpPut, hstep, if_neg (by rw [hreads]; exact Bool.false_ne_true),
      twpPut_stages rest m (by rw [List.length_append, List.length_singleton]; omega), List.append_assoc]
    rfl

end

/-- The byte that fills PAGE of the port writes it, and the pointer runs over to 0. -/
theorem twpByte_page (hfilled : d.sup.filled = true) {l : List Byte} (hl : l.length = 7) (b : Byte) :
    (d.modTwp (Twp.stages 0xF8 l)).twpByte e b =
      ((d.modTwp fun x => { x with ptr := 0, staging := none }).disarm .twp).pageWrite .twp (BitVec.ofNat 64 (leNat (l ++ [b]))) := by
  have hptr : (d.modTwp (Twp.stages 0xF8 l)).twp.ptr.toNat = 0xFF := by
    rw [Dev.modTwp_twp, stages_ptr (by decide) (by omega), hl]
    rfl
  have hstaged : (d.modTwp (Twp.stages 0xF8 l)).twp.staging = some (0xF8, l) :=
    if_neg fun h => by rw [h] at hl; exact absurd hl (by decide)
  have haddr (d : Dev) : (d.twpReg 0xFF).toNat % 256 = 0xF8 := by
    rw [Dev.twpReg, BitVec.toNat_ofNat]
    omega
  unfold Dev.twpByte
  simp only [hptr, hstaged, hl]
  rw [if_neg (by simp [hfilled]), if_neg (by decide), if_neg (by decide), if_neg (by decide),
    Dev.portWrite_page _ _ _ (by decide) (haddr _), if_pos ⟨trivial, hfilled⟩]
  rfl

/-! ### Reads (R336) -/

theorem leBytes_drop (c : Nat) : ∀ {n i : Nat}, i < n → (leBytes n c).drop i = BitVec.ofNat 8 (c / 256 ^ i) :: (leBytes n c).drop (i + 1)
  | n + 1, 0, _ => by simp [leBytes]
  | n + 1, i + 1, h => by
    simp only [leBytes, List.drop_succ_cons]
    rw [leBytes_drop (c / 256) (Nat.lt_of_succ_lt_succ h), Nat.div_div_eq_div_mul, pow_succ']

theorem ofNat_fld_byte (v : W64) (i : Nat) : BitVec.ofNat 8 (fld v (8 * i) 8) = BitVec.ofNat 8 (v.toNat / 256 ^ i) := by
  apply BitVec.eq_of_toNat_eq
  have hpow : 2 ^ (8 * i) = 256 ^ i := pow_mul 2 8 i
  simp [fld, Nat.shiftRight_eq_div_pow, hpow]

theorem ptr_succ_mod {p : Byte} (h : p.toNat % 8 < 7) : (p + 1).toNat % 8 = p.toNat % 8 + 1 := by
  have := p.isLt
  have hone : (1 : Byte).toNat = 1 := rfl
  rw [BitVec.toNat_add, hone]
  omega

/-- One byte of a latch, and then the others. -/
theorem gives_succ (cur : W64) (n : Nat) {x : Twp} (h : x.ptr.toNat % 8 < 7) :
    Twp.gives cur n { x with out := x.out ++ [BitVec.ofNat 8 (fld cur (8 * (x.ptr.toNat % 8)) 8)], ptr := x.ptr + 1 } =
      Twp.gives cur (n + 1) x := by
  simp only [Twp.gives, ptr_succ_mod h]
  rw [leBytes_drop cur.toNat (i := x.ptr.toNat % 8) (by omega), List.take_succ_cons, ofNat_fld_byte cur, List.append_assoc,
    List.singleton_append, BitVec.add_assoc, Nat.add_comm n 1, BitVec.ofNat_add]
  rfl

/-- The bytes of a register up to its byte 3: nothing more is asked for. -/
theorem twpBytes_gives (cur : W64) (next : Option W64) : ∀ (n : Nat) (d : Dev), d.twp.ptr.toNat % 8 + n ≤ 4 →
    d.twpBytes e stop n cur next = (d.modTwp (Twp.gives cur n)).twpEnd stop
  | 0, d, _ => by
    have : d.modTwp (Twp.gives cur 0) = d := by simp [Dev.modTwp, Twp.gives]
    rw [this, Dev.twpBytes]
  | n + 1, d, h => by
    have hptr := ptr_succ_mod (p := d.twp.ptr) (by omega)
    rw [Dev.twpBytes, if_neg (by omega), if_neg (by omega), twpBytes_gives cur next n _ (by rw [Dev.modTwp_twp, hptr]; omega)]
    exact congrArg (fun x => ({ d with twp := x } : Dev).twpEnd stop) (gives_succ cur n (by omega))

end

end Sys2Proof.Machine
end

section
/-! Transactions at the two-wire port (R278, R332 to R339). -/

namespace Sys2Proof.Machine

open Sys2Proof

/-! ### A read of PAGE -/

/-- PAGE of the port's path as it is read. -/
def Dev.twpPage (d : Dev) : W64 := put 0 8 (d.ctx .twp).page.toNat ||| put 8 4 d.sup.mode.code

section
variable {e : Env} {d : Dev} {adr : BitVec 7}

/-- PAGE is at offset 0xF8 of the port's page. -/
theorem twpReg_page : (d.twpReg 0xF8).toNat % 256 = 0xF8 := by
  rw [Dev.twpReg, BitVec.toNat_ofNat]
  omega

theorem twpWaits_page : d.twpWaits 0xF8 = false := by
  rw [Dev.twpWaits, Bool.and_eq_false_iff]
  refine .inr (beq_eq_false_iff_ne.mpr fun h => ?_)
  have hpage := twpReg_page (d := d)
  rw [h] at hpage
  exact absurd hpage (by decide)

theorem twpSample_page : d.twpSample e 0xF8 = (d.twpPage, d.takeTurn .twp) := by
  have hrow : regRow (d.twpReg 0xF8) = some pageRow := if_pos twpReg_page
  have hctx : ((d.takeTurn .twp).ctx .twp).page = (d.ctx .twp).page := by rw [Dev.takeTurn, Dev.ctx_modCtx_same]
  simp only [Dev.twpSample, Dev.regRead, hrow, twpReg_page, if_true, Dev.noReg, Bool.false_and, Bool.false_eq_true, if_false]
  rw [Dev.rdPage, hctx]
  rfl

variable (hfilled : d.sup.filled = true) (hfree : d.twp.stretch = none)
include hfilled hfree

theorem twpRead_page (hreg : d.twp.isReg adr = true) (hptr : d.twp.ptr = 0xF8) {n : Nat} (hn : n ≤ 4) :
    d.twpRead e adr n true = (d.takeTurn .twp).modTwp fun x =>
      Twp.stopped d.dtime (Twp.gives d.twpPage n (x.discard.started adr)) := by
  simp only [Dev.twpRead, hfilled, hfree, Option.isSome_none, Bool.not_true, Bool.or_self, Bool.false_eq_true, if_false, hreg, if_true]
  have hask : (d.modTwp Twp.discard).twp.ptr.toNat = 0xF8 := congrArg BitVec.toNat hptr
  simp only [hask, twpWaits_page, Bool.false_eq_true, if_false, twpSample_page]
  rw [twpBytes_gives _ _ _ _ (by
    show d.twp.ptr.toNat % 8 + n ≤ 4
    rw [hptr]
    simpa using hn), twpEnd_stop (by exact hfilled)]
  rfl

/-! ### The log stream (R278) -/

theorem twpRead_log (hlog : d.twp.isLog adr = true) (hstood : d.recm.stood = none) {n : Nat} {bs : List Byte} {m : RecM}
    (hbytes : (d.modTwp Twp.discard).logBytes ((d.modTwp Twp.discard).pendingOf 0) n =
      (bs, { d.modTwp Twp.discard with recm := m })) :
    d.twpRead e adr n true = { d.modTwp fun x => Twp.stopped d.dtime { x.discard.started adr with out := bs } with recm := m } := by
  have hrecords : (d.modTwp Twp.discard).logRecords = (d.modTwp Twp.discard).pendingOf 0 := by
    simp only [Dev.logRecords, Dev.modTwp_recm, hstood]
  simp only [Dev.twpRead, hfilled, hfree, Option.isSome_none, Bool.not_true, Bool.or_self, Bool.false_eq_true, if_false,
    Twp.isReg_of_isLog hlog, hlog, if_true, hrecords, hbytes]
  rw [twpEnd_stop (by exact hfilled)]
  rfl

end

/-- The records after the log reader has consumed the record `ord` of ring `k`. -/
def RecM.logTaken (k : Fin 12) (ord : Nat) (m : RecM) : RecM :=
  { m with logRead := m.logRead + 1
           rings := upd m.rings k fun r => { r with pending := r.pending.filter fun (s : Stored) => s.ord != ord, stopped := false } }

theorem logConsume_live {d : Dev} (h : d.recm.stood = none) (k : Fin 12) (ord : Nat) :
    d.logConsume k ord = { d with recm := d.recm.logTaken k ord } := by
  unfold Dev.logConsume
  extract_lets d'
  have hstood : d'.recm.stood = none := h
  rw [hstood]
  rfl

section
variable {d : Dev} (herrs : d.memu.errs = []) (hstood : d.recm.stood = none) {k : Fin 12} {z : Stored}
  {l : List (Fin 12 × Stored)} {n : Nat}
include herrs hstood

theorem logRead_clean : d.logRead k z = (wordsBytes z.words, d) := by
  rw [Dev.logRead, hstood]
  exact readStored_clean herrs k z

/-- A record read in part stays. -/
theorem logBytes_part (h : n < z.size) : d.logBytes ((k, z) :: l) n = ((wordsBytes z.words).take n, d) := by
  have hlength : n < (wordsBytes z.words).length := by rwa [wordsBytes_length]
  rw [Dev.logBytes]
  by_cases hn : n = 0
  · rw [if_pos hn, hn, List.take_zero]
  · rw [if_neg hn, logRead_clean herrs hstood]
    exact if_pos hlength

theorem logBytes_whole (h : z.words ≠ []) :
    d.logBytes ((k, z) :: l) z.size = (wordsBytes z.words, { d with recm := d.recm.logTaken k z.ord }) := by
  have hlength : (wordsBytes z.words).length = z.size := wordsBytes_length _
  have hnil (d : Dev) : d.logBytes l 0 = ([], d) := by cases l <;> rfl
  have hn : z.size ≠ 0 := by simpa [Stored.size] using h
  rw [Dev.logBytes, if_neg hn, logRead_clean herrs hstood]
  simp only [hlength, Nat.lt_irrefl, if_false, Nat.sub_self, hnil, List.append_nil]
  rw [logConsume_live hstood]

end

/-! ### Attention (R338) -/

/-- Where no event of R338 is new, the attention fields stay. -/
theorem attend_still {d b : Dev} (hpos : d.pos = b.pos) (hsup : d.sup = b.sup) (hsnap : d.snap = b.snap) (hrecm : d.recm = b.recm)
    (hcfg : d.twp.cfg = b.twp.cfg) (hwanted : d.twp.wanted = b.twp.wanted) : (d.attend b).twp = d.twp := by
  unfold Dev.attend
  extract_lets _ d₀ d₁ d₂ d₃ thr d₄
  have hclosed (P : Prop) [Decidable P] (i : Nat) (x : Dev) (h : ¬P) : (if P then x.attn i else x) = x := if_neg h
  have htwp₀ : d₀.twp = d.twp := by simp only [d₀]; split <;> rfl
  have hd₀ : d₀.pos = b.pos ∧ d₀.sup = b.sup ∧ d₀.snap = b.snap ∧ d₀.recm = b.recm := by
    simp only [d₀]
    split <;> exact ⟨hpos, hsup, hsnap, hrecm⟩
  obtain ⟨hpos₀, hsup₀, hsnap₀, hrecm₀⟩ := hd₀
  have h₁ : d₁ = d₀ := hclosed _ 1 d₀ (by simp [hpos₀])
  have h₂ : d₂ = d₀ := (hclosed _ 2 d₁ (by simp [h₁, hsup₀])).trans h₁
  have h₃ : d₃ = d₀ := (hclosed _ 3 d₂ (by simp [h₂, hsnap₀])).trans h₂
  have hpending : d₀.logPending = b.logPending := by rw [Dev.logPending, Dev.logPending, hrecm₀]
  have hthr : thr = 16 * fld b.twp.cfg 16 16 := by simp only [thr, h₃, htwp₀, hcfg]
  have h₄ : d₄ = d₀ := by
    refine (hclosed _ 4 d₃ fun ⟨hle, hlt⟩ => ?_).trans h₃
    rw [h₃, hpending, hthr] at hle
    exact absurd hlt (Nat.not_lt_of_le hle)
  split
  · exact htwp₀
  · split
    next hnew =>
      rw [h₄, htwp₀, hwanted] at hnew
      simp at hnew
      obtain ⟨⟨-, hzero⟩, hnonzero⟩ := hnew
      exact absurd hzero hnonzero
    next => rw [h₄, htwp₀]

/-- A command that changes the attention request of the port, and none of what asks for it. -/
theorem completes_attention {s : State} (hsettled : s.dev.settled) {c : Instr} {body : Env → Dev → Dev} {x : Twp}
    (hexec : exec c s = runAt (stampOf c) body s) (hbody : s.after (stampOf c) body = { s.dev.at (stampOf c) with twp := x })
    (hcfg : x.cfg = s.dev.twp.cfg) (hwanted : x.wanted = s.dev.twp.wanted) :
    Completes c s fun s' => s'.dev.twp = x ∧ s.touches [.twp] s' := by
  have hquiet := completes_of_changesOnly hsettled hexec hbody (.of [.twp] (twp := .inl (by simp))) fun _ _ h => h
  refine (Completes.and (completes_of_run hexec fun hrests => ⟨_, runAt_eq hrests _, ?_⟩) hquiet)
  have hraised : s.dev.flt.raised = [] := hsettled.1
  have hwrites : s.dev.writes = [] := hsettled.2
  rw [hbody, Dev.settle_quiet (by exact hraised)]
  have htwp := attend_still (d := { s.dev.at (stampOf c) with twp := x }) (b := s.dev) rfl rfl rfl rfl hcfg hwanted
  have hnear := near_attend { s.dev.at (stampOf c) with twp := x } s.dev
  generalize Dev.attend _ s.dev = d at htwp hnear
  have hnone : d.writes = [] := hnear.writes.trans hwrites
  simp only [commit, hnone, List.foldl_nil]
  exact htwp

end Sys2Proof.Machine
end

section
/-! What each transaction at the two-wire port leaves (R332 to R339). -/

namespace Sys2Proof.Machine

open Sys2Proof

/-- The byte of PAGE in the bytes of a register. -/
theorem pageOf_bytes (l : List Byte) : (BitVec.ofNat 64 (leNat l)).setWidth 8 = l.headD 0 := by
  cases l with
  | nil => rfl
  | cons b l =>
    apply BitVec.eq_of_toNat_eq
    have := b.isLt
    simp only [leNat, List.headD_cons, BitVec.toNat_setWidth, BitVec.toNat_ofNat]
    omega

section
variable {s : State} {t : Ns} {a : BitVec 7}

/-- A command that changes the registers of the port alone. -/
theorem completes_twp {c : Instr} {body : Env → Dev → Dev} (f : Twp → Twp) (hsettled : s.dev.settled)
    (hexec : exec c s = runAt (stampOf c) body s) (hbody : s.after (stampOf c) body = (s.dev.at (stampOf c)).modTwp f) :
    Completes c s fun s' => (f s.dev.twp).Like s'.dev.twp ∧ s.touches [.twp] s' :=
  completes_of_changesOnly hsettled hexec hbody (.of _ (twp := .inl (by simp))) fun _ h htouches => ⟨h.twp, htouches⟩

theorem completes_timeout (hclean : s.clean) (hfilled : s.dev.sup.filled = true) : Completes (.twpTimeout t) s fun s' => s'.dev.twp.timeout = true ∧ s'.dev.twp.timeouts = s.dev.twp.timeouts + 1 ∧
    s'.dev.twp.busy = false ∧ s'.dev.twp.staging = none ∧ s'.dev.twp.partial_ = (s.dev.twp.partial_ || s.dev.twp.staging.isSome) ∧
    s'.dev.twp.ptr = s.dev.twp.ptr ∧ s.touches [.twp] s' := by
  refine (completes_twp (c := .twpTimeout t) _ hclean.1.2 rfl (if_neg (by simp [hfilled]))).imp fun s' hs' => ?_
  obtain ⟨⟨v, p, q, htwp⟩, htouches⟩ := hs'
  rw [htwp]
  exact ⟨rfl, rfl, rfl, rfl, rfl, rfl, htouches⟩

section
variable (hclean : s.clean) (hfilled : s.dev.sup.filled = true) (hfree : s.dev.twp.stretch = none)
include hclean hfilled hfree

theorem completes_probe : Completes (.twpProbe t a) s fun s' => Twp.Ended a (s.now t) s.dev.twp s'.dev.twp ∧
    s'.dev.twp.ack = (s.dev.twp.isReg a || s.dev.twp.isLog a) ∧ s'.dev.twp.ptr = s.dev.twp.ptr ∧
    s'.dev.twp.addr = s.dev.twp.addrNew.getD s.dev.twp.addr ∧ s.touches [.twp] s' := by
  refine (completes_twp (c := .twpProbe t a) _ hclean.1.2 rfl (twpWrite_probe (e := s.env) (d := s.dev.at t) hfilled hfree)).imp
    fun s' hs' => ?_
  obtain ⟨hlike, htouches⟩ := hs'
  refine ⟨hlike.ended (by split <;> rfl), ?_⟩
  obtain ⟨v, p, q, htwp⟩ := hlike
  rw [htwp]
  split
  · exact ⟨rfl, rfl, rfl, htouches⟩
  · exact ⟨rfl, rfl, rfl, htouches⟩

theorem completes_logWrite (l : List Byte) (hlog : s.dev.twp.isLog a = true) : Completes (.twpLogWrite t a l) s fun s' =>
    Twp.Ended a (s.now t) s.dev.twp s'.dev.twp ∧ s'.dev.twp.logWr = true ∧ s'.dev.twp.ptr = s.dev.twp.ptr ∧ s.touches [.twp] s' := by
  refine (completes_twp (c := .twpLogWrite t a l) _ hclean.1.2 rfl (twpWrite_log (d := s.dev.at t) hfilled hfree hlog l)).imp
    fun s' hs' => ?_
  obtain ⟨hlike, htouches⟩ := hs'
  refine ⟨hlike.ended rfl, ?_⟩
  obtain ⟨v, p, q, htwp⟩ := hlike
  rw [htwp]
  exact ⟨rfl, rfl, htouches⟩

theorem completes_writePage {l : List Byte} (hreg : s.dev.twp.isReg a = true) (hl : l.length = 8) :
    Completes (.twpRegisterWrite t a (0xF8 :: l) true) s fun s' =>
      Twp.Ended a (s.now t) s.dev.twp s'.dev.twp ∧ s'.dev.twp.ptr = 0 ∧
      s'.dev.twp.partial_ = (s.dev.twp.partial_ || s.dev.twp.staging.isSome) ∧
      s'.dev.ctx .twp = { s.dev.ctx .twp with page := l.headD 0, armedAt := none, served := s.dev.nextTurn } ∧ s.touches [.twp, .paths] s' := by
  obtain ⟨m, b, rfl⟩ : ∃ m b, l = m ++ [b] := ⟨_, _, (List.dropLast_concat_getLast (l := l) fun h => by simp [h] at hl).symm⟩
  have hm : m.length = 7 := by simpa using hl
  have hbody : (s.dev.at t).twpWrite s.env a (0xF8 :: (m ++ [b])) true =
      (((s.dev.at t).modTwp fun x => Twp.stopped (s.now t) { x.discard.started a with ptr := 0 }).disarm .twp).pageWrite .twp
        (BitVec.ofNat 64 (leNat (m ++ [b]))) := by
    rw [twpWrite_register (d := s.dev.at t) hfilled hfree hreg]
    refine (twpPut_stages (e := s.env) (d := (s.dev.at t).modTwp fun x => x.discard.started a) (stop := true) hfilled (p := 0xF8)
      (by decide) [b] m (l := []) (by simp [hm])).trans ?_
    have hbyte := twpByte_page (e := s.env) (d := (s.dev.at t).modTwp fun x => x.discard.started a) hfilled hm b
    rw [List.nil_append, twpPut_last (by rw [hbyte]; rfl), hbyte, twpEnd_stop (by exact hfilled)]
    rfl
  refine completes_of_changesOnly (c := .twpRegisterWrite t a (0xF8 :: (m ++ [b])) true) hclean.1.2 rfl hbody
    (.of [.twp, .paths] (twp := .inl (by simp)) (paths := .inl (by simp))) fun s' h htouches => ?_
  have hlike : (Twp.stopped (s.now t) { s.dev.twp.discard.started a with ptr := 0 }).Like s'.dev.twp := h.twp
  have hctx := ctx_paged (s := s) (p := .twp) h.paths
  refine ⟨hlike.ended rfl, ?_⟩
  obtain ⟨v, q, u, htwp⟩ := hlike
  rw [htwp, hctx.1, pageOf_bytes]
  exact ⟨rfl, Bool.or_false _, rfl, htouches⟩

theorem completes_writePart {p : Byte} {l : List Byte} (hreg : s.dev.twp.isReg a = true) (hp : p.toNat % 8 = 0) (hone : 1 ≤ l.length) (hl : l.length < 8) :
    Completes (.twpRegisterWrite t a (p :: l) true) s fun s' => Twp.Ended a (s.now t) s.dev.twp s'.dev.twp ∧
      s'.dev.twp.ptr.toNat = p.toNat + l.length ∧ s'.dev.twp.partial_ = true ∧ s.touches [.twp] s' := by
  have hnil : l ≠ [] := fun h => by rw [h] at hone; exact absurd hone (by decide)
  have hbody : (s.dev.at t).twpWrite s.env a (p :: l) true = (s.dev.at t).modTwp fun x =>
      Twp.stopped (s.now t) (Twp.stages p l (x.discard.started a)) := by
    rw [twpWrite_register (d := s.dev.at t) hfilled hfree hreg]
    have hput := twpPut_stages (e := s.env) (d := (s.dev.at t).modTwp fun x => x.discard.started a) (stop := true) hfilled hp [] l (l := [])
      (by simpa using hl)
    rw [List.append_nil, List.nil_append] at hput
    exact hput.trans (twpEnd_stop (by exact hfilled))
  refine (completes_twp (c := .twpRegisterWrite t a (p :: l) true) _ hclean.1.2 rfl hbody).imp
    fun s' hs' => ?_
  obtain ⟨hlike, htouches⟩ := hs'
  refine ⟨hlike.ended rfl, ?_⟩
  obtain ⟨v, q, u, htwp⟩ := hlike
  rw [htwp]
  exact ⟨stages_ptr hp hl (s.dev.twp.discard.started a), by simp [Twp.stopped, Twp.discard, Twp.stages, hnil], htouches⟩

theorem completes_readPage {n : Nat} (hreg : s.dev.twp.isReg a = true) (hptr : s.dev.twp.ptr = 0xF8) (hn : n ≤ 4) :
    Completes (.twpRegisterRead t a n true) s fun s' => Twp.Ended a (s.now t) s.dev.twp s'.dev.twp ∧
      s'.dev.twp.out = (leBytes 8 s.dev.twpPage.toNat).take n ∧ s'.dev.twp.ptr.toNat = 0xF8 + n ∧ s.touches [.twp, .paths] s' := by
  refine completes_of_changesOnly (c := .twpRegisterRead t a n true) hclean.1.2 rfl (twpRead_page (d := s.dev.at t) hfilled hfree hreg hptr hn)
    (.of [.twp, .paths] (twp := .inl (by simp)) (paths := .inl (by simp))) fun s' h htouches => ?_
  have hlike : (Twp.stopped (s.now t) (Twp.gives s.dev.twpPage n (s.dev.twp.discard.started a))).Like s'.dev.twp := h.twp
  refine ⟨hlike.ended rfl, ?_⟩
  obtain ⟨v, q, u, htwp⟩ := hlike
  have hstart : (s.dev.twp.discard.started a).ptr = 0xF8 := hptr
  rw [htwp]
  refine ⟨?_, ?_, htouches⟩
  · show [] ++ ((leBytes 8 s.dev.twpPage.toNat).drop ((s.dev.twp.discard.started a).ptr.toNat % 8)).take n = _
    rw [hstart]
    rfl
  · show ((s.dev.twp.discard.started a).ptr + BitVec.ofNat 8 n).toNat = _
    rw [hstart, BitVec.toNat_add, BitVec.toNat_ofNat, Nat.mod_eq_of_lt (a := n) (by omega), Nat.mod_eq_of_lt (by simp; omega)]
    rfl

theorem completes_logPart {n : Nat} (hlog : s.dev.twp.isLog a = true)
    (hstood : s.dev.recm.stood = none) {bs : List Byte}
    (hbytes : ((s.dev.at t).modTwp Twp.discard).logBytes (s.dev.pendingOf 0) n = (bs, (s.dev.at t).modTwp Twp.discard)) :
    Completes (.twpLogRead t a n) s fun s' =>
      Twp.Ended a (s.now t) s.dev.twp s'.dev.twp ∧ s'.dev.twp.out = bs ∧ s'.dev.twp.ack = true ∧ s.touches [.twp] s' := by
  refine (completes_twp (c := .twpLogRead t a n) (fun x => Twp.stopped (s.now t) { x.discard.started a with out := bs }) hclean.1.2 rfl
    (twpRead_log (e := s.env) (d := s.dev.at t) hfilled hfree hlog hstood (m := s.dev.recm) hbytes)).imp fun s' hs' => ?_
  obtain ⟨hlike, htouches⟩ := hs'
  refine ⟨hlike.ended rfl, ?_⟩
  obtain ⟨v, p, q, htwp⟩ := hlike
  rw [htwp]
  exact ⟨rfl, by show (s.dev.twp.isReg a || s.dev.twp.isLog a) = true; rw [hlog, Bool.or_true], htouches⟩

theorem completes_logWhole {k : Fin 12} {z : Stored} {l : List (Fin 12 × Stored)} (hlog : s.dev.twp.isLog a = true)
    (hstood : s.dev.recm.stood = none) (hpending : s.dev.pendingOf 0 = (k, z) :: l) (hwords : z.words ≠ []) :
    Completes (.twpLogRead t a z.size) s fun s' =>
      Twp.Ended a (s.now t) s.dev.twp s'.dev.twp ∧ s'.dev.twp.out = wordsBytes z.words ∧ s.touches [.twp, .recs] s' ∧
      s'.dev.recm = s.dev.recm.logTaken k z.ord := by
  have hbytes := logBytes_whole (d := (s.dev.at t).modTwp Twp.discard) hclean.2.1 hstood (k := k) (l := l) hwords
  rw [← hpending] at hbytes
  refine completes_of_changesOnly (c := .twpLogRead t a z.size) hclean.1.2 rfl
    (twpRead_log (e := s.env) (d := s.dev.at t) hfilled hfree hlog hstood hbytes)
    (.of [.twp, .recs] (twp := .inl (by simp)) (recs := .inl (by simp))) fun s' h htouches => ?_
  have hlike : (Twp.stopped (s.now t) { s.dev.twp.discard.started a with out := wordsBytes z.words }).Like s'.dev.twp := h.twp
  refine ⟨hlike.ended rfl, ?_⟩
  obtain ⟨v, q, u, htwp⟩ := hlike
  rw [htwp]
  exact ⟨rfl, htouches, h.recm⟩

end

/-! ### Attention (R338) -/

section
variable {d : Dev}

theorem attention_still (h : ¬(d.twp.busy = false ∧ d.twp.open_ = false ∧ d.twp.idleAt + 100000 ≤ d.dtime) ∨ d.twp.attnPend = false) (b : Bool) :
    d.attention b = d := by
  refine if_pos ?_
  obtain h | h := h
  · rw [Bool.not_eq_true', Bool.and_eq_false_iff]
    refine .inl (Bool.eq_false_iff.mpr fun hidle => h ?_)
    simp only [Dev.twpIdle, Bool.and_eq_true, Bool.not_eq_true', decide_eq_true_eq] at hidle
    obtain ⟨⟨⟨-, hbusy⟩, hopen⟩, hlate⟩ := hidle
    exact ⟨hbusy, hopen, hlate⟩
  · simp [h]

variable (hfilled : d.sup.filled = true) (hidle : d.twp.busy = false ∧ d.twp.open_ = false ∧ d.twp.idleAt + 100000 ≤ d.dtime)
  (hpend : d.twp.attnPend = true)
include hfilled hidle hpend

theorem attention_sent : d.attention false = d.modTwp fun x => { x with attns := x.attns + 1, sentAt := some d.dtime, idleAt := d.dtime } := by
  obtain ⟨hbusy, hopen, hlate⟩ := hidle
  simp [Dev.attention, Dev.twpIdle, hfilled, hbusy, hopen, hlate, hpend]

theorem attention_withdrawn : d.attention true = d.modTwp fun x => { x with idleAt := d.dtime } := by
  obtain ⟨hbusy, hopen, hlate⟩ := hidle
  simp [Dev.attention, Dev.twpIdle, hfilled, hbusy, hopen, hlate, hpend]

end

theorem attentionFirst_new {d : Dev} (h : d.twp.sentAt = none) (b : Bool) : d.attentionFirst b = d.attention b := by
  simp [Dev.attentionFirst, h]

theorem attentionAgain_due {d : Dev} {u : Ns} (h : d.twp.sentAt = some u) (hrep : fld d.twp.cfg 8 8 ≠ 0) (hdue : u + 1000000 * fld d.twp.cfg 8 8 ≤ d.dtime)
    (b : Bool) : d.attentionAgain b = d.attention b := by
  simp only [Dev.attentionAgain, h]
  exact if_pos ⟨hrep, hdue⟩

theorem attentionAgain_never {d : Dev} (h : fld d.twp.cfg 8 8 = 0) (b : Bool) : d.attentionAgain b = d := by
  unfold Dev.attentionAgain
  split
  · exact if_neg fun ⟨hrep, _⟩ => hrep h
  · rfl

theorem attentionFirst_still {d : Dev} {b : Bool} (h : d.attention b = d) : d.attentionFirst b = d := by
  rw [Dev.attentionFirst, h, ite_self]

theorem attentionAgain_still {d : Dev} {b : Bool} (h : d.attention b = d) : d.attentionAgain b = d := by
  unfold Dev.attentionAgain
  split
  · rw [h, ite_self]
  · rfl

end

/-- Settles O58: each transaction changes the registers of the port as its steps do; a whole PAGE, a log record read to its
end and a read take more along. -/
theorem twoWirePort : Obligations.TwoWirePort := by
  unfold Obligations.TwoWirePort
  refine ⟨fun s t a l n hsettled hstretch i hi => ?_, fun s t a hclean hfilled hfree => ?_⟩
  · have hwrite (l : List Byte) := twpWrite_stretched (e := s.env) (adr := a) (stop := true) (d := s.dev.at t) hstretch l
    have hread := twpRead_stretched (e := s.env) (adr := a) (stop := true) (d := s.dev.at t) hstretch n
    simp only [List.mem_cons, List.not_mem_nil, or_false] at hi
    obtain rfl | rfl | rfl | rfl | rfl := hi
    · exact completes_untouched (c := .twpProbe t a) hsettled rfl (hwrite [])
    · exact completes_untouched (c := .twpRegisterWrite t a l true) hsettled rfl (hwrite l)
    · exact completes_untouched (c := .twpRegisterRead t a n true) hsettled rfl hread
    · exact completes_untouched (c := .twpLogRead t a n) hsettled rfl hread
    · exact completes_untouched (c := .twpLogWrite t a l) hsettled rfl (hwrite l)
  intro x now reg log ended
  refine ⟨completes_probe hclean hfilled hfree, fun l hreg hl => completes_writePage hclean hfilled hfree hreg hl,
    fun p l hreg hp hone hl => completes_writePart hclean hfilled hfree hreg hp hone hl,
    fun n hreg hptr hn => completes_readPage hclean hfilled hfree hreg hptr hn, ?none, ?part, ?whole,
    fun l hlog => completes_logWrite hclean hfilled hfree l hlog, completes_timeout hclean hfilled, ?attention⟩
  case none =>
    intro hlog hstood n hnone
    exact completes_logPart hclean hfilled hfree hlog hstood (by rw [hnone]; rfl)
  case part =>
    intro hlog hstood k z l n hpending hn
    refine (completes_logPart hclean hfilled hfree hlog hstood (bs := (wordsBytes z.words).take n) ?_).imp
      fun s' hs' => ?_
    · rw [hpending]
      exact logBytes_part (d := (s.dev.at t).modTwp Twp.discard) hclean.2.1 hstood hn
    · obtain ⟨hended, hout, -, htouches⟩ := hs'
      exact ⟨hended, hout, htouches⟩
  case whole =>
    intro hlog hstood k z l hpending hwords
    refine (completes_logWhole hclean hfilled hfree hlog hstood hpending hwords).imp fun s' hs' => ?_
    obtain ⟨hended, hout, htouches, hrecm⟩ := hs'
    rw [hrecm]
    refine ⟨hended, hout, htouches, rfl, ?_, fun j hj => upd_other _ _ _ _ hj⟩
    exact congrArg Ring.pending (upd_same ..)
  case attention =>
    intro idle rep
    have hstill (b : Bool) (h : ¬idle ∨ x.attnPend = false) := attention_still (d := s.dev.at t) h b
    refine ⟨fun hidle hpend hsent => ?_, fun hidle hpend hsent => ?_, fun h b => ⟨?_, ?_⟩, fun u hidle hpend hsent hrep hdue => ⟨?_, ?_⟩,
      fun hrep b => ?_⟩
    · exact completes_attention (c := .attentionRequest t false) hclean.1.2 rfl
        ((attentionFirst_new (d := s.dev.at t) hsent false).trans (attention_sent (d := s.dev.at t) hfilled hidle hpend)) rfl rfl
    · exact completes_attention (c := .attentionRequest t true) hclean.1.2 rfl
        ((attentionFirst_new (d := s.dev.at t) hsent true).trans (attention_withdrawn (d := s.dev.at t) hfilled hidle hpend)) rfl rfl
    · exact completes_untouched (c := .attentionRequest t b) hclean.1.2 rfl (attentionFirst_still (hstill b h))
    · exact completes_untouched (c := .attnRepeat ⟨t, b⟩) hclean.1.2 rfl (attentionAgain_still (hstill b h))
    · exact completes_attention (c := .attnRepeat ⟨t, false⟩) hclean.1.2 rfl
        ((attentionAgain_due (d := s.dev.at t) hsent hrep hdue false).trans (attention_sent (d := s.dev.at t) hfilled hidle hpend)) rfl rfl
    · exact completes_attention (c := .attnRepeat ⟨t, true⟩) hclean.1.2 rfl
        ((attentionAgain_due (d := s.dev.at t) hsent hrep hdue true).trans (attention_withdrawn (d := s.dev.at t) hfilled hidle hpend)) rfl rfl
    · exact completes_untouched (c := .attnRepeat ⟨t, b⟩) hclean.1.2 rfl (attentionAgain_never (d := s.dev.at t) hrep b)

end Sys2Proof.Machine
end

section
/-! The flash bridge: the start of an operation, the buffer, and the ends (R361 to R364). -/

namespace Sys2Proof.Machine

open Sys2Proof

/-! ### The bridge's own state -/

/-- The bridge once an operation has started at `now`. -/
def Nvi.starts (op len addr : Nat) (now : Ns) (n : Nvi) : Nvi :=
  { n with brOp := op, brLen := len, brAddr := addr, brBusy := true, brAt := now, brErr := 0, brProbed := true, mode := 0, div := 0
           sent := (if n.brProbed then [] else probeReset) ++ brCmds op len addr (n.buf.toList.flatMap wordBytes)
           flashBusy := decide (2 ≤ op) && decide (op ≤ 4) }

/-- The bridge once an operation has ended. -/
def Nvi.ends (err : Nat) (n : Nvi) : Nvi := { n with brBusy := false, brDone := true, brErr := err, flashBusy := false }

/-- The bridge is open to a path (R361), as claims say it. -/
def Dev.opensTo (p : Path) (d : Dev) : Prop :=
  (d.sup.mode = .service ∧ d.pos.sync = .stopped ∧ bit d.sup.svc 0 = false) ∧ (p = .twp → d.nvi.twpEn = true)

section
variable {d : Dev} {p : Path} {op len addr : Nat}

theorem brOpen_of_opensTo (h : d.opensTo p) : d.brOpen = true := by
  obtain ⟨⟨hmode, hsync, hwheel⟩, -⟩ := h
  simp [Dev.brOpen, hmode, hsync, hwheel]

theorem brMay_of_opensTo (h : d.opensTo p) : d.brMay p = true := by
  rw [Dev.brMay, brOpen_of_opensTo h, Bool.true_and, Bool.or_eq_true, bne_iff_ne]
  by_cases hp : p = .twp
  · exact .inr (h.2 hp)
  · exact .inl hp

theorem brMay_elsewhere (hservice : d.sup.mode ≠ .service) (hsafe : d.sup.mode ≠ .safe) : d.brMay p = false := by
  simp [Dev.brMay, Dev.brOpen, hservice, hsafe]

theorem bridge_starts (hmay : d.brMay p = true) (hidle : d.nvi.brBusy = false) (hop : 1 ≤ op ∧ op ≤ 5) (hrange : brRange op len addr = true) :
    d.bridge p op len addr = d.modNvi (Nvi.starts op len addr d.dtime) := by
  unfold Dev.bridge
  rw [if_neg (by simp [hmay]), if_neg (by simp [hidle]), if_neg (by omega), if_neg (by simp [hrange])]
  rfl

theorem bridge_range (hmay : d.brMay p = true) (hidle : d.nvi.brBusy = false) (hop : 1 ≤ op ∧ op ≤ 5) (hrange : brRange op len addr = false) :
    d.bridge p op len addr = d.brFail 2 := by
  unfold Dev.bridge
  rw [if_neg (by simp [hmay]), if_neg (by simp [hidle]), if_neg (by omega), if_pos (by simp [hrange])]

theorem bridge_busy (hmay : d.brMay p = true) (hbusy : d.nvi.brBusy = true) : d.bridge p op len addr = d.brFail 3 := by
  unfold Dev.bridge
  rw [if_neg (by simp [hmay]), if_pos hbusy]

theorem bridge_denied (hmay : d.brMay p = false) : d.bridge p op len addr = d.brFail 1 := if_pos (by simp [hmay])

theorem brLimit_eq (op : Nat) : brLimit op = if op = 2 then 5000000 else if op = 3 then 400000000 else 2000000000 := by
  unfold brLimit
  split <;> simp_all

end

/-! ### The buffer -/

theorem leNat_byte : ∀ (l : List Byte) (j : Nat), leNat l / 256 ^ j % 256 = ((l[j]?).getD 0).toNat
  | [], j => by simp [leNat]
  | b :: l, 0 => by
    have := b.isLt
    simp only [leNat, pow_zero, Nat.div_one, List.getElem?_cons_zero, Option.getD_some]
    omega
  | b :: l, j + 1 => by
    have hdiv : leNat (b :: l) / 256 = leNat l := by
      have := b.isLt
      simp only [leNat]
      omega
    rw [pow_succ', ← Nat.div_div_eq_div_mul, hdiv, leNat_byte l j, List.getElem?_cons_succ]

theorem leNat_lt : ∀ l : List Byte, leNat l < 256 ^ l.length
  | [] => Nat.one_pos
  | b :: l => by
    have := b.isLt
    have := leNat_lt l
    rw [List.length_cons, pow_succ]
    simp only [leNat]
    omega

/-- Byte `j` of the word that eight bytes spell. -/
theorem fld_ofNat_leNat {l : List Byte} (hl : l.length ≤ 8) (j : Nat) :
    fld (BitVec.ofNat 64 (leNat l)) (8 * j) 8 = ((l[j]?).getD 0).toNat := by
  have hlt : leNat l < 2 ^ 64 := (leNat_lt l).trans_le (Nat.pow_le_pow_right (n := 256) (by decide) hl)
  have hpow : 2 ^ (8 * j) = 256 ^ j := pow_mul 2 8 j
  rw [fld, BitVec.toNat_ofNat, Nat.mod_eq_of_lt hlt, Nat.shiftRight_eq_div_pow, hpow]
  exact leNat_byte l j

/-- A byte read from the flash stands in its place in the buffer. -/
theorem bufPut_byte (buf : Vector W64 32) {l : List Byte} {i : Nat} (hi : i < l.length) (hl : l.length ≤ 256) :
    fld (bufPut buf l)[Fin.ofNat 32 (i / 8)] (8 * (i % 8)) 8 = ((l[i]?).getD 0).toNat := by
  have hword : (Fin.ofNat 32 (i / 8)).val = i / 8 := Nat.mod_eq_of_lt (by omega)
  unfold bufPut
  extract_lets old new
  rw [Fin.getElem_fin, Vector.getElem_ofFn, fld_ofNat_leNat (by rw [List.length_take]; exact Nat.min_le_left ..)]
  congr 2
  rw [List.getElem?_take_of_lt (Nat.mod_lt _ (by decide)), List.getElem?_drop]
  show new[8 * (Fin.ofNat 32 (i / 8)).val + i % 8]? = _
  rw [hword, Nat.div_add_mod]
  exact List.getElem?_append_left hi

/-! ### The end of an operation -/

theorem modNvi_modNvi (f g : Nvi → Nvi) (d : Dev) : (d.modNvi f).modNvi g = d.modNvi fun n => g (f n) := rfl

theorem brEnd_eq (err : Nat) (d : Dev) : d.brEnd err = d.modNvi (Nvi.ends err) := rfl

section
variable {check : FlashSlot → LoadErr × W64} {d : Dev} (hbusy : d.nvi.brBusy = true)
include hbusy

theorem bridgeDone_read (hop : d.nvi.brOp = 1) (l : List Byte) :
    d.bridgeDone check (.bytes l) = d.modNvi fun n => Nvi.ends 0 { n with buf := bufPut n.buf (l.take n.brLen) } := by
  unfold Dev.bridgeDone
  simp only [hbusy, hop, Bool.not_true, Bool.false_eq_true, if_false, brEnd_eq, modNvi_modNvi]

theorem bridgeDone_verify (hop : d.nvi.brOp = 5) (f : FlashSlot) :
    d.bridgeDone check (.slot f) = d.modNvi fun n => Nvi.ends (if (check f).1.code = 0 then 0 else 5)
      { n with vCode := (check f).1.code, vSec := (check f).1.section_, vfp := (check f).2 } := by
  unfold Dev.bridgeDone
  simp only [hbusy, hop, Bool.not_true, Bool.false_eq_true, if_false, brEnd_eq, modNvi_modNvi]

theorem bridgeDone_write (hlo : 2 ≤ d.nvi.brOp) (hhi : d.nvi.brOp ≤ 4) :
    d.bridgeDone check .none = if d.nvi.flashBusy = true then d else d.modNvi (Nvi.ends 0) := by
  obtain hop | hop | hop : d.nvi.brOp = 2 ∨ d.nvi.brOp = 3 ∨ d.nvi.brOp = 4 := by omega
  all_goals
    unfold Dev.bridgeDone
    simp only [hbusy, hop, Bool.not_true, Bool.false_eq_true, if_false, brEnd_eq]

end

/-- No transaction is held, so that none goes on. -/
theorem twpResume_none {e : Env} {d : Dev} (h : d.twp.stretch = none) : d.twpResume e = d := by
  unfold Dev.twpResume
  simp only [h, ite_self]

/-! ### What VERIFY finds (R362) -/

section
variable {e : Env} {d : Dev} (h : d.nvi.phase = .failed)
include h

theorem loading_failed : d.loading = false := by rw [Dev.loading, h]

/-- A loader that has failed takes no further step. -/
theorem sectionIn_failed (x : FlashSection) : (d.sectionIn e x).sigVerified e = d := by
  have hsection : d.sectionIn e x = d := if_pos (by simp [loading_failed h])
  rw [hsection]
  exact if_pos (.inl (by rw [h]; decide))

theorem finalise_failed : d.finalise e = d := if_pos (by simp [loading_failed h])

theorem delayOver_failed : d.delayOver e = d := if_pos (by simp [loading_failed h])

theorem delays_failed (l : List Nat) : (l.foldl (init := d) fun d _ => ({ d with dtime := max d.dtime d.nvi.dueAt }).delayOver e).nvi = d.nvi := by
  induction l generalizing d with
  | nil => rfl
  | cons _ l ih =>
    rw [List.foldl_cons, delayOver_failed (d := { d with dtime := max d.dtime d.nvi.dueAt }) h]
    exact ih h

end

theorem trialStep_failed {f : Env → Dev → Dev} {x : Env × Dev} (h : (f x.1 x.2).nvi.phase = .failed) :
    (trialStep f x).2.nvi = (f x.1 x.2).nvi := delays_failed (d := { f x.1 x.2 with writes := [] }) h _

/-- Once the loader has failed, no section changes what it found. -/
theorem trials_failed (l : List FlashSection) : ∀ x : Env × Dev, x.2.nvi.phase = .failed →
    (l.foldl (init := x) fun x s => trialStep (fun e d => (d.sectionIn e s).sigVerified e) x).2.nvi = x.2.nvi := by
  induction l with
  | nil => exact fun _ _ => rfl
  | cons s l ih =>
    intro x h
    have hstep : (trialStep (fun e d => (d.sectionIn e s).sigVerified e) x).2.nvi = x.2.nvi := by
      have hsame := sectionIn_failed (e := x.1) h s
      exact (trialStep_failed (by rw [hsame]; exact h)).trans (by rw [hsame])
    rw [List.foldl_cons, ih _ (by rw [hstep]; exact h), hstep]

/-- A bad boot header is what VERIFY finds first. -/
theorem verifySlot_boot (e : Env) (d : Dev) {f : FlashSlot} (h : (bootCheck f.boot).code ≠ 0) : (verifySlot e d f).1 = bootCheck f.boot := by
  unfold verifySlot
  extract_lets blank x₁ x₂ x₃
  have hread : blank.headerRead { e with mems := {} } f.boot f.header = (blank.modNvi (Nvi.failed (bootCheck f.boot))).bothFail { e with mems := {} } := by
    refine Eq.trans ?_ (loadFail_both (d := blank) rfl rfl)
    show (if !blank.loading then blank else if (bootCheck f.boot).code ≠ 0 then _ else _) = _
    rw [if_neg (show ¬(!blank.loading) = true from Bool.eq_false_iff.mp rfl)]
    exact if_pos h
  obtain ⟨-, hnvi, -⟩ := bothFail_safe (e := { e with mems := {} }) (d := blank.modNvi (Nvi.failed (bootCheck f.boot))) rfl rfl
  have h₁ : x₁.2.nvi = blank.nvi.failed (bootCheck f.boot) := by
    have hnvi' : (blank.headerRead { e with mems := {} } f.boot f.header).nvi = blank.nvi.failed (bootCheck f.boot) := by rw [hread]; exact hnvi
    exact (trialStep_failed (x := ({ e with mems := {} }, blank)) (by rw [hnvi']; rfl)).trans hnvi'
  have h₂ : x₂.2.nvi = blank.nvi.failed (bootCheck f.boot) := (trials_failed f.sections x₁ (by rw [h₁]; rfl)).trans h₁
  have hfinal := finalise_failed (e := x₂.1) (d := x₂.2) (by rw [h₂]; rfl)
  have h₃ : x₃.2.nvi = x₂.2.nvi := (trialStep_failed (by rw [hfinal, h₂]; rfl)).trans (by rw [hfinal])
  show x₃.2.nvi.errB = _
  rw [h₃, h₂]
  rfl

end Sys2Proof.Machine
end

section
/-! The obligation on the flash bridge (R337, R343, R361 to R363). -/

namespace Sys2Proof.Machine

open Sys2Proof

/-- Where the bridge stays open TWP_EN stays. -/
theorem attend_nvi {d b : Dev} (h : d.brOpen = true) : (d.attend b).nvi = d.nvi := by
  unfold Dev.attend
  extract_lets _ d₀ d₁ d₂ d₃ thr d₄
  have hattn (P : Prop) [Decidable P] (i : Nat) (x : Dev) : (if P then x.attn i else x).nvi = x.nvi := by split <;> rfl
  have h₀ : d₀ = d := if_pos h
  have h₄ : d₄.nvi = d.nvi := by
    rw [hattn, hattn, hattn, hattn, h₀]
  split
  · rw [h₀]
  · split
    · exact h₄
    · exact h₄

section
variable {s : State} {t : Ns} {p : Path}

/-- A command of an open bridge that leaves it open. -/
theorem completes_open (hsettled : s.dev.settled) {c : Instr} {body : Env → Dev → Dev} {d : Dev} (hexec : exec c s = runAt (stampOf c) body s)
    (hbody : s.after (stampOf c) body = d) (honly : (s.dev.at (stampOf c)).ChangesOnly [.nvi, .paths] d) (hopen : d.brOpen = true) :
    Completes c s fun s' => s'.dev.nvi = d.nvi ∧ s'.dev.paths = d.paths ∧ s.touches [.nvi, .paths] s' := by
  refine (completes_of_run hexec fun hrests => ⟨_, runAt_eq hrests _, ?_⟩ :
    Completes c s fun s' => s'.dev.nvi = d.nvi).and (completes_of_changesOnly hsettled hexec hbody honly fun _ h htouches => ⟨h.paths, htouches⟩)
  have hraised : d.flt.raised = [] := (congrArg Flt.raised honly.flt).trans hsettled.1
  have hwrites : d.writes = [] := (honly.writes.resolve_left (by simp)).trans hsettled.2
  rw [hbody, Dev.settle_quiet hraised]
  have hnvi := attend_nvi (b := s.dev) hopen
  have hnear := near_attend d s.dev
  generalize d.attend s.dev = d' at hnvi hnear
  have hnone : d'.writes = [] := hnear.writes.trans hwrites
  simp only [commit, hnone, List.foldl_nil]
  exact hnvi

/-- The path's index into the buffer after an access. -/
theorem brIdx_next {d : Dev} : fld ((d.brNext p).ctx p).brIdx 0 5 = (fld (d.ctx p).brIdx 0 5 % 32 + 1) % 32 := by
  rw [Dev.brNext, Dev.ctx_modCtx_same, fld_put_same (by decide)]
  omega

/-! ### The start -/

/-- The command of operation `op`: it is the bridge's, and it is in range or not. -/
structure Starts (t : Ns) (p : Path) (addr : Nat) (c : Instr) (op len : Nat) (good : Bool) : Prop where
  stamp : stampOf c = t
  exec (s : State) : exec c s = runBy t p (fun _ d => d.bridge p op len addr) s
  known : 1 ≤ op ∧ op ≤ 5
  range : brRange op len addr = good

section
variable {c : Instr} {op len addr : Nat} {good : Bool} (hsettled : s.dev.settled) (hstarts : Starts t p addr c op len good)
include hsettled hstarts

theorem completes_refused {code : Nat} (hbody : ((s.dev.at t).disarm p).bridge p op len addr = ((s.dev.at t).disarm p).brFail code) :
    Completes c s fun s' => s'.dev.nvi.brErr = code ∧ s'.dev.nvi.brBusy = s.dev.nvi.brBusy ∧ s'.dev.nvi.buf = s.dev.nvi.buf ∧
      s.touches [.nvi, .paths] s' := by
  obtain ⟨rfl, hexec, -, -⟩ := hstarts
  refine completes_of_changesOnly hsettled (hexec s) hbody (.of [.nvi, .paths] (nvi := .inl (by simp)) (paths := .inl (by simp)))
    fun s' h htouches => ?_
  obtain ⟨x, hnvi⟩ := h.nvi
  rw [hnvi]
  exact ⟨rfl, rfl, rfl, htouches⟩

theorem completes_operation :
    (s.dev.opensTo p → s.dev.nvi.brBusy = false → good = true → Completes c s fun s' =>
      s'.dev.nvi = s.dev.nvi.starts op len addr (s.now t) ∧ s.touches [.nvi, .paths] s') ∧
    (s.dev.opensTo p → s.dev.nvi.brBusy = false → good = false → Completes c s fun s' =>
      s'.dev.nvi.brErr = 2 ∧ s'.dev.nvi.brBusy = s.dev.nvi.brBusy ∧ s'.dev.nvi.buf = s.dev.nvi.buf ∧ s.touches [.nvi, .paths] s') ∧
    (s.dev.opensTo p → s.dev.nvi.brBusy = true → Completes c s fun s' =>
      s'.dev.nvi.brErr = 3 ∧ s'.dev.nvi.brBusy = s.dev.nvi.brBusy ∧ s'.dev.nvi.buf = s.dev.nvi.buf ∧ s.touches [.nvi, .paths] s') ∧
    (s.dev.sup.mode ≠ .service → s.dev.sup.mode ≠ .safe → Completes c s fun s' =>
      s'.dev.nvi.brErr = 1 ∧ s'.dev.nvi.brBusy = s.dev.nvi.brBusy ∧ s'.dev.nvi.buf = s.dev.nvi.buf ∧ s.touches [.nvi, .paths] s') := by
  have hmay (h : s.dev.opensTo p) : ((s.dev.at t).disarm p).brMay p = true := brMay_of_opensTo (d := (s.dev.at t).disarm p) h
  refine ⟨fun hopens hidle hgood => ?_, fun hopens hidle hgood => ?_, fun hopens hbusy => ?_, fun hservice hsafe => ?_⟩
  · obtain ⟨rfl, hexec, hop, hrange⟩ := hstarts
    refine (completes_open hsettled (hexec s) (bridge_starts (hmay hopens) hidle hop (hrange.trans hgood))
      (.of [.nvi, .paths] (nvi := .inl (by simp)) (paths := .inl (by simp)))
      (brOpen_of_opensTo (d := s.dev) hopens)).imp fun s' hs' => ?_
    obtain ⟨hnvi, _, htouches⟩ := hs'
    exact ⟨hnvi, htouches⟩
  · exact completes_refused hsettled hstarts (bridge_range (hmay hopens) hidle hstarts.known (hstarts.range.trans hgood))
  · exact completes_refused hsettled hstarts (bridge_busy (hmay hopens) hbusy)
  · exact completes_refused hsettled hstarts (bridge_denied (brMay_elsewhere (d := (s.dev.at t).disarm p) hservice hsafe))

end

theorem starts_read (len : BitVec 9) (addr : BitVec 21) : Starts t p addr.toNat (.bridgeRead t p len addr) 1 len.toNat
    (decide (1 ≤ len.toNat ∧ len.toNat ≤ 128 ∧ addr.toNat + len.toNat ≤ 0x200000)) :=
  ⟨rfl, fun _ => rfl, by decide, by simp [brRange, Bool.and_assoc]⟩

theorem starts_program (len : BitVec 9) (addr : BitVec 21) : Starts t p addr.toNat (.program t p len addr) 2 len.toNat
    (decide (1 ≤ len.toNat ∧ addr.toNat % 256 + len.toNat ≤ 256)) :=
  ⟨rfl, fun _ => rfl, by decide, by simp [brRange]⟩

theorem starts_erase4k (addr : BitVec 21) : Starts t p addr.toNat (.erase4k t p addr) 3 0 (decide (addr.toNat % 4096 = 0)) :=
  ⟨rfl, fun _ => rfl, by decide, rfl⟩

theorem starts_erase64k (addr : BitVec 21) : Starts t p addr.toNat (.erase64k t p addr) 4 0 (decide (addr.toNat % 65536 = 0)) :=
  ⟨rfl, fun _ => rfl, by decide, rfl⟩

theorem starts_verify (addr : BitVec 21) : Starts t p addr.toNat (.verify t p addr) 5 0 true := ⟨rfl, fun _ => rfl, by decide, rfl⟩

/-! ### Polls, ends and timeouts -/

section
variable (hsettled : s.dev.settled)
include hsettled

/-- A command that changes the bridge alone. -/
theorem completes_nvi {c : Instr} {body : Env → Dev → Dev} (f : Nvi → Nvi) (hexec : exec c s = runAt (stampOf c) body s)
    (hbody : s.after (stampOf c) body = (s.dev.at (stampOf c)).modNvi f) :
    Completes c s fun s' => (∃ x, s'.dev.nvi = { f s.dev.nvi with twpEn := x }) ∧ s.touches [.nvi] s' :=
  completes_of_changesOnly hsettled hexec hbody (.of _ (nvi := .inl (by simp))) fun _ h htouches => ⟨h.nvi, htouches⟩

theorem completes_poll {busy : Bool} (hbusy : s.dev.nvi.brBusy = true) (hlo : 2 ≤ s.dev.nvi.brOp) (hhi : s.dev.nvi.brOp ≤ 4) :
    Completes (.bridgeStatusPoll t busy) s fun s' => s'.dev.nvi.flashBusy = busy ∧ s'.dev.nvi.brBusy = true ∧
      .single 0x05 [] [] ∈ s'.dev.nvi.sent ∧ s.touches [.nvi] s' := by
  refine (completes_nvi (c := .bridgeStatusPoll t busy) hsettled _ rfl (if_pos (by simp [hbusy, hlo, hhi]))).imp
    fun s' hs' => ?_
  obtain ⟨⟨x, hnvi⟩, htouches⟩ := hs'
  rw [hnvi]
  refine ⟨rfl, hbusy, ?_, htouches⟩
  show _ ∈ if s.dev.nvi.sent.contains (.single 0x05 [] []) then s.dev.nvi.sent else s.dev.nvi.sent ++ [.single 0x05 [] []]
  split
  next hsent => exact List.contains_iff_mem.mp hsent
  next => exact List.mem_append_right _ (List.mem_singleton_self _)

/-- The end of an operation, where no transaction at the two-wire port waits. -/
theorem completes_done {r : BridgeResult} {f : Nvi → Nvi} {err : Nat} (hapart : s.dev.twp.stretch = none)
    (hbody : (s.dev.at t).bridgeDone (verifySlot s.env (s.dev.at t)) r = (s.dev.at t).modNvi fun n => Nvi.ends err (f n)) :
    Completes (.bridgeOperationDone t r) s fun s' => (∃ x, s'.dev.nvi = { Nvi.ends err (f s.dev.nvi) with twpEn := x }) ∧ s.touches [.nvi] s' := by
  refine completes_nvi (c := .bridgeOperationDone t r) hsettled (fun n => Nvi.ends err (f n)) rfl ?_
  show Dev.twpResume s.env ((s.dev.at t).bridgeDone (verifySlot s.env (s.dev.at t)) r) = _
  rw [hbody]
  exact twpResume_none (by exact hapart)

theorem completes_bridgeTimeout (hbusy : s.dev.nvi.brBusy = true) (hflash : s.dev.nvi.flashBusy = true)
    (hlate : s.dev.nvi.brAt + brLimit s.dev.nvi.brOp ≤ s.now t) :
    Completes (.bridgeTimeout t) s fun s' => (∃ x, s'.dev.nvi = { s.dev.nvi.ends 4 with twpEn := x }) ∧ s.touches [.nvi] s' := by
  refine completes_nvi (c := .bridgeTimeout t) hsettled (Nvi.ends 4) rfl ?_
  have hcond : (s.dev.nvi.brBusy && s.dev.nvi.flashBusy && decide (s.dev.nvi.brAt + brLimit s.dev.nvi.brOp ≤ s.now t)) = true := by
    rw [hbusy, hflash, decide_eq_true hlate]
    rfl
  exact if_pos hcond

theorem completes_bridgeTimeout_still (h : s.dev.nvi.brBusy = false ∨ s.dev.nvi.flashBusy = false ∨
    s.now t < s.dev.nvi.brAt + brLimit s.dev.nvi.brOp) : Completes (.bridgeTimeout t) s (s.touches []) := by
  have hcond : (s.dev.nvi.brBusy && s.dev.nvi.flashBusy && decide (s.dev.nvi.brAt + brLimit s.dev.nvi.brOp ≤ s.now t)) = false := by
    obtain h | h | h := h
    · rw [h, Bool.false_and, Bool.false_and]
    · rw [h, Bool.and_false, Bool.false_and]
    · rw [decide_eq_false (Nat.not_le_of_lt h), Bool.and_false]
  exact completes_untouched (c := .bridgeTimeout t) hsettled rfl (if_neg (Bool.eq_false_iff.mp hcond))

/-! ### NVI_BR_DATA -/

theorem completes_dataWrite (v : W64) (hopens : s.dev.opensTo p) : Completes (.nviBrDataAccess t p (some v)) s fun s' =>
    s'.dev.nvi = { s.dev.nvi with buf := upd s.dev.nvi.buf (Fin.ofNat 32 (fld (s.dev.ctx p).brIdx 0 5)) fun _ => v } ∧
    fld (s'.dev.ctx p).brIdx 0 5 = (fld (s.dev.ctx p).brIdx 0 5 % 32 + 1) % 32 ∧ s.touches [.nvi, .paths] s' := by
  have hidx : (((s.dev.at t).disarm p).ctx p).brIdx = (s.dev.ctx p).brIdx := by rw [Dev.ctx_disarm_same]; rfl
  have hbody : ((s.dev.at t).disarm p).brWrite p v = (((s.dev.at t).disarm p).modNvi fun n =>
      { n with buf := upd n.buf (Fin.ofNat 32 (fld (s.dev.ctx p).brIdx 0 5)) fun _ => v }).brNext p := by
    rw [← hidx]
    exact if_neg (by rw [brMay_of_opensTo (d := (s.dev.at t).disarm p) hopens]; exact Bool.false_ne_true)
  refine (completes_open (c := .nviBrDataAccess t p (some v)) hsettled rfl hbody (.of [.nvi, .paths] (nvi := .inl (by simp)) (paths := .inl (by simp)))
    (brOpen_of_opensTo (d := s.dev) hopens)).imp fun s' hs' => ?_
  obtain ⟨hnvi, hpaths, htouches⟩ := hs'
  refine ⟨hnvi, ?_, htouches⟩
  have hctx : s'.dev.ctx p = (((s.dev.at t).disarm p).brNext p).ctx p := congrArg (·[pathIndex p]) hpaths
  rw [hctx, brIdx_next, hidx]

theorem completes_dataRead (h : s.dev.nvi.brBusy = false ∨ p = .twp) : Completes (.nviBrDataAccess t p none) s fun s' =>
    fld (s'.dev.ctx p).brIdx 0 5 = (fld (s.dev.ctx p).brIdx 0 5 % 32 + 1) % 32 ∧ s.touches [.paths] s' := by
  have hcond : ¬(s.dev.nvi.brBusy && p != .twp) = true := by
    obtain h | h := h <;> simp [h]
  have hbody : ((s.dev.at t).brRead p).2 = (s.dev.at t).brNext p := congrArg Prod.snd (if_neg hcond)
  refine completes_of_changesOnly (c := .nviBrDataAccess t p none) hsettled rfl hbody (.of [.paths] (paths := .inl (by simp)))
    fun s' h htouches => ⟨?_, htouches⟩
  have hctx : s'.dev.ctx p = ((s.dev.at t).brNext p).ctx p := congrArg (·[pathIndex p]) h.paths
  rw [hctx, brIdx_next]
  rfl

theorem completes_dataEarly (hbusy : s.dev.nvi.brBusy = true) (hp : p ≠ .twp) : Completes (.nviBrDataAccess t p none) s fun s' =>
    s'.dev.nvi.brErr = 6 ∧ s'.dev.nvi.brBusy = true ∧ s.touches [.nvi, .paths] s' := by
  have hbody : ((s.dev.at t).brRead p).2 = ((s.dev.at t).brFail 6).brNext p :=
    congrArg Prod.snd (if_pos (show (s.dev.nvi.brBusy && p != .twp) = true by simp [hbusy, hp]))
  refine completes_of_changesOnly (c := .nviBrDataAccess t p none) hsettled rfl hbody
    (.of [.nvi, .paths] (nvi := .inl (by simp)) (paths := .inl (by simp))) fun s' h htouches => ?_
  obtain ⟨x, hnvi⟩ := h.nvi
  rw [hnvi]
  exact ⟨rfl, hbusy, htouches⟩

end

/-! ### A read of the two-wire port that waits for the bridge (R337) -/

theorem regRow_data : regRow 0x6868 = some ⟨0x68, 1, 0xffffffffffffffff, 0x0, 0xffffffffffffffff⟩ := by decide

/-- NVI_BR_DATA is what the port asks for once the bridge is idle. -/
theorem twpSample_data {e : Env} {d : Dev} (hidle : d.nvi.brBusy = false) (hpage : (d.ctx .twp).page = 0x68) (hidx : (d.ctx .twp).brIdx = 0) :
    d.twpSample e 0x68 = (d.nvi.buf[(0 : Fin 32)], (d.takeTurn .twp).brNext .twp) := by
  have haddr : d.twpReg 0x68 = 0x6868 := by rw [Dev.twpReg, hpage]; rfl
  have hctx : ((d.takeTurn .twp).ctx .twp).brIdx = 0 := by rw [Dev.takeTurn, Dev.ctx_modCtx_same]; exact hidx
  have hread : (d.takeTurn .twp).brRead .twp = (d.nvi.buf[(0 : Fin 32)], (d.takeTurn .twp).brNext .twp) := by
    rw [Dev.brRead, if_neg (by rw [show (d.takeTurn .twp).nvi.brBusy = _ from hidle]; exact Bool.false_ne_true)]
    exact congrArg (fun i : Fin 32 => (d.nvi.buf[i], (d.takeTurn .twp).brNext .twp)) (show Fin.ofNat 32 (fld _ 0 5) = 0 by rw [hctx]; rfl)
  have hreg : (d.takeTurn .twp).regRead e .twp 0x6868 = (((d.takeTurn .twp).brRead .twp).1, false, ((d.takeTurn .twp).brRead .twp).2) := by
    rw [Dev.regRead, regRow_data]
    rfl
  rw [Dev.twpSample, haddr, hreg, hread]
  rfl

/-- The byte that the port still owes is sent, and the transaction ends. -/
theorem twpResume_data {e : Env} {d : Dev} (hidle : d.nvi.brBusy = false) (hpage : (d.ctx .twp).page = 0x68) (hidx : (d.ctx .twp).brIdx = 0)
    (hstretch : d.twp.stretch = some (.read 1 none true)) (hfilled : d.sup.filled = true) (hptr : d.twp.ptr = 0x68) :
    d.twpResume e = ((d.takeTurn .twp).brNext .twp).modTwp fun x =>
      Twp.stopped d.dtime (Twp.gives d.nvi.buf[(0 : Fin 32)] 1 { x with stretch := none }) := by
  have hask : d.twp.ptr.toNat = 0x68 := by rw [hptr]; rfl
  have hreads : d.brReads = false := by rw [Dev.brReads, hidle]; rfl
  have hsample := twpSample_data (e := e) (d := d.modTwp fun x => { x with stretch := none }) hidle hpage hidx
  unfold Dev.twpResume
  simp only [hreads, hstretch, hask, hsample, Bool.false_eq_true, if_false]
  rw [twpBytes_gives _ _ _ _ (by
    show d.twp.ptr.toNat % 8 + 1 ≤ 4
    rw [hask]
    decide), twpEnd_stop (by exact hfilled)]
  rfl

/-- The end of a READ lets the read that waits for it go on. -/
theorem completes_resumed {l : List Byte} (hsettled : s.dev.settled) (hbusy : s.dev.nvi.brBusy = true) (hop : s.dev.nvi.brOp = 1)
    (hl : l.length = s.dev.nvi.brLen) (hmax : s.dev.nvi.brLen ≤ 128) (hmin : 1 ≤ s.dev.nvi.brLen)
    (hstretch : s.dev.twp.stretch = some (.read 1 none true)) (hfilled : s.dev.sup.filled = true) (hptr : s.dev.twp.ptr = 0x68)
    (hpage : (s.dev.ctx .twp).page = 0x68) (hidx : (s.dev.ctx .twp).brIdx = 0) : Completes (.bridgeOperationDone t (.bytes l)) s fun s' =>
      s'.dev.nvi.brBusy = false ∧ s'.dev.twp.stretch = none ∧ s'.dev.twp.out = s.dev.twp.out ++ [l.headD 0] ∧
      s'.dev.twp.busy = false ∧ s'.dev.twp.ptr = 0x69 := by
  have hbody := bridgeDone_read (check := verifySlot s.env (s.dev.at t)) (d := s.dev.at t) hbusy hop l
  have hresume := twpResume_data (e := s.env)
    (d := (s.dev.at t).modNvi fun n => Nvi.ends 0 { n with buf := bufPut n.buf (l.take n.brLen) }) rfl hpage hidx hstretch hfilled hptr
  have hbyte : fld (bufPut s.dev.nvi.buf (l.take s.dev.nvi.brLen))[(0 : Fin 32)] 0 8 = (l.headD 0).toNat := by
    rw [← hl, List.take_length]
    have hput := bufPut_byte s.dev.nvi.buf (l := l) (i := 0) (by omega) (by omega)
    cases l with
    | nil => exact absurd (hl ▸ hmin) (by decide)
    | cons b l => exact hput
  refine completes_of_changesOnly (c := .bridgeOperationDone t (.bytes l)) hsettled rfl ((congrArg (Dev.twpResume s.env) hbody).trans hresume)
    (.of [.nvi, .twp, .paths] (nvi := .inl (by simp)) (twp := .inl (by simp)) (paths := .inl (by simp))) fun s' h _ => ?_
  obtain ⟨x, hnvi⟩ := h.nvi
  obtain ⟨v, q, u, htwp⟩ := h.twp
  have hout : ((leBytes 8 (bufPut s.dev.nvi.buf (l.take s.dev.nvi.brLen))[(0 : Fin 32)].toNat).drop (s.dev.twp.ptr.toNat % 8)).take 1 = [l.headD 0] := by
    rw [hptr]
    refine congrArg (fun b => [b]) (BitVec.eq_of_toNat_eq ?_)
    rw [← hbyte, fld, BitVec.toNat_ofNat, Nat.shiftRight_zero]
  rw [hnvi, htwp]
  refine ⟨rfl, rfl, congrArg (s.dev.twp.out ++ ·) hout, rfl, ?_⟩
  show s.dev.twp.ptr + BitVec.ofNat 8 1 = 0x69
  rw [hptr]
  rfl

end

/-- Settles O59: the bridge is one function of its state and of its path's right; each end is one step of it. -/
theorem flashBridge : Obligations.FlashBridge := by
  unfold Obligations.FlashBridge
  intro s t p hsettled n now may started failed ended apart dataIdx
  refine ⟨fun len addr x hx => ?starts, fun busy hbusy hlo hhi => completes_poll hsettled hbusy hlo hhi, ?read, ?resumed, ?written, ?still,
    ?verified, ?late, ?waits, ?dataWrite, fun h => completes_dataRead hsettled h, fun hbusy hp => completes_dataEarly hsettled hbusy hp⟩
  case starts =>
    obtain ⟨good, hstarts⟩ : ∃ good, Starts t p addr.toNat x.1 x.2.1 x.2.2.1 good ∧ good = x.2.2.2 := by
      simp only [List.mem_cons, List.not_mem_nil, or_false] at hx
      obtain rfl | rfl | rfl | rfl | rfl := hx
      · exact ⟨_, starts_read len addr, rfl⟩
      · exact ⟨_, starts_program len addr, rfl⟩
      · exact ⟨_, starts_erase4k addr, rfl⟩
      · exact ⟨_, starts_erase64k addr, rfl⟩
      · exact ⟨_, starts_verify addr, rfl⟩
    obtain ⟨hstarts, rfl⟩ := hstarts
    exact completes_operation hsettled hstarts
  case read =>
    intro l hapart hbusy hop hl hmax
    refine (completes_done hsettled hapart (bridgeDone_read (d := s.dev.at t) hbusy hop l)).imp fun s' hs' => ?_
    obtain ⟨⟨x, hnvi⟩, htouches⟩ := hs'
    simp only [ended, hnvi]
    refine ⟨⟨rfl, rfl, rfl, rfl, htouches⟩, fun i hi => ?_⟩
    show fld (bufPut n.buf (l.take n.brLen))[Fin.ofNat 32 (i / 8)] _ _ = _
    rw [← hl, List.take_length]
    exact bufPut_byte n.buf (by omega) (by omega)
  case resumed =>
    intro l hclean hbusy hop hl hmax hmin hstretch hfilled hptr hpage hidx
    exact completes_resumed hsettled hbusy hop hl hmax hmin hstretch hfilled hptr hpage hidx
  case written =>
    intro hapart hbusy hlo hhi hflash
    refine (completes_done (f := id) (err := 0) hsettled hapart ((bridgeDone_write (d := s.dev.at t) hbusy hlo hhi).trans
      (if_neg (Bool.eq_false_iff.mp hflash)))).imp fun s' hs' => ?_
    obtain ⟨⟨x, hnvi⟩, htouches⟩ := hs'
    simp only [ended, hnvi]
    exact ⟨rfl, rfl, rfl, rfl, htouches⟩
  case still =>
    intro hapart hbusy hlo hhi hflash
    refine completes_untouched (c := .bridgeOperationDone t .none) hsettled rfl ?_
    show Dev.twpResume s.env ((s.dev.at t).bridgeDone (verifySlot s.env (s.dev.at t)) .none) = _
    rw [bridgeDone_write (d := s.dev.at t) hbusy hlo hhi, if_pos (show (s.dev.at t).nvi.flashBusy = true from hflash)]
    exact twpResume_none (by exact hapart)
  case verified =>
    intro f hapart hbusy hop
    refine (completes_done hsettled hapart (bridgeDone_verify (d := s.dev.at t) hbusy hop f)).imp fun s' hs' => ?_
    obtain ⟨⟨x, hnvi⟩, htouches⟩ := hs'
    simp only [ended, hnvi]
    refine ⟨⟨rfl, rfl, rfl, rfl, htouches⟩, fun hbad => ?_⟩
    exact congrArg LoadErr.code (verifySlot_boot s.env (s.dev.at t) hbad)
  case late =>
    intro hbusy hflash hlate
    rw [← brLimit_eq] at hlate
    refine (completes_bridgeTimeout hsettled hbusy hflash hlate).imp fun s' hs' => ?_
    obtain ⟨⟨x, hnvi⟩, htouches⟩ := hs'
    simp only [ended, hnvi]
    exact ⟨rfl, rfl, rfl, rfl, htouches⟩
  case waits =>
    intro h
    rw [← brLimit_eq] at h
    exact completes_bridgeTimeout_still hsettled h
  case dataWrite =>
    intro v hmay
    exact completes_dataWrite hsettled v hmay

end Sys2Proof.Machine
end

section
/-! What the safe ends of events, changes of the mode and reactions to faults leave of the loader, the hardware fill and
the identifiers of the recovery service (R321, R365, R389 to R391). -/

namespace Sys2Proof.Machine

open Sys2Proof

/-- What the loader and the hardware fill hold, what LOCKED keeps, and what the command will have written to memory. -/
structure LoadView where
  nvi : Nvi
  addr : W64
  svc : W64
  filled : Bool
  lockUs : BitVec 16
  extClk : Bool
  mode : Mode
  latch : Bool
  lastFault : Byte
  byte : Mems → Nat → Byte

def Dev.loadView (d : Dev) : LoadView :=
  ⟨d.nvi, d.twp.addr, d.can[0].svc, d.sup.filled, d.sup.lockUs, d.sup.extClk, d.sup.mode, d.sup.latch, d.sup.lastFault,
    fun m a => (d.writes.foldl (fun m w => w.apply m) m).byte a⟩

section
variable (d : Dev)

@[simp] theorem loadView_raise (r : FaultReq) : (d.raise r).loadView = d.loadView := rfl
@[simp] theorem loadView_modFlt (f : Flt → Flt) : (d.modFlt f).loadView = d.loadView := rfl
@[simp] theorem loadView_modLoft (f : Loft → Loft) : (d.modLoft f).loadView = d.loadView := rfl
@[simp] theorem loadView_modDescr (i : Nat) (f : Descr → Descr) : (d.modDescr i f).loadView = d.loadView := rfl
@[simp] theorem loadView_modBox (b : Fin 128) (f : Box → Box) : (d.modBox b f).loadView = d.loadView := rfl
@[simp] theorem loadView_modBank (k : Fin 4) (f : Bank → Bank) : (d.modBank k f).loadView = d.loadView := rfl
@[simp] theorem loadView_modPsq (k : Fin 4) (f : Psq → Psq) : (d.modPsq k f).loadView = d.loadView := rfl
@[simp] theorem loadView_modPfi (n : Fin 16) (f : Pfi → Pfi) : (d.modPfi n f).loadView = d.loadView := rfl
@[simp] theorem loadView_modIgn (n : Fin 16) (f : Ign → Ign) : (d.modIgn n f).loadView = d.loadView := rfl
@[simp] theorem loadView_modGate (n : Fin 8) (f : Gate → Gate) : (d.modGate n f).loadView = d.loadView := rfl
@[simp] theorem loadView_modCe (k : Fin 8) (f : Ce → Ce) : (d.modCe k f).loadView = d.loadView := rfl
@[simp] theorem loadView_modTmu (u : Fin 8) (f : Tmu → Tmu) : (d.modTmu u f).loadView = d.loadView := rfl

/-- A change of the supervisor that keeps the mode and what the fill and LOCKED set. -/
theorem loadView_modSup {f : Sup → Sup} (h : ∀ s, (f s).filled = s.filled ∧ (f s).lockUs = s.lockUs ∧ (f s).extClk = s.extClk ∧
    (f s).mode = s.mode ∧ (f s).latch = s.latch ∧ (f s).lastFault = s.lastFault := by exact fun _ => ⟨rfl, rfl, rfl, rfl, rfl, rfl⟩) :
    (d.modSup f).loadView = d.loadView := by
  obtain ⟨hfilled, hlock, hclk, hmode, hlatch, hlast⟩ := h d.sup
  simp only [Dev.loadView, Dev.modSup, hfilled, hlock, hclk, hmode, hlatch, hlast]

end

theorem loadView_ite {c : Prop} [Decidable c] {x y : Dev} : (if c then x else y).loadView = if c then x.loadView else y.loadView :=
  apply_ite ..

theorem loadView_foldl {α : Type} (l : List α) (f : Dev → α → Dev) (d : Dev) (h : ∀ d x, (f d x).loadView = d.loadView) :
    (l.foldl f d).loadView = d.loadView := by
  induction l generalizing d with
  | nil => rfl
  | cons x l ih => exact (ih _).trans (h d x)

theorem loadView_foldl_snd {α β : Type} (l : List α) (f : β × Dev → α → β × Dev) (a : β × Dev)
    (h : ∀ a x, (f a x).2.loadView = a.2.loadView) : (l.foldl f a).2.loadView = a.2.loadView := by
  induction l generalizing a with
  | nil => rfl
  | cons x l ih => exact (ih _).trans (h a x)

theorem stale_byte (m : Mems) (i a : Nat) : ((MemOp.stale i).apply m).byte a = m.byte a := by
  have hsram : ((MemOp.stale i).apply m).sram = m.sram := by
    rw [MemOp.apply_sram, MemOp.put]
    exact (apply_ite Mems.sram ..).trans (ite_self _)
  simp only [Mems.byte, hsram]

section
variable (e : Env) (d : Dev)

/-- Only a tag changes, in memory. -/
@[simp] theorem loadView_staleSlot (i : Nat) : (d.staleSlot i).loadView = d.loadView := by
  unfold Dev.staleSlot
  split
  · rfl
  · split
    · rfl
    · have hbyte (m : Mems) : (((d.writes ++ [MemOp.stale i]).foldl (fun m w => w.apply m) m).byte : Nat → Byte) =
          (d.writes.foldl (fun m w => w.apply m) m).byte := by
        rw [List.foldl_append]
        exact funext fun a => stale_byte _ i a
      exact congrArg (LoadView.mk _ _ _ _ _ _ _ _ _) (funext hbyte)

@[simp] theorem loadView_trigger (k : Fin 8) (l i u : Nat) (t : Ns) : (d.trigger k l i u t).loadView = d.loadView := by
  unfold Dev.trigger
  split
  · rfl
  · simp only
    split <;> rfl

@[simp] theorem loadView_fire (kind : Nat) (f : Nat → Bool) : (d.fire kind f).loadView = d.loadView := by
  unfold Dev.fire
  refine loadView_foldl _ _ _ fun d k => loadView_foldl _ _ _ fun d i => ?_
  simp only
  split
  · exact loadView_trigger ..
  · rfl

@[simp] theorem loadView_modMemBank (b : Nat) (f : MemBank → MemBank) : (d.modMemBank b f).loadView = d.loadView := by
  unfold Dev.modMemBank
  split <;> rfl

@[simp] theorem loadView_readWord (b w : Nat) : (d.readWord b w).2.loadView = d.loadView := by
  unfold Dev.readWord
  split
  · rfl
  · split
    · rfl
    · exact loadView_modMemBank ..
    · exact loadView_modMemBank ..

@[simp] theorem loadView_fetchPsq (k : Fin 4) (i : Nat) : (d.fetchPsq e k i).2.2.loadView = d.loadView := by
  unfold Dev.fetchPsq Dev.readAt Dev.raiseProf
  simp only
  split <;> simp

@[simp] theorem loadView_modPart (o : Owner) (f : Part → Part) : (d.modPart o f).loadView = d.loadView := by
  unfold Dev.modPart
  split <;> rfl

@[simp] theorem loadView_argBad (k : Fin 4) (b : Bool) : (d.argBad k b).loadView = d.loadView := by
  unfold Dev.argBad
  split <;> rfl

@[simp] theorem loadView_beginEnd (k : Fin 4) (t tp : Ns) : (d.beginEnd e k t tp).loadView = d.loadView := by
  unfold Dev.beginEnd
  simp only
  split
  · simp
  · simp [Dev.drive, Dev.dacLo]

@[simp] theorem loadView_bankSafeEnd (k : Fin 4) : (d.bankSafeEnd e k).2.loadView = d.loadView := by
  unfold Dev.bankSafeEnd
  simp only
  repeat' split
  all_goals simp [Dev.countSafeEnd]

@[simp] theorem loadView_softShutdown (n : Fin 16) : (d.softShutdown n).loadView = d.loadView := by
  simp [Dev.softShutdown]

@[simp] theorem loadView_ignLast (n : Fin 16) (w : Nat) (b : Bool) (p : Part) : (d.ignLast n w b p).loadView = d.loadView := rfl

@[simp] theorem loadView_closeBox (b : Fin 128) (x : Ending) : (d.closeBox b x).loadView = d.loadView := rfl

@[simp] theorem loadView_completeBox (b : Fin 128) : (d.completeBox b).loadView = d.loadView := rfl

@[simp] theorem loadView_endOutput (o : Owner) (ev : Event) : (d.endOutput e o ev).2.loadView = d.loadView := by
  unfold Dev.endOutput
  simp only
  split
  case h_1 => exact loadView_bankSafeEnd ..
  case h_2 => split <;> simp
  case h_3 => split <;> [skip; split] <;> simp
  case h_4 => split <;> simp
  case h_5 => rfl

@[simp] theorem loadView_endBox (b : Fin 128) (r : EvResult) (n : Nat) : (d.endBox e b r n).loadView = d.loadView := by
  unfold Dev.endBox
  simp only
  split
  case h_3 =>
    have h := loadView_endOutput e d (.box b) (d.box b).ev
    split
    · rfl
    · split <;> simp_all
  all_goals rfl

@[simp] theorem loadView_flush (sel : Event → Bool) (r : EvResult) (n : Nat) : (d.flush e sel r n).loadView = d.loadView := by
  unfold Dev.flush
  refine loadView_foldl _ _ _ fun d b => ?_
  split
  · exact loadView_endBox ..
  · rfl

end

theorem loadView_when {c : Prop} [Decidable c] {x d : Dev} (h : x.loadView = d.loadView) : (if c then x else d).loadView = d.loadView := by
  split
  · exact h
  · rfl

section
variable (e : Env) (d : Dev)

@[simp] theorem loadView_endTemplates : (d.endTemplates e).loadView = d.loadView := by
  unfold Dev.endTemplates
  refine loadView_foldl _ _ _ fun d i => ?_
  split
  · split
    · rfl
    · refine (loadView_modSup _).trans ?_
      split
      · exact loadView_endOutput ..
      · rfl
  · rfl

@[simp] theorem loadView_endTemplatesOf (sel : Event → Bool) : (d.endTemplatesOf e sel).loadView = d.loadView := by
  unfold Dev.endTemplatesOf
  refine loadView_foldl _ _ _ fun d i => ?_
  split
  · split
    · exact (loadView_modSup _).trans (loadView_endOutput ..)
    · rfl
  · rfl

@[simp] theorem loadView_endAllEvents (r : EvResult) (n : Nat) : (d.endAllEvents e r n).loadView = d.loadView := by
  simp [Dev.endAllEvents]

@[simp] theorem loadView_dropResiduals : d.dropResiduals.loadView = d.loadView := rfl

theorem loadView_wakeReq (f : Sup → BitVec 4) : (d.modSup fun s => { s with wakeReq := f s }).loadView = d.loadView := rfl

@[simp] theorem loadView_chanEvent (u : Fin 8) (c : Fin 4) : (d.chanEvent u c).loadView = d.loadView := by
  unfold Dev.chanEvent
  simp only [loadView_ite, loadView_wakeReq, loadView_fire, loadView_modTmu, ite_self]

@[simp] theorem loadView_fireCh (u : Fin 8) (c : Fin 4) : (d.fireCh u c).loadView = d.loadView := loadView_chanEvent ..

@[simp] theorem loadView_tickUnit (u : Fin 8) : (d.tickUnit u).2.loadView = d.loadView := by
  unfold Dev.tickUnit
  simp only
  split
  · rfl
  · refine (loadView_foldl_snd (List.finRange 4) _ _ fun a c => ?_).trans (loadView_modTmu d u _)
    split
    · exact loadView_fireCh ..
    · rfl

@[simp] theorem loadView_acceptEdge (u : Fin 8) (c : Fin 4) (r : Option Bool) (t : Ns) : (d.acceptEdge u c r t).2.loadView = d.loadView := by
  unfold Dev.acceptEdge
  simp only
  split
  · rfl
  · split
    · rfl
    · exact loadView_chanEvent ..

@[simp] theorem loadView_zeroCapture (code : Nat) : (d.zeroCapture code).2.loadView = d.loadView := by
  unfold Dev.zeroCapture
  refine loadView_foldl_snd _ _ _ fun a u => loadView_foldl_snd _ _ _ fun a c => ?_
  simp only
  split
  · exact loadView_acceptEdge ..
  · rfl

@[simp] theorem loadView_tmuEvents (n : Nat) (codes : List Nat) : (d.tmuEvents n codes).loadView = d.loadView := by
  induction n generalizing codes d with
  | zero => rfl
  | succ n ih =>
    unfold Dev.tmuEvents
    split
    · rfl
    · refine (ih ..).trans (loadView_foldl_snd _ _ _ fun a code => (loadView_zeroCapture ..).trans ?_)
      refine loadView_foldl_snd _ _ _ fun a w => ?_
      simp only
      repeat' split
      · rfl
      · exact loadView_tickUnit ..
      · rfl
      · rfl

@[simp] theorem loadView_tmuLevel (code : Nat) (b : Bool) : (d.tmuLevel code b).loadView = d.loadView := by
  unfold Dev.tmuLevel
  refine loadView_foldl _ _ _ fun d w => ?_
  simp only
  repeat' split
  · rfl
  · exact (loadView_tmuEvents ..).trans (loadView_tickUnit ..)
  · rfl
  · rfl

@[simp] theorem loadView_pinEdges (n : Nat) (before : List Bool) : (d.pinEdges n before).loadView = d.loadView := by
  induction n generalizing before d with
  | zero => rfl
  | succ n ih =>
    unfold Dev.pinEdges
    simp only
    split
    · rfl
    · refine (ih ..).trans (loadView_foldl _ _ _ fun d i => ?_)
      split
      · split
        · rfl
        · exact loadView_tmuLevel ..
      · rfl

@[simp] theorem loadView_dropRequest (k : Fin 8) : (d.dropRequest k).loadView = d.loadView := by
  unfold Dev.dropRequest
  simp only
  split <;> rfl

@[simp] theorem loadView_stopEngine (k : Fin 8) : (d.stopEngine k).loadView = d.loadView := by
  simp [Dev.stopEngine]

@[simp] theorem loadView_stopPio (b : Bool) : (d.stopPio b).loadView = d.loadView := loadView_pinEdges ..

@[simp] theorem loadView_stopConverter (c : Fin 2) : (d.stopConverter c).loadView = d.loadView :=
  loadView_foldl _ _ _ fun d i => loadView_staleSlot d i

@[simp] theorem loadView_stopConverters : d.stopConverters.loadView = d.loadView :=
  (loadView_stopConverter ..).trans (loadView_stopConverter ..)

end

theorem loadView_setMode (m : Mode) (d : Dev) : (d.setMode m).loadView = { d.loadView with mode := m } := by
  unfold Dev.setMode
  split
  · next h => subst h; rfl
  · extract_lets old d1 d2 d3 d4 cnvs d5 d6 d7 d8
    have h2 : d2.loadView = d1.loadView := loadView_when (loadView_foldl _ _ _ fun d k => loadView_stopEngine d k)
    have h3 : d3.loadView = d2.loadView := loadView_when rfl
    have h4 : d4.loadView = d3.loadView := loadView_when ((loadView_stopPio ..).trans (loadView_stopConverters ..))
    have h5 : d5.loadView = d4.loadView := loadView_when rfl
    have h6 : d6.loadView = d5.loadView := loadView_when rfl
    have h7 : d7.loadView = d6.loadView := loadView_when (by simp [Dev.loadView])
    calc (d8.fire 5 _).loadView = d8.loadView := loadView_fire ..
      _ = d7.loadView := rfl
      _ = d1.loadView := by rw [h7, h6, h5, h4, h3, h2]
      _ = { d.loadView with mode := m } := rfl

section
variable (e : Env) (d : Dev)

theorem loadView_disableOutput (t : EvType) (n src : Nat) : (d.disableOutput e t n src).loadView = d.loadView := by
  unfold Dev.disableOutput
  extract_lets d1 sel
  have h : d1.loadView = d.loadView := by cases t <;> rfl
  rw [loadView_flush, loadView_endTemplatesOf, Dev.markDisabled, loadView_modFlt, h]

theorem loadView_disableBank (k src : Nat) : (d.disableBank e k src).loadView = d.loadView := by
  unfold Dev.disableBank
  extract_lets sel
  rw [loadView_flush, loadView_endTemplatesOf, Dev.markDisabled, loadView_modFlt]
  rfl

theorem loadView_disableCyl (c src : Nat) : (d.disableCyl e c src).loadView = d.loadView := by
  unfold Dev.disableCyl
  rw [loadView_flush, Dev.markDisabled, loadView_modFlt, Dev.setDis, loadView_modFlt]

theorem loadView_forceBank (k : Fin 4) : (d.forceBank k).loadView = d.loadView := by
  unfold Dev.forceBank
  simp only [loadView_modBank]
  split
  · exact loadView_when ((loadView_completeBox ..).trans (loadView_modPart ..))
  · rfl

theorem loadView_bst (b : Bst) : ({ d with bst := b } : Dev).loadView = d.loadView := rfl

end

end Sys2Proof.Machine
end

section
/-! The faults of a command, with all that follows from them, spare the loader, the fill and the recovery service; LOCKED is
left by none of them (R374, R389 to R391). -/

namespace Sys2Proof.Machine

open Sys2Proof

/-- The loader and what the fill has set are left alone, and LOCKED stays as it is. -/
structure Spares (d d' : Dev) : Prop where
  nvi : d'.nvi = d.nvi
  addr : d'.twp.addr = d.twp.addr
  svc : d'.can[0].svc = d.can[0].svc
  filled : d'.sup.filled = d.sup.filled
  lockUs : d'.sup.lockUs = d.sup.lockUs
  extClk : d'.sup.extClk = d.sup.extClk
  byte : ∀ (m : Mems) (a : Nat), (d'.writes.foldl (fun m w => w.apply m) m).byte a = (d.writes.foldl (fun m w => w.apply m) m).byte a
  locked : d.sup.mode = .locked → d'.sup.mode = .locked ∧ d'.sup.latch = d.sup.latch ∧ d'.sup.lastFault = d.sup.lastFault

theorem Spares.refl (d : Dev) : Spares d d := ⟨rfl, rfl, rfl, rfl, rfl, rfl, fun _ _ => rfl, fun h => ⟨h, rfl, rfl⟩⟩

theorem Spares.trans {a b c : Dev} (h : Spares a b) (g : Spares b c) : Spares a c where
  nvi := g.nvi.trans h.nvi
  addr := g.addr.trans h.addr
  svc := g.svc.trans h.svc
  filled := g.filled.trans h.filled
  lockUs := g.lockUs.trans h.lockUs
  extClk := g.extClk.trans h.extClk
  byte m a := (g.byte m a).trans (h.byte m a)
  locked hmode := by
    obtain ⟨hb, hlatch, hlast⟩ := h.locked hmode
    obtain ⟨hc, hlatch', hlast'⟩ := g.locked hb
    exact ⟨hc, hlatch'.trans hlatch, hlast'.trans hlast⟩

theorem Spares.of_view {d d' : Dev} (h : d'.loadView = d.loadView) : Spares d d' where
  nvi := congrArg LoadView.nvi h
  addr := congrArg LoadView.addr h
  svc := congrArg LoadView.svc h
  filled := congrArg LoadView.filled h
  lockUs := congrArg LoadView.lockUs h
  extClk := congrArg LoadView.extClk h
  byte m a := congrArg (fun v => LoadView.byte v m a) h
  locked hmode := ⟨(congrArg LoadView.mode h).trans hmode, congrArg LoadView.latch h, congrArg LoadView.lastFault h⟩

theorem Spares.ite {c : Prop} [Decidable c] {a x y : Dev} (hx : Spares a x) (hy : Spares a y) : Spares a (if c then x else y) := by
  split
  · exact hx
  · exact hy

theorem Spares.foldl {α : Type} (l : List α) (f : Dev → α → Dev) (d : Dev) (h : ∀ d x, Spares d (f d x)) : Spares d (l.foldl f d) := by
  induction l generalizing d with
  | nil => exact .refl d
  | cons x l ih => exact (h d x).trans (ih _)

section
variable (e : Env) (d : Dev)

/-- Outside LOCKED a change of the mode, with the fault that led to it. -/
theorem spares_enter {m : Mode} {f : Sup → Sup} (hmode : d.sup.mode ≠ .locked) (hf : ∀ s, (f s).filled = s.filled ∧ (f s).lockUs = s.lockUs ∧
    (f s).extClk = s.extClk := by exact fun _ => ⟨rfl, rfl, rfl⟩) : Spares d ((d.modSup f).setMode m) := by
  have hview := loadView_setMode m (d.modSup f)
  obtain ⟨hfilled, hlock, hclk⟩ := hf d.sup
  exact ⟨congrArg LoadView.nvi hview, congrArg LoadView.addr hview, congrArg LoadView.svc hview, (congrArg LoadView.filled hview).trans hfilled,
    (congrArg LoadView.lockUs hview).trans hlock, (congrArg LoadView.extClk hview).trans hclk,
    fun m a => congrArg (fun v => LoadView.byte v m a) hview, fun h => absurd h hmode⟩

theorem spares_endAll (src cause : Nat) : Spares d (d.endAll e src cause) := by
  unfold Dev.endAll
  extract_lets d₁ bst d₂
  have h₂ : Spares d d₂ := .of_view ((loadView_bst d₁ _).trans (loadView_endAllEvents ..))
  split
  · exact h₂
  next hmode => exact h₂.trans (spares_enter d₂ fun h => hmode (.inr h))

/-- The fatal reaction leads to LOCKED, with the latch and the source of the fault. -/
theorem fatal_locks {src : Nat} (h : d.sup.mode ≠ .locked) : Spares d (d.fatal e src) ∧ (d.fatal e src).sup.mode = .locked ∧
    (d.fatal e src).sup.latch = true ∧ (d.fatal e src).sup.lastFault = BitVec.ofNat 8 src := by
  unfold Dev.fatal
  rw [if_neg h]
  extract_lets ended d₁ d₂ bst d₃
  have h₀ : ended.loadView = d.loadView := loadView_foldl _ _ _ fun d b => loadView_when rfl
  have h₁ : d₁.loadView = ended.loadView := loadView_foldl _ _ _ fun d k => loadView_forceBank d k
  have h₃ : d₃.loadView = d.loadView := ((loadView_bst d₂ _).trans (loadView_endAllEvents ..)).trans (h₁.trans h₀)
  clear_value d₃
  have hmode : d₃.sup.mode ≠ .locked := by
    rw [show d₃.sup.mode = d.sup.mode from congrArg LoadView.mode h₃]
    exact h
  have hview := loadView_setMode .locked (d₃.modSup fun s => { s with latch := true, lastFault := BitVec.ofNat 8 src, aliveRun := false, alive := false })
  exact ⟨(Spares.of_view h₃).trans (spares_enter d₃ hmode), congrArg LoadView.mode hview, congrArg LoadView.latch hview,
    congrArg LoadView.lastFault hview⟩

theorem spares_fatal (src : Nat) : Spares d (d.fatal e src) := by
  by_cases h : d.sup.mode = .locked
  · rw [Dev.fatal, if_pos h]
    exact .refl d
  · exact (fatal_locks e d h).1

theorem spares_react (src n : Nat) (obj : ReactObj) : Spares d (d.react e src n obj) := by
  unfold Dev.react
  split
  · exact .of_view (loadView_disableOutput ..)
  · exact .of_view (loadView_disableBank ..)
  · exact .of_view (loadView_foldl _ _ _ fun d k => loadView_disableBank e d k src)
  · exact .of_view (loadView_disableCyl ..)
  · exact spares_endAll ..
  · exact spares_fatal ..
  · exact .refl d

theorem spares_reactAll (l : List FaultReq) : Spares d (d.reactAll e l) := by
  unfold Dev.reactAll
  exact .foldl _ _ _ fun d c => .foldl _ _ _ fun d x => .ite (spares_react ..) (.refl d)

theorem spares_report (r : FaultReq) : Spares d (d.report r) := by
  have h := noted_report r d
  obtain ⟨v, htwp⟩ := h.twp
  exact ⟨h.nvi, by rw [htwp], by rw [h.can], by rw [h.sup], by rw [h.sup], by rw [h.sup], fun m a => by rw [h.writes],
    fun hmode => ⟨by rw [h.sup, hmode], by rw [h.sup], by rw [h.sup]⟩⟩

theorem spares_round : Spares d (d.round e) := by
  unfold Dev.round
  exact ((Spares.of_view (loadView_modFlt ..)).trans (.foldl _ _ _ fun d r => spares_report d r)).trans (spares_reactAll ..)

theorem spares_step : Spares d (if d.flt.raised.isEmpty then d else d.round e) := .ite (.refl d) (spares_round e d)

/-- The faults of a command spare the loader. -/
theorem spares_settle : Spares d (d.settle e) :=
  ((spares_step e d).trans ((spares_step e _).trans (spares_step e _))).trans (.of_view (loadView_modFlt ..))

/-- A fatal fault that is alone leads to LOCKED, and what follows from it leaves LOCKED as it is. -/
theorem settle_fatal {r : FaultReq} (hraised : d.flt.raised = []) (hcls : srcClass r.source = 3) (hreact : r.react = none)
    (hmode : d.sup.mode ≠ .locked) : Spares d ((d.raise r).settle e) ∧ ((d.raise r).settle e).sup.mode = .locked ∧
    ((d.raise r).settle e).sup.latch = true ∧ ((d.raise r).settle e).sup.lastFault = BitVec.ofNat 8 r.source := by
  have hone : (d.raise r).flt.raised = [r] := congrArg (· ++ [r]) hraised
  have hcleared : ((d.raise r).modFlt fun f => { f with raised := [] }) = d := by
    conv_rhs => rw [show d = { d with flt := { d.flt with raised := [] } } by rw [← hraised]]
    rfl
  have hreaction : (d.report r).reactionOf r = 6 := by
    rw [Dev.reactionOf, hreact, hcls]
    rfl
  have hround : (d.raise r).round e = (d.report r).fatal e r.source := by
    unfold Dev.round
    simp only [hone, List.foldl_cons, List.foldl_nil, faultInsert, hcleared]
    exact reactAll_one (by rw [hcls]; decide) e (c := 6) (obj := .all) (by rw [hreaction]; rfl) (by decide)
  have hsup : (d.report r).sup.mode ≠ .locked := by rwa [(noted_report r d).sup]
  obtain ⟨hspares, hlocked, hlatch, hlast⟩ := fatal_locks e (d.report r) (src := r.source) hsup
  have hrest : Spares ((d.report r).fatal e r.source) ((d.raise r).settle e) := by
    have hsettle := ((spares_step e _).trans (spares_step e _)).trans (.of_view (loadView_modFlt (d := _) (f := fun f => { f with raised := [] })))
      (a := (d.report r).fatal e r.source)
    unfold Dev.settle
    simp only [hone, hround, List.isEmpty_cons, Bool.false_eq_true, if_false]
    exact hsettle
  obtain ⟨hmode', hlatch', hlast'⟩ := hrest.locked hlocked
  exact ⟨((spares_report d r).trans hspares).trans hrest, hmode', hlatch'.trans hlatch, hlast'.trans hlast⟩

end

end Sys2Proof.Machine
end

section
/-! The obligation on the release of the reset and the hardware fill (R343, R370, R402, R405). -/

namespace Sys2Proof.Machine

open Sys2Proof

/-! ### The release -/

/-- The loader's own state as the reset is released at `now`. -/
def Nvi.released (boot : List Byte) (now : Ns) (n : Nvi) : Nvi :=
  if (bootCheck boot).code = 0 then { n with phase := .header false, loadFrom := now, bootHdr := boot, sent := probeOf false }
  else { n with phase := .header true, loadFrom := now, slotB := true, fallback := true, errA := bootCheck boot, sent := probeOf true }

theorem release_samples {d : Dev} (h : d.sup.mode = .reset) (role a0 a1 : Bool) (boot : List Byte) : d.release role a0 a1 boot =
    { d with sup := { d.sup with mode := .fill, asel := BitVec.ofNat 2 (2 * a1.toNat + a0.toNat) }, rope := { d.rope with role := role }
             nvi := d.nvi.released boot d.dtime } := if_neg (not_not.mpr h)

theorem bootCheck_magic {boot : List Byte} (h : field boot 0 4 ≠ 0x31424E46) : (bootCheck boot).code = 1 := by
  rw [bootCheck, if_pos (.inl h)]

/-! ### The end of the hardware fill -/

/-- The device once the hardware fill has ended, before the checkers have answered. -/
def Dev.filledBy (e : Env) (us : BitVec 16) (ext : Bool) (d : Dev) : Dev :=
  ({ d with
    sup := { d.sup with filled := true, lockUs := us, extClk := ext }
    nvi := if d.nvi.phase = .header false then d.nvi.setMode d.nvi.bootHdr else d.nvi
    twp := { d.twp with idleAt := d.dtime }
    writes := d.writes ++ fillWrites } : Dev).strapped e

theorem fillEnd_fills {e : Env} {d : Dev} (hmode : d.sup.mode = .fill) (hfilled : d.sup.filled = false) (us : BitVec 16) (ext flagged : Bool) :
    d.fillEnd e us ext flagged = (d.filledBy e us ext).selfTest flagged := by
  unfold Dev.fillEnd
  rw [if_neg (by simp [hmode, hfilled]), fillMost_eq]
  rfl

theorem svcIds_fields (f : Fuses) : fld (put 0 29 f.svcRxId.toNat ||| put 32 29 f.svcTxId.toNat) 0 29 = f.svcRxId.toNat ∧
    fld (put 0 29 f.svcRxId.toNat ||| put 32 29 f.svcTxId.toNat) 32 29 = f.svcTxId.toNat := by
  have hrx := Nat.mod_eq_of_lt f.svcRxId.isLt
  have htx := Nat.mod_eq_of_lt f.svcTxId.isLt
  constructor <;> simp [fld_or, fld_put_same, fld_put_disjoint, hrx, htx]

/-- What the hardware fill leaves, whatever the checkers answer. -/
structure State.Filled (s : State) (us : BitVec 16) (ext : Bool) (s' : State) : Prop where
  byte : ∀ a, a < sramSize → s'.mems.byte a = if recBase ≤ a ∧ a < msgBase then s.mems.byte a else 0
  filled : s'.dev.sup.filled = true
  lockUs : s'.dev.sup.lockUs = us
  extClk : s'.dev.sup.extClk = ext
  addr : s'.dev.twp.addr = put 0 7 (0x40 + s.dev.sup.asel.toNat) ||| 0x7F00 ||| put 16 7 (0x48 + s.dev.sup.asel.toNat) ||| 0xFF000000
  rx : fld s'.dev.can[0].svc 0 29 = s.fuses.svcRxId.toNat
  tx : fld s'.dev.can[0].svc 32 29 = s.fuses.svcTxId.toNat

theorem filledBy_writes {s : State} (hsettled : s.dev.settled) (t : Ns) (us : BitVec 16) (ext : Bool) :
    ((s.dev.at t).filledBy s.env us ext).writes = fillWrites := congrArg (· ++ fillWrites) hsettled.2

theorem filledBy_follows {s s' : State} {t : Ns} {us : BitVec 16} {ext : Bool} {d : Dev} (hsettled : s.dev.settled)
    (hspares : Spares ((s.dev.at t).filledBy s.env us ext) d) (h : Follows s d s') : s.Filled us ext s' := by
  obtain ⟨v, p, q, htwp⟩ := h.twp
  have hsvc : d.can[0].svc = put 0 29 s.fuses.svcRxId.toNat ||| put 32 29 s.fuses.svcTxId.toNat :=
    hspares.svc.trans (congrArg Can.svc (upd_same s.dev.can 0 _))
  obtain ⟨hrx, htx⟩ := svcIds_fields s.fuses
  exact {
    byte := fun a ha => by
      rw [h.mems, hspares.byte, filledBy_writes hsettled]
      exact (fillWrites_fill s.mems).byte a ha
    filled := by rw [h.sup]; exact hspares.filled
    lockUs := by rw [h.sup]; exact hspares.lockUs
    extClk := by rw [h.sup]; exact hspares.extClk
    addr := by rw [htwp]; exact hspares.addr
    rx := by rw [h.can, hsvc, hrx]
    tx := by rw [h.can, hsvc, htx] }

/-- Settles O6: the release is one function of the straps and the boot header; the fill's end is followed, where a checker is
silent, by the fatal reaction, which spares what the fill has set. -/
theorem releaseAndFill : Obligations.ReleaseAndFill := by
  unfold Obligations.ReleaseAndFill
  refine ⟨fun s t role a0 a1 boot hsettled hmode => ?_, fun s t us ext pf af hsettled hmode hfilled => ?_⟩
  · refine completes_of_changesOnly (c := .resetRelease t role a0 a1 boot) (l := [.sup, .rope, .nvi]) hsettled rfl
      (release_samples (d := s.dev.at t) hmode role a0 a1 boot)
      (.of _ (sup := .inl (by simp)) (rope := .inl (by simp)) (nvi := .inl (by simp))) fun s' h htouches => ?_
    obtain ⟨x, hnvi⟩ := h.nvi
    have hreleased : s'.dev.nvi = { s.dev.nvi.released boot (s.now t) with twpEn := x } := hnvi
    rw [Nvi.released] at hreleased
    rw [h.sup, h.rope]
    by_cases hcode : (bootCheck boot).code = 0
    · rw [if_pos hcode] at hreleased
      rw [hreleased]
      refine ⟨rfl, rfl, rfl, rfl, htouches, fun _ => ⟨rfl, rfl, rfl⟩, fun hbad => absurd hcode hbad, fun hmagic => ?_⟩
      exact absurd (hcode.symm.trans (bootCheck_magic hmagic)) (by decide)
    · rw [if_neg hcode] at hreleased
      rw [hreleased]
      exact ⟨rfl, rfl, rfl, rfl, htouches, fun hzero => absurd hzero hcode, fun _ => ⟨rfl, rfl, rfl, rfl⟩, bootCheck_magic⟩
  · by_cases hflagged : pf = true ∧ af = true
    · obtain ⟨rfl, rfl⟩ := hflagged
      refine completes_of_changesOnly (c := .hardwareFillEnd t us ext true true) (l := [.sup, .nvi, .twp, .can, .mems]) hsettled rfl
        (fillEnd_fills (d := s.dev.at t) hmode hfilled us ext true)
        (.of _ (sup := .inl (by simp)) (nvi := .inl (by simp)) (twp := .inl (by simp)) (can := .inl (by simp)) (writes := .inl (by simp)))
        fun s' h htouches => ?_
      obtain ⟨hbyte, hset, hlock, hclk, haddr, hrx, htx⟩ := filledBy_follows hsettled (.refl _) h
      refine ⟨hbyte, hset, hlock, hclk, haddr, hrx, htx, fun _ _ => ⟨?_, ?_, htouches⟩, fun hnot => absurd ⟨rfl, rfl⟩ hnot⟩
      · rw [h.mems, show ((s.dev.at t).filledBy s.env us ext |>.selfTest true).writes = fillWrites from filledBy_writes hsettled t us ext]
        exact (fillWrites_fill s.mems).attrs
      · rw [h.sup]
        exact hmode
    · obtain ⟨hspares, hlocked, hlatch, hlast⟩ := settle_fatal s.env ((s.dev.at t).filledBy s.env us ext)
        (r := { source := 5, ctrl := ctrl 0 0 0xFF, coord := ((s.dev.at t).filledBy s.env us ext).noEvent }) hsettled.1 (show srcClass 5 = 3 by decide) rfl
        (fun h => Mode.noConfusion (hmode.symm.trans h))
      refine completes_of_settled (c := .hardwareFillEnd t us ext pf af) rfl
        ((fillEnd_fills (d := s.dev.at t) hmode hfilled us ext (pf && af)).trans (if_neg (by simpa using hflagged))) rfl fun s' h => ?_
      obtain ⟨hbyte, hset, hlock, hclk, haddr, hrx, htx⟩ := filledBy_follows hsettled hspares h
      refine ⟨hbyte, hset, hlock, hclk, haddr, hrx, htx, fun hpf haf => absurd ⟨hpf, haf⟩ hflagged, fun _ => ?_⟩
      rw [h.sup]
      exact ⟨hlocked, hlatch, hlast⟩

end Sys2Proof.Machine
end

section
/-! The obligation on the sections of an image and its signature (R349, R350, R374). -/

namespace Sys2Proof.Machine

open Sys2Proof

/-! ### A failure from slot A (R351) -/

section
variable (e : Env) (d : Dev)

theorem loadView_present (r : Rec) : (d.present r).loadView = d.loadView := by
  unfold Dev.present
  exact (apply_ite Dev.loadView ..).trans (ite_self _)

theorem loadView_noteSync (from_ : SyncState) (cause : Nat) (tE : Ns) : (d.noteSync from_ cause tE).loadView = d.loadView := by
  unfold Dev.noteSync
  extract_lets p
  split
  exact (loadView_fire _ 4 _).trans (loadView_present d _)

/-- What an image had put into place goes, the loader's own state stays. -/
theorem unload_nvi : (d.unload e).nvi = d.nvi := by
  unfold Dev.unload
  extract_lets d₁ old d₂ d₃
  have h₁ : d₁.loadView = d.loadView := (loadView_dropResiduals _).trans (loadView_endAllEvents e d .endedSync 12)
  clear_value d₁
  have h₃ : d₃.nvi = d₂.nvi := congrArg LoadView.nvi (show d₃.loadView = d₂.loadView by
    unfold d₃
    split
    · rfl
    · exact loadView_noteSync _ old 12 _)
  clear_value d₃
  exact (congrArg Dev.nvi (fillMost_eq d₃)).trans (h₃.trans (congrArg LoadView.nvi h₁))

variable {e d}

/-- Whether or not basecamp has begun, a failure of slot A leads to slot B. -/
theorem loadFail_nvi (hslot : d.nvi.slotB = false) (x : LoadErr) : (d.loadFail e x).nvi = d.nvi.toB x := by
  cases hbegun : d.begun with
  | false => rw [loadFail_toB hbegun hslot]; rfl
  | true =>
    have hnvi := unload_nvi e d
    rw [loadFail_unloads hbegun hnvi hslot]
    exact congrArg (fun n : Nvi => n.toB x) hnvi

end

/-- A command that fails slot A leaves the loader before its attempt at slot B. -/
theorem completes_loadFail {s : State} {c : Instr} {body : Env → Dev → Dev} {x : LoadErr} (hslot : s.dev.nvi.slotB = false)
    (hexec : exec c s = runAt (stampOf c) body s) (hbody : s.after (stampOf c) body = (s.dev.at (stampOf c)).loadFail s.env x) :
    Completes c s fun s' => ∃ b, s'.dev.nvi = { s.dev.nvi.toB x with twpEn := b } := by
  refine completes_of_settled hexec hbody rfl fun s' h => ?_
  obtain ⟨b, hnvi⟩ := h.nvi
  have hsettled : (((s.dev.at (stampOf c)).loadFail s.env x).settle s.env).nvi = s.dev.nvi.toB x :=
    (spares_settle s.env _).nvi.trans (loadFail_nvi (e := s.env) (d := s.dev.at (stampOf c)) hslot x)
  exact ⟨b, hnvi.trans (congrArg (fun n : Nvi => { n with twpEn := b }) hsettled)⟩

/-! ### A section (R349) -/

theorem tryEarly_waits {e : Env} {d : Dev} (h : d.nvi.phase ≠ .early ∨ d.nvi.lastId < 3) : d.tryEarly e = d :=
  if_neg fun ⟨hphase, hlast, _⟩ => h.elim (· hphase) (Nat.not_lt.mpr hlast)

/-- The loader waits for this section. -/
structure Dev.Awaits (d : Dev) (x : FlashSection) : Prop where
  loading : d.loading = true
  filled : d.sup.filled = true
  next : nextId d.nvi.header d.nvi.lastId = some x.id
  len : 8 * x.payload.length = secLen d.nvi.header x.id
  phase : d.nvi.phase = if x.id ≤ 3 then .early else .stream

section
variable {e : Env} {d : Dev} {x : FlashSection} (h : d.Awaits x)
include h

/-- A section that is awaited is checked, and then used or, in the latch, left unused. -/
theorem sectionIn_awaited : d.sectionIn e x =
    if crc32 (wordsBytes x.payload) ≠ x.crc then d.loadFail e { code := 10, section_ := x.id }
    else if x.id ≠ 1 ∧ Config.sha256 (wordsBytes x.payload) ≠ secDigest d.nvi.header x.id then d.loadFail e { code := 11, section_ := x.id }
    else if d.sup.latch && !latchUses x.id then (d.modNvi fun n => { n with lastId := x.id }).tryEarly e
    else match (d.modNvi fun n => { n with lastId := x.id }).useSection e x.id x.payload with
      | .inl y => (d.modNvi fun n => { n with lastId := x.id }).loadFail e y
      | .inr d => d.tryEarly e := by
  have hphase : (if x.id ≤ 3 then d.nvi.phase == .early else d.nvi.phase == .stream) = true := by
    rw [h.phase]
    split <;> rfl
  unfold Dev.sectionIn
  exact if_neg (by simp [h.loading, h.filled, h.next, h.len, hphase])

theorem sectionIn_crc (hcrc : crc32 (wordsBytes x.payload) ≠ x.crc) : d.sectionIn e x = d.loadFail e { code := 10, section_ := x.id } :=
  (sectionIn_awaited h).trans (if_pos hcrc)

theorem sectionIn_digest (hcrc : crc32 (wordsBytes x.payload) = x.crc) (hid : x.id ≠ 1)
    (hbad : Config.sha256 (wordsBytes x.payload) ≠ secDigest d.nvi.header x.id) :
    d.sectionIn e x = d.loadFail e { code := 11, section_ := x.id } := by
  rw [sectionIn_awaited h, if_neg (not_not.mpr hcrc), if_pos ⟨hid, hbad⟩]

/-- After the early sections each one is only noted, once it is in its place. -/
theorem sectionIn_unused (hcrc : crc32 (wordsBytes x.payload) = x.crc) (hlate : 3 < x.id)
    (hgood : Config.sha256 (wordsBytes x.payload) = secDigest d.nvi.header x.id) (hlatch : d.sup.latch = true)
    (huses : latchUses x.id = false) : d.sectionIn e x = d.modNvi fun n => { n with lastId := x.id } := by
  have hstream : d.nvi.phase = .stream := h.phase.trans (if_neg (Nat.not_le.mpr hlate))
  rw [sectionIn_awaited h, if_neg (not_not.mpr hcrc), if_neg fun hbad => hbad.2 hgood, if_pos (by rw [hlatch, huses]; rfl)]
  exact tryEarly_waits (.inl fun hearly => LoadPhase.noConfusion (hstream.symm.trans hearly))

theorem sectionIn_used {d' : Dev} (hcrc : crc32 (wordsBytes x.payload) = x.crc)
    (hgood : x.id = 1 ∨ Config.sha256 (wordsBytes x.payload) = secDigest d.nvi.header x.id) (huses : d.sup.latch = false ∨ latchUses x.id = true)
    (huse : (d.modNvi fun n => { n with lastId := x.id }).useSection e x.id x.payload = .inr d')
    (hwaits : d'.nvi.phase ≠ .early ∨ d'.nvi.lastId < 3) : d.sectionIn e x = d' := by
  have hnot : ¬(d.sup.latch && !latchUses x.id) = true := by
    obtain h | h := huses <;> simp [h]
  rw [sectionIn_awaited h, if_neg (not_not.mpr hcrc), if_neg fun hbad => hgood.elim hbad.1 hbad.2, if_neg hnot, huse]
  exact tryEarly_waits hwaits

end

theorem useSection_signature {e : Env} {d : Dev} {ws : List W64} (h : ws.length = 16) :
    d.useSection e 1 ws = .inr (d.modNvi fun n => { n with sig := wordsBytes ws }) := if_pos h

theorem clearWordErrs_clean {d : Dev} (h : d.memu.errs = []) (b w : Nat) : d.clearWordErrs b w = d := by
  have herrs : d.memu.errs.filter (fun u => u.bank.val != b || u.word != w) = d.memu.errs := by rw [h]; rfl
  unfold Dev.clearWordErrs
  rw [herrs]

theorem foldl_clearWordErrs_clean {d : Dev} (h : d.memu.errs = []) (b : Nat) (l : List Nat) : l.foldl (fun d w => d.clearWordErrs b w) d = d := by
  induction l with
  | nil => rfl
  | cons w l ih => rw [List.foldl_cons, clearWordErrs_clean h, ih]

/-- Where no bit has flipped, the programs go to their areas and nothing else changes. -/
theorem useSection_pio {e : Env} {d : Dev} {ws : List W64} {l : List (Nat × List (BitVec 16))} (herrs : d.memu.errs = []) (hparse : parsePio ws = .ok l) :
    d.useSection e 12 ws = .inr (d.modPios fun p => { p with areas := l.foldl (fun v y => upd v (Fin.ofNat 8 y.1) fun _ => y.2) p.areas }) := by
  show orFail (parsePio ws) _ = _
  rw [hparse, orFail]
  simp only [foldl_clearWordErrs_clean herrs]

theorem unused_in_latch {i : Nat} (h : i ∈ [4, 5, 6, 7, 8, 9, 10, 12, 13]) : 3 < i ∧ i ≠ 1 ∧ latchUses i = false := by
  simp only [List.mem_cons, List.not_mem_nil, or_false] at h
  obtain rfl | rfl | rfl | rfl | rfl | rfl | rfl | rfl | rfl := h <;> decide

/-! ### The signature (R350) -/

section
variable {e : Env} {d : Dev} (hphase : d.nvi.phase = .early) (hlast : d.nvi.lastId ∈ [1, 2]) (hdone : d.nvi.sigDone = false)
  (hpresent : secPresent d.nvi.header 1 = true) (hloading : d.loading = true) (hfilled : d.sup.filled = true)
include hphase hlast hdone hpresent hloading hfilled

theorem signature_awaited : ¬(d.nvi.phase ≠ .early ∨ d.nvi.lastId = 0 ∨ d.nvi.sigDone = true ∨ secPresent d.nvi.header 1 = false ∨
    d.loading = false ∨ d.sup.filled = false) := by
  have hearly : d.nvi.lastId ≠ 0 := fun h => by rw [h] at hlast; exact absurd hlast (by decide)
  simp [hphase, hearly, hdone, hpresent, hloading, hfilled]

theorem sigVerified_noKey (hkey : e.fuses.keyHash = none) : d.sigVerified e = d.loadFail e { code := 8, section_ := 1 } := by
  unfold Dev.sigVerified
  simp only [if_neg (signature_awaited hphase hlast hdone hpresent hloading hfilled), hkey]

variable {hash : List Byte} (hkey : e.fuses.keyHash = some hash)
include hkey

theorem sigVerified_keyed : d.sigVerified e =
    if Config.sha256 (d.nvi.sig.take 64) ≠ hash then d.loadFail e { code := 8, section_ := 1 }
    else if Config.ecdsaVerify (d.nvi.sig.take 64) ((d.nvi.sig.drop 64).take 64) (d.nvi.header.take 712) = false then
      d.loadFail e { code := 9, section_ := 1 }
    else d.modNvi fun n => { n with sigDone := true, signed := true } := by
  have hsecond : d.nvi.lastId < 3 := by
    simp only [List.mem_cons, List.not_mem_nil, or_false] at hlast
    omega
  have hwaits : (d.modNvi fun n => { n with sigDone := true, signed := true }).tryEarly e = d.modNvi fun n => { n with sigDone := true, signed := true } :=
    tryEarly_waits (.inr hsecond)
  unfold Dev.sigVerified
  simp only [if_neg (signature_awaited hphase hlast hdone hpresent hloading hfilled), hkey, hwaits]

theorem sigVerified_otherKey (hhash : Config.sha256 (d.nvi.sig.take 64) ≠ hash) :
    d.sigVerified e = d.loadFail e { code := 8, section_ := 1 } :=
  (sigVerified_keyed hphase hlast hdone hpresent hloading hfilled hkey).trans (if_pos hhash)

variable (hhash : Config.sha256 (d.nvi.sig.take 64) = hash)
include hhash

theorem sigVerified_false (hsig : Config.ecdsaVerify (d.nvi.sig.take 64) ((d.nvi.sig.drop 64).take 64) (d.nvi.header.take 712) = false) :
    d.sigVerified e = d.loadFail e { code := 9, section_ := 1 } :=
  (sigVerified_keyed hphase hlast hdone hpresent hloading hfilled hkey).trans <| (if_neg (not_not.mpr hhash)).trans (if_pos hsig)

theorem sigVerified_true (hsig : Config.ecdsaVerify (d.nvi.sig.take 64) ((d.nvi.sig.drop 64).take 64) (d.nvi.header.take 712) = true) :
    d.sigVerified e = d.modNvi fun n => { n with sigDone := true, signed := true } :=
  (sigVerified_keyed hphase hlast hdone hpresent hloading hfilled hkey).trans <| (if_neg (not_not.mpr hhash)).trans (if_neg fun hfalse => Bool.false_ne_true (hfalse.symm.trans hsig))

end

/-- Settles O16: each check of an awaited section either fails slot A, which the faults of the safe ends cannot change, or
leaves the section in its place. -/
theorem sections : Obligations.Sections := by
  unfold Obligations.Sections
  refine ⟨fun s t x hclean hloading hfilled hslot hnext hlen hphase => ?_,
    fun s t hclean hphase hlast hdone hpresent hmode hfilled hslot => ?_⟩
  · have hawaits : (s.dev.at t).Awaits x := ⟨hloading, hfilled, hnext, hlen, hphase⟩
    have hdigest (hcrc : crc32 (wordsBytes x.payload) = x.crc) (hid : x.id ≠ 1)
        (hbad : Config.sha256 (wordsBytes x.payload) ≠ secDigest s.dev.nvi.header x.id) : Completes (.sectionLoaded t x) s fun s' =>
          s'.dev.nvi.errA = { code := 11, section_ := x.id } ∧ s'.dev.nvi.slotB = true := by
      refine (completes_loadFail (c := .sectionLoaded t x) hslot rfl (sectionIn_digest hawaits hcrc hid hbad)).imp fun s' hs' => ?_
      obtain ⟨b, hnvi⟩ := hs'
      rw [hnvi]
      exact ⟨rfl, rfl⟩
    intro bytes good
    refine ⟨fun hcrc => ?_, fun hcrc hid hwords => ?_, fun hcrc hid hlatch l hparse => ?_, fun hcrc hid hlatch => ?_⟩
    · refine (completes_loadFail (c := .sectionLoaded t x) hslot rfl (sectionIn_crc hawaits hcrc)).imp fun s' hs' => ?_
      obtain ⟨b, hnvi⟩ := hs'
      rw [hnvi]
      exact ⟨rfl, rfl, rfl⟩
    · rw [hid] at hphase
      have hbody := sectionIn_used (e := s.env) hawaits hcrc (.inl hid) (.inr (by rw [hid]; rfl)) (by rw [hid]; exact useSection_signature hwords)
        (.inr (show 1 < 3 by decide))
      refine (completes_nvi (c := .sectionLoaded t x) hclean.1.2 (fun n => { n with lastId := 1, sig := bytes }) rfl hbody).imp fun s' hs' => ?_
      obtain ⟨⟨b, hnvi⟩, htouches⟩ := hs'
      rw [hnvi]
      exact ⟨rfl, rfl, hphase, htouches⟩
    · by_cases hgood : good
      · have hstream : s.dev.nvi.phase = .stream := hphase.trans (if_neg (by rw [hid]; decide))
        have huse := useSection_pio (e := s.env) (d := (s.dev.at t).modNvi fun n => { n with lastId := x.id }) hclean.2.1 hparse
        rw [show (12 : Nat) = x.id from hid.symm] at huse
        have hbody := sectionIn_used hawaits hcrc (.inr hgood) (.inl hlatch) huse (.inl fun hearly => LoadPhase.noConfusion (hstream.symm.trans hearly))
        refine completes_of_changesOnly (c := .sectionLoaded t x) (l := [.nvi, .pio]) hclean.1.2 rfl hbody
          (.of _ (nvi := .inl (by simp)) (pio := .inl (by simp))) fun s' h htouches => ⟨fun _ => ?_, absurd hgood⟩
        obtain ⟨b, hnvi⟩ := h.nvi
        rw [hnvi, h.pio, h.pios]
        exact ⟨hid, htouches, rfl, rfl⟩
      · refine (hdigest hcrc (by rw [hid]; decide) hgood).imp fun s' hs' => ⟨(absurd · hgood), fun _ => ?_⟩
        rw [hid] at hs'
        exact hs'
    · obtain ⟨hlate, hnotSig, huses⟩ := unused_in_latch hid
      by_cases hgood : good
      · refine (completes_nvi (c := .sectionLoaded t x) hclean.1.2 _ rfl (sectionIn_unused hawaits hcrc hlate hgood hlatch huses)).imp
          fun s' hs' => ⟨fun _ => ?_, absurd hgood⟩
        obtain ⟨⟨b, hnvi⟩, htouches⟩ := hs'
        rw [hnvi]
        exact ⟨rfl, htouches⟩
      · exact (hdigest hcrc hnotSig hgood).imp fun s' hs' => ⟨(absurd · hgood), fun _ => hs'.1⟩
  · have hloading : (s.dev.at t).loading = true := by
      unfold Dev.loading
      rw [show (s.dev.at t).nvi.phase = .early from hphase, show (s.dev.at t).sup.mode = .fill from hmode]
      rfl
    have hrefused {code : Nat} (hfail : (s.dev.at t).sigVerified s.env = (s.dev.at t).loadFail s.env { code := code, section_ := 1 }) :
        Completes (.signatureVerified t) s fun s' => s'.dev.nvi.phase = .header true ∧ s'.dev.nvi.slotB = true ∧ s'.dev.nvi.signed = false ∧
          s'.dev.nvi.errA = { code := code, section_ := 1 } := by
      refine (completes_loadFail (c := .signatureVerified t) hslot rfl hfail).imp fun s' hs' => ?_
      obtain ⟨b, hnvi⟩ := hs'
      rw [hnvi]
      exact ⟨rfl, rfl, rfl, rfl⟩
    cases hkey : s.fuses.keyHash with
    | none =>
      exact (hrefused (sigVerified_noKey hphase hlast hdone hpresent hloading hfilled hkey)).imp fun s' hs' =>
        ⟨fun _ => hs', fun _ hsome => nomatch hsome⟩
    | some hash =>
      by_cases hhash : Config.sha256 (s.dev.nvi.sig.take 64) = hash
      · cases hsig : Config.ecdsaVerify (s.dev.nvi.sig.take 64) ((s.dev.nvi.sig.drop 64).take 64) (s.dev.nvi.header.take 712) with
        | false =>
          refine (hrefused (sigVerified_false hphase hlast hdone hpresent hloading hfilled hkey hhash hsig)).imp fun s' hs' =>
            ⟨(nomatch ·), fun hash' hsome => ?_⟩
          obtain rfl := Option.some.inj hsome
          exact ⟨absurd hhash, fun _ _ => hs', fun _ htrue => absurd (hsig.symm.trans htrue) Bool.false_ne_true⟩
        | true =>
          refine (completes_nvi (c := .signatureVerified t) hclean.1.2 (fun n => { n with sigDone := true, signed := true }) rfl
            (sigVerified_true hphase hlast hdone hpresent hloading hfilled hkey hhash hsig)).imp fun s' hs' =>
            ⟨(nomatch ·), fun hash' hsome => ?_⟩
          obtain ⟨⟨b, hnvi⟩, htouches⟩ := hs'
          obtain rfl := Option.some.inj hsome
          rw [hnvi]
          exact ⟨absurd hhash, fun _ hfalse => absurd (hfalse.symm.trans hsig) Bool.false_ne_true, fun _ _ => ⟨hphase, rfl, rfl, htouches⟩⟩
      · refine (hrefused (sigVerified_otherKey hphase hlast hdone hpresent hloading hfilled hkey hhash)).imp fun s' hs' =>
          ⟨(nomatch ·), fun hash' hsome => ?_⟩
        obtain rfl := Option.some.inj hsome
        exact ⟨fun _ => hs', fun h => absurd h hhash, fun h => absurd h hhash⟩

end Sys2Proof.Machine
end
